-- ==== Sys2Proof/Word.lean ====
section
/-! DEFINITION. The words of the block: a 64-bit control-space word and a byte. -/
namespace Sys2Proof

/-- A control-space register word (R12). -/
abbrev Word := BitVec 64

/-- One byte of a memory. -/
abbrev Byte := BitVec 8

/-- A byte string: a message, a flit, a frame or a record, lowest address first (R18). -/
abbrev Bytes := List Byte

end Sys2Proof
end

