-- ==== Sys2Proof/Syntax.lean ====
section
/-! DEFINITION. The commands of the block: one constructor of `Instr` for each row of the opcode table. -/
namespace Sys2Proof

/-- Who makes a control-space access: the Foreman or the Headframe (R7). -/
inductive Requester where
  | foreman
  | headframe
  deriving DecidableEq, Repr

/-- A codeword of a receive lane that holds data of an arriving flit (R397): its physical lane, the symbols corrected in
it, whether it is uncorrectable, and whether it held data of an earlier flit, with which it was counted. -/
structure Codeword where
  lane : Nat
  symbols : Nat
  uncorrectable : Bool
  again : Bool
  deriving DecidableEq, Repr

/-- A flit as it arrives: its slot in the partner's stream, as the alignment codewords number it (R395, R422), the codewords
that hold its data (R397) and its bytes. -/
structure ArrivedFlit where
  slot : Nat
  codewords : List Codeword
  bytes : Bytes
  deriving DecidableEq, Repr

/-- A receive lane that has locked (R404): the partner's module and port that its alignment codewords name, once they
are read, and when those arrive, in picoseconds. -/
structure LaneSeen where
  lane : Nat
  named : Option (Nat × Nat)
  arrival : Nat
  deriving DecidableEq, Repr

/-- A firmware bundle as it arrives (R555): its security version, its version, the digests of its three
components and whether its signature checks. -/
structure Bundle where
  svn : Nat
  version : Nat
  headframe : Nat
  hostBoot : Nat
  foreman : Nat
  signatureOk : Bool
  /-- Its length in bytes; an image slot holds 48 MiB (Table 15.2). -/
  length : Nat := 0
  deriving DecidableEq, Repr

/-- The Redfish resources of Table 15.8. -/
inductive RedfishResource where
  | serviceRoot | sessionService | accountService | chassis | sensors | thresholds | environmentMetrics
  | managers | networkProtocol | logServices | updateService | certificateService | eventService
  | unlisted
  deriving DecidableEq, Repr

/-- A Redfish request on the management port (R567, Table 15.8). -/
inductive Redfish where
  | read (resource : RedfishResource)
  | createAccount (account : Nat)
  | removeAccount (account : Nat)
  | createSession (account : Nat)
  | removeSession (account : Nat)
  | setThreshold (sensor : Nat) (warning critical : Int)
  | setNetworkProtocol (value : Nat)
  | managerReset
  | attest (nonce : Bytes)
  | readLogRecord (seq : Nat)
  | push (bundle : Bundle)
  | commitSvn
  | readCertificate
  | replaceTlsCertificate (certificate : Bytes)
  | subscribe (destination : Nat)
  | unsubscribe (destination : Nat)
  | unlistedAction
  deriving DecidableEq, Repr

/-- What a connection to the management port offers: TLS 1.3 with one of the two suites served, or anything else (R567). -/
inductive TlsOffer where
  | sm4GcmSm3 | aes256GcmSha384 | other
  deriving DecidableEq, Repr

/-- How a Redfish request authenticates: not at all, as a local account, or by a session of one (Table 15.8). -/
inductive RedfishAuth where
  | none
  | basic (account : Nat)
  | session (account : Nat)
  deriving DecidableEq, Repr

/-- A Redfish request with its connection and its sender (R567). -/
structure RedfishCall where
  tls : TlsOffer
  auth : RedfishAuth
  request : Redfish
  deriving DecidableEq, Repr

/-- An MCTP request on the SMBus sideband (R568). -/
inductive Sideband where
  | mctpControl (command : Nat)
  | pldmFirmwareUpdate (bundle : Bundle)
  | pldmReadSensor (sensor : Nat)
  | pldmHottestSite
  deriving DecidableEq, Repr

/-- What a state-memory burst read by patrol scrub holds (R298 to R300). -/
inductive Burst where
  | clean
  | correctable
  | uncorrectable
  deriving DecidableEq, Repr

/-- The commands of the block, in the order of the opcode table. -/
inductive Instr where
  /-- REGISTER_WRITE (R9): A control-space write to a register that has no row of its own updates each field according to
  its access type. -/
  | registerWrite (req : Requester) (addr width : Nat) (value : Word)
  /-- COUNTER_READ_CLEAR (R12): A 64-bit read of an RC counter returns its value and clears all 64 bits at once. -/
  | counterReadClear (addr : Nat)
  /-- CONTROL_SPACE_MISALIGNED_ACCESS (R12): An access of a disallowed width or alignment reaches no register and is counted
  in HDF_CS_ACCESS_ERR_CNT. -/
  | controlSpaceMisalignedAccess (addr width : Nat) (write : Bool)
  /-- PWR_GOOD_RISE (R625): The tray raises PWR_GOOD, and the rails come up in order and the module resets and starts the
  power-up timeline. -/
  | pwrGoodRise (slotId : Nat)
  /-- PWR_GOOD_FALL (R625): PWR_GOOD falls, and every rail is switched off within 1 ms as after a loss of 50 V. -/
  | pwrGoodFall
  /-- INPUT_50V_APPLIED (R624): The 50 V blades mate or the input returns, and the input capacitance charges while the
  Weighbridge supply starts. -/
  | input50vApplied
  /-- INPUT_50V_LOSS (R614): The 50 V input falls below 40 V, and everything including the Weighbridge stops and the open
  record is lost. -/
  | input50vLoss
  /-- INPUT_UNDERVOLTAGE (R570): The input stays below 44 V for more than 1 ms, so IN_LOW is set and the input ceiling
  becomes P3. -/
  | inputUndervoltage
  /-- INPUT_UNDERVOLTAGE_CLEAR (R570): The input has stayed above 45 V for 100 ms, so the input ceiling returns to the
  grade's top step. -/
  | inputUndervoltageClear
  /-- INPUT_SHUTDOWN (R570): The input falls below 40 V for 10 µs or rises above 58 V, and every rail is switched off. -/
  | inputShutdown
  /-- RAIL_TRIP (R572): A rail leaves regulation or exceeds its current limit, and all rails except VDD_MGT and VDD_PLL
  latch off. -/
  | railTrip (rail : Nat)
  /-- THERMAL_TRIP (R595): The hardware comparator sees a site at TRIP_C, sets TRIP and latches the rails off. -/
  | thermalTrip
  /-- REFCLK_PRESENT (R543): REFCLK first appears, which releases reset holding and starts the power-up timeline. -/
  | refclkPresent
  /-- PLL_LOCK_JUDGMENT (R544): At the end of each 64 µs window, a PLL's divided count is compared with its nominal count to
  judge lock. `spread` is by how many counts the modulator's profile lowered a spread PLL's nominal count in the window. -/
  | pllLockJudgment (pll count spread : Nat)
  /-- REGION_PLL_FAILED (R575): A PLL has not relocked within 16 windows, so its region becomes FAILED at the next step
  boundary. -/
  | regionPllFailed (pll : Nat)
  /-- REF_LOSS (R584): The selected reference source is declared lost, so every PLL enters holdover and REF_LOST is set. -/
  | refLoss
  /-- REF_OK (R586): REFCLK has been present and in tolerance for 16 windows, so REF_OK is set. -/
  | refOk
  /-- REFMUX_SWITCH (R581): A write of SEL without FORCE starts a glitch-free switch of the reference multiplexer. -/
  | refmuxSwitch (sel : Nat)
  /-- REFMUX_SWITCH_COMPLETE (R581): The new source passes, PENDING clears, and the PLLs reacquire with phase build-out. -/
  | refmuxSwitchComplete
  /-- REFMUX_FORCE (R583): A write of SEL with FORCE during holdover resets the multiplexer at once with the new select. -/
  | refmuxForce (sel : Nat)
  /-- PLL_RELOCK_COMPLETE (R581): The PLLs finish reacquisition on the new source, and RELOCK and HOLDOVER clear. -/
  | pllRelockComplete
  /-- DROOP_FIRE (R243): A compute region's droop detector fires, stretches one period and sends a lag token. `mv` is how far
  the region's rail has fallen below its setpoint. -/
  | droopFire (region mv : Nat)
  /-- LAG_TOKEN_MIRROR (R244): A compute region at distance d mirrors a stretch ceil(d/2) cycles after the firing. -/
  | lagTokenMirror (region : Nat)
  /-- DROOP_WINDOW (R591): At the end of each 1 ms window, sustained droop firings lower or raise the droop ceiling. -/
  | droopWindow (region : Nat)
  /-- THERMAL_CHECK (R592): Every 1 ms Headframe compares the hottest site with the thresholds and adjusts the thermal
  ceiling. -/
  | thermalCheck
  /-- EMERGENCY_HOLD_END (R593): The emergency hold ends on cooling or after HOLD_MAX_US, fences release, and the ceiling
  becomes P5. -/
  | emergencyHoldEnd
  /-- POWER_CAP_CHECK (R596): Every 10 ms Headframe averages input power and moves the power-cap ceiling. -/
  | powerCapCheck
  /-- FREQUENCY_STEP_CHANGE (R578): At a step boundary the compute regions stop for at most 1.5 µs and switch to the slowest
  ceiling step. -/
  | frequencyStepChange (railsReady : Bool)
  /-- OPTICAL_ENGINE_ON (R598): An optical engine reaches ON 5 ms after power-on, or becomes FAILED if its laser bias fails
  to settle. -/
  | opticalEngineOn (port : Nat) (biasSettled : Bool)
  /-- SENSOR_SAMPLE (R566): Headframe samples a sensor at its period, publishes it and logs threshold crossings. -/
  | sensorSample (sensor : Nat) (reading : Option Int)
  /-- ROM_BOOT (R556): The ROM picks and verifies a firmware slot by the trial, active and inactive order, or enters
  recovery. -/
  | romBoot
  /-- RECOVERY_IMAGE_RECEIVE (R556): In recovery, the ROM writes an image received by PLDM firmware update into slot A. -/
  | recoveryImageReceive (bundle : Bundle)
  /-- FIRMWARE_UPDATE (R557): An update writes a bundle into the inactive slot, verifies it and marks it TRIAL. -/
  | firmwareUpdate (bundle : Bundle)
  /-- TRIAL_PROMOTE (R558): The TRIAL slot becomes ACTIVE after a first model load or after 300 s. -/
  | trialPromote
  /-- COMMIT_SVN (R559): The CommitSVN action raises MIN_SVN to the active slot's SVN. -/
  | commitSvn
  /-- ATTEST (R562): An attestation request with a nonce returns a signed report taken between two steps. -/
  | attest (nonce : Bytes)
  /-- LOG_APPEND (R564): Headframe appends a chained record to the event log, or drops it if the queue is full. -/
  | logAppend (severity source code : Nat) (data : Bytes)
  /-- FLASH_OPERATION_COMPLETE (R550): A flash program or erase ends, and failures are retried once, then the next queued
  request is served. -/
  | flashOperationComplete (verified : Bool)
  /-- REDFISH_REQUEST (R567): A Redfish request over HTTPS on the management port is served or answered 404 or 405. -/
  | redfishRequest (call : RedfishCall)
  /-- SIDEBAND_REQUEST (R568): An MCTP request over SMBus is answered by the ROM or by Headframe firmware. -/
  | sidebandRequest (address : Nat) (request : Sideband)
  /-- MGT_FRAME_RECEIVE (R547): A management-port frame is received, and it is dropped and counted before the MAC is enabled. -/
  | mgtFrameReceive (frame : Bytes)
  /-- STACK_TRAINING_COMPLETE (R638): A stack finishes training, and its Seam controller begins the zero fill. -/
  | stackTrainingComplete (stack : Nat) (trained : Bool)
  /-- STATE_MEMORY_FILL_COMPLETE (R638): A Seam controller finishes zero-filling its stack, sets FILLED and applies recorded
  remaps. -/
  | stateMemoryFillComplete (stack : Nat)
  /-- CPUSH (R94): The control core pushes a 32-byte command image from instruction SRAM into its engine queue. -/
  | cpush (core rs1 : Nat)
  /-- PPATCH (R94): The control core writes half of a working-bank parameter register. -/
  | ppatch (core idx : Nat) (high : Bool) (rs1 : Nat)
  /-- PSET (R94): The control core sets or clears predicate bits from an immediate mask. -/
  | pset (core mask : Nat) (value : Bool)
  /-- PSETP (R94): The control core sets a predicate from a bit of a fixed-bank register. -/
  | psetp (core pred idx bit : Nat) (invert : Bool)
  /-- WAITR (R94): The control core stalls while a scoreboard or unissued range overlaps the named region. -/
  | waitr (core space rs1 rs2 : Nat)
  /-- FARRIVE (R85): The control core arrives at a fence, blocking, drained or ending the entry as its bits select. -/
  | farrive (core fence : Nat) (blocking drained ending : Bool)
  /-- FENCE_ARRIVAL_DRAINED (R86): A drained arrival takes effect in the first cycle in which all queues and the scoreboard
  are empty. -/
  | fenceArrivalDrained (core : Nat)
  /-- FTRD (R94): The control core reads its region's fabric-time copy, one half per instruction. -/
  | ftrd (core rd : Nat) (high : Bool)
  /-- CONTROL_CORE_INSTRUCTION (R92): The control core executes an RV32IMC instruction or a CSR read in its fixed cycle
  count. -/
  | controlCoreInstruction (core : Nat)
  /-- MLOAD (R122): An MXE command loads a weight block or drain scales from Lode into a plane. -/
  | mload (core : Nat)
  /-- MMUL (R100): An MXE command streams activations against a plane and accumulates into a tile. -/
  | mmul (core : Nat)
  /-- MMULZ (R100): An MXE command zeroes a tile and then accumulates as MMUL does. -/
  | mmulz (core : Nat)
  /-- MDRAIN (R126): An MXE command converts a tile and writes its in-bound elements. -/
  | mdrain (core : Nat)
  /-- MZERO (R110): An MXE command zeroes a tile and sets its kind. -/
  | mzero (core : Nat)
  /-- SCHAIN (R155): A Smelter command runs rows through a chain descriptor's stages. -/
  | schain (core : Nat)
  /-- SDESC (R163): A Smelter command loads chain-descriptor entries or fallback instructions. -/
  | sdesc (core : Nat)
  /-- STABLE (R164): A Smelter command loads the pair-rotate angle table. -/
  | stable (core : Nat)
  /-- SFALL (R188): A Smelter command runs a fallback-mode program from the program store until END. -/
  | sfall (core : Nat)
  /-- VNOP (R190): A fallback instruction that does nothing for one cycle. -/
  | vnop (core : Nat)
  /-- VADD (R190): A fallback instruction that adds FP32 lanes. -/
  | vadd (core vd va vb : Nat)
  /-- VSUB (R190): A fallback instruction that subtracts FP32 lanes. -/
  | vsub (core vd va vb : Nat)
  /-- VMUL (R190): A fallback instruction that multiplies FP32 lanes. -/
  | vmul (core vd va vb : Nat)
  /-- VFMA (R190): A fallback instruction that computes a fused multiply-add of FP32 lanes. -/
  | vfma (core vd va vb vc : Nat)
  /-- VMIN (R190): A fallback instruction that takes the lane-wise minimum. -/
  | vmin (core vd va vb : Nat)
  /-- VMAX (R190): A fallback instruction that takes the lane-wise maximum. -/
  | vmax (core vd va vb : Nat)
  /-- VEXP2 (R190): A fallback instruction that computes 2^x per lane. -/
  | vexp2 (core vd va : Nat)
  /-- VLOG2 (R190): A fallback instruction that computes log2 per lane. -/
  | vlog2 (core vd va : Nat)
  /-- VRCP (R190): A fallback instruction that computes a reciprocal per lane. -/
  | vrcp (core vd va : Nat)
  /-- VRSQ (R190): A fallback instruction that computes a reciprocal square root per lane. -/
  | vrsq (core vd va : Nat)
  /-- VCMP (R190): A fallback instruction that compares lanes into the mask MK. -/
  | vcmp (core va vb cond : Nat)
  /-- VSEL (R190): A fallback instruction that selects lanes by the mask. -/
  | vsel (core vd va vb : Nat)
  /-- VIADD (R190): A fallback instruction that adds INT32 lanes. -/
  | viadd (core vd va vb : Nat)
  /-- VAND (R190): A fallback instruction that ANDs INT32 lanes. -/
  | vand (core vd va vb : Nat)
  /-- VOR (R190): A fallback instruction that ORs INT32 lanes. -/
  | vor (core vd va vb : Nat)
  /-- VXOR (R190): A fallback instruction that XORs INT32 lanes. -/
  | vxor (core vd va vb : Nat)
  /-- VSHL (R190): A fallback instruction that shifts INT32 lanes left. -/
  | vshl (core vd va amount : Nat)
  /-- VSHR (R190): A fallback instruction that shifts INT32 lanes right, logically. -/
  | vshr (core vd va amount : Nat)
  /-- VCVTIF (R190): A fallback instruction that converts INT32 to FP32. -/
  | vcvtif (core vd va : Nat)
  /-- VCVTFI (R190): A fallback instruction that converts FP32 to INT32. -/
  | vcvtfi (core vd va : Nat)
  /-- VPERM (R190): A fallback instruction that permutes lanes by index. -/
  | vperm (core vd va vb : Nat)
  /-- VRED (R190): A fallback instruction that reduces all lanes by the LRED tree. -/
  | vred (core vd va mode : Nat)
  /-- VLI (R190): A fallback instruction that loads an immediate into all lanes. -/
  | vli (core vd : Nat) (imm : BitVec 32)
  /-- VLD (R193): A fallback instruction that loads 16 granules from stream A or B. -/
  | vld (core vd : Nat) (fromB : Bool) (ac offset : Nat)
  /-- VST (R193): A fallback instruction that stores a vector register to stream W. -/
  | vst (core va ac offset : Nat)
  /-- ACADD (R190): A fallback instruction that adds a signed immediate to an address counter. -/
  | acadd (core ac imm : Nat)
  /-- LOOP (R191): A fallback instruction that repeats the following instructions a counted number of times. -/
  | loop (core body select count : Nat)
  /-- END (R190): A fallback instruction that ends the program. -/
  | fallEnd (core : Nat)
  /-- DCOPY (R646): A DME command makes a strided copy of granules. -/
  | dcopy (core : Nat)
  /-- DGATHER (R646): A DME command gathers rows by index. -/
  | dgather (core : Nat)
  /-- DSCATTER (R646): A DME command scatters rows by index. -/
  | dscatter (core : Nat)
  /-- DSEND (R228): A DME command makes a hop-exact send to another core. -/
  | dsend (core : Nat)
  /-- DHALO (R139): A DME command sends a tile's edge rows to a neighbour. -/
  | dhalo (core : Nat)
  /-- DFILL (R647): A DME command fills granules with the pad value. -/
  | dfill (core : Nat)
  /-- DHOSTRD (R650): A DME command reads from a host DMA window. -/
  | dhostrd (core : Nat)
  /-- DHOSTWR (R650): A DME command writes to a host DMA window. -/
  | dhostwr (core : Nat)
  /-- DPUT (R455): A DME command sends a Rysia PUT message of class ACT. -/
  | dput (core : Nat)
  /-- DRECV (R452): A DME command binds a fabric window to its landing range for its step and attempt. -/
  | drecv (core : Nat)
  /-- QATTEND (R290): A Seam request command sends an attention query to all 32 Seam engines. -/
  | qattend (core : Nat)
  /-- QAPPEND (R281): A Seam request command writes the step's new key/value entries to pages. -/
  | qappend (core : Nat)
  /-- COMMAND_RETIRE (R81): A lockstep command retires, and its ranges leave the scoreboard at the end of the cycle. -/
  | commandRetire (core push : Nat)
  /-- ELASTIC_COMPLETION (R58): An elastic command's completion arrives, and its ranges leave the scoreboard. -/
  | elasticCompletion (core push : Nat)
  /-- BEAT_EJECT_ARRIVAL (R236): A hop-exact beat reaches its ejection port early and waits in the ejection buffer. -/
  | beatEjectArrival (beat : Nat)
  /-- BEAT_LANDING (R235): A hop-exact beat is released into the destination core in its stamped landing cycle. -/
  | beatLanding (beat : Nat)
  /-- FENCE_RELEASE (R251): A fence releases all members F cycles after the last arrival, starting their next segment. -/
  | fenceRelease (fence : Nat)
  /-- WAIT_WATCHDOG (R90): A fence or elastic wait exceeds CORE_FENCE_WDOG, so a WAIT_WATCHDOG fault is raised. -/
  | waitWatchdog (core : Nat)
  /-- SEQ_WATCHDOG (R261): An entry not started within FMN_SEQ_WDOG raises a WAIT_WATCHDOG fault and aborts the step. -/
  | seqWatchdog (entry : Nat)
  /-- SCRUB_SLOT (R210): When the scrub phase reaches a bank's slot, the slot reads the next row or writes back a queued
  correction. -/
  | scrubSlot (core : Nat)
  /-- IDLE_SCRUB (R211): The operand cache or Stope scrubs a row in a cycle its port is free. -/
  | idleScrub (core : Nat) (stope : Bool) (bank : Nat)
  /-- ECC_WRITE_BACK (R212): A queued corrected row is written back in the bank's next free cycle. -/
  | eccWriteBack (core memory bank : Nat)
  /-- ECC_INJECT_ARM (R220): A write to CORE_ECC_INJECT arms the injection of inverted bits into the next write of a memory. -/
  | eccInjectArm (core : Nat) (stope : Bool) (value : Word)
  /-- CS_LODE_ACCESS (R213): A control-space Lode access during a step takes a scrub slot of its bank. -/
  | csLodeAccess (req : Requester) (core offset width : Nat) (write : Bool) (value : Word)
  /-- CS_MEMORY_ACCESS (R214): A deferred control-space access to core memory is served once the core is idle, faulted or
  halted. -/
  | csMemoryAccess (req : Requester) (core offset width : Nat) (write : Bool) (value : Word)
  /-- PARAMETER_REGISTER_WRITE (R66): A firmware write to a parameter register is applied, or dropped and counted during a
  step. -/
  | parameterRegisterWrite (core idx : Nat) (value : Word)
  /-- CLEAR_SCHED_FAULT (R95): Writing 1 to CORE_SCHED_FAULT.VALID clears the capture, empties the core and returns it to
  IDLE. -/
  | clearSchedFault (core : Nat)
  /-- STEP_START (R260): The sequencer starts a step at its named fabric time and applies its patches. -/
  | stepStart
  /-- COMPOSE_BATCH (R347): The Foreman ranks eligible slots and composes a step's batch and journal record, for a start. -/
  | composeBatch (start : Nat)
  /-- STEP_COMMIT (R334): Once every LAST entry has released, the commit unit samples the error status and commits each
  batch entry. -/
  | stepCommit
  /-- GROUP_WDOG_EXPIRY (R345): The commit barrier has not released within CMT_GROUP_WDOG, so the step fails with
  GROUP_PEER_LOST. -/
  | groupWdogExpiry
  /-- TALLY_ENTRY_WRITE (R313): A firmware write to a Tally entry word applies after any module update made in the same
  cycle. -/
  | tallyEntryWrite (slot offset width : Nat) (value : Word) (sameCycle : Bool)
  /-- TALLY_UE (R314): An uncorrectable Tally error is captured, and the Foreman faults the entry and frees its pages. -/
  | tallyUe (slot : Nat)
  /-- SEAM_QAPPEND_REQUEST (R281): A stack's page engine writes a QAPPEND's tokens, allocating pages as needed. -/
  | seamQappendRequest (stack : Nat)
  /-- SEAM_QATTEND_REQUEST (R290): A stack's attention engine streams the visible positions and writes one record per entry. -/
  | seamQattendRequest (stack : Nat)
  /-- REFRESH (R297): A bank refresh falls due and runs in the attention stream's rotation gap. -/
  | refresh (stack channel waiting : Nat)
  /-- PATROL_SCRUB_READ (R298): Patrol scrub reads the next burst at PATROL_RATE and writes back corrections. -/
  | patrolScrubRead (stack : Nat) (found : Burst)
  /-- STATE_WINDOW_ACCESS (R267): A control-space access to state memory reaches a page, or reads zero and is counted beyond
  range. -/
  | stateWindowAccess (req : Requester) (stack offset width : Nat) (write : Bool) (value : Word)
  /-- SEAM_REGION_WRITE (R268): A write to SEAM_REGION sets table and journal pages, or is ignored when locked or out of
  limits. -/
  | seamRegionWrite (stack : Nat) (value : Word)
  /-- CHANNEL_RETIRE (R302): SEAM_CH_CMD op 1 begins copying a channel to the reserve while writes go to both copies. -/
  | channelRetire (stack channel : Nat)
  /-- CHANNEL_RETIRE_COMPLETE (R302): All frames have been copied, so the channel is fenced and channel 16 serves in its
  place. -/
  | channelRetireComplete (stack : Nat)
  /-- CHANNEL_RETURN (R303): SEAM_CH_CMD op 2 returns a retired channel as the new reserve at a step boundary. -/
  | channelReturn (stack channel : Nat)
  /-- PARK_COMPLETE (R308): The last stack completes parking, so the request becomes PARKED and its expiry is set. -/
  | parkComplete (slot : Nat)
  /-- RESUME_COMPLETE (R307): Resume rebuilds the original pages on every stack, and the request returns to DECODE. -/
  | resumeComplete (slot : Nat)
  /-- PARKED_EXPIRY (R308): A Tally visit finds a PARKED entry past its expiry, so it becomes EXPIRED and its pages are
  freed. -/
  | parkedExpiry (slot : Nat)
  /-- SHIP_OFFER_SEND (R349): The sender's Foreman sends a ship offer for a SHIP_OUT entry. -/
  | shipOfferSend (slot : Nat)
  /-- SHIP_OFFER_RECEIVE (R350): The receiver accepts an offer, reserving a slot and pages, or refuses it. -/
  | shipOfferReceive (msg : Bytes)
  /-- SHIP_ACCEPT_RECEIVE (R351): The sender receives the accept and streams its pages in sequence. -/
  | shipAcceptReceive (msg : Bytes)
  /-- SHIP_REFUSE_RECEIVE (R350): The sender receives a refusal, frees its pages and sets the entry FREE or CANCELLED. -/
  | shipRefuseReceive (msg : Bytes)
  /-- PAGE_SHIP_RECEIVE (R352): The receiver checks and stores one shipped page, re-requesting bad or missing pages. -/
  | pageShipReceive (msg : Bytes)
  /-- SHIP_REREQ_RECEIVE (R356): The sender resends the named pages, or answers SHIP_FAIL if they are freed. -/
  | shipRereqReceive (msg : Bytes)
  /-- SHIP_RETRY_TIMER (R353): Every RETRY_MS the receiver re-requests each page still missing. -/
  | shipRetryTimer (slot : Nat)
  /-- SHIP_TIMEOUT (R354): A shipment fails on exhausted re-requests or TIMEOUT_MS, so the entry becomes STATE_INCOMPLETE. -/
  | shipTimeout (slot : Nat)
  /-- SHIP_DONE_RECEIVE (R356): The sender receives SHIP_DONE, frees its pages and sets the entry FREE or CANCELLED. -/
  | shipDoneReceive (msg : Bytes)
  /-- SHIP_FAIL_RECEIVE (R356): The sender receives SHIP_FAIL, frees its pages and sets the entry FREE or CANCELLED. -/
  | shipFailReceive (msg : Bytes)
  /-- SHIP_HOLD_EXPIRY (R356): The sender's hold expires at 2 × TIMEOUT_MS, so it frees its pages. -/
  | shipHoldExpiry (slot : Nat)
  /-- SHARD_DATA_RECEIVE (R365): A shard segment lands in staging, and the complete shard is verified or discarded. -/
  | shardDataReceive (msg : Bytes)
  /-- SHARD_REQ_RECEIVE (R371): A source serves a requested verified shard or answers NOT_HELD. -/
  | shardReqReceive (msg : Bytes)
  /-- NOT_HELD_RECEIVE (R372): A NOT_HELD answer makes the Foreman request the shard from the next source. -/
  | notHeldReceive (msg : Bytes)
  /-- SHARD_TIMEOUT (R372): A shard has not arrived within TIMEOUT_MS, so it is requested from the next source. -/
  | shardTimeout (manifest index : Nat)
  /-- ASSAY_UNIT_START (R380): Every PERIOD_S/N seconds, Assay starts checking the next unit. -/
  | assayUnitStart
  /-- ASSAY_UNIT_COMPLETE (R379): A unit's 1,024th row is taken and its digest is compared with the shard's. -/
  | assayUnitComplete
  /-- LODE_REPAIR (R382): The Foreman rewrites a core's whole image from a rechecked shard between steps. -/
  | lodeRepair (core : Nat)
  /-- FLIP_TIME_REACHED (R385): At flip time T with old steps finished, the whole-model copy from staging begins. -/
  | flipTimeReached
  /-- FLIP_COPY_COMPLETE (R385): The copy ends, the new epoch runs and the epoch policy is applied to the Tally. -/
  | flipCopyComplete
  /-- DRAIN_END (R392): The drain ends when no entry holds the old epoch or at DRAIN_LIMIT_S, and the fallback applies. -/
  | drainEnd
  /-- PORT_ENABLE (R598): Setting ENABLE powers the optical engine and sends the port to ACQUIRE. -/
  | portEnable (port : Nat)
  /-- PORT_DISABLE (R440): Clearing ENABLE drains an ACTIVE port, sends DOWN, flushes and turns off the optics. -/
  | portDisable (port : Nat)
  /-- PORT_ADMIT (R406): Setting ADMIT makes the port answer INIT with INIT_ACK. -/
  | portAdmit (port : Nat)
  /-- PORT_UNADMIT (R437): Clearing ADMIT in ACTIVE, DEGRADING or HOLD flushes the port. -/
  | portUnadmit (port : Nat)
  /-- PORT_DRAIN_END (R440): The disable drain ends, so DOWN is sent and the port flushes. -/
  | portDrainEnd (port : Nat)
  /-- LANES_LOCKED (R404): Enough receive lanes lock, so the port aligns, picks its width and enters INIT. -/
  | lanesLocked (port : Nat) (lanes : List LaneSeen)
  /-- ACQUIRE_TIMEOUT (R404): 100 ms pass in ACQUIRE without 7 locked lanes, so the attempt restarts and is counted. -/
  | acquireTimeout (port : Nat)
  /-- INIT_TIMER (R405): Every 10 µs in INIT the port sends INIT. -/
  | initTimer (port : Nat)
  /-- INIT_RECEIVE (R406): An INIT is answered with INIT_ACK or NOT_READY, and it flushes a running port. -/
  | initReceive (port : Nat) (msg : Bytes)
  /-- INIT_ACK_RECEIVE (R407): An INIT_ACK completes the exchange, so the port enters ACTIVE. -/
  | initAckReceive (port : Nat) (msg : Bytes)
  /-- NOT_READY_RECEIVE (R406): A NOT_READY answer leaves the port waiting in INIT with no credit. -/
  | notReadyReceive (port : Nat) (msg : Bytes)
  /-- PING_RECEIVE (R405): A PING is answered with a PONG echoing its time. -/
  | pingReceive (port : Nat) (msg : Bytes)
  /-- PONG_RECEIVE (R405): A PONG gives a round trip that updates RTT_NS. -/
  | pongReceive (port : Nat) (msg : Bytes)
  /-- DATA_FLIT_RECEIVE (R410): A good data flit is accepted in sequence, or discarded as a duplicate or out of order. -/
  | dataFlitReceive (port : Nat) (flit : ArrivedFlit)
  /-- CONTROL_FLIT_RECEIVE (R402): A good control flit's ACK is applied and its messages are acted on in payload order. -/
  | controlFlitReceive (port : Nat) (flit : ArrivedFlit)
  /-- NACK_RECEIVE (R415): A NACK acknowledges E − 1 and starts a replay from E unless ignored. -/
  | nackReceive (port : Nat) (msg : Bytes)
  /-- CREDIT_RECEIVE (R422): A CREDIT report recomputes the sender's in-use counts, or is ignored as stale. -/
  | creditReceive (port : Nat) (msg : Bytes)
  /-- NACK_REPEAT_TIMER (R414): 2 × RTT_NS after its last NACK, a receiver still in NACK state repeats it. -/
  | nackRepeatTimer (port : Nat)
  /-- REPLAY_TIMEOUT (R417): The replay timer reaches 3 × RTT_NS, so the sender replays from its oldest entry. -/
  | replayTimeout (port : Nat)
  /-- ACK_ADVANCE_TIMER (R411): The receiver sends an advanced ACK and a CREDIT report at least every 1 µs. -/
  | ackAdvanceTimer (port : Nat)
  /-- TRANSMIT_SLOT (R441): In each flit slot the sender sends a control flit, replay flit or new data flit by priority. -/
  | transmitSlot (port : Nat)
  /-- LANE_WINDOW (R427): At the end of each 1 ms window, a lane over threshold or out of lock is requested for sparing. -/
  | laneWindow (port lane symbols uncorrectable : Nat) (lockLost : Bool)
  /-- SPARE_REQ_RECEIVE (R428): The sender receives SPARE_REQ, mirrors the failing lane onto the spare and answers MIRROR_ON. -/
  | spareReqReceive (port : Nat) (msg : Bytes)
  /-- MIRROR_ON_RECEIVE (R428): The receiver receives MIRROR_ON, deskews the spare, switches at a flit boundary and sends
  SWITCHED. -/
  | mirrorOnReceive (port : Nat) (msg : Bytes)
  /-- SWITCHED_RECEIVE (R428): The sender receives SWITCHED, stops driving the failed lane and answers RELEASED. -/
  | switchedReceive (port : Nat) (msg : Bytes)
  /-- RELEASED_RECEIVE (R428): The receiver receives RELEASED, ending the sparing transition. -/
  | releasedReceive (port : Nat) (msg : Bytes)
  /-- DEGRADE_REQ_RECEIVE (R431): The sender receives DEGRADE_REQ, stops data and marks the switch to 7 lanes. -/
  | degradeReqReceive (port : Nat) (msg : Bytes)
  /-- DEGRADE_MARK_RECEIVE (R431): The receiver receives DEGRADE_MARK, deskews 7 lanes and sends DEGRADE_DONE with E. -/
  | degradeMarkReceive (port : Nat) (msg : Bytes)
  /-- DEGRADE_DONE_RECEIVE (R431): The sender receives DEGRADE_DONE and replays from E. -/
  | degradeDoneReceive (port : Nat) (msg : Bytes)
  /-- WIDEN_REQ_RECEIVE (R433): The sender receives WIDEN_REQ and marks the switch to 8 lanes. -/
  | widenReqReceive (port : Nat) (msg : Bytes)
  /-- WIDEN_MARK_RECEIVE (R433): The receiver receives WIDEN_MARK, deskews 8 lanes and sends WIDEN_DONE. -/
  | widenMarkReceive (port : Nat) (msg : Bytes)
  /-- WIDEN_DONE_RECEIVE (R433): The sender receives WIDEN_DONE and replays from E. -/
  | widenDoneReceive (port : Nat) (msg : Bytes)
  /-- LANE_MESSAGE_RETRY (R429): An unanswered LANE message is resent every 10 µs, and the transition is abandoned after 8
  sends. -/
  | laneMessageRetry (port : Nat)
  /-- WIDTH_CHANGE_TIMEOUT (R432): A width-change hold outlasts 20 µs, so the link is taken as down. -/
  | widthChangeTimeout (port : Nat)
  /-- LANE_SPARE (R428): LANE_CMD op 1 requests sparing of a lane. -/
  | laneSpare (port : Nat) (receive : Bool) (lane : Nat)
  /-- LANE_RETURN (R430): LANE_CMD op 2 retrains a failed lane in the background and makes it the spare. -/
  | laneReturn (port : Nat) (receive : Bool) (lane : Nat)
  /-- LANE_WIDEN (R433): LANE_CMD op 3 restores W = 8 using the spare. -/
  | laneWiden (port : Nat) (receive : Bool)
  /-- LINK_SILENCE (R434): No good flit for 2 µs, too many lost lanes or 8 replay expiries take the link down into HOLD. -/
  | linkSilence (port : Nat)
  /-- HOLD_RETRAIN_COMPLETE (R435): A port in HOLD finishes retraining and starts sending RESUME every 10 µs. -/
  | holdRetrainComplete (port : Nat) (lanes : List LaneSeen)
  /-- LINK_RESUME_RECEIVE (R436): A matching RESUME restores the session and replays from E, and a mismatched one flushes
  the port. -/
  | linkResumeReceive (port : Nat) (msg : Bytes)
  /-- DOWN_RECEIVE (R437): A DOWN message flushes the port, which then returns to ACQUIRE. -/
  | downReceive (port : Nat) (msg : Bytes)
  /-- GRACE_EXPIRY (R437): The grace timer ends before a resume, so the port flushes. -/
  | graceExpiry (port : Nat)
  /-- MESSAGE_RECEIVE (R446): A message is delivered locally or forwarded on a hashed usable port. -/
  | messageReceive (port cls : Nat) (msg : Bytes)
  /-- PUT_RECEIVE (R452): A PUT writes into its bound window, or is held, discarded or refused. -/
  | putReceive (port : Nat) (msg : Bytes)
  /-- PUT_DONE_RECEIVE (R455): A PUT_DONE completes the originating DPUT with its code. -/
  | putDoneReceive (msg : Bytes)
  /-- PUT_WINDOW_TIMEOUT (R453): A PUT held longer than WINDOW_WAIT_US is discarded and answered NO_WINDOW. -/
  | putWindowTimeout (window : Nat)
  /-- TIME_EXCHANGE_TIMER (R458): Every 1 µs each ACTIVE port sends a TIME message. -/
  | timeExchangeTimer (port : Nat)
  /-- TIME_RECEIVE (R459): A TIME message forms an offset sample that drives the servo, or is rejected. -/
  | timeReceive (port : Nat) (msg : Bytes) (arrival : Int)
  /-- SERVO_HOLDOVER (R461): A LOCKED follower with no accepted sample for 10 µs, or 8 large offsets, enters HOLDOVER. -/
  | servoHoldover
  /-- FTC_REBASE (R462): Writing REBASE sets the counter to the parent's time. -/
  | ftcRebase
  /-- FT_BROADCAST (R466): Every 1 µs the master broadcasts fabric time, and each region copy slews to it. -/
  | ftBroadcast
  /-- RACKREF_SYNC_EDGE (R469): A RACKREF_SYNC edge sets the counter to FTC_RACK_EPOCH plus delay and advances the epoch. -/
  | rackrefSyncEdge
  /-- RACKREF_SYNC_MISS (R470): No sync edge within 50 µs of the expected time, so the miss is counted. -/
  | rackrefSyncMiss
  /-- RACKREF_CLK_STOP (R470): RACKREF_CLK stops, so the module enters HOLDOVER on REFCLK. -/
  | rackrefClkStop
  /-- BAR_ARRIVE_RECEIVE (R473): A member combines a child's arrival, and when all are in it forwards or, at the root,
  releases. -/
  | barArriveReceive (port : Nat) (msg : Bytes)
  /-- BAR_RELEASE_RECEIVE (R474): A member forwards a release to its children and schedules it at RELEASE_FT. -/
  | barReleaseReceive (port : Nat) (msg : Bytes)
  /-- BARRIER_RELEASE_ACT (R476): A region's fabric-time copy reaches RELEASE_FT, and the member acts on the release. -/
  | barrierReleaseAct (bar : Nat)
  /-- BARRIER_TIMEOUT (R479): A generation still open after FTC_BAR_WDOG is abandoned and reported. -/
  | barrierTimeout (bar : Nat)
  /-- FOREMAN_MESSAGE (R500): A firmware-defined FOREMAN message, such as a barrier-outcome query, is handled. -/
  | foremanMessage (msg : Bytes)
  /-- MAILBOX_DOORBELL (R523): A write to FMN_MBn_DOORBELL sets the mailbox BUSY and queues its command. -/
  | mailboxDoorbell (mb : Nat)
  /-- RING_DOORBELL (R526): A write to FMN_RINGn_DOORBELL makes the Foreman read the ring's producer index. -/
  | ringDoorbell (ring : Nat)
  /-- RING_POLL (R526): Every 100 µs the Foreman reads every open ring's producer index. -/
  | ringPoll
  /-- HOST_ACCESS (R520): An application-core access reaches the carve-out, staging or Foreman window, or ends in a bus
  error. -/
  | hostAccess (addr width : Nat) (write : Bool) (value : Word)
  /-- SUBMIT (R324): A request command takes a FREE slot to QUEUED and zeroes its output ring. -/
  | submit (ring : Nat)
  /-- CANCEL (R317): A request command cancels a slot at once, or latches the cancel until commit. -/
  | cancel (ring : Nat)
  /-- PARK (R306): A request command starts parking a DECODE request's pages. -/
  | park (ring : Nat)
  /-- RESUME (R309): A request command starts restoring a parked request, or is refused once expired. -/
  | resume (ring : Nat)
  /-- RELEASE (R316): A request command frees a finished entry and its pages. -/
  | release (ring : Nat)
  /-- EXTEND (R532): A request command returns a DONE entry to QUEUED with a continuation prompt. -/
  | extend (ring : Nat)
  /-- REPREFILL (R315): A request command returns a STATE_INCOMPLETE entry to QUEUED with COMMITTED_LEN 0. -/
  | reprefill (ring : Nat)
  /-- SHIP (R531): A request command sets FLAGS.SHIP and the destination on a QUEUED or PREFILL entry. -/
  | ship (ring : Nat)
  /-- QUERY (R533): A request command returns the 64-byte Tally entry. -/
  | query (ring : Nat)
  /-- LOAD_MODEL (R535): A mailbox command checks and loads a build, its programs and its Lode images. -/
  | loadModel (mb : Nat)
  /-- SHARD_POST (R369): A mailbox command hands in a seeded shard header for verification. -/
  | shardPost (mb : Nat)
  /-- UNLOAD_MODEL (R531): A mailbox command releases a model's programs and Lode. -/
  | unloadModel (mb : Nat)
  /-- PREPARE_EPOCH (R377): A mailbox command fetches and writes the next epoch, completing when ready. -/
  | prepareEpoch (mb : Nat)
  /-- EPOCH_FLIP (R383): A mailbox command schedules an epoch flip at T with resume time U. -/
  | epochFlip (mb : Nat)
  /-- CANCEL_PREPARE (R373): A mailbox command discards a preparation and its staged shards. -/
  | cancelPrepare (mb : Nat)
  /-- POLICY (R347): A mailbox command sets AGE, SEAM_BUDGET and the epoch policies. -/
  | policy (mb : Nat)
  /-- RING_OPEN (R531): A mailbox command opens a submission ring at a base and size. -/
  | ringOpen (mb : Nat)
  /-- RING_CLOSE (R531): A mailbox command closes a ring once its consumer index reaches the producer index. -/
  | ringClose (mb : Nat)
  /-- WINDOW_GRANT (R537): A mailbox command grants a host DMA window from the next step boundary. -/
  | windowGrant (mb : Nat)
  /-- WINDOW_REVOKE (R537): A mailbox command revokes a host DMA window from the next step boundary. -/
  | windowRevoke (mb : Nat)
  /-- RUN (R538): A mailbox command starts periodic steps and sets group and coordinator roles. -/
  | run (mb : Nat)
  /-- FABRIC_CONFIG (R534): A mailbox command applies identity, route, barrier, role, source, asymmetry and adopt records in
  order. -/
  | fabricConfig (mb : Nat)
  /-- UNIT (R539): A mailbox command retires or returns a core, site, row, router, channel or lane. -/
  | unitCmd (mb : Nat)
  /-- CLOCK_STEP (R577): A mailbox command requests a frequency step for a compute-region mask. -/
  | clockStep (mb : Nat)
  /-- TIME_MODE (R468): A mailbox command writes the time mode and parents, applied between steps. -/
  | timeMode (mb : Nat)
  /-- CORE_RETIRE (R508): CLU_SPARE_CMD op 1 maps a core's virtual core onto the spare at the next step boundary. -/
  | coreRetire (core : Nat)
  /-- CORE_RETURN (R510): CLU_SPARE_CMD op 2 makes a RETIRED core the spare at a step boundary. -/
  | coreReturn (core : Nat)
  /-- ROW_REPAIR (R512): A write of GO to a row-repair register copies a row into a spare row at the next boundary. -/
  | rowRepair (core : Nat) (stope : Bool) (value : Word)
  /-- LEDGER_REBUILD (R503): The Foreman rebuilds page-ledger entries after an uncorrectable ledger burst. -/
  | ledgerRebuild (stack page : Nat)
  /-- TRANSITION_COMPLETE (R515): A transition ends, and a latched request then runs from the state it left. -/
  | transitionComplete (function : Nat)
  /-- SERVICE_FRAME_RECEIVE (R542): A service-port frame is queued by hash, or dropped, flagged or truncated. -/
  | serviceFrameReceive (port : Nat) (frame : Bytes) (badFcs : Bool)
  /-- WB_START (R602): The Weighbridge PLL first locks, so it starts measuring and opens a START record. -/
  | wbStart
  /-- WB_ENERGY_SAMPLE (R604): The Weighbridge samples voltage and current 500,000 times a second and accumulates energy. -/
  | wbEnergySample (millivolts milliamps : Nat)
  /-- WB_REPORT_FRAME (R607): A report-frame copy is taken, discarded as a duplicate or bad CRC, or starts a new session. -/
  | wbReportFrame (frame : Bytes)
  /-- WB_PERIODIC_SEAL (R611): At each 60 s multiple of fabric time, the open record is sealed, signed and a new one opened. -/
  | wbPeriodicSeal
  /-- WB_DEMAND (R612): A demand pulse from HDF_WB_DEMAND seals a DEMAND record, or is ignored within 1 s of the last seal. -/
  | wbDemand
  /-- WB_TIME_JUMP (R613): Fabric time moves backward or jumps over 120 s, so the open record seals with TIME_JUMP. -/
  | wbTimeJump (newTime : Nat)
  /-- GET_INFO (R616): A sideband request returns the Weighbridge identity, serial, key and certificate. -/
  | getInfo
  /-- GET_RECORD (R616): A sideband request returns up to 240 bytes of a record, or NOT_HELD. -/
  | getRecord (seq offset : Nat)
  /-- GET_RANGE (R616): A sideband request returns the lowest and highest SEQ in the ring. -/
  | getRange
  /-- WB_PLL_LOCK_LOSS (R603): REFCLK disappears or the Weighbridge PLL loses lock while 50 V is present, so the Weighbridge
  stops sampling and the open record gains REF_GAP. -/
  | wbPllLockLoss
  /-- WB_PLL_RELOCK (R603): After a reference gap the Weighbridge PLL locks again and sampling resumes in the still-open
  record. -/
  | wbPllRelock
  /-- RESUME_TIMER (R435): Every 10 µs a port in HOLD that has retrained resends RESUME until it is answered or grace ends. -/
  | resumeTimer (port : Nat)
  /-- LANE_RETRAIN_COMPLETE (R430): A returned lane finishes its background retraining and moves from retraining to spare. -/
  | laneRetrainComplete (port : Nat) (receive : Bool) (lane : Nat)
  /-- RACKREF_CLK_RETURN (R470): RACKREF_CLK returns after it stopped, and the module in compatibility mode leaves its
  REFCLK holdover. -/
  | rackrefClkReturn
  deriving DecidableEq, Repr

end Sys2Proof
end

