-- ==== Sys2Proof/Config.lean ====
section
/-! DEFINITION. What a part fixes at manufacture and every value the spec leaves open (free values): opaque
constants with no body, so that nothing can be proved of their values. -/
namespace Sys2Proof.Config

/-- Grade B (R1, Table 15.3 GRADE); grade A otherwise. -/
opaque gradeB : Bool
/-- The fabric reach of the configuration record: 2 km; 500 m otherwise (R1, Tables 0.1, 15.3). -/
opaque reach2km : Bool
/-- The order code that the configuration record's grade and reach name (R1, Table 0.1): ORDER of Table 15.3. -/
def orderCode : String := (if gradeB then "PHT-T3M-B" else "PHT-T3M-A") ++ (if reach2km then "-L" else "")
/-- ROW_REPAIRS of the configuration record: site, core, memory, bank and row (Table 15.3, R219). -/
opaque rowRepairs : List (Nat × Nat × Nat × Nat × Nat)
/-- STACK_MAP of the configuration record: the channels and the frames of each stack retired at manufacture (Table
15.3). -/
opaque stackMap : Nat → List Nat × List Nat
/-- Stepping A1 (R3); B0 otherwise. -/
opaque steppingA1 : Bool
/-- The Smelter table revision of the stepping (CORE_SML_TABLE_REV). -/
opaque tableRev : BitVec 16
/-- The delay that crossing calibration measured, in eighths of a cycle: boundary `x`, 0 to 6 (SHAFT_XING_MEAS), and the fence
path, 7 (R239). -/
opaque crossingMeasure : Nat → BitVec 8
/-- CAL_LIMITS of the configuration record: the crossing and fence measurement limits, in eighths of a cycle, by boundary, 0 to
6, or the fence path, 7 (Table 15.3). -/
opaque calLimits : Nat → BitVec 8
/-- The table revision and the calibration class in the signed bit-identity record (Table 12.3). -/
opaque recordedTableRev : BitVec 16
opaque recordedCalClass : BitVec 8
/-- The grid signature of the configuration record (R246). -/
opaque gridSig : BitVec 40
/-- The spare physical core of a site (Table 15.3 SPARE_CORE). -/
opaque spareCore : Nat → Fin 17
/-- The module's serial (Table 15.3 SERIAL). -/
opaque serial : BitVec 64

/-- Vendor identifier, mask-ROM version and serial of the Weighbridge (Table 17.7, WB_SERIAL). -/
opaque wbVendor : BitVec 32
opaque wbRomVersion : BitVec 32
opaque wbSerial : BitVec 64
/-- Byte `i` of the Weighbridge's 64-byte public key, and Puholt's certificate for it (Table 17.5). -/
opaque wbPublicKeyByte : Nat → Byte
opaque wbCertificate : Bytes
/-- The SM2 signature of a message under a key: 1 the Weighbridge's, 0 the module's, 2 the factory's. -/
opaque sm2Signature : Nat → Bytes → BitVec 512
/-- KIND of a record sealed by a time jump: the spec names none (R613, Table 17.4). -/
opaque timeJumpKind : Nat → Fin 3

/-- The fastest frequency step of the grade: P0 for A, P1 for B (R1, Table 16.3). -/
def topStep : Nat := if gradeB then 1 else 0

/-- A measured delay, rounded up, is above 4 cycles, so that L_x is 6, or F 28 (R239, R240). -/
def slowCrossing (x : Nat) : Bool := decide (32 < (crossingMeasure x).toNat)

/-- L_x: 4 or 6 cycles (R239). -/
def crossingLatency (x : Nat) : Nat := if slowCrossing x then 6 else 4

/-- F: 24 or 28 cycles (R239). -/
def fenceLatency : Nat := if slowCrossing 7 then 28 else 24

/-- The boundary, 0 to 6, or the fence path, 7, that measured more than 6 cycles or than its limit in the configuration record
(R241, Table 15.3), the lowest of them. -/
def calibrationFail : Option Nat :=
  (List.range 8).find? fun x => decide (48 < (crossingMeasure x).toNat) || decide ((calLimits x).toNat < (crossingMeasure x).toNat)

/-- The links that elastic traffic of a site takes, as routers and directions in order, by its end: a stack, 0 to 31, the host
bridge, 32, the Rysia ports, 33, the control region, 34. The spec gives such traffic no route (R233). -/
opaque elasticWay : Nat → Nat → List (Fin 136 × Fin 4)

/-- SEVERITY, SOURCE, CODE and DATA of the log record of an event of the model's list: the spec gives none but the
severity of a rail trip (R564, R572). Events: 1 rail trip, 2 thermal trip, 3 PLL without lock, 4 reference lost,
5 no PUF key, 6 no configuration copy, 7 update refused, 8 sensor threshold, 9 sensor failed, 10 Sterling mode change,
11 Assay mismatch, 12 calibration failure, 13 bit-identity mismatch. -/
opaque eventSeverity : Nat → Fin 4
opaque eventSource : Nat → Fin 11
opaque eventCode : Nat → BitVec 16
opaque eventData : Nat → BitVec 288
/-- The raw syndrome for an error pattern at a codeword (R651). -/
opaque syndrome : Nat → Nat → BitVec 16
/-- How an error beyond a code's detection is handled (R651): 0 corrected wrongly, 1 uncorrectable, 2 no error. -/
opaque beyondDetection : Nat → Nat → Fin 3
/-- The codeword bits such a wrong correction flips, by codeword and error pattern: the first, the second of a code that
corrects two, and whether there is a second (R651). -/
opaque miscorrectedBit : Nat → Nat → Nat
opaque miscorrectedSecond : Nat → Nat → Nat
opaque miscorrectsTwo : Nat → Nat → Bool

/-- The NaN bits an operation yields where the spec only says NaN: sign and payload, by operation and operands. -/
opaque nanBits : Nat → Nat → Nat → BitVec 32
/-- Which of the FP32 values that the spec's bound allows the fixed tables give (R156, R160, R177), by function and
operand: 0 EXP2, 1 LOG2, 2 RCP, 3 RSQ, 4 cosine, 5 sine, 6 the inner logarithm of SAMPLE's noise. The spec prints no
table. -/
opaque smelterChoice : Nat → Nat → Nat
/-- RSQ of −0: the spec states no result. -/
opaque rsqNegativeZero : BitVec 32
/-- The mask of a VCMP of a reserved condition, and the value of a VRED of the reserved mode, by their operands (Table 4.6). -/
opaque reservedCompare : Nat → List (BitVec 32) → List (BitVec 32) → BitVec 64
opaque reservedReduce : List (BitVec 32) → BitVec 32
/-- The partner of a ROT element whose segment runs past the row: the spec gives no value (R176). -/
opaque missingPartner : Nat → BitVec 32

/-- The servo's filter and its rate correction: the filtered offset from the last one and a new offset (2⁻⁸ ns), and the
rate from the last one and the filtered offset (R461: the spec gives neither). -/
opaque timeFilter : Int → Int → Int
opaque timeRate : Int → Int → Int
/-- The page geometry word of a model (Table 7.6): the spec gives no field of a build that carries it. -/
opaque rootGeometry : Nat → BitVec 32
/-- The first global layer that this module holds of a model (R349: no field of a build carries it). -/
opaque firstLayer : Nat → BitVec 8

/-- The step-table entry that is a build's table-load entry, by PROGRAM_DIGEST: no field of a build names it (R506). -/
opaque tableLoadEntry : Nat → Fin 1024
/-- SEAM_REGION of a stack, by PROGRAM_DIGEST: no field of a build carries it (R535). -/
opaque seamRegion : Nat → Nat → BitVec 32

/-- The barrier, if any, by which the coordinator releases a step's start over the group: the spec gives it no number
(R26, R475). -/
opaque startBarrier : Nat

/-- The bytes of the configuration record behind VERSION and before SIGNATURE: the layout of its fields is not given (Table
15.3). -/
opaque configBody : Bytes
/-- The nominal count over 64 µs of a PLL whose multiple of REFCLK is fixed by the stepping and not given (Table 16.2). -/
opaque fixedPllCount : Nat → BitVec 32
/-- By how many eighths of a period beyond the first a droop of some mV stretches it: the spec says according to the droop (R243). -/
opaque droopStretch : Nat → Fin 4
/-- SLOT, SVN and VERSION (0 to 2) of the measurements of the configuration record and of the field repairs, which have
none of their own (Table 15.5). -/
opaque measurementFree : Nat → Nat → BitVec 64
/-- The device certificate (R560). -/
opaque deviceCertificate : Bytes
/-- HTTP status of a Redfish request that is served, and of one that is not for another reason than R567's. -/
opaque redfishStatus : Nat → BitVec 10
/-- The body of a Redfish resource, by the standard's own schema, from the data it shows: the spec gives no schema (R567). -/
opaque redfishBody : Nat → Bytes → Bytes

/-- A fresh value for the k-th use of a free value of some width: the spec states no result there. -/
opaque freeNat : Nat → Nat

end Sys2Proof.Config
end

