-- ==== Sys2Proof/Machine/State.lean ====
section
/-! DEFINITION. The state of the block: every register, memory, queue, mode and pin the spec names, as plain data,
and the state right after reset. -/
namespace Sys2Proof.Machine

/-- A sparse map by number: strictly rising keys where the operations of `Bits.lean` built it. -/
abbrev NMap (α : Type) := List (Nat × α)

/-! ## Headframe (chapter 15) -/

/-- STATE of a boot header (R549). -/
inductive SlotState where
  | empty | trial | active | inactive | bad
  deriving DecidableEq, Repr

/-- One copy of a boot header, with the SM3 digest that stands behind its fields (R549). -/
structure BootHeader where
  state : SlotState
  tries : Nat
  svn : Nat
  minSvn : Nat
  version : Nat
  gen : Nat
  digest : Bytes
  deriving DecidableEq, Repr

/-- One flash device: its size in bytes, whether a JESD216 parameter table names it, the two copies of its boot header and its
image slot (R548, R549, Table 15.2). -/
structure FlashSlot where
  size : Nat
  jesd216 : Bool
  copy0 : BootHeader
  copy1 : BootHeader
  bundle : Option Bundle
  deriving DecidableEq, Repr

/-- A field-repair record (R507, R553): the unit it names. -/
structure FieldRepair where
  kind : Nat
  site : Nat
  core : Nat
  memory : Nat
  bank : Nat
  row : Nat
  deriving DecidableEq, Repr

/-- A field-repair record as flash holds it: its SM3 digest, and the digest of the record before (R553). -/
structure StoredRepair where
  repair : FieldRepair
  prev : Bytes
  digest : Bytes
  deriving DecidableEq, Repr

/-- A request to the flash devices, in the order of service of R550; a log record has the fabric time and the boot count of its
event (R564). -/
inductive FlashRequest where
  | header (slotB : Bool) (hdr : BootHeader)
  | logRecord (severity source code : Nat) (data : Bytes) (ft boot : Nat) (unlocked : Bool)
  | fieldRepair (repair : FieldRepair)
  | update (slotB : Bool) (bundle : Bundle)
  deriving DecidableEq, Repr

/-- Thresholds of a sensor, set through Redfish or at reset (R566, R622). -/
structure Thresholds where
  warning : Int
  critical : Int
  deriving DecidableEq, Repr

/-- Headframe's state beside its registers (chapter 15). The fields down to `bootCount` live in flash and survive
reset. -/
structure Headframe where
  slotA : FlashSlot
  slotB : FlashSlot
  /-- Whether the signature of configuration record copy A, and of copy B, checks (R552). -/
  configA : Bool
  configB : Bool
  /-- Whether the PUF rebuilds the key and the key matches the certificate (R560, R561). -/
  pufOk : Bool
  repairsA : List StoredRepair
  repairsB : List StoredRepair
  /-- The event log, oldest record first, each of 128 bytes (R563, R564). -/
  log : List Bytes
  /-- Log records ever written: SEQ of the latest (R564). -/
  logSeq : Nat
  /-- CHAIN of the latest record (R564). -/
  logTip : Bytes
  bootCount : Nat
  accounts : List Nat
  tlsCertificate : Bytes
  /-- Requests waiting for flash and the one being served, with whether it was retried (R550). -/
  flashQueue : List FlashRequest
  flashRunning : Option (FlashRequest × Bool)
  /-- A record was dropped since the last one written (R565). -/
  lostBefore : Bool
  /-- The write-protect bits of the boot-header ranges are set (R556). -/
  writeProtect : Bool
  /-- Headframe firmware runs, since this fabric time (R558). -/
  firmwareSince : Option Nat
  /-- The Foreman has admitted links and served a first model load (R558). -/
  firstLoad : Bool
  /-- The management MAC is enabled (R547, Table 15.1). -/
  macEnabled : Bool
  /-- The ROM has started, so the sideband answers (R547). -/
  romStarted : Bool
  /-- Application cores and Foreman released (R552). -/
  hostReleased : Bool
  /-- A PLL other than the Headframe PLL failed to lock, so loads are refused until reset (R545). -/
  loadsRefused : Bool
  /-- Measurements of the stages started (R554): digests of Headframe, host boot and Foreman firmware, then of the configuration
  record and of the field repairs. -/
  measurements : List Nat
  thresholds : NMap Thresholds
  /-- Consecutive periods without a valid sample, by sensor (R566). -/
  sensorMissed : NMap Nat
  /-- Fabric time of the last valid sample, by sensor (AGE_MS). -/
  sensorFt : NMap Nat
  sessions : List Nat
  subscriptions : List Nat
  networkProtocol : Nat
  /-- Attestation nonces waiting for the instant between two steps, and whether Redfish asked (R562, Table 15.8). -/
  attestWaiting : List (Bytes × Bool)
  /-- The last attestation report, 0 bytes when none or refused (R562, R561). -/
  attestReport : Bytes
  /-- HTTP status and body of the last Redfish answer (R567). -/
  redfishStatus : Nat
  redfishBody : Bytes
  /-- The last sideband answer; none when the request was ignored (R547, R568). -/
  sidebandReply : Option Bytes
  /-- Management frames accepted (R547). -/
  mgtFrames : List Bytes
  /-- Event notifications pushed to the subscriptions (Table 15.8), newest last. -/
  eventsPushed : List (Nat × Nat)
  /-- A restart asked of the tray's power control through Managers.Reset (Table 15.8). -/
  resetRequested : Bool
  /-- The slot straps as the ROM read them (R626). -/
  slotId : Nat
  deriving DecidableEq, Repr

/-! ## Power and clocks (chapters 16 and 18) -/

/-- A request for a frequency step: the step, the regions named, and the mailbox that asked (R525, R577). -/
structure StepRequest where
  step : Nat
  mask : Nat
  mailbox : Option Nat
  deriving DecidableEq, Repr

/-- Power, reference and clock state beside the registers of Tables 16.6 and 16.9. -/
structure Power where
  /-- 50 V at the blades (R6, R624). -/
  input50 : Bool
  /-- The tray's PWR_GOOD (R625). -/
  pwrGood : Bool
  /-- REFCLK runs at the pins (R543). -/
  refclk : Bool
  /-- The dies are out of reset: REFCLK has appeared since the rails came up (R543). -/
  released : Bool
  /-- Rails other than VDD_MGT and VDD_PLL are up (R571). -/
  rails : Bool
  /-- VDD_MGT and VDD_PLL are up (R572). -/
  mgtRail : Bool
  /-- Rails latched off until 50 V is removed (R572, R595). -/
  latched : Bool
  /-- The straps SLOT_ID[3:0] at the pins (R626). -/
  straps : Nat
  /-- PLLs locked, and windows failed in a row, by PLL (R544, R575). -/
  pllLocked : NMap Bool
  pllFails : NMap Nat
  /-- PLLs in a holdover of their own (R575). -/
  pllHoldover : NMap Bool
  /-- Regions that become FAILED at the next step boundary (R575). -/
  regionFail : List Nat
  /-- The last 1 ms check found a site at EMERG_C (R593). -/
  emergSeen : Bool
  /-- The Headframe PLL did not lock: the module stays in reset (R545). -/
  pllDead : Bool
  /-- A rail trip, or with 32 the thermal trip, that Headframe has not recorded yet (R572, R595). -/
  unrecorded : Option Nat
  /-- The source that now feeds the PLLs (R580). -/
  activeSource : Nat
  /-- Ceilings that take effect at the next step boundary: thermal, cap, input, droop (R570, R591, R592, R596). -/
  nextCeiling : NMap Nat
  /-- The recovered clock of the management port, and that of a port by its number and the start of its state, found stopped
  (R580, R584). -/
  mgtStopped : Bool
  parentStopped : Option (Nat × Nat)
  /-- The request for a step that waits for its boundary, and the one latched behind it (R43, R514, R578). -/
  stepPending : Option StepRequest
  stepLatched : Option StepRequest
  /-- The step last asked for and carried out, none for the grade's top (R576), and where a region was asked for another
  (R577). -/
  stepAsked : Option Nat
  regionReq : NMap Nat
  /-- CLK_SSC as in effect (R587). -/
  sscInEffect : Word
  /-- 1 ms checks at or above THROTTLE_C, and below THROTTLE_C - HYST_C, in a row (R592). -/
  hotChecks : Nat
  coolChecks : Nat
  /-- Fabric time at which the emergency hold began (R593). -/
  holdStart : Nat
  /-- Own droop firings in the current window, and windows over the limit in a row, by region (R591). -/
  droopFirings : NMap Nat
  droopRuns : NMap Nat
  lastDroopRun : Nat
  /-- Input power samples of the current 10 ms (R596): their sum in microwatts and their number, and the checks
  in a row below CAP_W - MARGIN_W. -/
  capSum : Int
  capSamples : Nat
  capBelow : Nat
  /-- Fabric time up to which CLK_HOLDOVER_NS_CNT has counted (R585). -/
  holdoverSince : Nat
  /-- Lag tokens waiting to be mirrored, by region: the amounts they carry, in eighths of a period, oldest first, and the
  amount of each region's last stretch (R243, R244). -/
  lagTokens : NMap (List Nat)
  stretched : NMap Nat
  deriving DecidableEq, Repr

/-! ## Weighbridge (chapter 17) -/

/-- The totals of one tenant in the open record (Table 17.4). -/
structure TenantTotal where
  tenant : Nat
  prefill : Nat
  output : Nat
  deriving DecidableEq, Repr

/-- KIND of a record (Table 17.4). -/
inductive RecordKind where
  | start | periodic | demand
  deriving DecidableEq, Repr

/-- The record being filled (R611). -/
structure OpenRecord where
  isStart : Bool
  timeJump : Bool
  range : Bool
  reportGap : Bool
  refGap : Bool
  dieRestart : Bool
  ftStart : Nat
  firstStep : Nat
  lastStep : Nat
  energy : Nat
  pMax : Nat
  reports : Nat
  missed : Nat
  tenants : List TenantTotal
  deriving DecidableEq, Repr

/-- A sealed record in the ring (R615): its SEQ, its ring offset and its bytes. -/
structure SealedRecord where
  seq : Nat
  offset : Nat
  bytes : Bytes
  deriving DecidableEq, Repr

/-- An answer of the MCTP endpoint (Table 17.5). -/
inductive WbReply where
  | silent
  | data (bytes : Bytes)
  | notHeld
  deriving DecidableEq, Repr

/-- The Weighbridge die (chapter 17). `nvSeq`, `nvChain` and `nvEnergy` are its non-volatile memory (R614). -/
structure Weighbridge where
  nvSeq : Nat
  nvChain : Bytes
  nvEnergy : Nat
  /-- Key and cumulative register read and checked (NVM_OK). -/
  nvmOk : Bool
  powered : Bool
  /-- Measuring (WB_STATUS.RUN, R602). -/
  run : Bool
  /-- WB_ENERGY_TOTAL, in mJ. -/
  energyTotal : Nat
  /-- Energy below 1 mJ carried on, in units of 10⁻⁹ mJ (R604). -/
  remainder : Nat
  /-- The samples of the current 100 ms: their sum in microwatts and their number (Table 17.2). -/
  windowSum : Nat
  windowCount : Nat
  /-- P_NOW and RANGE of WB_STATUS. -/
  pNow : Nat
  rangeNow : Bool
  /-- The last broadcast fabric time and whether it was LOCKED (Table 17.1). -/
  ft : Nat
  ftLocked : Bool
  /-- The next periodic boundary (R611, R613). -/
  nextPeriodic : Nat
  /-- Fabric time of the last seal (R612). -/
  lastSeal : Option Nat
  openRec : Option OpenRecord
  ring : List SealedRecord
  /-- WB_RING_HEAD and WB_RING_TAIL. -/
  ringHead : Nat
  ringTail : Nat
  /-- SESSION and RSEQ of the last frame taken (R607, R608). -/
  lastFrame : Option (Nat × Nat)
  crcErrCnt : Nat
  dupCnt : Nat
  gapCnt : Nat
  demandIgnoredCnt : Nat
  ringOverwriteCnt : Nat
  sessionCnt : Nat
  /-- The last answer of the MCTP endpoint (R616). -/
  reply : WbReply
  deriving DecidableEq, Repr

/-! ## Cores (chapters 2 to 5) -/

/-- A core's own state; what it waits for is held beside it (Table 2.13). -/
inductive CoreSt where
  | idle | running | faulted | halted | retired
  deriving DecidableEq, Repr

/-- A command waiting in a core's engine queues; `push` numbers the pushes of the core (R74, R79). -/
structure Queued where
  push : Nat
  cmd : Nat
  deriving DecidableEq, Repr

/-- A scoreboard entry: one range of an outstanding command (R78 to R81). -/
structure SbEntry where
  push : Nat
  space : Nat
  base : Nat
  len : Nat
  write : Bool
  elastic : Bool
  deriving DecidableEq, Repr

/-- A read that a command in flight makes: its cycle in the running step, and the bytes read, by control-space address
(R200). -/
structure TimedRead where
  cycle : Nat
  addr : Nat
  len : Nat
  deriving DecidableEq, Repr

/-- A command that has issued and not retired, with the parameters it read (R61, R81). -/
structure Flight where
  push : Nat
  cmd : Nat
  params : List Nat
  /-- A SHAPE fault to be reported at retire (R177, R191, R192). -/
  fault : Bool
  /-- What an elastic command's completion still waits for (R58): the stacks that owe it, or its landing. -/
  owed : List Nat
  /-- The entry and the cycle of the running step in which it issued, its reads, and the timed writes recorded by then: a
  later one that falls before one of its reads changes what it read (R140, R205). -/
  entry : Nat := 0
  issuedAt : Nat := 0
  reads : List TimedRead := []
  seen : Nat := 0
  deriving DecidableEq, Repr

/-- A fence arrival of a core (R85 to R89). -/
structure Arrival where
  fence : Nat
  blocking : Bool
  ending : Bool
  /-- The arrival has taken effect; a drained one takes effect later (R86). -/
  effective : Bool
  deriving DecidableEq, Repr

/-- What a core waits for, and since when (R84, R87, R90). The waiters are the queue heads 0 to 3 and the control
core, 4. -/
structure Wait where
  elastic : Bool
  since : Nat
  deriving DecidableEq, Repr

/-- A loop of a fallback-mode program: where its body starts and ends, and iterations left (R191). -/
structure FallLoop where
  start : Nat
  stop : Nat
  left : Nat
  deriving DecidableEq, Repr

/-- The fallback-mode machine of a core's Smelter (R189). -/
structure Fallback where
  /-- V0 to V31, 64 FP32 or INT32 lanes each. -/
  v : NMap (List (BitVec 32))
  /-- The mask MK. -/
  mask : BitVec 64
  /-- AC0 to AC3. -/
  ac : NMap Int
  loops : List FallLoop
  index : Nat
  running : Bool
  /-- Cycles of the program run so far (R191, R194). -/
  cycles : Nat
  deriving DecidableEq, Repr

/-- A control-space access that waits (R213, R214), with the bytes it writes. -/
structure CsAccess where
  requester : Requester
  offset : Nat
  width : Nat
  write : Bool
  data : Bytes
  deriving DecidableEq, Repr

/-- Rows of a split image that the loader has still to write into a core through its scrub slots, by byte offset, and the
manifest and shard they come from (R213, R375). -/
structure LodeJob where
  manifest : Nat
  shard : Nat
  rows : NMap Bytes
  deriving DecidableEq, Repr

/-- A scrub pointer of a bank (R210, R211): the next row, and whether the bank has wrapped in this pass. -/
structure ScrubPtr where
  row : Nat
  wrapped : Bool
  deriving DecidableEq, Repr

/-- One core (chapter 2), beside its registers and its memories. -/
structure Core where
  st : CoreSt
  /-- Commands pushed and not issued, oldest first; queue `e` is those whose ENGINE is `e` (R72 to R74). -/
  queue : List Queued
  /-- Pushes so far in this entry. -/
  pushNo : Nat
  scoreboard : List SbEntry
  flights : List Flight
  /-- x1 to x31 (R641). -/
  x : NMap (BitVec 32)
  /-- The program counter: an instruction-SRAM offset, or beyond it after a bad transfer (R642). -/
  pc : Nat
  /-- The offset of the last instruction executed (CORE_SCHED_FAULT.PC). -/
  lastPc : Nat
  cycle : Nat
  instret : Nat
  cycleLatch : Nat
  instretLatch : Nat
  ftLatch : Nat
  /-- The latest arrival, until it is released; and the earlier ones not yet released (R87). -/
  arrival : Option Arrival
  older : List Arrival
  waits : NMap Wait
  /-- The region of the WAITR that the control core last stalled at: space, LEN and BASE (R84, R90). -/
  waitRegion : Option (Nat × Nat × Nat)
  /-- The step-table entry whose program the core runs. -/
  entry : Option Nat
  /-- K count of each tile, by tile (R110). -/
  tileK : NMap Nat
  fall : Fallback
  /-- The program store's loaded indexes (R192). -/
  fallValid : NMap Bool
  /-- The cycle of the entry in which the 6-bit scrub phase was last set to 0, and the cycles since then whose scrub slots
  have been taken: the phase of a cycle is its distance from `phaseBase`, modulo 64 (R207). -/
  phaseBase : Nat
  slotAt : Nat
  /-- Scrub pointers, by 32 x memory code + bank (R210, R211). -/
  scrub : NMap ScrubPtr
  /-- Rows queued for write-back, by 32 x memory code + bank: the byte offset of the row (R212). -/
  writeBack : NMap Nat
  /-- Control-space accesses that wait, oldest first, by memory code (R213, R214). -/
  csWait : NMap (List CsAccess)
  lodeJob : Option LodeJob
  /-- Values written that take effect at the next step boundary: HALT, CORE_PAD (R132), accumulator mode (R118). -/
  nextHalt : Option Bool
  nextPad : Option Nat
  /-- Spare rows used, by 32 x memory code + bank, and rows repaired: (memory, bank, row) (R219, R512). -/
  repaired : List (Nat × Nat × Nat)
  /-- A row repair latched behind the pending one, and the pending one: (memory, bank, row) (R43, R512). -/
  repairPending : Option (Nat × Nat × Nat)
  repairLatched : Option (Nat × Nat × Nat)
  deriving DecidableEq, Repr

/-- A host access of the carve-out, or of weight staging, that waits for the fill (R638). -/
structure HostWait where
  staging : Bool
  addr : Nat
  width : Nat
  write : Bool
  value : Word
  deriving DecidableEq, Repr

/-- A cluster site beside its registers: the Stope's scrub, write-back and repairs, and its core transitions. -/
structure Site where
  scrub : NMap ScrubPtr
  writeBack : NMap Nat
  csWait : List CsAccess
  repaired : List (Nat × Nat)
  repairPending : Option (Nat × Nat)
  repairLatched : Option (Nat × Nat)
  /-- A core transition pending and one latched: (op, core) (R43, R508, R510). -/
  sparePending : Option (Nat × Nat)
  spareLatched : Option (Nat × Nat)
  /-- A router request that waits for the step boundary, and one latched behind it: 0 or 1 selects a copy (SHAFT_ROUTER_SEL), 2
  retires the copy that serves, 3 returns the one retired; and the copy out of service (R43, R44, R227). -/
  routerPending : Option Nat
  routerLatched : Option Nat
  routerOut : Option Nat
  deriving DecidableEq, Repr

/-! ## The Shaft, the fences and the step sequencer (chapter 6) -/

/-- A hop-exact beat on the Shaft (R228 to R236): its destination core, memory code and the granules it carries
with their byte offsets in that memory; `atEject` once it waits in the ejection buffer; `token` when it carries an
arrival token; `travel` is T(a, b) of R231; `push` and `no` say which beat of which command of its sender it is. -/
structure Beat where
  id : Nat
  source : Nat
  push : Nat
  no : Nat
  dest : Nat
  memory : Nat
  granules : List (Nat × Bytes)
  token : Bool
  travel : Nat
  /-- Its landing cycle, counted in its group's schedule (R235). -/
  land : Nat
  atEject : Bool
  /-- It waits in the router for a place in the ejection buffer (R236). -/
  inRouter : Bool
  /-- Its landing cycle has passed before it reached the ejection port (R237). -/
  late : Bool
  deriving DecidableEq, Repr

/-- An instance of a fence (R250 to R253): its id, the entry whose group it binds, the members whose arrival has taken
effect and the latest cycle in which one did; `withheld` while an emergency hold keeps its release back (R593). -/
structure Fence where
  id : Nat
  entry : Nat
  arrived : List Nat
  lastCycle : Nat
  withheld : Bool
  deriving DecidableEq, Repr

/-- A use of a port of a memory bank, of a Shaft link or of an injection port in one cycle (R200, R201, R232). -/
structure PortUse where
  /-- The step-table entry whose schedule counts the cycle, and the core that makes the access. -/
  entry : Nat
  core : Nat
  /-- The cycle of the step, and the one up to which hold cycles of the entry's group move it: the same for an access to
  memory, the departure for a beat in flight (R232, R245). -/
  cycle : Nat
  departs : Nat
  /-- The port of the bank, or the link, that serves one use a cycle; the bank whose losers are served one after another; and
  the engine's port, of which the use takes `bytes` (Tables 5.2, 5.4; `Schedule.lean`). -/
  place : Nat
  bank : Nat
  port : Nat
  bytes : Nat
  /-- Its place in the order of service, highest first (Table 5.5, R234). -/
  rank : Nat
  /-- It lost, and is served in a hold cycle (R202). -/
  lost : Bool
  deriving DecidableEq, Repr

/-- A timed write: of which command (its core and push), in which cycle of the step by which entry's schedule, the first cycle
whose reads it shows in, its place in the order of Table 5.5, and the bytes there before and after it, in the order in which
writes take effect (R140, R141, R205, R206). -/
structure TimedWrite where
  no : Nat
  core : Nat
  push : Nat
  entry : Nat
  cycle : Nat
  shown : Nat
  rank : Nat
  addr : Nat
  old : Bytes
  new : Bytes
  deriving DecidableEq, Repr

/-- Where a step-table entry stands in the running step (R260). -/
inductive EntryPhase where
  | waiting | running | released
  deriving DecidableEq, Repr

/-- An error reported to the Foreman: its class (Table 13.1), block and instance, the memory code and bank and row
it names, and its byte offset or page (R217, R496, R497). -/
structure ErrorReport where
  cls : Nat
  block : Nat
  inst : Nat
  memory : Nat
  bank : Nat
  row : Nat
  detail : Nat
  attempt : Nat
  deriving DecidableEq, Repr

/-- The step in progress, from its start to the end of its commit, abort or fault handling (R260, R333). -/
structure Step where
  number : Nat
  attempt : Nat
  startFt : Nat
  firstEntry : Nat
  entryCount : Nat
  entries : NMap EntryPhase
  /-- The cores of the groups that the step's entries name (Table 13.1, class 15). -/
  cores : List Nat
  /-- The slots of the step's batch (R286, R300, R317). -/
  slots : List Nat
  /-- The step's error status (R217, R342). -/
  error : Bool
  /-- What first set it: the error reported, or one that names no unit (R497). -/
  first : Option (Option ErrorReport) := none
  /-- Causes that are never replayed (R343): a schedule fault, page exhaustion. -/
  schedFault : Bool
  exhausted : Bool
  /-- A group failure: a put was flushed or found no route (R456). -/
  peerLost : Bool
  /-- Cycles, from the step's start, at which each entry started, and at which the last released one ended (R262). -/
  started : NMap Nat
  cycles : Nat
  /-- The hold cycles of each entry's group since the entry started: the cycle of the step, holds not counted, that each
  follows (R202, R237, R262). -/
  holds : NMap (List Nat)
  /-- The members of each entry's group, loaded into the fence blocks before the step (R250). -/
  members : NMap (List Nat)
  /-- The module has arrived at its commit barrier, at this fabric time (R344, R345). -/
  groupAt : Option Nat
  /-- It runs the build's table-load entry and belongs to no batch (R506, R508, R535). -/
  tables : Bool := false
  deriving DecidableEq, Repr


/-! ## Errors -/

/-! ## State memory (chapter 7) -/

/-- A Seam controller beside its registers and its stack's memory. Frames are numbered 73,728 x channel + frame. -/
structure Seam where
  /-- QATTEND and QAPPEND commands waiting, in arrival order: (core, push) (R294). -/
  queue : List (Nat × Nat)
  /-- Frames marked for retirement (R299, R300), and corrections by frame since reset. -/
  marked : List Nat
  corrections : NMap Nat
  /-- Pages moved to reserve frames, and the lowest frame of the reserve channel so used (R301). -/
  remap : NMap Nat
  reserveNext : Nat
  /-- The channel that stands in for a retired one (R302). -/
  standIn : NMap Nat
  /-- Table blocks in use, with the slot that owns each: the Foreman's block-owner map (R274, R502). -/
  blocks : NMap Nat
  /-- The low-page event is raised and the count has not risen above the threshold since (R288). -/
  lowRaised : Bool
  /-- The next burst of the patrol (R298). -/
  patrol : Nat
  /-- The channel being copied, the request latched behind it, and the channel that returns at the next step boundary
  (R302, R303). -/
  copying : Option Nat
  chLatched : Option (Nat × Nat)
  returning : Option Nat
  /-- Ledger bursts whose 8 pages are not allocated (R503). -/
  noAlloc : List Nat
  deriving DecidableEq, Repr

/-- Pages written by parking, or to be rebuilt by a resume, for one layer on one stack: the original page indices
and the pages that hold, or will hold, the units (R304 to R307). -/
structure ParkLayer where
  stack : Nat
  layer : Nat
  indices : List Nat
  pages : List Nat
  /-- Table blocks reserved beyond those the leaf chain has. -/
  blocks : List Nat
  deriving DecidableEq, Repr

/-- A park or resume that runs: where its completion is reported and what it reserved (R305 to R310). -/
structure ParkJob where
  resume : Bool
  ring : Nat
  entry : Nat
  layers : List ParkLayer
  deriving DecidableEq, Repr

/-- A PARKED request: its expiry time, none when it never expires, and the original page indices by stack and layer
(R305, R308). -/
structure Parked where
  expiry : Option Nat
  layers : List ParkLayer
  deriving DecidableEq, Repr

/-! ## Serving and the Foreman (chapters 8, 9 and 14) -/

/-- A batch-list entry (Table 8.8). -/
structure BatchItem where
  slot : Nat
  /-- 0 decode, 1 prefill chunk, 2 last prefill chunk. -/
  kind : Nat
  spec : Nat
  pos : Nat
  count : Nat
  root : Nat
  seed : Nat
  inIndex : Nat
  tenant : Nat
  deriving DecidableEq, Repr

/-- The composition of a step, which the Foreman keeps until the step commits or is dropped (R331, R495), with the
start it named and the first error of each failed attempt (R496). -/
structure Composition where
  number : Nat
  attempt : Nat
  model : Nat
  epoch : Nat
  start : Nat
  items : List BatchItem
  inputs : List Nat
  /-- Patch entries: value and word 1 (R257). -/
  patches : List (Nat × Nat)
  firstEntry : Nat
  entryCount : Nat
  /-- The hold of its start has been counted (R333). -/
  heldCounted : Bool
  errors : List (Option ErrorReport)
  /-- The Tally entries of its slots as they stood when it was composed (R533). -/
  before : NMap Bytes := []
  deriving DecidableEq, Repr

/-- The cadence of RUN (R538). -/
structure Run where
  next : Nat
  period : Nat
  group : Bool
  coord : Bool
  commitBar : Nat
  flipBar : Nat
  heldCounted : Bool
  deriving DecidableEq, Repr

/-- A shape-class entry and a patch-map entry of a build (chapter 14). -/
structure ShapeClass where
  decode : Nat
  prefill : Nat
  first : Nat
  count : Nat
  deriving DecidableEq, Repr

structure PatchMap where
  register : Nat
  kind : Nat
  arg : Nat
  deriving DecidableEq, Repr

/-- A loaded model: what the Foreman keeps of its build (R535 to R538), with each virtual core's program image and
fixed-bank values by 16 x site + virtual core. -/
structure Model where
  index : Nat
  sterling : Bool
  split : Bool
  classes : List ShapeClass
  patchMap : List PatchMap
  images : NMap Bytes
  fixed : NMap Bytes
  programDigest : Bytes
  /-- The step table, group descriptors and patch store of the build. -/
  steps : Bytes
  groups : Bytes
  patches : Bytes
  /-- Stopped after a schedule fault: no further step starts (Table 13.2). -/
  stopped : Bool
  /-- Whether the last step was an old-epoch one, while a drain runs (R391). -/
  lastOld : Bool
  deriving DecidableEq, Repr

/-- A submission ring that is open (R318, R526 to R528). -/
structure Ring where
  base : Nat
  k : Nat
  /-- The Foreman's consumer index, and the producer index as it last read it (R526). -/
  consumer : Nat
  producer : Nat
  stopped : Bool
  /-- The mailbox whose RING_CLOSE waits. -/
  closing : Option Nat
  deriving DecidableEq, Repr

/-- A host DMA window (R537). -/
structure HostWindow where
  dieReads : Bool
  dieWrites : Bool
  base : Nat
  size : Nat
  deriving DecidableEq, Repr

/-- A request's prompt: where its tokens stand, and the base token that EXTEND puts before them (R321, R532). -/
structure Prompt where
  addr : Nat
  first : Option Nat
  start : Nat
  deriving DecidableEq, Repr

/-- A shipment at its sender (R349 to R358). -/
structure ShipOut where
  number : Nat
  dest : Nat
  /-- The offer has been sent; the accept has come, at this time. -/
  offered : Bool
  accepted : Option Nat
  /-- TIMEOUT_MS at the accept (R356). -/
  timeoutMs : Nat
  /-- A CANCEL waits for its end (R357). -/
  cancel : Bool
  deriving DecidableEq, Repr

/-- A shipment at its receiver: the offer's fields, the reserved pages by layer, the arrival bits and re-requests
(R350 to R355). -/
structure ShipIn where
  id : Nat
  source : Nat
  offer : Bytes
  total : Nat
  firstLayer : Nat
  acceptedAt : Nat
  timeoutMs : Nat
  arrived : List Nat
  /-- Re-requests by sequence number: how many, and when the last went. -/
  asked : NMap (Nat × Nat)
  lastSeen : Bool
  /-- Reserved pages that have not arrived: (stack, layer, index, page). -/
  pages : List (Nat × Nat × Nat × Nat)
  deriving DecidableEq, Repr

/-- A shard of a manifest at this module (R365 to R373). -/
structure Shard where
  site : Nat
  vcore : Nat
  length : Nat
  digest : Bytes
  /-- The verified copy's header, its staging frame and its order of verification. -/
  verified : Bool
  header : Bytes
  frame : Option Nat
  order : Nat
  /-- The request that is out: its time; requests made so far and the next source. -/
  requested : Option Nat
  attempts : Nat
  source : Nat
  lost : Bool
  /-- Bytes landed: offset and length pairs (a shard is verified once all have landed). -/
  landed : List (Nat × Nat)
  /-- Modules whose request waits for the shard to be verified (R371). -/
  asked : List Nat
  /-- A split image written into its half (R375). -/
  written : Bool
  deriving DecidableEq, Repr

/-- What a manifest is held for (R368). -/
inductive ManifestUse where
  | loading | preparing | running | draining | relay
  deriving DecidableEq, Repr

/-- A manifest the Foreman holds (Tables 9.2, 9.3). -/
structure Manifest where
  id : Nat
  use : ManifestUse
  model : Nat
  split : Bool
  epoch : Nat
  role : Nat
  halfReg : Nat
  gridSig : Nat
  imageBytes : Nat
  programDigest : Bytes
  digest : Bytes
  shards : List Shard
  /-- The half a split image stands in, or is written to. -/
  half : Nat
  deriving DecidableEq, Repr

/-- A load or preparation that is open, and the mailbox it completes in (R525, R535, R377). -/
structure OpenLoad where
  mailbox : Nat
  manifest : Nat
  model : Model
  isLoad : Bool
  /-- Staging frames named to software: first and count (R535). -/
  frameBase : Nat
  frameCount : Nat
  deriving DecidableEq, Repr

/-- A flip that is pending or copying (R383 to R388). -/
structure Flip where
  mailbox : Nat
  model : Nat
  t : Nat
  u : Nat
  copying : Bool
  /-- The hold of a start has been counted (R385, R387). -/
  heldCounted : Bool
  deriving DecidableEq, Repr

/-- A drain that runs (R391, R392). -/
structure Drain where
  manifest : Nat
  epoch : Nat
  since : Nat
  deriving DecidableEq, Repr

/-- The Assay engine (R378 to R380): the unit being checked, as 32 x core + 16 x half + bank, the rows taken of it and their
bytes, whether it was abandoned, the unit to start at next, when one was last due to start, and the fabric time of each
unit's last matching check. -/
structure Assay where
  unit : Option Nat
  taken : Nat
  data : Bytes
  abandoned : Bool
  next : Nat
  started : Option Nat
  lastGood : NMap Nat
  deriving DecidableEq, Repr

/-- The Foreman's own memory. -/
structure Foreman where
  models : NMap Model
  composed : Option Composition
  run : Option Run
  age : Nat
  seamBudget : Nat
  rings : NMap Ring
  /-- The ring in turn (R527). -/
  nextRing : Nat
  /-- Entries the ring in turn may still give (R527). -/
  turnLeft : Nat
  windows : NMap HostWindow
  /-- Grants and revokes that wait for the step boundary (R537). -/
  nextWindows : NMap (Option HostWindow)
  /-- RELEASEs latched until after commit (R317): slot, ring and entry. -/
  releases : List (Nat × Nat × Nat)
  /-- SHIPs latched until after commit (R529): slot, ring, entry and destination. -/
  shipWaits : List (Nat × Nat × Nat × Nat)
  prompts : NMap Prompt
  shipDest : NMap Nat
  /-- Shipments by slot (R349 to R358), and the number of the next. -/
  shipsOut : NMap ShipOut
  shipsIn : NMap ShipIn
  shipNo : Nat
  roles : NMap Nat
  sources : NMap (List Nat)
  /-- Modules whose ship offers are accepted; 0xFFFF is any (Table 14.6). -/
  adopt : NMap Bool
  manifests : List Manifest
  manifestNo : Nat
  verifyNo : Nat
  openLoad : Option OpenLoad
  flip : Option Flip
  /-- The window of the last flip command: a start named from its T up to its U is moved to U (R384). -/
  flipWindow : Option (Nat × Nat)
  drain : Option Drain
  assay : Assay
  /-- Images that wait to be rewritten before the next start, as 2 x core + half (R382), and cores to be restored (R506). -/
  lodeRepairs : List Nat
  restores : List Nat
  /-- Cores on which the build's table-load entry is still to run before the next step, and the mailbox of the LOAD_MODEL
  that completes when it has (R506, R508, R535). -/
  tableCores : List Nat
  tableLoad : Option Nat
  /-- UNIT mailboxes that wait for their transition (R525): mailbox, function, and whether the request is latched. -/
  unitWaits : List (Nat × Nat × Bool)
  /-- A site retirement waits for reset: no step starts and no load is taken (R511). -/
  siteRetired : Bool
  /-- A second site of a row was to be retired: no model that needs 128 sites is served (R511). -/
  sitesShort : Bool
  /-- The step whose start the sequencer last reported as refused for its mode (R483). -/
  refusedStep : Option Nat
  /-- Bursts of the composed step's journal record that have reported an uncorrectable error (R495, R504). -/
  recordErrors : List Nat
  /-- At the root of a group: the ceilings that each module has raised, by module (R597). -/
  groupCeilings : NMap (List Nat)
  /-- The step a GROUP_PEER_LOST leaves open (R500), and the generation of its barrier. -/
  peerLost : Option Nat
  /-- A step whose RERUN or DROP the group's coordinator is to decide, and what members below say of a step: their
  module, the step, and whether they can rerun it (R501). -/
  deciding : Option Nat
  votes : List (Nat × Nat × Bool)
  /-- CMT_CTRL.GROUP and FMN_DET_CTRL.SCHUNK as written during a step (Tables 8.17, 12.5). -/
  nextGroup : Option Bool
  nextSchunk : Option Nat
  deriving DecidableEq, Repr

/-! ## Rysia ports (chapter 10) -/

/-- A data flit in the replay buffer: its sequence, its class and its 256 bytes as stored (R409, R418). -/
structure TxFlit where
  seq : Nat
  cls : Nat
  bytes : Bytes
  deriving DecidableEq, Repr

/-- A message waiting to be sent on a port: its bytes so far, the bytes of its body still to come, and the stream they
come on, 4 × port + class of the arrival, for a message in transit (R443, R450). -/
structure OutMessage where
  bytes : Bytes
  due : Nat
  feed : Nat
  deriving DecidableEq, Repr

/-- A lane transition of one direction: the message last sent and waiting for its answer, the lanes it names, its
TXN, when it was sent and how often (Table 10.11, R429, R431, R433). -/
structure LaneTask where
  op : Nat
  lane : Nat
  spare : Nat
  txn : Nat
  sentAt : Nat
  sends : Nat
  deriving DecidableEq, Repr

/-- A TIME message remembered: its SEQ, its time in units of 2⁻¹⁶ ns and, for one received, its arrival (R458). -/
structure TimeMark where
  seq : Nat
  time : Nat
  arrival : Nat
  deriving DecidableEq, Repr

/-- One Rysia port beside its registers (chapter 10). -/
structure Port where
  /-- Fabric time at which the present state began. -/
  since : Nat
  session : Nat
  /-- INIT_ACK sent and received for the current pair of sessions (R407). -/
  ackSent : Bool
  ackReceived : Bool
  /-- Lanes and width that the partner asks for, and the pool and reserves it grants (R404 to R406). -/
  partnerLanes : Nat
  partnerWidth : Nat
  pool : Nat
  reserves : List Nat
  /-- Round trips measured so far, of 16 (R405). -/
  pongs : List Nat
  -- the sender
  txSeq : Nat
  replay : List TxFlit
  /-- Messages wholly sent, with the sequence of their last flit, until it is acknowledged (R437). -/
  unacked : List (Nat × Bytes)
  /-- The next sequence of a running replay, and the last replay's start and its time (R415, R416). -/
  replayFrom : Option Nat
  replayStart : Option (Nat × Nat)
  lastAck : Nat
  lastNack : Option Nat
  /-- When the replay timer last restarted, and expiries in a row (R417, R434). -/
  replayTimer : Nat
  expiries : Nat
  /-- In-use and applied header counts by class, transmissions by slot since the last report, the current slot and
  the last report's SLOT (R420 to R423). -/
  inUse : List Nat
  hdrApplied : List Nat
  sent : List (Nat × Nat)
  slot : Nat
  lastReport : Option Nat
  /-- Every unit counts as in use until the first report after a resume (R436). -/
  frozen : Bool
  /-- Messages waiting, by class, and bytes of the first one already sent (R443). -/
  sendQ : NMap (List OutMessage)
  sendOff : NMap Nat
  /-- Control messages that wait for a control flit, and a report owed (R441). -/
  ctlOut : List Bytes
  reportOwed : Bool
  /-- The class of the weighted round robin and the flits it may still send (R441). -/
  wrrClass : Nat
  wrrLeft : Nat
  /-- The flit of the last slot, as it left. -/
  lastFlit : Bytes
  /-- The number of the next stripe, stripes of the present alignment period, what each physical lane carried of the last
  slot, and the content of each lane's last alignment codeword (R395, R396). -/
  stripe : Nat
  inPeriod : Nat
  laneOut : List (Nat × Bytes)
  alignOut : List (Nat × Bytes)
  -- the receiver
  expect : Nat
  accepted : Nat
  nackState : Bool
  nackNo : Nat
  nackAt : Nat
  lastGood : Nat
  rxSlot : Nat
  /-- Pool units by class: held by accepted flits, freed and not yet returned, returned in headers, and held by the
  message being received (R419, R422). -/
  held : List Nat
  freed : List Nat
  hdrSent : List Nat
  open_ : List Nat
  /-- Bytes of the message being received, by class (R443). -/
  stream : NMap Bytes
  /-- The message in transit of each class: the port that it leaves on, 16 for one discarded, and the bytes of its body
  still to come (R450). -/
  transit : NMap (Nat × Nat)
  -- lanes
  /-- Corrected symbols and uncorrectable codewords of each receive lane in the present window (R397, R427). -/
  windowSym : NMap Nat
  windowUnc : NMap Nat
  /-- Receive lanes that have lost lock (R434). -/
  lost : List Nat
  /-- Module and port that the alignment codewords received name (R404, R437). -/
  seen : Option (Nat × Nat)
  /-- TXN of the last width change that the receive direction finished (R431). -/
  widthTxn : Option Nat
  txTask : Option LaneTask
  rxTask : Option LaneTask
  txLatched : Option (Nat × Nat)
  rxLatched : Option (Nat × Nat)
  txnNo : Nat
  /-- Physical lane of each logical lane, by direction (R396, R404). -/
  txMap : List Nat
  rxMap : List Nat
  /-- ADMIT and ENABLE latched behind a transition (R43). -/
  ctrlLatched : Option (Bool × Bool)
  /-- Start of the drain of R440. -/
  draining : Option Nat
  /-- When the grace timer ends, and whether the lanes have retrained (R435). -/
  graceEnd : Nat
  retrained : Bool
  -- time exchange
  timeSeq : Nat
  timeSent : List TimeMark
  timeLast : Option TimeMark
  /-- TFLAGS and STEPS of the partner's last TIME (R461). -/
  timeFlags : Nat
  timeSteps : Nat
  deriving DecidableEq, Repr

/-! ## Transport, time and barriers (chapter 11) -/

/-- A window bound by a DRECV: its core, its command, the step and attempt it serves, and the granules of its range
that PUTs have not yet reached (R452). -/
structure PutWindow where
  core : Nat
  push : Nat
  space : Nat
  base : Nat
  bytes : Nat
  step : Nat
  attempt : Nat
  missing : List Nat
  deriving DecidableEq, Repr

/-- A PUT held in the receive pool of its port until its window is bound (R453). -/
structure EarlyPut where
  port : Nat
  window : Nat
  message : Bytes
  arrival : Nat
  units : Nat
  deriving DecidableEq, Repr

/-- A PUT message sent by a DPUT, waiting for its PUT_DONE (R455). -/
structure OwnPut where
  core : Nat
  push : Nat
  dest : Nat
  window : Nat
  offset : Nat
  step : Nat
  attempt : Nat
  deriving DecidableEq, Repr

/-- The fabric time servo beside its registers (R457 to R471). -/
structure Servo where
  /-- Fraction of fabric time, 2⁻¹⁶ ns, and the rate correction in parts per billion. -/
  frac : Nat
  rate : Int
  /-- Samples accepted in a row, offsets beyond ±20 ns in a row, and the time of the last accepted sample. -/
  inRow : Nat
  farRow : Nat
  lastSample : Nat
  /-- The first lock has been reached since the servo entered ACQUIRE; the one step forward has been made. -/
  everLocked : Bool
  stepped : Bool
  /-- FTC_CTRL as latched during a step (R468). -/
  latched : Option Word
  /-- RACKREF_CLK runs (R470). -/
  rackClock : Bool
  /-- The next broadcast to the Weighbridge and the regions (R466). -/
  lastBroadcast : Nat
  /-- Clock regions that restarted and have not yet reloaded their copy of fabric time (R467). -/
  staleCopies : List Nat
  /-- LOCKED has been reached since reset (R546). -/
  lockedOnce : Bool
  /-- What the regions' copies of fabric time have reached, where the master was set back behind them (R466). -/
  copyFloor : Nat
  deriving DecidableEq, Repr

/-- A barrier member's current generation (R472 to R479). -/
structure Barrier where
  gen : Nat
  /-- Arrivals in: the module's own, and the child ports. -/
  own : Bool
  children : List Nat
  flags : Nat
  value : Nat
  count : Nat
  /-- When the module itself arrived (R479). -/
  ownAt : Nat
  /-- The combined arrival has gone to the parent, or the release has been made. -/
  passed : Bool
  /-- Arrivals for the next generation, held: (port, flags, value, count); a release that waits for its time:
  (flags, value, time). -/
  early : List (Nat × Nat × Nat × Nat)
  release : Option (Nat × Nat × Nat)
  /-- The module's own arrival for the next generation, and a release for it, held (R478): (flags, value), and as `release`. -/
  ownEarly : Option (Nat × Nat)
  nextRelease : Option (Nat × Nat × Nat)
  /-- The generation last abandoned (R479). -/
  abandoned : Option Nat
  /-- The last release made or taken: its generation, flags and time (R500). -/
  last : Option (Nat × Nat × Nat)
  deriving DecidableEq, Repr

/-! ## Service ports (chapter 14) -/

/-- A receive or transmit queue of a service port (R541): the carve-out offset of its ring, its descriptors and the
next one. -/
structure ServiceQueue where
  base : Nat
  entries : Nat
  next : Nat
  /-- The first descriptor that a transmit queue does not send yet, and whether the queue is enabled (log entry 88). -/
  tail : Nat
  enabled : Bool
  deriving DecidableEq, Repr

/-- A service port (R541, R542): SVC_PORTn_CTRL, its queues by number, the frames it has sent, and its counters. -/
structure ServicePort where
  keepBad : Bool
  mtu : Nat
  rx : NMap ServiceQueue
  tx : NMap ServiceQueue
  sent : List Bytes
  rxNodescCnt : Nat
  rxFcsErrCnt : Nat
  rxTruncCnt : Nat
  deriving DecidableEq, Repr

/-! ## The whole block -/

/-- The module without its Weighbridge and its byte memory. -/
structure Die where
  /-- Control-space registers by address; an unlisted register holds its reset value (`RegMap.lean`). -/
  regs : NMap Word
  /-- Fabric time in ns, the master counter (R42, R466). -/
  ft : Nat
  /-- The model's own counter of free values used. -/
  free : Nat
  /-- The value a control-space or host read returned last, and whether it ended in a bus error (R12, R520). -/
  readData : Nat
  busError : Bool
  hdf : Headframe
  pwr : Power
  cores : NMap Core
  sites : NMap Site
  beats : List Beat
  beatNo : Nat
  /-- Port uses of the entries that run (R200, R201, R232). -/
  uses : List PortUse
  /-- Timed writes of the entries that run, in the order in which they take effect, and how many there have been (R205). -/
  writes : List TimedWrite
  writeNo : Nat
  fences : List Fence
  step : Option Step
  /-- Number of the running or last step. -/
  stepNumber : Nat
  /-- Errors reported to the Foreman and not yet acted on, oldest first (R217, R496). -/
  reports : List ErrorReport
  /-- Flipped codeword bits of stored granules, by control-space address of the granule (R215 to R220): the memory
  holds the data as written, and the flips say how the stored codeword differs from it. -/
  ecc : NMap Nat
  seams : NMap Seam
  /-- Bursts of state memory that hold an error, by address: how the stored bits differ from the memory (R299, R300). -/
  bursts : NMap Nat
  /-- Host accesses of state memory that wait for the fill, oldest first (R638). -/
  hostWait : List HostWait
  /-- Parks and resumes that run, and PARKED requests, by slot (R305 to R310). -/
  parkJobs : NMap ParkJob
  parked : NMap Parked
  fmn : Foreman
  ports : NMap Port
  /-- Windows bound by DRECV, PUTs that wait for their window, and own PUTs that wait for their PUT_DONE (R452 to
  R455). -/
  putWindows : NMap PutWindow
  earlyPuts : List EarlyPut
  ownPuts : List OwnPut
  /-- Messages to this module itself, by class, not yet delivered (R446). -/
  loopback : List (Nat × Bytes)
  servo : Servo
  barriers : NMap Barrier
  /-- Report frames on the link to the Weighbridge, oldest first (R606). -/
  wbOut : List Bytes
  /-- RSEQ of the last report frame, and its SESSION (R606). -/
  rseq : Nat
  session : Nat
  /-- State records that wait for ring space, by slot: STATE, STEP and FT of the event (R326). -/
  heldEvents : NMap (Nat × Nat × Nat)
  svc : NMap ServicePort
  deriving DecidableEq, Repr

/-- The whole block: the queue of waiting commands, the Weighbridge, the byte memory and the rest. -/
structure State where
  pending : List Instr
  wb : Weighbridge
  mem : List Host.Cell
  die : Die
  deriving DecidableEq, Repr

/-! ## Fresh parts -/

def Fallback.empty : Fallback := { v := [], mask := 0, ac := [], loops := [], index := 0, running := false, cycles := 0 }

/-- Assay with nothing to check. -/
def Assay.idle : Assay := { unit := none, taken := 0, data := [], abandoned := false, next := 0, started := none, lastGood := [] }

/-- A core at module reset. -/
def Core.fresh : Core :=
  { st := .idle, queue := [], pushNo := 0, scoreboard := [], flights := [], x := [], pc := 0, lastPc := 0, cycle := 0,
    instret := 0, cycleLatch := 0, instretLatch := 0, ftLatch := 0, arrival := none, older := [], waits := [],
    waitRegion := none, entry := none, tileK := [], fall := .empty, fallValid := [], phaseBase := 0, slotAt := 0,
    scrub := [], writeBack := [], csWait := [], lodeJob := none, nextHalt := none, nextPad := none, repaired := [],
    repairPending := none, repairLatched := none }

/-- A cluster site at module reset. -/
def Site.fresh : Site :=
  { scrub := [], writeBack := [], csWait := [], repaired := [], repairPending := none, repairLatched := none,
    sparePending := none, spareLatched := none, routerPending := none, routerLatched := none, routerOut := none }

/-- A Seam controller at reset: every reserve frame is free. -/
def Seam.fresh : Seam :=
  { queue := [], marked := [], corrections := [], remap := [], reserveNext := 73728, standIn := [], blocks := [], lowRaised := false,
    patrol := 0, copying := none, chLatched := none, returning := none, noAlloc := [] }

/-- A port at reset. -/
def Port.fresh : Port :=
  { since := 0, session := 0, ackSent := false, ackReceived := false, partnerLanes := 0, partnerWidth := 0, pool := 0,
    reserves := [0, 0, 0, 0], pongs := [], txSeq := 0, replay := [], unacked := [], replayFrom := none,
    replayStart := none, lastAck := 0xFFFFF, lastNack := none, replayTimer := 0, expiries := 0, inUse := [0, 0, 0, 0],
    hdrApplied := [0, 0, 0, 0], sent := [], slot := 0, lastReport := none, frozen := false, sendQ := [], sendOff := [],
    ctlOut := [], reportOwed := false, wrrClass := 1, wrrLeft := 0, lastFlit := [],
    stripe := 0, inPeriod := 0, laneOut := [], alignOut := [], expect := 0, accepted := 0,
    nackState := false, nackNo := 0, nackAt := 0, lastGood := 0, rxSlot := 0xFFFFFFFF, held := [0, 0, 0, 0],
    freed := [0, 0, 0, 0], hdrSent := [0, 0, 0, 0], open_ := [0, 0, 0, 0], stream := [], transit := [],
    windowSym := [], windowUnc := [], lost := [], seen := none, widthTxn := none, txTask := none, rxTask := none,
    txLatched := none, rxLatched := none, txnNo := 0, txMap := [], rxMap := [], ctrlLatched := none, draining := none,
    graceEnd := 0, retrained := false, timeSeq := 0, timeSent := [], timeLast := none, timeFlags := 0, timeSteps := 255 }

/-- The servo at reset. -/
def Servo.fresh : Servo :=
  { frac := 0, rate := 0, inRow := 0, farRow := 0, lastSample := 0, everLocked := false, stepped := false,
    latched := none, rackClock := true, lastBroadcast := 0, staleCopies := [], lockedOnce := false, copyFloor := 0 }

/-- A barrier at reset. -/
def Barrier.fresh : Barrier :=
  { gen := 0, own := false, children := [], flags := 0, value := 0, count := 0, ownAt := 0, passed := false,
    early := [], release := none, ownEarly := none, nextRelease := none, abandoned := none, last := none }

/-- A service port's queue at reset. -/
def ServiceQueue.fresh : ServiceQueue := { base := 0, entries := 0, next := 0, tail := 0, enabled := false }

/-- A service port at reset: no queue enabled (log entry 88). -/
def ServicePort.fresh : ServicePort :=
  { keepBad := false, mtu := 0, rx := [], tx := [], sent := [], rxNodescCnt := 0, rxFcsErrCnt := 0, rxTruncCnt := 0 }

/-- The Foreman at reset. AGE is 16 steps (chapter 8, Time-slicing); SEAM_BUDGET has no reset value and limits nothing
(log entry 57). -/
def Foreman.fresh : Foreman :=
  { models := [], composed := none, run := none, age := 16, seamBudget := 2 ^ 64 - 1, rings := [], nextRing := 0,
    turnLeft := 16, windows := [], nextWindows := [], releases := [], shipWaits := [], prompts := [], shipDest := [], shipsOut := [],
    shipsIn := [], shipNo := 0, roles := [], sources := [], adopt := [], manifests := [], manifestNo := 0, verifyNo := 0,
    openLoad := none, flip := none, flipWindow := none, drain := none,
    assay := Assay.idle, lodeRepairs := [], restores := [], tableCores := [], tableLoad := none,
    unitWaits := [], siteRetired := false, sitesShort := false, refusedStep := none, recordErrors := [], groupCeilings := [], peerLost := none, deciding := none, votes := [], nextGroup := none, nextSchunk := none }

/-! ## Reset -/

/-- A boot-header copy of an empty slot (R549); flash as this model's part leaves the factory (log entry 89). -/
def BootHeader.blank : BootHeader :=
  { state := .empty, tries := 0, svn := 0, minSvn := 0, version := 0, gen := 0, digest := [] }

/-- A device of 128 MiB that holds nothing yet. -/
def FlashSlot.blank : FlashSlot := { size := 2 ^ 27, jesd216 := true, copy0 := .blank, copy1 := .blank, bundle := none }

/-- Headframe right after reset release: the ROM has not started (R547), flash holds no firmware yet, and the application cores
and the Foreman are taken as released (log entry 89); after a power-up they wait for the ROM's boot (`Headframe.kept`). -/
def Headframe.atReset : Headframe :=
  { slotA := .blank, slotB := .blank, configA := true, configB := true, pufOk := true, repairsA := [], repairsB := [],
    log := [], logSeq := 0, logTip := List.replicate 32 0, bootCount := 0, accounts := [], tlsCertificate := [],
    flashQueue := [], flashRunning := none, lostBefore := false, writeProtect := false, firmwareSince := none,
    firstLoad := false, macEnabled := false, romStarted := false, hostReleased := true, loadsRefused := false,
    measurements := [], thresholds := [], sensorMissed := [], sensorFt := [], sessions := [], subscriptions := [],
    networkProtocol := 0, attestWaiting := [], attestReport := [], redfishStatus := 0, redfishBody := [],
    sidebandReply := none, mgtFrames := [], eventsPushed := [], resetRequested := false, slotId := 0 }

/-- Power right after reset release (R543, R571, R625): input, rails and REFCLK present, the PLLs not yet judged
locked. -/
def Power.atReset : Power :=
  { input50 := true, pwrGood := true, refclk := true, released := true, rails := true, mgtRail := true, latched := false,
    straps := 0, pllLocked := [], pllFails := [], pllHoldover := [], regionFail := [], emergSeen := false,
    pllDead := false, unrecorded := none, activeSource := 0, nextCeiling := [], mgtStopped := false, parentStopped := none,
    stepPending := none, stepLatched := none, stepAsked := none, regionReq := [], sscInEffect := 0x1E00,
    hotChecks := 0, coolChecks := 0, holdStart := 0, droopFirings := [], droopRuns := [], lastDroopRun := 0, capSum := 0,
    capSamples := 0, capBelow := 0, holdoverSince := 0, lagTokens := [], stretched := [] }

/-- The Weighbridge after its power-up (R601, R602, R614): not yet measuring, no record sealed since manufacture. -/
def Weighbridge.atReset : Weighbridge :=
  { nvSeq := 0, nvChain := List.replicate 32 0, nvEnergy := 0, nvmOk := true, powered := true, run := false,
    energyTotal := 0, remainder := 0, windowSum := 0, windowCount := 0, pNow := 0, rangeNow := false, ft := 0,
    ftLocked := false, nextPeriodic := 60000000000, lastSeal := none, openRec := none, ring := [], ringHead := 0,
    ringTail := 0, lastFrame := none, crcErrCnt := 0, dupCnt := 0, gapCnt := 0, demandIgnoredCnt := 0,
    ringOverwriteCnt := 0, sessionCnt := 0, reply := .silent }

/-- The dies after a module reset, with what flash and the straps hold: every register at its reset value, fabric time
zero (R546), memories zero (R197). -/
def Die.fresh (h : Headframe) (p : Power) : Die :=
  { regs := [], ft := 0, free := 0, readData := 0, busError := false, hdf := h, pwr := p, cores := [], sites := [],
    beats := [], beatNo := 0, uses := [], writes := [], writeNo := 0, fences := [], step := none, stepNumber := 0, reports := [], ecc := [], seams := [],
    bursts := [], hostWait := [], parkJobs := [], parked := [], fmn := .fresh, ports := [], putWindows := [], earlyPuts := [],
    ownPuts := [], loopback := [], servo := .fresh, barriers := [], wbOut := [], rseq := 0, session := 0,
    heldEvents := [], svc := [] }

/-- The module right after reset release: nothing waits, no step has run, no memory is written. -/
def State.reset : State :=
  { pending := [], wb := .atReset, mem := [], die := .fresh .atReset .atReset }

/-- No command stops the block: every event of the spec changes its state. -/
inductive Fault where
  deriving DecidableEq, Repr

/-- Why the model gives a command no meaning. -/
inductive Refusal where
  /-- Raised by an arm of `exec` for a command not modelled; safe: nothing is claimed of it. -/
  | notModelled (mnemonic : String)
  deriving DecidableEq, Repr

end Sys2Proof.Machine
end

