-- ==== Sys2Proof/Machine/Bits.lean ====
section
/-! DEFINITION. Bit fields, byte order and sparse maps: the plain helpers every other file uses. -/
namespace Sys2Proof.Machine

/-! ## Bit fields -/

/-- Bits `[hi:lo]` of a number (R19). -/
def bits (n hi lo : Nat) : Nat := n >>> lo % 2 ^ (hi + 1 - lo)

/-- Bit `i` of a number. -/
def bitAt (n i : Nat) : Bool := n.testBit i

/-- Field `[hi:lo]` of a register word. -/
def fld (w : Word) (hi lo : Nat) : Nat := bits w.toNat hi lo

/-- A word with its field `[hi:lo]` set to `v`, cut to the field's width. -/
def setFld (w : Word) (hi lo v : Nat) : Word :=
  (w &&& ~~~(BitVec.ofNat 64 ((2 ^ (hi + 1 - lo) - 1) <<< lo))) |||
    BitVec.ofNat 64 ((v % 2 ^ (hi + 1 - lo)) <<< lo)

/-- A truth value as a bit. -/
def bit (b : Bool) : Nat := if b then 1 else 0

/-- The largest value of a 64-bit saturating counter (R16). -/
def counterMax : Nat := 2 ^ 64 - 1

/-- A 64-bit counter increased by `k`, saturating (R16). -/
def satAdd (w : Word) (k : Nat) : Word :=
  if w.toNat + k ≤ counterMax then BitVec.ofNat 64 (w.toNat + k) else BitVec.ofNat 64 counterMax

/-- A counter kept as a number, increased and saturating (R16). -/
def satNat (n k : Nat) : Nat := if n + k ≤ counterMax then n + k else counterMax

/-- `n` read as a two's-complement number of `w` bits. -/
def signed (n w : Nat) : Int := if n % 2 ^ w < 2 ^ (w - 1) then (n % 2 ^ w : Nat) else (n % 2 ^ w : Nat) - (2 ^ w : Nat)

/-- A number as `w` two's-complement bits. -/
def unsigned (i : Int) (w : Nat) : Nat := (i % (2 ^ w : Nat)).toNat

/-- `v` held between two limits. -/
def clamp (lo hi v : Nat) : Nat := if v < lo then lo else if hi < v then hi else v

/-- A number from 1 to `n`. -/
def upTo (n k : Nat) : Bool := decide (1 ≤ k) && decide (k ≤ n)

/-- ⌈a ÷ b⌉. -/
def ceilDiv (a b : Nat) : Nat := (a + b - 1) / b

/-! ## Bytes, little-endian (R18) -/

/-- The `n` bytes of a number, least significant first. -/
def toBytes : Nat → Nat → Bytes
  | 0, _ => []
  | n + 1, v => BitVec.ofNat 8 v :: toBytes n (v / 256)

/-- The number whose bytes, least significant first, are given. -/
def ofBytes : Bytes → Nat
  | [] => 0
  | b :: bs => b.toNat + 256 * ofBytes bs

/-- `n` bytes of a string from offset `o`; bytes past its end read as zero. -/
def slice (bs : Bytes) (o n : Nat) : Bytes :=
  let s := (bs.drop o).take n
  s ++ List.replicate (n - s.length) 0

/-- The `n`-byte number at offset `o` of a string. -/
def numAt (bs : Bytes) (o n : Nat) : Nat := ofBytes (slice bs o n)

/-- The byte at offset `o`, zero past the end. -/
def byteAt (bs : Bytes) (o : Nat) : Nat := (bs.getD o 0).toNat

/-- `n` zero bytes. -/
def zeros (n : Nat) : Bytes := List.replicate n 0

/-- A string with `v`'s bytes written over it at offset `o`. -/
def patchBytes (bs : Bytes) (o : Nat) (v : Bytes) : Bytes := bs.take o ++ v ++ bs.drop (o + v.length)

/-! ## Sparse maps -/

/-- The entry of a key. -/
def mapGet {α : Type} (m : NMap α) (k : Nat) : Option α := m.lookup k

/-- The entry of a key, or the value every unlisted key has. -/
def mapGetD {α : Type} (m : NMap α) (k : Nat) (d : α) : α := (m.lookup k).getD d

/-- A map with one entry written. -/
def mapSet {α : Type} (m : NMap α) (k : Nat) (v : α) : NMap α :=
  m.filter (fun p => p.1 < k) ++ (k, v) :: m.filter (fun p => k < p.1)

/-- A map with one entry removed. -/
def mapDel {α : Type} (m : NMap α) (k : Nat) : NMap α := m.filter (fun p => p.1 != k)

/-- A map with one entry changed, from its value or the default. -/
def mapUpd {α : Type} (m : NMap α) (k : Nat) (d : α) (f : α → α) : NMap α := mapSet m k (f (mapGetD m k d))

/-- The number of a sum over a list. -/
def sumBy {α : Type} (l : List α) (f : α → Nat) : Nat := l.foldl (fun n a => n + f a) 0

/-- The list with `f` applied at index `i`. -/
def modifyNth {α : Type} (l : List α) (i : Nat) (f : α → α) : List α := l.modify i f

end Sys2Proof.Machine
end

