-- ==== Sys2Proof/Machine/Float.lean ====
section
/-! DEFINITION. Number formats and exact arithmetic (Table 3.2, R103 to R105): every value is taken apart into an
exact dyadic number, computed exactly, and rounded once. -/
namespace Sys2Proof.Machine

/-- A decoded element: NaN, an infinity, or the exact value (-1)^neg × mant × 2^exp. -/
inductive Flt where
  | nan
  | inf (neg : Bool)
  | fin (neg : Bool) (mant : Nat) (exp : Int)
  deriving DecidableEq, Repr

/-- An exact dyadic number n × 2^e. -/
structure Dyadic where
  n : Int
  e : Int
  deriving DecidableEq, Repr

def Flt.zero : Flt := .fin false 0 0

/-- +1.0. -/
def Flt.one : Flt := .fin false 1 0

def Flt.isNan : Flt → Bool
  | .nan => true
  | _ => false

def Flt.isInf : Flt → Bool
  | .inf _ => true
  | _ => false

def Flt.neg? : Flt → Bool
  | .inf s => s
  | .fin s _ _ => s
  | .nan => false

def Flt.negate : Flt → Flt
  | .inf s => .inf (!s)
  | .fin s m e => .fin (!s) m e
  | .nan => .nan

def Flt.abs : Flt → Flt
  | .inf _ => .inf false
  | .fin _ m e => .fin false m e
  | .nan => .nan

/-- The dyadic value of a finite element, zero otherwise. -/
def Flt.dyadic : Flt → Dyadic
  | .fin s m e => { n := if s then -(m : Int) else m, e }
  | _ => { n := 0, e := 0 }

/-- A dyadic number as an element; zero takes the given sign. -/
def Dyadic.flt (d : Dyadic) (zeroNeg : Bool) : Flt :=
  if d.n = 0 then .fin zeroNeg 0 0 else .fin (decide (d.n < 0)) d.n.natAbs d.e

/-- Two dyadic numbers brought to one exponent. -/
def dyAlign (a b : Dyadic) : Int × Int × Int :=
  let e := min a.e b.e
  (a.n * (2 ^ (a.e - e).toNat : Nat), b.n * (2 ^ (b.e - e).toNat : Nat), e)

def dyAdd (a b : Dyadic) : Dyadic := let (x, y, e) := dyAlign a b; { n := x + y, e }

def dyMul (a b : Dyadic) : Dyadic := { n := a.n * b.n, e := a.e + b.e }

def dyLt (a b : Dyadic) : Bool := let (x, y, _) := dyAlign a b; decide (x < y)

/-- `m × 2^-k` rounded to nearest even. -/
def shiftRne (m k : Nat) : Nat :=
  if k = 0 then m
  else
    let q := m >>> k
    let r := m % 2 ^ k
    let h := 2 ^ (k - 1)
    if h < r ∨ (r = h ∧ q % 2 = 1) then q + 1 else q

/-! ## Binary formats -/

/-- A binary format: exponent bits, mantissa bits, bias, and whether it has infinities (FP8_E4M3 has none). -/
structure FpFormat where
  expBits : Nat
  manBits : Nat
  bias : Int
  hasInf : Bool
  deriving DecidableEq, Repr

def fmtE4M3 : FpFormat := ⟨4, 3, 7, false⟩
def fmtE5M2 : FpFormat := ⟨5, 2, 15, true⟩
def fmtE2M1 : FpFormat := ⟨2, 1, 1, false⟩
def fmtBF16 : FpFormat := ⟨8, 7, 127, true⟩
def fmtFP32 : FpFormat := ⟨8, 23, 127, true⟩

/-- An element decoded from its bits (Table 3.2). -/
def fpDecode (f : FpFormat) (b : Nat) : Flt :=
  let s := b.testBit (f.expBits + f.manBits)
  let ex := bits b (f.expBits + f.manBits - 1) f.manBits
  let ma := b % 2 ^ f.manBits
  let top := 2 ^ f.expBits - 1
  if f.hasInf && ex == top then (if ma = 0 then .inf s else .nan)
  else if !f.hasInf && f.expBits == 4 && ex == top && ma == 2 ^ f.manBits - 1 then .nan
  else if ex = 0 then .fin s ma (1 - f.bias - f.manBits)
  else .fin s (2 ^ f.manBits + ma) (ex - f.bias - f.manBits)

/-- The magnitude bits of the largest finite value. -/
def fpMax (f : FpFormat) : Nat :=
  if f.hasInf then (2 ^ f.expBits - 1) * 2 ^ f.manBits - 1
  else if f.expBits = 4 then 2 ^ (f.expBits + f.manBits) - 2
  else 2 ^ (f.expBits + f.manBits) - 1

/-- The magnitude bits of `m × 2^e` rounded to nearest even with subnormals kept; above `fpMax` it overflows. -/
def fpRound (f : FpFormat) (m : Nat) (e : Int) : Nat :=
  if m = 0 then 0
  else
    let p := f.manBits + 1
    let len : Int := Nat.log2 m + 1
    let t : Int := max (e + len - p) (1 - f.bias - f.manBits)
    let q := if t ≤ e then m <<< (e - t).toNat else shiftRne m (t - e).toNat
    let (q, t) := if q = 2 ^ p then (2 ^ (p - 1), t + 1) else (q, t)
    if q < 2 ^ f.manBits then q
    else ((t + f.manBits + f.bias).toNat) * 2 ^ f.manBits + (q - 2 ^ f.manBits)

/-- A sign put on magnitude bits. -/
def fpSign (f : FpFormat) (s : Bool) (mag : Nat) : Nat := if s then mag + 2 ^ (f.expBits + f.manBits) else mag

/-- The bits of an infinity of a format that has one. -/
def fpInf (f : FpFormat) (s : Bool) : Nat := fpSign f s ((2 ^ f.expBits - 1) * 2 ^ f.manBits)

/-- The canonical NaN (R126): 0x7FC0_0000, 0x7FC0, 0x7F. -/
def fpCanonicalNan (f : FpFormat) : Nat :=
  if f.expBits = 8 then (2 ^ f.expBits - 1) * 2 ^ f.manBits + 2 ^ (f.manBits - 1)
  else 2 ^ (f.expBits + f.manBits) - 1

/-! ## FP32 -/

/-- FP32 bits. -/
abbrev F32 := BitVec 32

def f32Decode (x : F32) : Flt := fpDecode fmtFP32 x.toNat

/-- FP32 is a NaN. -/
def f32IsNan (x : F32) : Bool := (f32Decode x).isNan

/-- A NaN whose sign and payload the spec does not give (log entry 30). -/
def f32FreeNan (op a b : Nat) : F32 :=
  let r := Config.nanBits op a b
  if r &&& 0x7FFFFF#32 = 0 then r ||| 0x7FC00000#32 else r ||| 0x7F800000#32

def f32CanonicalNan : F32 := 0x7FC00000#32

def f32Inf (s : Bool) : F32 := BitVec.ofNat 32 (fpInf fmtFP32 s)

/-- A finite or infinite value rounded once to FP32; overflow gives infinity (R111). -/
def f32Encode (nanCase : F32) : Flt → F32
  | .nan => nanCase
  | .inf s => f32Inf s
  | .fin s m e =>
    let r := fpRound fmtFP32 m e
    if fpMax fmtFP32 < r then f32Inf s else BitVec.ofNat 32 (fpSign fmtFP32 s r)

/-- Exact sum of two elements, with the zero-sign rule of round to nearest even. -/
def fltAdd : Flt → Flt → Flt
  | .nan, _ => .nan
  | _, .nan => .nan
  | .inf s, .inf t => if s = t then .inf s else .nan
  | .inf s, _ => .inf s
  | _, .inf t => .inf t
  | .fin s m e, .fin t n g =>
    (dyAdd (Flt.fin s m e).dyadic (Flt.fin t n g).dyadic).flt (s && t && m = 0 && n = 0)

/-- Exact product (R105). -/
def fltMul : Flt → Flt → Flt
  | .nan, _ => .nan
  | _, .nan => .nan
  | .inf s, .inf t => .inf (s != t)
  | .inf s, .fin t n _ => if n = 0 then .nan else .inf (s != t)
  | .fin s m _, .inf t => if m = 0 then .nan else .inf (s != t)
  | .fin s m e, .fin t n g => .fin (s != t) (m * n) (e + g)

/-- An element times 2^k. -/
def fltScale (k : Int) : Flt → Flt
  | .fin s m e => .fin s m (e + k)
  | x => x

/-- `a < b` of two elements that are not NaN; the zeros are equal. -/
def fltLt : Flt → Flt → Bool
  | .nan, _ => false
  | _, .nan => false
  | .inf s, .inf t => s && !t
  | .inf s, .fin _ _ _ => s
  | .fin _ _ _, .inf t => !t
  | .fin s m e, .fin t n g => dyLt (Flt.fin s m e).dyadic (Flt.fin t n g).dyadic

/-- Equal values, neither a NaN. -/
def fltEq (a b : Flt) : Bool := !a.isNan && !b.isNan && !fltLt a b && !fltLt b a

def f32Add (a b : F32) : F32 := f32Encode (f32FreeNan 0 a.toNat b.toNat) (fltAdd (f32Decode a) (f32Decode b))
def f32Sub (a b : F32) : F32 :=
  f32Encode (f32FreeNan 1 a.toNat b.toNat) (fltAdd (f32Decode a) (f32Decode b).negate)
def f32Mul (a b : F32) : F32 := f32Encode (f32FreeNan 2 a.toNat b.toNat) (fltMul (f32Decode a) (f32Decode b))
/-- a × b + c with one rounding. -/
def f32Fma (a b c : F32) : F32 :=
  f32Encode (f32FreeNan 3 (a.toNat * 2 ^ 32 + b.toNat) c.toNat)
    (fltAdd (fltMul (f32Decode a) (f32Decode b)) (f32Decode c))

/-! ## Format codes (R102) -/

/-- The binary format of a code that holds binary elements. -/
def fmtOf (code : Nat) : FpFormat :=
  if code = 0 ∨ code = 2 then fmtE4M3 else if code = 1 ∨ code = 3 then fmtE5M2
  else if code = 4 then fmtE2M1 else if code = 5 then fmtBF16 else fmtFP32

/-- Bits of an element of a format code. -/
def elemBits (code : Nat) : Nat :=
  if code = 4 then 4 else if code = 5 then 16 else if code = 7 ∨ code = 8 then 32 else 8

/-- The format has E8M0 scales (Table 3.2). -/
def isMx (code : Nat) : Bool := code = 2 ∨ code = 3 ∨ code = 4

/-- Bytes that `n` elements of a format code take. -/
def elemBytes (code n : Nat) : Nat := ceilDiv (n * elemBits code) 8

/-- Element `i` of a packed row (R104), as bits. -/
def elemRaw (code : Nat) (row : Bytes) (i : Nat) : Nat :=
  if code = 4 then byteAt row (i / 2) / 16 ^ (i % 2) % 16
  else numAt row (i * (elemBits code / 8)) (elemBits code / 8)

/-- An element decoded by its format code; integers are exact. -/
def elemDecode (code raw : Nat) : Flt :=
  if code = 6 then let v := signed raw 8; .fin (decide (v < 0)) v.natAbs 0
  else if code = 8 then let v := signed raw 32; .fin (decide (v < 0)) v.natAbs 0
  else fpDecode (fmtOf code) raw

/-- A scale byte's factor applied (R103): 0xFF makes the element NaN. -/
def mxApply (scale : Nat) (x : Flt) : Flt := if scale = 0xFF then .nan else fltScale ((scale : Int) - 127) x

/-- How a narrowed element came out (R126, R149): plain, overflowed, or NaN. -/
inductive Narrow where
  | plain
  | overflow
  | nan
  deriving DecidableEq, Repr

/-- A value narrowed to a binary format of code `code` (R126): an overflow is saturated under SAT, and otherwise an
infinity, or a signed NaN in FP8_E4M3. -/
def narrow (code : Nat) (sat : Bool) (x : Flt) : Nat × Narrow :=
  let f := fmtOf code
  let overflowed := fun s : Bool =>
    (if sat then fpSign f s (fpMax f) else if f.hasInf then fpInf f s else fpSign f s 0x7F, Narrow.overflow)
  match x with
  | .nan => (fpCanonicalNan f, .nan)
  | .inf s => overflowed s
  | .fin s m e =>
    let r := fpRound f m e
    if fpMax f < r then overflowed s else (fpSign f s r, .plain)

/-- A byte string cut into `k` pieces of `n` bytes. -/
def chunks (n : Nat) : Nat → Bytes → List Bytes
  | 0, _ => []
  | k + 1, bs => bs.take n :: chunks n k (bs.drop n)

/-! ## Sterling fixed point (R114, R115) -/

/-- A Sterling element: CLASS (0 finite, 1 and 2 infinities, 3 NaN) and VALUE in units of 2⁻⁶⁴ (Table 3.4). -/
structure Sterling where
  cls : Nat
  value : Int
  deriving DecidableEq, Repr

/-- CLASS after two classes meet (R115). -/
def sterlingClass (a b : Nat) : Nat := if a = 0 then b else if b = 0 then a else if a = b then a else 3

def sterlingAdd (x y : Sterling) : Sterling := { cls := sterlingClass x.cls y.cls, value := x.value + y.value }

/-- A product as it enters an element: the term, whether it was out of range, whether it was rounded (R115). -/
def sterlingTerm : Flt → Sterling × Bool × Bool
  | .nan => (⟨3, 0⟩, false, false)
  | .inf s => (⟨if s then 2 else 1, 0⟩, false, false)
  | .fin s m e =>
    let up := (e + 64).toNat
    let down := (-(e + 64)).toNat
    if 2 ^ (109 + down) ≤ m <<< up then (⟨if s then 2 else 1, 0⟩, true, false)
    else
      let q : Int := if down = 0 then (m <<< up : Nat) else (shiftRne m down : Nat)
      (⟨0, if s then -q else q⟩, false, decide (m % 2 ^ down ≠ 0))

/-- A Sterling element as a value. -/
def Sterling.flt (x : Sterling) : Flt :=
  if x.cls = 0 then .fin (decide (x.value < 0)) x.value.natAbs (-64)
  else if x.cls = 3 then .nan else .inf (decide (x.cls = 2))

def Sterling.bytes (x : Sterling) : Bytes := toBytes 16 (x.cls * 2 ^ 126 + unsigned x.value 126)

def Sterling.ofBytes (b : Bytes) : Sterling :=
  let n := Machine.ofBytes b
  { cls := bits n 127 126, value := signed (bits n 125 0) 126 }

/-- The most negative value of an element format (R647). -/
def mostNegative (code : Nat) : Nat :=
  if code = 0 then 0xFE else if code = 1 then 0xFC else if code = 5 then 0xFF80 else if code = 6 then 0x80
  else if code = 7 then 0xFF800000 else 0x80000000

/-- A value as an integer of `w` bits, rounded to nearest even and held to its range. -/
def toIntSat (w : Nat) (x : Flt) : Int :=
  let top : Int := 2 ^ (w - 1) - 1
  let bot : Int := -(2 ^ (w - 1))
  match x with
  | .nan => 0
  | .inf s => if s then bot else top
  | .fin s m e =>
    let q : Int := if 0 ≤ e then (m <<< e.toNat : Nat) else (shiftRne m (-e).toNat : Nat)
    let v := if s then -q else q
    if v < bot then bot else if top < v then top else v

/-- The bits of a pad value in an element format (R647): `sel` is PADSEL and `pad` CORE_PAD. -/
def padElement (code sel : Nat) (pad : F32) : Nat :=
  if sel = 0 then 0
  else if sel = 1 then mostNegative code
  else
    let x := f32Decode pad
    if code = 6 then unsigned (toIntSat 8 x) 8
    else if code = 8 then unsigned (toIntSat 32 x) 32
    else
      let f := fmtOf code
      match x with
      | .nan => fpCanonicalNan f
      | .inf s => fpSign f s (fpMax f)
      | .fin s m e => fpSign f s (min (fpRound f m e) (fpMax f))

/-- A granule filled with a pad value (R647). -/
def padGranule (code sel : Nat) (pad : F32) : Bytes :=
  (List.replicate (128 / elemBits code) (toBytes (elemBits code / 8) (padElement code sel pad))).flatten

end Sys2Proof.Machine
end

