-- ==== Sys2Proof/Machine/Digest.lean ====
section
/-! DEFINITION. The checks and digests the records carry: CRC-32C, CRC-64 and SM3. The spec names CRC-32C and
SM3 by their public names only; their definitions are those of the public standards (log entry 12). -/
namespace Sys2Proof.Machine

/-! ## CRC -/

/-- One byte into a reflected CRC with polynomial `poly`. -/
def crcByteRefl (poly : Nat) (crc : Nat) (b : Byte) : Nat :=
  (List.range 8).foldl (fun c _ => if c % 2 = 1 then (c / 2) ^^^ poly else c / 2) (crc ^^^ b.toNat)

/-- CRC-32C (Castagnoli), reflected, initial value and final inversion of all ones. PRESUMED. -/
def crc32c (bs : Bytes) : Nat := (bs.foldl (crcByteRefl 0x82F63B78) 0xFFFFFFFF) ^^^ 0xFFFFFFFF

/-- The flit CRC (R400): polynomial 0x2F0B_9D53_C6A1_84E7 taken least significant bit first, initial value and final
inversion of all ones. -/
def crcFlit (bs : Bytes) : Nat := (bs.foldl (crcByteRefl 0xE7218563CAB9D0F4) (2 ^ 64 - 1)) ^^^ (2 ^ 64 - 1)

/-! ## SM3 -/

/-- A 32-bit word rotated left. -/
def rotl32 (x : BitVec 32) (n : Nat) : BitVec 32 := x.rotateLeft (n % 32)

def sm3P0 (x : BitVec 32) : BitVec 32 := x ^^^ rotl32 x 9 ^^^ rotl32 x 17
def sm3P1 (x : BitVec 32) : BitVec 32 := x ^^^ rotl32 x 15 ^^^ rotl32 x 23

/-- Big-endian bytes to 32-bit words. -/
def beWords : Bytes → List (BitVec 32)
  | a :: b :: c :: d :: r => (a ++ b ++ c ++ d : BitVec 32) :: beWords r
  | _ => []

/-- A 32-bit word as four big-endian bytes. -/
def beBytes (x : BitVec 32) : Bytes :=
  [x.extractLsb' 24 8, x.extractLsb' 16 8, x.extractLsb' 8 8, x.extractLsb' 0 8]

/-- Message expansion: the words W_0 to W_67, kept newest first. -/
def sm3Expand : Nat → List (BitVec 32) → List (BitVec 32)
  | 0, ws => ws
  | n + 1, ws =>
    let g := fun i => ws.getD i 0
    let w := sm3P1 (g 15 ^^^ g 8 ^^^ rotl32 (g 2) 15) ^^^ rotl32 (g 12) 7 ^^^ g 5
    sm3Expand n (w :: ws)

/-- The eight chaining words. -/
structure Sm3State where
  a : BitVec 32
  b : BitVec 32
  c : BitVec 32
  d : BitVec 32
  e : BitVec 32
  f : BitVec 32
  g : BitVec 32
  h : BitVec 32
  deriving DecidableEq, Repr

def sm3Init : Sm3State :=
  ⟨0x7380166f, 0x4914b2b9, 0x172442d7, 0xda8a0600, 0xa96f30bc, 0x163138aa, 0xe38dee4d, 0xb0fb0e4e⟩

/-- One round of the compression function. -/
def sm3Round (j : Nat) (w w' : BitVec 32) (s : Sm3State) : Sm3State :=
  let t : BitVec 32 := if j < 16 then 0x79cc4519 else 0x7a879d8a
  let ss1 := rotl32 (rotl32 s.a 12 + s.e + rotl32 t j) 7
  let ss2 := ss1 ^^^ rotl32 s.a 12
  let ff := if j < 16 then s.a ^^^ s.b ^^^ s.c else (s.a &&& s.b) ||| (s.a &&& s.c) ||| (s.b &&& s.c)
  let gg := if j < 16 then s.e ^^^ s.f ^^^ s.g else (s.e &&& s.f) ||| (~~~s.e &&& s.g)
  let tt1 := ff + s.d + ss2 + w'
  let tt2 := gg + s.h + ss1 + w
  ⟨tt1, s.a, rotl32 s.b 9, s.c, sm3P0 tt2, s.e, rotl32 s.f 19, s.g⟩

/-- All rounds, over the expanded words in order. -/
def sm3Rounds : Nat → List (BitVec 32) → Sm3State → Sm3State
  | _, [], s => s
  | j, w :: ws, s =>
    if j < 64 then sm3Rounds (j + 1) ws (sm3Round j w (w ^^^ ws.getD 3 0) s) else s

/-- One 64-byte block. -/
def sm3Block (s : Sm3State) (blk : List (BitVec 32)) : Sm3State :=
  let ws := (sm3Expand 52 blk.reverse).reverse
  let t := sm3Rounds 0 ws s
  ⟨t.a ^^^ s.a, t.b ^^^ s.b, t.c ^^^ s.c, t.d ^^^ s.d, t.e ^^^ s.e, t.f ^^^ s.f, t.g ^^^ s.g, t.h ^^^ s.h⟩

/-- All blocks of a padded message. -/
def sm3Blocks : Nat → List (BitVec 32) → Sm3State → Sm3State
  | 0, _, s => s
  | n + 1, ws, s => sm3Blocks n (ws.drop 16) (sm3Block s (ws.take 16))

/-- SM3 of a byte string, 32 bytes. PRESUMED: the public standard. -/
def sm3 (bs : Bytes) : Bytes :=
  let len := bs.length
  let padLen := (119 - len % 64) % 64
  let padded := bs ++ [0x80] ++ zeros padLen ++ (toBytes 8 (8 * len)).reverse
  let s := sm3Blocks (padded.length / 64) (beWords padded) sm3Init
  [s.a, s.b, s.c, s.d, s.e, s.f, s.g, s.h].flatMap beBytes

/-! ## Philox4x32-10 (R170, log entry 12) -/

/-- One round on the counter words, with the key. -/
def philoxRound (k0 k1 : Nat) (c : Nat × Nat × Nat × Nat) : Nat × Nat × Nat × Nat :=
  let (c0, c1, c2, c3) := c
  let p0 := 0xD2511F53 * c0
  let p1 := 0xCD9E8D57 * c2
  ((p1 / 2 ^ 32 ^^^ c1 ^^^ k0), p1 % 2 ^ 32, (p0 / 2 ^ 32 ^^^ c3 ^^^ k1), p0 % 2 ^ 32)

def philoxRounds : Nat → Nat → Nat → Nat × Nat × Nat × Nat → Nat × Nat × Nat × Nat
  | 0, _, _, c => c
  | n + 1, k0, k1, c => philoxRounds n ((k0 + 0x9E3779B9) % 2 ^ 32) ((k1 + 0xBB67AE85) % 2 ^ 32) (philoxRound k0 k1 c)

/-- Output word `i` of the generator for a key and a counter. -/
def philox (k0 k1 c0 c1 c2 c3 i : Nat) : Nat :=
  let (a, b, c, d) := philoxRounds 10 k0 k1 (c0, c1, c2, c3)
  match i with
  | 0 => a
  | 1 => b
  | 2 => c
  | _ => d

end Sys2Proof.Machine
end

