-- ==== Sys2Proof/Machine/Memory.lean ====
section
/-! DEFINITION. The byte memory of the block: a list of cells in one canonical form, and its operations. One
address space holds every memory, by control-space byte address (R7, R195, log entry 3). -/
namespace Sys2Proof.Machine

/-- The canonical form: addresses strictly rising, and no cell equal to what an unlisted address reads as. -/
def Memory.wf (l : List Host.Cell) : Bool :=
  decide (l.Pairwise fun a b => a.1 < b.1) && l.all fun c => c.2 != 0

/-- What an unlisted address reads as: every memory is zero-filled at reset (R197, R638). -/
def unlisted : Byte := 0

/-- One byte read. -/
def cellGet (l : List Host.Cell) (a : Nat) : Byte := (l.lookup a).getD unlisted

/-- The cells of a byte string placed at an address, without those that read as unlisted. -/
def cellsOf : Nat → Bytes → List Host.Cell
  | _, [] => []
  | a, b :: bs => if b = unlisted then cellsOf (a + 1) bs else (a, b) :: cellsOf (a + 1) bs

/-- A byte string written at an address. -/
def cellsSet (l : List Host.Cell) (a : Nat) (bs : Bytes) : List Host.Cell :=
  l.filter (fun c => c.1 < a) ++ cellsOf a bs ++ l.filter (fun c => a + bs.length ≤ c.1)

/-- A range cleared to what unlisted addresses read as. -/
def cellsClear (l : List Host.Cell) (a n : Nat) : List Host.Cell :=
  l.filter (fun c => c.1 < a) ++ l.filter (fun c => a + n ≤ c.1)

/-! The canonical form is kept by construction: the working memory carries the proof. -/

theorem cellsOf_ge (a : Nat) (bs : Bytes) : ∀ c ∈ cellsOf a bs, a ≤ c.1 ∧ c.1 < a + bs.length ∧ c.2 ≠ 0 := by
  induction bs generalizing a with
  | nil => simp [cellsOf]
  | cons b bs ih =>
    intro c hc
    unfold cellsOf at hc
    split at hc
    · have := ih (a + 1) c hc
      simp only [List.length_cons]; exact ⟨by omega, by omega, this.2.2⟩
    · rename_i hb
      rcases List.mem_cons.mp hc with rfl | hc
      · simp only [List.length_cons]; exact ⟨by omega, by omega, hb⟩
      · have := ih (a + 1) c hc
        simp only [List.length_cons]; exact ⟨by omega, by omega, this.2.2⟩

theorem cellsOf_pairwise (a : Nat) (bs : Bytes) : (cellsOf a bs).Pairwise fun x y => x.1 < y.1 := by
  induction bs generalizing a with
  | nil => simp [cellsOf]
  | cons b bs ih =>
    unfold cellsOf
    split
    · exact ih _
    · refine List.pairwise_cons.mpr ⟨fun c hc => ?_, ih _⟩
      have := cellsOf_ge (a + 1) bs c hc
      simp only; omega

theorem Memory.wf_iff (l : List Host.Cell) :
    Memory.wf l = true ↔ (l.Pairwise fun a b => a.1 < b.1) ∧ ∀ c ∈ l, c.2 ≠ 0 := by
  simp [Memory.wf]

theorem cellsSet_wf (l : List Host.Cell) (a : Nat) (bs : Bytes) (h : Memory.wf l = true) :
    Memory.wf (cellsSet l a bs) = true := by
  rw [Memory.wf_iff] at h ⊢
  obtain ⟨hp, hz⟩ := h
  unfold cellsSet
  constructor
  · rw [List.append_assoc, List.pairwise_append, List.pairwise_append]
    refine ⟨hp.filter _, ⟨cellsOf_pairwise a bs, hp.filter _, ?_⟩, ?_⟩
    · intro x hx y hy
      have h1 := cellsOf_ge a bs x hx
      have h2 := (List.mem_filter.mp hy).2
      simp only [decide_eq_true_eq] at h2; omega
    · intro x hx y hy
      have h1 := (List.mem_filter.mp hx).2
      simp only [decide_eq_true_eq] at h1
      rcases List.mem_append.mp hy with hy | hy
      · have := cellsOf_ge a bs y hy; omega
      · have h2 := (List.mem_filter.mp hy).2
        simp only [decide_eq_true_eq] at h2; omega
  · intro c hc
    simp only [List.mem_append] at hc
    rcases hc with (hc | hc) | hc
    · exact hz c (List.mem_filter.mp hc).1
    · exact (cellsOf_ge a bs c hc).2.2
    · exact hz c (List.mem_filter.mp hc).1

theorem cellsClear_wf (l : List Host.Cell) (a n : Nat) (h : Memory.wf l = true) :
    Memory.wf (cellsClear l a n) = true := by
  rw [Memory.wf_iff] at h ⊢
  obtain ⟨hp, hz⟩ := h
  unfold cellsClear
  constructor
  · rw [List.pairwise_append]
    refine ⟨hp.filter _, hp.filter _, ?_⟩
    intro x hx y hy
    have h1 := (List.mem_filter.mp hx).2
    have h2 := (List.mem_filter.mp hy).2
    simp only [decide_eq_true_eq] at h1 h2; omega
  · intro c hc
    rcases List.mem_append.mp hc with hc | hc <;> exact hz c (List.mem_filter.mp hc).1

/-- The working memory: cells in canonical form. -/
structure CMem where
  cells : List Host.Cell
  ok : Memory.wf cells = true

/-- The empty memory. -/
def CMem.empty : CMem := ⟨[], by decide⟩

/-- A byte string written. -/
def CMem.write (m : CMem) (a : Nat) (bs : Bytes) : CMem := ⟨cellsSet m.cells a bs, cellsSet_wf _ _ _ m.ok⟩

/-- A range cleared. -/
def CMem.clear (m : CMem) (a n : Nat) : CMem := ⟨cellsClear m.cells a n, cellsClear_wf _ _ _ m.ok⟩

/-- The canonical memory a list of cells stands for; a list in canonical form stands for itself
(`Laws/Memory.lean`). -/
def CMem.ofList (l : List Host.Cell) : CMem :=
  if h : Memory.wf l = true then ⟨l, h⟩ else l.foldr (fun c m => m.write c.1 [c.2]) CMem.empty

/-- `n` bytes read from an address. -/
def CMem.read (m : CMem) (a n : Nat) : Bytes :=
  let w := m.cells.filter fun c => a ≤ c.1 && c.1 < a + n
  (List.range n).map fun i => cellGet w (a + i)

end Sys2Proof.Machine
end

