-- ==== Sys2Proof/Machine/RegMap.lean ====
section
/-! DEFINITION. The register map: every register's name, offset, reset value and access masks, from the
register tables of spec chapters 2 to 16. -/
namespace Sys2Proof.Machine

/-- One row of a register table: offset from its block's base (an absolute address for the blocks that stand
once), how many registers and how far apart, reset value, the bits that are RW or RWL, W1C and W1S (R9), and
whether the register is an RC counter (R12). -/
structure RegRow where
  off : Nat
  count : Nat := 1
  stride : Nat := 8
  reset : Nat := 0
  rw : Nat := 0
  w1c : Nat := 0
  w1s : Nat := 0
  rc : Bool := false
  deriving DecidableEq, Repr


/-! Table 2.11 -/

/-- CORE_CTRL. -/
abbrev CORE_CTRL : Nat := 0x0

/-- CORE_STATUS. -/
abbrev CORE_STATUS : Nat := 0x8

/-- CORE_SCHED_FAULT. -/
abbrev CORE_SCHED_FAULT : Nat := 0x10

/-- CORE_FAULT_CMDn: n = 0 to 3: words 0 to 3 of the faulting command, or the faulting instruction in word 0 when FROM_CC is
set. -/
abbrev CORE_FAULT_CMD : Nat := 0x18

/-- CORE_FENCE_WDOG. -/
abbrev CORE_FENCE_WDOG : Nat := 0x40

/-- CORE_PRED. -/
abbrev CORE_PRED : Nat := 0x48

/-- CORE_ENGn_ISSUE_CNT: n = 0 to 3: commands issued by engine n. -/
abbrev CORE_ENG_ISSUE_CNT : Nat := 0x100

/-- CORE_PRED_SKIP_CNT. -/
abbrev CORE_PRED_SKIP_CNT : Nat := 0x120

/-- CORE_SB_STALL_CYCLE_CNT. -/
abbrev CORE_SB_STALL_CYCLE_CNT : Nat := 0x128

/-- CORE_SB_FULL_CYCLE_CNT. -/
abbrev CORE_SB_FULL_CYCLE_CNT : Nat := 0x130

/-- CORE_ELASTIC_WAIT_CYCLE_CNT. -/
abbrev CORE_ELASTIC_WAIT_CYCLE_CNT : Nat := 0x138

/-- CORE_FENCE_WAIT_CYCLE_CNT. -/
abbrev CORE_FENCE_WAIT_CYCLE_CNT : Nat := 0x140

/-- CORE_SCHED_FAULT_CNT. -/
abbrev CORE_SCHED_FAULT_CNT : Nat := 0x148

/-- CORE_PARAM_WR_DROP_CNT. -/
abbrev CORE_PARAM_WR_DROP_CNT : Nat := 0x150

/-! Table 3.12 -/

/-- CORE_ACC_MODE. -/
abbrev CORE_ACC_MODE : Nat := 0x200

/-- CORE_PAD. -/
abbrev CORE_PAD : Nat := 0x208

/-- CORE_MXE_STATUS. -/
abbrev CORE_MXE_STATUS : Nat := 0x210

/-- CORE_MXE_PLANE_WAIT_CYCLE_CNT: cycles held under R123. -/
abbrev CORE_MXE_PLANE_WAIT_CYCLE_CNT : Nat := 0x218

/-- CORE_MXE_DRAIN_SAT_CNT: elements overflowed at drain (R126), and scaled INT32 elements delivered as infinity at handoff
(R133. -/
abbrev CORE_MXE_DRAIN_SAT_CNT : Nat := 0x220

/-- CORE_MXE_NAN_CNT: NaN elements written by drain (R126. -/
abbrev CORE_MXE_NAN_CNT : Nat := 0x228

/-- CORE_MXE_STERLING_RANGE_CNT: products entered as infinity under R115. -/
abbrev CORE_MXE_STERLING_RANGE_CNT : Nat := 0x230

/-- CORE_MXE_STERLING_ROUND_CNT: products rounded under R115. -/
abbrev CORE_MXE_STERLING_ROUND_CNT : Nat := 0x238

/-- CORE_DSCALEn: n = 0 to 31. -/
abbrev CORE_DSCALE : Nat := 0x300

/-! Table 4.9 -/

/-- CORE_SML_STATUS. -/
abbrev CORE_SML_STATUS : Nat := 0x400

/-- CORE_SML_DESC_VALID: bit i is 1 when entry i is valid. -/
abbrev CORE_SML_DESC_VALID : Nat := 0x408

/-- CORE_SML_TABLE_REV. -/
abbrev CORE_SML_TABLE_REV : Nat := 0x410

/-- CORE_SML_NAN_CNT: NaN elements written or sunk, and elements zeroed under R174. -/
abbrev CORE_SML_NAN_CNT : Nat := 0x418

/-- CORE_SML_QUANT_SAT_CNT: elements saturated under R149, R172 and R173. -/
abbrev CORE_SML_QUANT_SAT_CNT : Nat := 0x420

/-- CORE_SML_SAMPLE_FAIL_CNT: rows under R171. -/
abbrev CORE_SML_SAMPLE_FAIL_CNT : Nat := 0x428

/-- CORE_SML_MERGE_EMPTY_CNT: heads under R185. -/
abbrev CORE_SML_MERGE_EMPTY_CNT : Nat := 0x430

/-- CORE_SML_STERLING_ROUND_CNT: products rounded under R183. -/
abbrev CORE_SML_STERLING_ROUND_CNT : Nat := 0x438

/-- CORE_SML_INDEX_OOB_CNT: indices under R178 and R179. -/
abbrev CORE_SML_INDEX_OOB_CNT : Nat := 0x440

/-- CORE_SML_SCATTER_COLLIDE_CNT: collisions under R180. -/
abbrev CORE_SML_SCATTER_COLLIDE_CNT : Nat := 0x448

/-! Table 5.10 -/

/-- CORE_ECC_INJECT. -/
abbrev CORE_ECC_INJECT : Nat := 0x500

/-- CORE_ECC_CE_CAP0. -/
abbrev CORE_ECC_CE_CAP0 : Nat := 0x508

/-- CORE_ECC_CE_CAP1. -/
abbrev CORE_ECC_CE_CAP1 : Nat := 0x510

/-- CORE_ECC_UE_CAP0. -/
abbrev CORE_ECC_UE_CAP0 : Nat := 0x518

/-- CORE_ECC_UE_CAP1. -/
abbrev CORE_ECC_UE_CAP1 : Nat := 0x520

/-- CORE_VIOL_CAP0. -/
abbrev CORE_VIOL_CAP0 : Nat := 0x528

/-- CORE_VIOL_CAP1. -/
abbrev CORE_VIOL_CAP1 : Nat := 0x530

/-- CORE_VIOL_CNT: access events under R223. -/
abbrev CORE_VIOL_CNT : Nat := 0x538

/-- CORE_MEMn_CE_CNT: n = 0 to 6: corrected errors, demand and scrub. -/
abbrev CORE_MEM_CE_CNT : Nat := 0x540

/-- CORE_MEMn_UE_CNT: n = 0 to 6: uncorrectable errors, demand and scrub. -/
abbrev CORE_MEM_UE_CNT : Nat := 0x578

/-- CORE_BANK_COLLIDE_CNT: lockstep accesses served in hold cycles (R202. -/
abbrev CORE_BANK_COLLIDE_CNT : Nat := 0x5B0

/-- CORE_SCRUB_COLLIDE_CNT: of those, accesses that met a scrub slot. -/
abbrev CORE_SCRUB_COLLIDE_CNT : Nat := 0x5B8

/-- CORE_CC_BANK_WAIT_CYCLE_CNT: R203. -/
abbrev CORE_CC_BANK_WAIT_CYCLE_CNT : Nat := 0x5C0

/-- CORE_ELASTIC_BANK_WAIT_CYCLE_CNT: R204. -/
abbrev CORE_ELASTIC_BANK_WAIT_CYCLE_CNT : Nat := 0x5C8

/-- CORE_ECC_WB_DROP_CNT: R212. -/
abbrev CORE_ECC_WB_DROP_CNT : Nat := 0x5D0

/-- CORE_LODE_SCRUB_PASS_CNT. -/
abbrev CORE_LODE_SCRUB_PASS_CNT : Nat := 0x5D8

/-- CORE_SCR_SCRUB_PASS_CNT. -/
abbrev CORE_SCR_SCRUB_PASS_CNT : Nat := 0x5E0

/-- CORE_OPC_SCRUB_PASS_CNT. -/
abbrev CORE_OPC_SCRUB_PASS_CNT : Nat := 0x5E8

/-- CORE_LODE_SLOT_WR_CNT: R213. -/
abbrev CORE_LODE_SLOT_WR_CNT : Nat := 0x5F0

/-- CORE_CS_DEFER_CNT: R214. -/
abbrev CORE_CS_DEFER_CNT : Nat := 0x5F8

/-! Table 5.15 -/

/-- CLU_STOPE_CE_CAP0: layout of Table 5.12, MEM 7. -/
abbrev CLU_STOPE_CE_CAP0 : Nat := 0x500

/-- CLU_STOPE_CE_CAP1: layout of Table 5.13. -/
abbrev CLU_STOPE_CE_CAP1 : Nat := 0x508

/-- CLU_STOPE_UE_CAP0. -/
abbrev CLU_STOPE_UE_CAP0 : Nat := 0x510

/-- CLU_STOPE_UE_CAP1. -/
abbrev CLU_STOPE_UE_CAP1 : Nat := 0x518

/-- CLU_STOPE_CE_CNT. -/
abbrev CLU_STOPE_CE_CNT : Nat := 0x520

/-- CLU_STOPE_UE_CNT. -/
abbrev CLU_STOPE_UE_CNT : Nat := 0x528

/-- CLU_STOPE_COLLIDE_CNT: R202. -/
abbrev CLU_STOPE_COLLIDE_CNT : Nat := 0x530

/-- CLU_STOPE_ELASTIC_WAIT_CYCLE_CNT: R204. -/
abbrev CLU_STOPE_ELASTIC_WAIT_CYCLE_CNT : Nat := 0x538

/-- CLU_STOPE_SCRUB_PASS_CNT: R211. -/
abbrev CLU_STOPE_SCRUB_PASS_CNT : Nat := 0x540

/-- CLU_STOPE_ECC_INJECT: layout of Table 5.11, MEM ignored. -/
abbrev CLU_STOPE_ECC_INJECT : Nat := 0x548

/-- CLU_STOPE_WB_DROP_CNT: R212. -/
abbrev CLU_STOPE_WB_DROP_CNT : Nat := 0x550

/-! Table 6.10 -/

/-- SHAFT_XING_CAL. -/
abbrev SHAFT_XING_CAL : Nat := 0x220000100000

/-- SHAFT_XING_MEAS: measured delay of boundary x in eighths of a cycle, at bits [8x + 7:8x]. -/
abbrev SHAFT_XING_MEAS : Nat := 0x220000100008

/-- SHAFT_GRID_SIG: signature in bits [39:0] (R246. -/
abbrev SHAFT_GRID_SIG : Nat := 0x220000100010

/-- SHAFT_CAL_STATUS. -/
abbrev SHAFT_CAL_STATUS : Nat := 0x220000100018

/-- SHAFT_FENCE_STRAY_CNT: R252. -/
abbrev SHAFT_FENCE_STRAY_CNT : Nat := 0x220000100020

/-! Table 6.13 -/

/-- SHAFT_LINK_COLLIDE_CNT: beats served in hold cycles (R234. -/
abbrev SHAFT_LINK_COLLIDE_CNT : Nat := 0x600

/-- SHAFT_ELASTIC_WAIT_CYCLE_CNT: R233. -/
abbrev SHAFT_ELASTIC_WAIT_CYCLE_CNT : Nat := 0x608

/-- SHAFT_EJECT_FULL_CNT: R236. -/
abbrev SHAFT_EJECT_FULL_CNT : Nat := 0x610

/-- SHAFT_ROUTER_SEL: bit 0 selects the redundant router from the next step boundary (R227. -/
abbrev SHAFT_ROUTER_SEL : Nat := 0x618

/-- CLU_SLIP_CYCLE_CNT: hold cycles of this site's cores, counted once per cycle. -/
abbrev CLU_SLIP_CYCLE_CNT : Nat := 0x620

/-- CLU_LATE_LAND_CNT: R237. -/
abbrev CLU_LATE_LAND_CNT : Nat := 0x628

/-- CLU_VCORE_MAP: physical core of virtual core v in bits [5v + 4:5v], v = 0 to 11. -/
abbrev CLU_VCORE_MAP : Nat := 0x630

/-- CLU_VCORE_MAP_HI: the same for v = 12 to 15, at bits [5(v − 12) + 4:5(v − 12)]. -/
abbrev CLU_VCORE_MAP_HI : Nat := 0x638

/-! Table 6.14 -/

/-- FMN_SEQ_STATUS. -/
abbrev FMN_SEQ_STATUS : Nat := 0x240000100000

/-- FMN_SEQ_WDOG: limit in nanoseconds of fabric time, reset 0x0000_0000_0131_2D00 (20 ms. -/
abbrev FMN_SEQ_WDOG : Nat := 0x240000100008

/-- FMN_SEQ_BUDGET_OVR_CNT: R262. -/
abbrev FMN_SEQ_BUDGET_OVR_CNT : Nat := 0x240000100010

/-- FMN_SEQ_BUDGET_OVR_CAP. -/
abbrev FMN_SEQ_BUDGET_OVR_CAP : Nat := 0x240000100018

/-- FMN_SEQ_LAST_STEP_CYCLES: compute cycles of the last step, holds included. -/
abbrev FMN_SEQ_LAST_STEP_CYCLES : Nat := 0x240000100020

/-! Table 7.11 -/

/-- SEAM_CTRL. -/
abbrev SEAM_CTRL : Nat := 0x0

/-- SEAM_STATUS. -/
abbrev SEAM_STATUS : Nat := 0x8

/-- SEAM_REGION. -/
abbrev SEAM_REGION : Nat := 0x10

/-- SEAM_FREE_LOW: low-page threshold in pages (R288. -/
abbrev SEAM_FREE_LOW : Nat := 0x18

/-- SEAM_CH_CMD. -/
abbrev SEAM_CH_CMD : Nat := 0x20

/-- SEAM_CH_STATE. -/
abbrev SEAM_CH_STATE : Nat := 0x28

/-- SEAM_UE_CAP0. -/
abbrev SEAM_UE_CAP0 : Nat := 0x30

/-- SEAM_UE_CAP1. -/
abbrev SEAM_UE_CAP1 : Nat := 0x38

/-- SEAM_APPEND_TOKEN_CNT: tokens written. -/
abbrev SEAM_APPEND_TOKEN_CNT : Nat := 0x100

/-- SEAM_APPEND_SAT_CNT: R282. -/
abbrev SEAM_APPEND_SAT_CNT : Nat := 0x108

/-- SEAM_APPEND_ROUND_CNT: R282. -/
abbrev SEAM_APPEND_ROUND_CNT : Nat := 0x110

/-- SEAM_APPEND_BELOW_CNT: R283. -/
abbrev SEAM_APPEND_BELOW_CNT : Nat := 0x118

/-- SEAM_ALLOC_FAIL_CNT: R287. -/
abbrev SEAM_ALLOC_FAIL_CNT : Nat := 0x120

/-- SEAM_TAILINGS_PAGE_CNT: R286. -/
abbrev SEAM_TAILINGS_PAGE_CNT : Nat := 0x128

/-- SEAM_ATTEND_ENTRY_CNT: QATTEND entries processed. -/
abbrev SEAM_ATTEND_ENTRY_CNT : Nat := 0x130

/-- SEAM_STREAM_BYTE_CNT: key/value bytes streamed. -/
abbrev SEAM_STREAM_BYTE_CNT : Nat := 0x138

/-- SEAM_REQ_QUEUE_FULL_CYCLE_CNT: R294. -/
abbrev SEAM_REQ_QUEUE_FULL_CYCLE_CNT : Nat := 0x140

/-- SEAM_PARK_PAGE_CNT: R305. -/
abbrev SEAM_PARK_PAGE_CNT : Nat := 0x148

/-- SEAM_RESUME_ROUND_CNT: R307. -/
abbrev SEAM_RESUME_ROUND_CNT : Nat := 0x150

/-- SEAM_EXPIRE_PAGE_CNT: R308. -/
abbrev SEAM_EXPIRE_PAGE_CNT : Nat := 0x158

/-- SEAM_PAGE_REMAP_CNT: R301. -/
abbrev SEAM_PAGE_REMAP_CNT : Nat := 0x160

/-- SEAM_PAGE_WITHDRAWN_CNT: R301, R303. -/
abbrev SEAM_PAGE_WITHDRAWN_CNT : Nat := 0x168

/-- SEAM_VIOL_CNT: R267. -/
abbrev SEAM_VIOL_CNT : Nat := 0x170

/-- SEAM_PATROL_PASS_CNT: R298. -/
abbrev SEAM_PATROL_PASS_CNT : Nat := 0x178

/-- SEAM_GEOM_ERR_CNT: R643. -/
abbrev SEAM_GEOM_ERR_CNT : Nat := 0x180

/-- SEAM_CLASSn_WAIT_CYCLE_CNT: n = 0 to 7 (R295. -/
abbrev SEAM_CLASS_WAIT_CYCLE_CNT : Nat := 0x200

/-- SEAM_CHn_CE_CNT: R299. -/
abbrev SEAM_CH_CE_CNT : Nat := 0x400

/-- SEAM_CHn_UE_CNT: R300. -/
abbrev SEAM_CH_UE_CNT : Nat := 0x408

/-- SEAM_CHn_REFRESH_DELAY_CNT: R297. -/
abbrev SEAM_CH_REFRESH_DELAY_CNT : Nat := 0x410

/-! Table 8.13 -/

/-- TALLY_SHIP_CTRL. -/
abbrev TALLY_SHIP_CTRL : Nat := 0x230000000000

/-- TALLY_STATUS. -/
abbrev TALLY_STATUS : Nat := 0x230000000008

/-- TALLY_STATEn_CNT: n = 0 to 11: entries now in state n; a 32-bit gauge in [31:0], not a counter. -/
abbrev TALLY_STATE_CNT : Nat := 0x230000000100

/-- TALLY_EXPIRED_CNT: R308. -/
abbrev TALLY_EXPIRED_CNT : Nat := 0x230000000180

/-- TALLY_CE_CNT: R314. -/
abbrev TALLY_CE_CNT : Nat := 0x230000000188

/-- TALLY_UE_CNT: R314. -/
abbrev TALLY_UE_CNT : Nat := 0x230000000190

/-- TALLY_FW_WR_DEFER_CNT: R313. -/
abbrev TALLY_FW_WR_DEFER_CNT : Nat := 0x230000000198

/-- TALLY_SHIP_PAGE_TX_CNT: R356. -/
abbrev TALLY_SHIP_PAGE_TX_CNT : Nat := 0x2300000001A0

/-- TALLY_SHIP_PAGE_RX_CNT: R352. -/
abbrev TALLY_SHIP_PAGE_RX_CNT : Nat := 0x2300000001A8

/-- TALLY_SHIP_CRC_ERR_CNT: R352. -/
abbrev TALLY_SHIP_CRC_ERR_CNT : Nat := 0x2300000001B0

/-- TALLY_SHIP_REREQ_CNT: R353. -/
abbrev TALLY_SHIP_REREQ_CNT : Nat := 0x2300000001B8

/-- TALLY_SHIP_DUP_CNT: R352. -/
abbrev TALLY_SHIP_DUP_CNT : Nat := 0x2300000001C0

/-- TALLY_SHIP_INCOMPLETE_CNT: R354. -/
abbrev TALLY_SHIP_INCOMPLETE_CNT : Nat := 0x2300000001C8

/-- TALLY_SHIP_HOLD_EXPIRE_CNT: R356. -/
abbrev TALLY_SHIP_HOLD_EXPIRE_CNT : Nat := 0x2300000001D0

/-! Table 8.16 -/

/-- CMT_CTRL. -/
abbrev CMT_CTRL : Nat := 0x230000010000

/-- CMT_STATUS. -/
abbrev CMT_STATUS : Nat := 0x230000010008

/-- CMT_OUTRING_BASE: carve-out offset of output rings, 4 KiB aligned, in [36:0]. -/
abbrev CMT_OUTRING_BASE : Nat := 0x230000010010

/-- CMT_OUTCONS_BASE: carve-out offset of consumer words, 4 KiB aligned, in [36:0]. -/
abbrev CMT_OUTCONS_BASE : Nat := 0x230000010018

/-- CMT_LAST_STEP: number of the last committed step. -/
abbrev CMT_LAST_STEP : Nat := 0x230000010020

/-- CMT_GROUP_WDOG: ns of fabric time, reset 0x0000_0000_0098_9680 (10 ms. -/
abbrev CMT_GROUP_WDOG : Nat := 0x230000010028

/-- CMT_FAULT_CAP. -/
abbrev CMT_FAULT_CAP : Nat := 0x230000010030

/-- CMT_STEP_COMMIT_CNT: steps committed. -/
abbrev CMT_STEP_COMMIT_CNT : Nat := 0x230000010100

/-- CMT_STEP_REPLAY_CNT: R30. -/
abbrev CMT_STEP_REPLAY_CNT : Nat := 0x230000010108

/-- CMT_STEP_FAULT_CNT: R30, R343. -/
abbrev CMT_STEP_FAULT_CNT : Nat := 0x230000010110

/-- CMT_TOKEN_CNT: tokens posted. -/
abbrev CMT_TOKEN_CNT : Nat := 0x230000010118

/-- CMT_DRAFT_ACCEPT_CNT. -/
abbrev CMT_DRAFT_ACCEPT_CNT : Nat := 0x230000010120

/-- CMT_DRAFT_REJECT_CNT. -/
abbrev CMT_DRAFT_REJECT_CNT : Nat := 0x230000010128

/-- CMT_DEADLINE_PASSED_CNT: R337. -/
abbrev CMT_DEADLINE_PASSED_CNT : Nat := 0x230000010130

/-- CMT_RING_OVERRUN_CNT: R326. -/
abbrev CMT_RING_OVERRUN_CNT : Nat := 0x230000010138

/-- CMT_EVENT_DEFER_CNT: R326. -/
abbrev CMT_EVENT_DEFER_CNT : Nat := 0x230000010140

/-- CMT_RESULT_INVALID_CNT: R340. -/
abbrev CMT_RESULT_INVALID_CNT : Nat := 0x230000010148

/-- CMT_START_HOLD_CNT: R333. -/
abbrev CMT_START_HOLD_CNT : Nat := 0x230000010150

/-- CMT_STALE_PUT_CNT: R346. -/
abbrev CMT_STALE_PUT_CNT : Nat := 0x230000010158

/-- CMT_GROUP_ABORT_CNT: R344. -/
abbrev CMT_GROUP_ABORT_CNT : Nat := 0x230000010160

/-! Table 9.6 -/

/-- FMN_WT_CTRL. -/
abbrev FMN_WT_CTRL : Nat := 0x240000200000

/-- FMN_WT_STATUS. -/
abbrev FMN_WT_STATUS : Nat := 0x240000200008

/-- FMN_ASSAY_CTRL. -/
abbrev FMN_ASSAY_CTRL : Nat := 0x240000200010

/-- FMN_ASSAY_CAP0. -/
abbrev FMN_ASSAY_CAP0 : Nat := 0x240000200018

/-- FMN_ASSAY_CAP1. -/
abbrev FMN_ASSAY_CAP1 : Nat := 0x240000200020

/-- FMN_WT_SHARD_RX_CNT: R365. -/
abbrev FMN_WT_SHARD_RX_CNT : Nat := 0x240000200100

/-- FMN_WT_DIGEST_ERR_CNT: R366. -/
abbrev FMN_WT_DIGEST_ERR_CNT : Nat := 0x240000200108

/-- FMN_WT_UNMATCHED_CNT: R366. -/
abbrev FMN_WT_UNMATCHED_CNT : Nat := 0x240000200110

/-- FMN_WT_DUP_CNT: R366. -/
abbrev FMN_WT_DUP_CNT : Nat := 0x240000200118

/-- FMN_WT_REQ_CNT: R370. -/
abbrev FMN_WT_REQ_CNT : Nat := 0x240000200120

/-- FMN_WT_REFETCH_CNT: R372. -/
abbrev FMN_WT_REFETCH_CNT : Nat := 0x240000200128

/-- FMN_WT_TIMEOUT_CNT: R372. -/
abbrev FMN_WT_TIMEOUT_CNT : Nat := 0x240000200130

/-- FMN_WT_SHARD_LOST_CNT: R373. -/
abbrev FMN_WT_SHARD_LOST_CNT : Nat := 0x240000200138

/-- FMN_WT_SHARD_TX_CNT: R371. -/
abbrev FMN_WT_SHARD_TX_CNT : Nat := 0x240000200140

/-- FMN_WT_NOT_HELD_CNT: R371. -/
abbrev FMN_WT_NOT_HELD_CNT : Nat := 0x240000200148

/-- FMN_WT_EVICT_CNT: R368. -/
abbrev FMN_WT_EVICT_CNT : Nat := 0x240000200150

/-- FMN_WT_REPAIR_CNT: R382. -/
abbrev FMN_WT_REPAIR_CNT : Nat := 0x240000200158

/-- FMN_WT_FLIP_LATE_CNT: R385, R387. -/
abbrev FMN_WT_FLIP_LATE_CNT : Nat := 0x240000200160

/-- FMN_EPOCH_FLIP_CNT: R388. -/
abbrev FMN_EPOCH_FLIP_CNT : Nat := 0x240000200168

/-- FMN_EPOCH_POLICYn_CNT: n = 0 to 2 (R389. -/
abbrev FMN_EPOCH_POLICY_CNT : Nat := 0x240000200170

/-- FMN_ASSAY_UNIT_CNT: R378. -/
abbrev FMN_ASSAY_UNIT_CNT : Nat := 0x240000200188

/-- FMN_ASSAY_PASS_CNT: R380. -/
abbrev FMN_ASSAY_PASS_CNT : Nat := 0x240000200190

/-- FMN_ASSAY_MISMATCH_CNT: R381. -/
abbrev FMN_ASSAY_MISMATCH_CNT : Nat := 0x240000200198

/-! Table 10.12 -/

/-- RYS_PORTn_CTRL. -/
abbrev RYS_PORT_CTRL : Nat := 0x0

/-- RYS_PORTn_STATUS. -/
abbrev RYS_PORT_STATUS : Nat := 0x8

/-- RYS_PORTn_GRACE. -/
abbrev RYS_PORT_GRACE : Nat := 0x10

/-- RYS_PORTn_RESERVE. -/
abbrev RYS_PORT_RESERVE : Nat := 0x18

/-- RYS_PORTn_WRR. -/
abbrev RYS_PORT_WRR : Nat := 0x20

/-- RYS_PORTn_LANE_THRESH. -/
abbrev RYS_PORT_LANE_THRESH : Nat := 0x28

/-- RYS_PORTn_LANE_CMD. -/
abbrev RYS_PORT_LANE_CMD : Nat := 0x30

/-- RYS_PORTn_LANE_STATE. -/
abbrev RYS_PORT_LANE_STATE : Nat := 0x38

/-- RYS_PORTn_PARTNER. -/
abbrev RYS_PORT_PARTNER : Nat := 0x40

/-- RYS_PORTn_RTT_NS. -/
abbrev RYS_PORT_RTT_NS : Nat := 0x48

/-- RYS_PORTn_FLIT_TX_CNT: data flits sent for the first time. -/
abbrev RYS_PORT_FLIT_TX_CNT : Nat := 0x100

/-- RYS_PORTn_FLIT_RX_CNT: R410. -/
abbrev RYS_PORT_FLIT_RX_CNT : Nat := 0x108

/-- RYS_PORTn_CTL_FLIT_TX_CNT: control flits sent. -/
abbrev RYS_PORT_CTL_FLIT_TX_CNT : Nat := 0x110

/-- RYS_PORTn_CRC_ERR_CNT: R401. -/
abbrev RYS_PORT_CRC_ERR_CNT : Nat := 0x118

/-- RYS_PORTn_DUP_DISCARD_CNT: R410. -/
abbrev RYS_PORT_DUP_DISCARD_CNT : Nat := 0x120

/-- RYS_PORTn_OOS_DISCARD_CNT: R410. -/
abbrev RYS_PORT_OOS_DISCARD_CNT : Nat := 0x128

/-- RYS_PORTn_POOL_OVERRUN_CNT: R425. -/
abbrev RYS_PORT_POOL_OVERRUN_CNT : Nat := 0x130

/-- RYS_PORTn_UNADMITTED_DROP_CNT: R408. -/
abbrev RYS_PORT_UNADMITTED_DROP_CNT : Nat := 0x138

/-- RYS_PORTn_NACK_TX_CNT: R413. -/
abbrev RYS_PORT_NACK_TX_CNT : Nat := 0x140

/-- RYS_PORTn_NACK_REPEAT_CNT: R414. -/
abbrev RYS_PORT_NACK_REPEAT_CNT : Nat := 0x148

/-- RYS_PORTn_NACK_RX_CNT: R415. -/
abbrev RYS_PORT_NACK_RX_CNT : Nat := 0x150

/-- RYS_PORTn_NACK_IGNORED_CNT: R415. -/
abbrev RYS_PORT_NACK_IGNORED_CNT : Nat := 0x158

/-- RYS_PORTn_REPLAY_TIMEOUT_CNT: R417. -/
abbrev RYS_PORT_REPLAY_TIMEOUT_CNT : Nat := 0x160

/-- RYS_PORTn_REPLAY_FLIT_CNT: R416. -/
abbrev RYS_PORT_REPLAY_FLIT_CNT : Nat := 0x168

/-- RYS_PORTn_REPLAY_FULL_SLOT_CNT: R418. -/
abbrev RYS_PORT_REPLAY_FULL_SLOT_CNT : Nat := 0x170

/-- RYS_PORTn_REPORT_STALE_CNT: R423. -/
abbrev RYS_PORT_REPORT_STALE_CNT : Nat := 0x178

/-- RYS_PORTn_CTL_UNKNOWN_CNT: R402. -/
abbrev RYS_PORT_CTL_UNKNOWN_CNT : Nat := 0x180

/-- RYS_PORTn_CTL_RETRY_CNT: R429. -/
abbrev RYS_PORT_CTL_RETRY_CNT : Nat := 0x188

/-- RYS_PORTn_SPARE_CNT: R428. -/
abbrev RYS_PORT_SPARE_CNT : Nat := 0x190

/-- RYS_PORTn_DEGRADE_CNT: R431. -/
abbrev RYS_PORT_DEGRADE_CNT : Nat := 0x198

/-- RYS_PORTn_LINK_DOWN_CNT: R434. -/
abbrev RYS_PORT_LINK_DOWN_CNT : Nat := 0x1A0

/-- RYS_PORTn_RESUME_CNT: R436. -/
abbrev RYS_PORT_RESUME_CNT : Nat := 0x1A8

/-- RYS_PORTn_FLUSH_CNT: R437. -/
abbrev RYS_PORT_FLUSH_CNT : Nat := 0x1B0

/-- RYS_PORTn_FLUSH_FLIT_CNT: R437. -/
abbrev RYS_PORT_FLUSH_FLIT_CNT : Nat := 0x1B8

/-- RYS_PORTn_FLUSH_MSG_CNT: R437. -/
abbrev RYS_PORT_FLUSH_MSG_CNT : Nat := 0x1C0

/-- RYS_PORTn_TRAIN_FAIL_CNT: Table 10.5. -/
abbrev RYS_PORT_TRAIN_FAIL_CNT : Nat := 0x1C8

/-- RYS_CLASSn_CREDIT_WAIT_CNT: n = 0 to 3 (R424. -/
abbrev RYS_CLASS_CREDIT_WAIT_CNT : Nat := 0x200

/-- RYS_LANEn_FEC_CORR_SYM_CNT: R397. -/
abbrev RYS_LANE_FEC_CORR_SYM_CNT : Nat := 0x400

/-- RYS_LANEn_FEC_UNCORR_CNT: R397. -/
abbrev RYS_LANE_FEC_UNCORR_CNT : Nat := 0x408

/-- RYS_LANEn_LOCK_LOSS_CNT: R427. -/
abbrev RYS_LANE_LOCK_LOSS_CNT : Nat := 0x410

/-- RYS_LANEn_SYM_LAST_MS: corrected symbols in the last full 1 ms window, a 32-bit gauge in [31:0]. -/
abbrev RYS_LANE_SYM_LAST_MS : Nat := 0x418

/-! Table 11.8 -/

/-- RYS_XPT_CTRL. -/
abbrev RYS_XPT_CTRL : Nat := 0x210001000000

/-- RYS_XPT_ID. -/
abbrev RYS_XPT_ID : Nat := 0x210001000008

/-- RYS_XPT_MSG_TX_CNT: messages originated. -/
abbrev RYS_XPT_MSG_TX_CNT : Nat := 0x210001000100

/-- RYS_XPT_MSG_RX_CNT: messages delivered locally. -/
abbrev RYS_XPT_MSG_RX_CNT : Nat := 0x210001000108

/-- RYS_XPT_FWD_CNT: R450. -/
abbrev RYS_XPT_FWD_CNT : Nat := 0x210001000110

/-- RYS_XPT_HDR_ERR_CNT: R444, R445. -/
abbrev RYS_XPT_HDR_ERR_CNT : Nat := 0x210001000118

/-- RYS_XPT_NO_ROUTE_CNT: R448. -/
abbrev RYS_XPT_NO_ROUTE_CNT : Nat := 0x210001000120

/-- RYS_XPT_HOPLIMIT_DROP_CNT: R449. -/
abbrev RYS_XPT_HOPLIMIT_DROP_CNT : Nat := 0x210001000128

/-- RYS_XPT_EARLY_PUT_CNT: R453. -/
abbrev RYS_XPT_EARLY_PUT_CNT : Nat := 0x210001000130

/-- RYS_XPT_NO_WINDOW_CNT: R453, R454. -/
abbrev RYS_XPT_NO_WINDOW_CNT : Nat := 0x210001000138

/-- RYS_XPT_FLUSHED_CPL_CNT: R456. -/
abbrev RYS_XPT_FLUSHED_CPL_CNT : Nat := 0x210001000140

/-! Table 11.10 -/

/-- FTC_CTRL. -/
abbrev FTC_CTRL : Nat := 0x220000200000

/-- FTC_STATUS. -/
abbrev FTC_STATUS : Nat := 0x220000200008

/-- FTC_NOW: fabric time in ns. -/
abbrev FTC_NOW : Nat := 0x220000200010

/-- FTC_OFFSET: filtered offset from the parent, signed, 2⁻⁸ ns. -/
abbrev FTC_OFFSET : Nat := 0x220000200018

/-- FTC_RACK. -/
abbrev FTC_RACK : Nat := 0x220000200020

/-- FTC_RACK_EPOCH: fabric time of the next RACKREF_SYNC edge (R469. -/
abbrev FTC_RACK_EPOCH : Nat := 0x220000200028

/-- FTC_BAR_WDOG: ns, reset 0x0000_0000_0098_9680 (10 ms. -/
abbrev FTC_BAR_WDOG : Nat := 0x220000200030

/-- FTC_PORTn_ASYM: n = 0 to 15: signed asymmetry a in [31:0], 2⁻⁸ ns; [63:32] reserved; reset 0. -/
abbrev FTC_PORT_ASYM : Nat := 0x220000200040

/-- FTC_PORTn_OFFSET: n = 0 to 15: last sample's offset, signed, 2⁻⁸ ns. -/
abbrev FTC_PORT_OFFSET : Nat := 0x2200002000C0

/-- FTC_SAMPLE_CNT: R459. -/
abbrev FTC_SAMPLE_CNT : Nat := 0x220000200200

/-- FTC_SAMPLE_REJECT_CNT: R460. -/
abbrev FTC_SAMPLE_REJECT_CNT : Nat := 0x220000200208

/-- FTC_HOLDOVER_CNT: Table 11.5. -/
abbrev FTC_HOLDOVER_CNT : Nat := 0x220000200210

/-- FTC_PARENT_SWITCH_CNT: R464. -/
abbrev FTC_PARENT_SWITCH_CNT : Nat := 0x220000200218

/-- FTC_LOOP_CNT: R461. -/
abbrev FTC_LOOP_CNT : Nat := 0x220000200220

/-- FTC_RACK_SYNC_MISS_CNT: R470. -/
abbrev FTC_RACK_SYNC_MISS_CNT : Nat := 0x220000200228

/-- FTC_BAR_LATE_CNT: R477. -/
abbrev FTC_BAR_LATE_CNT : Nat := 0x220000200230

/-- FTC_BAR_STALE_CNT: R478. -/
abbrev FTC_BAR_STALE_CNT : Nat := 0x220000200238

/-- FTC_BAR_TIMEOUT_CNT: R479. -/
abbrev FTC_BAR_TIMEOUT_CNT : Nat := 0x220000200240

/-- FTC_BARn: n = 0 to 255. -/
abbrev FTC_BAR : Nat := 0x220000200400

/-- FTC_BARn_STATE: n = 0 to 255: GEN in [31:16], arrivals in [7:0]. -/
abbrev FTC_BAR_STATE : Nat := 0x220000200C00

/-! Table 12.4 -/

/-- FMN_DET_CTRL. -/
abbrev FMN_DET_CTRL : Nat := 0x240000300000

/-- FMN_DET_STATUS. -/
abbrev FMN_DET_STATUS : Nat := 0x240000300008

/-- FMN_DET_BIR. -/
abbrev FMN_DET_BIR : Nat := 0x240000300010

/-- FMN_DET_MODE_REFUSE_CNT: R483. -/
abbrev FMN_DET_MODE_REFUSE_CNT : Nat := 0x240000300100

/-- FMN_DET_CHUNK_SKIP_CNT: R485. -/
abbrev FMN_DET_CHUNK_SKIP_CNT : Nat := 0x240000300108

/-! Table 13.8 -/

/-- FMN_ERR_CTRL. -/
abbrev FMN_ERR_CTRL : Nat := 0x240000400000

/-- FMN_ERR_FIRST0. -/
abbrev FMN_ERR_FIRST0 : Nat := 0x240000400008

/-- FMN_ERR_FIRST1: fabric time of the captured error. -/
abbrev FMN_ERR_FIRST1 : Nat := 0x240000400010

/-- FMN_ERR_FIRST2: full step number of the running or last step at capture. -/
abbrev FMN_ERR_FIRST2 : Nat := 0x240000400018

/-- FMN_ERR_CLASSn_CNT: n = 1 to 15 (R518. -/
abbrev FMN_ERR_CLASS_CNT : Nat := 0x240000400100

/-- FMN_STEP_RERUN_CNT: R498. -/
abbrev FMN_STEP_RERUN_CNT : Nat := 0x240000400180

/-- FMN_STEP_DROP_CNT: R499. -/
abbrev FMN_STEP_DROP_CNT : Nat := 0x240000400188

/-- FMN_LATE_COMMIT_CNT: R500. -/
abbrev FMN_LATE_COMMIT_CNT : Nat := 0x240000400190

/-- FMN_LEDGER_REBUILD_CNT: R503. -/
abbrev FMN_LEDGER_REBUILD_CNT : Nat := 0x240000400198

/-- FMN_HOST_UE_CNT: R505. -/
abbrev FMN_HOST_UE_CNT : Nat := 0x2400004001A0

/-- FMN_CORE_SPARE_CNT: R508. -/
abbrev FMN_CORE_SPARE_CNT : Nat := 0x2400004001A8

/-- FMN_ROW_REPAIR_CNT: R512. -/
abbrev FMN_ROW_REPAIR_CNT : Nat := 0x2400004001B0

/-- FMN_TRANSITION_LATCH_CNT: R514. -/
abbrev FMN_TRANSITION_LATCH_CNT : Nat := 0x2400004001B8

/-- FMN_TRANSITION_SUPERSEDE_CNT: R514. -/
abbrev FMN_TRANSITION_SUPERSEDE_CNT : Nat := 0x2400004001C0

/-! Table 13.10 -/

/-- CORE_ROW_REPAIR. -/
abbrev CORE_ROW_REPAIR : Nat := 0x700

/-- CORE_ROW_REPAIR_STATUS. -/
abbrev CORE_ROW_REPAIR_STATUS : Nat := 0x708

/-- CLU_SPARE_CMD. -/
abbrev CLU_SPARE_CMD : Nat := 0x700

/-- CLU_SPARE_STATUS. -/
abbrev CLU_SPARE_STATUS : Nat := 0x708

/-- CLU_ROW_REPAIR: layout of CORE_ROW_REPAIR, MEM ignored, BANK 0 to 31, ROW 0 to 4,095. -/
abbrev CLU_ROW_REPAIR : Nat := 0x710

/-- CLU_ROW_REPAIR_STATUS: layout of CORE_ROW_REPAIR_STATUS. -/
abbrev CLU_ROW_REPAIR_STATUS : Nat := 0x718

/-! Table 14.7 -/

/-- FMN_MBn_DOORBELL. -/
abbrev FMN_MB_DOORBELL : Nat := 0x240000004000

/-- FMN_RINGn_DOORBELL. -/
abbrev FMN_RING_DOORBELL : Nat := 0x240000004200

/-- FMN_HOST_IRQ_MB: bit m, mailbox m complete. -/
abbrev FMN_HOST_IRQ_MB : Nat := 0x240000004400

/-- FMN_HOST_IRQ_RING: bit n, ring n advanced. -/
abbrev FMN_HOST_IRQ_RING : Nat := 0x240000004408

/-- FMN_HOST_IRQ_EVT. -/
abbrev FMN_HOST_IRQ_EVT : Nat := 0x240000004410

/-- FMN_HOST_IRQ_MASK. -/
abbrev FMN_HOST_IRQ_MASK : Nat := 0x240000004418

/-- FMN_MB_BUSY: bit m (R523. -/
abbrev FMN_MB_BUSY : Nat := 0x240000004420

/-- FMN_RING_ERR: bit n (R528. -/
abbrev FMN_RING_ERR : Nat := 0x240000004428

/-- FMN_MB_WR_BUSY_CNT: R523. -/
abbrev FMN_MB_WR_BUSY_CNT : Nat := 0x240000004500

/-- FMN_MB_DOORBELL_BUSY_CNT: R524. -/
abbrev FMN_MB_DOORBELL_BUSY_CNT : Nat := 0x240000004508

/-- FMN_RING_ENTRY_CNT: R527. -/
abbrev FMN_RING_ENTRY_CNT : Nat := 0x240000004510

/-- FMN_RING_ERR_CNT: R528. -/
abbrev FMN_RING_ERR_CNT : Nat := 0x240000004518

/-- FMN_RING_FULL_SKIP_CNT: R325. -/
abbrev FMN_RING_FULL_SKIP_CNT : Nat := 0x240000004520

/-- FMN_SLICE_SKIP_CNT: R348, R538. -/
abbrev FMN_SLICE_SKIP_CNT : Nat := 0x240000004528

/-- FMN_STAGING_VIOL_CNT: R535. -/
abbrev FMN_STAGING_VIOL_CNT : Nat := 0x240000004530

/-- FMN_HOST_ACCESS_ERR_CNT: R520. -/
abbrev FMN_HOST_ACCESS_ERR_CNT : Nat := 0x240000004538

/-! Table 15.9 -/

/-- HDF_STATUS. -/
abbrev HDF_STATUS : Nat := 0x250000100000

/-- HDF_BOOT_CNT: boots since manufacture, kept in flash. -/
abbrev HDF_BOOT_CNT : Nat := 0x250000100008

/-- HDF_LOG_SEQ: SEQ of the latest record written. -/
abbrev HDF_LOG_SEQ : Nat := 0x250000100010

/-- HDF_LOCKED_WRITE_CNT: R11. -/
abbrev HDF_LOCKED_WRITE_CNT : Nat := 0x250000100100

/-- HDF_LOG_DROP_CNT: R565. -/
abbrev HDF_LOG_DROP_CNT : Nat := 0x250000100108

/-- HDF_LOG_WRAP_CNT: R563. -/
abbrev HDF_LOG_WRAP_CNT : Nat := 0x250000100110

/-- HDF_FLASH_WAIT_CNT: R550. -/
abbrev HDF_FLASH_WAIT_CNT : Nat := 0x250000100118

/-- HDF_FLASH_ERR_CNT: R550. -/
abbrev HDF_FLASH_ERR_CNT : Nat := 0x250000100120

/-- HDF_UPDATE_FAIL_CNT: R557. -/
abbrev HDF_UPDATE_FAIL_CNT : Nat := 0x250000100128

/-- HDF_TRIAL_REVERT_CNT: R558. -/
abbrev HDF_TRIAL_REVERT_CNT : Nat := 0x250000100130

/-- HDF_BOOT_FAIL_CNT: R556. -/
abbrev HDF_BOOT_FAIL_CNT : Nat := 0x250000100138

/-- HDF_SENS_FAIL_CNT: R566. -/
abbrev HDF_SENS_FAIL_CNT : Nat := 0x250000100140

/-- MGT_RX_EARLY_DROP_CNT: R547. -/
abbrev MGT_RX_EARLY_DROP_CNT : Nat := 0x250000100148

/-- HDF_CS_ACCESS_ERR_CNT: control-space accesses of a width or alignment that R12 does not allow. -/
abbrev HDF_CS_ACCESS_ERR_CNT : Nat := 0x250000100150

/-! Table 16.6 -/

/-- CLK_CTRL. -/
abbrev CLK_CTRL : Nat := 0x220000000000

/-- CLK_STATUS. -/
abbrev CLK_STATUS : Nat := 0x220000000008

/-- CLK_REFMUX. -/
abbrev CLK_REFMUX : Nat := 0x220000000010

/-- CLK_SSC. -/
abbrev CLK_SSC : Nat := 0x220000000018

/-- CLK_GATE_DIS: bit n disables gating in region n, n = 0 to 14. -/
abbrev CLK_GATE_DIS : Nat := 0x220000000020

/-- CLK_REF_LOSS_CNT: R584. -/
abbrev CLK_REF_LOSS_CNT : Nat := 0x220000000100

/-- CLK_HOLDOVER_NS_CNT: R585. -/
abbrev CLK_HOLDOVER_NS_CNT : Nat := 0x220000000108

/-- CLK_FORCED_SWITCH_CNT: R583. -/
abbrev CLK_FORCED_SWITCH_CNT : Nat := 0x220000000110

/-- CLK_REFMUX_REJECT_CNT: R583. -/
abbrev CLK_REFMUX_REJECT_CNT : Nat := 0x220000000118

/-- CLK_STEP_CHANGE_CNT: R578. -/
abbrev CLK_STEP_CHANGE_CNT : Nat := 0x220000000120

/-- CLK_STEP_DEFER_CNT: R579. -/
abbrev CLK_STEP_DEFER_CNT : Nat := 0x220000000128

/-- CLK_PLL_UNLOCK_CNT: R575. -/
abbrev CLK_PLL_UNLOCK_CNT : Nat := 0x220000000130

/-- CLK_REGIONn_STRETCH_CNT: n = 0 to 14 (R40, R590. -/
abbrev CLK_REGION_STRETCH_CNT : Nat := 0x220000000200

/-- CLK_REGIONn_STATUS: n = 0 to 14. -/
abbrev CLK_REGION_STATUS : Nat := 0x220000000300

/-! Table 16.9 -/

/-- PWR_CAP. -/
abbrev PWR_CAP : Nat := 0x220000300000

/-- PWR_THERM. -/
abbrev PWR_THERM : Nat := 0x220000300008

/-- PWR_STATUS. -/
abbrev PWR_STATUS : Nat := 0x220000300010

/-- PWR_OPTn: n = 0 to 15. -/
abbrev PWR_OPT : Nat := 0x220000300100

/-- PWR_THROTTLE_CNT: R592. -/
abbrev PWR_THROTTLE_CNT : Nat := 0x220000300200

/-- PWR_THERM_HOLD_CNT: R593. -/
abbrev PWR_THERM_HOLD_CNT : Nat := 0x220000300208

/-- PWR_THERM_HOLD_NS_CNT: R593. -/
abbrev PWR_THERM_HOLD_NS_CNT : Nat := 0x220000300210

/-- PWR_CAP_STEP_CNT: R596. -/
abbrev PWR_CAP_STEP_CNT : Nat := 0x220000300218

/-- PWR_IN_UV_CNT: R570. -/
abbrev PWR_IN_UV_CNT : Nat := 0x220000300220

/-- PWR_DROOP_STEPDOWN_CNT: R591. -/
abbrev PWR_DROOP_STEPDOWN_CNT : Nat := 0x220000300228

/-! Table 11.9 -/

/-- RYS_ROUTEn: routing table. -/
abbrev RYS_ROUTE : Nat := 0x210001100000

/-! Table 15.10 -/

/-- HDF_SENSn: sensor readings. -/
abbrev HDF_SENS : Nat := 0x250000000000

/-! chapter 17 -/

/-- HDF_WB_DEMAND: demand pulse. -/
abbrev HDF_WB_DEMAND : Nat := 0x250000100200

/-- Register rows, part 1. -/
def coreRegs1 : List RegRow := [
  { off := CORE_CTRL, rw := 0x3 },
  { off := CORE_STATUS },
  { off := CORE_SCHED_FAULT, w1c := 0x8000000000000000 },
  { off := CORE_FAULT_CMD, count := 4 },
  { off := CORE_FENCE_WDOG, reset := 0x1312D00, rw := 0xFFFFFFFFFFFFFFFF },
  { off := CORE_PRED, reset := 0x1 },
  { off := CORE_ENG_ISSUE_CNT, count := 4, rc := true },
  { off := CORE_PRED_SKIP_CNT, rc := true },
  { off := CORE_SB_STALL_CYCLE_CNT, rc := true },
  { off := CORE_SB_FULL_CYCLE_CNT, rc := true },
  { off := CORE_ELASTIC_WAIT_CYCLE_CNT, rc := true },
  { off := CORE_FENCE_WAIT_CYCLE_CNT, rc := true },
  { off := CORE_SCHED_FAULT_CNT, rc := true },
  { off := CORE_PARAM_WR_DROP_CNT, rc := true },
  { off := CORE_ACC_MODE, rw := 0x1 },
  { off := CORE_PAD, rw := 0xFFFFFFFF },
  { off := CORE_MXE_STATUS },
  { off := CORE_MXE_PLANE_WAIT_CYCLE_CNT, rc := true },
  { off := CORE_MXE_DRAIN_SAT_CNT, rc := true },
  { off := CORE_MXE_NAN_CNT, rc := true },
  { off := CORE_MXE_STERLING_RANGE_CNT, rc := true },
  { off := CORE_MXE_STERLING_ROUND_CNT, rc := true },
  { off := CORE_DSCALE, count := 32, reset := 0x3F8000003F800000 },
  { off := CORE_SML_STATUS }]

/-- Register rows, part 2. -/
def coreRegs2 : List RegRow := [
  { off := CORE_SML_DESC_VALID },
  { off := CORE_SML_TABLE_REV },
  { off := CORE_SML_NAN_CNT, rc := true },
  { off := CORE_SML_QUANT_SAT_CNT, rc := true },
  { off := CORE_SML_SAMPLE_FAIL_CNT, rc := true },
  { off := CORE_SML_MERGE_EMPTY_CNT, rc := true },
  { off := CORE_SML_STERLING_ROUND_CNT, rc := true },
  { off := CORE_SML_INDEX_OOB_CNT, rc := true },
  { off := CORE_SML_SCATTER_COLLIDE_CNT, rc := true },
  { off := CORE_ECC_INJECT, rw := 0xFC1 },
  { off := CORE_ECC_CE_CAP0, reset := 0xFFFF00000000, w1c := 0x8000000000000000 },
  { off := CORE_ECC_CE_CAP1 },
  { off := CORE_ECC_UE_CAP0, reset := 0xFFFF00000000, w1c := 0x8000000000000000 },
  { off := CORE_ECC_UE_CAP1 },
  { off := CORE_VIOL_CAP0, w1c := 0x8000000000000000 },
  { off := CORE_VIOL_CAP1 },
  { off := CORE_VIOL_CNT, rc := true },
  { off := CORE_MEM_CE_CNT, count := 7, rc := true },
  { off := CORE_MEM_UE_CNT, count := 7, rc := true },
  { off := CORE_BANK_COLLIDE_CNT, rc := true },
  { off := CORE_SCRUB_COLLIDE_CNT, rc := true },
  { off := CORE_CC_BANK_WAIT_CYCLE_CNT, rc := true },
  { off := CORE_ELASTIC_BANK_WAIT_CYCLE_CNT, rc := true },
  { off := CORE_ECC_WB_DROP_CNT, rc := true }]

/-- Register rows, part 3. -/
def coreRegs3 : List RegRow := [
  { off := CORE_LODE_SCRUB_PASS_CNT, rc := true },
  { off := CORE_SCR_SCRUB_PASS_CNT, rc := true },
  { off := CORE_OPC_SCRUB_PASS_CNT, rc := true },
  { off := CORE_LODE_SLOT_WR_CNT, rc := true },
  { off := CORE_CS_DEFER_CNT, rc := true },
  { off := CORE_ROW_REPAIR, rw := 0xF1F0FFF },
  { off := CORE_ROW_REPAIR_STATUS }]

/-- The register rows of the core block. -/
def coreRegs : List RegRow := coreRegs1 ++ coreRegs2 ++ coreRegs3

/-- Register rows, part 1. -/
def clusterRegs1 : List RegRow := [
  { off := CLU_STOPE_CE_CAP0, reset := 0xFFFF00000000, w1c := 0x8000000000000000 },
  { off := CLU_STOPE_CE_CAP1 },
  { off := CLU_STOPE_UE_CAP0, reset := 0xFFFF00000000, w1c := 0x8000000000000000 },
  { off := CLU_STOPE_UE_CAP1 },
  { off := CLU_STOPE_CE_CNT, rc := true },
  { off := CLU_STOPE_UE_CNT, rc := true },
  { off := CLU_STOPE_COLLIDE_CNT, rc := true },
  { off := CLU_STOPE_ELASTIC_WAIT_CYCLE_CNT, rc := true },
  { off := CLU_STOPE_SCRUB_PASS_CNT, rc := true },
  { off := CLU_STOPE_ECC_INJECT, rw := 0xFC1 },
  { off := CLU_STOPE_WB_DROP_CNT, rc := true },
  { off := SHAFT_LINK_COLLIDE_CNT, rc := true },
  { off := SHAFT_ELASTIC_WAIT_CYCLE_CNT, rc := true },
  { off := SHAFT_EJECT_FULL_CNT, rc := true },
  { off := SHAFT_ROUTER_SEL, rw := 0x1 },
  { off := CLU_SLIP_CYCLE_CNT, rc := true },
  { off := CLU_LATE_LAND_CNT, rc := true },
  { off := CLU_VCORE_MAP, rw := 0xFFFFFFFFFFFFFFF },
  { off := CLU_VCORE_MAP_HI, rw := 0xFFFFF },
  { off := CLU_SPARE_CMD, rw := 0x31F },
  { off := CLU_SPARE_STATUS },
  { off := CLU_ROW_REPAIR, rw := 0xF1F0FFF },
  { off := CLU_ROW_REPAIR_STATUS }]

/-- The register rows of the clu block. -/
def clusterRegs : List RegRow := clusterRegs1

/-- Register rows, part 1. -/
def seamRegs1 : List RegRow := [
  { off := SEAM_CTRL, reset := 0x3E800000004, rw := 0xFFFFFFFF000000FF },
  { off := SEAM_STATUS },
  { off := SEAM_REGION, reset := 0x1000400, rw := 0xFFFFFFFF },
  { off := SEAM_FREE_LOW, rw := 0x1FFFFF },
  { off := SEAM_CH_CMD, rw := 0x31F },
  { off := SEAM_CH_STATE, reset := 0x7D00000000 },
  { off := SEAM_UE_CAP0, w1c := 0x8000000000000000 },
  { off := SEAM_UE_CAP1 },
  { off := SEAM_APPEND_TOKEN_CNT, rc := true },
  { off := SEAM_APPEND_SAT_CNT, rc := true },
  { off := SEAM_APPEND_ROUND_CNT, rc := true },
  { off := SEAM_APPEND_BELOW_CNT, rc := true },
  { off := SEAM_ALLOC_FAIL_CNT, rc := true },
  { off := SEAM_TAILINGS_PAGE_CNT, rc := true },
  { off := SEAM_ATTEND_ENTRY_CNT, rc := true },
  { off := SEAM_STREAM_BYTE_CNT, rc := true },
  { off := SEAM_REQ_QUEUE_FULL_CYCLE_CNT, rc := true },
  { off := SEAM_PARK_PAGE_CNT, rc := true },
  { off := SEAM_RESUME_ROUND_CNT, rc := true },
  { off := SEAM_EXPIRE_PAGE_CNT, rc := true },
  { off := SEAM_PAGE_REMAP_CNT, rc := true },
  { off := SEAM_PAGE_WITHDRAWN_CNT, rc := true },
  { off := SEAM_VIOL_CNT, rc := true },
  { off := SEAM_PATROL_PASS_CNT, rc := true }]

/-- Register rows, part 2. -/
def seamRegs2 : List RegRow := [
  { off := SEAM_GEOM_ERR_CNT, rc := true },
  { off := SEAM_CLASS_WAIT_CYCLE_CNT, count := 8, rc := true },
  { off := SEAM_CH_CE_CNT, count := 17, stride := 0x40, rc := true },
  { off := SEAM_CH_UE_CNT, count := 17, stride := 0x40, rc := true },
  { off := SEAM_CH_REFRESH_DELAY_CNT, count := 17, stride := 0x40, rc := true }]

/-- The register rows of the seam block. -/
def seamRegs : List RegRow := seamRegs1 ++ seamRegs2

/-- Register rows, part 1. -/
def portRegs1 : List RegRow := [
  { off := RYS_PORT_CTRL, reset := 0x4, rw := 0x7 },
  { off := RYS_PORT_STATUS },
  { off := RYS_PORT_GRACE, reset := 0x7D0, rw := 0x7FFFF },
  { off := RYS_PORT_RESERVE, reset := 0x10101010, rw := 0xFFFFFFFF },
  { off := RYS_PORT_WRR, reset := 0x13C, rw := 0xFFF },
  { off := RYS_PORT_LANE_THRESH, reset := 0x100000109A, rw := 0xFFFFFFFFFFFF },
  { off := RYS_PORT_LANE_CMD, rw := 0x31F },
  { off := RYS_PORT_LANE_STATE },
  { off := RYS_PORT_PARTNER },
  { off := RYS_PORT_RTT_NS },
  { off := RYS_PORT_FLIT_TX_CNT, rc := true },
  { off := RYS_PORT_FLIT_RX_CNT, rc := true },
  { off := RYS_PORT_CTL_FLIT_TX_CNT, rc := true },
  { off := RYS_PORT_CRC_ERR_CNT, rc := true },
  { off := RYS_PORT_DUP_DISCARD_CNT, rc := true },
  { off := RYS_PORT_OOS_DISCARD_CNT, rc := true },
  { off := RYS_PORT_POOL_OVERRUN_CNT, rc := true },
  { off := RYS_PORT_UNADMITTED_DROP_CNT, rc := true },
  { off := RYS_PORT_NACK_TX_CNT, rc := true },
  { off := RYS_PORT_NACK_REPEAT_CNT, rc := true },
  { off := RYS_PORT_NACK_RX_CNT, rc := true },
  { off := RYS_PORT_NACK_IGNORED_CNT, rc := true },
  { off := RYS_PORT_REPLAY_TIMEOUT_CNT, rc := true },
  { off := RYS_PORT_REPLAY_FLIT_CNT, rc := true }]

/-- Register rows, part 2. -/
def portRegs2 : List RegRow := [
  { off := RYS_PORT_REPLAY_FULL_SLOT_CNT, rc := true },
  { off := RYS_PORT_REPORT_STALE_CNT, rc := true },
  { off := RYS_PORT_CTL_UNKNOWN_CNT, rc := true },
  { off := RYS_PORT_CTL_RETRY_CNT, rc := true },
  { off := RYS_PORT_SPARE_CNT, rc := true },
  { off := RYS_PORT_DEGRADE_CNT, rc := true },
  { off := RYS_PORT_LINK_DOWN_CNT, rc := true },
  { off := RYS_PORT_RESUME_CNT, rc := true },
  { off := RYS_PORT_FLUSH_CNT, rc := true },
  { off := RYS_PORT_FLUSH_FLIT_CNT, rc := true },
  { off := RYS_PORT_FLUSH_MSG_CNT, rc := true },
  { off := RYS_PORT_TRAIN_FAIL_CNT, rc := true },
  { off := RYS_CLASS_CREDIT_WAIT_CNT, count := 4, rc := true },
  { off := RYS_LANE_FEC_CORR_SYM_CNT, count := 9, stride := 0x40, rc := true },
  { off := RYS_LANE_FEC_UNCORR_CNT, count := 9, stride := 0x40, rc := true },
  { off := RYS_LANE_LOCK_LOSS_CNT, count := 9, stride := 0x40, rc := true },
  { off := RYS_LANE_SYM_LAST_MS, count := 9, stride := 0x40 }]

/-- The register rows of the port block. -/
def portRegs : List RegRow := portRegs1 ++ portRegs2

/-- Register rows, part 1. -/
def globalRegs1 : List RegRow := [
  { off := SHAFT_XING_CAL },
  { off := SHAFT_XING_MEAS },
  { off := SHAFT_GRID_SIG },
  { off := SHAFT_CAL_STATUS },
  { off := SHAFT_FENCE_STRAY_CNT, rc := true },
  { off := FMN_SEQ_STATUS },
  { off := FMN_SEQ_WDOG, reset := 0x1312D00, rw := 0xFFFFFFFFFFFFFFFF },
  { off := FMN_SEQ_BUDGET_OVR_CNT, rc := true },
  { off := FMN_SEQ_BUDGET_OVR_CAP, w1c := 0x8000000000000000 },
  { off := FMN_SEQ_LAST_STEP_CYCLES },
  { off := TALLY_SHIP_CTRL, reset := 0x400050032, rw := 0xFFFFFFFF },
  { off := TALLY_STATUS },
  { off := TALLY_STATE_CNT, count := 12 },
  { off := TALLY_EXPIRED_CNT, rc := true },
  { off := TALLY_CE_CNT, rc := true },
  { off := TALLY_UE_CNT, rc := true },
  { off := TALLY_FW_WR_DEFER_CNT, rc := true },
  { off := TALLY_SHIP_PAGE_TX_CNT, rc := true },
  { off := TALLY_SHIP_PAGE_RX_CNT, rc := true },
  { off := TALLY_SHIP_CRC_ERR_CNT, rc := true },
  { off := TALLY_SHIP_REREQ_CNT, rc := true },
  { off := TALLY_SHIP_DUP_CNT, rc := true },
  { off := TALLY_SHIP_INCOMPLETE_CNT, rc := true },
  { off := TALLY_SHIP_HOLD_EXPIRE_CNT, rc := true }]

/-- Register rows, part 2. -/
def globalRegs2 : List RegRow := [
  { off := CMT_CTRL, rw := 0x1 },
  { off := CMT_STATUS },
  { off := CMT_OUTRING_BASE, rw := 0x1FFFFFFFFF },
  { off := CMT_OUTCONS_BASE, rw := 0x1FFFFFFFFF },
  { off := CMT_LAST_STEP },
  { off := CMT_GROUP_WDOG, reset := 0x989680, rw := 0xFFFFFFFFFFFFFFFF },
  { off := CMT_FAULT_CAP, w1c := 0x8000000000000000 },
  { off := CMT_STEP_COMMIT_CNT, rc := true },
  { off := CMT_STEP_REPLAY_CNT, rc := true },
  { off := CMT_STEP_FAULT_CNT, rc := true },
  { off := CMT_TOKEN_CNT, rc := true },
  { off := CMT_DRAFT_ACCEPT_CNT, rc := true },
  { off := CMT_DRAFT_REJECT_CNT, rc := true },
  { off := CMT_DEADLINE_PASSED_CNT, rc := true },
  { off := CMT_RING_OVERRUN_CNT, rc := true },
  { off := CMT_EVENT_DEFER_CNT, rc := true },
  { off := CMT_RESULT_INVALID_CNT, rc := true },
  { off := CMT_START_HOLD_CNT, rc := true },
  { off := CMT_STALE_PUT_CNT, rc := true },
  { off := CMT_GROUP_ABORT_CNT, rc := true },
  { off := FMN_WT_CTRL, reset := 0x1F4802580000001, rw := 0xFFFFFFFFF000001D },
  { off := FMN_WT_STATUS, reset := 0xFFFFFFFFFFFF0000 },
  { off := FMN_ASSAY_CTRL, reset := 0x25800000001, rw := 0xFFFFFFFF00000001 },
  { off := FMN_ASSAY_CAP0, w1c := 0x8000000000000000 }]

/-- Register rows, part 3. -/
def globalRegs3 : List RegRow := [
  { off := FMN_ASSAY_CAP1 },
  { off := FMN_WT_SHARD_RX_CNT, rc := true },
  { off := FMN_WT_DIGEST_ERR_CNT, rc := true },
  { off := FMN_WT_UNMATCHED_CNT, rc := true },
  { off := FMN_WT_DUP_CNT, rc := true },
  { off := FMN_WT_REQ_CNT, rc := true },
  { off := FMN_WT_REFETCH_CNT, rc := true },
  { off := FMN_WT_TIMEOUT_CNT, rc := true },
  { off := FMN_WT_SHARD_LOST_CNT, rc := true },
  { off := FMN_WT_SHARD_TX_CNT, rc := true },
  { off := FMN_WT_NOT_HELD_CNT, rc := true },
  { off := FMN_WT_EVICT_CNT, rc := true },
  { off := FMN_WT_REPAIR_CNT, rc := true },
  { off := FMN_WT_FLIP_LATE_CNT, rc := true },
  { off := FMN_EPOCH_FLIP_CNT, rc := true },
  { off := FMN_EPOCH_POLICY_CNT, count := 3, rc := true },
  { off := FMN_ASSAY_UNIT_CNT, rc := true },
  { off := FMN_ASSAY_PASS_CNT, rc := true },
  { off := FMN_ASSAY_MISMATCH_CNT, rc := true },
  { off := RYS_XPT_CTRL, reset := 0x271000000010, rw := 0xFFFFFFFF000000FF },
  { off := RYS_XPT_ID, rw := 0xFFFFFFFF, w1s := 0x8000000000000000 },
  { off := RYS_XPT_MSG_TX_CNT, rc := true },
  { off := RYS_XPT_MSG_RX_CNT, rc := true },
  { off := RYS_XPT_FWD_CNT, rc := true }]

/-- Register rows, part 4. -/
def globalRegs4 : List RegRow := [
  { off := RYS_XPT_HDR_ERR_CNT, rc := true },
  { off := RYS_XPT_NO_ROUTE_CNT, rc := true },
  { off := RYS_XPT_HOPLIMIT_DROP_CNT, rc := true },
  { off := RYS_XPT_EARLY_PUT_CNT, rc := true },
  { off := RYS_XPT_NO_WINDOW_CNT, rc := true },
  { off := RYS_XPT_FLUSHED_CPL_CNT, rc := true },
  { off := FTC_CTRL, rw := 0xFFF1 },
  { off := FTC_STATUS, reset := 0xFF00 },
  { off := FTC_NOW },
  { off := FTC_OFFSET },
  { off := FTC_RACK, reset := 0x3E80000, rw := 0xFFFFFFFF },
  { off := FTC_RACK_EPOCH, rw := 0xFFFFFFFFFFFFFFFF },
  { off := FTC_BAR_WDOG, reset := 0x989680, rw := 0xFFFFFFFFFFFFFFFF },
  { off := FTC_PORT_ASYM, count := 16, rw := 0xFFFFFFFF },
  { off := FTC_PORT_OFFSET, count := 16 },
  { off := FTC_SAMPLE_CNT, rc := true },
  { off := FTC_SAMPLE_REJECT_CNT, rc := true },
  { off := FTC_HOLDOVER_CNT, rc := true },
  { off := FTC_PARENT_SWITCH_CNT, rc := true },
  { off := FTC_LOOP_CNT, rc := true },
  { off := FTC_RACK_SYNC_MISS_CNT, rc := true },
  { off := FTC_BAR_LATE_CNT, rc := true },
  { off := FTC_BAR_STALE_CNT, rc := true },
  { off := FTC_BAR_TIMEOUT_CNT, rc := true }]

/-- Register rows, part 5. -/
def globalRegs5 : List RegRow := [
  { off := FTC_BAR, count := 256, rw := 0xFCFFFF00FFFFFFFF },
  { off := FTC_BAR_STATE, count := 256 },
  { off := FMN_DET_CTRL, reset := 0x400, rw := 0x3FFF },
  { off := FMN_DET_STATUS },
  { off := FMN_DET_BIR, reset := 0x1 },
  { off := FMN_DET_MODE_REFUSE_CNT, rc := true },
  { off := FMN_DET_CHUNK_SKIP_CNT, rc := true },
  { off := FMN_ERR_CTRL, reset := 0x1, rw := 0x1 },
  { off := FMN_ERR_FIRST0, w1c := 0x8000000000000000 },
  { off := FMN_ERR_FIRST1 },
  { off := FMN_ERR_FIRST2 },
  { off := FMN_ERR_CLASS_CNT, count := 16, rc := true },
  { off := FMN_STEP_RERUN_CNT, rc := true },
  { off := FMN_STEP_DROP_CNT, rc := true },
  { off := FMN_LATE_COMMIT_CNT, rc := true },
  { off := FMN_LEDGER_REBUILD_CNT, rc := true },
  { off := FMN_HOST_UE_CNT, rc := true },
  { off := FMN_CORE_SPARE_CNT, rc := true },
  { off := FMN_ROW_REPAIR_CNT, rc := true },
  { off := FMN_TRANSITION_LATCH_CNT, rc := true },
  { off := FMN_TRANSITION_SUPERSEDE_CNT, rc := true },
  { off := FMN_MB_DOORBELL, count := 64 },
  { off := FMN_RING_DOORBELL, count := 64 },
  { off := FMN_HOST_IRQ_MB, w1c := 0xFFFFFFFFFFFFFFFF }]

/-- Register rows, part 6. -/
def globalRegs6 : List RegRow := [
  { off := FMN_HOST_IRQ_RING, w1c := 0xFFFFFFFFFFFFFFFF },
  { off := FMN_HOST_IRQ_EVT, w1c := 0x1F },
  { off := FMN_HOST_IRQ_MASK, rw := 0x7 },
  { off := FMN_MB_BUSY },
  { off := FMN_RING_ERR, w1c := 0xFFFFFFFFFFFFFFFF },
  { off := FMN_MB_WR_BUSY_CNT, rc := true },
  { off := FMN_MB_DOORBELL_BUSY_CNT, rc := true },
  { off := FMN_RING_ENTRY_CNT, rc := true },
  { off := FMN_RING_ERR_CNT, rc := true },
  { off := FMN_RING_FULL_SKIP_CNT, rc := true },
  { off := FMN_SLICE_SKIP_CNT, rc := true },
  { off := FMN_STAGING_VIOL_CNT, rc := true },
  { off := FMN_HOST_ACCESS_ERR_CNT, rc := true },
  { off := HDF_STATUS },
  { off := HDF_BOOT_CNT },
  { off := HDF_LOG_SEQ },
  { off := HDF_LOCKED_WRITE_CNT, rc := true },
  { off := HDF_LOG_DROP_CNT, rc := true },
  { off := HDF_LOG_WRAP_CNT, rc := true },
  { off := HDF_FLASH_WAIT_CNT, rc := true },
  { off := HDF_FLASH_ERR_CNT, rc := true },
  { off := HDF_UPDATE_FAIL_CNT, rc := true },
  { off := HDF_TRIAL_REVERT_CNT, rc := true },
  { off := HDF_BOOT_FAIL_CNT, rc := true }]

/-- Register rows, part 7. -/
def globalRegs7 : List RegRow := [
  { off := HDF_SENS_FAIL_CNT, rc := true },
  { off := MGT_RX_EARLY_DROP_CNT, rc := true },
  { off := HDF_CS_ACCESS_ERR_CNT, rc := true },
  { off := CLK_CTRL, reset := 0x401E00, rw := 0xFF3F07 },
  { off := CLK_STATUS, w1c := 0x2 },
  { off := CLK_REFMUX, rw := 0x3 },
  { off := CLK_SSC, reset := 0x1E00, rw := 0xFFF3 },
  { off := CLK_GATE_DIS, rw := 0x7FFF },
  { off := CLK_REF_LOSS_CNT, rc := true },
  { off := CLK_HOLDOVER_NS_CNT, rc := true },
  { off := CLK_FORCED_SWITCH_CNT, rc := true },
  { off := CLK_REFMUX_REJECT_CNT, rc := true },
  { off := CLK_STEP_CHANGE_CNT, rc := true },
  { off := CLK_STEP_DEFER_CNT, rc := true },
  { off := CLK_PLL_UNLOCK_CNT, rc := true },
  { off := CLK_REGION_STRETCH_CNT, count := 15, rc := true },
  { off := CLK_REGION_STATUS, count := 15, reset := 0x1 },
  { off := PWR_CAP, reset := 0x64, rw := 0xFFFFFFFF },
  { off := PWR_THERM, reset := 0xFA0007305695F00, rw := 0xFFFF0000FFFFFF00 },
  { off := PWR_STATUS },
  { off := PWR_OPT, count := 16 },
  { off := PWR_THROTTLE_CNT, rc := true },
  { off := PWR_THERM_HOLD_CNT, rc := true },
  { off := PWR_THERM_HOLD_NS_CNT, rc := true }]

/-- Register rows, part 8. -/
def globalRegs8 : List RegRow := [
  { off := PWR_CAP_STEP_CNT, rc := true },
  { off := PWR_IN_UV_CNT, rc := true },
  { off := PWR_DROOP_STEPDOWN_CNT, rc := true },
  { off := RYS_ROUTE, count := 65536, rw := 0x8003FFFF },
  { off := HDF_SENS, count := 800, reset := 0xC000000000000000 },
  { off := HDF_WB_DEMAND }]

/-- The register rows of the abs block. -/
def globalRegs : List RegRow := globalRegs1 ++ globalRegs2 ++ globalRegs3 ++ globalRegs4 ++ globalRegs5 ++ globalRegs6 ++ globalRegs7 ++ globalRegs8


end Sys2Proof.Machine
end

