-- ==== Sys2Proof/Machine/Ops.lean ====
section
/-! DEFINITION. The named operations every command is written with: registers, counters, memories, errors, the event
log, and the ways a command's effect is lifted to the whole state. -/
namespace Sys2Proof.Machine

/-- What a command works on: everything but the queue and the Weighbridge, with the memory in canonical form. -/
structure M where
  die : Die
  mem : CMem

/-! ## Addresses (Tables 0.3 and 5.1) -/

/-- The window of a core: `c` is 17 × site + physical core. -/
def coreBase (c : Nat) : Nat := c / 17 * 0x200000000 + c % 17 * 0x10000000

/-- A register of a core. -/
def coreReg (c off : Nat) : Nat := coreBase c + 0xF000000 + off

/-- A register of a cluster site: core slot 17 (R196). -/
def cluReg (site off : Nat) : Nat := site * 0x200000000 + 0x11F000000 + off

/-- A register of a Seam controller. -/
def seamReg (stack off : Nat) : Nat := 0x200000000000 + stack * 0x1000000 + off

/-- A register of a Rysia port. -/
def portReg (port off : Nat) : Nat := 0x210000000000 + port * 0x100000 + off

/-- State memory of a stack. -/
def stackBase (stack : Nat) : Nat := 0x400000000000 + stack * 0x2000000000

/-! ## Registers -/

/-- The row whose register stands at an offset. -/
def findRow (rows : List RegRow) (off : Nat) : Option RegRow :=
  rows.find? fun r => decide (r.off ≤ off) && decide (off < r.off + r.count * r.stride) && (off - r.off) % r.stride == 0

/-- The register row at a control-space address, if a table assigns one (R8). -/
def regRow (a : Nat) : Option RegRow :=
  if a < 0x11000000000 then
    let slot := a / 0x10000000 % 32
    let off := a % 0x10000000
    if off < 0xF000000 then none
    else if slot < 17 then findRow coreRegs (off - 0xF000000)
    else if slot = 17 then findRow clusterRegs (off - 0xF000000)
    else none
  else if 0x200000000000 ≤ a ∧ a < 0x200020000000 then findRow seamRegs ((a - 0x200000000000) % 0x1000000)
  else if 0x210000000000 ≤ a ∧ a < 0x210001000000 then findRow portRegs ((a - 0x210000000000) % 0x100000)
  else findRow globalRegs a

/-- SHAFT_XING_CAL from the calibration (R239, R240, Table 6.11). -/
def xingCal : Nat :=
  let cls := sumBy (List.range 8) fun x => bit (Config.slowCrossing x) * 2 ^ x
  cls * 2 ^ 40 + Config.fenceLatency * 2 ^ 32 +
    sumBy (List.range 7) (fun x => Config.crossingLatency x * 2 ^ (4 * x))

/-- The calibration class byte (R240). -/
def calClass : Nat := bits xingCal 47 40

/-- FMN_DET_BIR (Table 12.5). -/
def bitIdentity : Nat :=
  Config.recordedCalClass.toNat * 2 ^ 48 + Config.recordedTableRev.toNat * 2 ^ 32 +
    (if Config.gradeB then 0x0B else 0x0A) * 2 ^ 24 + (if Config.steppingA1 then 0xA1 else 0xB0) * 2 ^ 16 + 1

/-- Reset values that depend on the part: per grade, per stepping, per calibration, per record. -/
def specialReset (a : Nat) : Option Nat :=
  if a < 0x11000000000 then
    let slot := a / 0x10000000 % 32
    let off := a % 0x10000000 - 0xF000000
    if a % 0x10000000 < 0xF000000 then none
    else if slot < 17 then if off = CORE_SML_TABLE_REV then some Config.tableRev.toNat else none
    else if off = CLU_SPARE_STATUS then some ((Config.spareCore (a / 0x200000000)).val * 16) else none
  else if a = CLK_CTRL then some (0x401E00 + Config.topStep)
  else if a = CLK_STATUS then some (Config.topStep * 0x24920000)
  else if CLK_REGION_STATUS ≤ a ∧ a < CLK_REGION_STATUS + 64 then some (Config.topStep * 256 + 1)
  else if a = SHAFT_XING_CAL then some xingCal
  else if SHAFT_XING_MEAS = a then
    some (sumBy (List.range 7) fun x => (Config.crossingMeasure x).toNat * 2 ^ (8 * x))
  else if a = SHAFT_GRID_SIG then some Config.gridSig.toNat
  else if a = SHAFT_CAL_STATUS then
    some (match Config.calibrationFail with | none => 1 | some p => p * 256 + 3)
  else if a = FMN_DET_BIR then some bitIdentity
  else none

/-- What an unwritten register reads as: its reset value, zero where no table assigns the address (R8). -/
def regReset (a : Nat) : Word :=
  match specialReset a with
  | some v => BitVec.ofNat 64 v
  | none => match regRow a with
    | some r => BitVec.ofNat 64 r.reset
    | none => 0

/-- A register's value. -/
def M.reg (m : M) (a : Nat) : Word := mapGetD m.die.regs a (regReset a)

/-- A register written whole by the module. -/
def M.setReg (m : M) (a : Nat) (w : Word) : M := { m with die.regs := mapSet m.die.regs a w }

/-- A register's value as a number. -/
def M.regN (m : M) (a : Nat) : Nat := (m.reg a).toNat

/-- A field of a register. -/
def M.fld (m : M) (a hi lo : Nat) : Nat := Machine.fld (m.reg a) hi lo

/-- A bit of a register. -/
def M.flag (m : M) (a i : Nat) : Bool := (m.reg a).toNat.testBit i

/-- A field of a register written by the module. -/
def M.setFld (m : M) (a hi lo v : Nat) : M := m.setReg a (Machine.setFld (m.reg a) hi lo v)

/-- A counter advanced by `k`, saturating (R16). -/
def M.countBy (m : M) (a k : Nat) : M := if k = 0 then m else m.setReg a (satAdd (m.reg a) k)

/-- A counter advanced by one. -/
def M.count (m : M) (a : Nat) : M := m.countBy a 1

/-- A bit of a W1C register set by the module. -/
def M.raise (m : M) (a i : Nat) : M := m.setFld a i i 1

/-! ## Parts of the die -/

def M.core (m : M) (c : Nat) : Core := mapGetD m.die.cores c Core.fresh

def M.setCore (m : M) (c : Nat) (k : Core) : M := { m with die.cores := mapSet m.die.cores c k }

def M.updCore (m : M) (c : Nat) (f : Core → Core) : M := m.setCore c (f (m.core c))

def M.site (m : M) (s : Nat) : Site := mapGetD m.die.sites s Site.fresh

def M.updSite (m : M) (s : Nat) (f : Site → Site) : M := { m with die.sites := mapSet m.die.sites s (f (m.site s)) }

def M.updHdf (m : M) (f : Headframe → Headframe) : M := { m with die.hdf := f m.die.hdf }

def M.updPwr (m : M) (f : Power → Power) : M := { m with die.pwr := f m.die.pwr }

def M.updStep (m : M) (f : Step → Step) : M := { m with die.step := m.die.step.map f }

/-- A step is in progress, its commit, abort or fault handling included. -/
def M.inStep (m : M) : Bool := m.die.step.isSome

/-- It is the step of a batch, no run of the build's table-load entry (R506). -/
def M.batchStep (m : M) : Bool := (m.die.step.map fun s => !s.tables).getD false

/-- A fresh free value, and the counter moved past it: the spec states no value there. -/
def M.freeValue (m : M) : Nat := Config.freeNat m.die.free

def M.spend (m : M) : M := { m with die.free := m.die.free + 1 }

/-- A timer's row is its expiry: fabric time has then reached the limit (log entry 31). -/
def M.reach (m : M) (t : Nat) : M := { m with die.ft := max m.die.ft t }

def M.port (m : M) (p : Nat) : Port := mapGetD m.die.ports p Port.fresh
def M.updPort (m : M) (p : Nat) (f : Port → Port) : M := { m with die.ports := mapSet m.die.ports p (f (m.port p)) }

/-- The control region has restarted and not yet reloaded its copy of fabric time: the comparisons it makes are held (R467). -/
def M.copyStale (m : M) : Bool := m.die.servo.staleCopies.contains 14

/-- A region's copy of fabric time: within ±0.25 ns of the master, one number with it here, and never decreasing (R466, log
entry 68). -/
def M.copyTime (m : M) : Nat := max m.die.ft m.die.servo.copyFloor

/-- Fabric time is free-running: before the first LOCKED, or in FREE (R546, Table 15.6). -/
def M.freeRunning (m : M) : Bool := !m.die.servo.lockedOnce || m.fld FTC_STATUS 3 0 == 0

/-- Fabric time is LOCKED (Table 11.5). -/
def M.ftLocked (m : M) : Bool := m.fld FTC_STATUS 3 0 == 2

/-- The physical core of a virtual core of a site, from CLU_VCORE_MAP (R247). -/
def M.physical (m : M) (site v : Nat) : Nat :=
  if v < 12 then m.fld (cluReg site CLU_VCORE_MAP) (5 * v + 4) (5 * v)
  else m.fld (cluReg site CLU_VCORE_MAP_HI) (5 * (v - 12) + 4) (5 * (v - 12))

/-- The virtual core that a physical core serves as, 16 when none. -/
def M.virtualOf (m : M) (c : Nat) : Nat :=
  ((List.range 16).find? fun v => m.physical (c / 17) v == c % 17).getD 16

/-! ## Memory by control-space address -/

def M.read (m : M) (a n : Nat) : Bytes := m.mem.read a n

def M.readN (m : M) (a n : Nat) : Nat := ofBytes (m.mem.read a n)

def M.write (m : M) (a : Nat) (bs : Bytes) : M := { m with mem := m.mem.write a bs }

/-- Bytes written of which each byte keeps the bits its address's mask has: reserved fields read as zero (R10). -/
def M.writeMasked (m : M) (mask : Nat → Nat) (a : Nat) (bs : Bytes) : M :=
  m.write a (bs.zipIdx.map fun (b, i) => b &&& BitVec.ofNat 8 (mask (a + i)))

def M.writeN (m : M) (a n v : Nat) : M := m.write a (toBytes n v)

def M.clearMem (m : M) (a n : Nat) : M := { m with mem := m.mem.clear a n }

/-! ## The event log and the flash queue (R550, R563 to R565) -/

/-- Records in a log segment, and segments of the log (R563). -/
def segmentRecords : Nat := 8192
def logSegments : Nat := 64

/-- The device that holds a record, `true` for device B: the segments alternate (R563). -/
def logDevice (seq : Nat) : Bool := (seq - 1) / segmentRecords % 2 == 1

/-- A log record (Table 15.6). -/
def logRecordBytes (m : M) (severity source code : Nat) (data : Bytes) (ft boot : Nat) (unlocked : Bool) : Bytes :=
  let h := m.die.hdf
  let body := toBytes 8 (h.logSeq + 1) ++ toBytes 8 ft ++ toBytes 1 (bit unlocked + 2 * bit h.lostBefore) ++
    toBytes 1 severity ++ toBytes 1 source ++ zeros 1 ++ toBytes 2 code ++ zeros 2 ++ toBytes 4 boot ++
    slice data 0 36 ++ h.logTip
  body ++ sm3 body

/-- A record written to the log: a new segment erases the oldest one when the log is full (R563). -/
def M.writeLog (m : M) (severity source code : Nat) (data : Bytes) (ft boot : Nat) (unlocked : Bool) : M :=
  let r := logRecordBytes m severity source code data ft boot unlocked
  let full := m.die.hdf.log.length == segmentRecords * logSegments
  let m := if full then m.count HDF_LOG_WRAP_CNT else m
  let m := m.updHdf fun h => { h with
    log := (if full then h.log.drop segmentRecords else h.log) ++ [r]
    logSeq := h.logSeq + 1, logTip := r.drop 96, lostBefore := false }
  m.setReg HDF_LOG_SEQ (BitVec.ofNat 64 m.die.hdf.logSeq)

/-- The rank of a flash request in the order of R550. -/
def flashRank : FlashRequest → Nat
  | .header _ _ => 0
  | .logRecord _ _ _ _ _ _ _ => 1
  | .fieldRepair _ => 2
  | .update _ _ => 3

/-- A request put into the flash queue behind every request that R550 serves before it. -/
def flashInsert (r : FlashRequest) (q : List FlashRequest) : List FlashRequest :=
  q.filter (fun x => flashRank x ≤ flashRank r) ++ r :: q.filter (fun x => flashRank r < flashRank x)

/-! ## Boot headers (R549) -/

/-- STATE in a boot header: its code is the model's (log entry 129). -/
def SlotState.code : SlotState → Nat
  | .empty => 0
  | .trial => 1
  | .active => 2
  | .inactive => 3
  | .bad => 4

/-- The SM3 digest over a header's fields: their widths are the model's (log entry 129). -/
def headerDigest (h : BootHeader) : Bytes :=
  sm3 (toBytes 1 h.state.code ++ toBytes 1 h.tries ++ toBytes 4 h.svn ++ toBytes 4 h.minSvn ++ toBytes 8 h.version ++
    toBytes 8 h.gen)

def BootHeader.checks (h : BootHeader) : Bool := h.digest == headerDigest h

/-- Copy 0 is the one in use: its digest checks, and copy 1 is not a newer one that checks. -/
def FlashSlot.copy0Used (s : FlashSlot) : Bool :=
  s.copy0.checks && (!s.copy1.checks || decide (s.copy1.gen ≤ s.copy0.gen))

/-- The newer copy of a slot's header whose digest checks; with none the slot holds no usable bundle (R549). -/
def slotHeader (s : FlashSlot) : BootHeader :=
  if s.copy0Used then s.copy0 else if s.copy1.checks then s.copy1 else .blank

/-- A header written over the older copy, with the next GEN (R549). -/
def slotWriteHeader (h : BootHeader) (s : FlashSlot) : FlashSlot :=
  let h := { h with gen := (slotHeader s).gen + 1 }
  let h := { h with digest := headerDigest h }
  if s.copy0Used then { s with copy1 := h } else { s with copy0 := h }

/-- The copy written last loses its digest: its write has not ended well. -/
def FlashSlot.spoilNewest (s : FlashSlot) : FlashSlot :=
  if s.copy0Used then { s with copy0.digest := [] } else { s with copy1.digest := [] }

def hdfSlot (slotB : Bool) (h : Headframe) : FlashSlot := if slotB then h.slotB else h.slotA

def hdfSetSlot (slotB : Bool) (s : FlashSlot) (h : Headframe) : Headframe :=
  if slotB then { h with slotB := s } else { h with slotA := s }

def hdfWriteHeader (slotB : Bool) (b : BootHeader) (h : Headframe) : Headframe :=
  hdfSetSlot slotB (slotWriteHeader b (hdfSlot slotB h)) h

/-- MIN_SVN in force: the higher of the two slots' (R556). -/
def hdfMinSvn (h : Headframe) : Nat := max (slotHeader h.slotA).minSvn (slotHeader h.slotB).minSvn

/-- Bytes of a device, and of its image slot (R548, Table 15.2). -/
def deviceBytes : Nat := 2 ^ 27
def imageSlotBytes : Nat := 0x3000000

/-! ## Field-repair records (R553) -/

/-- A record's SM3 digest, over its fields and the digest of the record before: the fields' widths are the model's (log entry
129). -/
def repairDigest (prev : Bytes) (r : FieldRepair) : Bytes :=
  sm3 (toBytes 4 r.kind ++ toBytes 4 r.site ++ toBytes 4 r.core ++ toBytes 4 r.memory ++ toBytes 4 r.bank ++
    toBytes 4 r.row ++ prev)

/-- The valid chain at the head of a device's records, from the digest of the record before. -/
def repairChain (prev : Bytes) : List StoredRepair → List FieldRepair
  | [] => []
  | x :: rest =>
    if x.prev == prev && x.digest == repairDigest prev x.repair then x.repair :: repairChain x.digest rest else []

/-- The longer of the two devices' valid chains, device A's of two of one length (R553). -/
def Headframe.repairs (h : Headframe) : List FieldRepair :=
  let a := repairChain (zeros 32) h.repairsA
  let b := repairChain (zeros 32) h.repairsB
  if a.length < b.length then b else a

/-- A record written behind a device's valid chain. -/
def storeRepair (l : List StoredRepair) (r : FieldRepair) : List StoredRepair :=
  let kept := l.take (repairChain (zeros 32) l).length
  let prev := ((kept.getLast?).map (·.digest)).getD (zeros 32)
  kept ++ [{ repair := r, prev, digest := repairDigest prev r }]

/-- Its last record loses its digest: its write has not ended well. -/
def spoilLast (l : List StoredRepair) : List StoredRepair :=
  l.dropLast ++ (l.getLast?.toList.map fun x => { x with digest := [] })

/-! ## The flash queue (R550) -/

/-- What a flash request does as its program or erase begins (R550): an update's bundle is whole once its write has been
verified. -/
def M.serveFlash (m : M) : FlashRequest → M
  | .header b hdr => m.updHdf (hdfWriteHeader b hdr)
  | .logRecord sev src code data ft boot unl => m.writeLog sev src code data ft boot unl
  | .fieldRepair r => m.updHdf fun h => { h with repairsA := storeRepair h.repairsA r, repairsB := storeRepair h.repairsB r }
  | .update b _ => m.updHdf fun h => hdfSetSlot b { hdfSlot b h with bundle := none } h

/-- Records that may wait in RAM (R565). -/
def logQueueMax : Nat := 4096

/-- A request handed to flash: served at once when flash is idle, queued otherwise. A log record that finds the
queue full is dropped (R565), and the wait of an update write is counted (R550). -/
def M.flash (m : M) (r : FlashRequest) : M :=
  match m.die.hdf.flashRunning with
  | none => (m.updHdf fun h => { h with flashRunning := some (r, false) }).serveFlash r
  | some _ =>
    let logs := (m.die.hdf.flashQueue.filter fun x => flashRank x == 1).length
    if flashRank r == 1 && decide (logQueueMax ≤ logs) then
      (m.count HDF_LOG_DROP_CNT).updHdf fun h => { h with lostBefore := true }
    else
      let m := if flashRank r == 3 then m.count HDF_FLASH_WAIT_CNT else m
      m.updHdf fun h => { h with flashQueue := flashInsert r h.flashQueue }

/-- A write that ends badly, by a power loss or by a second failed verify: the copy of a boot header is spoiled, a field-repair
record is spoiled on the device being written, which of the two is free, and lost or whole on the other; an image slot holds
nothing. A log record stands (log entry 129). -/
def M.spoilWrite (m : M) : FlashRequest → M
  | .header b _ => m.updHdf fun h => hdfSetSlot b (hdfSlot b h).spoilNewest h
  | .logRecord _ _ _ _ _ _ _ => m
  | .fieldRepair _ =>
    if m.freeValue % 2 = 0 then
      m.spend.updHdf fun h => { h with repairsA := spoilLast h.repairsA, repairsB := h.repairsB.dropLast }
    else m.spend.updHdf fun h => { h with repairsB := spoilLast h.repairsB }
  | .update b _ => m.updHdf fun h => hdfSetSlot b { hdfSlot b h with bundle := none } h

/-- A record appended to the event log (R564), pushed to the event subscriptions as well (Table 15.8). -/
def M.appendLog (m : M) (severity source code : Nat) (data : Bytes) : M :=
  let m := m.updHdf fun h => { h with eventsPushed := h.eventsPushed ++ h.subscriptions.map fun d => (d, code) }
  m.flash (.logRecord severity source code data m.die.ft m.die.hdf.bootCount m.freeRunning)

/-- An event of the module's own logged: SEVERITY, SOURCE, CODE and DATA are not given (R564). -/
def M.logEvent (m : M) (event : Nat) : M :=
  m.appendLog (Config.eventSeverity event).val (Config.eventSource event).val (Config.eventCode event).toNat
    (toBytes 36 (Config.eventData event).toNat)

/-! ## Errors (chapter 13) -/

/-- An error of the cycle of the capture that FMN_ERR_FIRST0 holds, one at its fabric time (log entry 131), goes before it:
the lowest class, then the lowest BLOCK, then the lowest instance (R519). -/
def M.errorGoesFirst (m : M) (cls block inst : Nat) : Bool :=
  m.regN FMN_ERR_FIRST1 == m.die.ft &&
    decide (cls * 2 ^ 20 + block * 2 ^ 16 + inst % 2 ^ 16 <
      m.fld FMN_ERR_FIRST0 59 56 * 2 ^ 20 + m.fld FMN_ERR_FIRST0 55 52 * 2 ^ 16 + m.fld FMN_ERR_FIRST0 47 32)

/-- An error of a class counted and, from class 3 on, captured when no capture is held, or when it goes before the one held
(R518, R519, Table 13.9). -/
def M.errorClass (m : M) (cls block inst detail : Nat) : M :=
  let m := m.count (FMN_ERR_CLASS_CNT + 8 * cls)
  if 3 ≤ cls && (!m.flag FMN_ERR_FIRST0 63 || m.errorGoesFirst cls block inst) then
    let m := m.setReg FMN_ERR_FIRST0
      (BitVec.ofNat 64 (2 ^ 63 + cls * 2 ^ 56 + block * 2 ^ 52 + inst % 2 ^ 16 * 2 ^ 32 + detail % 2 ^ 32))
    let m := m.setReg FMN_ERR_FIRST1 (BitVec.ofNat 64 m.die.ft)
    m.setReg FMN_ERR_FIRST2 (BitVec.ofNat 64 m.die.stepNumber)
  else m

/-- The running step's error status set, by an error or by one that names no unit (R217, R342, R497). -/
def M.stepErrorBy (m : M) (e : Option ErrorReport) : M :=
  m.updStep fun s => { s with error := true, first := some (s.first.getD e) }

def M.stepError (m : M) : M := m.stepErrorBy none

/-- The running step's error status set by the error just reported. -/
def M.stepErrorReported (m : M) : M := m.stepErrorBy m.die.reports.getLast?

/-- INSTANCE of a core in FMN_ERR_FIRST0 (Table 13.9). -/
def coreInstance (c : Nat) : Nat := c / 17 * 32 + c % 17

/-- An error reported to the Foreman (R217, R496). -/
def M.report (m : M) (cls block inst memory bank row detail : Nat) : M :=
  let attempt := (m.die.step.map (·.attempt)).getD 0
  { m with die.reports := m.die.reports ++ [{ cls, block, inst, memory, bank, row, detail, attempt }] }

/-! ## Transitions (R43, R514) -/

/-- A request latched behind a running transition; `replaced` when an earlier latched one gives way (R514). -/
def M.latched (m : M) (replaced : Bool) : M :=
  let m := m.count FMN_TRANSITION_LATCH_CNT
  if replaced then m.count FMN_TRANSITION_SUPERSEDE_CNT else m

/-! ## Completion codes (Table 14.4) -/

abbrev ccOK : Nat := 0x01
abbrev ccBUSY : Nat := 0x02
abbrev ccSTATE : Nat := 0x03
abbrev ccINVALID : Nat := 0x04
abbrev ccNO_SLOT : Nat := 0x05
abbrev ccNO_PAGE : Nat := 0x06
abbrev ccEXPIRED : Nat := 0x07
abbrev ccNO_MODEL : Nat := 0x08
abbrev ccMISMATCH : Nat := 0x09
abbrev ccREFUSED : Nat := 0x0A
abbrev ccSHARD_LOST : Nat := 0x0B
abbrev ccDIGEST : Nat := 0x0C
abbrev ccACCESS : Nat := 0x0D
abbrev ccCAL_FAIL : Nat := 0x0E
abbrev ccSUPERSEDED : Nat := 0x0F
abbrev ccNOT_READY : Nat := 0x10

/-- Control-space address of a mailbox (R521, R522). -/
def mailboxBase (mb : Nat) : Nat := 0x240000000000 + 256 * mb

/-- A mailbox command completed: STATUS, then BUSY, then the interrupt bit (R524). -/
def M.mbComplete (m : M) (mb code : Nat) : M :=
  ((m.writeN (mailboxBase mb + 1) 1 code).setFld FMN_MB_BUSY mb mb 0).raise FMN_HOST_IRQ_MB mb

/-! ## UNIT commands that wait (R525)

A function of R43 is numbered 16 × unit + kind (log entry 55): 0 port p, 1 lane direction 2p + rx, 2 the core spare of a
site, 3 the SRAM rows of a core, 4 the Stope rows of a site, 5 a site's router, 6 a stack's channels, 7 the clock regions,
8 an optical engine. -/

/-- UNIT commands of a function whose request has run, or is latched, complete with a code. -/
def M.unitEnd (m : M) (n : Nat) (latched : Bool) (code : Nat) : M :=
  let done := m.die.fmn.unitWaits.filter fun w => w.2.1 == n && w.2.2 == latched
  let m := done.foldl (fun m w => m.mbComplete w.1 code) m
  { m with die.fmn.unitWaits := m.die.fmn.unitWaits.filter fun w => !(w.2.1 == n && w.2.2 == latched) }

/-- A function's transition has run. -/
def M.unitDone (m : M) (n code : Nat) : M := m.unitEnd n false code

/-- A function's latched request runs now (R515). -/
def M.unitTurn (m : M) (n : Nat) : M :=
  { m with die.fmn.unitWaits := m.die.fmn.unitWaits.map fun w => if w.2.1 == n then (w.1, n, false) else w }

/-- A UNIT command of a function is latched. -/
def M.unitLatched (m : M) (n : Nat) : Bool := m.die.fmn.unitWaits.any fun w => w.2.1 == n && w.2.2

/-- A request latched behind a function's transition; the UNIT command whose latched request it replaces completes with
SUPERSEDED (R43, R514, R525). -/
def M.latchBehind (m : M) (n : Nat) (replaced : Bool) : M :=
  if replaced then (m.latched true).unitEnd n true ccSUPERSEDED else m.latched false

/-! ## Lifting a command's effect -/

/-- A command that works on the die and its memory: the queue and the Weighbridge stay as they are. -/
def onDie (f : M → M) (s : State) : Host.Outcome State Fault Refusal :=
  let m := f { die := s.die, mem := CMem.ofList s.mem }
  .next { s with die := m.die, mem := m.mem.cells }

/-- The compute die runs: its rails are up, REFCLK has appeared (R543, R571), and the boot has released the application cores and
the Foreman (R552, Table 15.1). -/
def Die.live (d : Die) : Bool := d.pwr.rails && d.pwr.released && d.hdf.hostReleased

/-- Headframe runs: VDD_MGT is up and REFCLK has appeared (R543, R572). -/
def Die.managed (d : Die) : Bool := d.pwr.mgtRail && d.pwr.released

/-- A command of the die: nothing happens while the die does not run (R6, log entry 5). -/
def onLive (f : M → M) (s : State) : Host.Outcome State Fault Refusal :=
  onDie (fun m => if m.die.live then f m else m) s

/-- A command of Headframe: nothing happens while Headframe does not run. -/
def onManaged (f : M → M) (s : State) : Host.Outcome State Fault Refusal :=
  onDie (fun m => if m.die.managed then f m else m) s

/-- A command of the Weighbridge: it touches nothing else (R600). -/
def onWb (f : Weighbridge → Weighbridge) (s : State) : Host.Outcome State Fault Refusal :=
  .next { s with wb := f s.wb }

end Sys2Proof.Machine
end

