-- ==== Sys2Proof/Machine/Ecc.lean ====
section
/-! DEFINITION. On-die memories (chapter 5): where each stands, its banks, its error-correcting code, and the reads
and writes every engine makes through them. -/
namespace Sys2Proof.Machine

/-! ## Memory codes and places (Table 5.1, R195, R196) -/

/-- Base of a memory in a core's window, by memory code; the Smelter tables stand at offsets Table 5.1 leaves
unassigned (log entry 3). Code 7, the Stope, is the site's. -/
def memLocal (mem : Nat) : Nat :=
  match mem with
  | 0 => 0x0
  | 1 => 0x200000
  | 2 => 0x300000
  | 3 => 0x310000
  | 4 => 0x3000000
  | 5 => 0x2000000
  | 6 => 0x8000000
  | _ => 0x400000

/-- Size in bytes of a memory. -/
def memSize (mem : Nat) : Nat :=
  match mem with
  | 0 => 0x200000
  | 1 => 0x80000
  | 2 => 0x10000
  | 3 => 0x10000
  | 4 => 0x10000
  | 5 => 0x800
  | 6 => 0x1A00
  | _ => 0x800000

/-- Control-space address of a byte of a memory of core `c`; every core of a site shows the same Stope (R196). -/
def memAddr (c mem off : Nat) : Nat :=
  if mem = 7 then c / 17 * 0x200000000 + memLocal 7 + off else coreBase c + memLocal mem + off

/-- Offsets of the Smelter tables within memory code 6: descriptors, angles, fallback store. -/
def angleOff : Nat := 0x1000
def storeOff : Nat := 0x1200

/-- Bytes of a codeword's data: 8 in a parameter register, 16 elsewhere (Table 5.7). -/
def granuleSize (mem : Nat) : Nat := if mem = 5 then 8 else 16

/-- Sterling accumulator mode in effect on a core (Table 3.15). -/
def M.sterling (m : M) (c : Nat) : Bool := m.flag (coreReg c CORE_MXE_STATUS) 40

/-- Bank of a byte offset (Table 5.2); parameter registers form one bank and each Smelter table one (R212). -/
def bankOf (mem : Nat) (sterling : Bool) (off : Nat) : Nat :=
  let r := off / 64
  match mem with
  | 0 => bits r 3 0 ^^^ bits r 7 4 ^^^ bits r 11 8 ^^^ bits r 14 12
  | 1 => bits r 3 0 ^^^ bits r 7 4 ^^^ bits r 11 8 ^^^ bits r 12 12
  | 2 => if sterling then 4 * (off / 0x8000) + off % 0x400 / 16 / 16 else off / 0x2000
  | 3 => bits r 2 0 ^^^ bits r 5 3 ^^^ bits r 8 6 ^^^ bits r 9 9
  | 6 => if off < angleOff then 0 else if off < storeOff then 1 else 2
  | 7 => bits r 4 0 ^^^ bits r 9 5 ^^^ bits r 14 10 ^^^ bits r 16 15
  | _ => 0

/-- Row in bank of a byte offset (Table 5.2): in accumulator memory a row of the tile. -/
def rowInBank (mem : Nat) (sterling : Bool) (off : Nat) : Nat :=
  let r := off / 64
  match mem with
  | 0 => r / 16
  | 1 => r / 16
  | 2 => if sterling then off % 0x8000 / 0x400 else off % 0x2000 / 0x100
  | 3 => r / 8
  | 6 => (if off < angleOff then off else if off < storeOff then off - angleOff else off - storeOff) / 64
  | 7 => r / 32
  | _ => r

/-- Banks of a memory, and rows of a bank. -/
def bankCount (mem : Nat) : Nat :=
  match mem with
  | 0 => 16 | 1 => 16 | 2 => 8 | 3 => 8 | 6 => 3 | 7 => 32 | _ => 1

def bankRows (mem bank : Nat) : Nat :=
  match mem with
  | 2 => 32
  | 6 => if bank = 0 then angleOff / 64 else if bank = 1 then (storeOff - angleOff) / 64 else (memSize 6 - storeOff) / 64
  | _ => memSize mem / 64 / bankCount mem

/-- Bytes of a row of a bank: 64, and in accumulator memory a tile's row, or its 16 columns of a Sterling tile (Table 5.2). -/
def rowBytes (mem : Nat) : Nat := if mem = 2 then 256 else 64

/-- The byte offset of a row of a bank: the hash of Table 5.2 undone. -/
def rowOffset (mem : Nat) (sterling : Bool) (bank row : Nat) : Nat :=
  match mem with
  | 0 => (row * 16 + (bank ^^^ bits row 3 0 ^^^ bits row 7 4 ^^^ bits row 10 8)) * 64
  | 1 => (row * 16 + (bank ^^^ bits row 3 0 ^^^ bits row 7 4 ^^^ bits row 8 8)) * 64
  | 3 => (row * 8 + (bank ^^^ bits row 2 0 ^^^ bits row 5 3 ^^^ bits row 6 6)) * 64
  | 7 => (row * 32 + (bank ^^^ bits row 4 0 ^^^ bits row 9 5 ^^^ bits row 11 10)) * 64
  | 2 => if sterling then bank / 4 * 0x8000 + row * 0x400 + bank % 4 * 0x100 else bank * 0x2000 + row * 0x100
  | 6 => (if bank = 0 then 0 else if bank = 1 then angleOff else storeOff) + row * 64
  | _ => row * 64

/-- The number that names a bank within a core or site: 32 x memory code + bank. -/
def bankKey (mem bank : Nat) : Nat := 32 * mem + bank

/-! ## Violations (R54, R222, R223, Table 5.14) -/

/-- An access outside its window: counted, and captured when no capture is held. -/
def M.violation (m : M) (c req : Nat) (write : Bool) (space tag pc addr : Nat) : M :=
  let m := m.count (coreReg c CORE_VIOL_CNT)
  if m.flag (coreReg c CORE_VIOL_CAP0) 63 then m
  else
    let m := m.setReg (coreReg c CORE_VIOL_CAP0) (BitVec.ofNat 64
      (2 ^ 63 + req * 2 ^ 59 + bit write * 2 ^ 58 + space % 16 * 2 ^ 48 + tag % 2 ^ 16 * 2 ^ 32 + pc % 2 ^ 16))
    m.setReg (coreReg c CORE_VIOL_CAP1) (BitVec.ofNat 64 (addr % 2 ^ 32))

/-! ## Error-correcting codes (R215 to R220, R637, R651) -/

/-- What a decoder finds in a codeword. -/
inductive EccVerdict where
  | clean
  | corrected (bit0 bit1 : Nat) (dataFlip : Nat)
  | uncorrectable
  | missed
  deriving DecidableEq, Repr

/-- Bits of a codeword (Table 5.7). -/
def codeBits (mem : Nat) : Nat := if mem = 0 then 144 else if mem = 5 then 72 else 137

/-- Bits of a memory's raw syndrome (Table 5.12). -/
def syndromeBits (mem : Nat) : Nat := if mem = 0 then 16 else if mem = 5 then 8 else 9

/-- Positions of the set bits of a flip mask, lowest first. -/
def setBits (mask : Nat) : List Nat := (List.range 144).filter fun i => mask.testBit i

/-- Judgment of a flip mask: Lode corrects 2 bits and detects 3, the others correct 1 and detect 2 (Table 5.7); past
detection the outcome is free (R651). `dataFlip` is what stays wrong in the delivered codeword. -/
def eccJudge (mem addr mask : Nat) : EccVerdict :=
  let p := (setBits mask).length
  let fix := if mem = 0 then 2 else 1
  if p = 0 then .clean
  else if p ≤ fix then .corrected ((setBits mask).getD 0 0xFF) ((setBits mask).getD 1 0xFF) 0
  else if p = fix + 1 then .uncorrectable
  else
    let o := (Config.beyondDetection addr mask).val
    let b := Config.miscorrectedBit addr mask % codeBits mem
    let b2 := Config.miscorrectedSecond addr mask % codeBits mem
    if o = 0 then
      if mem = 0 ∧ Config.miscorrectsTwo addr mask ∧ b ≠ b2 then .corrected (min b b2) (max b b2) (mask ^^^ 2 ^ b ^^^ 2 ^ b2)
      else .corrected b 0xFF (mask ^^^ 2 ^ b)
    else if o = 1 then .uncorrectable
    else .missed

/-- Register offsets of a memory's captures and counters, in a core or, for Stope, in the cluster. -/
def eccCounter (ue : Bool) (c mem : Nat) : Nat :=
  if mem = 7 then cluReg (c / 17) (if ue then CLU_STOPE_UE_CNT else CLU_STOPE_CE_CNT)
  else coreReg c ((if ue then CORE_MEM_UE_CNT else CORE_MEM_CE_CNT) + 8 * mem)

def eccCapture (ue : Bool) (c mem : Nat) : Nat :=
  if mem = 7 then cluReg (c / 17) (if ue then CLU_STOPE_UE_CAP0 else CLU_STOPE_CE_CAP0)
  else coreReg c (if ue then CORE_ECC_UE_CAP0 else CORE_ECC_CE_CAP0)

/-- The first error of a kind captured (R218, Tables 5.12, 5.13). -/
def M.captureEcc (m : M) (ue : Bool) (c mem off source bit0 bit1 mask : Nat) : M :=
  let a := eccCapture ue c mem
  if m.flag a 63 then m
  else
    let bank := bankOf mem (m.sterling c) off
    let m := m.setReg a (BitVec.ofNat 64
      (2 ^ 63 + mem * 2 ^ 59 + source * 2 ^ 56 + bank * 2 ^ 48 + bit1 * 2 ^ 40 + bit0 * 2 ^ 32 +
        (Config.syndrome mem mask).toNat % 2 ^ syndromeBits mem))
    m.setReg (a + 8) (BitVec.ofNat 64 (m.die.stepNumber % 2 ^ 32 * 2 ^ 32 + off))

/-- A row queued for write-back in its bank's one place (R212). -/
def M.queueWriteBack (m : M) (c mem off : Nat) : M :=
  let key := bankKey mem (bankOf mem (m.sterling c) off)
  let row := off / rowBytes mem * rowBytes mem
  if mem = 7 then
    if (mapGet (m.site (c / 17)).writeBack key).isSome then m.count (cluReg (c / 17) CLU_STOPE_WB_DROP_CNT)
    else m.updSite (c / 17) fun s => { s with writeBack := mapSet s.writeBack key row }
  else if (mapGet (m.core c).writeBack key).isSome then m.count (coreReg c CORE_ECC_WB_DROP_CNT)
  else m.updCore c fun k => { k with writeBack := mapSet k.writeBack key row }

/-- BLOCK and INSTANCE of an on-die error (Table 13.9). -/
def eccBlock (mem : Nat) : Nat := if mem = 7 then 1 else 0

def eccInstance (c mem : Nat) : Nat := if mem = 7 then c / 17 * 32 else coreInstance c

/-- A core takes part in the running step: a group of the step names it. -/
def M.inUse (m : M) (c : Nat) : Bool := (m.die.step.map fun s => s.cores.contains c).getD false

/-- Some core of the site takes part in the running step, for the site's Stope. -/
def M.unitInUse (m : M) (c mem : Nat) : Bool :=
  if mem = 7 then (List.range 17).any fun p => m.inUse (c / 17 * 17 + p) else m.inUse c

/-- The class of an uncorrectable on-die error (Table 13.1). -/
def ueClass (mem : Nat) (inUse : Bool) : Nat :=
  if !inUse then 15 else if mem = 0 then 4 else if mem = 4 ∨ mem = 6 then 5 else 3

/-- A correctable error (R216). -/
def M.correctable (m : M) (c mem off source bit0 bit1 mask : Nat) : M :=
  let m := (m.count (eccCounter false c mem)).errorClass 1 (eccBlock mem) (eccInstance c mem) off
  let m := m.captureEcc false c mem off source bit0 bit1 mask
  if source = 3 then m else m.queueWriteBack c mem off

/-- An uncorrectable error (R217): the step's error status is set while the unit takes part in a step, and the error
is reported to the Foreman. -/
def M.uncorrectable (m : M) (c mem off source mask : Nat) : M :=
  let cls := ueClass mem (m.unitInUse c mem)
  let m := m.count (eccCounter true c mem)
  let m := m.captureEcc true c mem off source 0xFF 0xFF mask
  let m := m.errorClass cls (eccBlock mem) (eccInstance c mem) off
  let m := m.report cls (eccBlock mem) (eccInstance c mem) mem (bankOf mem (m.sterling c) off) (rowInBank mem (m.sterling c) off) off
  if cls = 15 then m else m.stepErrorReported

/-- The error of one codeword acted on. -/
def M.eccAct (m : M) (c mem off source mask : Nat) : M :=
  match eccJudge mem (memAddr c mem off) mask with
  | .clean => m
  | .missed => m
  | .corrected b0 b1 _ => m.correctable c mem off source b0 b1 mask
  | .uncorrectable => m.uncorrectable c mem off source mask

/-- What a flip mask leaves wrong in the data a read delivers (R216, R217, R651). -/
def deliveredFlip (mem addr mask : Nat) : Nat :=
  match eccJudge mem addr mask with
  | .clean => 0
  | .missed => mask
  | .corrected _ _ d => d
  | .uncorrectable => mask

/-- The flips of codewords that lie in a range, as (address, mask). -/
def M.flipsIn (m : M) (mem a n : Nat) : NMap Nat :=
  m.die.ecc.filter fun p => decide (p.1 < a + n) && decide (a < p.1 + granuleSize mem)

/-- The codewords of a read in the order in which their errors are captured: cycle by cycle, 256 bytes a cycle, and within a
cycle the lowest bank first (R218). -/
def M.tieOrder (m : M) (c mem : Nat) (flips : NMap Nat) : NMap Nat :=
  if flips.length ≤ 1 then flips
  else
    let base := memAddr c mem 0
    let bank := fun (p : Nat × Nat) => bankOf mem (m.sterling c) (p.1 - base)
    ((flips.map fun p => (p.1 - base) / 256).eraseDups).flatMap fun blk =>
      (List.range 32).flatMap fun b => flips.filter fun p => (p.1 - base) / 256 == blk && bank p == b

/-- Flips exclusive-ored into bytes read from an address. -/
def applyFlips (mem a : Nat) (bs : Bytes) (flips : NMap Nat) : Bytes :=
  flips.foldl (fun bs p =>
    let d := deliveredFlip mem p.1 p.2
    bs.zipIdx.map fun (b, i) =>
      let x := a + i
      if p.1 ≤ x ∧ x < p.1 + granuleSize mem then b ^^^ BitVec.ofNat 8 (bits d (8 * (x - p.1) + 7) (8 * (x - p.1))) else b) bs

/-- A read of `n` bytes of a memory, checked and corrected in line (R216, R217); `source` is the SOURCE code of
Table 5.12. -/
def M.readMem (m : M) (c mem off n source : Nat) : Bytes × M :=
  let a := memAddr c mem off
  let raw := m.read a n
  let flips := m.flipsIn mem a n
  if flips.isEmpty then (raw, m)
  else
    let m' := (m.tieOrder c mem flips).foldl (fun m p => m.eccAct c mem (p.1 - memAddr c mem 0) source p.2) m
    (applyFlips mem a raw flips, m')

/-- The injection register of a memory: CORE_ECC_INJECT, or CLU_STOPE_ECC_INJECT for Stope (R220). -/
def injectReg (c mem : Nat) : Nat :=
  if mem = 7 then cluReg (c / 17) CLU_STOPE_ECC_INJECT else coreReg c CORE_ECC_INJECT

/-- An armed injection takes the lowest granule a write stores, and ARM clears (R220). -/
def M.inject (m : M) (c mem off : Nat) : M :=
  let r := injectReg c mem
  if m.flag r 0 && (mem == 7 || m.fld r 11 8 == mem) then
    let g := granuleSize mem
    let a := memAddr c mem (off / g * g)
    let m := m.setFld r 0 0 0
    { m with die.ecc := mapSet m.die.ecc a (2 ^ m.fld r 7 6 - 1) }
  else m

/-- One codeword about to be written: a write that covers part of it reads, checks and merges first (R637); its
flips then go, since the check bits are computed afresh. -/
def M.mergeCodeword (m : M) (c mem a n : Nat) (p : Nat × Nat) : M :=
  let g := granuleSize mem
  let m := if a ≤ p.1 ∧ p.1 + g ≤ a + n then m
    else
      let m := m.eccAct c mem (p.1 - memAddr c mem 0) 3 p.2
      m.write p.1 (applyFlips mem p.1 (m.read p.1 g) [p])
  { m with die.ecc := mapDel m.die.ecc p.1 }

/-- Rows of half a Lode bank: an Assay unit (R378). -/
def unitRows : Nat := 1024

/-- A write to the rows of the unit that Assay is checking abandons the check (R379). -/
def M.assayWrite (m : M) (c off n : Nat) : M :=
  match m.die.fmn.assay.unit with
  | none => m
  | some u =>
    let hit := (List.range ((off + n - 1) / 64 + 1 - off / 64)).any fun i =>
      let a := off / 64 * 64 + 64 * i
      u == 32 * c + 16 * (rowInBank 0 false a / unitRows) + bankOf 0 false a
    if hit && m.die.fmn.assay.taken != 0 then { m with die.fmn.assay := { m.die.fmn.assay with abandoned := true } } else m

/-- A write of bytes into a memory (R205, R220, R637). -/
def M.writeMem (m : M) (c mem off : Nat) (bs : Bytes) : M :=
  if bs.isEmpty then m else
  let m := if mem = 0 then m.assayWrite c off bs.length else m
  let a := memAddr c mem off
  let m := (m.flipsIn mem a bs.length).foldl (fun m p => m.mergeCodeword c mem a bs.length p) m
  (m.write a bs).inject c mem off

/-! ## Spaces (Tables 2.3 and 5.1) -/

/-- Memory code of a space code. -/
def spaceMem (space : Nat) : Nat :=
  match space with
  | 1 => 0
  | 2 => 1
  | 3 => 2
  | 4 => 3
  | _ => 7

/-- Bytes of an accumulator tile: 8 KiB, or 32 KiB in Sterling mode (R109, R114). -/
def tileSize (sterling : Bool) : Nat := if sterling then 0x8000 else 0x2000

/-- Tiles of the ACC space (R116). -/
def accCapacity (sterling : Bool) : Nat := if sterling then 2 else 8

/-- Byte offset in its memory of an offset within a space: ACC offsets name a tile and a place in it (R51). -/
def spaceOffset (sterling : Bool) (space off : Nat) : Nat :=
  if space = 3 then off / 0x10000 * tileSize sterling + off % 0x10000 else off

/-- Extent of a space in bytes (Table 2.3). -/
def spaceExtent (space : Nat) : Nat := if space = 3 then 0x80000 else memSize (spaceMem space)

/-- A read through a range: beyond the space's extent it gives zero (R54). -/
def M.spaceRead (m : M) (c space off n : Nat) : Bytes × M :=
  let ext := spaceExtent space
  if ext ≤ off then (zeros n, m)
  else
    let k := min n (ext - off)
    let (bs, m) := m.readMem c (spaceMem space) (spaceOffset (m.sterling c) space off) k 0
    (bs ++ zeros (n - k), m)

/-- A write through a range: beyond the space's extent it is ignored (R54). -/
def M.spaceWrite (m : M) (c space off : Nat) (bs : Bytes) : M :=
  let ext := spaceExtent space
  if ext ≤ off then m
  else m.writeMem c (spaceMem space) (spaceOffset (m.sterling c) space off) (bs.take (ext - off))

/-- A parameter register as a read delivers it (R59, R217). -/
def M.param (m : M) (c i : Nat) : Nat := ofBytes (m.readMem c 5 (8 * i) 8 0).1

/-- A parameter register written. -/
def M.setParam (m : M) (c i v : Nat) : M := m.writeMem c 5 (8 * i) (toBytes 8 v)

end Sys2Proof.Machine
end

