-- ==== Sys2Proof/Machine/Access.lean ====
section
/-! DEFINITION. Control-space accesses to core memories, scrub and write-back (R207 to R214, R220 to R224, R66). -/
namespace Sys2Proof.Machine

/-- What an access of a wrong width or alignment does: a read gives zero, a write nothing, and it is counted (R12,
log entry 52). -/
def M.badAccess (m : M) : M := { m.count HDF_CS_ACCESS_ERR_CNT with die.readData := 0 }

/-- A memory access of the control space: 1, 2, 4 or 8 bytes, naturally aligned (log entry 52). -/
def accessOk (width addr : Nat) : Bool := [1, 2, 4, 8].contains width && addr % width == 0

/-- An access that gives zero on a read and changes nothing else. -/
def M.zeroRead (m : M) (write : Bool) : M := if write then m else { m with die.readData := 0 }

/-- REQ of a control-space requester (Table 5.14). -/
def requesterCode : Requester → Nat
  | .foreman => 7
  | .headframe => 8

/-- The memory and byte offset at a core-local address (Table 5.1); none for an address that Table 5.1 does not
assign. -/
def localMemory (addr : Nat) : Option (Nat × Nat) :=
  [0, 1, 2, 3, 4, 5, 7].findSome? fun mem =>
    if memLocal mem ≤ addr ∧ addr < memLocal mem + memSize mem then some (mem, addr - memLocal mem) else none

/-- Table 5.9: Headframe reads only, and nobody writes accumulator memory through the control space. -/
def accessPermitted (req : Requester) (mem : Nat) (write : Bool) : Bool :=
  !write || (req == .foreman && mem != 2)

/-- An access carried out (R216, R217: SOURCE 2). -/
def M.csServe (m : M) (c mem : Nat) (a : CsAccess) : M :=
  if a.write then m.writeMem c mem a.offset a.data
  else
    let (bs, m) := m.readMem c mem a.offset a.width 2
    { m with die.readData := ofBytes bs }

/-- The core is IDLE, FAULTED or HALTED: it runs no program (R214). -/
def M.resting (m : M) (c : Nat) : Bool := (m.core c).st != .running

/-- Every core of a site rests (R214). -/
def M.siteResting (m : M) (s : Nat) : Bool := (List.range 17).all fun p => m.resting (17 * s + p)

/-- The waiting accesses of a core's memories, but for Lode, and of its site's Stope, served in order once their wait
has ended (R214). -/
def M.serveDeferred (m : M) (c : Nat) : M :=
  let s := c / 17
  let m :=
    if m.resting c then
      let due := (m.core c).csWait.filter fun p => p.1 != 0
      let m := m.updCore c fun k => { k with csWait := k.csWait.filter fun p => p.1 == 0 }
      due.foldl (fun m p => p.2.foldl (fun m a => m.csServe c p.1 a) m) m
    else m
  if m.siteResting s then
    let due := (m.site s).csWait
    let m := m.updSite s fun x => { x with csWait := [] }
    due.foldl (fun m a => m.csServe (17 * s) 7 a) m
  else m

/-- The shard of an image that stands whole in its half. -/
def M.imageWritten (m : M) (j : LodeJob) : M :=
  { m with die.fmn.manifests := m.die.fmn.manifests.map fun x =>
      if x.id = j.manifest then { x with shards := x.shards.modify j.shard fun s => { s with written := true } } else x }

/-- A row of the loader's written into Lode; with its last row the image is whole (R375). -/
def M.loaderRow (m : M) (c : Nat) (j : LodeJob) (p : Nat × Bytes) : M :=
  let rest := mapDel j.rows p.1
  let m := (m.updCore c fun k => { k with lodeJob := if rest.isEmpty then none else some { j with rows := rest } }).writeMem c 0 p.1 p.2
  if rest.isEmpty then m.imageWritten j else m

/-- The waiting Lode accesses of a core and the loader's rows, served once no step runs (R213, R375). -/
def M.serveLode (m : M) (c : Nat) : M :=
  let due := mapGetD (m.core c).csWait 0 []
  let m := m.updCore c fun k => { k with csWait := mapDel k.csWait 0 }
  let m := due.foldl (fun m a => m.csServe c 0 a) m
  match (m.core c).lodeJob with
  | some j => (j.rows.foldl (fun m p => m.writeMem c 0 p.1 p.2) (m.updCore c fun k => { k with lodeJob := none })).imageWritten j
  | none => m

/-- An access put behind those that wait (R213, R214). -/
def M.csDefer (m : M) (c mem : Nat) (a : CsAccess) : M :=
  if mem = 7 then m.updSite (c / 17) fun s => { s with csWait := s.csWait ++ [a] }
  else m.updCore c fun k => { k with csWait := mapUpd k.csWait mem [] (· ++ [a]) }

/-- A parameter-register write: dropped and counted during a step that the core takes part in, between two of its entries as
well (R66). -/
def M.paramWrite (m : M) (c : Nat) (a : CsAccess) : M :=
  if (m.core c).st = .running || m.inUse c then m.count (coreReg c CORE_PARAM_WR_DROP_CNT) else m.csServe c 5 a

/-- An access to a memory of a core (R213, R214, R66). -/
def M.csMemory (m : M) (c mem : Nat) (a : CsAccess) : M :=
  if mem = 5 then if a.write then m.paramWrite c a else m.csServe c 5 a
  else if mem = 0 then if m.inStep then m.csDefer c 0 a else m.csServe c 0 a
  else if (if mem = 7 then m.siteResting (c / 17) else m.resting c) then m.csServe c mem a
  else (m.count (coreReg c CORE_CS_DEFER_CNT)).csDefer c mem a

/-- A control-space access at a core-local address (R195, R221 to R224). -/
def M.csLocal (m : M) (req : Requester) (c addr width : Nat) (write : Bool) (value : Word) : M :=
  if (m.core c).st = .retired then m.zeroRead write
  else if !accessOk width addr then m.badAccess
  else match localMemory addr with
    | some (mem, off) =>
      if accessPermitted req mem write then m.csMemory c mem { requester := req, offset := off, width, write, data := if write then toBytes width value.toNat else [] }
      else (m.violation c (requesterCode req) write 0 0 0 addr).zeroRead write
    | none => (m.violation c (requesterCode req) write 0 0 0 addr).zeroRead write

/-! ## Write-back and scrub -/

/-- A row corrected and stored afresh: its correctable codewords lose their flips (R212). -/
def M.writeBackRow (m : M) (c mem off : Nat) : M :=
  let a := memAddr c mem off
  (m.flipsIn mem a (rowBytes mem)).foldl (fun m p =>
    match eccJudge mem p.1 p.2 with
    | .corrected _ _ _ =>
      let m := m.write p.1 (applyFlips mem p.1 (m.read p.1 (granuleSize mem)) [p])
      { m with die.ecc := mapDel m.die.ecc p.1 }
    | _ => m) m

/-- The row queued for write-back in a bank, if any. -/
def M.queuedRow (m : M) (c mem bank : Nat) : Option Nat :=
  if mem = 7 then mapGet (m.site (c / 17)).writeBack (bankKey 7 bank) else mapGet (m.core c).writeBack (bankKey mem bank)

/-- A bank's queued row written back, and its place freed (R212). -/
def M.writeBack (m : M) (c mem bank : Nat) : M :=
  match m.queuedRow c mem bank with
  | none => m
  | some off =>
    let m :=
      if mem = 7 then m.updSite (c / 17) fun s => { s with writeBack := mapDel s.writeBack (bankKey 7 bank) }
      else m.updCore c fun k => { k with writeBack := mapDel k.writeBack (bankKey mem bank) }
    m.writeBackRow c mem off

/-- A queued row written back in its bank's next free cycle: not in Lode and Scratch, whose scrub slots do it (R212). -/
def M.idleWriteBack (m : M) (c mem bank : Nat) : M := if mem ≤ 1 then m else m.writeBack c mem bank

def execEccWriteBack (c mem bank : Nat) : State → Host.Outcome State Fault Refusal := onLive (M.idleWriteBack · c mem bank)

/-- The scrub pointers of a memory. -/
def M.scrubPtrs (m : M) (c mem : Nat) : NMap ScrubPtr := if mem = 7 then (m.site (c / 17)).scrub else (m.core c).scrub

def M.setScrubPtrs (m : M) (c mem : Nat) (p : NMap ScrubPtr) : M :=
  if mem = 7 then m.updSite (c / 17) fun s => { s with scrub := p } else m.updCore c fun k => { k with scrub := p }

/-- The counter of a memory's scrub passes (R210, R211). -/
def scrubCounter (c mem : Nat) : Nat :=
  match mem with
  | 0 => coreReg c CORE_LODE_SCRUB_PASS_CNT
  | 1 => coreReg c CORE_SCR_SCRUB_PASS_CNT
  | 3 => coreReg c CORE_OPC_SCRUB_PASS_CNT
  | _ => cluReg (c / 17) CLU_STOPE_SCRUB_PASS_CNT

/-- A bank's pointer moved on; a pass is complete when every bank has wrapped (R210). -/
def M.scrubAdvance (m : M) (c mem bank : Nat) : M :=
  let ptrs := m.scrubPtrs c mem
  let p := mapGetD ptrs (bankKey mem bank) { row := 0, wrapped := false }
  let wraps := p.row + 1 == bankRows mem bank
  let ptrs := mapSet ptrs (bankKey mem bank)
    { row := if wraps then 0 else p.row + 1, wrapped := p.wrapped || wraps }
  let full := (List.range (bankCount mem)).all fun b =>
    (mapGetD ptrs (bankKey mem b) { row := 0, wrapped := false }).wrapped
  let ptrs := if full then ptrs.map fun q => if q.1 / 32 = mem then (q.1, { q.2 with wrapped := false }) else q else ptrs
  let m := m.setScrubPtrs c mem ptrs
  if full then m.count (scrubCounter c mem) else m

/-- A Lode row that a scrub slot reads, taken by Assay when it is the next of the unit checked: the first once the pointer
reaches it, then each in turn (R378). -/
def M.assayTake (m : M) (c bank row : Nat) (bs : Bytes) : M :=
  let a := m.die.fmn.assay
  match a.unit with
  | some u =>
    if u / 32 = c ∧ u % 16 = bank ∧ row = u / 16 % 2 * unitRows + a.taken ∧ a.taken < unitRows ∧ a.abandoned = false then
      { m with die.fmn.assay := { a with taken := a.taken + 1, data := a.data ++ bs } }
    else m
  | none => m

/-- A scrub read of a bank's next row (R210, R217: SOURCE 1). -/
def M.scrubRead (m : M) (c mem bank : Nat) : M :=
  let p := mapGetD (m.scrubPtrs c mem) (bankKey mem bank) { row := 0, wrapped := false }
  let (bs, m) := m.readMem c mem (rowOffset mem (m.sterling c) bank p.row) 64 1
  (if mem = 0 then m.assayTake c bank p.row bs else m).scrubAdvance c mem bank

/-- The first waiting Lode access of a bank, no other of its requester waiting before it (R213, R214). -/
def slotAccess (sterling : Bool) (bank : Nat) (l : List CsAccess) : Option CsAccess :=
  [Requester.foreman, Requester.headframe].findSome? fun r =>
    match l.find? (fun a => a.requester = r) with
    | some a => if bankOf 0 sterling a.offset = bank then some a else none
    | none => none

/-- The first of the loader's rows that lies in a Lode bank. -/
def loaderAccess (sterling : Bool) (bank : Nat) (j : Option LodeJob) : Option (LodeJob × Nat × Bytes) :=
  j.bind fun j => (j.rows.find? fun p => bankOf 0 sterling p.1 == bank).map fun p => (j, p)

/-- A scrub slot of a Lode or Scratch bank: a write-back first, else a waiting Lode access, else a row of the loader's, else
the scrub read (R208 to R213, R375; log entry 123). -/
def M.scrubSlotOf (m : M) (c mem bank : Nat) : M :=
  if (m.queuedRow c mem bank).isSome then m.writeBack c mem bank
  else
    let waiting := mapGetD (m.core c).csWait 0 []
    match if mem = 0 then slotAccess (m.sterling c) bank waiting else none with
    | some a =>
      let m := m.updCore c fun k => { k with csWait := mapSet k.csWait 0 (waiting.erase a) }
      (m.csServe c 0 a).count (coreReg c CORE_LODE_SLOT_WR_CNT)
    | none => match if mem = 0 then loaderAccess (m.sterling c) bank (m.core c).lodeJob else none with
      | some (j, p) => (m.loaderRow c j p).count (coreReg c CORE_LODE_SLOT_WR_CNT)
      | none => m.scrubRead c mem bank

/-- A core holds with its group: a beat for one of the group's sites has missed its landing cycle and has not landed (R237,
R245). -/
def M.groupHeld (m : M) (c : Nat) : Bool :=
  m.die.beats.any fun b => b.late && ((m.core c).entry == (m.core b.dest).entry && (m.core c).entry.isSome || c == b.dest)

/-- The core's next scrub slot: the next even phase, whose slot it is: bank b of Scratch at 4b, bank b of Lode at 4b + 2; a core
that holds keeps its phase (R207 to R209, R245). -/
def M.scrubSlot (m : M) (c : Nat) : M :=
  if m.groupHeld c then m else
  let n := (m.core c).slotAt
  let n := n + n % 2
  let m := m.updCore c fun k => { k with slotAt := n + 1 }
  m.scrubSlotOf c (if n % 4 = 0 then 1 else 0) (n % 64 / 4)

/-- A scrub of the operand cache or of Stope in an idle cycle of the bank's port (R211). -/
def M.idleScrub (m : M) (c : Nat) (stope : Bool) (bank : Nat) : M :=
  let mem := if stope then 7 else 3
  if bank < bankCount mem then m.scrubRead c mem bank else m

def execIdleScrub (c : Nat) (stope : Bool) (bank : Nat) : State → Host.Outcome State Fault Refusal :=
  onLive (M.idleScrub · c stope bank)

/-! ## Error injection (R220) -/

/-- A write of an injection register: ARM clears at once where nothing would be injected. -/
def M.injectArm (m : M) (c : Nat) (stope : Bool) (value : Word) : M :=
  let r := injectReg c (if stope then 7 else 0)
  let m := ((m.setFld r 11 8 (Machine.fld value 11 8)).setFld r 7 6 (Machine.fld value 7 6)).setFld r 0 0 (Machine.fld value 0 0)
  if m.fld r 7 6 = 0 ∨ (!stope ∧ 7 ≤ m.fld r 11 8) then m.setFld r 0 0 0 else m

def execEccInjectArm (c : Nat) (stope : Bool) (value : Word) : State → Host.Outcome State Fault Refusal :=
  onLive (M.injectArm · c stope value)

end Sys2Proof.Machine
end

