-- ==== Sys2Proof/Machine/Operands.lean ====
section
/-! DEFINITION. The 256-bit core command: its header, its ranges, its parameter block and the opcode table
(R47 to R56, R62, Tables 2.1 to 2.5). -/
namespace Sys2Proof.Machine

/-! ## Fields of the command (Tables 2.1 and 2.2) -/

def cmdOpcode (cmd : Nat) : Nat := bits cmd 7 0
def cmdEngine (cmd : Nat) : Nat := bits cmd 9 8
def cmdPidx (cmd : Nat) : Nat := bits cmd 13 10
def cmdPinv (cmd : Nat) : Bool := cmd.testBit 14
def cmdWff (cmd : Nat) : Bool := cmd.testBit 15
def cmdPbase (cmd : Nat) : Nat := bits cmd 23 16
def cmdFlags (cmd : Nat) : Nat := bits cmd 31 24
def cmdTag (cmd : Nat) : Nat := bits cmd 47 32

/-- Word `i` of a command. -/
def cmdWord (cmd i : Nat) : Nat := bits cmd (64 * i + 63) (64 * i)

/-- A range word (Table 2.2). -/
structure Range where
  space : Nat
  len : Nat
  base : Nat
  deriving DecidableEq, Repr

/-- Range A, B or W of a command: words 1, 2 and 3 (R47). -/
def cmdRange (cmd i : Nat) : Range :=
  let w := cmdWord cmd i
  { space := bits w 59 56, len := bits w 55 32, base := bits w 31 0 }

/-- R50: a range of LEN zero or SPACE NONE is absent. -/
def Range.present (r : Range) : Bool := r.len != 0 && r.space != 0

/-- Bytes of a range. -/
def Range.bytes (r : Range) : Nat := 16 * r.len

/-- Two ranges share a granule of one space (R78). -/
def Range.overlaps (r t : Range) : Bool :=
  r.space == t.space && r.len != 0 && t.len != 0 && decide (r.base < t.base + t.bytes) &&
    decide (t.base < r.base + r.bytes)

/-- Bytes `[off, off + n)` lie inside a range, offsets counted from its BASE (R640). -/
def Range.covers (r : Range) (off n : Nat) : Bool := n == 0 || (r.present && decide (off + n ≤ r.bytes))

/-! ## The opcode table (Table 2.4) -/

/-- A row of Table 2.4, with the FLAGS, CONTROL and AUX bits its chapter names, and which parameter registers it
uses (R55). -/
structure OpSpec where
  engine : Nat
  opcode : Nat
  a : List Nat := []
  b : List Nat := []
  w : List Nat := []
  params : Nat
  flags : Nat := 0
  extents : Bool := true
  bounds : Bool := true
  ctl : Option Nat := none
  aux : Option Nat := none
  elastic : Bool := false
  deriving DecidableEq, Repr

/-! Space codes of Table 2.3 by name. -/
abbrev LODE : Nat := 1
abbrev SCRATCH : Nat := 2
abbrev ACC : Nat := 3
abbrev OPC : Nat := 4
abbrev STOPE : Nat := 5
abbrev REMOTE : Nat := 6
abbrev HOSTWIN : Nat := 7
abbrev FABWIN : Nat := 8

def mxeOps : List OpSpec :=
  [{ engine := 0, opcode := 1, a := [LODE], params := 6, flags := 3, ctl := some 0xF },
   { engine := 0, opcode := 2, a := [SCRATCH], w := [ACC], params := 6, flags := 1, ctl := some 0x3F },
   { engine := 0, opcode := 3, a := [SCRATCH], w := [ACC], params := 6, flags := 1, ctl := some 0x3F },
   { engine := 0, opcode := 4, a := [ACC], w := [SCRATCH, STOPE], params := 6, ctl := some 0x10F },
   { engine := 0, opcode := 5, w := [ACC], params := 2, flags := 1 }]

/-- SDESC names CONTROL[7:0] for its instructions; for an entry load, where only [5:0] is named, bits [7:6] are taken as named
and ignored (log entry 118). -/
def smelterOps : List OpSpec :=
  [{ engine := 1, opcode := 1, a := [SCRATCH, OPC, ACC], b := [SCRATCH, OPC], w := [SCRATCH, OPC], params := 7,
     ctl := some 0xFFFFFF7F },
   { engine := 1, opcode := 2, a := [SCRATCH, STOPE], params := 6, flags := 1, bounds := false, ctl := some 0xFF },
   { engine := 1, opcode := 3, a := [SCRATCH, STOPE], params := 6, extents := false, bounds := false },
   { engine := 1, opcode := 4, a := [SCRATCH, OPC], b := [SCRATCH, OPC], w := [SCRATCH, OPC], params := 7,
     bounds := false, ctl := some 0xFF }]

/-- AUX of DSEND and DHALO (Table 3.8). -/
def remoteAux : Nat := 0xFFF0F

def dmeOps : List OpSpec :=
  [{ engine := 2, opcode := 1, a := [LODE, SCRATCH, OPC, STOPE], w := [SCRATCH, OPC, STOPE], params := 5 },
   { engine := 2, opcode := 2, a := [LODE, SCRATCH, STOPE], b := [SCRATCH], w := [SCRATCH, OPC, STOPE], params := 7,
     ctl := some 0xF030 },
   { engine := 2, opcode := 3, a := [SCRATCH], b := [SCRATCH], w := [SCRATCH, STOPE], params := 7 },
   { engine := 2, opcode := 4, a := [SCRATCH, OPC], w := [REMOTE], params := 7, flags := 1, aux := some remoteAux },
   { engine := 2, opcode := 5, a := [SCRATCH], w := [REMOTE], params := 7, flags := 1, ctl := some 0xF13F,
     aux := some remoteAux },
   { engine := 2, opcode := 6, w := [SCRATCH, OPC, STOPE], params := 6, ctl := some 0xF030 },
   { engine := 2, opcode := 7, a := [HOSTWIN], w := [SCRATCH, STOPE], params := 7, extents := false, bounds := false,
     aux := some 0x3F, elastic := true },
   { engine := 2, opcode := 8, a := [SCRATCH, STOPE], w := [HOSTWIN], params := 7, extents := false, bounds := false,
     aux := some 0x3F, elastic := true },
   { engine := 2, opcode := 9, a := [SCRATCH, STOPE], w := [FABWIN], params := 7, extents := false, bounds := false,
     aux := some 0xFFFF0FFF, elastic := true },
   { engine := 2, opcode := 10, w := [SCRATCH, STOPE], params := 7, extents := false, bounds := false,
     aux := some 0xFFF, elastic := true }]

def seamOps : List OpSpec :=
  [{ engine := 3, opcode := 1, a := [SCRATCH], b := [SCRATCH], w := [SCRATCH], params := 7,
     ctl := some 0x0000FFFFFF00FFFF, aux := some 0x1F, elastic := true },
   { engine := 3, opcode := 2, a := [SCRATCH], b := [SCRATCH], params := 7, ctl := some 0xF7FF, aux := some 0x1F,
     elastic := true }]

/-- Every opcode the engines take. -/
def opTable : List OpSpec := mxeOps ++ smelterOps ++ dmeOps ++ seamOps

/-- The row of an opcode of an engine. -/
def opSpec (engine opcode : Nat) : Option OpSpec := opTable.find? fun s => s.engine == engine && s.opcode == opcode

/-- A command's opcode belongs to the elastic domain. -/
def cmdElastic (cmd : Nat) : Bool :=
  match opSpec (cmdEngine cmd) (cmdOpcode cmd) with
  | some s => s.elastic
  | none => false

/-! ## Malformed words and parameters (R52, R53, R55) -/

/-- An ACC range runs past the end of its tile (R53). -/
def Range.crosses (sterling : Bool) (r : Range) : Bool :=
  r.present && r.space == ACC && decide (tileSize sterling < r.base % 0x10000 + r.bytes)

/-- A range is one that R55 refuses in a position whose allowed spaces are given, in either accumulator mode: the tile
is the larger one here, since a skipped command may belong to the other mode (R76, log entry 102). -/
def rangeMalformed (allowed : List Nat) (r : Range) : Bool :=
  decide (9 ≤ r.space) || (r.present && (!allowed.contains r.space || r.base % 16 != 0)) || r.crosses true

/-- A range of a command that runs crosses a tile of the core's mode (R53). -/
def tileCrossed (sterling : Bool) (cmd : Nat) : Bool := [1, 2, 3].any fun i => (cmdRange cmd i).crosses sterling

/-- The checks of R55 that the four words alone decide. -/
def malformedWords (cmd : Nat) : Bool :=
  bits cmd 63 48 != 0 || bits cmd 127 124 != 0 || bits cmd 191 188 != 0 || bits cmd 255 252 != 0 ||
    match opSpec (cmdEngine cmd) (cmdOpcode cmd) with
    | none => true
    | some s =>
      rangeMalformed s.a (cmdRange cmd 1) || rangeMalformed s.b (cmdRange cmd 2) ||
        rangeMalformed s.w (cmdRange cmd 3) || (cmdFlags cmd) &&& (255 - s.flags) != 0 ||
        decide (255 < cmdPbase cmd + s.params - 1)

/-- An MLOAD into the drain-scale register uses none of its parameters (R125). -/
def isDscale (cmd : Nat) : Bool := cmdEngine cmd == 0 && cmdOpcode cmd == 1 && (cmdFlags cmd).testBit 1

/-- The last check of R55: a reserved or unnamed bit of a parameter register that the command uses. -/
def malformedParams (s : OpSpec) (cmd : Nat) (ps : List Nat) : Bool :=
  !isDscale cmd &&
    ((s.extents && bits (ps.getD 0 0) 63 60 != 0) || (s.bounds && bits (ps.getD 1 0) 63 60 != 0) ||
      (match s.ctl with | some k => ps.getD 5 0 &&& (2 ^ 64 - 1 - k) != 0 | none => false) ||
      (match s.aux with | some k => ps.getD 6 0 &&& (2 ^ 64 - 1 - k) != 0 | none => false))

/-- R116: an ACC range names a tile at or beyond the capacity. -/
def accBeyond (sterling : Bool) (cmd : Nat) : Bool :=
  [1, 2, 3].any fun i =>
    let r := cmdRange cmd i
    r.present && r.space == ACC && decide (accCapacity sterling ≤ r.base / 0x10000)

/-! ## The command as an engine sees it -/

/-- A command at its issue: its core, its push number, its words and the parameters it read (R61, R62). -/
structure Job where
  c : Nat
  push : Nat
  cmd : Nat
  ps : List Nat
  deriving DecidableEq, Repr

def Job.a (j : Job) : Range := cmdRange j.cmd 1
def Job.b (j : Job) : Range := cmdRange j.cmd 2
def Job.w (j : Job) : Range := cmdRange j.cmd 3
def Job.flags (j : Job) : Nat := cmdFlags j.cmd
def Job.tag (j : Job) : Nat := cmdTag j.cmd

/-- Extent `i` of SHAPE and of BOUND (Table 2.5). -/
def Job.d (j : Job) (i : Nat) : Nat := bits (j.ps.getD 0 0) (20 * i + 19) (20 * i)
def Job.bd (j : Job) (i : Nat) : Nat := bits (j.ps.getD 1 0) (20 * i + 19) (20 * i)

/-- Strides in bytes: parameter 2, 3 or 4 for A, B and W. -/
def Job.inner (j : Job) (p : Nat) : Nat := 16 * bits (j.ps.getD p 0) 31 0
def Job.outer (j : Job) (p : Nat) : Nat := 16 * bits (j.ps.getD p 0) 63 32

def Job.ctl (j : Job) (hi lo : Nat) : Nat := bits (j.ps.getD 5 0) hi lo
def Job.aux (j : Job) (hi lo : Nat) : Nat := bits (j.ps.getD 6 0) hi lo

/-- R63: no BOUND extent of the listed ones exceeds its SHAPE extent. -/
def Job.bounded (j : Job) (is : List Nat) : Bool := is.all fun i => decide (j.bd i ≤ j.d i)

/-- A strided layout of rows that starts at BASE + `start`: rows `0 .. n-1`, `stride` apart, of `len` bytes, lies inside
the range (R640). -/
def Range.coversRows (r : Range) (start stride n len : Nat) : Bool :=
  n == 0 || len == 0 || r.covers (start + stride * (n - 1)) len

end Sys2Proof.Machine
end

