-- ==== Sys2Proof/Machine/Flags.lean ====
section
/-! DEFINITION. The flags of a core: predicates, the schedule-fault capture, and what a schedule fault does (R60,
R67 to R70, R95 to R97). -/
namespace Sys2Proof.Machine

/-- CORE_PRED of a core; bit 0 always reads 1 (R60). -/
def M.preds (m : M) (c : Nat) : Nat := m.fld (coreReg c CORE_PRED) 15 0

/-- The predicate bits written; bit 0 stays 1 (R60, Table 2.15). -/
def M.setPreds (m : M) (c v : Nat) : M := m.setReg (coreReg c CORE_PRED) (BitVec.ofNat 64 (v % 2 ^ 16 ||| 1))

/-- R67: the command runs. -/
def M.predicate (m : M) (c cmd : Nat) : Bool := (m.preds c).testBit (cmdPidx cmd) != cmdPinv cmd

/-- Causes of Table 2.10. -/
abbrev MALFORMED : Nat := 1
abbrev ACC_CAPACITY : Nat := 2
abbrev SHAPE : Nat := 3
abbrev WAIT_WATCHDOG : Nat := 4
abbrev QUEUE_OVERFLOW : Nat := 5

/-- A control core that has halted at the end of its entry's program (R89): what it pushed stays queued and in flight. -/
def Core.halt (st : CoreSt) (k : Core) : Core := { k with st, entry := none, waitRegion := none, waits := mapDel k.waits 4 }

/-- A core with nothing queued, outstanding or waiting, out of its entry. -/
def Core.stopped (st : CoreSt) (k : Core) : Core :=
  { Core.halt st k with
    queue := [], scoreboard := [], flights := [], arrival := none, older := [], waits := []
    fall := { k.fall with running := false } }

/-- The engines of a core run: neither FAULTED nor RETIRED (R89, R95). -/
def Core.engines (k : Core) : Bool := k.st != .faulted && k.st != .retired

/-- The state of a core that runs nothing: HALTED while CORE_CTRL.HALT is set, IDLE otherwise (Tables 2.12, 2.13). -/
def M.restSt (m : M) (c : Nat) : CoreSt := if m.flag (coreReg c CORE_CTRL) 0 then .halted else .idle

/-- The abort of a running step by a schedule fault (R95): every other core of the step stops, what it queued and has in
flight with it, and nothing of the step stays on the Shaft or in the fence unit (log entry 35). -/
def M.abortStep (m : M) : M :=
  match m.die.step with
  | none => m
  | some s =>
    let m := m.die.cores.foldl (fun m p =>
      if p.2.engines && (p.2.entry.isSome || s.cores.contains p.1) then
        (m.setCore p.1 (p.2.stopped (m.restSt p.1))).serveDeferred p.1
      else m) m
    let m := m.setFld FMN_SEQ_STATUS 1 0 3
    { m with die.step := some { s with error := true, schedFault := true }, die.beats := [], die.uses := [], die.writes := [], die.fences := []
             die.seams := m.die.seams.map fun p => (p.1, { p.2 with queue := [] }) }

/-- The capture of Table 2.14, when none is held (R97). -/
def M.captureFault (m : M) (c cause engine tag : Nat) (fromCc : Bool) (words : Nat) : M :=
  if m.flag (coreReg c CORE_SCHED_FAULT) 63 then m
  else
    let m := m.setReg (coreReg c CORE_SCHED_FAULT) (BitVec.ofNat 64
      (2 ^ 63 + (m.core c).lastPc % 2 ^ 16 * 2 ^ 32 + tag * 2 ^ 16 + bit fromCc * 64 + engine * 16 + cause))
    (List.range 4).foldl (fun m i =>
      m.setReg (coreReg c CORE_FAULT_CMD + 8 * i) (BitVec.ofNat 64 (cmdWord words i))) m

/-- A schedule fault (R95 to R97): the core is FAULTED with its queues and scoreboard kept, the step aborts, and the
fault is counted, captured and reported as class 12. -/
def M.schedFault (m : M) (c cause engine tag : Nat) (fromCc : Bool) (words : Nat) : M :=
  let m := m.captureFault c cause engine tag fromCc words
  let m := (m.updCore c fun k => { k with st := .faulted, waits := [], fall := { k.fall with running := false } }).serveDeferred c
  let m := (m.count (coreReg c CORE_SCHED_FAULT_CNT)).errorClass 12 0 (coreInstance c) 0
  (m.report 12 0 (coreInstance c) 0 0 0 0).abortStep

/-- A schedule fault of a command at a queue head or at retire. -/
def M.cmdFault (m : M) (c cause cmd : Nat) : M := m.schedFault c cause (cmdEngine cmd) (cmdTag cmd) false cmd

/-- A schedule fault of a control-core instruction. -/
def M.ccFault (m : M) (c cause word : Nat) : M := m.schedFault c cause 0 0 true word

/-- The engine state of R117: accumulators zero, tiles FP32 with no K counted, planes invalid, drain scales 1.0. -/
def M.clearEngines (m : M) (c : Nat) : M :=
  let a := memAddr c 2 0
  let m := m.clearMem a (memSize 2)
  let m := { m with die.ecc := m.die.ecc.filter fun p => decide (p.1 < a) || decide (a + memSize 2 ≤ p.1) }
  let m := (m.setFld (coreReg c CORE_MXE_STATUS) 39 32 0).setFld (coreReg c CORE_MXE_STATUS) 1 0 0
  let m := (List.range 32).foldl (fun m i => m.setReg (coreReg c CORE_DSCALE + 8 * i) 0x3F8000003F800000) m
  m.updCore c fun k => { k with tileK := [] }

/-- A pending accumulator mode takes effect (R118, Table 3.13). -/
def M.takeAccMode (m : M) (c : Nat) : M :=
  if m.flag (coreReg c CORE_ACC_MODE) 1 then
    let s := bit (m.flag (coreReg c CORE_ACC_MODE) 0)
    (m.setFld (coreReg c CORE_ACC_MODE) 1 1 0).setFld (coreReg c CORE_MXE_STATUS) 40 40 s
  else m

/-- What a core's registers do at a step boundary: accumulator mode, R117, HALT and CORE_PAD (Tables 2.12, 3.14). -/
def M.coreBoundary (m : M) (c : Nat) : M :=
  let m := if (m.core c).st = .faulted then m else (m.takeAccMode c).clearEngines c
  let m := match (m.core c).nextPad with
    | some v => (m.setFld (coreReg c CORE_PAD) 31 0 v).updCore c fun k => { k with nextPad := none }
    | none => m
  match (m.core c).nextHalt with
  | some v =>
    let m := (m.setFld (coreReg c CORE_CTRL) 0 0 (bit v)).updCore c fun k => { k with nextHalt := none }
    match (m.core c).st with
    | .idle => m.updCore c fun k => { k with st := m.restSt c }
    | .halted => m.updCore c fun k => { k with st := m.restSt c }
    | _ => m
  | none => m

/-- CORE_SCHED_FAULT.VALID cleared (R95): queues and scoreboard empty, R117 applied, the core back to IDLE, or to HALTED
when CORE_CTRL.HALT is set; the fields beside VALID stay readable (log entry 110). A RETIRED core ignores the write
(chapter 2). -/
def M.clearSchedFault (m : M) (c : Nat) : M :=
  if m.flag (coreReg c CORE_SCHED_FAULT) 63 && (m.core c).st != .retired then
    let m := m.setFld (coreReg c CORE_SCHED_FAULT) 63 63 0
    if (m.core c).st = .faulted then
      (m.updCore c (Core.stopped (m.restSt c))).clearEngines c
    else m
  else m

def execClearSchedFault (c : Nat) : State → Host.Outcome State Fault Refusal := onLive (M.clearSchedFault · c)

end Sys2Proof.Machine
end

