-- ==== Sys2Proof/Machine/Table.lean ====
section
/-! DEFINITION. The step table, its groups and patches (R255 to R257), sites, virtual cores and the travel between sites
(R231, R246, R247). -/
namespace Sys2Proof.Machine

/-- Where the step table, the group descriptors and the patch store stand (chapter 6, Registers). -/
def stepTableBase : Nat := 0x240000110000
def groupBase : Nat := 0x240000118000
def patchBase : Nat := 0x240000140000

/-- The bits of a byte of the step table, the group descriptors or the patch store that are not reserved (Table 6.6, R256,
R257). -/
def tableMask (a : Nat) : Nat :=
  if a < groupBase then
    let o := (a - stepTableBase) % 32
    if o = 1 then 0x07 else if 2 ≤ o ∧ o ≤ 6 ∨ 8 ≤ o ∧ o ≤ 15 then 0xFF else 0
  else if a < patchBase then
    let o := (a - groupBase) % 32
    if o ≤ 16 ∨ o = 19 ∨ o = 20 then 0xFF else 0
  else
    let o := (a - patchBase) % 16
    if o ≤ 10 then 0xFF else if o = 11 then 0x7F else 0

/-- Word `w` of step-table entry `i`, and its fields (Table 6.6). -/
def M.entryWord (m : M) (i w : Nat) : Nat := m.readN (stepTableBase + 32 * i + 8 * w) 8

structure TableEntry where
  startFence : Nat
  endFence : Nat
  group : Nat
  pc : Nat
  sterling : Bool
  last : Bool
  valid : Bool
  budget : Nat
  patchCount : Nat
  patchIndex : Nat
  deriving DecidableEq, Repr

def M.entry (m : M) (i : Nat) : TableEntry :=
  let a := m.entryWord i 0
  let b := m.entryWord i 1
  { startFence := bits a 55 48, endFence := bits a 47 40, group := bits a 39 32, pc := bits a 31 16
    sterling := a.testBit 10, last := a.testBit 9, valid := a.testBit 8
    budget := bits b 63 32, patchCount := bits b 31 16, patchIndex := bits b 15 0 }

/-- The sites and virtual cores a group descriptor names (R256). -/
def M.groupSites (m : M) (g : Nat) : List Nat :=
  let d := m.read (groupBase + 32 * g) 17
  (List.range 136).filter fun s => (byteAt d (s / 8)).testBit (s % 8)

def M.groupVirtual (m : M) (g : Nat) : List Nat :=
  let v := m.readN (groupBase + 32 * g + 19) 2
  (List.range 16).filter fun i => v.testBit i

/-- The physical cores of a group: every named virtual core of every named site (R256, R247). -/
def M.groupCores (m : M) (g : Nat) : List Nat :=
  (m.groupSites g).flatMap fun s => (m.groupVirtual g).map fun v => 17 * s + m.physical s v

/-- The virtual cores of a group, as 16 × site + virtual core. -/
def M.groupNames (m : M) (g : Nat) : List Nat :=
  (m.groupSites g).flatMap fun s => (m.groupVirtual g).map fun v => 16 * s + v

/-- The members of the group of step-table entry `i`, as the fence blocks hold them in the running step (R250). -/
def M.members (m : M) (i : Nat) : List Nat :=
  match m.die.step with
  | some s => mapGetD s.members i (m.groupCores (m.entry i).group)
  | none => m.groupCores (m.entry i).group

/-- The sites whose cores hold with a core: those of its lockstep group (R237). -/
def M.groupSitesOf (m : M) (c : Nat) : List Nat :=
  match (m.core c).entry with
  | some e => ((m.members e).map (· / 17)).eraseDups
  | none => [c / 17]

/-- The cycle of the running step in which a core's entry stands, holds not counted. -/
def M.schedCycle (m : M) (c : Nat) : Nat :=
  let k := m.core c
  (match m.die.step, k.entry with
    | some s, some e => mapGetD s.started e 0
    | _, _ => 0) + k.cycle

/-- Hold cycles of an entry's group so far. -/
def Step.heldCycles (s : Step) (e : Nat) : Nat := (mapGetD s.holds e []).length

/-- A hold cycle of a core's group after cycle `t` of the step: counted in each of its sites (Table 6.13), and in the interval
of its entry (R262). -/
def M.holdCycle (m : M) (c t : Nat) : M :=
  let m := (m.groupSitesOf c).foldl (fun m s => m.count (cluReg s CLU_SLIP_CYCLE_CNT)) m
  match (m.core c).entry with
  | some e => m.updStep fun s => { s with holds := mapUpd s.holds e [] (· ++ [t]) }
  | none => m

/-- A site that takes no part in serving: spare or retired (R246). -/
def M.siteSpare (m : M) (s : Nat) : Bool :=
  bits (m.regN SHAFT_GRID_SIG) (5 * (s / 17) + 4) (5 * (s / 17)) == s % 17

/-- Enabled cores: those that virtual cores of sites in service map to. -/
def M.enabledCores (m : M) : List Nat :=
  (List.range 136).flatMap fun s =>
    if m.siteSpare s then [] else (List.range 16).map fun v => 17 * s + m.physical s v

/-- The travel time T(a, b) of R231, from the part's calibration. -/
def travelTime (a b : Nat) : Nat :=
  let ra := a / 17
  let rb := b / 17
  let dc := max (a % 17) (b % 17) - min (a % 17) (b % 17)
  let lo := min ra rb
  let hi := max ra rb
  6 + 2 * (dc + (hi - lo)) + sumBy (List.range (hi - lo)) (fun i => Config.crossingLatency (lo + i)) +
    (if ra = rb then 0 else 8)

/-- A patch entry: the value, the site, the virtual-core mask and the register (R257). -/
structure PatchEntry where
  value : Nat
  site : Nat
  mask : Nat
  index : Nat
  deriving DecidableEq, Repr

def M.patch (m : M) (i : Nat) : PatchEntry :=
  let v := m.readN (patchBase + 16 * i) 8
  let w := m.readN (patchBase + 16 * i + 8) 8
  { value := v, site := bits w 7 0, mask := bits w 23 8, index := bits w 30 24 }

/-- One patch entry applied (R259). -/
def M.applyPatch (m : M) (p : PatchEntry) : M :=
  if p.site < 136 then
    (List.range 16).foldl (fun m v =>
      if p.mask.testBit v then m.setParam (17 * p.site + m.physical p.site v) p.index p.value else m) m
  else m

/-- The patch list of an entry applied in order (R259). -/
def M.applyPatches (m : M) (e : TableEntry) : M :=
  (List.range e.patchCount).foldl (fun m k => m.applyPatch (m.patch (e.patchIndex + k))) m

end Sys2Proof.Machine
end

