-- ==== Sys2Proof/Machine/Schedule.lean ====
section
/-! DEFINITION. The cycles in which engines use memory ports, Shaft links and injection ports, and the hold cycles of an
access that loses there (R200 to R209, R232, R234, R245, R648, R649, log entry 111). -/
namespace Sys2Proof.Machine

/-! ## Accesses and ports -/

/-- What makes an access to a memory (Tables 5.4, 5.5). -/
inductive AccessUnit where
  | mxe | smelter | landing | dme | control | elastic
  deriving DecidableEq, Repr

/-- One access of a command: cycles after its command issued, memory code, byte offset and bytes, all in one row of a bank
where the memory is arbitrated, the direction, and what makes it. -/
structure RowUse where
  at_ : Nat
  mem : Nat
  off : Nat
  len : Nat
  write : Bool
  unit : AccessUnit
  deriving DecidableEq, Repr

/-- The place in Table 5.5 at which every access waits for the lockstep schedule: control-core accesses, and behind them
elastic transfers. -/
def controlRank : Nat := 99
def elasticRank : Nat := 100

/-- The order of service at a bank (Table 5.5): at Stope by virtual core, and within one core MXE, Smelter, DME. -/
def M.accessRank (m : M) (c mem : Nat) (unit : AccessUnit) : Nat :=
  match unit with
  | .control => controlRank
  | .elastic => elasticRank
  | .mxe => if mem = 7 then 3 * m.virtualOf c else 1
  | .smelter => if mem = 7 then 3 * m.virtualOf c + 1 else 2
  | .landing => 3
  | .dme => if mem = 7 then 3 * m.virtualOf c + 2 else 4

/-- The bank of a byte offset of a memory (Table 5.2). -/
def rowBank (mem off : Nat) : Nat := bankOf mem false off

/-- The number of the port of a bank that serves an access, by Tables 5.2 and 5.4. The Lode port is the DME-side one, since
one fill at a time uses the other; accumulator memory and the tables are not arbitrated. -/
def bankPort (c mem off : Nat) (write : Bool) (unit : AccessUnit) : Option Nat :=
  let core := fun kind => some ((8 * c + kind) * 32 + rowBank mem off)
  match mem with
  | 0 => if unit = .mxe then none else core 2
  | 1 => core (bit write)
  | 3 => core (if unit = .smelter then 3 + bit write else 5)
  | 7 => some (2 ^ 24 + (2 * (c / 17) + bit write) * 32 + rowBank 7 off)
  | _ => none

/-- The number of a bank: that of its port of lowest number. -/
def bankNumber (c mem off : Nat) : Nat :=
  match mem with
  | 0 => (8 * c + 2) * 32 + rowBank 0 off
  | 1 => 8 * c * 32 + rowBank 1 off
  | 3 => (8 * c + 3) * 32 + rowBank 3 off
  | _ => 2 ^ 24 + 2 * (c / 17) * 32 + rowBank 7 off

/-- The number of an engine's port into a memory (Table 5.4). -/
def enginePort (c mem : Nat) (write : Bool) (unit : AccessUnit) : Nat :=
  16 * c + match mem, unit with
    | _, .control => 11
    | 0, _ => 5
    | 1, .mxe => 0
    | 1, .smelter => 1 + bit write
    | 1, _ => 3 + bit write
    | 3, .smelter => 6 + bit write
    | 3, _ => 8
    | _, _ => 9 + bit write

/-- Bytes an engine's port serves in a cycle (Table 5.4), by its kind; the control core's port serves one granule and takes
one access at a time. -/
def portWidth (port : Nat) : Nat := [512, 256, 256, 256, 256, 256, 512, 256, 128, 256, 256, 512].getD (port % 16) 512

/-- The number of a router's outgoing link, and of a site's injection port. -/
def linkPort (router dir : Nat) : Nat := 2 ^ 26 + 4 * router + dir
def injectPort (site : Nat) : Nat := 2 ^ 27 + site

/-- The router of a link or an injection port. -/
def portRouter (place : Nat) : Nat := if 2 ^ 27 ≤ place then place - 2 ^ 27 else (place - 2 ^ 26) / 4

/-! ## Cycles -/

/-- Hold cycles of an entry's group that fall before cycle `t` of the step. -/
def M.holdsBefore (m : M) (entry t : Nat) : Nat :=
  (m.die.step.map fun s => ((mapGetD s.holds entry []).filter (· < t)).length).getD 0

/-- When a use falls, hold cycles counted: uses of two groups meet when these agree, and so do uses of one group in one
schedule cycle (R232, R245). -/
def M.wall (m : M) (u : PortUse) : Nat := u.cycle + m.holdsBefore u.entry u.departs

/-- The same of an access by a core in cycle `t` of the step. -/
def M.wallOf (m : M) (entry t : Nat) : Nat := t + m.holdsBefore entry t

/-- The entry whose schedule counts a core's cycles; `noEntry` for a core that runs none, which never holds. -/
def noEntry : Nat := 1024
def M.entryOf (m : M) (c : Nat) : Nat := (m.core c).entry.getD noEntry

/-- A row of Scratch, or of Lode on its DME-side port, has its bank's scrub slot in cycle `t` of the step (R207 to R209). -/
def M.meetsSlot (m : M) (c mem off t : Nat) : Bool :=
  let k := m.core c
  let phase := (t + k.cycle - m.schedCycle c - k.phaseBase) % 64
  (mem == 1 && phase == 4 * rowBank 1 off) || (mem == 0 && phase == 4 * rowBank 0 off + 2)

/-! ## Who wins (R201, R202, R234) -/

/-- The uses that meet a use at its place. -/
def M.meeting (m : M) (u : PortUse) : List PortUse :=
  m.die.uses.filter fun v => v.place == u.place && !v.lost && m.wall v == m.wall u

/-- A use recorded. -/
def M.noteUse (m : M) (u : PortUse) : M := { m with die.uses := m.die.uses ++ [u] }

/-- The counter of a losing access or beat (R202, R234). -/
def loserCounter (u : PortUse) : Nat :=
  if 2 ^ 26 ≤ u.place then cluReg (portRouter u.place) SHAFT_LINK_COLLIDE_CNT
  else if 2 ^ 24 ≤ u.place then cluReg (u.core / 17) CLU_STOPE_COLLIDE_CNT
  else coreReg u.core CORE_BANK_COLLIDE_CNT

/-- A recorded use has lost: it is counted and served in a hold cycle of its group, the losers of one cycle at one bank one
after another (R202, R234). -/
def M.lose (m : M) (u : PortUse) : M :=
  let m := m.count (loserCounter u)
  let losers := (m.die.uses.filter fun v => v.lost && v.entry == u.entry && v.cycle == u.cycle && v.bank == u.bank).length
  let held := ((m.die.step.map fun s => mapGetD s.holds u.entry []).getD []).count u.cycle
  if held < losers then m.holdCycle u.core u.cycle else m

/-- A recorded use marked as one that lost. -/
def M.markLost (m : M) (u : PortUse) : M :=
  ({ m with die.uses := m.die.uses.replace u { u with lost := true } }).lose { u with lost := true }

/-- The use of lowest place in the order of service, the last of equals. -/
def lastServed (us : List PortUse) : Option PortUse :=
  us.foldl (fun b u => match b with
    | none => some u
    | some v => if v.rank ≤ u.rank then some u else b) none

/-- The uses of an engine's port in one cycle beyond what it serves: the lowest in the order of service loses (R649). -/
def M.portCheck (m : M) (u : PortUse) : M :=
  let same := m.die.uses.filter fun v => v.port == u.port && !v.lost && v.rank < controlRank && m.wall v == m.wall u
  if portWidth u.port < sumBy same (·.bytes) then
    match lastServed same with
    | some v => m.markLost v
    | none => m
  else m

/-- The first cycle from `u`'s on in which its place is free, and no scrub slot takes it. -/
def M.freeCycle (m : M) (u : PortUse) (slot : Nat → Bool) : Nat :=
  (((List.range (2 * m.die.uses.length + 3)).map (u.cycle + ·)).find? fun t =>
    !slot t && (m.meeting { u with cycle := t, departs := t }).isEmpty).getD u.cycle

/-- The counter of cycles that a waiting access waits (R203, R204, R233). -/
def waitCounter (u : PortUse) : Nat :=
  if 2 ^ 26 ≤ u.place then cluReg (portRouter u.place) SHAFT_ELASTIC_WAIT_CYCLE_CNT
  else if u.rank = controlRank then coreReg u.core CORE_CC_BANK_WAIT_CYCLE_CNT
  else if 2 ^ 24 ≤ u.place then cluReg (u.core / 17) CLU_STOPE_ELASTIC_WAIT_CYCLE_CNT
  else coreReg u.core CORE_ELASTIC_BANK_WAIT_CYCLE_CNT

/-- Accesses that wait and met a new lockstep use go on to their next free cycle; a control core waits with its access (R203,
R204, R233). -/
def M.giveWay (m : M) (u : PortUse) : M :=
  ((m.meeting u).filter fun v => decide (controlRank ≤ v.rank)).foldl (fun m v =>
    let t := m.freeCycle v fun _ => false
    let m : M := { m with die.uses := m.die.uses.replace v { v with cycle := t, departs := t } }
    let m := m.countBy (waitCounter v) (t - v.cycle)
    if v.rank = controlRank then m.updCore v.core fun k => { k with cycle := k.cycle + (t - v.cycle) } else m) m

/-- A lockstep use of a bank or a link: where it meets another, or a scrub slot, the one that the order of service puts last
loses (R201, R208, R209, R234). -/
def M.addUse (m : M) (u : PortUse) (slot : Bool) : M :=
  if slot then (m.noteUse { u with lost := true }).lose { u with lost := true }
  else match (m.meeting u).find? (·.rank < controlRank) with
    | some v => if u.rank < v.rank then ((m.noteUse u).markLost v).portCheck u
                else (m.noteUse { u with lost := true }).lose { u with lost := true }
    | none => ((m.noteUse u).portCheck u).giveWay u

/-- The port use of an access of core `c` in cycle `t` of the step. -/
def M.useOf (m : M) (c t mem off bytes : Nat) (write : Bool) (unit : AccessUnit) : Option PortUse :=
  (bankPort c mem off write unit).map fun place =>
    { entry := m.entryOf c, core := c, cycle := t, departs := t, place, bank := bankNumber c mem off
      port := enginePort c mem write unit, bytes := if unit = .mxe && mem == 1 then 64 else bytes
      rank := m.accessRank c mem unit, lost := false }

/-- One scheduled access in cycle `t` of the step; one that meets a scrub slot is counted there too (R209). -/
def M.useRow (m : M) (c t mem off bytes : Nat) (write : Bool) (unit : AccessUnit) : M :=
  match m.useOf c t mem off bytes write unit with
  | none => m
  | some u =>
    let slot := m.meetsSlot c mem off t
    (if slot then m.count (coreReg c CORE_SCRUB_COLLIDE_CNT) else m).addUse u slot

/-- Accesses of one cycle to one row of a bank are one access (R648). -/
def bankAccesses : List RowUse → List RowUse
  | [] => []
  | u :: us =>
    let rest := bankAccesses us
    let same := fun v : RowUse =>
      v.at_ == u.at_ && v.mem == u.mem && v.off / 64 == u.off / 64 && v.write == u.write && v.unit == u.unit
    match rest.find? same with
    | some v => { u with len := min 64 (u.len + v.len) } :: rest.filter fun x => !same x
    | none => u :: rest

/-- The accesses of a lockstep command arbitrated (R201, R202). -/
def M.arbitrate (m : M) (c : Nat) (us : List RowUse) : M :=
  let t := m.schedCycle c
  (bankAccesses us).foldl (fun m u => m.useRow c (t + u.at_) u.mem u.off u.len u.write u.unit) m

/-- The byte ranges of a range of a memory, cut at the rows of its banks. -/
def cutRows (off n : Nat) : List (Nat × Nat) :=
  if n = 0 then []
  else (List.range ((off + n - 1) / 64 + 1 - off / 64)).map fun i =>
    let lo := max off (64 * (off / 64 + i))
    (lo, min (off + n) (64 * (off / 64 + i) + 64) - lo)

/-- Bytes of a range of a space that lie inside its extent. -/
def insideSpace (space off n : Nat) : Nat := min n (spaceExtent space - off)

/-- The accesses of one engine to a byte range of a space in one cycle. -/
def usesOf (at_ space off n : Nat) (write : Bool) (unit : AccessUnit) : List RowUse :=
  (cutRows off (insideSpace space off n)).map fun (o, k) => { at_, mem := spaceMem space, off := o, len := k, write, unit }

/-- A control-core access to Scratch waits for the first free cycle of its banks; the wait is counted and answered
(R203). -/
def M.ccBankWait (m : M) (c off n : Nat) (write : Bool) : Nat × M :=
  let t := m.schedCycle c
  (cutRows off n).foldl (fun (w, m) (o, k) =>
    match m.useOf c (t + w) 1 o k write .control with
    | none => (w, m)
    | some u =>
      let f := m.freeCycle u (m.meetsSlot c 1 o)
      let u := { u with cycle := f, departs := f }
      (f - t, ((m.noteUse u).countBy (coreReg c CORE_CC_BANK_WAIT_CYCLE_CNT) (f - (t + w))).giveWay u)) (0, m)

/-- An elastic transfer takes its rows one a cycle, each in the first cycle its bank is free; the cycles waited are
counted (R204, log entry 112). -/
def M.elasticRows (m : M) (c space off n : Nat) (write : Bool) : M :=
  let mem := spaceMem space
  ((cutRows off (insideSpace space off n)).foldl (fun (t, m) (o, k) =>
    match m.useOf c t mem o k write .elastic with
    | none => (t, m)
    | some u =>
      let f := m.freeCycle u (m.meetsSlot c mem o)
      (f + 1, (m.noteUse { u with cycle := f, departs := f }).countBy (waitCounter u) (f - t))) (m.schedCycle c, m)).2

/-! ## Contents in time (R140, R205, R206) -/

/-- When a timed write takes effect, hold cycles counted. -/
def M.writeWall (m : M) (x : TimedWrite) : Nat := m.wallOf x.entry x.cycle

/-- Bytes that stand at an address, with those of another range put over them. -/
def overlay (a : Nat) (bs : Bytes) (b : Nat) (cs : Bytes) : Bytes :=
  bs.zipIdx.map fun (x, i) => if b ≤ a + i ∧ a + i < b + cs.length then cs.getD (a + i - b) x else x

/-- A timed write touches a byte range. -/
def TimedWrite.touches (x : TimedWrite) (a n : Nat) : Bool := decide (x.addr < a + n) && decide (a < x.addr + x.new.length)

/-- A read in cycle `w`, hold cycles counted, does not see a timed write: it comes before the first cycle that shows it. -/
def M.unseen (m : M) (w : Nat) (x : TimedWrite) : Bool := decide (w < m.wallOf x.entry x.shown)

/-- Bytes as a read in cycle `w`, hold cycles counted, finds them: the writes it does not see undone (R140, R205). -/
def M.undone (m : M) (w a : Nat) (bs : Bytes) : Bytes :=
  m.die.writes.foldr (fun x bs => if x.touches a bs.length && m.unseen w x then overlay a bs x.addr x.old else bs) bs

/-- One write takes effect after another: in a later cycle, or in the same one from a lower place of Table 5.5 (R206). -/
def M.takesAfter (m : M) (y x : TimedWrite) : Bool :=
  decide (m.writeWall x < m.writeWall y) || (m.writeWall x == m.writeWall y && decide (x.rank < y.rank))

/-- Bytes put below the writes of a list that cover them: each lands in what stood before the first such write. Answers the
writes and the bytes that none covers. -/
def layUnder : List (Nat × Byte) → List TimedWrite → List TimedWrite × List (Nat × Byte)
  | bs, [] => ([], bs)
  | bs, y :: ys =>
    let inside := fun p : Nat × Byte => decide (y.addr ≤ p.1) && decide (p.1 < y.addr + y.new.length)
    let hit := bs.filter inside
    let (rest, left) := layUnder (bs.filter fun p => !inside p) ys
    ({ y with old := hit.foldl (fun o p => overlay y.addr o p.1 [p.2]) y.old } :: rest, left)

/-- Bytes with their addresses. -/
def addressed (a : Nat) (bs : Bytes) : List (Nat × Byte) := bs.zipIdx.map fun (b, i) => (a + i, b)

/-- Bytes stored one by one. -/
def M.pokes (m : M) (bs : List (Nat × Byte)) : M := bs.foldl (fun m p => m.write p.1 [p.2]) m

/-- A write put in its place among those recorded, before the first that follows it. -/
def M.insertWrite (m : M) (x : TimedWrite) : M :=
  let (lo, hi) := m.die.writes.span fun y => !(y.touches x.addr x.new.length && m.takesAfter y x)
  let old := hi.foldr (fun y bs => if m.takesAfter y x then overlay x.addr bs y.addr y.old else bs) (m.read x.addr x.new.length)
  let (hi, left) := layUnder (addressed x.addr x.new) hi
  ({ m with die.writes := lo ++ { x with old } :: hi }).pokes left

/-- Some recorded write follows a write. -/
def M.overtaken (m : M) (x : TimedWrite) : Bool := m.die.writes.any fun y => y.touches x.addr x.new.length && m.takesAfter y x

/-- A write cut into granules. -/
def TimedWrite.granules (x : TimedWrite) : List TimedWrite :=
  (cutRows x.addr x.new.length).flatMap fun (a, n) => (List.range (ceilDiv n 16)).map fun i =>
    { x with addr := a + 16 * i, new := (x.new.drop (a + 16 * i - x.addr)).take (min 16 (n - 16 * i)), old := [] }

/-- What one write of a running step did, from the state before it: recorded in its place, so that of two writes in one cycle
the one lower in Table 5.5 stays (R206). -/
def M.record (m before : M) (x : TimedWrite) : M :=
  if m.die.step.isNone then m
  else
    let old := before.read x.addr x.new.length
    let x := { x with no := m.die.writeNo, old }
    let m : M := { m with die.writeNo := m.die.writeNo + 1 }
    if m.overtaken x then x.granules.foldl M.insertWrite (m.write x.addr old)
    else { m with die.writes := m.die.writes ++ [x] }

/-- A recorded write taken back, the one of its number at its address. -/
def M.dropWrite (m : M) (no addr : Nat) : M :=
  let (lo, hi) := m.die.writes.span fun y => !(y.no == no && y.addr == addr)
  match hi with
  | [] => m
  | x :: hi =>
    let (hi, left) := layUnder (addressed x.addr x.old) hi
    ({ m with die.writes := lo ++ hi }).pokes left

/-- Every recorded write of a command taken back, the last first. -/
def M.dropWrites (m : M) (c push : Nat) : M :=
  (m.die.writes.filter fun x => x.core == c && x.push == push).foldr (fun x m => m.dropWrite x.no x.addr) m

/-- A write of a command (its core and push) in cycle `t` of entry `entry`'s schedule, at rank `rank` of Table 5.5: `n` bytes
from address `a` on, as they now stand, `before` being the state without it. -/
def M.noteWrite (m before : M) (c push entry t rank a n : Nat) : M :=
  m.record before
    { no := 0, core := c, push, entry, cycle := t, shown := t + 1, rank, addr := a, old := [], new := m.read a n }

/-- A read through a range in cycle `t` of core `c`'s step: it delivers what stood there then (R205). -/
def M.spaceReadAt (m : M) (c space off n t : Nat) : Bytes × M :=
  let (bs, m) := m.spaceRead c space off n
  (m.undone (m.wallOf (m.entryOf c) t) (memAddr c (spaceMem space) off) bs, m)

/-! ## Links (R229, R232, R234) -/

/-- The links of a beat's path in order: the router, the outgoing direction (0 west, 1 east, 2 north, 3 south), and the
cycles after the beat leaves its sender. -/
def linkPath (a b : Nat) : List (Nat × Nat × Nat) :=
  let (ra, ca, rb, cb) := (a / 17, a % 17, b / 17, b % 17)
  let dx := max ca cb - min ca cb
  let dy := max ra rb - min ra rb
  let col := fun i => if ca ≤ cb then ca + i else ca - i
  let row := fun i => if ra ≤ rb then ra + i else ra - i
  (List.range dx).map (fun i => (17 * ra + col i, (if ca ≤ cb then 1 else 0), 3 + 2 * i)) ++
    (List.range dy).map (fun i =>
      (17 * row i + cb, (if ra ≤ rb then 3 else 2),
        3 + 2 * (dx + i) + sumBy (List.range i) fun k => Config.crossingLatency (if ra ≤ rb then row k else row k - 1)))

/-- The place of a beat in the order of service at a link (R234): straight before turning, and then by the input port in the
order west, east, north, south, local. `came` is the direction it travelled in on its last link, none from the local
port. -/
def linkRank (came : Option Nat) (dir : Nat) : Nat :=
  match came with
  | none => 9
  | some d => (if d = dir then 0 else 5) + (match d with | 1 => 0 | 0 => 1 | 3 => 2 | _ => 3)

/-- The injection port and the links of a beat of core `c` that leaves in cycle `t` of the step (R232, R234). -/
def M.usePath (m : M) (c dest t : Nat) : M :=
  let site := c / 17
  let use := fun place cycle rank =>
    { entry := m.entryOf c, core := c, cycle, departs := t, place, bank := place, port := 16 * 2 ^ 30 + 11, bytes := 0, rank
      lost := false : PortUse }
  let path := linkPath site (dest / 17)
  let m := m.addUse (use (injectPort site) t (m.virtualOf c)) false
  (path.zip (none :: path.map fun p => some p.2.1)).foldl (fun m ((router, dir, n), came) =>
    m.addUse (use (linkPort router dir) (t + n) (linkRank came dir)) false) m

/-- Elastic traffic of a core takes each link of its way in the first cycle that no hop-exact beat wants; the cycles it waits
are counted where it waits (R233). The spec gives its way no rule: it is free. Outside a step there are no such beats. -/
def M.elasticPath (m : M) (c way : Nat) : M :=
  if m.die.step.isNone then m else
  ((Config.elasticWay (c / 17) way).foldl (fun (t, m) (router, dir) =>
    let place := linkPort (router.val) dir.val
    let u : PortUse :=
      { entry := m.entryOf c, core := c, cycle := t, departs := t, place, bank := place, port := 16 * 2 ^ 30 + 11, bytes := 0
        rank := elasticRank, lost := false }
    let f := m.freeCycle u fun _ => false
    (f + 2, (m.noteUse { u with cycle := f, departs := f }).countBy (waitCounter u) (f - t))) (m.schedCycle c + 3, m)).2

/-! ## Copies: the schedule of R648 -/

/-- Granules a cycle moves: 8 where the operand cache is the source or the destination. -/
def copyLimit (src dst : Nat) : Nat := if src = OPC ∨ dst = OPC then 8 else 16

/-- The first cycle from `lo` in which bank `bank` has done its earlier rows and `n` more granules fit: of the rows placed,
each is (cycle, bank, granules). -/
def firstSlot (placed : List (Nat × Nat × Nat)) (lo bank n limit : Nat) : Nat :=
  let lo := placed.foldl (fun l p => if p.2.1 = bank then max l (p.1 + 1) else l) lo
  (((List.range (placed.length + 1)).map (lo + ·)).find? fun t =>
    decide (sumBy (placed.filter fun p => p.1 == t) (·.2.2) + n ≤ limit)).getD (lo + placed.length)

/-- One granule of a copy: where it is read, none when it is not, where it is written, and whether the bounds let it
move. -/
structure Grain where
  src : Option Nat
  dst : Nat
  live : Bool
  deriving DecidableEq, Repr

/-- Rows placed one after another, in the order given: each row is its bank, its granules and the first cycle it may
take. Answers the cycle of each. -/
def placeRows (limit : Nat) (rows : List (Nat × Nat × Nat)) (placed : List (Nat × Nat × Nat)) : List Nat × List (Nat × Nat × Nat) :=
  rows.foldl (fun (ts, placed) (bank, n, lo) =>
    let t := firstSlot placed lo bank n limit
    (ts ++ [t], placed ++ [(t, bank, n)])) ([], placed)

/-- The row numbers of a list of byte offsets, in layout order. -/
def rowOrder (offs : List Nat) : List Nat := (offs.map (· / 64)).eraseDups

/-- The cycle after issue in which each granule is read, rows in layout order from cycle 1. -/
def readCycles (limit mem : Nat) (gs : List Grain) : List Nat :=
  let offs := gs.map fun g => g.src.getD 0
  let rows := rowOrder offs
  let (ts, _) := placeRows limit (rows.map fun r => (rowBank mem (64 * r), (offs.filter fun o => o / 64 == r).length, 1)) []
  offs.map fun o => ((rows.zip ts).lookup (o / 64)).getD 1

/-- The cycle in which each granule is written: its row goes once all of the row's granules are ready. -/
def writeCycles (limit mem : Nat) (gs : List Grain) (ready : List Nat) (placed : List (Nat × Nat × Nat)) :
    List Nat × List (Nat × Nat × Nat) :=
  let offs := gs.map (·.dst)
  let rows := rowOrder offs
  let (ts, placed) := placeRows limit (rows.map fun r =>
    let mine := (offs.zip ready).filter fun p => p.1 / 64 == r
    (rowBank mem (64 * r), mine.length, mine.foldl (fun t p => max t p.2) 1)) placed
  (offs.map fun o => ((rows.zip ts).lookup (o / 64)).getD 1, placed)

/-- A granule of a copy in its cycles. -/
structure Timed where
  grain : Grain
  readAt : Nat
  writeAt : Nat
  deriving DecidableEq, Repr

/-- A DCOPY's granules in their cycles (R648). -/
def copyTimes (src dst : Nat) (gs : List Grain) : List Timed :=
  let limit := copyLimit src dst
  let rs := readCycles limit (spaceMem src) gs
  let (ws, _) := writeCycles limit (spaceMem dst) gs (rs.map (· + 7)) []
  (gs.zip (rs.zip ws)).map fun (g, r, w) => { grain := g, readAt := r, writeAt := w }

/-- A DFILL's granules in their cycles (R648). -/
def fillTimes (dst : Nat) (gs : List Grain) : List Timed :=
  let (ws, _) := writeCycles (copyLimit dst dst) (spaceMem dst) gs (gs.map fun _ => 1) []
  (gs.zip ws).map fun (g, w) => { grain := g, readAt := 0, writeAt := w }

/-- Index row `i` of a DGATHER or DSCATTER in its cycles, behind the writes already placed (R648). -/
def indexedTimes (limit i dst : Nat) (gs : List Grain) (placed : List (Nat × Nat × Nat)) : List Timed × List (Nat × Nat × Nat) :=
  let n := ceilDiv gs.length limit
  let rs := (List.range gs.length).map fun g => 2 + i * n + g / limit
  let (ws, placed) := writeCycles limit (spaceMem dst) gs (rs.map (· + 7)) placed
  ((gs.zip (rs.zip ws)).map (fun (g, r, w) => { grain := g, readAt := r, writeAt := w }), placed)

/-- The accesses of granules, where they move and lie inside their spaces. -/
def timedUses (src dst : Nat) (ts : List Timed) : List RowUse :=
  let live := ts.filter fun t => t.grain.live
  (live.flatMap fun t => (t.grain.src.map fun o => usesOf t.readAt src o 16 false .dme).getD []) ++
    live.flatMap fun t => usesOf t.writeAt dst t.grain.dst 16 true .dme

end Sys2Proof.Machine
end

