-- ==== Sys2Proof/Machine/Issue.lean ====
section
/-! DEFINITION. Queues, issue and the scoreboard (R72 to R84), and the end of a command (R58, R81, R90). -/
namespace Sys2Proof.Machine

/-- Commands a queue holds, and ranges the scoreboard holds (R73, R80). -/
def queueDepth : Nat := 32
def scoreboardSize : Nat := 48

/-- The commands of engine queue `e`, oldest first (R74). -/
def Core.queueOf (k : Core) (e : Nat) : List Queued := k.queue.filter fun q => cmdEngine q.cmd == e

/-- The head of engine queue `e` (R74). -/
def Core.head (k : Core) (e : Nat) : Option Queued := k.queue.find? fun q => cmdEngine q.cmd == e

/-- The present ranges of a command. -/
def cmdPresent (push cmd : Nat) : List SbEntry :=
  ([1, 2, 3].filter fun i => (cmdRange cmd i).present).map fun i =>
    { push, space := (cmdRange cmd i).space, base := (cmdRange cmd i).base, len := (cmdRange cmd i).len
      write := i == 3, elastic := cmdElastic cmd }

/-- The scoreboard ranges of a command: its present ranges, never a REMOTE one (R81, R82). -/
def cmdEntries (push cmd : Nat) : List SbEntry := (cmdPresent push cmd).filter fun x => x.space != REMOTE

/-- The range of a scoreboard entry. -/
def SbEntry.range (x : SbEntry) : Range := { space := x.space, len := x.len, base := x.base }

/-- Two ranges conflict: they overlap and one of them is written (R78). -/
def SbEntry.conflicts (x y : SbEntry) : Bool := (x.write || y.write) && x.range.overlaps y.range

/-- The ranges a command at a head must wait for: those outstanding and those of unissued commands pushed before it
(R78, R79). -/
def Core.before (k : Core) (push : Nat) : List SbEntry :=
  k.scoreboard ++ (k.queue.filter fun q => decide (q.push < push)).flatMap fun q => cmdEntries q.push q.cmd

/-- The ranges that hold a command (R78, R79). -/
def Core.hazards (k : Core) (push cmd : Nat) : List SbEntry :=
  (k.before push).filter fun x => (cmdEntries push cmd).any fun y => x.conflicts y

/-- The counter of a cycle held by ranges: an elastic wait when one of them is elastic's (R84). -/
def heldCounter (c : Nat) (by_ : List SbEntry) (lockstep : Nat) : Nat :=
  if by_.any (·.elastic) then coreReg c CORE_ELASTIC_WAIT_CYCLE_CNT else coreReg c lockstep

/-- A cycle held at waiter `w`, 0 to 3 a queue head and 4 the control core: counted, and a fence or elastic wait
starts when none is running (R84, R87, R90). -/
def M.held (m : M) (c w : Nat) (counter : Nat) (wait : Option Bool) : M :=
  let m := m.count counter
  match wait with
  | none => m.updCore c fun k => { k with waits := mapDel k.waits w }
  | some elastic =>
    m.updCore c fun k =>
      match mapGet k.waits w with
      | some x => if x.elastic = elastic then k else { k with waits := mapSet k.waits w { elastic, since := m.die.ft } }
      | none => { k with waits := mapSet k.waits w { elastic, since := m.die.ft } }

/-- A head held by ranges. -/
def M.heldBy (m : M) (c w : Nat) (by_ : List SbEntry) (lockstep : Nat) : M :=
  m.held c w (heldCounter c by_ lockstep) (if by_.any (·.elastic) then some true else none)

/-- The parameter registers a command reads, with the read's error checks (R61, R62). -/
def M.readParams (m : M) (c pbase n : Nat) : List Nat × M :=
  (List.range n).foldl (fun (ps, m) i =>
    let (bs, m) := m.readMem c 5 (8 * (pbase + i)) 8 0
    (ps ++ [ofBytes bs], m)) ([], m)

/-- The violations of ranges that reach beyond their space's extent, each counted once (R54, R223); a REMOTE range has
the extent of the space its AUX names (Table 2.3, Table 3.8). -/
def M.rangeViolations (m : M) (j : Job) : M :=
  [1, 2, 3].foldl (fun m i =>
    let r := cmdRange j.cmd i
    let ext := spaceExtent (if r.space = REMOTE then j.aux 19 16 else r.space)
    if r.present && decide (r.space ≤ REMOTE) && decide (ext < r.base + r.bytes) then
      m.violation j.c (cmdEngine j.cmd) (i == 3) r.space (cmdTag j.cmd) 0 (max r.base ext)
    else m) m

/-- Some granule of a read range is still on its way as a token-carrying beat (R141). -/
def M.tokenHeld (m : M) (c : Nat) (r : Range) : Bool :=
  m.flag (coreReg c CORE_CTRL) 1 && r.present && (r.space == SCRATCH || r.space == OPC) &&
    m.die.beats.any fun b => b.token && b.dest == c && b.memory == spaceMem r.space &&
      b.granules.any fun g => decide (r.base < g.1 + 16) && decide (g.1 < r.base + r.bytes)

/-- How an opcode checks its shape, what else may hold it at issue, which port accesses its schedule makes, and what it
does: `hold` gives the counters a held cycle advances. -/
structure Engine where
  shapeOk : Job → M → Bool
  hold : Job → M → Option (List Nat)
  uses : Job → M → List RowUse := fun _ _ => []
  run : Job → M → M

/-- No hold of its own. -/
def noHold (_ : Job) (_ : M) : Option (List Nat) := none

/-- A head removed from its queue. -/
def M.pop (m : M) (c e push : Nat) : M :=
  m.updCore c fun k => { k with queue := k.queue.filter (fun q => q.push != push), waits := mapDel k.waits e }

/-- A flight changed. -/
def M.updFlight (m : M) (c push : Nat) (f : Flight → Flight) : M :=
  m.updCore c fun k => { k with flights := k.flights.map fun x => if x.push = push then f x else x }

/-! ### Errors that a command's accesses meet (R218) -/

/-- A codeword in error that an access meets: the cycle, the memory, its bank, the byte offset, the SOURCE code and the
flips. -/
structure MetError where
  cycle : Nat
  mem : Nat
  bank : Nat
  off : Nat
  source : Nat
  mask : Nat
  deriving DecidableEq, Repr

/-- The codewords in error that accesses meet: those read, and those that a write covers in part (R637). -/
def M.metErrors (m : M) (c : Nat) (us : List RowUse) : List MetError :=
  us.flatMap fun u =>
    let a := memAddr c u.mem u.off
    ((m.flipsIn u.mem a u.len).filter fun p => !u.write || decide (p.1 < a) || decide (a + u.len < p.1 + granuleSize u.mem)).map
      fun p =>
        let off := p.1 - memAddr c u.mem 0
        { cycle := u.at_, mem := u.mem, bank := bankOf u.mem (m.sterling c) off, off, source := if u.write then 3 else 0, mask := p.2 }

/-- The first of some errors: by cycle, then by memory code, then by bank (R218). -/
def firstMet (l : List MetError) : Option MetError :=
  l.foldl (fun b e => match b with
    | none => some e
    | some x => if (e.cycle * 16 + e.mem) * 32 + e.bank < (x.cycle * 16 + x.mem) * 32 + x.bank then some e else some x) none

/-- The first correctable and the first uncorrectable error of a command's accesses captured, in the order of their cycles
(R218). -/
def M.captureFirst (m : M) (c : Nat) (us : List RowUse) : M :=
  if m.die.ecc.isEmpty then m
  else
    let es := (m.metErrors c us).map fun e => (e, eccJudge e.mem (memAddr c e.mem e.off) e.mask)
    let m := match firstMet ((es.filter fun p => match p.2 with | .corrected _ _ _ => true | _ => false).map (·.1)) with
      | some e => match eccJudge e.mem (memAddr c e.mem e.off) e.mask with
        | .corrected b0 b1 _ => m.captureEcc false c e.mem e.off e.source b0 b1 e.mask
        | _ => m
      | none => m
    match firstMet ((es.filter fun p => p.2 == .uncorrectable).map (·.1)) with
    | some e => m.captureEcc true c e.mem e.off e.source 0xFF 0xFF e.mask
    | none => m

/-! ### A command's effect in its cycles (R140, R205, R206) -/

/-- The reads of a command in their cycles. -/
def timedReads (c at_ : Nat) (us : List RowUse) : List TimedRead :=
  (us.filter fun u => !u.write).map fun u => { cycle := at_ + u.at_, addr := memAddr c u.mem u.off, len := u.len }

/-- Bytes that stood otherwise when a command's reads came to them, its first read of a byte deciding. -/
def M.past (m : M) (entry : Nat) (rs : List TimedRead) : List (Nat × Byte) :=
  (rs.filter fun r => m.die.writes.any fun x => x.touches r.addr r.len).foldl (fun l r =>
    let bs := m.read r.addr r.len
    l ++ ((addressed r.addr (m.undone (m.wallOf entry r.cycle) r.addr bs)).zip bs).filterMap fun (p, b) =>
      if p.2 == b || (l.lookup p.1).isSome then none else some p) []

/-- A byte range holds an address that some write of a command covers. -/
def covered (c : Nat) (us : List RowUse) (a : Nat) : Bool :=
  us.any fun u => u.write && decide (memAddr c u.mem u.off ≤ a) && decide (a < memAddr c u.mem u.off + u.len)

/-- A command issued in cycle `at_` of entry `entry`: its reads deliver what stands in their cycles, and its writes are
recorded in theirs. -/
def M.runTimed (m : M) (j : Job) (eng : Engine) (entry at_ : Nat) (us : List RowUse) : M :=
  let past := m.past entry (timedReads j.c at_ us)
  let us := if past.isEmpty then us else eng.uses j (m.pokes past)
  let r := eng.run j (m.pokes past)
  let r := (past.filter fun p => !covered j.c us p.1).foldl (fun r p => r.write p.1 (m.read p.1 1)) r
  (us.filter (·.write)).foldl (fun r u =>
    r.noteWrite m j.c j.push entry (at_ + u.at_) (m.accessRank j.c u.mem u.unit) (memAddr j.c u.mem u.off) u.len) r

/-- The issue of a command whose checks passed: its ranges enter the scoreboard, its accesses take their ports, and its
engine starts (R75, R81, R202). -/
def M.start (m : M) (j : Job) (eng : Engine) : M :=
  let e := cmdEngine j.cmd
  let entry := m.entryOf j.c
  let at_ := m.schedCycle j.c
  let m := (m.pop j.c e j.push).count (coreReg j.c CORE_ENG_ISSUE_CNT + 8 * e)
  let m := m.updCore j.c fun k => { k with
    scoreboard := k.scoreboard ++ cmdEntries j.push j.cmd
    flights := k.flights ++ [{ push := j.push, cmd := j.cmd, params := j.ps, fault := false, owed := [], entry, issuedAt := at_ }] }
  let us := eng.uses j m
  let m := (((m.arbitrate j.c us).rangeViolations j).captureFirst j.c us).runTimed j eng entry at_ us
  m.updFlight j.c j.push fun f => { f with reads := timedReads j.c at_ us ++ f.reads, seen := m.die.writeNo }

/-- A head that no range and no room of the scoreboard holds: a wait it had is over (R84). -/
def M.endWait (m : M) (c w : Nat) : M := m.updCore c fun k => { k with waits := mapDel k.waits w }

/-- The holds of R75 after the checks: hazards, scoreboard room for every present range, and what the opcode adds (R57,
R123, R141). An arrival token holds the head that reads its granule, and is counted in the core's own site (log entry
113). -/
def M.issueOrHold (m : M) (j : Job) (eng : Engine) : M :=
  let e := cmdEngine j.cmd
  let k := m.core j.c
  let hz := k.hazards j.push j.cmd
  if !hz.isEmpty then m.heldBy j.c e hz CORE_SB_STALL_CYCLE_CNT
  else if scoreboardSize < k.scoreboard.length + (cmdPresent j.push j.cmd).length then
    m.heldBy j.c e k.scoreboard CORE_SB_FULL_CYCLE_CNT
  else match eng.hold j m with
    | some counters => counters.foldl M.count (m.endWait j.c e)
    | none =>
      if m.tokenHeld j.c j.a || m.tokenHeld j.c j.b then (m.endWait j.c e).count (cluReg (j.c / 17) CLU_SLIP_CYCLE_CNT)
      else m.start j eng

/-- The checks of R75 that apply only to a command that runs, in its order (R76). -/
def M.checkAndIssue (m : M) (s : OpSpec) (q : Queued) (c : Nat) (eng : Engine) : M :=
  if tileCrossed (m.sterling c) q.cmd then m.cmdFault c MALFORMED q.cmd else
  let (ps, m) := m.readParams c (cmdPbase q.cmd) s.params
  let j : Job := { c, push := q.push, cmd := q.cmd, ps }
  if malformedParams s q.cmd ps then m.cmdFault c MALFORMED q.cmd
  else if accBeyond (m.sterling c) q.cmd then m.cmdFault c ACC_CAPACITY q.cmd
  else if !eng.shapeOk j m then m.cmdFault c SHAPE q.cmd
  else m.issueOrHold j eng

/-- One cycle's evaluation of the head of queue `e` by the row of an opcode (R75, R68): a head of another opcode is
that opcode's row's business (log entry 33). Queues go on issuing after an end arrival has released the control core (R89),
and nothing issues while the core's group holds (R245). A drained arrival counts as arrived at from its FARRIVE on (log
entry 114). -/
def M.evaluate (m : M) (c e opcode : Nat) (eng : Engine) : M :=
  let k := m.core c
  match k.engines && !m.groupHeld c, k.head e with
  | true, some q =>
    let spec := opSpec e (cmdOpcode q.cmd)
    if (match spec with | some s => s.opcode != opcode | none => false) then m
    else if cmdWff q.cmd && k.arrival.isSome then m.held c e (coreReg c CORE_FENCE_WAIT_CYCLE_CNT) (some false)
    else if malformedWords q.cmd then m.cmdFault c MALFORMED q.cmd
    else if !m.predicate c q.cmd then (m.pop c e q.push).count (coreReg c CORE_PRED_SKIP_CNT)
    else match spec with
      | some s => m.checkAndIssue s q c eng
      | none => m
  | _, _ => m

/-- A row of an engine opcode. -/
def execEngine (c e opcode : Nat) (eng : Engine) : State → Host.Outcome State Fault Refusal :=
  onLive fun m => m.evaluate c e opcode eng

/-! ## The end of a command -/

/-- A flight and its ranges removed (R81). -/
def Core.retire (push : Nat) (k : Core) : Core :=
  { k with scoreboard := k.scoreboard.filter (fun x => x.push != push), flights := k.flights.filter (fun f => f.push != push) }

/-- The read ranges of an elastic command leave: their data has been taken (R58). -/
def Core.taken (push : Nat) (k : Core) : Core :=
  { k with scoreboard := k.scoreboard.filter fun x => x.push != push || x.write }

/-- A command whose data goes out at its issue and whose end comes later: DPUT waits for its PUT_DONEs (R455). -/
def takesAtIssue (cmd : Nat) : Bool := cmdEngine cmd == 2 && cmdOpcode cmd == 9

/-- An elastic command completes once nothing is owed to it; a DPUT that still waits keeps its write range only, its data
having been taken (R58). -/
def M.elasticCompletion (m : M) (c push : Nat) : M :=
  let k := m.core c
  match k.engines, k.flights.find? (fun f => f.push = push) with
  | true, some f =>
    if !cmdElastic f.cmd then m
    else if f.owed.isEmpty then m.updCore c (Core.retire push)
    else if takesAtIssue f.cmd then m.updCore c (Core.taken push)
    else m
  | _, _ => m

def execElasticCompletion (c push : Nat) : State → Host.Outcome State Fault Refusal :=
  onLive (M.elasticCompletion · c push)

/-! ## The wait watchdog (R90) -/

/-- CORE_FENCE_WDOG in force: outside its range it is the nearer limit. -/
def M.waitLimit (m : M) (c : Nat) : Nat := clamp 100000 10000000000 (m.regN (coreReg c CORE_FENCE_WDOG))

/-- What overlaps the region a WAITR names: outstanding and unissued present ranges (R84, R94). -/
def Core.regionHolds (k : Core) (region : Range) : List SbEntry :=
  (k.scoreboard ++ k.queue.flatMap fun q => cmdPresent q.push q.cmd).filter fun x => x.range.overlaps region

/-- A wait of a waiter still holds it: a fence wait while its fence is unreleased, an elastic wait while elastic ranges hold
it (R84, R87). -/
def Core.waitHolds (k : Core) (w : Nat) (x : Wait) : Bool :=
  if w = 4 then
    if x.elastic then
      match k.waitRegion with
      | some (space, len, base) => (k.regionHolds { space, len, base }).any (·.elastic)
      | none => false
    else (k.arrival.map (·.blocking)).getD false
  else match k.head w with
    | none => false
    | some q =>
      if x.elastic then
        (k.hazards q.push q.cmd).any (·.elastic) ||
          (decide (scoreboardSize < k.scoreboard.length + (cmdPresent q.push q.cmd).length) && k.scoreboard.any (·.elastic))
      else cmdWff q.cmd && k.arrival.isSome

/-- The wait that has run longest, the lowest waiter first: each queue head and the control core is timed by itself (R90,
log entry 115). -/
def Core.oldestWait (k : Core) : Option (Nat × Wait) :=
  (k.waits.filter fun p => k.waitHolds p.1 p.2).foldl (fun b p => match b with
    | none => some p
    | some q => if p.2.since < q.2.since then some p else some q) none

/-- A wait outlasts the limit: a schedule fault of the command, or of the instruction, that waits. -/
def M.waitWatchdog (m : M) (c : Nat) : M :=
  let k := m.core c
  match k.engines, k.oldestWait with
  | true, some (w, x) =>
    let m := m.reach (x.since + m.waitLimit c + 1)
    if w = 4 then m.ccFault c WAIT_WATCHDOG (m.readN (memAddr c 4 k.lastPc) 4)
    else match k.head w with
      | some q => m.cmdFault c WAIT_WATCHDOG q.cmd
      | none => m
  | _, _ => m

def execWaitWatchdog (c : Nat) : State → Host.Outcome State Fault Refusal := onLive (M.waitWatchdog · c)

end Sys2Proof.Machine
end

