-- ==== Sys2Proof/Machine/Tally.lean ====
section
/-! DEFINITION. The Tally entry (R311, Tables 8.1, 8.2, 8.4): its fields, its states and its flags. -/
namespace Sys2Proof.Machine

/-- Slots of the Tally (R311). -/
def tallySlots : Nat := 262144

/-- Control-space address of an entry (R311). -/
def tallyBase (slot : Nat) : Nat := 0x230001000000 + 64 * slot

/-! States (Table 8.2). -/
abbrev tFREE : Nat := 0
abbrev tQUEUED : Nat := 1
abbrev tPREFILL : Nat := 2
abbrev tDECODE : Nat := 3
abbrev tPARKED : Nat := 4
abbrev tSHIP_OUT : Nat := 5
abbrev tADOPTING : Nat := 6
abbrev tDONE : Nat := 7
abbrev tCANCELLED : Nat := 8
abbrev tEXPIRED : Nat := 9
abbrev tFAULTED : Nat := 10
abbrev tINCOMPLETE : Nat := 11

/-! Bits of FLAGS (Table 8.4). -/
abbrev fDEADLINE : Nat := 0
abbrev fSTOP : Nat := 1
abbrev fMAX : Nat := 2
abbrev fSPEC_EN : Nat := 3
abbrev fSHIP : Nat := 4
abbrev fEPOCH : Nat := 5
abbrev fCANCEL : Nat := 6
abbrev fFAULT : Nat := 7
abbrev fLOST : Nat := 8
abbrev fEVENT : Nat := 9

/-! Byte offsets of the fields (Table 8.1). -/
abbrev oTENANT : Nat := 2
abbrev oLEN : Nat := 4
abbrev oROOT : Nat := 8
abbrev oEPOCH : Nat := 12
abbrev oMODEL : Nat := 14
abbrev oSEED : Nat := 16
abbrev oDEADLINE : Nat := 24
abbrev oSKIP : Nat := 30
abbrev oTTL : Nat := 32
abbrev oFLAGS : Nat := 36
abbrev oPROMPT : Nat := 40
abbrev oMAX_LEN : Nat := 44
abbrev oOUT_PROD : Nat := 48
abbrev oSTOP : Nat := 52
abbrev oLAST_STEP : Nat := 56
abbrev oCOOKIE : Nat := 60

/-- "No page" and "no block" in a table (R266). -/
def noPage : Nat := 0xFFFFFFFF

/-- The bits of a byte of an entry that are not reserved (Tables 8.1, 8.4). -/
def tallyMask (a : Nat) : Nat :=
  let o := (a - tallyBase 0) % 64
  if o = 0 then 0x7F else if o = 1 then 0x07 else if o = 3 then 0x0F else if o = 15 then 0 else if o = 37 then 0x03
  else if o = 38 ∨ o = 39 then 0 else 0xFF

/-- A field of an entry, by byte offset and width. -/
def M.tally (m : M) (slot off n : Nat) : Nat := m.readN (tallyBase slot + off) n

def M.setTally (m : M) (slot off n v : Nat) : M := m.writeN (tallyBase slot + off) n v

def M.tState (m : M) (slot : Nat) : Nat := m.tally slot 0 1 % 16

def M.setTState (m : M) (slot v : Nat) : M := m.setTally slot 0 1 (m.tally slot 0 1 / 16 * 16 + v)

def M.tSpec (m : M) (slot : Nat) : Nat := bits (m.tally slot 0 1) 6 4

def M.setTSpec (m : M) (slot v : Nat) : M := m.setTally slot 0 1 (m.tState slot + 16 * (v % 8))

def M.tPriority (m : M) (slot : Nat) : Nat := m.tally slot 1 1 % 8

def M.tTenant (m : M) (slot : Nat) : Nat := m.tally slot oTENANT 2 % 4096

def M.tLen (m : M) (slot : Nat) : Nat := m.tally slot oLEN 4

def M.tRoot (m : M) (slot : Nat) : Nat := m.tally slot oROOT 4

def M.tModel (m : M) (slot : Nat) : Nat := m.tally slot oMODEL 1

/-- A bit of FLAGS. -/
def M.tFlag (m : M) (slot i : Nat) : Bool := (m.tally slot oFLAGS 4).testBit i

def M.setTFlag (m : M) (slot i : Nat) (v : Bool) : M :=
  let f := m.tally slot oFLAGS 4
  m.setTally slot oFLAGS 4 (if f.testBit i == v then f else f ^^^ 2 ^ i)

/-- FAULT_PENDING set on a slot that holds a request (R300, R502, R505, R643). -/
def M.faultPending (m : M) (slot : Nat) : M := if m.tState slot = tFREE then m else m.setTFlag slot fFAULT true

/-- The slot is in the batch of the running step, or of one that is composed and waits for its start or its replay
(R317). -/
def M.inBatch (m : M) (slot : Nat) : Bool :=
  (m.die.step.map fun s => s.slots.contains slot).getD false ||
    (m.die.fmn.composed.map fun c => c.items.any fun i => i.slot == slot).getD false

end Sys2Proof.Machine
end

