-- ==== Sys2Proof/Machine/SeamPages.lean ====
section
/-! DEFINITION. State memory (chapter 7): where each byte lives, its errors, the page ledger, table blocks, leaf chains,
and the allocation and freeing of pages. -/
namespace Sys2Proof.Machine

/-! ## Places (R265 to R270, R329, R330) -/

def seamStacks : Nat := 32
def pageSize : Nat := 65536
/-- Usable pages of a stack, and frames of a channel (Table 7.1). -/
def usablePages : Nat := 1179648
def channelFrames : Nat := 73728

/-- Page-in-stack of the first staging page, the ledger and the journal (Table 7.2). -/
def stagingPage : Nat := 65536
def ledgerPage : Nat := 69632
def journalPage : Nat := 69776

def pageAddr (s p : Nat) : Nat := stackBase s + p * pageSize

/-- The stack and page-in-stack of an address of the state-memory window. -/
def addrStack (a : Nat) : Nat := (a - stackBase 0) / 0x2000000000
def addrPage (a : Nat) : Nat := (a - stackBase 0) % 0x2000000000 / pageSize

/-- Host carve-out byte `a` (R269). -/
def carveAddr (a : Nat) : Nat := pageAddr (a / pageSize % 32) (a / 0x200000) + a % pageSize

/-- Weight-staging byte `a` (R269). -/
def stagingAddr (a : Nat) : Nat := pageAddr (a / pageSize % 32) (stagingPage + a / 0x200000) + a % pageSize

/-- T and J of a stack (R268, R270). -/
def M.tablePages (m : M) (s : Nat) : Nat := m.fld (seamReg s SEAM_REGION) 15 0
def M.journalPages (m : M) (s : Nat) : Nat := m.fld (seamReg s SEAM_REGION) 31 16

/-- First page of the key/value pool (Table 7.2). -/
def M.poolPage (m : M) (s : Nat) : Nat := ledgerPage + m.tablePages s

/-- Byte `a` of the journal's record space (R330). -/
def journalAddr (a : Nat) : Nat := pageAddr (a / pageSize % 32) (journalPage + 4 + a / 0x200000) + a % pageSize

/-- H: half the record space, rounded down to a multiple of 2 MiB (R330). -/
def M.journalHalf (m : M) : Nat := (m.journalPages 0 - 4) * 0x200000 / 2 / 0x200000 * 0x200000

/-- Where a slot's carry entry stands (R329). -/
def carryAddr (slot : Nat) : Nat := pageAddr (slot % 32) journalPage + 32 * (slot / 32)

/-- The ledger entry of a page (R276). -/
def ledgerAddr (s p : Nat) : Nat := pageAddr s ledgerPage + 8 * p

/-- Table block `i` of a stack, and how many there are (R270). -/
def M.blockAddr (m : M) (s i : Nat) : Nat := pageAddr s (journalPage + m.journalPages s) + 128 * i
def M.blockCount (m : M) (s : Nat) : Nat := (m.tablePages s - 144 - m.journalPages s) * 512

def M.seam (m : M) (s : Nat) : Seam := mapGetD m.die.seams s Seam.fresh
def M.updSeam (m : M) (s : Nat) (f : Seam → Seam) : M := { m with die.seams := mapSet m.die.seams s (f (m.seam s)) }

/-- The channel that holds a page's own frame: another one stands in for a retired channel (R302). -/
def M.standIn (m : M) (s ch : Nat) : Nat := mapGetD (m.seam s).standIn ch ch

/-- The channel and frame of a page (R265, R301, R302). -/
def M.pageFrame (m : M) (s p : Nat) : Nat × Nat :=
  match mapGet (m.seam s).remap p with
  | some k => (k / channelFrames, k % channelFrames)
  | none => (m.standIn s (p % 16), p / 16)

/-- State of a channel: 0 in service, 1 reserve, 2 retiring, 3 retired (Table 7.15). -/
def M.channelState (m : M) (s ch : Nat) : Nat := m.fld (seamReg s SEAM_CH_STATE) (2 * ch + 1) (2 * ch)
def M.setChannelState (m : M) (s ch v : Nat) : M := m.setFld (seamReg s SEAM_CH_STATE) (2 * ch + 1) (2 * ch) v

/-- The reserve channel of a stack, if it has one (R303). -/
def M.reserveChannel (m : M) (s : Nat) : Option Nat := (List.range 17).find? fun ch => m.channelState s ch == 1

/-! ## A free choice among free numbers -/

/-- A number of `[lo, lo + n)` outside `taken`: the first one from a free starting point on, since the spec does not
say which of several free pages, blocks or slots is taken (log entry 56). -/
def M.pick (m : M) (lo n : Nat) (taken : List Nat) : Option Nat × M :=
  if n = 0 then (none, m)
  else
    let start := m.freeValue % n
    ((List.range (taken.length + 1)).findSome? fun i =>
      let p := lo + (start + i) % n
      if taken.contains p then none else some p, m.spend)

/-! ## The ledger (Table 7.6) -/

/-- A burst's error lies in one 16-bit symbol, and is corrected (Table 7.1). -/
def oneSymbol (mask : Nat) : Bool := (List.range 32).any fun i => bits mask 511 (16 * i + 16) == 0 && mask % 2 ^ (16 * i) == 0

/-- Bursts with an error that share a byte with a range, and those whose error is uncorrectable. -/
def M.burstsIn (m : M) (a n : Nat) : NMap Nat :=
  m.die.bursts.filter fun b => decide (b.1 < a + n) && decide (a < b.1 + 64)

def M.badBursts (m : M) (a n : Nat) : NMap Nat := (m.burstsIn a n).filter fun b => !oneSymbol b.2

/-- Masks of uncorrectable bursts exclusive-ored into bytes read from an address. -/
def applyMasks (a : Nat) (bs : Bytes) (bad : NMap Nat) : Bytes :=
  bad.foldl (fun bs b => bs.zipIdx.map fun (x, i) =>
    if b.1 ≤ a + i ∧ a + i < b.1 + 64 then x ^^^ BitVec.ofNat 8 (bits b.2 (8 * (a + i - b.1) + 7) (8 * (a + i - b.1))) else x) bs

/-- Bytes of state memory as a read delivers them: corrected, an uncorrectable burst as stored (R299, R300). -/
def M.stored (m : M) (a n : Nat) : Bytes :=
  let bad := m.badBursts a n
  if bad.isEmpty then m.read a n else applyMasks a (m.read a n) bad

def M.storedN (m : M) (a n : Nat) : Nat := ofBytes (m.stored a n)

def M.ledger (m : M) (s p : Nat) : Nat := m.storedN (ledgerAddr s p) 8

abbrev lLIVE : Nat := 1
abbrev lPARKED : Nat := 2
abbrev lRETIRED : Nat := 3

def ledgerState (e : Nat) : Nat := bits e 63 62
def ledgerSlot (e : Nat) : Nat := bits e 61 44
def ledgerLayer (e : Nat) : Nat := bits e 43 39
def ledgerIndex (e : Nat) : Nat := bits e 38 15

def ledgerEntry (state slot layer index tag : Nat) : Nat :=
  state * 2 ^ 62 + slot * 2 ^ 44 + layer * 2 ^ 39 + index % 2 ^ 24 * 2 ^ 15 + tag % 2 ^ 15

/-- The pages whose ledger entry is not FREE. -/
def M.usedPages (m : M) (s : Nat) : List Nat :=
  let a := pageAddr s ledgerPage
  (m.mem.cells.filter fun c =>
    decide (a ≤ c.1) && decide (c.1 < a + 8 * usablePages) && c.1 % 8 == 7 && decide (64 ≤ c.2.toNat)).map fun c => (c.1 - a) / 8

/-- SEAM_STATUS.FREE_PAGES: free pages of the pool (Table 7.13). -/
def M.freePages (m : M) (s : Nat) : Nat :=
  usablePages - m.poolPage s - ((m.usedPages s).filter fun p => decide (m.poolPage s ≤ p)).length

/-- SEAM_STATUS.RESERVE_FREE: none without a reserve channel, or while it is being copied onto (R301 to R303). -/
def M.reserveFree (m : M) (s : Nat) : Nat :=
  if (m.reserveChannel s).isSome ∧ (m.seam s).copying.isNone then (m.seam s).reserveNext else 0

/-- The low-page event: once each time the count falls below SEAM_FREE_LOW (R288). -/
def M.lowCheck (m : M) (s : Nat) : M :=
  let n := m.freePages s
  let low := m.regN (seamReg s SEAM_FREE_LOW)
  if (m.seam s).lowRaised then
    if low < n then m.updSeam s fun x => { x with lowRaised := false } else m
  else if n < low then
    (m.updSeam s fun x => { x with lowRaised := true }).raise FMN_HOST_IRQ_EVT 2
  else m

/-! ## Errors of state memory (R299, R300, R502 to R505, R639) -/

/-- A frame marked for retirement (R299, R300). -/
def M.markFrame (m : M) (s ch f : Nat) : M :=
  let k := channelFrames * ch + f
  m.updSeam s fun x => { x with marked := if x.marked.contains k then x.marked else k :: x.marked }

/-- A corrected burst of a frame, which holds the page named or none (R299, R518). -/
def M.frameCorrected (m : M) (s ch f page : Nat) : M :=
  let m := (m.count (seamReg s (SEAM_CH_CE_CNT + 64 * ch))).errorClass 2 2 s page
  let n := mapGetD (m.seam s).corrections (channelFrames * ch + f) 0 + 1
  let m := m.updSeam s fun x => { x with corrections := mapSet x.corrections (channelFrames * ch + f) n }
  let lim := m.fld (seamReg s SEAM_CTRL) 7 0
  if lim ≠ 0 ∧ lim ≤ n then m.markFrame s ch f else m

/-- An uncorrectable burst of a frame counted, captured (Table 7.16) and its frame marked; `e` is the ledger entry of
the page it holds, and `page` that page's number. -/
def M.frameError (m : M) (s ch f e page source : Nat) : M :=
  let m := (m.count (seamReg s (SEAM_CH_UE_CNT + 64 * ch))).markFrame s ch f
  if m.flag (seamReg s SEAM_UE_CAP0) 63 then m
  else
    let m := m.setReg (seamReg s SEAM_UE_CAP0) (BitVec.ofNat 64
      (2 ^ 63 + source * 2 ^ 60 + ch * 2 ^ 55 + f * 2 ^ 38 + ledgerState e * 2 ^ 36 + ledgerSlot e * 2 ^ 18))
    m.setReg (seamReg s SEAM_UE_CAP1) (BitVec.ofNat 64 (m.die.stepNumber % 2 ^ 32 * 2 ^ 32 + page))

/-- LOG2_TPP of the root block of a slot on a stack: its P (Table 7.4). -/
def M.rootWord (m : M) (s root : Nat) : Nat := m.storedN (m.blockAddr s (root / 32)) 4

/-! ## The record's layout (R330, Table 8.7) -/

def batchOff : Nat := 256
def Composition.inputOff (c : Composition) : Nat := batchOff + 32 * c.items.length
def Composition.patchOff (c : Composition) : Nat := ceilDiv (c.inputOff + 4 * c.inputs.length) 16 * 16
def Composition.resultOff (c : Composition) : Nat := c.patchOff + 16 * c.patches.length
def resultSize : Nat := 80
def Composition.recordSize (c : Composition) : Nat := c.resultOff + resultSize * c.items.length

/-- Where a step's record starts in the journal (R330). -/
def M.recordBase (m : M) (n : Nat) : Nat := n % 2 * m.journalHalf

/-- The burst at an address lies in the journal record of the composed step (R504). -/
def M.inRecord (m : M) (off : Nat) : Bool :=
  match m.die.fmn.composed with
  | some c => decide (m.recordBase c.number ≤ off) && decide (off < m.recordBase c.number + c.recordSize)
  | none => false

/-! ## What an uncorrectable burst does -/

/-- A state-memory error reported to the Foreman. -/
def M.seamReport (m : M) (cls s p : Nat) : M :=
  (m.errorClass cls 2 s (p * 32 + s)).report cls 2 s 16 0 p (p * 32 + s)

/-- An error in a page of the pool that holds data (R300). -/
def M.poolError (m : M) (s p source : Nat) : M :=
  let e := m.ledger s p
  let st := ledgerState e
  let slot := ledgerSlot e
  if source = 6 ∨ (st ≠ lLIVE ∧ st ≠ lPARKED) then m.seamReport 15 s p
  else
    let first := ledgerIndex e * 2 ^ bits (m.rootWord s (m.tRoot slot)) 15 12
    if st = lLIVE ∧ m.tLen slot ≤ first ∧ m.inBatch slot then (m.seamReport 3 s p).stepErrorReported
    else (m.seamReport 6 s p).faultPending slot

/-- An error in the table area, by its part (R502 to R505): in the journal, one of the running step's record sets its error
status, and one of the next step's is repaired before it starts; one that patrol finds affects no request (R300). -/
def M.tableError (m : M) (s p a source : Nat) : M :=
  let m := m.seamReport 7 s p
  let j := m.journalPages s
  if p < journalPage then
    m.updSeam s fun x => { x with noAlloc := (a - pageAddr s ledgerPage) / 64 :: x.noAlloc }
  else if journalPage + 4 ≤ p ∧ p < journalPage + j then
    if m.inRecord ((p - journalPage - 4) * 0x200000 + s * pageSize + (a - pageAddr s p)) then
      let m : M := { m with die.fmn.recordErrors := m.die.fmn.recordErrors ++ [a] }
      if m.batchStep then m.stepErrorReported else m
    else m
  else if source = 6 then m
  else if p < journalPage + 4 then
    let k := (a - pageAddr s journalPage) / 32
    (m.faultPending (32 * k + s)).faultPending (32 * (k + 1) + s)
  else
    match mapGet (m.seam s).blocks ((a - m.blockAddr s 0) / 128) with
    | some slot => m.faultPending slot
    | none => m

/-- An uncorrectable burst met: counted, captured, its frame marked, and acted on by region and page state (R300). -/
def M.burstError (m : M) (a source : Nat) : M :=
  let s := addrStack a
  let p := addrPage a
  let (ch, f) := m.pageFrame s p
  let m := m.frameError s ch f (m.ledger s p) (p * 32 + s) source
  if p < stagingPage then m.seamReport 8 s p
  else if p < ledgerPage then m.seamReport 15 s p
  else if p < m.poolPage s then m.tableError s p a source
  else m.poolError s p source

/-- One burst with an error met by a read: corrected, or not (R299, R300). -/
def M.noteBurst (m : M) (source : Nat) (b : Nat × Nat) : M :=
  if oneSymbol b.2 then
    let s := addrStack b.1
    let p := addrPage b.1
    let (ch, f) := m.pageFrame s p
    m.frameCorrected s ch f (p * 32 + s)
  else m.burstError b.1 source

/-- The errors of a read of state memory; `source` is SOURCE of Table 7.16. -/
def M.noteBursts (m : M) (a n source : Nat) : M := (m.burstsIn a n).foldl (fun m b => m.noteBurst source b) m

/-- A read of state memory with its errors. -/
def M.stateRead (m : M) (a n source : Nat) : Bytes × M := (m.stored a n, m.noteBursts a n source)

/-- A burst stored with fresh check symbols: corrected, or as it was stored (R298, R639). -/
def M.freshBurst (m : M) (b : Nat × Nat) : M :=
  let m := if oneSymbol b.2 then m else m.write b.1 (applyMasks b.1 (m.read b.1 64) [b])
  { m with die.bursts := mapDel m.die.bursts b.1 }

/-- One burst about to be written: a write that covers part of it reads it, corrects it or merges it as stored (R639). -/
def M.mergeBurst (m : M) (a n source : Nat) (b : Nat × Nat) : M :=
  if a ≤ b.1 ∧ b.1 + 64 ≤ a + n then { m with die.bursts := mapDel m.die.bursts b.1 }
  else (m.noteBurst source b).freshBurst b

/-- A write of state memory (R639). -/
def M.stateWrite (m : M) (a : Nat) (bs : Bytes) (source : Nat) : M :=
  ((m.burstsIn a bs.length).foldl (fun m b => m.mergeBurst a bs.length source b) m).write a bs

def M.stateWriteN (m : M) (a n v source : Nat) : M := m.stateWrite a (toBytes n v) source

/-- A byte range of one of the striped spaces cut at page borders: (offset, length) pairs (R269). -/
def stripes (a n : Nat) : List (Nat × Nat) :=
  if n = 0 then []
  else
    let first := min n (pageSize - a % pageSize)
    (0, first) :: (List.range (ceilDiv (n - first) pageSize)).map fun i =>
      (first + i * pageSize, min pageSize (n - first - i * pageSize))

/-- A striped space read and written: `f` maps its bytes to addresses. -/
def M.stripedRead (m : M) (f : Nat → Nat) (a n source : Nat) : Bytes × M :=
  (stripes a n).foldl (fun (bs, m) (o, k) =>
    let (b, m) := m.stateRead (f (a + o)) k source
    (bs ++ b, m)) ([], m)

def M.stripedWrite (m : M) (f : Nat → Nat) (a : Nat) (bs : Bytes) (source : Nat) : M :=
  (stripes a bs.length).foldl (fun m (o, k) => m.stateWrite (f (a + o)) ((bs.drop o).take k) source) m

/-- The errors of a read of the host carve-out by the Foreman or the host bridge (R299, R300). -/
def M.noteCarve (m : M) (a n : Nat) : M := (stripes a n).foldl (fun m (o, k) => m.noteBursts (carveAddr (a + o)) k 2) m

/-- The host carve-out (R269). -/
def M.carve (m : M) (a n : Nat) : Bytes := (stripes a n).flatMap fun (o, k) => m.stored (carveAddr (a + o)) k

def M.carveN (m : M) (a n : Nat) : Nat := ofBytes (m.carve a n)

def M.carveWrite (m : M) (a : Nat) (bs : Bytes) : M := m.stripedWrite carveAddr a bs 2

/-! ## Pages -/

/-- A page taken from the pool and entered in the ledger (R281); none when the pool is empty. -/
def M.allocPage (m : M) (s state slot layer index : Nat) : Option Nat × M :=
  let lo := m.poolPage s
  let held := (m.seam s).noAlloc.flatMap fun g => (List.range 8).map fun i => 8 * g + i
  let taken := (m.usedPages s ++ held).filter fun p => decide (lo ≤ p)
  let (p, m) := m.pick lo (usablePages - lo) taken
  match p with
  | none => (none, m)
  | some p =>
    (some p, (m.stateWriteN (ledgerAddr s p) 8 (ledgerEntry state slot layer index m.die.stepNumber) 1).lowCheck s)

/-- KIND of a page's field-repair record in this model (R301, log entry 54). -/
abbrev repairPage : Nat := 5

/-- A page-in-stack withdrawn: it is never allocated again (R301). -/
def M.withdrawPage (m : M) (s p : Nat) : M :=
  let m := (m.stateWriteN (ledgerAddr s p) 8 (ledgerEntry lRETIRED 0 0 0 0) 1).count (seamReg s SEAM_PAGE_WITHDRAWN_CNT)
  let m := m.lowCheck s
  m.flash (.fieldRepair { kind := repairPage, site := s, core := 0, memory := 0, bank := 0, row := p })

/-- A marked page that becomes FREE: moved to a reserve frame, or withdrawn (R301). -/
def M.retirePage (m : M) (s p : Nat) : M :=
  match m.reserveChannel s, m.reserveFree s with
  | some ch, f + 1 =>
    let m := m.updSeam s fun x => { x with remap := mapSet x.remap p (channelFrames * ch + f), reserveNext := f }
    let m := m.flash (.fieldRepair { kind := repairPage, site := s, core := 1, memory := ch, bank := f, row := p })
    let m := { m.clearMem (pageAddr s p) pageSize with
      die.bursts := m.die.bursts.filter fun b => decide (b.1 < pageAddr s p) || decide (pageAddr s (p + 1) ≤ b.1) }
    m.count (seamReg s SEAM_PAGE_REMAP_CNT)
  | _, _ => m.withdrawPage s p

/-- A page becomes FREE (R286, R301). -/
def M.freePage (m : M) (s p : Nat) : M :=
  if ledgerState (m.ledger s p) = lRETIRED then m
  else
  let m := m.stateWriteN (ledgerAddr s p) 8 0 1
  let (ch, f) := m.pageFrame s p
  let m := if (m.seam s).marked.contains (channelFrames * ch + f) then m.retirePage s p else m
  m.lowCheck s

/-! ## Table blocks and leaf chains (Tables 7.4, 7.5) -/

/-- A table block taken for a slot; none when the area is empty. -/
def M.allocBlock (m : M) (s slot : Nat) : Option Nat × M :=
  let (b, m) := m.pick 0 (m.blockCount s) ((m.seam s).blocks.map (·.1))
  match b with
  | none => (none, m)
  | some b => (some b, m.updSeam s fun x => { x with blocks := mapSet x.blocks b slot })

def M.freeBlock (m : M) (s b : Nat) : M := m.updSeam s fun x => { x with blocks := mapDel x.blocks b }

def M.freeBlocks (m : M) (s : Nat) : Nat := m.blockCount s - (m.seam s).blocks.length

/-- Geometry of a request: the root word's fields (Table 7.4). -/
structure Geometry where
  layers : Nat
  fmt : Nat
  log2 : Nat
  hkv : Nat
  d : Nat
  deriving DecidableEq, Repr

def geometryOf (w : Nat) : Geometry :=
  { layers := min (bits w 4 0) 31, fmt := bits w 11 8, log2 := bits w 15 12, hkv := bits w 19 16, d := 64 * (bits w 21 20 + 1) }

/-- Bytes of an element of a page format, and of a page's keys (R271). -/
def kvBytes (fmt : Nat) : Nat := if fmt = 5 then 2 else 1

def Geometry.half (g : Geometry) : Nat := g.hkv * 2 ^ g.log2 * g.d * kvBytes g.fmt

/-- R272: the geometry fits a page. -/
def Geometry.fits (g : Geometry) : Bool := decide (2 * g.half ≤ pageSize)

/-- The slot's root block index, if its entry holds a root. -/
def M.rootOf (m : M) (slot : Nat) : Option Nat :=
  if m.tState slot = tFREE ∨ m.tRoot slot = noPage then none else some (m.tRoot slot / 32)

/-- The offset o of a request's layer (R277). -/
def placeOffset (slot layer : Nat) : Nat :=
  ((bits slot 4 0 ^^^ bits slot 9 5 ^^^ bits slot 14 10 ^^^ bits slot 17 15) + 13 * layer) % 32

/-- The stack of page `i`, and the class of a stack (R277, R278). -/
def placement (slot layer i : Nat) : Nat := (i + placeOffset slot layer) % 32
def stackClass (slot layer s : Nat) : Nat := (s + 32 - placeOffset slot layer) % 32

/-- A leaf entry: its page number and its 16 scale bytes. -/
structure Leaf where
  page : Nat
  scale : Bytes
  deriving DecidableEq, Repr

/-- The blocks of a layer's leaf chain on a stack, first to last. -/
def M.chainFrom (m : M) (s : Nat) : Nat → Nat → List Nat
  | 0, _ => []
  | n + 1, b => if b = noPage then [] else b / 32 :: m.chainFrom s n (m.storedN (m.blockAddr s (b / 32)) 4)

def M.chain (m : M) (s root layer : Nat) : List Nat :=
  m.chainFrom s ((m.seam s).blocks.length + 1) (m.storedN (m.blockAddr s root + 4 + 4 * layer) 4)

/-- The entries of a leaf block. -/
def M.blockLeaves (m : M) (s b : Nat) : List Leaf :=
  let bs := m.stored (m.blockAddr s b) 128
  (List.range (min 6 (byteAt bs 4))).map fun k => { page := numAt bs (8 + 4 * k) 4, scale := slice bs (32 + 16 * k) 16 }

def M.leaves (m : M) (s root layer : Nat) : List Leaf := (m.chain s root layer).flatMap fun b => m.blockLeaves s b

/-- The errors of the table blocks that a layer's walk reads (R300, R502). -/
def M.noteChain (m : M) (s root layer source : Nat) : M :=
  let m := m.noteBursts (m.blockAddr s root) 128 source
  (m.chain s root layer).foldl (fun m b => m.noteBursts (m.blockAddr s b) 128 source) m

/-- The errors of every walk over a request's layers, on every stack (R300, R502). -/
def M.noteRequest (m : M) (root layers source : Nat) : M :=
  (List.range seamStacks).foldl (fun m s => (List.range layers).foldl (fun m l => m.noteChain s root l source) m) m

/-- A leaf block's bytes. -/
def leafBlock (next : Nat) (es : List Leaf) : Bytes :=
  toBytes 4 next ++ toBytes 1 es.length ++ zeros 3 ++
    ((List.range 6).flatMap fun k => toBytes 4 (match es[k]? with | some e => e.page | none => noPage)) ++
    ((List.range 6).flatMap fun k => match es[k]? with | some e => slice e.scale 0 16 | none => zeros 16)

/-- A chain written over the blocks given, six entries a block; the blocks it does not need are freed. -/
def M.storeChain (m : M) (s root layer : Nat) (blocks : List Nat) (es : List Leaf) : M :=
  let n := ceilDiv es.length 6
  let use := blocks.take n
  let m := (List.range n).foldl (fun m i =>
    let next := match use[i + 1]? with | some b => b * 32 + s | none => noPage
    m.stateWrite (m.blockAddr s (use.getD i 0)) (leafBlock next ((es.drop (6 * i)).take 6)) 1) m
  let m := (blocks.drop n).foldl (fun m b => m.freeBlock s b) m
  m.stateWriteN (m.blockAddr s root + 4 + 4 * layer) 4 (match use[0]? with | some b => b * 32 + s | none => noPage) 1

/-! ## Freeing (R286, R316) -/

/-- The pages of one layer on one stack from the first whose index fails `keep` on are freed, each counted in
`counter`, and the chain is cut there. -/
def M.cutLayer (m : M) (slot s root layer : Nat) (keep : Nat → Bool) (counter : Option Nat) : M :=
  let blocks := m.chain s root layer
  let es := m.leaves s root layer
  let c := stackClass slot layer s
  let k := ((List.range es.length).find? fun k => !keep (c + 32 * k)).getD es.length
  let m := m.noteChain s root layer 1
  if k = es.length then m
  else
    let m := (es.drop k).foldl (fun m e =>
      if e.page = noPage then m
      else
        let m := m.freePage s (e.page / 32)
        match counter with | some r => m.count (seamReg s r) | none => m) m
    m.storeChain s root layer blocks (es.take k)

/-- A request's pages cut on every stack and layer. -/
def M.cutPages (m : M) (slot : Nat) (keep : Nat → Nat → Bool) (counter : Option Nat) : M :=
  match m.rootOf slot with
  | none => m
  | some root =>
    (List.range seamStacks).foldl (fun m s =>
      let g := geometryOf (m.rootWord s (32 * root))
      (List.range g.layers).foldl (fun m l => m.cutLayer slot s root l (keep (2 ^ g.log2)) counter) m) m

/-- Tailings: every page whose first position is at or beyond the committed length (R286). -/
def M.freeTailings (m : M) (slot : Nat) : M :=
  m.cutPages slot (fun p i => decide (i * p < m.tLen slot)) (some SEAM_TAILINGS_PAGE_CNT)

/-- Every page and table block of a request, the root block on every stack and the root index included (R316). -/
def M.freeRequest (m : M) (slot : Nat) (counter : Option Nat) : M :=
  match m.rootOf slot with
  | none => m
  | some root =>
    let m := m.cutPages slot (fun _ _ => false) counter
    let m := (List.range seamStacks).foldl (fun m s => m.freeBlock s root) m
    m.setTally slot oROOT 4 noPage

/-- A root taken for a slot: one block index free on every stack, its root block written there (R274, R316). -/
def M.allocRoot (m : M) (slot word : Nat) : Option Nat × M :=
  let taken := (List.range seamStacks).flatMap fun s => (m.seam s).blocks.map (·.1)
  let (b, m) := m.pick 0 (m.blockCount 0) taken
  match b with
  | none => (none, m)
  | some b =>
    let block := toBytes 4 word ++ (List.replicate 31 (toBytes 4 noPage)).flatten
    (some (32 * b), (List.range seamStacks).foldl (fun m s =>
      (m.updSeam s fun x => { x with blocks := mapSet x.blocks b slot }).stateWrite (m.blockAddr s b) block 1) m)

end Sys2Proof.Machine
end

