-- ==== Sys2Proof/Machine/Output.lean ====
section
/-! DEFINITION. Output rings and carry entries (R322 to R326, R329), and the slots whose entries are in use. -/
namespace Sys2Proof.Machine

/-! ## The ring of a slot -/

/-- A carve-out offset: 37 bits, 128 GiB (Table 0.3). -/
def carveWrap (a : Nat) : Nat := a % 2 ^ 37

/-- Where record `seq` of a slot lies (R322). -/
def M.ringAddr (m : M) (slot seq : Nat) : Nat :=
  carveWrap (m.fld CMT_OUTRING_BASE 36 0 + 4096 * slot + 64 * ((seq + 2 ^ 32 - 1) % 2 ^ 32 % 64))

/-- The consumer word of a slot (R322). -/
def M.consAddr (m : M) (slot : Nat) : Nat := carveWrap (m.fld CMT_OUTCONS_BASE 36 0 + 4 * slot)

/-- A number of the carve-out read by the module, with the errors its read meets. -/
def M.carveRead (m : M) (a n : Nat) : Nat × M :=
  let (bs, m) := m.stripedRead carveAddr a n 2
  (ofBytes bs, m)

/-- The count of unread records (R325). -/
def M.unread (m : M) (slot : Nat) : Nat × M :=
  let (c, m) := m.carveRead (m.consAddr slot) 4
  ((m.tally slot oOUT_PROD 4 + 2 ^ 32 - c) % 2 ^ 32, m)

/-- Records of a ring, and the most that may be unread for the slot to enter a batch (R325). -/
def ringRecords : Nat := 64
def ringEligible : Nat := 62

/-- SEQ of the record after `n` (R322). -/
def nextSeq (n : Nat) : Nat := (n + 1) % 2 ^ 32

/-- RFLAGS from the entry (Table 8.6). -/
def M.recordFlags (m : M) (slot : Nat) : Nat :=
  bit (m.tFlag slot fSTOP) + 2 * bit (m.tFlag slot fMAX) + 4 * bit (m.tFlag slot fDEADLINE) +
    8 * bit (m.tFlag slot fEPOCH) + 16 * bit (m.tFlag slot fLOST)

/-- An output record (Table 8.6). -/
def outRecord (seq state rflags step pos cookie : Nat) (tokens : List Nat) (ft : Nat) : Bytes :=
  toBytes 4 seq ++ toBytes 1 tokens.length ++ toBytes 1 state ++ toBytes 1 rflags ++ zeros 1 ++ toBytes 8 step ++
    toBytes 4 pos ++ toBytes 4 cookie ++ slice (tokens.flatMap (toBytes 4)) 0 32 ++ toBytes 8 ft

/-- A record written into a ring that has room; it reports a record dropped before it. -/
def M.putRecord (m : M) (slot state step pos : Nat) (tokens : List Nat) (ft : Nat) : M :=
  let seq := nextSeq (m.tally slot oOUT_PROD 4)
  let r := outRecord seq state (m.recordFlags slot) step pos (m.tally slot oCOOKIE 4) tokens ft
  let m := (m.carveWrite (m.ringAddr slot seq) r).setTally slot oOUT_PROD 4 seq
  if m.tFlag slot fLOST then m.setTFlag slot fLOST false else m

/-- A token record: dropped when the ring is full (R326). -/
def M.postTokens (m : M) (slot step pos : Nat) (tokens : List Nat) (ft : Nat) : M :=
  let (n, m) := m.unread slot
  if ringRecords ≤ n then (m.count CMT_RING_OVERRUN_CNT).setTFlag slot fLOST true
  else m.putRecord slot (m.tState slot) step pos tokens ft

/-- A state record: POS of a record without tokens is a free value. -/
def M.putStateRecord (m : M) (slot state step ft : Nat) : M :=
  m.spend.putRecord slot state step (m.freeValue % 2 ^ 32) [] ft

/-- A state record posted now, or made to wait while the ring is full (R326). -/
def M.postState (m : M) (slot step ft : Nat) : M :=
  let (n, m) := m.unread slot
  if ringRecords ≤ n then
    let m := (m.count CMT_EVENT_DEFER_CNT).setTFlag slot fEVENT true
    { m with die.heldEvents := mapSet m.die.heldEvents slot (m.tState slot, step, ft) }
  else m.putStateRecord slot (m.tState slot) step ft

/-- A state record of an event outside a step. -/
def M.postEvent (m : M) (slot : Nat) : M := m.postState slot 0 m.die.ft

/-- Slots whose entry byte at `off` satisfies a test. -/
def M.slotsWhere (m : M) (off : Nat) (p : Byte → Bool) : List Nat :=
  (m.mem.cells.filter fun c =>
    decide (tallyBase 0 ≤ c.1) && decide (c.1 < tallyBase tallySlots) && c.1 % 64 == off && p c.2).map
      fun c => (c.1 - tallyBase 0) / 64

/-- Slots that are not FREE, in slot order. -/
def M.slotsInUse (m : M) : List Nat := m.slotsWhere 0 fun b => b.toNat % 16 != 0

/-- Slots in a state. -/
def M.slotsIn (m : M) (st : Nat) : List Nat := m.slotsWhere 0 fun b => b.toNat % 16 == st

/-- A waiting state record posted at a commit that finds space (R326). -/
def M.flushEvent (m : M) (slot : Nat) : M :=
  let (n, m) := m.unread slot
  if ringRecords ≤ n then m
  else
    let (st, step, ft) := mapGetD m.die.heldEvents slot (m.tState slot, 0, m.die.ft)
    let m : M := { m.setTFlag slot fEVENT false with die.heldEvents := mapDel m.die.heldEvents slot }
    m.putStateRecord slot st step ft

/-- Every waiting state record tried. -/
def M.flushEvents (m : M) : M := (m.slotsWhere 37 fun b => b.toNat.testBit 1).foldl M.flushEvent m

/-- The ring of a slot zeroed, with OUT_PROD and the consumer word 0 (R324). -/
def M.clearRing (m : M) (slot : Nat) : M :=
  let m := m.carveWrite (carveWrap (m.fld CMT_OUTRING_BASE 36 0 + 4096 * slot)) (zeros 4096)
  (m.carveWrite (m.consAddr slot) (zeros 4)).setTally slot oOUT_PROD 4 0

/-! ## Carry entries (R329) -/

/-- A carry entry's words: the base token and seven drafts. -/
def M.carry (m : M) (slot : Nat) : List Nat × M :=
  let (bs, m) := m.stateRead (carryAddr slot) 32 1
  ((List.range 8).map fun i => numAt bs (4 * i) 4, m)

def M.setCarry (m : M) (slot : Nat) (words : List Nat) : M :=
  m.stateWrite (carryAddr slot) (slice (words.flatMap (toBytes 4)) 0 32) 1

/-! ## Entries -/

/-- COMMITTED_LEN set. -/
def M.setLen (m : M) (slot v : Nat) : M := m.setTally slot oLEN 4 v

/-- A Tally counter-free transition that frees everything the request holds (R316): no leaf entry is counted. -/
def M.endRequest (m : M) (slot state : Nat) : M := (m.freeRequest slot none).setTState slot state

end Sys2Proof.Machine
end

