-- ==== Sys2Proof/Machine/Mailbox.lean ====
section
/-! DEFINITION. The Foreman's mailboxes and submission rings: how a command is found and completed (R318, R319, R522 to
R531). -/
namespace Sys2Proof.Machine

/-- Bytes of the carve-out (Table 0.3). -/
def carveSize : Nat := 2 ^ 37

/-- A range lies in the carve-out. -/
def inCarve (a n : Nat) : Bool := decide (a + n ≤ carveSize)

/-! ## Mailboxes (R522 to R525) -/

def mailboxes : Nat := 64

/-- A field of a mailbox, by byte and width. -/
def M.mbArg (m : M) (mb off n : Nat) : Nat := m.readN (mailboxBase mb + off) n

def M.mbBusy (m : M) (mb : Nat) : Bool := m.flag FMN_MB_BUSY mb

/-- A command that the Foreman has begun and not completed in a mailbox (R525). -/
def M.mbRunning (m : M) (mb : Nat) : Bool :=
  (m.die.fmn.openLoad.map (·.mailbox)) == some mb || (m.die.fmn.flip.map (·.mailbox)) == some mb ||
    m.die.fmn.rings.any (fun r => r.2.closing == some mb) || m.die.fmn.unitWaits.any (fun u => u.1 == mb) ||
    m.die.pwr.stepPending.any (·.mailbox == some mb) || m.die.pwr.stepLatched.any (·.mailbox == some mb) || m.die.fmn.tableLoad == some mb

/-- The mailbox holds a command of this code that waits to be run. -/
def M.mbHolds (m : M) (mb opcode : Nat) : Bool :=
  decide (mb < mailboxes) && m.mbBusy mb && !m.mbRunning mb && m.mbArg mb 0 1 == opcode

/-- Codes that belong in a mailbox, and on a ring (Table 14.5, R531). -/
def mailboxCode (c : Nat) : Bool := decide (0x20 ≤ c) && decide (c ≤ 0x2F)
def ringCode (c : Nat) : Bool := decide (1 ≤ c) && decide (c ≤ 9)

/-- A mailbox command run: its meaning answers the die and, when it completes now, its code. Reserved bytes 4 to 7 must be
zero (Tables 14.2, 14.4). -/
def M.mailbox (m : M) (mb opcode : Nat) (f : M → M × Option Nat) : M :=
  if !m.mbHolds mb opcode then m
  else if m.mbArg mb 4 4 != 0 then m.mbComplete mb ccINVALID
  else
    match f m with
    | (m, some code) => m.mbComplete mb code
    | (m, none) => m

/-! ## Rings (R318, R319, R526 to R528) -/

def M.ring (m : M) (r : Nat) : Option Ring := mapGet m.die.fmn.rings r

def M.updRing (m : M) (r : Nat) (f : Ring → Ring) : M :=
  match m.ring r with
  | some g => { m with die.fmn.rings := mapSet m.die.fmn.rings r (f g) }
  | none => m

/-- Carve-out offset of entry `i` (R318). -/
def Ring.entry (g : Ring) (i : Nat) : Nat := carveWrap (g.base + 64 + 128 * (i % 2 ^ g.k))

/-- Entries that wait between the indexes, which count modulo 2³². -/
def Ring.waiting (g : Ring) : Nat := (g.producer + 2 ^ 32 - g.consumer) % 2 ^ 32

/-- A command taken from the ring has not completed: entries are taken strictly in order (R319, log entry 73). -/
def M.ringBlocked (m : M) (r : Nat) : Bool :=
  m.die.parkJobs.any (fun j => j.2.ring == r) || m.die.fmn.releases.any (fun x => x.2.1 == r) ||
    m.die.fmn.shipWaits.any (fun x => x.2.1 == r)

/-- The ring has an entry that the Foreman can take. -/
def M.ringReady (m : M) (r : Nat) : Bool :=
  match m.ring r with
  | some g => !g.stopped && g.waiting != 0 && !m.ringBlocked r
  | none => false

/-- The ring whose turn it is (R527): the one in turn while it has entries and turns left, else the next that has any. -/
def M.turn (m : M) : Option Nat :=
  let cur := m.die.fmn.nextRing
  if m.die.fmn.turnLeft ≠ 0 ∧ m.ringReady cur then some cur
  else ((List.range 64).map fun i => (cur + 1 + i) % 64).find? m.ringReady

/-- An entry of a ring in turn that the Foreman takes now: its index. -/
def M.ringTake (m : M) (r opcode : Nat) : Option Nat :=
  match m.ring r with
  | some g => if m.turn = some r ∧ m.carveN (g.entry g.consumer) 1 = opcode then some g.consumer else none
  | none => none

/-- The turn moves on with an entry taken. -/
def M.countTurn (m : M) (r : Nat) : M :=
  let f := m.die.fmn
  if f.nextRing = r ∧ f.turnLeft ≠ 0 then { m with die.fmn.turnLeft := f.turnLeft - 1 }
  else { m with die.fmn.nextRing := r, die.fmn.turnLeft := 15 }

/-- A RING_CLOSE that waits completes when the consumer index reaches the producer index (Table 14.5), or when its ring is
stopped, from which no entry is taken any more (R528, log entry 92). -/
def M.ringClosed (m : M) (r : Nat) : M :=
  match m.ring r with
  | some g => match g.closing with
    | some mb =>
      if g.waiting = 0 ∨ g.stopped then { m with die.fmn.rings := mapDel m.die.fmn.rings r }.mbComplete mb ccOK else m
    | none => m
  | none => m

/-- An entry completed: STATUS written, the consumer index advanced, the interrupt bit set (R319, R527). -/
def M.ringStatus (m : M) (r i code : Nat) : M :=
  match m.ring r with
  | some g =>
    let next := (i + 1) % 2 ^ 32
    let m := m.carveWrite (carveWrap (g.entry i + 1)) (toBytes 1 code)
    let m := (m.carveWrite (carveWrap (g.base + 4)) (toBytes 4 next)).updRing r fun g => { g with consumer := next }
    (m.raise FMN_HOST_IRQ_RING r).ringClosed r
  | none => m

/-- An entry taken in its ring's turn (R527): its errors met, and the entry counted. -/
def M.takeEntry (m : M) (r a : Nat) : M := ((m.countTurn r).count FMN_RING_ENTRY_CNT).noteCarve a 128

/-- Entries in turn whose code does not belong on a ring complete with INVALID, up to a number of them (R527, R531). -/
def M.dropEntries : Nat → M → M
  | 0, m => m
  | n + 1, m =>
    match m.turn.bind fun r => (m.ring r).map fun g => (r, g) with
    | some (r, g) =>
      let a := g.entry g.consumer
      if ringCode (m.carveN a 1) then m else M.dropEntries n ((m.takeEntry r a).ringStatus r g.consumer ccINVALID)
    | none => m

/-- Every such entry in turn: no more than wait on all rings. -/
def M.dropUnknown (m : M) : M := M.dropEntries (sumBy m.die.fmn.rings fun r => r.2.waiting) m

/-- A request command taken from a ring: `f` gets the entry's carve-out offset and index, and answers the die and, when
the command completes now, its code. -/
def M.ringCommand (m : M) (r opcode : Nat) (f : Nat → Nat → M → M × Option Nat) : M :=
  match m.ringTake r opcode, m.ring r with
  | some i, some g =>
    match f (g.entry i) i (m.takeEntry r (g.entry i)) with
    | (m, some code) => (m.ringStatus r i code).dropUnknown
    | (m, none) => m.dropUnknown
  | _, _ => m

/-! ## Doorbells and polls -/

/-- A ring's producer index read: a ring that overran is stopped (R526, R528). -/
def M.readProducer (m : M) (r : Nat) : M :=
  match m.ring r with
  | some g =>
    if g.stopped then m
    else
      let p := m.carveN g.base 4
      let m := (m.noteCarve g.base 4).updRing r fun g => { g with producer := p }
      if 2 ^ g.k < (p + 2 ^ 32 - g.consumer) % 2 ^ 32 then
        (((m.updRing r fun g => { g with stopped := true }).raise FMN_RING_ERR r).count FMN_RING_ERR_CNT).ringClosed r
      else m.dropUnknown.ringClosed r
  | none => m

def execRingDoorbell (r : Nat) : State → Host.Outcome State Fault Refusal := onLive (M.readProducer · r)

/-- The poll of every open ring (R526). -/
def M.pollRings (m : M) : M := m.die.fmn.rings.foldl (fun m p => m.readProducer p.1) m

def execRingPoll : State → Host.Outcome State Fault Refusal := onLive M.pollRings

/-- A mailbox doorbell (R523, R524, R531): the BUSY bit is set; a command that belongs in no mailbox completes with
INVALID. -/
def M.mailboxDoorbell (m : M) (mb : Nat) : M :=
  if m.mbBusy mb then m.count FMN_MB_DOORBELL_BUSY_CNT
  else
    let m := m.setFld FMN_MB_BUSY mb mb 1
    if mailboxCode (m.mbArg mb 0 1) then m else m.mbComplete mb ccINVALID

def execMailboxDoorbell (mb : Nat) : State → Host.Outcome State Fault Refusal := onLive (M.mailboxDoorbell · mb)

end Sys2Proof.Machine
end

