-- ==== Sys2Proof/Machine/Message.lean ====
section
/-! DEFINITION. Messages of the fabric: a port's state and queues, headers, routing, forwarding and completion
(R442 to R450, R455, R456). -/
namespace Sys2Proof.Machine

/-! ## Port state -/

abbrev pDISABLED : Nat := 0
abbrev pACQUIRE : Nat := 1
abbrev pALIGN : Nat := 2
abbrev pINIT : Nat := 3
abbrev pACTIVE : Nat := 4
abbrev pHOLD : Nat := 5
abbrev pDEGRADING : Nat := 6

def M.pState (m : M) (p : Nat) : Nat := m.fld (portReg p RYS_PORT_STATUS) 3 0
def M.setPState (m : M) (p v : Nat) : M :=
  (m.setFld (portReg p RYS_PORT_STATUS) 3 0 v).updPort p fun x => { x with since := m.die.ft }

/-- The port carries traffic or keeps it: ACTIVE, HOLD or DEGRADING (R446). -/
def M.portUp (m : M) (p : Nat) : Bool := decide (4 ≤ m.pState p) && decide (m.pState p ≤ 6)

def M.rtt (m : M) (p : Nat) : Nat := m.fld (portReg p RYS_PORT_RTT_NS) 31 0

/-- This module's identifier (Table 11.9). -/
def M.moduleId (m : M) : Nat := m.fld RYS_XPT_ID 15 0

/-- Sequence arithmetic of R409: `a` is newer than `b`. -/
def seqMod : Nat := 0x100000
def seqNewer (a b : Nat) : Bool :=
  let d := (a + seqMod - b % seqMod) % seqMod
  decide (1 ≤ d) && decide (d ≤ 524287)

/-- Entry `i` of a list of four, and the list with it raised. -/
def at4 (l : List Nat) (i : Nat) : Nat := l.getD i 0
def add4 (l : List Nat) (i k : Nat) : List Nat := l.modify i (· + k)
def sub4 (l : List Nat) (i k : Nat) : List Nat := l.modify i (· - k)

/-- Flit payload bytes, and pool and replay-buffer units (R399, R418, R419). -/
def flitPayload : Nat := 242
def poolUnits : Nat := 16384

/-- A message put behind those of its class on a port (R443); the last `due` bytes of its body come on `feed`. -/
def M.enqueueAs (m : M) (p cls : Nat) (msg : Bytes) (due feed : Nat) : M :=
  m.updPort p fun x => { x with sendQ := mapUpd x.sendQ cls [] (· ++ [{ bytes := msg, due, feed }]) }

/-- A whole message put behind those of its class on a port. -/
def M.enqueue (m : M) (p cls : Nat) (msg : Bytes) : M := m.enqueueAs p cls msg 0 0

/-- The port may take new messages: it is not draining (R440). -/
def M.portTakes (m : M) (p : Nat) : Bool := m.portUp p && (m.port p).draining.isNone

/-! ## Messages (Tables 11.1 and 11.2) -/

abbrev tyPUT : Nat := 1
abbrev tyPUT_DONE : Nat := 2
abbrev tyPAGE_SHIP : Nat := 3
abbrev tySHIP_CTL : Nat := 4
abbrev tySHARD_REQ : Nat := 5
abbrev tySHARD_DATA : Nat := 6
abbrev tyNOT_HELD : Nat := 7
abbrev tyBAR_ARRIVE : Nat := 8
abbrev tyBAR_RELEASE : Nat := 9
abbrev tyFOREMAN : Nat := 10

/-- Class of a message type; none for a type not listed. -/
def messageClass (type : Nat) : Option Nat :=
  match type with
  | 1 => some 1
  | 2 => some 0
  | 3 => some 2
  | 4 => some 0
  | 5 => some 3
  | 6 => some 3
  | 7 => some 3
  | 8 => some 0
  | 9 => some 0
  | 10 => some 0
  | _ => none

/-- A message with its header's CRC (Table 11.1). -/
def makeMessage (type hops dest src flow : Nat) (ts body : Bytes) : Bytes :=
  let h := toBytes 1 type ++ toBytes 1 hops ++ toBytes 2 dest ++ toBytes 2 src ++ toBytes 2 flow ++
    toBytes 4 body.length ++ slice ts 0 16
  h ++ toBytes 4 (crc32c h) ++ body

/-- Fields of a message. -/
def msgType (b : Bytes) : Nat := byteAt b 0
def msgHops (b : Bytes) : Nat := byteAt b 1
def msgDest (b : Bytes) : Nat := numAt b 2 2
def msgSrc (b : Bytes) : Nat := numAt b 4 2
def msgFlow (b : Bytes) : Nat := numAt b 6 2
def msgLen (b : Bytes) : Nat := numAt b 8 4
/-- A type-specific field, by its byte in the header. -/
def msgTs (b : Bytes) (o n : Nat) : Nat := numAt b o n
def msgBody (b : Bytes) : Bytes := slice b 32 (msgLen b)

/-- The hash of R446. -/
def routeHash (src dest flow cls : Nat) : Nat :=
  let h := src ^^^ dest ^^^ flow ^^^ (cls <<< 14)
  (h ^^^ (h >>> 7) ^^^ (h >>> 11)) % 65536

/-- The usable next hops toward a destination, in entry order (R446). -/
def M.nextHops (m : M) (dest : Nat) : List Nat :=
  let a := RYS_ROUTE + 8 * dest
  if m.flag a 31 then
    ((List.range (m.fld a 17 16 + 1)).map fun i => m.fld a (4 * i + 3) (4 * i)).filter m.portTakes
  else []

/-- The port a message leaves on. -/
def M.routePort (m : M) (b : Bytes) (cls : Nat) : Option Nat :=
  let ps := m.nextHops (msgDest b)
  ps[routeHash (msgSrc b) (msgDest b) (msgFlow b) cls % ps.length]?

/-! ## The end of a put (R455, R456) -/

/-- A PUT completes at its originator with a CODE of Table 11.3. -/
def M.putComplete (m : M) (dest window offset step attempt code port : Nat) : M :=
  match m.die.ownPuts.find? fun o =>
    o.dest == dest && o.window == window && o.offset == offset && o.step == step && o.attempt == attempt with
  | none => m
  | some o =>
    let m := { m with die.ownPuts := m.die.ownPuts.erase o }
    let m := m.updFlight o.core o.push fun f => { f with owed := f.owed.erase offset }
    if code = 0 then m
    else
      let current := (m.die.step.map fun s => s.number == step && s.attempt == attempt).getD false
      let m := if current then m.stepError else m
      if code = 1 ∨ code = 2 then
        let m := (m.count RYS_XPT_FLUSHED_CPL_CNT).errorClass 14 5 port 0
        if current then m.updStep fun s => { s with peerLost := true } else m
      else m

/-- A message of this module's own that will not arrive completes with a code: only a PUT has someone waiting. -/
def M.messageFailed (m : M) (msg : Bytes) (code port : Nat) : M :=
  if byteAt msg 0 = 1 ∧ numAt msg 4 2 = m.moduleId then
    m.putComplete (numAt msg 2 2) (numAt msg 12 2) (numAt msg 16 4) (numAt msg 20 8) (byteAt msg 14) code port
  else m

/-! ## Sending and forwarding (R446 to R450) -/

/-- A message sent on its way (R446, R448): to this module itself, to a port, or discarded. -/
def M.routeMessage (m : M) (cls : Nat) (b : Bytes) : M :=
  if msgDest b = m.moduleId then { m with die.loopback := m.die.loopback ++ [(cls, b)] }
  else match m.routePort b cls with
    | some p => m.enqueue p cls b
    | none => (m.count RYS_XPT_NO_ROUTE_CNT).messageFailed b 2 0

/-- HOPS of a message this module originates. -/
def M.hopLimit (m : M) : Nat := max 1 (m.fld RYS_XPT_CTRL 7 0)

/-- A message originated with a given flow label. -/
def M.sendFlow (m : M) (type dest flow : Nat) (ts body : Bytes) : M :=
  let b := makeMessage type m.hopLimit dest m.moduleId flow ts body
  (m.count RYS_XPT_MSG_TX_CNT).routeMessage ((messageClass type).getD 0) b

/-- A message originated: the module chooses its flow label. -/
def M.sendMessage (m : M) (type dest : Nat) (ts body : Bytes) : M :=
  m.spend.sendFlow type dest (m.freeValue % 65536) ts body

/-- A message to the neighbor on a port (R474); a port that is not up takes none. -/
def M.sendOn (m : M) (p type : Nat) (ts body : Bytes) : M :=
  let b := makeMessage type m.hopLimit (m.fld (portReg p RYS_PORT_PARTNER) 15 0) m.moduleId (m.freeValue % 65536) ts body
  let m := m.spend.count RYS_XPT_MSG_TX_CNT
  if m.portTakes p then m.enqueue p ((messageClass type).getD 0) b else m.count RYS_XPT_NO_ROUTE_CNT

/-- A transit message's header, as it goes on: HOPS one less, and its CRC. -/
def forwardHeader (b : Bytes) : Bytes :=
  let h := slice b 0 1 ++ toBytes 1 (msgHops b - 1) ++ slice b 2 26
  h ++ toBytes 4 (crc32c h)

/-- A message in transit, of which `b` holds the header and the bytes of the body that have come (R448 to R450): the
port that it leaves on, when it is forwarded. The rest of its body, `due` bytes, comes on `feed`. -/
def M.forwardOn (m : M) (cls : Nat) (b : Bytes) (due feed : Nat) : Option Nat × M :=
  if msgHops b = 0 then (none, m.count RYS_XPT_HOPLIMIT_DROP_CNT)
  else match m.routePort b cls with
    | none => (none, (m.count RYS_XPT_NO_ROUTE_CNT).messageFailed b 2 0)
    | some p => (some p, (m.count RYS_XPT_FWD_CNT).enqueueAs p cls (forwardHeader b ++ b.drop 32) due feed)

/-- A whole message in transit. -/
def M.forward (m : M) (cls : Nat) (b : Bytes) : M := (m.forwardOn cls (slice b 0 (32 + msgLen b)) 0 0).2

/-- Bytes of a body that have come for a message in transit: they join it where it waits, unless a flush has discarded
it. -/
def M.feedMessage (m : M) (p cls feed : Nat) (bs : Bytes) : M :=
  m.updPort p fun x => { x with sendQ := mapUpd x.sendQ cls [] fun q => q.map fun o =>
    if 0 < o.due ∧ o.feed = feed then { o with bytes := o.bytes ++ bs.take o.due, due := o.due - bs.length } else o }

/-- A message in transit whose body will not come (R437): what has come of it is discarded. Where its beginning has been
sent, free values stand for the rest of it in its class's stream (log entry 129). -/
def M.cutMessage (m : M) (p cls feed : Nat) : M :=
  let cut := fun (o : OutMessage) => decide (0 < o.due) && o.feed == feed
  let x := m.port p
  let q := mapGetD x.sendQ cls []
  match q with
  | [] => m
  | o :: r =>
    if cut o && decide (0 < mapGetD x.sendOff cls 0) then
      let off := mapGetD x.sendOff cls 0
      let o := { o with bytes := o.bytes.take off ++ (List.range (o.bytes.length - off + o.due)).map fun i => BitVec.ofNat 8 (m.freeValue / 256 ^ i), due := 0 }
      m.spend.updPort p fun x => { x with sendQ := mapSet x.sendQ cls (o :: r) }
    else m.updPort p fun x => { x with sendQ := mapSet x.sendQ cls (q.filter fun o => !cut o) }

/-! ## Completion with LINK_FLUSHED (R437, R455) -/

/-- The PUT_DONE with CODE LINK_FLUSHED that a flushed PUT or PUT_DONE brings to the PUT's originator: it stands for
the PUT's destination (Table 11.3, log entry 128). -/
def flushNotice (hops : Nat) (b : Bytes) : Bytes :=
  let put := msgType b == tyPUT
  makeMessage tyPUT_DONE hops (if put then msgSrc b else msgDest b) (if put then msgDest b else msgSrc b) (msgFlow b)
    (slice b 12 3 ++ toBytes 1 1 ++ slice b 16 12) []

/-- A message that a flush of port `p` discarded completes to its originator with LINK_FLUSHED (R437). -/
def M.messageFlushed (m : M) (b : Bytes) (p : Nat) : M :=
  if msgType b = tyPUT ∧ msgSrc b = m.moduleId then m.messageFailed b 1 p
  else if msgType b = tyPUT ∨ msgType b = tyPUT_DONE then
    (m.count RYS_XPT_MSG_TX_CNT).routeMessage 0 (flushNotice m.hopLimit b)
  else m

end Sys2Proof.Machine
end

