-- ==== Sys2Proof/Machine/Link.lean ====
section
/-! DEFINITION. The link layer of a Rysia port (chapter 10): control messages, lanes, training, port states and flush. -/
namespace Sys2Proof.Machine

/-! ## Messages on their way out -/

/-- A control message that waits for the next control flit (R402, R441). -/
def M.control (m : M) (p : Nat) (msg : Bytes) : M := m.updPort p fun x => { x with ctlOut := x.ctlOut ++ [msg] }

/-- Control messages that the next control flit carries ahead of those that wait. -/
def M.controlFirst (m : M) (p : Nat) (msgs : List Bytes) : M := m.updPort p fun x => { x with ctlOut := msgs ++ x.ctlOut }

/-- A control message of 16 bytes: type, length and the bytes from byte 2 on (Table 10.4). -/
def ctl16 (type : Nat) (body : Bytes) : Bytes := toBytes 1 type ++ toBytes 1 1 ++ slice body 0 14
def ctl32 (type : Nat) (body : Bytes) : Bytes := toBytes 1 type ++ toBytes 1 2 ++ slice body 0 30

/-- A CREDIT report (R422): HELD, HDR and SLOT as they stand. -/
def Port.report (x : Port) (slot : Nat) : Bytes :=
  ctl32 1 (zeros 2 ++ toBytes 4 slot ++ x.held.flatMap (toBytes 2) ++ x.hdrSent.flatMap (toBytes 2))

/-- Building a report settles every freed unit not yet in a header (R422). -/
def Port.settled (x : Port) : Port := { x with freed := [0, 0, 0, 0], reportOwed := false }

/-- A CREDIT report, and behind it what else waits; `lead` goes ahead of it in the same control flit (R413, R436). -/
def M.reportBehind (m : M) (p slot : Nat) (lead : List Bytes) : M :=
  (m.controlFirst p (lead ++ [(m.port p).report slot])).updPort p Port.settled

/-! ## Lane states (Table 10.14) -/

abbrev laneActive : Nat := 0
abbrev laneSpare : Nat := 1
abbrev laneFailed : Nat := 2
abbrev laneRetraining : Nat := 3

/-- The codes of a lane return's transition, which sends no LANE message: it retrains, or has retrained and waits for
the step boundary (R44, R430). -/
abbrev oRETURN : Nat := 0
abbrev oRETRAINED : Nat := 255

/-- Bit of a lane's code in RYS_PORTn_LANE_STATE. -/
def laneBit (rx : Bool) (lane : Nat) : Nat := 2 * lane + 18 * bit rx

def M.lane (m : M) (p : Nat) (rx : Bool) (lane : Nat) : Nat :=
  m.fld (portReg p RYS_PORT_LANE_STATE) (laneBit rx lane + 1) (laneBit rx lane)
def M.setLane (m : M) (p : Nat) (rx : Bool) (lane v : Nat) : M :=
  m.setFld (portReg p RYS_PORT_LANE_STATE) (laneBit rx lane + 1) (laneBit rx lane) v

/-- The spare lane of a direction, if it has one. -/
def M.spareLane (m : M) (p : Nat) (rx : Bool) : Option Nat := (List.range 9).find? fun l => m.lane p rx l == laneSpare

/-- W of a direction (RYS_PORTn_STATUS). -/
def M.width (m : M) (p : Nat) (rx : Bool) : Nat :=
  if rx then m.fld (portReg p RYS_PORT_STATUS) 19 16 else m.fld (portReg p RYS_PORT_STATUS) 23 20
def M.setWidth (m : M) (p : Nat) (rx : Bool) (w : Nat) : M :=
  if rx then m.setFld (portReg p RYS_PORT_STATUS) 19 16 w else m.setFld (portReg p RYS_PORT_STATUS) 23 20 w

/-- Lanes laid out from a mask of usable ones: the lowest W active, the next the spare, the rest failed (R404). -/
def M.layLanes (m : M) (p : Nat) (rx : Bool) (mask w : Nat) : M :=
  let good := (List.range 9).filter fun l => mask.testBit l
  let m := (List.range 9).foldl (fun m l =>
    m.setLane p rx l (if (good.take w).contains l then laneActive else if good[w]? == some l then laneSpare else laneFailed)) m
  let m := m.setWidth p rx w
  m.updPort p fun x => if rx then { x with rxMap := good.take w, lost := [] } else { x with txMap := good.take w }

def M.task (m : M) (p : Nat) (rx : Bool) : Option LaneTask := if rx then (m.port p).rxTask else (m.port p).txTask
def M.setTask (m : M) (p : Nat) (rx : Bool) (t : Option LaneTask) : M :=
  m.updPort p fun x => if rx then { x with rxTask := t } else { x with txTask := t }

/-- A port, lane or optical engine transition runs (RYS_PORTn_STATUS.TRANSITION, R43, R598). -/
def M.portBusy (m : M) (p : Nat) : Bool :=
  (m.port p).rxTask.isSome || (m.port p).txTask.isSome || (m.port p).draining.isSome || m.pState p == pDEGRADING ||
    m.fld (PWR_OPT + 8 * p) 1 0 == 1

/-! ## Entering states (Table 10.5) -/

/-- The optical engine of a port (R598): 0 OFF, 1 STARTING, 2 ON, 3 FAILED. -/
def M.setEngine (m : M) (p v : Nat) : M := (m.setFld (PWR_OPT + 8 * p) 1 0 v).setFld (PWR_OPT + 8 * p) 8 8 (bit (v == 1))

/-- A port out of service: no lanes run. -/
def M.darkPort (m : M) (p state : Nat) : M := ((m.setPState p state).setWidth p true 0).setWidth p false 0

/-- A fresh nonzero SESSION: the spec says random (R405). -/
def M.newSession (m : M) (p : Nat) : M :=
  let v := m.freeValue % (2 ^ 32 - 1) + 1
  m.spend.updPort p fun x => { x with session := v, ackSent := false, ackReceived := false, pongs := [] }

/-- The four reserves in pool units: RYS_PORTn_RESERVE, or 64 KiB each when they sum to more than 2 MiB. -/
def M.ownReserves (m : M) (p : Nat) : List Nat :=
  let r := (List.range 4).map fun i => m.fld (portReg p RYS_PORT_RESERVE) (8 * i + 7) (8 * i)
  if 512 < r.sum then [16, 16, 16, 16] else r

/-- The INIT message of a port (R405). -/
def M.initMessage (m : M) (p : Nat) : Bytes :=
  let mask := ((List.range 9).filter fun l => m.lane p true l == laneActive || m.lane p true l == laneSpare).foldl
    (fun n l => n + 2 ^ l) 0
  ctl32 3 (toBytes 2 m.moduleId ++ toBytes 1 p ++ toBytes 1 1 ++ toBytes 4 (m.port p).session ++ toBytes 2 poolUnits ++
    (m.ownReserves p).flatMap (toBytes 1) ++ toBytes 2 mask ++ toBytes 1 (m.width p true))

/-- Sixteen PINGs (R405, R436). -/
def M.pings (m : M) (p : Nat) : M :=
  (List.range 16).foldl (fun m _ => m.control p (ctl16 6 (zeros 6 ++ toBytes 8 m.die.ft)))
    (m.updPort p fun x => { x with pongs := [] })

/-- INIT with a new session (R405, R437). -/
def M.enterInit (m : M) (p : Nat) : M :=
  let m := (m.setPState p pINIT).newSession p
  let m := m.setFld (portReg p RYS_PORT_PARTNER) 63 32 0
  ((m.updPort p fun x => { x with ctlOut := [], reportOwed := false }).control p (m.initMessage p)).pings p

def M.enterAcquire (m : M) (p : Nat) : M := m.darkPort p pACQUIRE

/-- Pool units that PUTs held from a port keep (R453). -/
def M.earlyUnits (m : M) (p : Nat) : Nat := sumBy (m.die.earlyPuts.filter fun e => e.port == p) (·.units)

/-- Both ends agree: sequences, slots and credits start afresh (R407). -/
def M.enterActive (m : M) (p : Nat) : M :=
  (m.setPState p pACTIVE).updPort p fun x => { x with
    txSeq := 0, replay := [], unacked := [], replayFrom := none, replayStart := none, lastAck := 0xFFFFF, lastNack := none
    replayTimer := m.die.ft, expiries := 0, inUse := [0, 0, 0, 0], hdrApplied := [0, 0, 0, 0], sent := [], slot := 0
    lastReport := none, frozen := false, expect := 0, accepted := 0, nackState := false, lastGood := m.die.ft
    rxSlot := 0xFFFFFFFF, held := [0, m.earlyUnits p, 0, 0], freed := [0, 0, 0, 0], hdrSent := [0, 0, 0, 0], open_ := [0, 0, 0, 0]
    stream := [], transit := [], reportOwed := false }

/-- CTRL.ENABLE and CTRL.ADMIT. -/
def M.enabled (m : M) (p : Nat) : Bool := m.flag (portReg p RYS_PORT_CTRL) 0
def M.admitted (m : M) (p : Nat) : Bool := m.flag (portReg p RYS_PORT_CTRL) 1

/-- ACTIVE once INIT_ACK has gone both ways (R407). -/
def M.tryActive (m : M) (p : Nat) : M :=
  if m.pState p = pINIT ∧ (m.port p).ackSent ∧ (m.port p).ackReceived then m.enterActive p else m

/-! ## Flush (R437) -/

/-- Messages of a port that a flush discards: those queued and those whose last flit is not acknowledged. -/
def Port.messages (x : Port) : List Bytes := x.unacked.map (·.2) ++ x.sendQ.flatMap fun q => q.2.map (·.bytes)

/-- Messages partly received (R437): of each class, one for this module, or one that goes on to another. -/
def Port.partly (x : Port) : Nat :=
  (x.stream.filter fun s => !s.2.isEmpty).length + (x.transit.filter fun t => decide (t.2.1 < 16) && decide (0 < t.2.2)).length

/-- A lane that retrains after its return goes on over a flush to INIT (R430). -/
def keepReturn (t : Option LaneTask) : Option LaneTask := t.filter fun t => t.op == oRETURN || t.op == oRETRAINED

/-- A LANE_CMD operation latched behind a transition that a flush or a link down abandons: it runs from the state left, in
which a lane operation does nothing (R515, log entry 65); behind one that goes on it stays latched. -/
def keepLatched (t : Option LaneTask) (l : Option (Nat × Nat)) : Option (Nat × Nat) := if t.isSome then l else none

/-- The number of a lane direction among the functions of R43. -/
def fnLane (p : Nat) (rx : Bool) : Nat := 16 * (2 * p + bit rx) + 1

/-- UNIT commands of the directions that a flush or a link down has left without a transition complete (R515, R525). -/
def M.lanesLeft (m : M) (p : Nat) : M :=
  [true, false].foldl (fun m rx =>
    if (m.task p rx).isSome then m
    else (((m.unitDone (fnLane p rx) ccOK).unitTurn (fnLane p rx)).unitDone (fnLane p rx) ccOK)) m

/-- A flush: every replay entry and message goes, each with LINK_FLUSHED, as do messages partly received, and the port
takes its next state; `down` when it follows a received DOWN. -/
def M.flushPort (m : M) (p : Nat) (down : Bool) : M :=
  let x := m.port p
  let msgs := x.messages
  let m := (m.count (portReg p RYS_PORT_FLUSH_CNT)).countBy (portReg p RYS_PORT_FLUSH_FLIT_CNT) x.replay.length
  let m := m.countBy (portReg p RYS_PORT_FLUSH_MSG_CNT) (msgs.length + x.partly)
  let keep := m.enabled p && !down
  let m := x.transit.foldl (fun m t => if t.2.1 < 16 then m.cutMessage t.2.1 t.1 (4 * p + t.1) else m) m
  let m := m.updPort p fun y =>
    let tx := if keep then keepReturn y.txTask else none
    let rx := if keep then keepReturn y.rxTask else none
    { y with
    replay := [], unacked := [], replayFrom := none, sendQ := [], sendOff := [], stream := [], transit := []
    open_ := [0, 0, 0, 0], txTask := tx, rxTask := rx, txLatched := keepLatched tx y.txLatched
    rxLatched := keepLatched rx y.rxLatched, draining := none
    retrained := false, nackState := false }
  let m :=
    if !m.enabled p then (m.darkPort p pDISABLED).setEngine p 0
    else if down then m.enterAcquire p
    else m.enterInit p
  let m := m.lanesLeft p
  msgs.foldl (fun m b => m.messageFlushed b p) m

/-! ## Port control (R406, R437, R440, R598) -/

/-- ENABLE set: the engine powers on, and the port leaves DISABLED once it is ON (R598). -/
def M.portEnable (m : M) (p : Nat) : M :=
  if m.enabled p then m
  else
    let m := m.setFld (portReg p RYS_PORT_CTRL) 0 0 1
    if m.pState p = pDISABLED then m.setEngine p 1 else m

/-- ENABLE cleared: a drain in ACTIVE, a flush in DEGRADING or HOLD, and DISABLED at once in any other state. -/
def M.portDisable (m : M) (p : Nat) : M :=
  if !m.enabled p then m
  else
    let m := m.setFld (portReg p RYS_PORT_CTRL) 0 0 0
    if m.pState p = pACTIVE then m.updPort p fun x => { x with draining := some m.die.ft }
    else if m.portUp p then m.flushPort p false
    else (m.darkPort p pDISABLED).setEngine p 0

/-- ADMIT set: the links are admitted (HDF_STATUS.STAGE 6, Table 15.10). -/
def M.portAdmit (m : M) (p : Nat) : M :=
  let m := m.setFld (portReg p RYS_PORT_CTRL) 1 1 1
  if m.fld HDF_STATUS 11 8 < 6 then m.setFld HDF_STATUS 11 8 6 else m

def M.portUnadmit (m : M) (p : Nat) : M :=
  let m := m.setFld (portReg p RYS_PORT_CTRL) 1 1 0
  if m.portUp p then m.flushPort p false else m

/-- A write of ENABLE and ADMIT: latched while a transition of the port runs (R43, Table 10.13), except that clearing
either in DEGRADING flushes at once (R437, log entry 105), and takes the place of a write latched before it. -/
def M.portControl (m : M) (p : Nat) (enable admits : Bool) : M :=
  let flushes := m.pState p == pDEGRADING && (m.enabled p && !enable || m.admitted p && !admits)
  if m.portBusy p && !flushes then
    (m.latched (m.port p).ctrlLatched.isSome).updPort p fun x => { x with ctrlLatched := some (enable, admits) }
  else
    let m := if (m.port p).ctrlLatched.isSome then
        (m.count FMN_TRANSITION_SUPERSEDE_CNT).updPort p fun x => { x with ctrlLatched := none }
      else m
    let m := if admits == m.admitted p then m else if admits then m.portAdmit p else m.portUnadmit p
    if enable then m.portEnable p else m.portDisable p

/-- The latched write runs once the transition has ended (R515). -/
def M.runLatchedControl (m : M) (p : Nat) : M :=
  match (m.port p).ctrlLatched with
  | none => m
  | some (e, a) =>
    if m.portBusy p then m else (m.updPort p fun x => { x with ctrlLatched := none }).portControl p e a

/-- A flush that ends a transition or a drain: a latched write of ENABLE or ADMIT follows (R437, R515). -/
def M.flushed (m : M) (p : Nat) (down : Bool) : M := (m.flushPort p down).runLatchedControl p

def M.pendingEnable (m : M) (p : Nat) : Bool := match (m.port p).ctrlLatched with | some (e, _) => e | none => m.enabled p
def M.pendingAdmit (m : M) (p : Nat) : Bool := match (m.port p).ctrlLatched with | some (_, a) => a | none => m.admitted p

def execPortEnable (p : Nat) : State → Host.Outcome State Fault Refusal :=
  onLive fun m => m.portControl p true (m.pendingAdmit p)
def execPortDisable (p : Nat) : State → Host.Outcome State Fault Refusal :=
  onLive fun m => m.portControl p false (m.pendingAdmit p)
def execPortAdmit (p : Nat) : State → Host.Outcome State Fault Refusal :=
  onLive fun m => m.portControl p (m.pendingEnable p) true
def execPortUnadmit (p : Nat) : State → Host.Outcome State Fault Refusal :=
  onLive fun m => m.portControl p (m.pendingEnable p) false

/-- The engine of an enabled port is ON, and the port enters ACQUIRE; one whose bias fails stays DISABLED. A write of
ENABLE or ADMIT latched meanwhile follows (R43, R598). -/
def M.engineOn (m : M) (p : Nat) (biasSettled : Bool) : M :=
  if m.fld (PWR_OPT + 8 * p) 1 0 = 1 then
    (if biasSettled then (m.setEngine p 2).enterAcquire p else m.setEngine p 3).runLatchedControl p
  else m

def execOpticalEngineOn (p : Nat) (biasSettled : Bool) : State → Host.Outcome State Fault Refusal :=
  onLive (M.engineOn · p biasSettled)

/-- Grace in ns, held to its limits (RYS_PORTn_GRACE). -/
def M.grace (m : M) (p : Nat) : Nat := 1000 * clamp 50 500000 (m.fld (portReg p RYS_PORT_GRACE) 18 0)

/-! ## Training (Table 10.5, R404) -/

def popcount (n : Nat) : Nat := ((List.range 9).filter fun i => n.testBit i).length

/-- The partner that the alignment codewords name: the one most lanes agree on, of equal ones the first (log entry
127). -/
def partnerSeen (seen : List LaneSeen) : Option (Nat × Nat) :=
  let votes := fun n => (seen.filter fun l => l.named == some n).length
  (seen.filterMap (·.named)).foldl (fun best n =>
    match best with
    | none => some n
    | some b => if votes b < votes n then some n else best) none

/-- The deskew range, 80 ns, in picoseconds (Table 10.1). -/
def deskewRange : Nat := 80000

/-- The usable receive lanes, a mask (R404): locked, naming the same partner module and port, and arriving within
80 ns of the earliest of them. -/
def usableLanes (seen : List LaneSeen) : Nat :=
  let same := seen.filter fun l => l.named.isSome && l.named == partnerSeen seen
  let first := same.foldl (fun t l => min t l.arrival) ((same.head?.map (·.arrival)).getD 0)
  (List.range 9).foldl (fun n i =>
    if same.any fun l => l.lane == i && decide (l.arrival ≤ first + deskewRange) then n + 2 ^ i else n) 0

/-- The receive lanes laid out by what training found of them, with the partner it found (R404). -/
def M.layReceive (m : M) (p : Nat) (seen : List LaneSeen) : M :=
  let lanes := usableLanes seen
  (m.layLanes p true lanes (min 8 (popcount lanes))).updPort p fun x => { x with seen := partnerSeen seen }

/-- Receive lanes have locked: with 7 or more the port enters ALIGN. Once alignment codewords are read, ALIGN ends in
INIT with 7 or more usable lanes, and else in ACQUIRE again (Table 10.5, R404). -/
def M.lanesLocked (m : M) (p : Nat) (seen : List LaneSeen) : M :=
  let locked := popcount (seen.foldl (fun n l => n ||| 2 ^ l.lane) 0)
  let m := if m.pState p = pACQUIRE ∧ 7 ≤ locked then m.setPState p pALIGN else m
  if m.pState p ≠ pALIGN ∨ seen.all (·.named.isNone) then m
  else if 7 ≤ popcount (usableLanes seen) then (m.layReceive p seen).enterInit p
  else m.enterAcquire p

def execLanesLocked (p : Nat) (lanes : List LaneSeen) : State → Host.Outcome State Fault Refusal := onLive (M.lanesLocked · p lanes)

/-- An acquisition attempt of 100 ms fails. -/
def M.acquireTimeout (m : M) (p : Nat) : M :=
  if m.pState p = pACQUIRE then
    let m := (m.reach ((m.port p).since + 100000000)).count (portReg p RYS_PORT_TRAIN_FAIL_CNT)
    m.updPort p fun x => { x with since := m.die.ft }
  else m

def execAcquireTimeout (p : Nat) : State → Host.Outcome State Fault Refusal := onLive (M.acquireTimeout · p)

/-- INIT goes out every 10 µs (R405). -/
def M.initTimer (m : M) (p : Nat) : M := if m.pState p = pINIT then m.control p (m.initMessage p) else m

def execInitTimer (p : Nat) : State → Host.Outcome State Fault Refusal := onLive (M.initTimer · p)

/-- An INIT received (R404, R406, R437): one of another session begins a new pair of sessions (R407). -/
def M.initReceive (m : M) (p : Nat) (msg : Bytes) : M :=
  if m.portUp p then m.flushed p false
  else if m.pState p ≠ pINIT then m
  else
    let session := numAt msg 6 4
    let same := m.fld (portReg p RYS_PORT_PARTNER) 63 32 == session
    let m := m.setReg (portReg p RYS_PORT_PARTNER)
      (BitVec.ofNat 64 (session * 2 ^ 32 + byteAt msg 4 % 16 * 2 ^ 16 + numAt msg 2 2))
    let m := m.updPort p fun x => { x with
      partnerLanes := numAt msg 16 2 % 512, partnerWidth := byteAt msg 18, pool := numAt msg 10 2
      reserves := (List.range 4).map fun i => 16 * byteAt msg (12 + i)
      ackSent := same && x.ackSent, ackReceived := same && x.ackReceived }
    let w := if byteAt msg 18 = 7 then 7 else 8
    let m := m.layLanes p false (numAt msg 16 2 % 512) w
    if m.admitted p then
      ((m.control p (ctl16 4 (zeros 2 ++ toBytes 4 session ++ toBytes 4 (m.port p).session))).updPort p fun x =>
        { x with ackSent := true }).tryActive p
    else m.control p (ctl16 5 (zeros 2 ++ toBytes 4 session))

def execInitReceive (p : Nat) (msg : Bytes) : State → Host.Outcome State Fault Refusal := onLive (M.initReceive · p msg)

/-- An INIT_ACK received for the current pair of sessions (R407). -/
def M.initAckReceive (m : M) (p : Nat) (msg : Bytes) : M :=
  let known := m.fld (portReg p RYS_PORT_PARTNER) 63 32
  if m.pState p = pINIT ∧ numAt msg 4 4 = (m.port p).session ∧ (known = 0 ∨ known = numAt msg 8 4) then
    ((m.setFld (portReg p RYS_PORT_PARTNER) 63 32 (numAt msg 8 4)).updPort p fun x => { x with ackReceived := true }).tryActive p
  else m

def execInitAckReceive (p : Nat) (msg : Bytes) : State → Host.Outcome State Fault Refusal :=
  onLive (M.initAckReceive · p msg)

/-- A NOT_READY received: the partner grants nothing yet (R406). -/
def M.notReadyReceive (m : M) (p : Nat) (msg : Bytes) : M :=
  if m.pState p = pINIT ∧ numAt msg 4 4 = (m.port p).session then m.updPort p fun x => { x with ackReceived := false }
  else m

def execNotReadyReceive (p : Nat) (msg : Bytes) : State → Host.Outcome State Fault Refusal :=
  onLive (M.notReadyReceive · p msg)

/-- A PING is answered with its own time (Table 10.4). -/
def M.pingReceive (m : M) (p : Nat) (msg : Bytes) : M :=
  if m.pState p = pINIT ∨ m.portUp p then m.control p (ctl16 7 (zeros 6 ++ slice msg 8 8)) else m

def execPingReceive (p : Nat) (msg : Bytes) : State → Host.Outcome State Fault Refusal := onLive (M.pingReceive · p msg)

/-- A PONG gives one round trip; sixteen give RTT_NS (R405). -/
def M.pongReceive (m : M) (p : Nat) (msg : Bytes) : M :=
  let x := m.port p
  if (m.pState p = pINIT ∨ m.portUp p) ∧ x.pongs.length < 16 then
    let ps := x.pongs ++ [m.die.ft - numAt msg 8 8]
    let m := m.updPort p fun x => { x with pongs := ps }
    if ps.length = 16 then m.setFld (portReg p RYS_PORT_RTT_NS) 31 0 (ps.foldl max 0) else m
  else m

def execPongReceive (p : Nat) (msg : Bytes) : State → Host.Outcome State Fault Refusal := onLive (M.pongReceive · p msg)

end Sys2Proof.Machine
end

