-- ==== Sys2Proof/Machine/LinkTx.lean ====
section
/-! DEFINITION. The sending side of a Rysia port: credits, flits, replay, and the transmit slot (R409 to R424, R441). -/
namespace Sys2Proof.Machine

/-! ## Credits (R420) -/

/-- Units in use beyond the reserves. -/
def Port.sharedUsed (x : Port) : Nat := sumBy (List.range 4) fun d => at4 x.inUse d - at4 x.reserves d

/-- can_send of R420; while every unit counts as in use, nothing may go (R436). -/
def Port.canSend (x : Port) (c : Nat) : Bool :=
  !x.frozen && (decide (at4 x.inUse c < at4 x.reserves c) || decide (x.sharedUsed < x.pool - x.reserves.sum))

/-! ## Flits (R399, R400) -/

/-- A flit from its header fields and payload. -/
def makeFlit (seq ack ctl cls rcls rcnt : Nat) (payload : Bytes) : Bytes :=
  let b := toBytes 6 (seq * 2 ^ 28 + ack * 2 ^ 8 + ctl * 2 ^ 7 + cls * 2 ^ 5 + rcls * 2 ^ 3 + rcnt) ++ slice payload 0 242
  b ++ toBytes 8 (crcFlit b)

/-- The ACK that the port sends: E − 1 (R411). -/
def Port.ack (x : Port) : Nat := (x.expect + seqMod - 1) % seqMod

/-- The next payload of a class's stream (R443): the bytes, the messages left, the bytes of the first one already sent,
and the messages that ended. A message in transit goes on only with a whole flit of it, or with its end: before its
beginning the flit is padded (R450). -/
def fillFlit : List OutMessage → Nat → Nat → Bytes × List OutMessage × Nat × List Bytes
  | [], _, _ => ([], [], 0, [])
  | b :: bs, off, room =>
    let rest := b.bytes.drop off
    if b.due = 0 ∧ rest.length ≤ room then
      let (p, q, o, d) := fillFlit bs 0 (room - rest.length)
      (rest ++ p, q, o, b.bytes :: d)
    else if room ≤ rest.length then (rest.take room, b :: bs, off + room, [])
    else ([], b :: bs, off, [])

/-- A flit of the class is ready at the head of its queue: of a message in transit, its bytes have come (R450). -/
def Port.ready (x : Port) (c : Nat) : Bool :=
  match mapGetD x.sendQ c [] with
  | [] => false
  | b :: _ => b.due == 0 || decide (flitPayload ≤ b.bytes.length - mapGetD x.sendOff c 0)

/-! ## Lanes and alignment codewords (R395, R396) -/

/-- Stripes that the 256 data codewords of an alignment period hold on one lane: 256 of 5,140 bits each (Table 10.1). -/
def laneStripes : Nat := 5140

/-- The physical lane of each logical transmit lane: lanes 0 to 7 until the partner has named its own (log entry
127). -/
def Port.txLanes (x : Port) : List Nat := if x.txMap.isEmpty then List.range 8 else x.txMap

/-- Stripes of an alignment period. -/
def Port.periodStripes (x : Port) : Nat := laneStripes * x.txLanes.length

/-- The slot that the transmit direction is in is the last before the next alignment codewords (R431). -/
def Port.lastOfPeriod (x : Port) : Bool := decide (x.periodStripes ≤ x.inPeriod + 8)

/-- The lane that the transmit direction mirrors, and the spare that mirrors it (R428). -/
def Port.mirror (x : Port) : Option (Nat × Nat) :=
  x.txTask.bind fun t => if t.op = 2 then some (t.lane, t.spare) else none

/-- The 8 stripes of a flit on their lanes (R396): stripe j on logical lane j mod W, and on the spare that mirrors its
lane. -/
def Port.stripes (x : Port) (flit : Bytes) : List (Nat × Bytes) :=
  (List.range 8).flatMap fun i =>
    let l := x.txLanes.getD ((x.stripe + i) % x.txLanes.length) 0
    let s := slice flit (32 * i) 32
    (l, s) :: match x.mirror with
      | some (k, spare) => if k = l then [(spare, s)] else []
      | none => []

/-- LOGICAL of a transmit lane's alignment codewords (Table 10.2): that of the lane it mirrors for a spare that does. -/
def M.logicalOf (m : M) (p lane : Nat) (running : Bool) : Nat :=
  let x := m.port p
  let carried := match x.mirror with
    | some (k, s) => if s = lane then k else lane
    | none => lane
  match (if running then x.txLanes else if m.width p false = 0 then [] else x.txMap).findIdx? (· == carried) with
  | some k => k
  | none => if m.lane p false lane = laneSpare ∧ m.width p false ≠ 0 then 0xFE else 0xFF

/-- The content of a lane's alignment codeword (Table 10.2), `running` once flits are sent; a lane that retrains is training
(R430). -/
def M.alignment (m : M) (p lane : Nat) (running : Bool) : Bytes :=
  let x := m.port p
  let running := running && m.lane p false lane != laneRetraining
  let lstate := if !running then 0 else if (x.mirror.map (·.2)) = some lane then 2 else 1
  toBytes 2 0x5A3C ++ toBytes 1 lane ++ toBytes 1 (m.logicalOf p lane running) ++ toBytes 2 m.moduleId ++ toBytes 1 p ++
    toBytes 1 lstate ++ toBytes 4 (if running then x.slot else 0) ++ zeros 4

/-- The alignment codewords of all nine lanes as the next period begins (R395). -/
def M.alignLanes (m : M) (p : Nat) (running : Bool) : M :=
  m.updPort p fun x => { x with alignOut := (List.range 9).map fun l => (l, m.alignment p l running) }

/-- What a slot leaves on the lanes: its stripes, and alignment codewords on all nine when it ends their period
(R395). -/
def M.lineSlot (m : M) (p : Nat) (running : Bool) (out : List (Nat × Bytes)) : M :=
  let ends := (m.port p).lastOfPeriod
  let m := m.updPort p fun x => { x with
    laneOut := out, stripe := if running then x.stripe + 8 else x.stripe
    inPeriod := if ends then x.inPeriod + 8 - x.periodStripes else x.inPeriod + 8 }
  if ends then m.alignLanes p running else m

/-- What every transmitted flit leaves: the slot used, the flit, and its stripes on their lanes. -/
def M.slotUsed (m : M) (p : Nat) (flit : Bytes) : M :=
  let m := m.updPort p fun x => { x with slot := (x.slot + 1) % 2 ^ 32, lastFlit := flit }
  m.lineSlot p true ((m.port p).stripes flit)

/-! ## New data and replay -/

/-- The class whose freed units the next header returns: the lowest one with any (R421). -/
def Port.returns (x : Port) : Nat × Nat :=
  match (List.range 4).find? fun c => decide (0 < at4 x.freed c) with
  | some c => (c, min 7 (at4 x.freed c))
  | none => (0, 0)

/-- A new data flit of class `c` (R409, R418, R420, R421). -/
def M.sendNew (m : M) (p c : Nat) : M :=
  let x := m.port p
  let (payload, rest, off, done) := fillFlit (mapGetD x.sendQ c []) (mapGetD x.sendOff c 0) flitPayload
  let (rcls, rcnt) := x.returns
  let flit := makeFlit x.txSeq x.ack 0 c rcls rcnt payload
  let m := m.updPort p fun x => { x with
    txSeq := (x.txSeq + 1) % seqMod
    replay := x.replay ++ [{ seq := x.txSeq, cls := c, bytes := flit }]
    replayTimer := if x.replay.isEmpty then m.die.ft else x.replayTimer
    unacked := x.unacked ++ done.map fun b => (x.txSeq, b)
    sendQ := mapSet x.sendQ c rest, sendOff := mapSet x.sendOff c off
    inUse := add4 x.inUse c 1, sent := x.sent ++ [(x.slot, c)]
    freed := sub4 x.freed rcls rcnt, hdrSent := (add4 x.hdrSent rcls rcnt).map (· % 65536) }
  (m.slotUsed p flit).count (portReg p RYS_PORT_FLIT_TX_CNT)

/-- The next entry of a running replay. -/
def Port.nextReplay (x : Port) : Option TxFlit :=
  x.replayFrom.bind fun s => x.replay.find? fun f => f.seq == s || seqNewer f.seq s

/-- A replay starts at a sequence, in place of one that runs (R416, R417). -/
def M.startReplay (m : M) (p s : Nat) : M :=
  m.updPort p fun x => { x with replayFrom := some s, replayStart := some (s, m.die.ft), replayTimer := m.die.ft }

/-- An entry resent unchanged (R409, R416). -/
def M.sendReplay (m : M) (p : Nat) (f : TxFlit) : M :=
  let m := m.updPort p fun x => { x with
    replayFrom := some ((f.seq + 1) % seqMod), inUse := add4 x.inUse f.cls 1, sent := x.sent ++ [(x.slot, f.cls)] }
  (m.slotUsed p f.bytes).count (portReg p RYS_PORT_REPLAY_FLIT_CNT)

/-! ## Control flits (R402, R441) -/

/-- Fabric time in units of 2⁻¹⁶ ns (R457). -/
def M.fine (m : M) : Nat := m.die.ft * 65536 + m.die.servo.frac

/-- The module sends TIME with LOCKED set: it is LOCKED, in HOLDOVER, or grandmaster (Table 11.4, R463). -/
def M.timeLocked (m : M) : Bool := m.fld FTC_STATUS 3 0 == 2 || m.fld FTC_STATUS 3 0 == 3 || m.fld FTC_CTRL 5 4 == 1

/-- This port is the module's active parent (Table 11.4, TFLAGS[1]). -/
def M.isParent (m : M) (p : Nat) : Bool :=
  m.fld FTC_CTRL 5 4 != 1 && m.fld FTC_CTRL 5 4 != 2 && m.flag FTC_CTRL 0 && m.fld FTC_STATUS 19 16 == p

/-- A TIME message written as its flit leaves (R458, Table 11.4), and what the port remembers of it. -/
def M.stampTime (m : M) (p : Nat) : Bytes × M :=
  let x := m.port p
  let now := m.fine
  let echo := x.timeLast.getD { seq := 0, time := 0, arrival := now }
  let msg := toBytes 1 10 ++ toBytes 1 2 ++ toBytes 1 x.timeSeq ++ toBytes 1 echo.seq ++
    toBytes 1 (bit m.timeLocked + 2 * bit (m.isParent p)) ++ toBytes 1 (m.fld FTC_STATUS 15 8) ++
    toBytes 2 (m.fld RYS_XPT_ID 31 16) ++ toBytes 8 (now / 65536) ++ toBytes 8 (echo.time / 65536) ++
    toBytes 2 now ++ toBytes 2 echo.time ++ toBytes 4 ((now - echo.arrival) / 256)
  (msg, m.updPort p fun x => { x with
    timeSeq := (x.timeSeq + 1) % 256
    timeSent := (x.timeSent.filter fun t => decide (now ≤ t.time + 4000 * 65536)) ++
      [{ seq := x.timeSeq, time := now, arrival := 0 }] })

/-- A waiting control message as it leaves: a TIME message is written now. -/
def M.stamp (m : M) (p : Nat) (msg : Bytes) : Bytes × M := if byteAt msg 0 = 10 then m.stampTime p else (msg, m)

/-- Every waiting message that fits in `room` bytes, in order, and the rest (R441). -/
def fitMessages : List Bytes → Nat → List Bytes × List Bytes
  | [], _ => ([], [])
  | b :: bs, room =>
    if b.length ≤ room then
      let (a, r) := fitMessages bs (room - b.length)
      (b :: a, r)
    else
      let (a, r) := fitMessages bs room
      (a, b :: r)

/-- A control flit with every waiting message that fits; its SEQ is the next new data flit's (Table 10.3). -/
def M.sendControl (m : M) (p : Nat) : M :=
  let m := if (m.port p).reportOwed then m.reportBehind p (m.port p).rxSlot [] else m
  let (now, later) := fitMessages (m.port p).ctlOut 240
  let (payload, m) := now.foldl (fun (b, m) msg => let (s, m) := m.stamp p msg; (b ++ s, m)) (([] : Bytes), m)
  let x := m.port p
  let m := m.updPort p fun x => { x with ctlOut := later }
  (m.slotUsed p (makeFlit x.txSeq x.ack 1 0 0 0 payload)).count (portReg p RYS_PORT_CTL_FLIT_TX_CNT)

/-! ## The transmit slot (R441) -/

/-- Weight of a class in RYS_PORTn_WRR; 0 is treated as 1. -/
def M.weight (m : M) (p c : Nat) : Nat := max 1 (m.fld (portReg p RYS_PORT_WRR) (4 * c - 1) (4 * c - 4))

/-- The next class of the weighted round robin among ACT, STATE and BULK that has a flit and credit: the current class
while its weight lasts, then the others in turn. -/
def Port.wrr (x : Port) : Option Nat :=
  let c := x.wrrClass
  let order := (if 0 < x.wrrLeft then [c] else []) ++ [c % 3 + 1, (c + 1) % 3 + 1, c]
  order.find? fun c => x.ready c && x.canSend c

def M.wrrSend (m : M) (p c : Nat) : M :=
  let x := m.port p
  let left := if c = x.wrrClass ∧ 0 < x.wrrLeft then x.wrrLeft - 1 else m.weight p c - 1
  (m.updPort p fun x => { x with wrrClass := c, wrrLeft := left }).sendNew p c

/-- Slots in which a class has a flit but no credit, and those in which the replay buffer is full (R418, R424). -/
def M.countWaits (m : M) (p : Nat) : M :=
  let x := m.port p
  let m := (List.range 4).foldl (fun m c =>
    if x.ready c && !x.canSend c then m.count (portReg p RYS_CLASS_CREDIT_WAIT_CNT + 8 * c) else m) m
  if poolUnits ≤ x.replay.length && (List.range 4).any x.ready then m.count (portReg p RYS_PORT_REPLAY_FULL_SLOT_CNT) else m

/-- A slot of a port in ACTIVE with no control flit waiting: replay, then CTL, then the other classes, then a control
flit. A replay that waits for credit lets no new data pass it (log entry 64). -/
def M.dataSlot (m : M) (p : Nat) : M :=
  let x := m.port p
  let m := m.countWaits p
  match x.nextReplay with
  | some f => if x.canSend f.cls then m.sendReplay p f else m.sendControl p
  | none =>
    let m := m.updPort p fun x => { x with replayFrom := none }
    if poolUnits ≤ x.replay.length then m.sendControl p
    else if x.ready 0 && x.canSend 0 then m.sendNew p 0
    else match x.wrr with
      | some c => m.wrrSend p c
      | none => m.sendControl p

/-- A LANE message that announces a width change (Table 10.4). -/
def laneMessage (op lane spare txn e : Nat) : Bytes :=
  ctl16 9 (toBytes 1 op ++ toBytes 1 lane ++ toBytes 1 spare ++ toBytes 1 txn ++ toBytes 3 e)

/-- Lane `l` fails, and the direction runs over the other seven (R431). -/
def M.dropLane (m : M) (p : Nat) (rx : Bool) (l : Nat) : M :=
  let m := (m.setLane p rx l laneFailed).setWidth p rx 7
  m.updPort p fun x => if rx then { x with rxMap := x.rxMap.erase l } else { x with txMap := x.txMap.erase l }

/-- The spare `s` becomes the eighth active lane (R433). -/
def M.addLane (m : M) (p : Nat) (rx : Bool) (s : Nat) : M :=
  let m := (m.setLane p rx s laneActive).setWidth p rx 8
  m.updPort p fun x => if rx then { x with rxMap := x.rxMap ++ [s] } else { x with txMap := x.txMap ++ [s] }

/-- A width change of the transmit direction that has not yet sent its MARK: DEGRADE_MARK (6) or WIDEN_MARK (9). -/
def Port.markDue (x : Port) : Option LaneTask :=
  x.txTask.filter fun t => (t.op == 6 || t.op == 9) && t.sends == 0

/-- The control slot that ends an alignment period during a width change carries its MARK; the alignment codewords that
follow show the new lanes, and from the next slot on the direction stripes over them (R395, R431, R433). -/
def M.markSlot (m : M) (p : Nat) (t : LaneTask) : M :=
  let m := (m.controlFirst p [laneMessage t.op t.lane t.spare t.txn 0]).sendControl p
  let m := m.updPort p fun x => { x with txTask := some { t with sends := 1, sentAt := m.die.ft } }
  (if t.op = 6 then m.dropLane p false t.lane else m.addLane p false t.spare).alignLanes p true

/-- A control slot of a port whose data waits: it may be the one that carries the MARK of a width change. -/
def M.controlSlot (m : M) (p : Nat) : M :=
  match (m.port p).markDue with
  | some t => if (m.port p).lastOfPeriod then m.markSlot p t else m.sendControl p
  | none => m.sendControl p

/-- A slot of a port that trains: the training pattern on every lane, with alignment codewords (Table 10.5). -/
def M.trainSlot (m : M) (p : Nat) : M := m.lineSlot p false []

/-- Every flit slot carries a flit (R398): data only in ACTIVE (R407); a port in HOLD sends once it has retrained. -/
def M.transmitSlot (m : M) (p : Nat) : M :=
  let st := m.pState p
  let x := m.port p
  if st = pACTIVE then
    if x.ctlOut.isEmpty && !x.reportOwed then m.dataSlot p else (m.countWaits p).sendControl p
  else if st = pINIT ∨ st = pDEGRADING ∨ (st = pHOLD ∧ x.retrained) then m.controlSlot p
  else if st = pACQUIRE ∨ st = pALIGN ∨ st = pHOLD then m.trainSlot p
  else m

def execTransmitSlot (p : Nat) : State → Host.Outcome State Fault Refusal := onLive (M.transmitSlot · p)

/-! ## Acknowledgements and replay (R412 to R417) -/

/-- An ACK read (R412): a newer one frees the entries up to it and the messages that ended in them. -/
def M.ackRead (m : M) (p a : Nat) : M :=
  if seqNewer a (m.port p).lastAck then
    m.updPort p fun x => { x with
      lastAck := a, replay := x.replay.filter fun f => seqNewer f.seq a
      unacked := x.unacked.filter fun u => seqNewer u.1 a, replayTimer := m.die.ft, expiries := 0 }
  else m

/-- Link traffic is carried: ACTIVE or DEGRADING. -/
def M.portRuns (m : M) (p : Nat) : Bool := m.pState p == pACTIVE || m.pState p == pDEGRADING

/-- The cases in which a NACK naming E starts no replay (R415). -/
def Port.ignoresNack (x : Port) (e num rtt now : Nat) : Bool :=
  x.lastAck == e || seqNewer x.lastAck e || x.lastNack == some num ||
    match x.replayStart with
    | some (s, t) => (s == e || seqNewer e s) && decide (now < t + rtt)
    | none => false

def M.nackReceive (m : M) (p : Nat) (msg : Bytes) : M :=
  if m.portRuns p then
    let e := numAt msg 4 3 % seqMod
    let m := m.ackRead p ((e + seqMod - 1) % seqMod)
    if (m.port p).ignoresNack e (byteAt msg 7) (m.rtt p) m.die.ft then m.count (portReg p RYS_PORT_NACK_IGNORED_CNT)
    else
      ((m.count (portReg p RYS_PORT_NACK_RX_CNT)).updPort p fun x => { x with lastNack := some (byteAt msg 7) }).startReplay p e
  else m

def execNackReceive (p : Nat) (msg : Bytes) : State → Host.Outcome State Fault Refusal := onLive (M.nackReceive · p msg)

/-- Slot `a` comes after slot `b`, modulo 2³². -/
def slotAfter (a b : Nat) : Bool :=
  let d := (a + 2 ^ 32 - b % 2 ^ 32) % 2 ^ 32
  decide (1 ≤ d) && decide (d < 2 ^ 31)

/-- A report that R423 ignores. -/
def Port.stale (x : Port) (slot : Nat) : Bool :=
  (match x.lastReport with | some l => !slotAfter slot l | none => false) ||
    decide (65536 < (x.slot + 2 ^ 32 - slot) % 2 ^ 32)

/-- A CREDIT report applied (R420, R422), or counted as stale. -/
def M.creditReceive (m : M) (p : Nat) (msg : Bytes) : M :=
  if m.portRuns p then
    let slot := numAt msg 4 4
    if (m.port p).stale slot then m.count (portReg p RYS_PORT_REPORT_STALE_CNT)
    else
      m.updPort p fun x =>
        let sent := x.sent.filter fun s => slotAfter s.1 slot
        { x with
          sent, lastReport := some slot, frozen := false
          inUse := (List.range 4).map fun c => numAt msg (8 + 2 * c) 2 + (sent.filter fun s => s.2 == c).length +
            (numAt msg (16 + 2 * c) 2 + 65536 - at4 x.hdrApplied c % 65536) % 65536 }
  else m

def execCreditReceive (p : Nat) (msg : Bytes) : State → Host.Outcome State Fault Refusal :=
  onLive (M.creditReceive · p msg)

/-- A NACK naming E with the next number, and a CREDIT report behind it in the same control flit (R413, R414). -/
def M.sendNack (m : M) (p : Nat) : M :=
  let m := m.updPort p fun x => { x with nackState := true, nackNo := (x.nackNo + 1) % 256, nackAt := m.die.ft }
  let x := m.port p
  m.reportBehind p x.rxSlot [ctl16 2 (zeros 2 ++ toBytes 3 x.expect ++ toBytes 1 x.nackNo)]

/-- NACK state entered, unless the port is in it (R413). -/
def M.nackEnter (m : M) (p : Nat) : M :=
  if (m.port p).nackState then m else (m.sendNack p).count (portReg p RYS_PORT_NACK_TX_CNT)

def M.nackRepeat (m : M) (p : Nat) : M :=
  if m.portRuns p && (m.port p).nackState then
    ((m.reach ((m.port p).nackAt + 2 * m.rtt p)).sendNack p).count (portReg p RYS_PORT_NACK_REPEAT_CNT)
  else m

def execNackRepeatTimer (p : Nat) : State → Host.Outcome State Fault Refusal := onLive (M.nackRepeat · p)

/-- The 1 µs cadence of ACKs and reports (R411). -/
def M.ackAdvance (m : M) (p : Nat) : M :=
  if m.portRuns p then m.updPort p fun x => { x with reportOwed := true } else m

def execAckAdvanceTimer (p : Nat) : State → Host.Outcome State Fault Refusal := onLive (M.ackAdvance · p)

/-! ## The end of a drain (R440) -/

/-- The drain ends, every entry acknowledged or the grace period over: DOWN goes out, and the port flushes. -/
def M.drainEnd (m : M) (p : Nat) : M :=
  match (m.port p).draining with
  | none => m
  | some t =>
    let m := if (m.port p).replay.isEmpty then m else m.reach (t + m.grace p)
    let down := ctl16 11 (zeros 4 ++ toBytes 4 (m.port p).session)
    let m := (m.updPort p fun x => { x with ctlOut := [down], reportOwed := false }).sendControl p
    m.flushed p false

def execPortDrainEnd (p : Nat) : State → Host.Outcome State Fault Refusal := onLive (M.drainEnd · p)

end Sys2Proof.Machine
end

