-- ==== Sys2Proof/Machine/LinkLanes.lean ====
section
/-! DEFINITION. Lane sparing, width changes, link down, resume and flush of a Rysia port (R427 to R440). -/
namespace Sys2Proof.Machine

/-! ## Link down (R434, R435) -/

/-- A port in ACTIVE or DEGRADING takes the link as down and enters HOLD. -/
def M.linkDown (m : M) (p : Nat) : M :=
  if m.portRuns p then
    let m := (m.count (portReg p RYS_PORT_LINK_DOWN_CNT)).setPState p pHOLD
    (m.updPort p fun x => { x with
      graceEnd := m.die.ft + m.grace p, retrained := false, txTask := keepReturn x.txTask
      rxTask := keepReturn x.rxTask, txLatched := keepLatched (keepReturn x.txTask) x.txLatched
      rxLatched := keepLatched (keepReturn x.rxTask) x.rxLatched, ctlOut := [], reportOwed := false, nackState := false, replayFrom := none }).lanesLeft p |>.runLatchedControl p
  else m

/-- A link down: 2 µs without a good flit when no other cause is met first. -/
def M.linkSilence (m : M) (p : Nat) : M :=
  if m.portRuns p then (m.reach ((m.port p).lastGood + 2000)).linkDown p else m

def execLinkSilence (p : Nat) : State → Host.Outcome State Fault Refusal := onLive (M.linkSilence · p)

/-! ## LANE messages (Table 10.4, Table 10.11) -/

abbrev oSPARE_REQ : Nat := 1
abbrev oMIRROR_ON : Nat := 2
abbrev oSWITCHED : Nat := 3
abbrev oRELEASED : Nat := 4
abbrev oDEGRADE_REQ : Nat := 5
abbrev oDEGRADE_MARK : Nat := 6
abbrev oDEGRADE_DONE : Nat := 7
abbrev oWIDEN_REQ : Nat := 8
abbrev oWIDEN_MARK : Nat := 9
abbrev oWIDEN_DONE : Nat := 10

def msgLane (msg : Bytes) : Nat := byteAt msg 3
def msgSpare (msg : Bytes) : Nat := byteAt msg 4
def msgTxn (msg : Bytes) : Nat := byteAt msg 5

/-- A LANE message sent and its answer waited for. -/
def M.startTask (m : M) (p : Nat) (rx : Bool) (op lane spare txn : Nat) : M :=
  (m.setTask p rx (some { op, lane, spare, txn, sentAt := m.die.ft, sends := 1 })).control p
    (laneMessage op lane spare txn 0)

/-- A transition that this end begins, with a new TXN. -/
def M.newTask (m : M) (p : Nat) (rx : Bool) (op lane spare : Nat) : M :=
  let m := m.updPort p fun x => { x with txnNo := (x.txnNo + 1) % 256 }
  m.startTask p rx op lane spare (m.port p).txnNo

/-! ## Lane changes -/

/-- Lane `l` leaves its logical place to lane `s`, in state `v` (Table 10.11). -/
def M.swapLane (m : M) (p : Nat) (rx : Bool) (l s v : Nat) : M :=
  let m := (m.setLane p rx l v).setLane p rx s laneActive
  let f := fun (k : List Nat) => k.map fun i => if i = l then s else i
  m.updPort p fun x => if rx then { x with rxMap := f x.rxMap } else { x with txMap := f x.txMap }

/-- Lane `l` fails and the spare `s` takes its place; the sender counts the change (Table 10.11). -/
def M.replaceLane (m : M) (p : Nat) (rx : Bool) (l s : Nat) : M :=
  (m.swapLane p rx l s laneFailed).count (portReg p RYS_PORT_SPARE_CNT)

/-! ## Requests of this end (R427, R430, R431, R433) -/

/-- A receive lane has lost lock. -/
def M.lockIsLost (m : M) (p : Nat) (rx : Bool) (lane : Nat) : Bool := rx && (m.port p).lost.contains lane

/-- The spare of a direction that can take a lane's place: a receive lane that has lost lock cannot. -/
def M.goodSpare (m : M) (p : Nat) (rx : Bool) : Option Nat := (m.spareLane p rx).filter fun s => !m.lockIsLost p rx s

/-- A lane must leave service and there is no spare: the receiver asks for W = 7; at W = 7 a failed lane takes the link
down (R431, R433). -/
def M.requestDegrade (m : M) (p lane : Nat) : M :=
  if m.width p true = 8 then m.newTask p true oDEGRADE_REQ lane 0
  else if m.lockIsLost p true lane then m.linkDown p
  else m

/-- Sparing requested: a receiver sends SPARE_REQ, a sender mirrors at once (log entry 65). -/
def M.requestSpare (m : M) (p : Nat) (rx : Bool) (lane : Nat) : M :=
  if m.lane p rx lane ≠ laneActive then m
  else match m.goodSpare p rx with
    | some s => m.newTask p rx (if rx then oSPARE_REQ else oMIRROR_ON) lane s
    | none => if rx then m.requestDegrade p lane else m

/-- Lane return: a failed lane retrains and becomes the spare; a direction with a spare keeps it (R394, R430). -/
def M.requestReturn (m : M) (p : Nat) (rx : Bool) (lane : Nat) : M :=
  if m.lane p rx lane = laneFailed ∧ m.spareLane p rx = none then
    (m.setLane p rx lane laneRetraining).setTask p rx
      (some { op := oRETURN, lane, spare := 0, txn := 0, sentAt := m.die.ft, sends := 0 })
  else m

/-- The sender of a width change holds its data until DEGRADE_DONE or WIDEN_DONE (R432). -/
def M.widthHold (m : M) (p : Nat) : M := if m.pState p = pACTIVE then m.setPState p pDEGRADING else m

/-- A width change begins at the sender: data stops, and the MARK waits for the end of the alignment period (R431,
R433). -/
def M.holdTask (m : M) (p op lane spare txn : Nat) : M :=
  (m.setTask p false (some { op, lane, spare, txn, sentAt := m.die.ft, sends := 0 })).widthHold p

/-- Widening requested, only while the direction has a spare (R433). -/
def M.requestWiden (m : M) (p : Nat) (rx : Bool) : M :=
  match m.goodSpare p rx with
  | none => m
  | some s =>
    if m.width p rx ≠ 7 then m
    else if rx then m.newTask p true oWIDEN_REQ s s
    else
      let m := m.updPort p fun x => { x with txnNo := (x.txnNo + 1) % 256 }
      m.holdTask p oWIDEN_MARK s s (m.port p).txnNo

/-- A LANE_CMD operation, latched while the direction is in transition (R43, R433). -/
def M.laneOp (m : M) (p : Nat) (rx : Bool) (op lane : Nat) : M :=
  if (m.task p rx).isSome then
    let old := if rx then (m.port p).rxLatched else (m.port p).txLatched
    (m.latchBehind (fnLane p rx) old.isSome).updPort p fun x =>
      if rx then { x with rxLatched := some (op, lane) } else { x with txLatched := some (op, lane) }
  else if !m.portRuns p then m
  else if op = 1 then m.requestSpare p rx lane
  else if op = 2 then m.requestReturn p rx lane
  else if op = 3 then m.requestWiden p rx
  else m

/-- A LANE_CMD write: its fields, and the operation. -/
def M.laneCommand (m : M) (p : Nat) (rx : Bool) (op lane : Nat) : M :=
  (m.setReg (portReg p RYS_PORT_LANE_CMD) (BitVec.ofNat 64 (op * 256 + bit rx * 16 + lane % 16))).laneOp p rx op lane

def execLaneSpare (p : Nat) (rx : Bool) (lane : Nat) : State → Host.Outcome State Fault Refusal :=
  onLive (M.laneCommand · p rx 1 lane)
def execLaneReturn (p : Nat) (rx : Bool) (lane : Nat) : State → Host.Outcome State Fault Refusal :=
  onLive (M.laneCommand · p rx 2 lane)
def execLaneWiden (p : Nat) (rx : Bool) : State → Host.Outcome State Fault Refusal :=
  onLive fun m => m.laneCommand p rx 3 (m.fld (portReg p RYS_PORT_LANE_CMD) 3 0)

/-- A direction's transition ends, and a request latched behind it runs (R515). -/
def M.endTask (m : M) (p : Nat) (rx : Bool) : M :=
  let m := (m.setTask p rx none).unitDone (fnLane p rx) ccOK
  let l := if rx then (m.port p).rxLatched else (m.port p).txLatched
  let m := match l with
    | none => m
    | some (op, lane) =>
      let m := m.updPort p fun x => if rx then { x with rxLatched := none } else { x with txLatched := none }
      let m := (m.unitTurn (fnLane p rx)).laneOp p rx op lane
      if (m.task p rx).isSome then m else m.unitDone (fnLane p rx) ccOK
  m.runLatchedControl p

/-- A returned lane, locked again, becomes the spare, unless training has laid the lanes out anew meanwhile (R430). -/
def M.laneReturned (m : M) (p : Nat) (rx : Bool) (lane : Nat) : M :=
  let m := if m.lane p rx lane = laneRetraining ∧ m.spareLane p rx = none then
      (m.setLane p rx lane laneSpare).updPort p fun x => if rx then { x with lost := x.lost.erase lane } else x
    else m
  m.endTask p rx

/-- A returned lane has retrained (R430): it becomes the spare, while a step runs at the step boundary (R44). -/
def M.laneRetrained (m : M) (p : Nat) (rx : Bool) (lane : Nat) : M :=
  match m.task p rx with
  | some t =>
    if t.op = oRETURN ∧ t.lane = lane then
      if m.inStep then m.setTask p rx (some { t with op := oRETRAINED }) else m.laneReturned p rx lane
    else m
  | none => m

/-- Lanes that have retrained become spares at a step boundary (R44). -/
def M.lanesBoundary (m : M) : M :=
  (List.range 16).foldl (fun m p => [true, false].foldl (fun m rx =>
    match m.task p rx with
    | some t => if t.op = oRETRAINED then m.laneReturned p rx t.lane else m
    | none => m) m) m

def execLaneRetrainComplete (p : Nat) (rx : Bool) (lane : Nat) : State → Host.Outcome State Fault Refusal :=
  onLive (M.laneRetrained · p rx lane)

/-- Codewords of a receive lane counted, in its counters and in its window (R397, R427). -/
def M.countCodewords (m : M) (p lane symbols uncorrectable : Nat) : M :=
  let b := portReg p (0x40 * lane)
  ((m.countBy (b + RYS_LANE_FEC_CORR_SYM_CNT) symbols).countBy (b + RYS_LANE_FEC_UNCORR_CNT) uncorrectable).updPort p
    fun x => { x with windowSym := mapUpd x.windowSym lane 0 (· + symbols)
                      windowUnc := mapUpd x.windowUnc lane 0 (· + uncorrectable) }

/-- Active receive lanes that have lost lock, and how many of them sparing and degrading can cover (R434). -/
def M.lostLanes (m : M) (p : Nat) : Nat := ((m.port p).lost.filter fun l => m.lane p true l == laneActive).length
def M.lostCover (m : M) (p : Nat) : Nat := bit (m.goodSpare p true).isSome + bit (m.width p true == 8)

/-- The end of a 1 ms window of a receive lane (R397, R427, R434): `symbols` and `uncorrectable` are those of its
codewords that held no flit, beside what the flits of the window have counted. -/
def M.laneWindow (m : M) (p lane symbols uncorrectable : Nat) (lockLost : Bool) : M :=
  let b := portReg p (0x40 * lane)
  let m := m.countCodewords p lane symbols uncorrectable
  let sym := mapGetD (m.port p).windowSym lane 0
  let unc := mapGetD (m.port p).windowUnc lane 0
  let m := (m.setFld (b + RYS_LANE_SYM_LAST_MS) 31 0 (min sym 0xFFFFFFFF)).updPort p fun x =>
    { x with windowSym := mapSet x.windowSym lane 0, windowUnc := mapSet x.windowUnc lane 0 }
  let used := m.lane p true lane
  let m := if lockLost && (used == laneActive || used == laneSpare) then
      m.updPort p fun x => { x with lost := lane :: x.lost.erase lane }
    else m
  if used ≠ laneActive then m
  else
    let m := if lockLost then m.count (b + RYS_LANE_LOCK_LOSS_CNT) else m
    let t := portReg p RYS_PORT_LANE_THRESH
    if !m.portRuns p then m
    else if m.lostCover p < m.lostLanes p then m.linkDown p
    else if m.flag (portReg p RYS_PORT_CTRL) 2 && (decide (m.fld t 31 0 < sym) || decide (m.fld t 47 32 < unc) || lockLost) then
      m.laneOp p true 1 lane
    else m

def execLaneWindow (p lane symbols uncorrectable : Nat) (lockLost : Bool) : State → Host.Outcome State Fault Refusal :=
  onLive (M.laneWindow · p lane symbols uncorrectable lockLost)

/-! ## LANE messages received (Table 10.11, R431, R433) -/

/-- The transition of a direction that has sent `op` and carries the TXN of a message. -/
def M.taskIs (m : M) (p : Nat) (rx : Bool) (op txn : Nat) : Bool :=
  match m.task p rx with
  | some t => t.op == op && t.txn == txn
  | none => false

/-- SPARE_REQ at the sender: the lane is mirrored onto the spare, and MIRROR_ON answers; a resent one is answered
again. While another transition of the direction runs it is left unanswered (log entry 65). -/
def M.spareReq (m : M) (p : Nat) (msg : Bytes) : M :=
  if !m.portRuns p then m
  else if m.taskIs p false oMIRROR_ON (msgTxn msg) then
    m.control p (laneMessage oMIRROR_ON (msgLane msg) (msgSpare msg) (msgTxn msg) 0)
  else if (m.task p false).isNone ∧ m.lane p false (msgLane msg) = laneActive ∧
      m.lane p false (msgSpare msg) = laneSpare then
    m.startTask p false oMIRROR_ON (msgLane msg) (msgSpare msg) (msgTxn msg)
  else m

def execSpareReqReceive (p : Nat) (msg : Bytes) : State → Host.Outcome State Fault Refusal := onLive (M.spareReq · p msg)

/-- MIRROR_ON at the receiver: it switches to the spare and sends SWITCHED. -/
def M.mirrorOn (m : M) (p : Nat) (msg : Bytes) : M :=
  if !m.portRuns p then m
  else if m.taskIs p true oSWITCHED (msgTxn msg) then
    m.control p (laneMessage oSWITCHED (msgLane msg) (msgSpare msg) (msgTxn msg) 0)
  else if (m.taskIs p true oSPARE_REQ (msgTxn msg) ∨ (m.task p true).isNone) ∧ m.lane p true (msgLane msg) = laneActive ∧
      m.lane p true (msgSpare msg) = laneSpare then
    (m.swapLane p true (msgLane msg) (msgSpare msg) laneFailed).startTask p true oSWITCHED (msgLane msg) (msgSpare msg)
      (msgTxn msg)
  else m

def execMirrorOnReceive (p : Nat) (msg : Bytes) : State → Host.Outcome State Fault Refusal := onLive (M.mirrorOn · p msg)

/-- SWITCHED at the sender: the failed lane is fenced and RELEASED answers; a resent one is answered again. -/
def M.switchedMsg (m : M) (p : Nat) (msg : Bytes) : M :=
  if !m.portRuns p then m
  else
    let answer := laneMessage oRELEASED (msgLane msg) (msgSpare msg) (msgTxn msg) 0
    if m.taskIs p false oMIRROR_ON (msgTxn msg) then
      ((m.replaceLane p false (msgLane msg) (msgSpare msg)).control p answer).endTask p false
    else if m.lane p false (msgLane msg) = laneFailed then m.control p answer
    else m

def execSwitchedReceive (p : Nat) (msg : Bytes) : State → Host.Outcome State Fault Refusal :=
  onLive (M.switchedMsg · p msg)

/-- RELEASED at the receiver ends the sparing, and it counts the change. -/
def M.releasedMsg (m : M) (p : Nat) (msg : Bytes) : M :=
  if m.taskIs p true oSWITCHED (msgTxn msg) then (m.count (portReg p RYS_PORT_SPARE_CNT)).endTask p true else m

def execReleasedReceive (p : Nat) (msg : Bytes) : State → Host.Outcome State Fault Refusal :=
  onLive (M.releasedMsg · p msg)

/-- A resent request finds its width change begun: a MARK already sent is sent again. -/
def M.markAgain (m : M) (p : Nat) : M :=
  match m.task p false with
  | some t => if t.sends = 0 then m else m.control p (laneMessage t.op t.lane t.spare t.txn 0)
  | none => m

/-- DEGRADE_REQ at the sender: data stops, and DEGRADE_MARK and seven lanes follow at the end of the alignment
period. -/
def M.degradeReq (m : M) (p : Nat) (msg : Bytes) : M :=
  if !m.portRuns p then m
  else if m.taskIs p false oDEGRADE_MARK (msgTxn msg) then m.markAgain p
  else if (m.task p false).isNone ∧ m.width p false = 8 ∧ m.lane p false (msgLane msg) = laneActive then
    m.holdTask p oDEGRADE_MARK (msgLane msg) 0 (msgTxn msg)
  else m

def execDegradeReqReceive (p : Nat) (msg : Bytes) : State → Host.Outcome State Fault Refusal :=
  onLive (M.degradeReq · p msg)

/-- The receive direction has finished the width change of a TXN, which a MARK sent again finds. -/
def M.widthFinished (m : M) (p txn : Nat) : Bool := (m.port p).widthTxn == some txn

/-- A width change ends at the receiver: it runs over its new lanes from the next slot and sends its DONE. -/
def M.widthTaken (m : M) (p txn : Nat) (done : Bytes) : M :=
  ((m.updPort p fun x => { x with widthTxn := some txn }).control p done).endTask p true

/-- DEGRADE_MARK at the receiver that asked for it: it deskews seven lanes and sends DEGRADE_DONE with its E. -/
def M.degradeMark (m : M) (p : Nat) (msg : Bytes) : M :=
  let done := laneMessage oDEGRADE_DONE (msgLane msg) 0 (msgTxn msg) (m.port p).expect
  if !m.portRuns p then m
  else if m.taskIs p true oDEGRADE_REQ (msgTxn msg) then
    ((m.dropLane p true (msgLane msg)).count (portReg p RYS_PORT_DEGRADE_CNT)).widthTaken p (msgTxn msg) done
  else if m.widthFinished p (msgTxn msg) then m.control p done
  else m

def execDegradeMarkReceive (p : Nat) (msg : Bytes) : State → Host.Outcome State Fault Refusal :=
  onLive (M.degradeMark · p msg)

/-- A width change ends at the sender (R431 to R433): ACTIVE again, and a replay from the receiver's E. -/
def M.widthDone (m : M) (p : Nat) (msg : Bytes) : M :=
  let m := if m.pState p = pDEGRADING then m.setPState p pACTIVE else m
  (m.startReplay p (numAt msg 6 3 % seqMod)).endTask p false

def M.degradeDone (m : M) (p : Nat) (msg : Bytes) : M :=
  if m.portRuns p && m.taskIs p false oDEGRADE_MARK (msgTxn msg) then
    (m.count (portReg p RYS_PORT_DEGRADE_CNT)).widthDone p msg
  else m

def execDegradeDoneReceive (p : Nat) (msg : Bytes) : State → Host.Outcome State Fault Refusal :=
  onLive (M.degradeDone · p msg)

/-- WIDEN_REQ at the sender: WIDEN_MARK and eight lanes follow at the end of the alignment period. -/
def M.widenReq (m : M) (p : Nat) (msg : Bytes) : M :=
  if !m.portRuns p then m
  else if m.taskIs p false oWIDEN_MARK (msgTxn msg) then m.markAgain p
  else if (m.task p false).isNone ∧ m.width p false = 7 ∧ m.lane p false (msgSpare msg) = laneSpare then
    m.holdTask p oWIDEN_MARK (msgLane msg) (msgSpare msg) (msgTxn msg)
  else m

def execWidenReqReceive (p : Nat) (msg : Bytes) : State → Host.Outcome State Fault Refusal := onLive (M.widenReq · p msg)

/-- WIDEN_MARK at the receiver: it deskews eight lanes and sends WIDEN_DONE with its E. -/
def M.widenMark (m : M) (p : Nat) (msg : Bytes) : M :=
  let done := laneMessage oWIDEN_DONE (msgLane msg) (msgSpare msg) (msgTxn msg) (m.port p).expect
  if !m.portRuns p then m
  else if m.taskIs p true oWIDEN_REQ (msgTxn msg) ∨
      (m.task p true).isNone ∧ m.width p true = 7 ∧ m.lane p true (msgSpare msg) = laneSpare then
    (m.addLane p true (msgSpare msg)).widthTaken p (msgTxn msg) done
  else if m.widthFinished p (msgTxn msg) then m.control p done
  else m

def execWidenMarkReceive (p : Nat) (msg : Bytes) : State → Host.Outcome State Fault Refusal :=
  onLive (M.widenMark · p msg)

def M.widenDone (m : M) (p : Nat) (msg : Bytes) : M :=
  if m.portRuns p && m.taskIs p false oWIDEN_MARK (msgTxn msg) then m.widthDone p msg else m

def execWidenDoneReceive (p : Nat) (msg : Bytes) : State → Host.Outcome State Fault Refusal :=
  onLive (M.widenDone · p msg)

/-! ## Timers of the lanes (R429, R432) -/

/-- A transition abandoned: the lane stays in use, also where the receiver had switched to the spare; a receiver whose
lane has lost lock by then degrades the direction, ahead of a request latched behind the transition (R429). -/
def M.abandonTask (m : M) (p : Nat) (rx : Bool) (t : LaneTask) : M :=
  let m := if t.op = oSWITCHED then m.swapLane p true t.spare t.lane laneSpare else m
  if (t.op = oSPARE_REQ ∨ t.op = oSWITCHED) ∧ m.lockIsLost p true t.lane then
    ((m.setTask p rx none).unitDone (fnLane p rx) ccOK).requestDegrade p t.lane
  else m.endTask p rx

/-- An unanswered LANE message is sent again 10 µs after it was last sent, and abandoned after 8 sends. -/
def M.laneRetryOf (m : M) (p : Nat) (rx : Bool) (t : LaneTask) : M :=
  if t.sends < 8 then
    let m := (m.count (portReg p RYS_PORT_CTL_RETRY_CNT)).control p (laneMessage t.op t.lane t.spare t.txn 0)
    m.setTask p rx (some { t with sentAt := m.die.ft, sends := t.sends + 1 })
  else m.abandonTask p rx t

/-- A transition that waits for an answer to a LANE message it has sent. -/
def waitsAnswer (t : Option LaneTask) : Option LaneTask := t.filter fun t => t.op != oRETURN && t.op != oRETRAINED && t.sends != 0

/-- The retry of a direction, if it is due. -/
def M.laneRetryDue (m : M) (p : Nat) (rx : Bool) : M :=
  match waitsAnswer (m.task p rx) with
  | some t => if t.sentAt + 10000 ≤ m.die.ft then m.laneRetryOf p rx t else m
  | none => m

/-- The earliest retry of a port's directions is due, and with it what is due at that time (R429). -/
def M.laneRetry (m : M) (p : Nat) : M :=
  let due := ([true, false].filterMap fun rx => waitsAnswer (m.task p rx)).map (·.sentAt + 10000)
  match due with
  | [] => m
  | t :: ts => ((m.reach (ts.foldl min t)).laneRetryDue p true).laneRetryDue p false

def execLaneMessageRetry (p : Nat) : State → Host.Outcome State Fault Refusal := onLive (M.laneRetry · p)

/-- A width-change hold outlasts 20 µs (R432). -/
def M.widthTimeout (m : M) (p : Nat) : M :=
  if m.pState p = pDEGRADING then (m.reach ((m.port p).since + 20000)).linkDown p else m

def execWidthChangeTimeout (p : Nat) : State → Host.Outcome State Fault Refusal := onLive (M.widthTimeout · p)

/-- The replay timer expires (R417); the eighth expiry in a row takes the link down (R434). -/
def M.replayTimeout (m : M) (p : Nat) : M :=
  match (m.port p).replay with
  | [] => m
  | f :: _ =>
    if m.portRuns p then
      let m := (m.reach ((m.port p).replayTimer + 3 * m.rtt p)).count (portReg p RYS_PORT_REPLAY_TIMEOUT_CNT)
      let m := m.updPort p fun x => { x with expiries := x.expiries + 1 }
      if 8 ≤ (m.port p).expiries then m.linkDown p else m.startReplay p f.seq
    else m

def execReplayTimeout (p : Nat) : State → Host.Outcome State Fault Refusal := onLive (M.replayTimeout · p)

/-! ## HOLD, RESUME and flush (R435 to R440) -/

/-- A RESUME, and behind it a first CREDIT report with SLOT 0xFFFF_FFFF (R436). -/
def M.sendResume (m : M) (p : Nat) : M :=
  let x := m.port p
  m.reportBehind p 0xFFFFFFFF [ctl16 8 (toBytes 3 x.expect ++ zeros 1 ++ toBytes 4 x.session ++
    toBytes 4 (m.fld (portReg p RYS_PORT_PARTNER) 63 32))]

/-- A RESUME of a port in HOLD: HDR counts restart at 0 with the report it carries. -/
def M.holdResume (m : M) (p : Nat) : M :=
  (m.updPort p fun x => { x with ctlOut := [], hdrSent := [0, 0, 0, 0] }).sendResume p

/-- The lanes of a port in HOLD have retrained, when at least 7 are usable. -/
def M.holdRetrain (m : M) (p : Nat) (seen : List LaneSeen) : M :=
  if m.pState p = pHOLD ∧ 7 ≤ popcount (usableLanes seen) then
    ((m.layReceive p seen).updPort p fun x => { x with retrained := true }).holdResume p
  else m

def execHoldRetrainComplete (p : Nat) (lanes : List LaneSeen) : State → Host.Outcome State Fault Refusal := onLive (M.holdRetrain · p lanes)

/-- RESUME goes out every 10 µs (R435). -/
def M.resumeTimer (m : M) (p : Nat) : M := if m.pState p = pHOLD ∧ (m.port p).retrained then m.holdResume p else m

def execResumeTimer (p : Nat) : State → Host.Outcome State Fault Refusal := onLive (M.resumeTimer · p)

/-- A stored flit with RCNT zeroed and its CRC recomputed (R436). -/
def zeroReturns (f : TxFlit) : TxFlit :=
  let b := toBytes 1 (byteAt f.bytes 0 / 8 * 8) ++ slice f.bytes 1 247
  { f with bytes := b ++ toBytes 8 (crcFlit b) }

/-- A port resumes from the partner's E (R436). -/
def M.resumeFrom (m : M) (p e : Nat) : M :=
  let m := (m.count (portReg p RYS_PORT_RESUME_CNT)).setPState p pACTIVE
  let m := m.updPort p fun x => { x with
    replay := (x.replay.filter fun f => !seqNewer e f.seq).map zeroReturns
    unacked := x.unacked.filter fun u => !seqNewer e u.1
    lastAck := (e + seqMod - 1) % seqMod, slot := 0, sent := [], hdrSent := [0, 0, 0, 0], hdrApplied := [0, 0, 0, 0]
    lastReport := none, frozen := true, rxSlot := 0xFFFFFFFF, expiries := 0, lastGood := m.die.ft }
  (m.pings p).startReplay p e

/-- The partner whose alignment codewords arrive is the module that the session is with (R437). -/
def M.samePartner (m : M) (p : Nat) : Bool :=
  match (m.port p).seen with
  | some (module, _) => module == m.fld (portReg p RYS_PORT_PARTNER) 15 0
  | none => true

/-- A RESUME received: the session goes on, or the port flushes (R436 to R438). -/
def M.linkResume (m : M) (p : Nat) (msg : Bytes) : M :=
  if !m.portUp p then m
  else
    let x := m.port p
    if numAt msg 6 4 ≠ m.fld (portReg p RYS_PORT_PARTNER) 63 32 ∨ numAt msg 10 4 ≠ x.session ∨ !m.samePartner p then
      m.flushed p false
    else if m.pState p = pHOLD then
      if x.graceEnd ≤ m.die.ft then m.flushed p false else m.resumeFrom p (numAt msg 2 3 % seqMod)
    else m.sendResume p

def execLinkResumeReceive (p : Nat) (msg : Bytes) : State → Host.Outcome State Fault Refusal :=
  onLive (M.linkResume · p msg)

/-- A DOWN received in ACTIVE, DEGRADING or HOLD flushes (R437, R440). -/
def M.downReceive (m : M) (p : Nat) : M := if m.portUp p then m.flushed p true else m

def execDownReceive (p : Nat) (_msg : Bytes) : State → Host.Outcome State Fault Refusal := onLive (M.downReceive · p)

/-- The grace timer ends before the port has resumed (R437). -/
def M.graceExpiry (m : M) (p : Nat) : M :=
  if m.pState p = pHOLD then (m.reach (m.port p).graceEnd).flushed p false else m

def execGraceExpiry (p : Nat) : State → Host.Outcome State Fault Refusal := onLive (M.graceExpiry · p)

/-! ## Pool units -/

/-- Freed units of a class go back to the pool (R419). -/
def M.freeUnits (m : M) (p cls k : Nat) : M :=
  if k = 0 then m else m.updPort p fun x => { x with held := sub4 x.held cls k, freed := add4 x.freed cls k }

end Sys2Proof.Machine
end

