-- ==== Sys2Proof/Machine/Transport.lean ====
section
/-! DEFINITION. Messages: their header, routing and completion, and puts with their windows (R442 to R456). -/
namespace Sys2Proof.Machine

/-! ## Puts (R452 to R456, R346) -/

/-- The PUT_DONE of a PUT (R455). -/
def M.putAnswer (m : M) (b : Bytes) (code : Nat) : M :=
  m.sendMessage tyPUT_DONE (msgSrc b)
    (toBytes 2 (msgTs b 12 2) ++ toBytes 1 (msgTs b 14 1) ++ toBytes 1 code ++ toBytes 4 (msgTs b 16 4) ++
      toBytes 8 (msgTs b 20 8)) []

/-- (STEP, ATTEMPT) `a` is older than `b`. -/
def older (a b : Nat × Nat) : Bool := decide (a.1 < b.1) || (a.1 == b.1 && decide (a.2 < b.2))

def putStep (b : Bytes) : Nat × Nat := (msgTs b 20 8, msgTs b 14 1)

/-- A PUT written into its window (R452), with the end of its DRECV. -/
def M.putLand (m : M) (w : Nat) (x : PutWindow) (b : Bytes) : M :=
  let off := msgTs b 16 4
  let m := ((m.elasticPath x.core 33).elasticRows x.core x.space (x.base + off) (msgLen b) true).spaceWrite x.core x.space (x.base + off) (msgBody b)
  let left := x.missing.filter fun g => decide (16 * g < off) || decide (off + msgLen b ≤ 16 * g)
  let m := { m with die.putWindows := mapSet m.die.putWindows w { x with missing := left } }
  let m := if left.isEmpty then m.updFlight x.core x.push fun f => { f with owed := [] } else m
  m.putAnswer b 0

/-- A PUT held until its window is bound (R453): it keeps the pool units of its message. -/
def M.putHold (m : M) (p : Nat) (b : Bytes) : M :=
  let units := if p < 16 then at4 (m.port p).open_ 1 else 0
  let m := if units = 0 then m else m.updPort p fun x => { x with open_ := x.open_.set 1 0 }
  { m.count RYS_XPT_EARLY_PUT_CNT with
    die.earlyPuts := m.die.earlyPuts ++ [{ port := p, window := msgTs b 12 2, message := b, arrival := m.die.ft, units }] }

/-- A PUT for an older step or attempt is discarded (R346, R454). -/
def M.putStale (m : M) (b : Bytes) : M := (m.count CMT_STALE_PUT_CNT).putAnswer b 5

/-- A PUT is older than the running step or attempt, whatever an old window still serves (R346). -/
def M.beforeStep (m : M) (b : Bytes) : Bool :=
  match m.die.step with
  | some s => older (putStep b) (s.number, s.attempt)
  | none => false

/-- A PUT received for this module. -/
def M.putReceive (m : M) (p : Nat) (b : Bytes) : M :=
  let w := msgTs b 12 2
  if m.beforeStep b then m.putStale b
  else match mapGet m.die.putWindows w with
  | none => m.putHold p b
  | some x =>
    if older (putStep b) (x.step, x.attempt) then m.putStale b
    else if older (x.step, x.attempt) (putStep b) then m.putHold p b
    else if x.bytes < msgTs b 16 4 + msgLen b then (m.count RYS_XPT_NO_WINDOW_CNT).putAnswer b 4
    else m.putLand w x b

def execPutReceive (p : Nat) (b : Bytes) : State → Host.Outcome State Fault Refusal := onLive (M.putReceive · p b)

/-- A PUT_DONE ends the put it names (R455). -/
def M.putDone (m : M) (b : Bytes) : M :=
  m.putComplete (msgSrc b) (msgTs b 12 2) (msgTs b 16 4) (msgTs b 20 8) (msgTs b 14 1) (msgTs b 15 1) 0

def execPutDoneReceive (b : Bytes) : State → Host.Outcome State Fault Refusal := onLive (M.putDone · b)

/-- A held PUT leaves, and its pool units are free. -/
def M.putRelease (m : M) (e : EarlyPut) : M :=
  let m : M := { m with die.earlyPuts := m.die.earlyPuts.erase e }
  m.freeUnits e.port 1 e.units

/-- The oldest PUT held for a window outlasts WINDOW_WAIT_US (R453). -/
def M.putTimeout (m : M) (w : Nat) : M :=
  match m.die.earlyPuts.find? fun e => e.window == w with
  | none => m
  | some e =>
    let m := m.reach (e.arrival + 1000 * max 1 (m.fld RYS_XPT_CTRL 63 32))
    ((m.putRelease e).count RYS_XPT_NO_WINDOW_CNT).putAnswer e.message 3

def execPutWindowTimeout (w : Nat) : State → Host.Outcome State Fault Refusal := onLive (M.putTimeout · w)

/-! ## DPUT and DRECV (Table 2.4) -/

/-- The running step's number and attempt. -/
def M.stepId (m : M) : Nat × Nat := (m.die.step.map fun s => (s.number, s.attempt)).getD (m.die.stepNumber, 0)

/-- Bytes of one PUT's body. -/
def putMax : Nat := 65536

/-- DPUT: both ranges have one length, as R650 has it for host windows (log entry 67), and bytes that move lie in
present ranges (R640). -/
def dputShape (j : Job) (_m : M) : Bool := j.a.len == j.w.len && (j.a.len == 0 || (j.a.present && j.w.present))

/-- DPUT's data goes out as PUTs of at most 65,536 bytes; the command waits for every PUT_DONE (R455). -/
def dputRun (j : Job) (m : M) : M :=
  let (step, attempt) := m.stepId
  let window := j.aux 11 0
  let dest := j.aux 31 16
  let offs := (List.range (ceilDiv j.a.bytes putMax)).map fun i => putMax * i
  let m := m.updFlight j.c j.push fun f => { f with owed := offs.map (j.w.base + ·) }
  let m := (m.elasticPath j.c 33).elasticRows j.c j.a.space j.a.base j.a.bytes false
  offs.foldl (fun m o =>
    let (bs, m) := m.spaceRead j.c j.a.space (j.a.base + o) (min putMax (j.a.bytes - o))
    let offset := j.w.base + o
    let m : M := { m with die.ownPuts := m.die.ownPuts ++ [{ core := j.c, push := j.push, dest, window, offset, step, attempt }] }
    m.sendMessage tyPUT dest
      (toBytes 2 window ++ toBytes 1 attempt ++ zeros 1 ++ toBytes 4 offset ++ toBytes 8 step) bs) m

def execDput (c : Nat) : State → Host.Outcome State Fault Refusal :=
  execEngine c 2 9 { shapeOk := dputShape, hold := noHold, run := dputRun }

/-- DRECV binds its window (R452), an absent range as an empty one (R50); PUTs held for it are taken in the order they
came (R453). -/
def drecvRun (j : Job) (m : M) : M :=
  let (step, attempt) := m.stepId
  let w := j.aux 11 0
  let n := if j.w.present then j.w.len else 0
  let x : PutWindow := { core := j.c, push := j.push, space := j.w.space, base := j.w.base, bytes := 16 * n, step, attempt,
                         missing := List.range n }
  let m := m.updFlight j.c j.push fun f => { f with owed := if n = 0 then [] else [0] }
  let m := { m with die.putWindows := mapSet m.die.putWindows w x }
  (m.die.earlyPuts.filter fun e => e.window == w && !older (step, attempt) (putStep e.message)).foldl (fun m e =>
    (m.putRelease e).putReceive e.port e.message) m

def drecvShape (_j : Job) (_m : M) : Bool := true

def execDrecv (c : Nat) : State → Host.Outcome State Fault Refusal :=
  execEngine c 2 10 { shapeOk := drecvShape, hold := noHold, run := drecvRun }

end Sys2Proof.Machine
end

