-- ==== Sys2Proof/Machine/Ship.lean ====
section
/-! DEFINITION. Page shipping (R349 to R358) and the end of a request by CANCEL (R316, R317, R357). -/
namespace Sys2Proof.Machine

/-! ## The offer (R349; its body's order is log entry 70) -/

/-- Fields of an offer's body: offset and width. -/
abbrev ofSLOT : Nat × Nat := (0, 4)
abbrev ofCOOKIE : Nat × Nat := (4, 4)
abbrev ofTENANT : Nat × Nat := (8, 2)
abbrev ofPRIORITY : Nat × Nat := (10, 1)
abbrev ofDEADLINE : Nat × Nat := (11, 6)
abbrev ofTTL : Nat × Nat := (17, 4)
abbrev ofMAX_LEN : Nat × Nat := (21, 4)
abbrev ofSTOP : Nat × Nat := (25, 4)
abbrev ofSEED : Nat × Nat := (29, 8)
abbrev ofEPOCH : Nat × Nat := (37, 2)
abbrev ofMODEL : Nat × Nat := (39, 1)
abbrev ofLEN : Nat × Nat := (40, 4)
abbrev ofSPEC : Nat × Nat := (76, 1)
abbrev ofROOT : Nat × Nat := (77, 4)
abbrev ofFIRST : Nat × Nat := (81, 1)
abbrev ofLAYERS : Nat × Nat := (82, 1)
abbrev ofTOTAL : Nat × Nat := (83, 4)

def offerField (b : Bytes) (f : Nat × Nat) : Nat := numAt b f.1 f.2

/-- The carry entry of an offer's body. -/
def offerCarry (b : Bytes) : List Nat := (List.range 8).map fun i => numAt b (44 + 4 * i) 4

/-- The root word that describes a slot's request, as its root block on stack 0 holds it. -/
def M.requestWord (m : M) (slot : Nat) : Nat := m.rootWord 0 (m.tRoot slot)

/-- Pages of each layer: every position below the committed length (R351). -/
def pagesPerLayer (g : Geometry) (len : Nat) : Nat := ceilDiv len (2 ^ g.log2)

/-- Page indices of a request over its layers: its pages when none was skipped. -/
def totalPages (g : Geometry) (len : Nat) : Nat := g.layers * pagesPerLayer g len

/-- A request's pages in the order they are sent (R351): layer, index, stack and leaf entry; entries without a page are
passed over (R644). -/
def M.shipPages (m : M) (slot : Nat) : List (Nat × Nat × Nat × Leaf) :=
  let g := geometryOf (m.requestWord slot)
  let root := m.tRoot slot / 32
  let n := pagesPerLayer g (m.tLen slot)
  (List.range g.layers).flatMap fun l =>
    let chains := (List.range seamStacks).map fun s => m.leaves s root l
    (List.range n).filterMap fun i =>
      match (chains.getD (placement slot l i) [])[i / 32]? with
      | some e => if e.page = noPage then none else some (l, i, placement slot l i, e)
      | none => none

/-- The offer of a slot. -/
def M.offerBody (m : M) (slot : Nat) : Bytes × M :=
  let g := geometryOf (m.requestWord slot)
  let len := m.tLen slot
  let (carry, m) := m.carry slot
  (toBytes 4 slot ++ toBytes 4 (m.tally slot oCOOKIE 4) ++ toBytes 2 (m.tTenant slot) ++ toBytes 1 (m.tPriority slot) ++
    toBytes 6 (m.tally slot oDEADLINE 6) ++ toBytes 4 (m.tally slot oTTL 4) ++ toBytes 4 (m.tally slot oMAX_LEN 4) ++
    toBytes 4 (m.tally slot oSTOP 4) ++ toBytes 8 (m.tally slot oSEED 8) ++ toBytes 2 (m.tally slot oEPOCH 2) ++
    toBytes 1 (m.tModel slot) ++ toBytes 4 len ++ carry.flatMap (toBytes 4) ++ toBytes 1 (m.tSpec slot) ++
    toBytes 4 (m.requestWord slot % 2 ^ 24) ++ toBytes 1 (Config.firstLayer (m.tModel slot)).toNat ++
    toBytes 1 g.layers ++ toBytes 4 (m.shipPages slot).length, m)

/-- SHIP_ID (Table 8.11). -/
def M.shipId (m : M) (slot number : Nat) : Nat := m.moduleId + slot * 2 ^ 16 + number % 2 ^ 30 * 2 ^ 34

/-- A SHIP_CTL message. -/
def M.shipControl (m : M) (dest op id : Nat) (body : Bytes) : M :=
  m.sendMessage tySHIP_CTL dest (toBytes 1 op ++ zeros 3 ++ toBytes 8 id) body

def shipMsgId (b : Bytes) : Nat := msgTs b 16 8
def shipIdModule (id : Nat) : Nat := bits id 15 0
def shipIdSlot (id : Nat) : Nat := bits id 33 16
def shipIdNumber (id : Nat) : Nat := bits id 63 34

/-- Shipments that run in one direction at a time (R358). -/
def shipLimit : Nat := 256

/-- Offers that are out (TALLY_STATUS.SHIPS_OUT). -/
def M.shipsOffered (m : M) : Nat := (m.die.fmn.shipsOut.filter fun s => s.2.offered).length

def M.updShipOut (m : M) (slot : Nat) (f : ShipOut → ShipOut) : M :=
  match mapGet m.die.fmn.shipsOut slot with
  | some s => { m with die.fmn.shipsOut := mapSet m.die.fmn.shipsOut slot (f s) }
  | none => m

/-- An entry that goes to SHIP_OUT has a shipment, its offer still to be sent (R349, R358). -/
def M.shipBegin (m : M) (slot : Nat) : M :=
  let s : ShipOut := { number := m.die.fmn.shipNo, dest := mapGetD m.die.fmn.shipDest slot 0, offered := false,
                       accepted := none, timeoutMs := 0, cancel := false }
  { m with die.fmn.shipsOut := mapSet m.die.fmn.shipsOut slot s, die.fmn.shipNo := (m.die.fmn.shipNo + 1) % 2 ^ 30 }

/-- The offer goes out, unless the limit holds it back (R349, R358). -/
def M.offerSend (m : M) (slot : Nat) : M :=
  match mapGet m.die.fmn.shipsOut slot with
  | none => m
  | some s =>
    if s.offered || decide (shipLimit ≤ m.shipsOffered) then m
    else
      let (body, m) := m.offerBody slot
      let m := m.noteRequest (m.tRoot slot / 32) (geometryOf (m.requestWord slot)).layers 3
      (m.updShipOut slot fun s => { s with offered := true }).shipControl s.dest 1 (m.shipId slot s.number) body

def execShipOfferSend (slot : Nat) : State → Host.Outcome State Fault Refusal := onLive (M.offerSend · slot)

/-! ## Reserving (R306, R350) -/

/-- Pages that a stack can still allocate, and whether it has room for so many pages and table blocks. -/
def M.allocatable (m : M) (s : Nat) : Nat :=
  let lo := m.poolPage s
  let held := (m.seam s).noAlloc.flatMap fun g => (List.range 8).map fun i => 8 * g + i
  usablePages - lo - (((m.usedPages s ++ held).filter fun p => decide (lo ≤ p)).eraseDups).length

def M.roomFor (m : M) (s pages blocks : Nat) : Bool :=
  decide (pages ≤ m.allocatable s) && decide (blocks ≤ m.freeBlocks s)

/-- The page indices of a layer that a stack holds, of `n` pages in all (R277). -/
def stackIndices (slot layer n s : Nat) : List Nat := (List.range n).filter fun i => placement slot layer i == s

/-- Table blocks that a leaf chain of `k` entries takes (Table 7.5). -/
def chainBlocks (k : Nat) : Nat := ceilDiv k 6

/-- Of `n` indices a layer, those for which a page is reserved: the first `total` of all layers' (R350, log entry 71). -/
def heldIndices (slot layer n s total : Nat) : List Nat := (stackIndices slot layer n s).filter fun i => decide (layer * n + i < total)

/-- Every stack has room for the pages and the table blocks of a new request of this shape, its root block included. -/
def M.roomForRequest (m : M) (slot : Nat) (g : Geometry) (n total : Nat) : Bool :=
  (List.range seamStacks).all fun s =>
    let ps := (List.range g.layers).map fun l => (heldIndices slot l n s total).length
    let ks := (List.range g.layers).map fun l => (stackIndices slot l n s).length
    m.roomFor s (sumBy ps id) (sumBy ks chainBlocks + 1)

/-- `k` table blocks taken. -/
def M.takeBlocks (m : M) (s slot k : Nat) : List Nat × M :=
  (List.range k).foldl (fun (bs, m) _ =>
    let (b, m) := m.allocBlock s slot
    (bs ++ b.toList, m)) ([], m)

/-- One layer of an arriving request on one stack: its pages reserved and an empty leaf chain of the right length. -/
def M.reserveLayer (m : M) (slot root layer n s total : Nat) : List (Nat × Nat × Nat × Nat) × M :=
  let is := stackIndices slot layer n s
  let (blocks, m) := m.takeBlocks s slot (chainBlocks is.length)
  let m := m.storeChain s root layer blocks (is.map fun _ => { page := noPage, scale := zeros 16 })
  (heldIndices slot layer n s total).foldl (fun (ps, m) i =>
    let (p, m) := m.allocPage s lLIVE slot layer i
    (ps ++ (p.map fun p => (s, layer, i, p)).toList, m)) ([], m)

/-- The pages of an arriving request reserved, N of them: (stack, layer, index, page) (R350). -/
def M.reservePages (m : M) (slot root : Nat) (g : Geometry) (n total : Nat) : List (Nat × Nat × Nat × Nat) × M :=
  (List.range g.layers).foldl (fun (ps, m) l =>
    (List.range seamStacks).foldl (fun (ps, m) s =>
      let (qs, m) := m.reserveLayer slot root l n s total
      (ps ++ qs, m)) (ps, m)) ([], m)

/-- A FREE slot chosen by the Foreman; none when every slot is in use. -/
def M.freeSlot (m : M) : Option Nat × M := m.pick 0 tallySlots m.slotsInUse

/-! ## The receiver -/

/-- The request's geometry is that of the model here (R350). -/
def offerMatches (offer : Bytes) : Bool :=
  let model := offerField offer ofMODEL
  let mine := geometryOf (Config.rootGeometry model).toNat
  geometryOf (offerField offer ofROOT) == mine && offerField offer ofLAYERS == mine.layers &&
    offerField offer ofFIRST == (Config.firstLayer model).toNat &&
    decide (offerField offer ofTOTAL ≤ totalPages mine (offerField offer ofLEN))

/-- Offers from this module are accepted (Table 14.6, ADOPT). -/
def M.adopts (m : M) (source : Nat) : Bool := mapGetD m.die.fmn.adopt source (mapGetD m.die.fmn.adopt 0xFFFF false)

/-- The entry of an adopted request: what the offer carries; SPEC_EN, which it does not, is a free value (log entry
71). -/
def M.adoptEntry (m : M) (slot root : Nat) (offer : Bytes) : M :=
  let f := offerField offer
  let epoch := f ofEPOCH
  let flags := 8 * (m.freeValue % 2) + 32 * bit (epoch != m.fld FMN_WT_STATUS 63 48)
  m.spend.write (tallyBase slot)
    (toBytes 1 tADOPTING ++ toBytes 1 (f ofPRIORITY % 8) ++ toBytes 2 (f ofTENANT % 4096) ++ zeros 4 ++ toBytes 4 root ++
      toBytes 2 epoch ++ toBytes 1 (f ofMODEL) ++ zeros 1 ++ toBytes 8 (f ofSEED) ++ toBytes 6 (f ofDEADLINE) ++ zeros 2 ++
      toBytes 4 (f ofTTL) ++ toBytes 4 flags ++ zeros 4 ++ toBytes 4 (f ofMAX_LEN) ++ zeros 4 ++ toBytes 4 (f ofSTOP) ++
      zeros 4 ++ toBytes 4 (f ofCOOKIE))

/-- RETRY_MS and TIMEOUT_MS in force (Table 8.14). -/
def M.shipRetryMs (m : M) : Nat := max 1 (m.fld TALLY_SHIP_CTRL 31 16)
def M.shipTimeoutMs (m : M) : Nat := max 1 (m.fld TALLY_SHIP_CTRL 15 0)

/-- The offer accepted: slot, root, pages and blocks reserved, the entry ADOPTING, its ring cleared and a state record
posted, and the accept sent (R350, R324). -/
def M.adopt (m : M) (slot : Nat) (msg : Bytes) (g : Geometry) : Option M :=
  let offer := msgBody msg
  let n := pagesPerLayer g (offerField offer ofLEN)
  let total := offerField offer ofTOTAL
  if !m.roomForRequest slot g n total then none
  else
    let (root, m) := m.allocRoot slot (offerField offer ofROOT)
    match root with
    | none => none
    | some root =>
      let (pages, m) := m.reservePages slot (root / 32) g n total
      let m := ((m.adoptEntry slot root offer).clearRing slot).postEvent slot
      let x : ShipIn :=
        { id := shipMsgId msg, source := msgSrc msg, offer := offer
          total, firstLayer := offerField offer ofFIRST
          acceptedAt := m.die.ft, timeoutMs := m.shipTimeoutMs, arrived := [], asked := []
          lastSeen := false, pages := pages }
      some ({ m with die.fmn.shipsIn := mapSet m.die.fmn.shipsIn slot x }.shipControl (msgSrc msg) 2 (shipMsgId msg) [])

/-- An offer received (R350, R358, Table 14.6). -/
def M.offerReceive (m : M) (msg : Bytes) : M :=
  let offer := msgBody msg
  let refuse := m.shipControl (msgSrc msg) 3 (shipMsgId msg) []
  if m.adopts (msgSrc msg) && decide (m.die.fmn.shipsIn.length < shipLimit) &&
      (mapGet m.die.fmn.models (offerField offer ofMODEL)).isSome && offerMatches offer then
    match m.freeSlot with
    | (some slot, m') =>
      match m'.adopt slot msg (geometryOf (offerField offer ofROOT)) with
      | some r => r
      | none => refuse
    | (none, _) => refuse
  else refuse

def execShipOfferReceive (msg : Bytes) : State → Host.Outcome State Fault Refusal := onLive (M.offerReceive · msg)

/-- Reserved pages that have not arrived go back, then everything the request holds (R316, R354). -/
def M.shipInFree (m : M) (slot : Nat) (x : ShipIn) : M :=
  let m := x.pages.foldl (fun m q => m.freePage q.1 q.2.2.2) m
  { m.freeRequest slot none with die.fmn.shipsIn := mapDel m.die.fmn.shipsIn slot }

/-- The shipment fails at the receiver (R354). -/
def M.shipInFail (m : M) (slot : Nat) (x : ShipIn) : M :=
  let m := ((m.shipInFree slot x).setTState slot tINCOMPLETE).postEvent slot
  (m.shipControl x.source 6 x.id []).count TALLY_SHIP_INCOMPLETE_CNT

/-- Re-requests sent for pages asked for less than MAX_REREQ times, 64 to a message (R353). -/
def M.rerequest (m : M) (slot : Nat) (x : ShipIn) (seqs : List Nat) : M :=
  let seqs := seqs.filter fun q => decide ((mapGetD x.asked q (0, 0)).1 < m.fld TALLY_SHIP_CTRL 35 32)
  let x := { x with asked := seqs.foldl (fun a q => mapSet a q ((mapGetD a q (0, 0)).1 + 1, m.die.ft)) x.asked }
  let m : M := { m.countBy TALLY_SHIP_REREQ_CNT seqs.length with die.fmn.shipsIn := mapSet m.die.fmn.shipsIn slot x }
  (List.range (ceilDiv seqs.length 64)).foldl (fun m i =>
    m.shipControl x.source 4 x.id (((seqs.drop (64 * i)).take 64).flatMap (toBytes 4))) m

/-- Sequence numbers whose arrival bit is clear. -/
def ShipIn.missing (x : ShipIn) : List Nat := (List.range x.total).filter fun q => !x.arrived.contains q

/-- A leaf entry set in its chain. -/
def M.setLeaf (m : M) (slot layer index s : Nat) (e : Leaf) : M :=
  let root := m.tRoot slot / 32
  let k := index / 32
  let m := m.noteChain s root layer 3
  match (m.chain s root layer)[k / 6]? with
  | none => m
  | some b =>
    (m.stateWriteN (m.blockAddr s b + 8 + 4 * (k % 6)) 4 e.page 3).stateWrite (m.blockAddr s b + 32 + 16 * (k % 6)) e.scale 3

/-- The shipment is complete: what the offer carried is written, the entry decodes, and SHIP_DONE goes out (R355). -/
def M.shipInDone (m : M) (slot : Nat) (x : ShipIn) : M :=
  let m := x.pages.foldl (fun m q => m.freePage q.1 q.2.2.2) m
  let m := ((m.setLen slot (offerField x.offer ofLEN)).setCarry slot (offerCarry x.offer)).setTSpec slot
    (offerField x.offer ofSPEC)
  let m : M := { (m.setTState slot tDECODE).postEvent slot with die.fmn.shipsIn := mapDel m.die.fmn.shipsIn slot }
  m.shipControl x.source 5 x.id []

/-- Bytes of a page-ship payload: its header and its page (Table 8.11). -/
def shipBytes : Nat := 65600

/-- The reserved page that a page of layer `l` and index `i` goes to. -/
def ShipIn.reserved (x : ShipIn) (l i : Nat) : Option (Nat × Nat × Nat × Nat) := x.pages.find? fun q => q.2.1 == l && q.2.2.1 == i

/-- The page that a page of layer `l` and index `i` lands in, and those still reserved: the one reserved for it; where N left
that index out, another one reserved on its stack, else a page allocated now in place of one reserved elsewhere (R350, R644,
log entry 71). -/
def M.shipPlace (m : M) (slot : Nat) (x : ShipIn) (l i : Nat) :
    Option ((Nat × Nat × Nat × Nat) × List (Nat × Nat × Nat × Nat)) × M :=
  match x.reserved l i with
  | some q => (some (q, x.pages.erase q), m)
  | none =>
    let g := geometryOf (offerField x.offer ofROOT)
    let s := placement slot l i
    if g.layers ≤ l ∨ pagesPerLayer g (offerField x.offer ofLEN) ≤ i then (none, m)
    else match x.pages.find? fun q => q.1 == s with
      | some q =>
        let e := ledgerEntry lLIVE slot l i m.die.stepNumber
        (some ((s, l, i, q.2.2.2), x.pages.erase q), m.stateWriteN (ledgerAddr s q.2.2.2) 8 e 3)
      | none => match x.pages with
        | [] => (none, m)
        | q :: rest =>
          let (p, m) := m.allocPage s lLIVE slot l i
          match p with
          | none => (none, m)
          | some p => (some ((s, l, i, p), rest), m.freePage q.1 q.2.2.2)

/-- An accepted page is written to its reserved page and entered in the leaf chain (R352). -/
def M.shipLand (m : M) (slot : Nat) (q : Nat × Nat × Nat × Nat) (b : Bytes) : M :=
  let (s, layer, index, p) := q
  let m := m.stateWrite (pageAddr s p) (slice b 64 pageSize) 3
  (m.setLeaf slot layer index s { page := p * 32 + s, scale := slice b 24 16 }).count TALLY_SHIP_PAGE_RX_CNT

/-- A page received: the slot of a shipment that became complete with it (R352, R353). -/
def M.pageReceive (m : M) (msg : Bytes) : Option Nat × M :=
  let b := slice (msgBody msg) 0 shipBytes
  let id := numAt b 0 8
  let seq := numAt b 8 4
  let good := crc32c (slice b 0 60 ++ b.drop 64) == numAt b 60 4
  let m := if good then m else m.count TALLY_SHIP_CRC_ERR_CNT
  match m.die.fmn.shipsIn.find? fun s => s.2.id == id with
  | none => (none, m)
  | some (slot, x) =>
    if !good then
      let m := if x.arrived.contains seq then m.count TALLY_SHIP_DUP_CNT else m
      (none, if x.total ≤ seq then m else m.rerequest slot x [seq])
    else if x.total ≤ seq then (none, m)
    else if x.arrived.contains seq then (none, m.count TALLY_SHIP_DUP_CNT)
    else match m.shipPlace slot x (byteAt b 16) (numAt b 20 4) with
    | (none, m) => (none, m)
    | (some (q, left), m) =>
      let last := (byteAt b 17).testBit 0
      let m := m.shipLand slot q b
      let y := { x with arrived := seq :: x.arrived, lastSeen := x.lastSeen || last, pages := left }
      let m : M := { m with die.fmn.shipsIn := mapSet m.die.fmn.shipsIn slot y }
      if y.missing.isEmpty then (some slot, m.shipInDone slot y)
      else (none, if last && !x.lastSeen then m.rerequest slot y y.missing else m)

/-- When a missing page was last asked for, and how often. -/
def ShipIn.askedFor (x : ShipIn) : List (Nat × Nat × Nat) :=
  x.missing.filterMap fun q => (mapGet x.asked q).map fun a => (q, a.1, a.2)

/-- One RETRY_MS interval has passed since the oldest re-request of a missing page (R353, R354). -/
def M.shipRetry (m : M) (slot : Nat) : M :=
  match mapGet m.die.fmn.shipsIn slot with
  | none => m
  | some x =>
    match x.askedFor with
    | [] => m
    | a :: rest =>
      let retry := 1000000 * m.shipRetryMs
      let m := m.reach (rest.foldl (fun t b => min t b.2.2) a.2.2 + retry)
      let due := x.askedFor.filter fun b => decide (b.2.2 + retry ≤ m.die.ft)
      if due.any fun b => decide (m.fld TALLY_SHIP_CTRL 35 32 ≤ b.2.1) then m.shipInFail slot x
      else if x.lastSeen then m.rerequest slot x (due.map (·.1))
      else m

def execShipRetryTimer (slot : Nat) : State → Host.Outcome State Fault Refusal := onLive (M.shipRetry · slot)

/-- TIMEOUT_MS has passed since the accept (R354). -/
def M.shipInTimeout (m : M) (slot : Nat) : M :=
  match mapGet m.die.fmn.shipsIn slot with
  | none => m
  | some x => (m.reach (x.acceptedAt + 1000000 * x.timeoutMs)).shipInFail slot x

def execShipTimeout (slot : Nat) : State → Host.Outcome State Fault Refusal := onLive (M.shipInTimeout · slot)

/-! ## The sender -/

/-- The payload of one page (Table 8.11). -/
def shipPayload (id seq n layer index sflags : Nat) (scale data : Bytes) : Bytes :=
  let h := toBytes 8 id ++ toBytes 4 seq ++ toBytes 4 n ++ toBytes 1 layer ++ toBytes 1 sflags ++ zeros 2 ++ toBytes 4 index ++
    slice scale 0 16 ++ zeros 20
  h ++ toBytes 4 (crc32c (h ++ data)) ++ data

/-- One page of a shipment sent (R351, R356). -/
def M.shipSend (m : M) (dest id n : Nat) (resend : Bool) (q : Nat × Nat × Nat × Nat × Leaf) : M :=
  let (seq, layer, index, s, e) := q
  let (data, m) := m.stateRead (pageAddr s (e.page / 32)) pageSize 3
  let sflags := bit (seq + 1 == n) + 2 * bit resend
  (m.count TALLY_SHIP_PAGE_TX_CNT).sendMessage tyPAGE_SHIP dest [] (shipPayload id seq n layer index sflags e.scale data)

/-- The errors of the walk over a shipped slot's chains (R299, R300). -/
def M.noteShip (m : M) (slot : Nat) : M :=
  match m.rootOf slot with
  | some root => m.noteRequest root (geometryOf (m.requestWord slot)).layers 3
  | none => m

/-- Pages with their sequence numbers. -/
def M.shipNumbered (m : M) (slot : Nat) : List (Nat × Nat × Nat × Nat × Leaf) :=
  (m.shipPages slot).zipIdx.map fun p => (p.2, p.1)

/-- The shipment that a message to its sender names. -/
def M.shipOutOf (m : M) (msg : Bytes) : Option (Nat × ShipOut) :=
  let id := shipMsgId msg
  match mapGet m.die.fmn.shipsOut (shipIdSlot id) with
  | some s =>
    if shipIdModule id = m.moduleId ∧ shipIdNumber id = s.number ∧ s.offered ∧ msgSrc msg = s.dest then
      some (shipIdSlot id, s)
    else none
  | none => none

/-- The accept arrives, and every page goes out in order. -/
def M.acceptReceive (m : M) (msg : Bytes) : M :=
  match m.shipOutOf msg with
  | some (slot, s) =>
    if s.accepted.isSome then m
    else
      let m := m.updShipOut slot fun s => { s with accepted := some m.die.ft, timeoutMs := m.shipTimeoutMs }
      let ps := m.shipNumbered slot
      ps.foldl (fun m p => m.shipSend s.dest (shipMsgId msg) ps.length false p) (m.noteShip slot)
  | none => m

def execShipAcceptReceive (msg : Bytes) : State → Host.Outcome State Fault Refusal := onLive (M.acceptReceive · msg)

/-- The sender's shipment ends: its pages are freed, and the entry is FREE, or CANCELLED when a CANCEL is latched
(R356, R357). -/
def M.shipOutEnd (m : M) (slot : Nat) (s : ShipOut) : M :=
  let m := m.endRequest slot (if s.cancel then tCANCELLED else tFREE)
  { m with die.fmn.shipsOut := mapDel m.die.fmn.shipsOut slot }

/-- A refusal (R350): it comes in place of an accept, and a state record follows. -/
def M.refuseReceive (m : M) (msg : Bytes) : M :=
  match m.shipOutOf msg with
  | some (slot, s) => if s.accepted.isSome then m else (m.shipOutEnd slot s).postEvent slot
  | none => m

def execShipRefuseReceive (msg : Bytes) : State → Host.Outcome State Fault Refusal := onLive (M.refuseReceive · msg)

/-- A re-request: its pages are sent again, or SHIP_FAIL when they are gone (R353, R356). -/
def M.rereqReceive (m : M) (msg : Bytes) : M :=
  match m.shipOutOf msg with
  | some (slot, s) =>
    let ps := m.shipNumbered slot
    let asked := (List.range (min 64 (msgLen msg / 4))).map fun i => numAt (msgBody msg) (4 * i) 4
    asked.foldl (fun m q => match ps[q]? with
      | some p => m.shipSend s.dest (shipMsgId msg) ps.length true p
      | none => m) (m.noteShip slot)
  | none => m.shipControl (msgSrc msg) 6 (shipMsgId msg) []

def execShipRereqReceive (msg : Bytes) : State → Host.Outcome State Fault Refusal := onLive (M.rereqReceive · msg)

/-- SHIP_DONE or SHIP_FAIL at the sender (R356). -/
def M.shipOutAnswer (m : M) (msg : Bytes) : M :=
  match m.shipOutOf msg with
  | some (slot, s) => m.shipOutEnd slot s
  | none => m

def execShipDoneReceive (msg : Bytes) : State → Host.Outcome State Fault Refusal := onLive (M.shipOutAnswer · msg)

def execShipFailReceive (msg : Bytes) : State → Host.Outcome State Fault Refusal := onLive (M.shipOutAnswer · msg)

/-- The sender has held its pages 2 × TIMEOUT_MS after the accept (R356). -/
def M.shipHoldEnd (m : M) (slot : Nat) : M :=
  match mapGet m.die.fmn.shipsOut slot with
  | some s => match s.accepted with
    | some t => ((m.reach (t + 2 * 1000000 * s.timeoutMs)).count TALLY_SHIP_HOLD_EXPIRE_CNT).shipOutEnd slot s
    | none => m
  | none => m

def execShipHoldExpiry (slot : Nat) : State → Host.Outcome State Fault Refusal := onLive (M.shipHoldEnd · slot)

/-! ## CANCEL (Table 8.3, R317, R357) -/

/-- A park or resume that runs on a slot is dropped with what it reserved, and its command completes with STATE (log
entry 74). -/
def M.dropJob (m : M) (slot : Nat) : M :=
  match mapGet m.die.parkJobs slot with
  | none => m
  | some j =>
    let m := j.layers.foldl (fun m x =>
      let m := x.pages.foldl (fun m p => m.freePage x.stack p) m
      x.blocks.foldl (fun m b => m.freeBlock x.stack b) m) m
    { m with die.parkJobs := mapDel m.die.parkJobs slot }.ringStatus j.ring j.entry ccSTATE

/-! ## Errors of the Tally (R314) -/

/-- Everything that the ledgers and the block-owner map give a slot is freed (R314). -/
def M.freeBySlot (m : M) (slot : Nat) : M :=
  (List.range seamStacks).foldl (fun m s =>
    let pages := (m.usedPages s).filter fun p =>
      let e := m.ledger s p
      (ledgerState e == lLIVE || ledgerState e == lPARKED) && ledgerSlot e == slot
    let blocks := ((m.seam s).blocks.filter fun b => b.2 == slot).map (·.1)
    let m := pages.foldl (fun m p => m.freePage s p) m
    blocks.foldl (fun m b => m.freeBlock s b) m) m

/-- An uncorrectable error in a slot's entry (R314). -/
def M.tallyError (m : M) (slot : Nat) : M :=
  if tallySlots ≤ slot then m
  else
    let m := (m.count TALLY_UE_CNT).errorClass 9 3 0 slot
    let m : M := { (m.dropJob slot).freeBySlot slot with
      die.parked := mapDel m.die.parked slot
      die.fmn.shipsIn := mapDel m.die.fmn.shipsIn slot, die.fmn.shipsOut := mapDel m.die.fmn.shipsOut slot }
    (((m.setTally slot oROOT 4 noPage).setTState slot tFAULTED)).postEvent slot

/-- The errors of the granule that an access of an entry reads: one that is corrected is counted and written back, an
uncorrectable one faults the entry (R314, log entry 124). -/
def M.tallyMeet (m : M) (slot offset width : Nat) : M :=
  (m.flipsIn 8 (tallyBase slot + offset) width).foldl (fun m p =>
    let m : M := { m with die.ecc := mapDel m.die.ecc p.1 }
    match eccJudge 8 p.1 p.2 with
    | .corrected _ _ _ => (m.count TALLY_CE_CNT).errorClass 1 3 0 slot
    | .uncorrectable => m.tallyError slot
    | _ => m) m

/-- A unit of the module reads a whole entry (R312, R314). -/
def M.tallyUnit (m : M) (slot : Nat) : M := if tallySlots ≤ slot then m else m.tallyMeet slot 0 64

/-! ## CANCEL carried out -/

/-- A request becomes CANCELLED. -/
def M.cancelled (m : M) (slot : Nat) : M :=
  let m : M := { m.dropJob slot with die.parked := mapDel m.die.parked slot }
  m.endRequest slot tCANCELLED

/-- A CANCEL of a slot: none when its state does not allow one. -/
def M.cancelSlot (m : M) (slot : Nat) : Option M :=
  let st := m.tState slot
  if st = tQUEUED ∨ st = tPREFILL ∨ st = tDECODE ∨ st = tPARKED then
    some (if m.inBatch slot then m.setTFlag slot fCANCEL true else m.cancelled slot)
  else if st = tADOPTING then
    match mapGet m.die.fmn.shipsIn slot with
    | some x => some (((m.shipInFree slot x).setTState slot tCANCELLED).shipControl x.source 6 x.id [])
    | none => some (m.cancelled slot)
  else if st = tSHIP_OUT then
    match mapGet m.die.fmn.shipsOut slot with
    | some s =>
      if s.offered then some (m.updShipOut slot fun s => { s with cancel := true })
      else some { m.cancelled slot with die.fmn.shipsOut := mapDel m.die.fmn.shipsOut slot }
    | none => some (m.cancelled slot)
  else none

/-! ## RELEASE, and what was latched for a batch (Table 8.3, R316, R317) -/

/-- A RELEASE of a slot: none when its state does not allow one. -/
def M.releaseSlot (m : M) (slot : Nat) : Option M :=
  let st := m.tState slot
  if st = tDONE ∨ st = tCANCELLED ∨ st = tEXPIRED ∨ st = tFAULTED ∨ st = tINCOMPLETE then some (m.endRequest slot tFREE) else none

/-- The flag and the destination of a SHIP; none when the slot's state does not allow one (Table 14.5). -/
def M.shipSlot (m : M) (slot dest : Nat) : Option M :=
  if m.tState slot = tQUEUED ∨ m.tState slot = tPREFILL then
    some { m.setTFlag slot fSHIP true with die.fmn.shipDest := mapSet m.die.fmn.shipDest slot dest }
  else none

/-- The SHIPs latched during a step carried out (R529). -/
def M.serveShips (m : M) : M :=
  let l := m.die.fmn.shipWaits
  let m : M := { m with die.fmn.shipWaits := [] }
  l.foldl (fun m (slot, r, i, dest) =>
    match m.shipSlot slot dest with
    | some m => m.ringStatus r i ccOK
    | none => m.ringStatus r i ccSTATE) m

/-- The SHIPs and RELEASEs latched during a step carried out, and completed on their rings. -/
def M.serveReleases (m : M) : M :=
  let m := m.serveShips
  let l := m.die.fmn.releases
  let m : M := { m with die.fmn.releases := [] }
  l.foldl (fun m (slot, r, i) =>
    match m.releaseSlot slot with
    | some m => m.ringStatus r i ccOK
    | none => m.ringStatus r i ccSTATE) m

/-- A CANCEL latched during a step: the request becomes CANCELLED and a state record says so. -/
def M.serveCancel (m : M) (slot step ft : Nat) : M :=
  if m.tFlag slot fCANCEL then ((m.setTFlag slot fCANCEL false).cancelled slot).postState slot step ft else m

/-- A composition given up: what was latched for its slots is carried out now. -/
def M.giveUp (m : M) (c : Composition) : M :=
  let m : M := { m with die.fmn.composed := none }
  (c.items.foldl (fun m i => m.serveCancel i.slot 0 m.die.ft) m).serveReleases

end Sys2Proof.Machine
end

