-- ==== Sys2Proof/Machine/Lanes.lean ====
section
/-! DEFINITION. The Smelter's lane arithmetic (R156 to R160, R169 to R177): functions of FP32 or INT32 lanes. -/
namespace Sys2Proof.Machine

/-- The NaN that Smelter operation `op` yields (log entry 30). -/
def laneNan (op : Nat) (x : F32) : F32 := f32FreeNan (16 + op) x.toNat 0

/-! ## Results within a number of ulps (Table 4.3, R160, R177)

An exact value is bounded below by `m × 2^e`, with so many bits that the FP32 values around it are settled (log entry 11). The
tables choose among the FP32 values that lie within the spec's bound of it. -/

/-- The value of FP32 magnitude bits, infinity's taken as 2^128. -/
def magValue (b : Nat) : Nat × Int :=
  if b < 2 ^ 23 then (b, -149) else (2 ^ 23 + b % 2 ^ 23, (b / 2 ^ 23 : Nat) - 150)

/-- The exponent of the last place of `m × 2^e` in FP32, and the magnitude bits of the FP32 value at or below it. -/
def magFloor (m : Nat) (e : Int) : Int × Nat :=
  let t : Int := max (e + Nat.log2 m + 1 - 24) (-149)
  let q := m >>> (t - e).toNat
  (t, if q < 2 ^ 23 then q else (t + 150).toNat * 2 ^ 23 + (q - 2 ^ 23))

/-- The magnitude bits within `k` units in the last place of `m × 2^e`, with e at most −150. -/
def ulpValues (k m : Nat) (e : Int) : List Nat :=
  let (t, lo) := magFloor m e
  ((List.range (3 * k + 1)).map fun i => lo + k - i).filter fun b =>
    let (n, g) := magValue b
    let a := n * 2 ^ (g - e).toNat
    decide (max a m - min a m ≤ k * 2 ^ (t - e).toNat)

/-- One of the FP32 values within `k` ulps of ±`m × 2^e`, by the tables' choice; beyond FP32's range, infinity. -/
def ulpPick (k : Nat) (neg : Bool) (m : Nat) (e : Int) (choice : Nat) : F32 :=
  let (m, e) := if -150 < e then (m <<< (e + 150).toNat, -150) else (m, e)
  let bs := ulpValues k m e
  let b := bs.getD (choice % bs.length) 0
  BitVec.ofNat 32 (fpSign fmtFP32 neg (min b (fpMax fmtFP32 + 1)))

/-- ln 2 in units of 2⁻¹⁶⁰. -/
def ln2Fixed : Nat := 0xb17217f7d1cf79abc9e3b39803f2f6af40f34326

/-- 2^(f × 2⁻¹⁶⁰) for f below 2¹⁶⁰, in units of 2⁻¹⁶⁰: the series of e^(f ln 2). -/
def exp2Fixed (f : Nat) : Nat :=
  let x := f * ln2Fixed / 2 ^ 160
  ((List.range 40).foldl (fun (s, t) k =>
    let t := t * x / ((k + 1) * 2 ^ 160)
    (s + t, t)) (2 ^ 160, 2 ^ 160)).1

/-- Bits of the fractional part of log₂ of z × 2⁻²⁴⁰, z from 2²⁴⁰ to 2²⁴¹, most significant first: by squaring. -/
def logBits : Nat → Nat → Nat → Nat
  | 0, _, acc => acc
  | n + 1, z, acc =>
    let z := z * z / 2 ^ 240
    if 2 ^ 241 ≤ z then logBits n (z / 2) (2 * acc + 1) else logBits n z (2 * acc)

/-- log₂ of m × 2^e within 1 ulp. -/
def log2Within (m : Nat) (e : Int) (choice : Nat) : F32 :=
  let l := Nat.log2 m
  let y : Int := (l + e) * 2 ^ 112 + logBits 112 (m * 2 ^ (240 - l)) 0
  if 0 ≤ y then ulpPick 1 false (y.toNat * 2 ^ 48) (-160) choice
  else ulpPick 1 true (((-y).toNat - 1) * 2 ^ 48) (-160) choice

/-- The integer square root of `n`, below 2^`bits`. -/
def isqrt (n : Nat) : Nat → Nat → Nat
  | 0, r => r
  | b + 1, r => isqrt n b (if (r + 2 ^ b) ^ 2 ≤ n then r + 2 ^ b else r)

/-- 2^X (R158). -/
def laneExp2 (x : F32) : F32 :=
  match f32Decode x with
  | .nan => laneNan 0 x
  | .inf s => if s then 0 else f32Inf false
  | v =>
    if fltLt v (.fin true 149 0) then 0
    else if !fltLt v (.fin false 128 0) then f32Inf false
    else
      let d := v.dyadic
      let y : Int := if 0 ≤ d.e + 160 then d.n * 2 ^ (d.e + 160).toNat else d.n / 2 ^ (-(d.e + 160)).toNat
      ulpPick 1 false (exp2Fixed (y % 2 ^ 160).toNat) (y / 2 ^ 160 - 160) (Config.smelterChoice 0 x.toNat)

/-- The exponent of an exact power of two. -/
def powerOfTwo (m : Nat) (e : Int) : Option Int := if m = 2 ^ Nat.log2 m then some (Nat.log2 m + e) else none

/-- log₂ X, exact at powers of two (R156, R158). -/
def laneLog2 (x : F32) : F32 :=
  match f32Decode x with
  | .nan => laneNan 1 x
  | .inf s => if s then laneNan 1 x else f32Inf false
  | .fin s m e =>
    if m = 0 then f32Inf true
    else if s then laneNan 1 x
    else match powerOfTwo m e with
      | some k => f32Encode 0 (.fin (decide (k < 0)) k.natAbs 0)
      | none => log2Within m e (Config.smelterChoice 1 x.toNat)

/-- 1 ÷ X (R158). -/
def laneRcp (x : F32) : F32 :=
  match f32Decode x with
  | .nan => laneNan 2 x
  | .inf s => if s then 0x80000000 else 0
  | .fin s m e => if m = 0 then f32Inf s else ulpPick 1 s (2 ^ 400 / m) (-400 - e) (Config.smelterChoice 2 x.toNat)

/-- 1 ÷ √X (R158); the spec gives no result for −0. -/
def laneRsq (x : F32) : F32 :=
  match f32Decode x with
  | .nan => laneNan 3 x
  | .inf s => if s then laneNan 3 x else 0
  | .fin s m e =>
    if m = 0 then if s then Config.rsqNegativeZero else f32Inf false
    else if s then laneNan 3 x
    else
      let (m, e) := if e % 2 = 0 then (m, e) else (2 * m, e - 1)
      ulpPick 1 false (isqrt (2 ^ 400 / m) 201 0) (-200 - e / 2) (Config.smelterChoice 3 x.toNat)

/-- The smaller or the larger of two lanes; a NaN gives NaN, and −0 is below +0 (R158, R159). -/
def laneMinMax (max : Bool) (x y : F32) : F32 :=
  let a := f32Decode x
  let b := f32Decode y
  if a.isNan || b.isNan then f32FreeNan 20 x.toNat y.toNat
  else if fltLt a b then if max then y else x
  else if fltLt b a then if max then x else y
  else if a.neg? then if max then y else x else if max then x else y

/-- A comparison of CMPSEL and VCMP (Table 4.3, R158). -/
def laneCmp (cond : Nat) (x y : F32) : Bool :=
  let a := f32Decode x
  let b := f32Decode y
  match cond with
  | 0 => fltLt a b
  | 1 => fltLt a b || fltEq a b
  | 2 => fltEq a b
  | 3 => !fltEq a b
  | 4 => fltLt b a || fltEq a b
  | _ => fltLt b a

/-- A reduction of two lanes: 0 sum, 1 max, 2 min (R159). -/
def laneReduce (mode : Nat) (x y : F32) : F32 :=
  if mode = 0 then f32Add x y else laneMinMax (mode = 1) x y

/-- One level of the pairwise tree. -/
def reduceLevel (mode : Nat) : List F32 → List F32
  | x :: y :: l => laneReduce mode x y :: reduceLevel mode l
  | l => l

/-- LRED's pairwise tree over a beat: six levels (R159). -/
def laneTree (mode : Nat) (l : List F32) : F32 :=
  ((List.range 6).foldl (fun l _ => reduceLevel mode l) l).getD 0 0

/-- FP32 to INT32 toward zero; saturating, NaN gives 0 (Table 4.3). -/
def toIntTrunc (x : Flt) : Int :=
  match x with
  | .fin s m e =>
    let q : Int := if 0 ≤ e then (m <<< e.toNat : Nat) else (m >>> (-e).toNat : Nat)
    let v := if s then -q else q
    if v < -2147483648 then -2147483648 else if 2147483647 < v then 2147483647 else v
  | v => toIntSat 32 v

/-- ICVT (Table 4.3). -/
def laneIcvt (mode : Nat) (x : F32) : F32 :=
  match mode with
  | 0 => f32Encode 0 (.fin (decide (x.toInt < 0)) x.toInt.natAbs 0)
  | 1 => BitVec.ofInt 32 (toIntSat 32 (f32Decode x))
  | _ => BitVec.ofInt 32 (toIntTrunc (f32Decode x))

/-- FMA with its negations: [0] negate Z, [1] negate product (Table 4.3). -/
def laneFma (mode : Nat) (x y z : F32) : F32 :=
  let p := fltMul (f32Decode x) (f32Decode y)
  let p := if mode.testBit 1 then p.negate else p
  let w := f32Decode z
  let w := if mode.testBit 0 then w.negate else w
  f32Encode (f32FreeNan 21 (x.toNat * 2 ^ 32 + y.toNat) z.toNat) (fltAdd p w)

/-! ## Stream elements (Table 4.1) -/

/-- An element widened to a lane. -/
def widen (code raw : Nat) : F32 :=
  if code = 6 then BitVec.ofInt 32 (signed raw 8)
  else if code = 7 ∨ code = 8 then BitVec.ofNat 32 raw
  else if code = 5 then BitVec.ofNat 32 (raw * 65536)
  else f32Encode (f32FreeNan 22 code raw) (elemDecode code raw)

/-- A lane narrowed for a W stream (R149). -/
def narrowLane (code : Nat) (sat : Bool) (x : F32) : Nat × Narrow :=
  if code = 8 then (x.toNat, .plain)
  else if code = 7 then (x.toNat, if f32IsNan x then .nan else .plain)
  else narrow code sat (f32Decode x)

/-! ## TOPK and SAMPLE (R169 to R171) -/

/-- `a` ranks before `b`: larger first, a NaN below −∞, equal values lower index first. -/
def ranksBefore (a b : F32 × Nat) : Bool :=
  let x := f32Decode a.1
  let y := f32Decode b.1
  if x.isNan then y.isNan && decide (a.2 < b.2)
  else if y.isNan then true
  else if fltLt y x then true
  else if fltLt x y then false
  else decide (a.2 < b.2)

/-- An element put into a ranked list of at most `k`. -/
def rankInsert (k : Nat) (l : List (F32 × Nat)) (x : F32 × Nat) : List (F32 × Nat) :=
  (l.filter (ranksBefore · x) ++ x :: l.filter fun y => !ranksBefore y x).take k

/-- The K largest of a row, with their indices. -/
def topK (k : Nat) (row : List F32) : List (F32 × Nat) := row.zipIdx.foldl (rankInsert k) []

/-- The sink result of TOPK: values, then indices, then zeros to whole granules (R167, R169). -/
def topKBytes (k : Nat) (l : List (F32 × Nat)) : Bytes :=
  let l := l ++ List.replicate (k - l.length) (f32Inf true, 0xFFFFFFFF)
  let bs := l.flatMap (fun p => toBytes 4 p.1.toNat) ++ l.flatMap (fun p => toBytes 4 p.2)
  bs ++ zeros (16 * ceilDiv k 2 - bs.length)

/-- LOG2(u) for u = (2n + 1) × 2⁻²⁵: LOG2 of the lane where u is an FP32 value, and within LOG2's bound of the exact u
otherwise (log entry 11). -/
def uniformLog (n : Nat) : F32 :=
  if 2 * n + 1 < 2 ^ 24 then laneLog2 (f32Encode 0 (.fin false (2 * n + 1) (-25)))
  else log2Within (2 * n + 1) (-25) (Config.smelterChoice 6 n)

/-- The noise LOG2(−LOG2(u)) of element `e` for a seed granule, u being (w >> 8) × 2⁻²⁴ + 2⁻²⁵ (R170). -/
def sampleNoise (seed : Bytes) (e : Nat) : F32 :=
  let w := philox (numAt seed 0 4) (numAt seed 4 4) (numAt seed 8 4) (e / 4) (numAt seed 12 4) 0 (e % 4)
  laneLog2 (uniformLog (w / 256) ^^^ 0x80000000#32)

/-- The element with the largest score, ties to the lower index; none when every score is NaN or −∞ (R170, R171). -/
def sampleBest (scores : List F32) : Option (F32 × Nat) :=
  match topK 1 scores with
  | [(s, i)] => if f32IsNan s || s == f32Inf true then none else some (s, i)
  | _ => none

/-! ## Quantize (R172 to R174) -/

/-- The smallest integer s with a ÷ 2^s at most the format's largest finite value, for a = m × 2^e above zero (R173). -/
def mxExponent (f : FpFormat) (m : Nat) (e : Int) : Int :=
  match fpDecode f (fpMax f) with
  | .fin _ mm ee =>
    let s0 : Int := (Nat.log2 m : Int) + e - ((Nat.log2 mm : Int) + ee)
    let fits := fun s : Int => !dyLt { n := mm, e := ee } { n := m, e := e - s }
    if fits s0 then s0 else s0 + 1
  | _ => 0

/-- One MX block: its scale byte, its element codes, saturations and zeroed NaN or infinite elements (R173, R174). -/
def quantBlock (code : Nat) (xs : List Flt) : Nat × List Nat × Nat × Nat :=
  let f := fmtOf code
  let bad := (xs.filter fun x => x.isNan || x.isInf).length
  if bad ≠ 0 then (0xFF, xs.map fun _ => 0, 0, bad)
  else
    let top := xs.foldl (fun a x => if fltLt a x.abs then x.abs else a) Flt.zero
    match top with
    | .fin _ m e =>
      let byte : Nat := if m = 0 then 0 else (max 0 (min 254 (mxExponent f m e + 127))).toNat
      let rs := xs.map fun x => narrow code true (fltScale (127 - (byte : Int)) x)
      (byte, rs.map (·.1), (rs.filter fun r => r.2 == .overflow).length, 0)
    | _ => (0, xs.map fun _ => 0, 0, 0)

/-! ## Pair rotate (R176, R177) -/

/-- t, the fractional part of p × f in turns, in units of 2⁻¹⁴⁹; none for an angle that is not finite. -/
def turnFraction (p : Nat) (f : F32) : Option Nat :=
  match f32Decode f with
  | .fin s m e =>
    let n := p * (m <<< (e + 149).toNat) % 2 ^ 149
    some (if s then (2 ^ 149 - n) % 2 ^ 149 else n)
  | _ => none

/-- 2π in units of 2⁻²⁴⁰. -/
def twoPiFixed : Nat := 0x6487ed5110b4611a62633145c06e0e68948127044533e63a0105df531d89c

/-- The series of cosine (false) or sine (true) at x × 2⁻²⁴⁰ radians, x at most π ÷ 4, in units of 2⁻²⁴⁰. -/
def circleSeries (sine : Bool) (x : Nat) : Nat :=
  let x2 := x * x / 2 ^ 240
  let first := if sine then x else 2 ^ 240
  ((List.range 26).foldl (fun (s, t) k =>
    let i := 2 * k + 1 + bit sine
    let t : Nat := t * x2 / (i * (i + 1) * 2 ^ 240)
    ((if k % 2 = 0 then s - (t : Int) else s + t), t)) ((first : Int), first)).1.toNat

/-- cos or sin of 2πt for t = n × 2⁻¹⁴⁹ turns, within 2 ulp (R177). -/
def circleWithin (sine : Bool) (n : Nat) : F32 :=
  let q := n / 2 ^ 147
  let r := n % 2 ^ 147
  let swap := decide (2 ^ 146 < r)
  let x := (if swap then 2 ^ 147 - r else r) * twoPiFixed / 2 ^ 149
  let v := circleSeries ((sine != (q % 2 == 1)) != swap) x
  let neg := if sine then decide (2 ≤ q) else q == 1 || q == 2
  let choice := Config.smelterChoice (4 + bit sine) n
  ulpPick 2 (if v = 0 then choice.testBit 8 else neg) v (-240) choice

/-- One element of a rotated pair: `own × c ∓ other × s`, the product with s rounded first (R177). -/
def rotElement (first : Bool) (own other f : F32) (p : Nat) : F32 :=
  match turnFraction p f with
  | none => laneNan 5 own
  | some t =>
    let c := circleWithin false t
    let s := circleWithin true t
    laneFma (if first then 1 else 0) own c (f32Mul other s)

/-- Index of the partner of element `e` and whether `e` is the first of its pair, and the pair's index (R176). -/
def rotPartner (mode d e : Nat) : Nat × Bool × Nat :=
  let base := e / d * d
  let j := e % d
  if mode = 0 then if j % 2 = 0 then (base + j + 1, true, j / 2) else (base + j - 1, false, j / 2)
  else if j < d / 2 then (base + j + d / 2, true, j) else (base + j - d / 2, false, j - d / 2)

end Sys2Proof.Machine
end

