-- ==== Sys2Proof/Machine/Smelter.lean ====
section
/-! DEFINITION. The Smelter (chapter 4): chain descriptors, SCHAIN, and the loads of its tables. -/
namespace Sys2Proof.Machine

/-! ## Chain descriptors (Tables 4.4 and 4.5) -/

structure Stage where
  type : Nat
  mode : Nat
  ysel : Nat
  zsel : Nat
  rest : Nat
  arg : Nat
  deriving DecidableEq, Repr

def stageOf (w : Nat) : Stage :=
  { type := bits w 31 27, mode := bits w 26 23, ysel := bits w 22 20, zsel := bits w 19 17, rest := bits w 16 8, arg := bits w 7 0 }

/-- The stages of an entry, in order. -/
def descStages (d : Nat) : List Stage := (List.range (bits d 387 384)).map fun i => stageOf (bits d (32 * i + 31) (32 * i))

/-- Constant Ki of an entry. -/
def descConst (d i : Nat) : F32 := BitVec.ofNat 32 (bits d (256 + 32 * i + 31) (256 + 32 * i))

/-- Descriptor entry `i` as a read delivers it, an uncorrectable word as stored (R217). -/
def M.desc (m : M) (c i : Nat) : Nat := ofBytes (m.readMem c 6 (64 * i) 64 0).1

def M.descValid (m : M) (c i : Nat) : Bool := m.flag (coreReg c CORE_SML_DESC_VALID) i

/-! Stage types by name (Table 4.3). -/
abbrev sFMA : Nat := 1
abbrev sEXP2 : Nat := 2
abbrev sLOG2 : Nat := 3
abbrev sRCP : Nat := 4
abbrev sRSQ : Nat := 5
abbrev sMINMAX : Nat := 6
abbrev sCMPSEL : Nat := 7
abbrev sLRED : Nat := 8
abbrev sRRED : Nat := 9
abbrev sQUANT : Nat := 10
abbrev sROT : Nat := 11
abbrev sGATHER : Nat := 12
abbrev sSCATTER : Nat := 13
abbrev sTOPK : Nat := 14
abbrev sSAMPLE : Nat := 15
abbrev sMERGE : Nat := 16
abbrev sICVT : Nat := 17

/-- The modes a stage type defines; a type without a MODE takes 0 (log entry 41). QUANT takes no mode of an unnarrowed format:
7 and 8 are reserved for it, as R172 and R173 give no QUANT into FP32 or INT32 (log entry 133). -/
def stageModes (t : Nat) : List Nat :=
  if t = sFMA then [0, 1, 2, 3] else if t = sMINMAX ∨ t = sROT ∨ t = sSAMPLE then [0, 1]
  else if t = sCMPSEL then [0, 1, 2, 3, 4, 5] else if t = sLRED ∨ t = sRRED ∨ t = sICVT then [0, 1, 2]
  else if t = sQUANT then [0, 1, 2, 3, 4, 5] else [0]

/-- A used slot holds no reserved value (R162). -/
def Stage.legal (s : Stage) : Bool :=
  decide (1 ≤ s.type) && decide (s.type ≤ 17) && s.rest == 0 && (stageModes s.type).contains s.mode &&
    (if s.type = sROT then decide (4 ≤ s.arg) && decide (s.arg ≤ 8) else s.arg == 0)

def Stage.isSink (s : Stage) : Bool := s.type == sRRED || s.type == sTOPK || s.type == sSAMPLE

/-- The stage uses its second operand, and its third (Table 4.3). -/
def Stage.usesY (s : Stage) : Bool :=
  [sFMA, sMINMAX, sCMPSEL, sQUANT, sROT, sSCATTER].contains s.type
def Stage.usesZ (s : Stage) : Bool := s.type == sFMA || s.type == sCMPSEL

/-- The stage reads stream B (R157, R170, R178). A select code of an operand that the stage type does not use selects nothing
(log entry 133). -/
def Stage.usesB (s : Stage) : Bool :=
  (s.usesY && s.ysel == 3) || (s.usesZ && s.zsel == 3) || s.type == sGATHER || (s.type == sSAMPLE && s.mode == 0)

/-! ## Parameters of SCHAIN (Table 4.2) -/

def Job.afmt (j : Job) : Nat := j.ctl 3 0
def Job.bfmt (j : Job) : Nat := j.ctl 11 8
def Job.wfmt (j : Job) : Nat := j.ctl 15 12
def Job.sinkOnly (j : Job) : Bool := j.ctl 31 31 == 1
def Job.topK (j : Job) : Nat := j.ctl 30 26
def Job.desc (j : Job) : Nat := j.ctl 25 20

/-- Formats a read stream may have (Table 4.1). -/
def readFormat (f : Nat) : Bool := [0, 1, 5, 6, 7, 8].contains f

/-- Beats of a row (R143). -/
def rowBeats (d0 : Nat) : Nat := ceilDiv d0 64

/-- The source index of lane `e` of a stream with its broadcasts (R145). -/
def sourceIndex (lane beat : Bool) (e : Nat) : Nat := (if beat then 0 else e / 64 * 64) + (if lane then 0 else e % 64)

/-- Bytes of a row that a read stream's layout reaches (R144, R145). -/
def readSpan (fmt : Nat) (lane beat : Bool) (d0 : Nat) : Nat :=
  elemBytes fmt (if lane then sourceIndex lane beat (d0 - 1) + 1 else if beat then min d0 64 else d0)

/-- Bytes of a tile row (R134). -/
def accRow (sterling : Bool) : Nat := if sterling then 1024 else 256

/-- Bytes of a MERGE record (R181). -/
def recordSpan (d h : Nat) : Nat := 4 * d * h + 16 * ceilDiv h 4 + 4 * h

/-- The last byte plus one of the scale segment (R175). -/
def scaleSpan (d0 d1 : Nat) : Nat :=
  let b := ceilDiv d0 32
  32 * (b * ((d1 - 1) / 32) + b - 1) + (d1 - 1) % 32 + 1

/-- Granules of a row's sink result (R167). -/
def sinkGranules (t k : Nat) : Nat := if t = sTOPK then ceilDiv k 2 else 1

/-! ## Shape (R150 to R153, R157, R162) -/

/-- The descriptor checks of R162, R157, R178 and R179. -/
def chainOk (j : Job) (ss : List Stage) : Bool :=
  let n := ss.length
  let sinks := (ss.filter Stage.isSink).length
  let isQuant := (ss.getLast?.map fun s => s.type == sQUANT).getD false
  let quantMode := (ss.getLast?.map (·.mode)).getD 0
  let isMerge := (ss.head?.map fun s => s.type == sMERGE).getD false
  upTo 8 n && ss.all Stage.legal && decide (sinks ≤ 1) &&
    (ss.drop 1).all (fun s => s.type != sMERGE) &&
    ss.dropLast.all (fun s => s.type != sQUANT && s.type != sSCATTER) &&
    (if isQuant then quantMode == j.wfmt else [0, 1, 5, 7, 8].contains j.wfmt) &&
    !(isMx j.wfmt && sinks != 0) && !(j.sinkOnly && sinks == 0) && (isMerge || j.d 2 == 0) &&
    (!(ss.any fun s => s.type == sTOPK) || upTo 16 j.topK) &&
    (!(ss.any Stage.usesB) || j.b.present) &&
    (!(ss.any fun s => s.type == sGATHER) || (j.b.space == OPC && j.ctl 19 19 == 0)) &&
    (!(ss.any fun s => s.type == sSCATTER) || (j.w.space == OPC && (j.wfmt == 7 || j.wfmt == 8)))

/-- An ACC range in whole rows, from a row boundary, with rows of 64 FP32 elements (R134, R151). -/
def accReads (sterling : Bool) (j : Job) : Bool :=
  j.a.space != ACC ||
    (j.afmt == 7 && j.d 0 == 64 && j.a.base % 0x10000 % accRow sterling == 0 && j.a.bytes % accRow sterling == 0 &&
      j.inner 2 % accRow sterling == 0)

/-- Bytes that stand for `n` delivered FP32 bytes of stream A: an ACC stream's elements have the tile's size (R133). -/
def Job.streamBytes (sterling : Bool) (j : Job) (n : Nat) : Nat := if j.a.space = ACC then n * (accRow sterling / 64) / 4 else n

/-- The reads stay inside ranges A and B (R152, R134, R151, R181). A present range B is checked as a stream even where no stage
takes its elements (log entry 133). -/
def schainReads (sterling isMerge gathers samples : Bool) (j : Job) : Bool :=
  accReads sterling j &&
  (if isMerge then
      let n := j.streamBytes sterling (recordSpan (j.d 0) (j.d 1))
      j.afmt == 7 && decide (n ≤ j.inner 2) && j.a.coversRows 0 (j.inner 2) (j.d 2) n
    else if j.a.space = ACC then j.a.coversRows 0 (j.inner 2) (j.d 1) (accRow sterling)
    else
      readFormat j.afmt && j.a.coversRows 0 (j.inner 2) (j.d 1) (readSpan j.afmt (j.ctl 16 16 == 1) (j.ctl 17 17 == 1) (j.d 0))) &&
  (!j.b.present ||
    (readFormat j.bfmt &&
      j.b.coversRows 0 (j.inner 3) (j.d 1)
        (if gathers then elemBytes j.bfmt (j.d 0)
          else max (readSpan j.bfmt (j.ctl 18 18 == 1) (j.ctl 19 19 == 1) (j.d 0)) (if samples then 16 else 0))))

/-- The writes stay inside range W: elements, scales and sink (R152, R167, R175). -/
def schainWrites (ss : List Stage) (j : Job) : Bool :=
  (j.sinkOnly || j.w.coversRows 0 (j.inner 4) (j.d 1) (elemBytes j.wfmt (j.d 0))) &&
    (j.sinkOnly || !isMx j.wfmt || j.w.covers (j.outer 4) (scaleSpan (j.d 0) (j.d 1))) &&
    (match ss.find? Stage.isSink with
      | some s => j.w.covers (j.outer 4) (16 * sinkGranules s.type j.topK * j.d 1)
      | none => true)

/-- R153: a write range that overlaps a read range must be that range. -/
def inPlaceOk (w r : Range) (ws rs wsize rsize : Nat) : Bool :=
  !(r.present && w.present && w.overlaps r) ||
    (w.base == r.base && w.len == r.len && ws == rs && wsize == rsize)

/-- The chain starts with MERGE. -/
def isMerge (ss : List Stage) : Bool := (ss.head?.map fun s => s.type == sMERGE).getD false

def schainShape (j : Job) (m : M) : Bool :=
  let ss := descStages (m.desc j.c j.desc)
  let isMerge := isMerge ss
  m.descValid j.c j.desc && chainOk j ss && j.bounded [0, 1, 2] && j.ctl 5 4 != 3 &&
    (if isMerge then
        [64, 128, 192, 256].contains (j.d 0) && decide (1 ≤ j.d 1) && decide (j.d 1 ≤ 64) &&
          decide (1 ≤ j.d 2) && decide (j.d 2 ≤ 32)
      else decide (1 ≤ j.d 0) && decide (j.d 0 ≤ 16384) && decide (1 ≤ j.d 1) && decide (j.d 1 ≤ 4096)) &&
    schainReads (m.sterling j.c) isMerge (ss.any fun s => s.type == sGATHER)
      (ss.any fun s => s.type == sSAMPLE && s.mode == 0) j &&
    schainWrites ss j &&
    inPlaceOk j.w j.a (j.inner 4) (j.inner 2) (elemBits j.wfmt) (elemBits j.afmt) &&
    inPlaceOk j.w j.b (j.inner 4) (j.inner 3) (elemBits j.wfmt) (elemBits j.bfmt)

/-! ## One row through the chain -/

/-- What a row has given so far: its lanes, its sink result, the lanes to scatter, and counts. -/
structure RowOut where
  x : List F32
  sink : Option Bytes := none
  /-- A SCATTER's writes, by element, and whether it was one. -/
  scatter : Option (List (Nat × F32)) := none
  /-- A QUANT's element codes, with the scale bytes of an MX format. -/
  quant : Option (List Nat × List Nat) := none
  /-- NaN elements sunk, and, with the saturated ones, those that a QUANT writes (R149, R172 to R174). -/
  nan : Nat := 0
  quantNan : Nat := 0
  quantSat : Nat := 0
  oob : Nat := 0
  collide : Nat := 0
  failed : Nat := 0
  negative : Bool := false
  deriving DecidableEq, Repr

/-- What a row's stages see beside X: the streams, the constants, the angle table, B's row and its first granule. -/
structure RowIn where
  a : List F32
  b : List F32
  consts : List F32
  angles : List F32
  bRow : List F32
  seed : Bytes
  pad : F32
  inBound : Nat
  d0 : Nat
  topK : Nat
  quantCode : Nat
  sat : Bool
  deriving DecidableEq, Repr

/-- A selected operand (R157). -/
def RowIn.select (ri : RowIn) (sel : Nat) : List F32 :=
  match sel with
  | 0 => ri.a.map fun _ => 0
  | 1 => ri.a.map fun _ => 0x3F800000
  | 2 => ri.a
  | 3 => ri.b
  | _ => ri.a.map fun _ => ri.consts.getD (sel - 4) 0

/-- The beats of a row. -/
def beatsOf (l : List F32) : List (List F32) := (List.range (l.length / 64)).map fun i => (l.drop (64 * i)).take 64

/-- Writes of one beat's lanes, later lanes last, with the collisions (R179, R180). -/
def scatterBeat (d0 : Nat) (lanes : List (F32 × Int)) : List (Nat × F32) × Nat × Nat :=
  lanes.foldl (fun (w, oob, col) (x, i) =>
    if i < 0 ∨ (d0 : Int) ≤ i then (w, oob + 1, col)
    else (w.filter (fun p => p.1 != i.toNat) ++ [(i.toNat, x)], oob, col + bit (w.any fun p => p.1 == i.toNat))) ([], 0, 0)

/-- ROT over a row (R176, R177): a segment that runs past the row meets free partners. -/
def rotRow (mode arg : Nat) (angles x y : List F32) : List F32 :=
  x.zipIdx.map fun (own, e) =>
    let (pe, first, i) := rotPartner mode (2 ^ arg) e
    let other := x.getD pe (Config.missingPartner pe)
    rotElement first own other (angles.getD i 0) (y.getD e 0).toNat

/-- One stage of the chain (Table 4.3). A GATHER looks up every lane, the padded ones too, and counts their indices; a SCATTER
takes in-bound lanes alone (log entry 133). -/
def stageRun (ri : RowIn) (s : Stage) (o : RowOut) : RowOut :=
  let y := ri.select s.ysel
  let z := ri.select s.zsel
  let t := s.type
  if t = sFMA then { o with x := (List.zip o.x (List.zip y z)).map fun (x, y, z) => laneFma s.mode x y z }
  else if t = sEXP2 then { o with x := o.x.map laneExp2 }
  else if t = sLOG2 then { o with x := o.x.map laneLog2 }
  else if t = sRCP then { o with x := o.x.map laneRcp }
  else if t = sRSQ then { o with x := o.x.map laneRsq }
  else if t = sMINMAX then { o with x := List.zipWith (laneMinMax (s.mode == 1)) o.x y }
  else if t = sCMPSEL then
    { o with x := (List.zip o.x (List.zip y z)).map fun (x, y, z) => if laneCmp s.mode x y then z else x }
  else if t = sLRED then { o with x := (beatsOf o.x).flatMap fun b => List.replicate 64 (laneTree s.mode b) }
  else if t = sRRED then
    let v := match (beatsOf o.x).map (laneTree s.mode) with
      | [] => 0
      | h :: l => l.foldl (laneReduce s.mode) h
    { o with sink := some (toBytes 4 v.toNat ++ zeros 12), nan := o.nan + bit (f32IsNan v) }
  else if t = sQUANT then
    let ps := List.zipWith (fun x y => fltMul (f32Decode x) (f32Decode y)) (o.x.take ri.inBound) (y.take ri.inBound)
    if isMx s.mode then
      let bl := (List.range (ceilDiv ri.inBound 32)).map fun b => quantBlock s.mode ((ps.drop (32 * b)).take 32)
      { o with
        quant := some (bl.flatMap (·.2.1), bl.map (·.1))
        quantSat := sumBy bl (·.2.2.1), quantNan := sumBy bl (·.2.2.2) }
    else
      let rs := ps.map (narrow s.mode (ri.sat || s.mode != 5))
      { o with
        quant := some (rs.map (·.1), [])
        quantSat := (rs.filter fun r => r.2 == .overflow).length
        quantNan := (rs.filter fun r => r.2 == .nan).length }
  else if t = sROT then
    { o with
      x := rotRow s.mode s.arg ri.angles o.x y
      negative := o.negative || y.any fun p => decide (p.toInt < 0) }
  else if t = sGATHER then
    let inside := fun x : F32 => decide (0 ≤ x.toInt) && decide (x.toInt.toNat < ri.bRow.length)
    { o with
      x := o.x.map fun x => if inside x then ri.bRow.getD x.toInt.toNat 0 else ri.pad
      oob := o.oob + (o.x.filter fun x => !inside x).length }
  else if t = sSCATTER then
    let lanes := (List.zip o.x (y.map fun i => i.toInt)).take ri.inBound
    let per := (List.range (ceilDiv ri.inBound 64)).map fun b => scatterBeat ri.d0 ((lanes.drop (64 * b)).take 64)
    { o with
      scatter := some (per.flatMap (·.1)), oob := o.oob + sumBy per (·.2.1), collide := o.collide + sumBy per (·.2.2) }
  else if t = sTOPK then
    let l := topK ri.topK o.x
    { o with sink := some (topKBytes ri.topK l), nan := o.nan + (l.filter fun p => f32IsNan p.1).length }
  else if t = sSAMPLE then
    let scores := if s.mode = 1 then o.x else o.x.zipIdx.map fun (x, e) => f32Sub x (sampleNoise ri.seed e)
    match sampleBest scores with
    | some (v, i) => { o with sink := some (toBytes 4 i ++ toBytes 4 v.toNat ++ zeros 8) }
    | none =>
      { o with sink := some (toBytes 4 0xFFFFFFFF ++ toBytes 4 (laneNan 6 0).toNat ++ zeros 8), failed := o.failed + 1 }
  else if t = sICVT then { o with x := o.x.map (laneIcvt s.mode) }
  else o

/-! ## Streams -/

/-- Lanes of a read stream's row: the source elements that are in bound, the pad value elsewhere (R145, R146). -/
def M.streamRow (m : M) (j : Job) (r : Range) (stride fmt : Nat) (lane beat : Bool) (pad : F32) (row : Nat) : List F32 × M :=
  let at' := r.base + stride * row
  let n := if beat then min (j.bd 0) 64 else j.bd 0
  let (elems, m) :=
    if lane then
      (List.range (ceilDiv n 64)).foldl (fun (l, m) b =>
        let (bs, m) := m.spaceRead j.c r.space (at' + elemBytes fmt (64 * b)) (elemBytes fmt 1)
        (l ++ [(64 * b, widen fmt (elemRaw fmt bs 0))], m)) ([], m)
    else
      let (bs, m) := m.spaceRead j.c r.space at' (elemBytes fmt n)
      ((List.range n).map fun i => (i, widen fmt (elemRaw fmt bs i)), m)
  ((List.range (64 * rowBeats (j.d 0))).map fun e => (elems.lookup (sourceIndex lane beat e)).getD pad, m)

/-- An accumulator element on the accumulator-to-chain path, and whether a scaled INT32 element left FP32's range
(R133). -/
def handoffElement (sterling isInt : Bool) (scale : F32) (b : Bytes) : F32 × Bool :=
  let x := if sterling then (Sterling.ofBytes b).flt else elemDecode 8 (ofBytes b)
  if !sterling && !isInt then (BitVec.ofNat 32 (ofBytes b), false)
  else
    let v := if isInt then fltMul x (f32Decode scale) else x
    let r := f32Encode f32CanonicalNan v
    (r, isInt && !v.isInf && (r == f32Inf false || r == f32Inf true))

/-- `n` elements of an ACC stream from a byte offset of its range, over the accumulator-to-chain path (R133). -/
def M.accElems (m : M) (j : Job) (off n : Nat) : List F32 × M :=
  let st := m.sterling j.c
  let t := j.a.base / 0x10000
  let isInt := m.flag (coreReg j.c CORE_MXE_STATUS) (32 + t)
  let size := accRow st / 64
  let at' := j.a.base % 0x10000 + off
  let (bs, m) := m.readMem j.c 2 (t * tileSize st + at') (size * n) 0
  let es := (chunks size n bs).zipIdx.map fun (b, i) =>
    let col := (at' / size + i) % 64
    handoffElement st isInt
      (BitVec.ofNat 32 (m.fld (coreReg j.c CORE_DSCALE + 8 * (col / 2)) (32 * (col % 2) + 31) (32 * (col % 2)))) b
  (es.map (·.1), m.countBy (coreReg j.c CORE_MXE_DRAIN_SAT_CNT) ((es.filter (·.2)).length))

/-- A tile row as stream A: its in-bound elements, with the lane broadcast (R133, R145). -/
def M.accStream (m : M) (j : Job) (pad : F32) (row : Nat) : List F32 × M :=
  let lane := j.ctl 16 16 == 1
  let (es, m) := m.accElems j (j.inner 2 * row) (if lane then min 1 (j.bd 0) else j.bd 0)
  ((List.range 64).map fun e => es.getD (sourceIndex lane false e) pad, m)

/-- The bits of the pad value as a lane (R132, R146). -/
def M.padLane (m : M) (c sel : Nat) : F32 :=
  if sel = 0 then 0 else if sel = 1 then 0xFF800000 else BitVec.ofNat 32 (m.fld (coreReg c CORE_PAD) 31 0)

/-! ## MERGE (R181 to R185) -/

/-- A merged head before its division, in FP32: N per element and S. -/
def mergePlain (ws ss : List F32) (ns : List (List F32)) : List F32 × F32 :=
  let s := (List.zip ws ss).foldl (fun acc (w, x) => f32Fma w x acc) (0 : F32)
  let n := (List.zip ws ns).foldl (fun acc (w, xs) => List.zipWith (fun a x => f32Fma w x a) acc xs)
    ((ns.headD []).map fun _ => (0 : F32))
  (n, s)

/-- A Sterling sum of products and the products rounded (R183). -/
def sterlingDot (ws xs : List F32) : F32 × Nat :=
  let (s, r) := (List.zip ws xs).foldl (fun (s, r) (w, x) =>
    let (t, _, rnd) := sterlingTerm (fltMul (f32Decode w) (f32Decode x))
    (sterlingAdd s t, r + bit rnd)) (⟨0, 0⟩, 0)
  (f32Encode f32CanonicalNan s.flt, r)

/-- The output row of a head from its records' m, s and n (R182, R183, R185): the row, whether every record was empty,
and the products rounded. -/
def mergeHead (sterling : Bool) (d : Nat) (ms ss : List F32) (ns : List (List F32)) : List F32 × Bool × Nat :=
  if ms.all (· == f32Inf true) then (List.replicate d 0, true, 0)
  else
    let top := match ms with
      | [] => 0
      | h :: l => l.foldl (laneMinMax true) h
    let ws := ms.map fun x => if x = f32Inf true then 0 else laneExp2 (f32Sub x top)
    if sterling then
      let (s, rs) := sterlingDot ws ss
      let cols := (List.range d).map fun e => sterlingDot ws (ns.map fun n => n.getD e 0)
      (cols.map fun p => f32Mul p.1 (laneRcp s), false, rs + sumBy cols (·.2))
    else
      let (n, s) := mergePlain ws ss ns
      (n.map fun x => f32Mul x (laneRcp s), false, 0)

/-- `n` FP32 elements of stream A from byte `off` of record `i` (R181): a record has no beats to broadcast, and A's broadcast
bits are ignored (log entry 133). -/
def M.recordElems (m : M) (j : Job) (i off n : Nat) : List F32 × M :=
  let at' := j.inner 2 * i + j.streamBytes (m.sterling j.c) off
  if j.a.space = ACC then m.accElems j at' n
  else
    let (bs, m) := m.spaceRead j.c j.a.space (j.a.base + at') (4 * n)
    ((chunks 4 n bs).map fun b => BitVec.ofNat 32 (ofBytes b), m)

/-- The m and s vectors of the in-bound records, for the in-bound heads, read before every numerator (R184). -/
def M.mergeVectors (m : M) (j : Job) : List (List F32 × List F32) × M :=
  let mOff := 4 * j.d 0 * j.d 1
  (List.range (j.bd 2)).foldl (fun (l, m) i =>
    let (ms, m) := m.recordElems j i mOff (j.bd 1)
    let (ss, m) := m.recordElems j i (mOff + 16 * ceilDiv (j.d 1) 4) (j.bd 1)
    (l ++ [(ms, ss)], m)) ([], m)

/-- The merged row of head `h`, in-bound elements only; the rest is padded. -/
def M.mergeRow (m : M) (j : Job) (pad : F32) (vectors : List (List F32 × List F32)) (h : Nat) : List F32 × M :=
  let d := j.d 0
  let (ns, m) := (List.range (j.bd 2)).foldl (fun (l, m) i =>
    let (n, m) := m.recordElems j i (4 * d * h) (j.bd 0)
    (l ++ [n], m)) (([] : List (List F32)), m)
  let (row, empty, rounded) :=
    mergeHead (m.sterling j.c) (j.bd 0) (vectors.map fun v => v.1.getD h 0) (vectors.map fun v => v.2.getD h 0) ns
  let m := m.countBy (coreReg j.c CORE_SML_MERGE_EMPTY_CNT) (bit empty)
  let m := m.countBy (coreReg j.c CORE_SML_STERLING_ROUND_CNT) rounded
  (row ++ List.replicate (64 * rowBeats d - j.bd 0) pad, m)

/-! ## The write stream -/

/-- Element codes packed into bytes (R104); an odd FP4 count keeps the high nibble of its last byte (R175). -/
def packElems (code lastByte : Nat) (es : List Nat) : Bytes :=
  if code = 4 then
    (List.range (ceilDiv es.length 2)).map fun i =>
      let hi := if 2 * i + 1 < es.length then es.getD (2 * i + 1) 0 else lastByte / 16
      BitVec.ofNat 8 (es.getD (2 * i) 0 + 16 * hi)
  else es.flatMap fun e => toBytes (elemBits code / 8) e

/-- The codeword of one byte about to be written in part, read, checked and merged (R637). -/
def M.mergeByte (m : M) (c space off : Nat) : M :=
  if spaceExtent space ≤ off then m
  else
    let mem := spaceMem space
    let a := memAddr c mem (spaceOffset (m.sterling c) space off)
    (m.flipsIn mem a 1).foldl (fun m p => m.mergeCodeword c mem a 1 p) m

/-- A row's elements, scales and sink written (R144, R149, R167, R175, R179). What a QUANT narrows is counted where it is
written (R149, R172); an in-bound row of padded lanes alone still gives its sink result (log entry 117). -/
def M.writeRow (m : M) (j : Job) (ss : List Stage) (row : Nat) (o : RowOut) : M :=
  let c := j.c
  let at' := j.w.base + j.inner 4 * row
  let plain := (o.x.take (j.bd 0)).map (narrowLane j.wfmt (j.ctl 6 6 == 1))
  let m :=
    if j.sinkOnly then m
    else match o.scatter, o.quant with
      | some ws, _ => ws.foldl (fun m p => m.spaceWrite c j.w.space (at' + 4 * p.1) (toBytes 4 p.2.toNat)) m
      | none, some (es, scales) =>
        let n := elemBytes j.wfmt (j.bd 0)
        let m := if j.wfmt = 4 ∧ j.bd 0 % 2 = 1 then m.mergeByte c j.w.space (at' + n - 1) else m
        let last := ofBytes (m.spaceRead c j.w.space (at' + n - 1) 1).1
        let m := if n = 0 then m else m.spaceWrite c j.w.space at' (packElems j.wfmt last es)
        scales.zipIdx.foldl (fun m (sc, b) =>
          m.spaceWrite c j.w.space (j.w.base + j.outer 4 + 32 * (ceilDiv (j.d 0) 32 * (row / 32) + b) + row % 32)
            (toBytes 1 sc)) m
      | none, none => m.spaceWrite c j.w.space at' (packElems j.wfmt 0 (plain.map (·.1)))
  let counts := !j.sinkOnly && o.scatter.isNone && o.quant.isNone
  let nans := o.nan + (if counts then (plain.filter fun p => p.2 == .nan).length else 0) +
    (if !j.sinkOnly && j.wfmt == 7 then ((o.scatter.getD []).filter fun p => f32IsNan p.2).length else 0)
  let m := m.countBy (coreReg c CORE_SML_NAN_CNT) (nans + if j.sinkOnly then 0 else o.quantNan)
  let m := m.countBy (coreReg c CORE_SML_QUANT_SAT_CNT)
    ((if j.sinkOnly then 0 else o.quantSat) + (if counts then (plain.filter fun p => p.2 == .overflow).length else 0))
  let m := m.countBy (coreReg c CORE_SML_SAMPLE_FAIL_CNT) o.failed
  let m := m.countBy (coreReg c CORE_SML_INDEX_OOB_CNT) o.oob
  let m := m.countBy (coreReg c CORE_SML_SCATTER_COLLIDE_CNT) o.collide
  match o.sink, ss.find? Stage.isSink with
  | some bs, some s => m.spaceWrite c j.w.space (j.w.base + j.outer 4 + 16 * sinkGranules s.type j.topK * row) bs
  | _, _ => m

/-! ## SCHAIN (R143 to R155) -/

/-- One row of a SCHAIN: read, through the stages, written. In a MERGE chain stream A's current element is the merged one, and
GATHER's row is read without B's lane broadcast (log entry 133). -/
def M.schainRow (m : M) (j : Job) (ss : List Stage) (consts angles : List F32) (vectors : List (List F32 × List F32))
    (row : Nat) : M :=
  let pad := m.padLane j.c (j.ctl 5 4)
  let (a, m) :=
    if isMerge ss then m.mergeRow j pad vectors row
    else
      let (l, m) :=
        if j.a.space = ACC then m.accStream j pad row
        else m.streamRow j j.a (j.inner 2) j.afmt (j.ctl 16 16 == 1) (j.ctl 17 17 == 1) pad row
      (l.zipIdx.map fun (x, e) => if e < j.bd 0 then x else pad, m)
  let gathers := ss.any fun s => s.type == sGATHER
  let plainB := ss.any fun s => (s.usesY && s.ysel == 3) || (s.usesZ && s.zsel == 3)
  let (b, m) := if plainB then m.streamRow j j.b (j.inner 3) j.bfmt (j.ctl 18 18 == 1) (j.ctl 19 19 == 1) pad row else ([], m)
  let (bRow, m) :=
    if gathers then
      let (bs, m) := m.spaceRead j.c j.b.space (j.b.base + j.inner 3 * row) (elemBytes j.bfmt (j.bd 0))
      ((List.range (j.bd 0)).map fun i => widen j.bfmt (elemRaw j.bfmt bs i), m)
    else ([], m)
  let (seed, m) :=
    if ss.any fun s => s.type == sSAMPLE && s.mode == 0 then m.spaceRead j.c j.b.space (j.b.base + j.inner 3 * row) 16
    else ([], m)
  let ri : RowIn :=
    { a, b, consts, angles, bRow, seed, pad, inBound := j.bd 0, d0 := j.d 0, topK := j.topK, quantCode := j.wfmt
      sat := j.ctl 6 6 == 1 }
  let o := ss.foldl (fun o s => stageRun ri s o) { x := a }
  let m := m.writeRow j ss row o
  if o.negative then m.updFlight j.c j.push fun f => { f with fault := true } else m

/-- The angle table as it stands, loaded or not: until its first load every angle is zero (R164, R166, log entry 133). -/
def M.angles (m : M) (c : Nat) : List F32 × M :=
  let (bs, m) := m.readMem c 6 angleOff 512 0
  ((chunks 4 128 bs).map fun b => BitVec.ofNat 32 (ofBytes b), m)

def schainRun (j : Job) (m : M) : M :=
  let (db, m) := m.readMem j.c 6 (64 * j.desc) 64 0
  let d := ofBytes db
  let ss := descStages d
  let (angles, m) := if ss.any fun s => s.type == sROT then m.angles j.c else ([], m)
  let m := m.setFld (coreReg j.c CORE_SML_STATUS) 5 0 j.desc
  let (vectors, m) := if isMerge ss then m.mergeVectors j else ([], m)
  (List.range (j.bd 1)).foldl (fun m r => m.schainRow j ss ((List.range 4).map (descConst d)) angles vectors r) m

/-! ### The accesses of a chain (R154, R184, Table 5.17) -/

/-- Latency of a stage type and the delay of its sink (Table 4.3). -/
def stageLatency (t : Nat) : Nat :=
  if t = sFMA then 4 else if t = sEXP2 ∨ t = sLOG2 ∨ t = sQUANT ∨ t = sGATHER then 6 else if t = sRCP ∨ t = sRSQ then 5
  else if t = sLRED then 7 else if t = sROT ∨ t = sSAMPLE then 12 else if t = sSCATTER ∨ t = sICVT then 2
  else if t = sMERGE then 16 else 1

def sinkDelay (t : Nat) : Nat := if t = sTOPK then 24 else if t = sRRED ∨ t = sSAMPLE then 8 else 0

/-- Beat bytes of streams A and B, and those of W with its two scale bytes for an MX format (R154). -/
def Job.aBeat (j : Job) : Nat := if j.ctl 17 17 = 1 ∨ !j.a.present then 0 else elemBytes j.afmt 64
def Job.bBeat (j : Job) (gathers : Bool) : Nat :=
  if gathers then 256 else if j.ctl 19 19 = 1 ∨ !j.b.present then 0 else elemBytes j.bfmt 64
def Job.wBeat (j : Job) : Nat := if j.sinkOnly then 0 else elemBytes j.wfmt 64 + (if isMx j.wfmt then 2 else 0)

/-- Cycles a beat takes (R154). -/
def Job.beatCycles (j : Job) (gathers : Bool) : Nat :=
  let on := fun (r : Range) space n => if r.space = space then n else 0
  let reads := fun space => on j.a space j.aBeat + on j.b space (j.bBeat gathers)
  max (max 1 (ceilDiv (reads SCRATCH) 256)) (max (ceilDiv (on j.w SCRATCH j.wBeat) 256) (ceilDiv (reads OPC) 512))

/-- Bytes a Smelter port moves in a cycle (Table 5.4). -/
def smelterWidth (space : Nat) (write : Bool) : Nat := if space = OPC ∧ !write then 512 else 256

/-- The accesses to a byte range whose first byte is the `before`-th of its port's first cycle `at_`. -/
def streamUses (at_ before space off n : Nat) (write : Bool) : List RowUse :=
  (cutRows off (insideSpace space off n)).map fun (o, k) =>
    { at_ := at_ + (before + (o - off)) / smelterWidth space write, mem := spaceMem space, off := o, len := k, write, unit := .smelter }

/-- The elements of beat `b` of a row of a read stream: their byte offset in the row and their bytes, none for a later beat
of a broadcast one (R145, R146). -/
def Job.beatSpan (j : Job) (fmt : Nat) (lane beat : Bool) (b : Nat) : Nat × Nat :=
  let n := min 64 (j.bd 0 - 64 * b)
  if beat && b != 0 then (0, 0) else (elemBytes fmt (64 * b), elemBytes fmt (if lane then min 1 n else n))

/-- B's bytes of beat `b`: a GATHER takes its row beat by beat (log entry 134), and SAMPLE its seed with beat 0. -/
def Job.bSpan (j : Job) (gathers samples : Bool) (b : Nat) : Nat × Nat :=
  let (o, n) := j.beatSpan j.bfmt (!gathers && j.ctl 18 18 == 1) (!gathers && j.ctl 19 19 == 1) b
  (o, if samples && b == 0 then max n 16 else n)

/-- The writes of beat `b` of row `r`: its elements, and behind them the scale bytes of its in-bound blocks (R154, R175); a
SCATTER's fall where its own beat's would (log entry 134). -/
def Job.beatWrites (j : Job) (at_ r b : Nat) : List RowUse :=
  if j.sinkOnly then []
  else
    let (o, n) := j.beatSpan j.wfmt false false b
    streamUses at_ 0 j.w.space (j.w.base + j.inner 4 * r + o) n true ++
      (if isMx j.wfmt then
        ([0, 1].filter fun i => decide (64 * b + 32 * i < j.bd 0)).flatMap fun i =>
          streamUses at_ (n + i) j.w.space
            (j.w.base + j.outer 4 + 32 * (ceilDiv (j.d 0) 32 * (r / 32) + 2 * b + i) + r % 32) 1 true
       else [])

/-- The writes of row `r`'s sink granules, its last beat entering stage 0 in cycle `last` (Table 5.17). -/
def Job.sinkUses (j : Job) (ss : List Stage) (last r : Nat) : List RowUse :=
  match ss.find? Stage.isSink with
  | some s =>
    let upto := sumBy (ss.take (ss.idxOf s + 1)) fun x => stageLatency x.type
    let g := sinkGranules s.type j.topK
    streamUses (last + upto + sinkDelay s.type) 0 j.w.space (j.w.base + j.outer 4 + 16 * g * r) (16 * g) true
  | none => []

/-- The accesses of a SCHAIN without MERGE. -/
def chainUses (j : Job) (ss : List Stage) : List RowUse :=
  let gathers := ss.any fun s => s.type == sGATHER
  let samples := ss.any fun s => s.type == sSAMPLE && s.mode == 0
  let c := j.beatCycles gathers
  let nb := rowBeats (j.d 0)
  let l := sumBy ss fun s => stageLatency s.type
  let before := if j.a.space = j.b.space then j.aBeat else 0
  (List.range (j.bd 1)).flatMap fun r =>
    ((List.range nb).flatMap fun b =>
      let n := nb * r + b
      let (ao, al) := j.beatSpan j.afmt (j.ctl 16 16 == 1) (j.ctl 17 17 == 1) b
      let (bo, bl) := j.bSpan gathers samples b
      (if j.a.space = ACC then [] else streamUses (1 + c * n) 0 j.a.space (j.a.base + j.inner 2 * r + ao) al false) ++
        (if j.b.present then streamUses (1 + c * n) before j.b.space (j.b.base + j.inner 3 * r + bo) bl false else []) ++
        j.beatWrites (5 + l + c * n) r b) ++
      j.sinkUses ss (5 + c * (nb * r + nb - 1)) r

/-- The accesses of a SCHAIN with MERGE: the vectors of every record, then one numerator beat a cycle, head by head; an
output row is written 16 cycles after its last numerator beat. -/
def mergeUses (j : Job) (ss : List Stage) : List RowUse :=
  let nb := rowBeats (j.d 0)
  let mOff := 4 * j.d 0 * j.d 1
  let sOff := mOff + 16 * ceilDiv (j.d 1) 4
  let rec_ := fun i => j.a.base + j.inner 2 * i
  let reads := fun at_ off n => if j.a.space = ACC then [] else streamUses at_ 0 j.a.space off n false
  let row := fun h => 16 + 2 * j.d 2 + nb * j.d 2 * (h + 1)
  ((List.range (j.bd 2)).flatMap fun i =>
    reads (1 + 2 * i) (rec_ i + mOff) (4 * j.bd 1) ++ reads (2 + 2 * i) (rec_ i + sOff) (4 * j.bd 1)) ++
    (List.range (j.bd 1)).flatMap fun h =>
      ((List.range (j.bd 2)).flatMap fun i => (List.range nb).flatMap fun b =>
        let (o, n) := j.beatSpan 7 false false b
        reads (1 + 2 * j.d 2 + nb * (j.d 2 * h + i) + b) (rec_ i + 4 * j.d 0 * h + o) n) ++
        ((List.range nb).flatMap fun b => j.beatWrites (row h) h b) ++ j.sinkUses (ss.drop 1) (row h) h

def schainUses (j : Job) (m : M) : List RowUse :=
  let ss := descStages (m.desc j.c j.desc)
  if isMerge ss then mergeUses j ss else chainUses j ss

def schainEngine : Engine := { shapeOk := schainShape, hold := noHold, uses := schainUses, run := schainRun }

def execSchain (c : Nat) : State → Host.Outcome State Fault Refusal := execEngine c 1 1 schainEngine

/-! ## SDESC and STABLE (R57, R163 to R166) -/

/-- SDESC and STABLE wait until every earlier Smelter command has retired (R57). -/
def smelterIdle (j : Job) (m : M) : Option (List Nat) :=
  if (m.core j.c).flights.any fun f => cmdEngine f.cmd == 1 then some [] else none

def sdescShape (j : Job) (_ : M) : Bool :=
  let n := j.d 0
  if j.flags % 2 = 1 then
    decide (2 ≤ n) && decide (n ≤ 256) && n % 2 == 0 && j.a.present && j.a.len == n / 2 && decide (j.ctl 7 0 + n ≤ 256)
  else decide (1 ≤ n) && decide (n ≤ 64) && j.a.present && j.a.len == 4 * n && decide (j.ctl 5 0 + n ≤ 64)

def sdescRun (j : Job) (m : M) : M :=
  let n := j.d 0
  let (bs, m) := m.spaceRead j.c j.a.space j.a.base j.a.bytes
  if j.flags % 2 = 1 then
    let first := j.ctl 7 0
    let m := m.writeMem j.c 6 (storeOff + 8 * first) bs
    let m := m.updCore j.c fun k => { k with
      fallValid := (List.range n).foldl (fun v i => mapSet v (first + i) true) k.fallValid }
    let a := coreReg j.c CORE_SML_STATUS
    m.setFld a 16 8 (max (m.fld a 16 8) (first + n))
  else
    let first := j.ctl 5 0
    let m := m.writeMem j.c 6 (64 * first) bs
    (List.range n).foldl (fun m i => m.raise (coreReg j.c CORE_SML_DESC_VALID) (first + i)) m

/-- Granule i of range A is read 4 + i cycles after the issue (Table 5.17), and the table at `off` has it with the last. -/
def loadUses (j : Job) (off : Nat) : List RowUse :=
  ((List.range j.a.len).flatMap fun i => usesOf (4 + i) j.a.space (j.a.base + 16 * i) 16 false .smelter) ++
    [{ at_ := 4 + j.a.len, mem := 6, off, len := j.a.bytes, write := true, unit := .smelter }]

/-- Where the tables SDESC loads begin. -/
def sdescOff (j : Job) : Nat := if j.flags % 2 = 1 then storeOff + 8 * j.ctl 7 0 else 64 * j.ctl 5 0

def sdescEngine : Engine :=
  { shapeOk := sdescShape, hold := smelterIdle, uses := fun j _ => loadUses j (sdescOff j), run := sdescRun }

def execSdesc (c : Nat) : State → Host.Outcome State Fault Refusal :=
  execEngine c 1 2 sdescEngine

def stableShape (j : Job) (_ : M) : Bool := j.a.present && j.a.len == 32

def stableRun (j : Job) (m : M) : M :=
  let (bs, m) := m.spaceRead j.c j.a.space j.a.base 512
  (m.writeMem j.c 6 angleOff bs).raise (coreReg j.c CORE_SML_STATUS) 17

def stableEngine : Engine :=
  { shapeOk := stableShape, hold := smelterIdle, uses := fun j _ => loadUses j angleOff, run := stableRun }

def execStable (c : Nat) : State → Host.Outcome State Fault Refusal :=
  execEngine c 1 3 stableEngine

end Sys2Proof.Machine
end

