-- ==== Sys2Proof/Machine/Attend.lean ====
section
/-! DEFINITION. QATTEND and QAPPEND at their core, and the same commands at a stack: the page engine and the attention
engine (R279 to R294, R643, R644). -/
namespace Sys2Proof.Machine

/-! ## The two commands at a core -/

/-- Head dimensions of a page (Table 7.4). -/
def headDims : List Nat := [64, 128, 192, 256]

/-- Geometry a command names: local layer, page format, LOG2_TPP, HKV and D (R643). -/
def Job.appendGeometry (j : Job) : Geometry :=
  { layers := j.aux 4 0, fmt := j.ctl 7 4, log2 := j.ctl 15 12, hkv := j.d 1, d := j.d 0 }

def Job.attendGeometry (j : Job) : Geometry :=
  { layers := j.aux 4 0, fmt := j.ctl 7 4, log2 := j.ctl 15 12, hkv := j.ctl 11 8, d := j.d 0 }

/-- A geometry that Tables 7.4 and 7.8 allow and that fits a page (R271 to R273). -/
def Geometry.ok (g : Geometry) : Bool :=
  headDims.contains g.d && upTo 8 g.hkv && decide (4 ≤ g.log2) && decide (g.log2 ≤ 8) && [0, 1, 5].contains g.fmt && g.fits

/-- Bytes of a QAPPEND row: its elements, and a granule of scales for FP8 (R280). -/
def appendRow (g : Geometry) : Nat := g.hkv * g.d * kvBytes g.fmt + (if g.fmt = 5 then 0 else 16)

def qappendShape (j : Job) (_ : M) : Bool :=
  let g := j.appendGeometry
  g.ok && j.ctl 3 0 == g.fmt && upTo 8192 (j.d 2) && j.bounded [2] &&
    j.a.covers 0 (16 * j.d 2) && j.a.coversRows (j.outer 2) (j.inner 2) (j.d 2) (appendRow g) &&
    j.b.coversRows 0 (j.inner 3) (j.d 2) (appendRow g)

/-- Bytes of a query row and of a record (R181, R290). -/
def queryRow (j : Job) : Nat := j.d 1 * j.d 0 * (if j.ctl 3 0 = 5 then 2 else 4)

def partialBytes (d h : Nat) : Nat := 4 * d * h + 32 * ceilDiv h 4

def qattendShape (j : Job) (_ : M) : Bool :=
  let g := j.attendGeometry
  g.ok && [5, 7].contains (j.ctl 3 0) && upTo 64 (j.d 1) && j.d 1 % g.hkv == 0 && upTo 4096 (j.d 2) && j.bounded [2] &&
    decide (partialBytes (j.d 0) (j.d 1) ≤ j.inner 4) && j.a.coversRows 0 (j.inner 2) (j.d 2) (queryRow j) &&
    j.b.covers 0 (16 * j.d 2) && j.w.coversRows 0 (j.inner 4) (32 * j.d 2) (partialBytes (j.d 0) (j.d 1))

/-- Commands a controller queues (R294). -/
def seamQueueMax : Nat := 512

/-- A command put into every controller's queue, its request on the Shaft (R233); one that finds it full waits, and the wait is
counted (R294). -/
def seamRun (j : Job) (m : M) : M :=
  let m := (List.range seamStacks).foldl (fun m s =>
    let m := if seamQueueMax ≤ (m.seam s).queue.length then m.count (seamReg s SEAM_REQ_QUEUE_FULL_CYCLE_CNT) else m
    (m.elasticPath j.c s).updSeam s fun x => { x with queue := x.queue ++ [(j.c, j.push)] }) m
  m.updFlight j.c j.push fun f => { f with owed := List.range seamStacks }

def execQattend (c : Nat) : State → Host.Outcome State Fault Refusal :=
  execEngine c 3 1 { shapeOk := qattendShape, hold := noHold, run := seamRun }

def execQappend (c : Nat) : State → Host.Outcome State Fault Refusal :=
  execEngine c 3 2 { shapeOk := qappendShape, hold := noHold, run := seamRun }

/-! ## A command at a stack -/

/-- The head of a controller's queue, when it is an opcode of engine 3 and its command still lives. -/
def M.seamHead (m : M) (s opcode : Nat) : Option Job :=
  match (m.seam s).queue with
  | [] => none
  | (c, push) :: _ =>
    match (m.core c).flights.find? fun f => f.push = push && cmdEngine f.cmd == 3 && cmdOpcode f.cmd == opcode with
    | some f => some { c, push, cmd := f.cmd, ps := f.params }
    | none => none

/-- The head taken from a controller's queue, its stack's part of the command done (R284). -/
def M.seamDone (m : M) (s : Nat) (j : Job) : M :=
  let m := m.updSeam s fun x => { x with queue := x.queue.drop 1 }
  m.updFlight j.c j.push fun f => { f with owed := f.owed.erase s }

/-- The check of R643: the root index when the entry holds a root and its geometry and layer match. -/
def M.geometryCheck (m : M) (s slot : Nat) (g : Geometry) (source : Nat) : Option Nat × M :=
  let m := m.tallyUnit slot
  let bad := fun (m : M) => (m.count (seamReg s SEAM_GEOM_ERR_CNT)).faultPending slot
  match m.rootOf slot with
  | none => (none, bad m)
  | some root =>
    let r := geometryOf (m.rootWord s (32 * root))
    let m := m.noteBursts (m.blockAddr s root) 4 source
    if r.fmt = g.fmt ∧ r.log2 = g.log2 ∧ r.hkv = g.hkv ∧ r.d = g.d ∧ g.layers < r.layers then (some root, m) else (none, bad m)

/-! ### QAPPEND (R279 to R287, R644) -/

/-- A token of a QAPPEND: its slot, position, key row and value row (R280). -/
structure Token where
  slot : Nat
  pos : Nat
  key : Bytes
  value : Bytes
  deriving DecidableEq, Repr

/-- Reads of a command at a stack wait for an arrival token (R141). -/
def M.seamHeld (m : M) (j : Job) : Bool := m.tokenHeld j.c j.a || m.tokenHeld j.c j.b

/-- A cycle in which an arrival token holds a command's reads. -/
def M.seamSlip (m : M) (j : Job) : M := m.count (cluReg (j.c / 17) CLU_SLIP_CYCLE_CNT)

/-- The in-bound tokens of a QAPPEND, headers and rows read as their banks come free (R204). -/
def M.tokens (m : M) (j : Job) : List Token × M :=
  let n := appendRow j.appendGeometry
  (List.range (j.bd 2)).foldl (fun (ts, m) i =>
    let header := j.a.base + 16 * i
    let (h, m) := (m.elasticRows j.c j.a.space header 16 false).spaceRead j.c j.a.space header 16
    let key := j.a.base + j.outer 2 + j.inner 2 * i
    let (k, m) := (m.elasticRows j.c j.a.space key n false).spaceRead j.c j.a.space key n
    let value := j.b.base + j.inner 3 * i
    let (v, m) := (m.elasticRows j.c j.b.space value n false).spaceRead j.c j.b.space value n
    (ts ++ [{ slot := numAt h 0 4 % tallySlots, pos := numAt h 4 4, key := k, value := v }], m)) ([], m)

/-- Scale byte of head `h` of a row (R280). -/
def rowScale (g : Geometry) (row : Bytes) (h : Nat) : Nat := byteAt row (g.hkv * g.d * kvBytes g.fmt + h)

/-- The page scales a new FP8 page gets: for each head, the largest of its tokens' plus HEADROOM, at most 0xFE (R282). -/
def newScales (g : Geometry) (headroom : Nat) (ts : List Token) : Bytes :=
  if g.fmt = 5 then zeros 16
  else
    let top := fun (f : Token → Bytes) h => min 0xFE (ts.foldl (fun x t => max x (rowScale g (f t) h)) 0 + headroom)
    slice ((List.range g.hkv).flatMap fun h => toBytes 1 (top Token.key h) ++ toBytes 1 (top Token.value h)) 0 16

/-- Elements stored under a page scale: the bytes, and how many were saturated and how many rounded (R282). -/
def rescale (fmt tokenScale pageScale : Nat) (row : Bytes) : Bytes × Nat × Nat :=
  if fmt = 5 then (row, 0, 0)
  else
    let rs := row.map fun b =>
      let x := fpDecode (fmtOf fmt) b.toNat
      let y := if tokenScale = 0xFF then Flt.nan else fltScale ((tokenScale : Int) - (pageScale : Int)) x
      let (r, o) := narrow fmt true y
      (r, o, o == Narrow.plain && !fltEq (fpDecode (fmtOf fmt) r) y)
    (rs.map fun r => BitVec.ofNat 8 r.1, (rs.filter fun r => r.2.1 == .overflow).length, (rs.filter fun r => r.2.2).length)

/-- One half, keys or values, of a token written into its page (R271, R282). -/
def M.writeHalf (m : M) (s page : Nat) (g : Geometry) (scale : Bytes) (isValue : Bool) (pos : Nat) (row : Bytes) : M :=
  let p := 2 ^ g.log2
  let n := g.d * kvBytes g.fmt
  (List.range g.hkv).foldl (fun m h =>
    let (bs, sat, rnd) := rescale g.fmt (rowScale g row h) (byteAt scale (2 * h + bit isValue)) (slice row (h * n) n)
    let m := m.stateWrite (pageAddr s page + bit isValue * g.half + (h * p + pos % p) * n) bs 1
    (m.countBy (seamReg s SEAM_APPEND_SAT_CNT) sat).countBy (seamReg s SEAM_APPEND_ROUND_CNT) rnd) m

/-- A token written (R281). -/
def M.writeToken (m : M) (s page : Nat) (g : Geometry) (scale : Bytes) (t : Token) : M :=
  ((m.writeHalf s page g scale false t.pos t.key).writeHalf s page g scale true t.pos t.value).count
    (seamReg s SEAM_APPEND_TOKEN_CNT)

/-- An empty pool or table-block area at an allocation (R287). -/
def M.exhausted (m : M) (s : Nat) : M :=
  let m := ((m.count (seamReg s SEAM_ALLOC_FAIL_CNT)).errorClass 13 2 s noPage).report 13 2 s 16 0 0 noPage
  m.stepErrorReported.updStep fun x => { x with exhausted := true }

/-- Table blocks taken until a chain has `n`. -/
def M.growChain (m : M) (s slot : Nat) (blocks : List Nat) (n : Nat) : List Nat × M :=
  (List.range (n - blocks.length)).foldl (fun (bs, m) _ =>
    let (b, m) := m.allocBlock s slot
    (bs ++ b.toList, m)) (blocks, m)

/-- The page of index `i` of a layer, allocated when the chain has none (R281, R644); none when it cannot be. -/
def M.pageFor (m : M) (s slot root layer i : Nat) (scale : Bytes) : Option Leaf × M :=
  let blocks := m.chain s root layer
  let es := m.leaves s root layer
  let k := i / 32
  match es[k]? with
  | some ⟨p, sc⟩ =>
    if p ≠ noPage then (some ⟨p, sc⟩, m)
    else
      let (page, m) := m.allocPage s lLIVE slot layer i
      match page with
      | none => (none, m)
      | some page =>
        let e : Leaf := { page := page * 32 + s, scale }
        (some e, m.storeChain s root layer blocks (es.set k e))
  | none =>
    let need := ceilDiv (k + 1) 6
    if m.freeBlocks s < need - blocks.length then (none, m)
    else
      let (page, m) := m.allocPage s lLIVE slot layer i
      match page with
      | none => (none, m)
      | some page =>
        let (blocks, m) := m.growChain s slot blocks need
        let e : Leaf := { page := page * 32 + s, scale }
        let skipped := List.replicate (k - es.length) { page := noPage, scale := zeros 16 }
        (some e, m.storeChain s root layer blocks (es ++ skipped ++ [e]))

/-- The tokens of a QAPPEND that land in one page, in order; each one of them meets an empty pool by itself (R287). -/
def M.appendPage (m : M) (s : Nat) (j : Job) (root slot i : Nat) (ts : List Token) : M :=
  let g := j.appendGeometry
  let (e, m) := m.pageFor s slot root g.layers i (newScales g (j.ctl 10 8) ts)
  match e with
  | none => ts.foldl (fun m _ => m.exhausted s) m
  | some e => ts.foldl (fun m t => m.writeToken s (e.page / 32) g e.scale t) m

/-- Tokens gathered by slot and page index, in order of first appearance. -/
def groupTokens (log2 : Nat) (ts : List Token) : List (Nat × Nat × List Token) :=
  let keys := ts.foldl (fun (ks : List (Nat × Nat)) t =>
    let k := (t.slot, t.pos / 2 ^ log2)
    if ks.contains k then ks else ks ++ [k]) []
  keys.map fun k => (k.1, k.2, ts.filter fun t => t.slot == k.1 && t.pos / 2 ^ log2 == k.2)

/-- The QAPPEND at the head of a stack's queue: every token is checked, and those placed on this stack at or beyond the
committed length are written (R281 to R284, R643). -/
def M.seamAppend (m : M) (s : Nat) : M :=
  match m.seamHead s 2 with
  | none => m
  | some j =>
    if m.seamHeld j then m.seamSlip j else
    let g := j.appendGeometry
    let (ts, m) := m.tokens j
    let (ok, m) := ts.foldl (fun (ok, m) t =>
      let (r, m) := m.geometryCheck s t.slot g 1
      match r with
      | none => (ok, m)
      | some _ =>
        if placement t.slot g.layers (t.pos / 2 ^ g.log2) ≠ s then (ok, m)
        else if t.pos < m.tLen t.slot then (ok, m.count (seamReg s SEAM_APPEND_BELOW_CNT))
        else (ok ++ [t], m)) ([], m)
    let m := (groupTokens g.log2 ok).foldl (fun m (slot, i, ts) =>
      match m.rootOf slot with
      | none => m
      | some root => (m.noteChain s root g.layers 1).appendPage s j root slot i ts) m
    m.seamDone s j

/-- A request the controller still holds but whose command has gone is dropped. -/
def M.seamDropDead (m : M) (s : Nat) : M :=
  let live := fun (r : Nat × Nat) => (m.core r.1).flights.any fun f => f.push == r.2 && cmdEngine f.cmd == 3
  m.updSeam s fun x => { x with queue := x.queue.dropWhile fun r => !live r }

def execSeamQappendRequest (stack : Nat) : State → Host.Outcome State Fault Refusal :=
  onLive fun m => (m.seamDropDead stack).seamAppend stack

/-! ### QATTEND (R289 to R292) -/

/-- m, s and n of one query head (R291). -/
structure Soft where
  m : F32
  s : F32
  n : List F32
  deriving DecidableEq, Repr

def Soft.empty (d : Nat) : Soft := { m := f32Inf true, s := 0, n := List.replicate d 0 }

/-- One visible position: `k` is the key, `kscale` the exponent of its scale (none for NaN), `v` the value elements
already scaled and rounded (R291). -/
def Soft.step (q k : List Flt) (kscale : Flt → Flt) (v : List F32) (st : Soft) : Soft :=
  let dot := (q.zip k).foldl (fun a p => fltAdd a (fltMul p.1 p.2)) Flt.zero
  let x := f32Encode (f32FreeNan 40 (q.length) (k.length)) (kscale dot)
  if !f32IsNan x && !f32IsNan st.m && fltLt (f32Decode st.m) (f32Decode x) then
    let a := laneExp2 (f32Sub st.m x)
    { m := x, s := f32Fma st.s a 0x3F800000#32, n := (st.n.zip v).map fun p => f32Fma p.1 a p.2 }
  else
    let w := laneExp2 (f32Sub x st.m)
    { st with s := f32Add st.s w, n := (st.n.zip v).map fun p => f32Fma w p.2 p.1 }

/-- `n` elements of a row of a format from a byte offset. -/
def elemsAt (fmt : Nat) (bs : Bytes) (off n : Nat) : List Flt :=
  (List.range n).map fun i => elemDecode fmt (elemRaw fmt (bs.drop off) i)

/-- One page's positions `[lo, hi)` folded into the heads of an entry, in increasing order (R290, R291). -/
def pageFold (g : Geometry) (h : Nat) (q : List (List Flt)) (first : Nat) (scale data : Bytes) (lo hi : Nat)
    (st : List Soft) : List Soft :=
  let p := 2 ^ g.log2
  let e := kvBytes g.fmt
  let scaled := fun i (x : Flt) => if g.fmt = 5 then x else mxApply (byteAt scale i) x
  (List.range (hi - lo)).foldl (fun st t =>
    let pos := lo + t - first
    let kv := (List.range g.hkv).map fun x =>
      let off := (x * p + pos) * g.d * e
      let v := (elemsAt g.fmt data (g.half + off) g.d).map fun y =>
        f32Encode (f32FreeNan 41 x pos) (scaled (2 * x + 1) y)
      (elemsAt g.fmt data off g.d, v)
    st.zipIdx.map fun (s, i) =>
      let x := i * g.hkv / h
      let (k, v) := kv.getD x ([], [])
      s.step (q.getD i []) k (scaled (2 * x)) v) st

/-- A record written at a byte offset of the W space: n, m and s (R181); the padding between them is not written. -/
def M.writePartial (m : M) (j : Job) (off : Nat) (st : List Soft) : M :=
  let word := fun x : F32 => toBytes 4 x.toNat
  let mo := off + 4 * j.d 0 * st.length
  let m := m.elasticRows j.c j.w.space off (partialBytes (j.d 0) st.length) true
  let m := m.spaceWrite j.c j.w.space off (st.flatMap fun s => s.n.flatMap word)
  let m := m.spaceWrite j.c j.w.space mo (st.flatMap fun s => word s.m)
  m.spaceWrite j.c j.w.space (mo + 16 * ceilDiv st.length 4) (st.flatMap fun s => word s.s)

/-- The positions of page `i` that an entry sees (R290). -/
def visible (g : Geometry) (window vis i : Nat) : Nat × Nat :=
  let p := 2 ^ g.log2
  (max (if window = 0 then 0 else vis - window) (i * p), min vis ((i + 1) * p))

/-- The heads of one entry after every visible page of this stack (R290, R291, R644). -/
def M.attendPages (m : M) (s : Nat) (j : Job) (root slot vis : Nat) (q : List (List Flt)) : List Soft × M :=
  let g := j.attendGeometry
  let c := stackClass slot g.layers s
  let m := m.noteChain s root g.layers 0
  ((m.leaves s root g.layers).zipIdx).foldl (fun (st, m) (e, k) =>
    let i := c + 32 * k
    let (lo, hi) := visible g (j.ctl 47 24) vis i
    if e.page = noPage ∨ hi ≤ lo then (st, m)
    else
      let a := pageAddr s (e.page / 32)
      let first := i * 2 ^ g.log2
      let n := g.d * kvBytes g.fmt
      let m := (List.range g.hkv).foldl (fun m h =>
        let off := (h * 2 ^ g.log2 + (lo - first)) * n
        (m.noteBursts (a + off) ((hi - lo) * n) 0).noteBursts (a + g.half + off) ((hi - lo) * n) 0) m
      let m := m.countBy (seamReg s SEAM_STREAM_BYTE_CNT) ((hi - lo) * 2 * g.hkv * n)
      (pageFold g (j.d 1) q first e.scale (m.stored a (2 * g.half)) lo hi st, m))
    (List.replicate (j.d 1) (Soft.empty (j.d 0)), m)

/-- Entry `i` of a QATTEND answered by one stack: its record for the stack's class (R290 to R292). -/
def M.attendEntry (m : M) (s : Nat) (j : Job) (i : Nat) : M :=
  let g := j.attendGeometry
  let item := j.b.base + 16 * i
  let (b, m) := (m.elasticRows j.c j.b.space item 16 false).spaceRead j.c j.b.space item 16
  let slot := numAt b 0 4 % tallySlots
  let at' := j.a.base + j.inner 2 * i
  let (row, m) := (m.elasticRows j.c j.a.space at' (queryRow j) false).spaceRead j.c j.a.space at' (queryRow j)
  let fmt := j.ctl 3 0
  let q := (List.range (j.d 1)).map fun h => elemsAt fmt row (h * j.d 0 * (if fmt = 5 then 2 else 4)) (j.d 0)
  let (r, m) := m.geometryCheck s slot g 0
  let (st, m) := match r with
    | none => (List.replicate (j.d 1) (Soft.empty (j.d 0)), m)
    | some root => m.attendPages s j root slot (numAt b 4 4) q
  (m.writePartial j (j.w.base + j.inner 4 * (32 * i + stackClass slot g.layers s)) st).count
    (seamReg s SEAM_ATTEND_ENTRY_CNT)

/-- The QATTEND at the head of a stack's queue. -/
def M.seamAttend (m : M) (s : Nat) : M :=
  match m.seamHead s 1 with
  | none => m
  | some j =>
    if m.seamHeld j then m.seamSlip j
    else (((List.range (j.bd 2)).foldl (fun m i => m.attendEntry s j i) m).elasticPath j.c s).seamDone s j

def execSeamQattendRequest (stack : Nat) : State → Host.Outcome State Fault Refusal :=
  onLive fun m => (m.seamDropDead stack).seamAttend stack

end Sys2Proof.Machine
end

