-- ==== Sys2Proof/Machine/Power.lean ====
section
/-! DEFINITION. Power, clocks and thermal control (chapter 16) and the tray's inputs (chapter 18). -/
namespace Sys2Proof.Machine

/-! ## Ceilings and the step in effect (R576) -/

/-- The field of CLK_STATUS that holds ceiling `i`: 0 thermal, 1 power cap, 2 input, 3 droop (Table 16.7). -/
def ceilingLo (i : Nat) : Nat := 26 - 3 * i

/-- A ceiling as last set, whether or not its boundary has come. -/
def M.ceiling (m : M) (i : Nat) : Nat := mapGetD m.die.pwr.nextCeiling i (m.fld CLK_STATUS (ceilingLo i + 2) (ceilingLo i))

/-- A ceiling put into effect, with PWR_STATUS.THROTTLED and CAPPED (Table 16.10). -/
def M.putCeiling (m : M) (i v : Nat) : M :=
  let m := m.setFld CLK_STATUS (ceilingLo i + 2) (ceilingLo i) v
  let m := m.setFld PWR_STATUS 7 7 (bit (Config.topStep < m.fld CLK_STATUS 28 26))
  m.setFld PWR_STATUS 6 6 (bit (Config.topStep < m.fld CLK_STATUS 25 23))

/-- A ceiling set, in effect from the next step boundary: at once when no step is in progress. -/
def M.setCeiling (m : M) (i v : Nat) : M :=
  if m.inStep then m.updPwr fun p => { p with nextCeiling := mapSet p.nextCeiling i v } else m.putCeiling i v

/-- One step slower, P5 at most; one step faster, the grade's top at most. -/
def slower (v : Nat) : Nat := min 5 (v + 1)
def faster (v : Nat) : Nat := if v ≤ Config.topStep then Config.topStep else v - 1

/-- The pending ceilings put into effect at a step boundary. -/
def M.boundaryCeilings (m : M) : M :=
  let m := m.die.pwr.nextCeiling.foldl (fun m p => m.putCeiling p.1 p.2) m
  m.updPwr fun p => { p with nextCeiling := [] }

/-- The step last asked for and carried out; the request that waits for the boundary goes before it. -/
def M.askedStep (m : M) : Nat := (m.die.pwr.stepPending.map (·.step)).getD (m.die.pwr.stepAsked.getD Config.topStep)

/-- The slowest of the requested step and the ceilings (R576). -/
def M.targetStep (m : M) : Nat :=
  (List.range 4).foldl (fun v i => max v (m.fld CLK_STATUS (ceilingLo i + 2) (ceilingLo i))) (min 5 m.askedStep)

/-- SOURCE of CLK_REGIONn_STATUS for a step: PLL A or PLL B (Table 16.3). -/
def stepSource (p : Nat) : Nat := if p = 1 ∨ p = 2 then 1 else 0

/-- The regions marked to fail become FAILED at the boundary, and loads are refused (R575, R545). -/
def M.boundaryRegions (m : M) : M :=
  let fails := m.die.pwr.regionFail
  let m := fails.foldl (fun m r => m.setFld (CLK_REGION_STATUS + 8 * r) 1 0 3) m
  let m := if fails.isEmpty then m else m.updHdf fun h => { h with loadsRefused := true }
  m.updPwr fun p => { p with regionFail := [] }

/-- A region is stopped for good: its PLL did not lock (R545, R575). -/
def M.regionFailed (m : M) (r : Nat) : Bool := m.fld (CLK_REGION_STATUS + 8 * r) 1 0 == 3

/-- CLK_SSC with each value held to its limits (R587). -/
def sscClamped (w : Word) : Word :=
  setFld (setFld w 15 8 (clamp 30 33 (fld w 15 8))) 7 4 (clamp 0 10 (fld w 7 4))

/-- The step asked of a region: by the request that waits, if it names the region, else the one carried out (R577). -/
def M.regionAsked (m : M) (r : Nat) : Nat :=
  match m.die.pwr.stepPending.filter fun q => q.mask.testBit r with
  | some q => q.step
  | none => mapGetD m.die.pwr.regionReq r (m.die.pwr.stepAsked.getD Config.topStep)

/-- The step a compute region is asked to run (R576, R577), no faster than any ceiling. -/
def M.regionTarget (m : M) (r : Nat) : Nat :=
  (List.range 4).foldl (fun v i => max v (m.fld CLK_STATUS (ceilingLo i + 2) (ceilingLo i))) (min 5 (m.regionAsked r))

/-- The step a compute region runs, and whether all eight run the same (R37). -/
def M.regionStep (m : M) (r : Nat) : Nat := m.fld (CLK_REGION_STATUS + 8 * r) 10 8

def M.regionsEqual (m : M) : Bool := (List.range 8).all fun r => m.regionStep r == m.regionStep 0

/-- A model is loaded: requests for single regions are over, and regions that differ come to one step at the next change;
starts are held until then (R37, log entry 91). -/
def M.equalRegions (m : M) : M :=
  let whole := fun (q : StepRequest) => { q with mask := 255 }
  m.updPwr fun p => { p with
    regionReq := [], stepLatched := p.stepLatched.map whole
    stepPending := match p.stepPending with
      | some q => some (whole q)
      | none => if m.regionsEqual then none else some { step := m.askedStep, mask := 255, mailbox := none } }

/-- A request for a step: it waits for its boundary, or behind one that waits it is latched, in the place of an earlier one,
whose CLOCK_STEP completes with SUPERSEDED (R43, R514, R525). The second result is that mailbox. -/
def M.askStep (m : M) (q : StepRequest) : M × Option Nat :=
  let m := m.setFld CLK_CTRL 2 0 q.step
  match m.die.pwr.stepPending with
  | none => (m.updPwr fun p => { p with stepPending := some q }, none)
  | some _ =>
    let old := m.die.pwr.stepLatched
    ((m.latched old.isSome).updPwr fun p => { p with stepLatched := some q }, old.bind (·.mailbox))

/-- The request that waited is settled; the latched one waits for the next boundary (R515). The second result is the mailbox of
the one settled. -/
def M.stepSettled (m : M) : M × Option Nat :=
  match m.die.pwr.stepPending with
  | none => (m, none)
  | some q =>
    let own := (List.range 8).filterMap fun r => if q.mask.testBit r then none else some (r, m.regionAsked r)
    (m.updPwr fun p => { p with
      stepPending := p.stepLatched, stepLatched := none, stepAsked := some q.step, regionReq := own }, q.mailbox)

/-- The compute regions stop and start again: the fence unit is cleared, and each region reloads its copy of fabric time from
the next broadcast (R39, R467, R578, Table 16.4). -/
def M.regionsStop (m : M) : M :=
  { m with die.fences := [], die.servo.staleCopies := List.range 8 ++ m.die.servo.staleCopies.filter (8 ≤ ·) }

/-- A write of CLK_SSC takes effect at a step boundary, with a stop of the compute regions (R587). -/
def M.boundarySsc (m : M) : M :=
  let ssc := sscClamped (m.reg CLK_SSC)
  if m.die.pwr.sscInEffect = ssc then m else (m.updPwr fun p => { p with sscInEffect := ssc }).regionsStop

/-- The change of step at a boundary (R578, R579, R587): deferred and counted while stepping up before the rails
are in regulation; nothing when every region runs its step. The second result is the mailbox of a request that is settled. -/
def M.stepChange (m : M) (railsReady : Bool) : M × Option Nat :=
  if m.inStep then (m, none) else
  let m := m.boundaryCeilings.boundaryRegions.boundarySsc
  if (List.range 8).all (fun r => m.regionStep r == m.regionTarget r) then (m.setFld CLK_STATUS 31 29 m.targetStep).stepSettled
  else if (List.range 8).any (fun r => m.regionTarget r < m.regionStep r) && !railsReady then (m.count CLK_STEP_DEFER_CNT, none)
  else
    let d := m.setFld CLK_STATUS 31 29 m.targetStep
    let d := (List.range 8).foldl (fun d r =>
      let a := CLK_REGION_STATUS + 8 * r
      (d.setFld a 10 8 (m.regionTarget r)).setFld a 7 6 (stepSource (m.regionTarget r))) d
    ((d.count CLK_STEP_CHANGE_CNT).regionsStop).stepSettled

/-! ## Input and rails -/

/-- Every rail off, as after a loss of 50 V (R570, R625); a flash write that runs ends badly (R549, R553). -/
def M.railsOff (m : M) : M :=
  let m := match m.die.pwr.mgtRail, m.die.hdf.flashRunning with
    | true, some (r, _) => (m.spoilWrite r).updHdf fun h => { h with flashRunning := none, flashQueue := [] }
    | _, _ => m
  m.updPwr fun p => { p with rails := false, mgtRail := false, released := false, unrecorded := none }

/-- Rails latched off except VDD_MGT and VDD_PLL (R572, R595). -/
def M.latchRails (m : M) : M := m.updPwr fun p => { p with rails := false, latched := true }

/-- What Headframe records of a trip: the rail, or with 32 the thermal trip (R572, R595). -/
def M.tripRecorded (m : M) (trip : Nat) : M :=
  if trip = 32 then (m.setFld PWR_STATUS 9 9 1).logEvent 2
  else ((m.setFld PWR_STATUS 15 11 trip).setFld PWR_STATUS 10 10 1).appendLog 3 (Config.eventSource 1).val
    (Config.eventCode 1).toNat (toBytes 36 (Config.eventData 1).toNat)

/-- The rails latch off as they are, with no firmware; Headframe records the trip now, or as it starts (R572, R595). -/
def M.trip (m : M) (trip : Nat) : M :=
  if !m.die.pwr.rails then m
  else if m.die.managed then m.latchRails.tripRecorded trip
  else m.latchRails.updPwr fun p => { p with unrecorded := some trip }

/-- R572: a rail trips. -/
def M.railTrip (m : M) (rail : Nat) : M := m.trip (rail % 32)

def execRailTrip (rail : Nat) : State → Host.Outcome State Fault Refusal := onDie (M.railTrip · rail)

/-- R595: the thermal comparator trips. -/
def M.thermalTrip (m : M) : M := m.trip 32

def execThermalTrip : State → Host.Outcome State Fault Refusal := onDie M.thermalTrip

/-- The input ceiling P3, or the grade's top if slower (R570). -/
def M.inputUndervoltage (m : M) : M := ((m.setFld PWR_STATUS 5 5 1).count PWR_IN_UV_CNT).setCeiling 2 (max 3 Config.topStep)

/-- The ceiling returns to the grade's top step (R570). -/
def M.inputUndervoltageClear (m : M) : M :=
  if m.flag PWR_STATUS 5 then (m.setFld PWR_STATUS 5 5 0).setCeiling 2 Config.topStep else m

/-! ## Reference clock and PLLs -/

/-- The PLLs, in this model's numbering: 0 to 7 compute A, 8 to 15 compute B, 16 to 19 Seam, 20 and 21 link, 22
control, 23 host, 24 Headframe (Table 16.2); the region each feeds, none for host and Headframe. -/
def pllRegion (p : Nat) : Option Nat :=
  if p < 8 then some p else if p < 16 then some (p - 8) else if p < 20 then some (p - 8)
  else if p < 22 then some (p - 8) else if p = 22 then some 14 else none

/-- The Headframe PLL. -/
def headframePll : Nat := 24

/-- Windows within which a PLL must lock (R545, R575). -/
def lockWindows : Nat := 16

/-- The divided output of a PLL is counted over 64 µs: a compute PLL's at half its output (R544: 144,000 for 2.25 GHz), the
others' at their output, those with no given multiple by their stepping (Table 16.2, log entry 21). -/
def pllCount (pll : Nat) : Nat :=
  if pll < 8 then 144000 else if pll < 16 then 224000 else if pll = 22 then 96000 else if pll = 23 then 192000
  else (Config.fixedPllCount pll).toNat

/-- The modulator spreads a PLL: the compute PLLs under CMP_EN, the Seam PLLs under SEAM_EN, no other (R587). -/
def M.spreads (m : M) (pll : Nat) : Bool :=
  if pll < 16 then m.die.pwr.sscInEffect.getLsbD 0
  else if pll < 20 then m.die.pwr.sscInEffect.getLsbD 1 else false

/-- The nominal count: with spread, the count that the modulator's profile gives over the window, which lies within the depth
below the unspread one (R544, R587). -/
def M.nominalCount (m : M) (pll spread : Nat) : Nat :=
  let n := pllCount pll
  let depth := Machine.fld m.die.pwr.sscInEffect 7 4
  if m.spreads pll then n - min spread (n * depth / 2000) else n

/-- A region starts once its PLLs are locked: both, for a compute region. -/
def M.startRegion (m : M) (pll : Nat) : M :=
  match pllRegion pll with
  | none => m
  | some r =>
    let a := CLK_REGION_STATUS + 8 * r
    let ready := if r < 8 then mapGetD m.die.pwr.pllLocked r false && mapGetD m.die.pwr.pllLocked (r + 8) false else true
    if ready && m.fld a 1 0 == 1 then
      let m := { m.setFld a 1 0 0 with die.servo.staleCopies := r :: m.die.servo.staleCopies }
      if r < 8 then m.setFld a 7 6 (stepSource (m.fld CLK_STATUS 31 29)) else m.setFld a 7 6 2
    else m

/-- One lock judgment (R544, R545, R575): within ±200 ppm of the nominal count. Without the Headframe PLL the module stays in
reset (R545). -/
def M.lockJudgment (m : M) (pll count spread : Nat) : M :=
  let nominal := m.nominalCount pll spread
  let diff := if count < nominal then nominal - count else count - nominal
  if diff * 1000000 ≤ 200 * nominal then
    let m := m.updPwr fun p => { p with
      pllLocked := mapSet p.pllLocked pll true, pllFails := mapSet p.pllFails pll 0
      pllHoldover := mapSet p.pllHoldover pll false }
    m.startRegion pll
  else
    let fails := mapGetD m.die.pwr.pllFails pll 0 + 1
    let locked := mapGetD m.die.pwr.pllLocked pll false
    if locked then
      if mapGetD m.die.pwr.pllHoldover pll false then m.updPwr fun p => { p with pllFails := mapSet p.pllFails pll fails }
      else if m.flag CLK_STATUS 2 then m
      else (m.updPwr fun p => { p with
        pllHoldover := mapSet p.pllHoldover pll true, pllFails := mapSet p.pllFails pll 1 }).count CLK_PLL_UNLOCK_CNT
    else
    let m := m.updPwr fun p => { p with pllFails := mapSet p.pllFails pll fails }
    if fails = lockWindows then
      if pll = headframePll then m.updPwr fun p => { p with released := false, pllDead := true }
      else
        let m := (m.logEvent 3).updHdf fun h => { h with loadsRefused := true }
        match pllRegion pll with
        | some r => m.setFld (CLK_REGION_STATUS + 8 * r) 1 0 3
        | none => m
    else m

def execPllLockJudgment (pll count spread : Nat) : State → Host.Outcome State Fault Refusal :=
  onManaged (M.lockJudgment · pll count spread)

/-- A PLL in a holdover of its own has not passed a judgment in the 16 windows behind the one it failed (R575): its region fails
at the next step boundary, and R545 applies. -/
def M.regionPllFailed (m : M) (pll : Nat) : M :=
  if mapGetD m.die.pwr.pllHoldover pll false && decide (lockWindows < mapGetD m.die.pwr.pllFails pll 0) then
    let m := m.logEvent 3
    let m := match pllRegion pll with
      | some r => m.updPwr fun p => { p with regionFail := p.regionFail ++ [r] }
      | none => m.updHdf fun h => { h with loadsRefused := true }
    if m.inStep then m else m.boundaryRegions
  else m

def execRegionPllFailed (pll : Nat) : State → Host.Outcome State Fault Refusal := onManaged (M.regionPllFailed · pll)

/-- The port that the active time parent is, and when its state began. -/
def M.parentPort (m : M) : Nat × Nat :=
  let p := m.fld FTC_STATUS 19 16
  (p, (m.port p).since)

/-- Whether a source of the reference multiplexer runs (R580): REFCLK; the management port's recovered clock; the clock of any
locked lane of the active time parent (log entry 21). One found stopped comes back with a management frame, or as the port's
state changes. -/
def M.refPresent (m : M) (s : Nat) : Bool :=
  if s = 0 then m.die.pwr.refclk
  else if s = 1 then m.die.hdf.macEnabled && !m.die.pwr.mgtStopped
  else if s = 2 then
    let x := m.parentPort
    decide (2 ≤ m.fld (portReg x.1 RYS_PORT_STATUS) 3 0) && (List.range 9).any (fun l => !(m.port x.1).lost.contains l) &&
      m.die.pwr.parentStopped != some x
  else false

/-- Holdover begins: CLK_HOLDOVER_NS_CNT counts from here (R585). -/
def M.enterHoldover (m : M) : M :=
  if m.flag CLK_STATUS 2 then m
  else (m.setFld CLK_STATUS 2 2 1).updPwr fun p => { p with holdoverSince := m.die.ft }

/-- A source found stopped (R580, R584). -/
def M.sourceStopped (m : M) (s : Nat) : M :=
  m.updPwr fun p =>
    if s = 0 then { p with refclk := false }
    else if s = 1 then { p with mgtStopped := true }
    else { p with parentStopped := some m.parentPort }

/-- The selected source is lost (R584): stopped, or running off its frequency, which the command does not say (log entry 21). -/
def M.refLoss (m : M) : M :=
  let sel := m.die.pwr.activeSource
  let m := ((m.enterHoldover).raise CLK_STATUS 1).count CLK_REF_LOSS_CNT
  let m := if sel = 0 then m.setFld CLK_STATUS 4 4 0 else m
  let stopped := m.freeValue % 2 = 0
  let m := m.spend
  (if stopped then m.sourceStopped sel else m).logEvent 4

def execRefLoss : State → Host.Outcome State Fault Refusal := onManaged M.refLoss

/-- R586. -/
def execRefOk : State → Host.Outcome State Fault Refusal :=
  onManaged fun m => (m.setFld CLK_STATUS 4 4 1).updPwr fun p => { p with refclk := true }

/-- A write of SEL without FORCE (R581, R583): a source that does not run is refused and counted. -/
def M.refmuxSwitch (m : M) (sel : Nat) : M :=
  if m.refPresent sel then ((m.setFld CLK_REFMUX 1 0 sel).setFld CLK_REFMUX 63 63 1).enterHoldover
  else m.count CLK_REFMUX_REJECT_CNT

def execRefmuxSwitch (sel : Nat) : State → Host.Outcome State Fault Refusal := onManaged (M.refmuxSwitch · sel)

/-- Step 3 of R581, at an edge of the new source: never while the old source has stopped (R582). -/
def M.refmuxComplete (m : M) : M :=
  if m.flag CLK_REFMUX 63 && m.refPresent m.die.pwr.activeSource && m.refPresent (m.fld CLK_REFMUX 1 0) then
    ((m.setFld CLK_REFMUX 63 63 0).setFld CLK_STATUS 3 3 1).updPwr fun p =>
      { p with activeSource := m.fld CLK_REFMUX 1 0 }
  else m

def execRefmuxSwitchComplete : State → Host.Outcome State Fault Refusal := onManaged M.refmuxComplete

/-- A write of SEL with FORCE (R583): honored only in holdover, a normal switch otherwise. -/
def M.refmuxForce (m : M) (sel : Nat) : M :=
  if !m.refPresent sel then m.count CLK_REFMUX_REJECT_CNT
  else if m.flag CLK_STATUS 2 then
    let m := ((m.setFld CLK_REFMUX 1 0 sel).setFld CLK_REFMUX 63 63 0).setFld CLK_STATUS 3 3 1
    (m.count CLK_FORCED_SWITCH_CNT).updPwr fun p => { p with activeSource := sel }
  else m.refmuxSwitch sel

def execRefmuxForce (sel : Nat) : State → Host.Outcome State Fault Refusal := onManaged (M.refmuxForce · sel)

/-- Step 4 of R581: RELOCK and HOLDOVER clear, and the time in holdover is counted (R585). -/
def M.pllRelocked (m : M) : M :=
  if m.flag CLK_STATUS 3 then
    let m := m.countBy CLK_HOLDOVER_NS_CNT (m.die.ft - m.die.pwr.holdoverSince)
    (m.setFld CLK_STATUS 3 3 0).setFld CLK_STATUS 2 2 0
  else m

def execPllRelockComplete : State → Host.Outcome State Fault Refusal := onManaged M.pllRelocked

/-! ## Droop (R40, R243, R244, R590, R591) -/

/-- A region stretches one period by some eighths of it: counted (R40, R244). -/
def M.stretch (m : M) (region eighths : Nat) : M :=
  (m.count (CLK_REGION_STRETCH_CNT + 8 * region)).updPwr fun p => { p with stretched := mapSet p.stretched region eighths }

/-- The droop detector's threshold in mV: DROOP_MV held to its limits (R590). -/
def M.droopThreshold (m : M) : Nat := clamp 10 60 (m.fld CLK_CTRL 13 8)

/-- Eighths of a period by which a droop of some mV stretches it, 1 to 4 (R243). -/
def droopEighths (mv : Nat) : Nat := 1 + (Config.droopStretch mv).val

/-- A region's rail falls below its setpoint by some mV: beyond the threshold (R590) the droop detector fires and stretches a
period by 1/8 to 4/8; a compute region sends a lag token with the amount to the seven others (R243). -/
def M.droopFire (m : M) (region mv : Nat) : M :=
  if m.droopThreshold < mv then
    let eighths := droopEighths mv
    let m := m.stretch region eighths
    if region < 8 then
      m.updPwr fun p => { p with
        droopFirings := mapUpd p.droopFirings region 0 (· + 1)
        lagTokens := (List.range 8).foldl (fun t r => if r = region then t else mapUpd t r [] (· ++ [eighths])) p.lagTokens }
    else m
  else m

def execDroopFire (region mv : Nat) : State → Host.Outcome State Fault Refusal :=
  onLive (M.droopFire · region mv)

/-- A region mirrors the oldest stretch it owes, by the same amount (R244). -/
def M.lagMirror (m : M) (region : Nat) : M :=
  match mapGetD m.die.pwr.lagTokens region [] with
  | [] => m
  | amount :: rest =>
    (m.stretch region amount).updPwr fun p => { p with lagTokens := mapSet p.lagTokens region rest }

def execLagTokenMirror (region : Nat) : State → Host.Outcome State Fault Refusal := onLive (M.lagMirror · region)

/-- The end of a region's 1 ms window (R591). -/
def M.droopWindow (m : M) (region : Nat) : M :=
  let above := m.fld CLK_CTRL 23 16 < mapGetD m.die.pwr.droopFirings region 0
  let runs := if above then mapGetD m.die.pwr.droopRuns region 0 + 1 else 0
  let m := m.updPwr fun p => { p with
    droopFirings := mapSet p.droopFirings region 0, droopRuns := mapSet p.droopRuns region (runs % 10) }
  if runs = 10 then
    let m := if m.ceiling 3 < 5 then (m.setCeiling 3 (slower (m.ceiling 3))).count PWR_DROOP_STEPDOWN_CNT else m
    m.updPwr fun p => { p with lastDroopRun := m.die.ft }
  else if m.die.pwr.lastDroopRun + 1000000000 ≤ m.die.ft && decide (Config.topStep < m.ceiling 3) then
    (m.setCeiling 3 (faster (m.ceiling 3))).updPwr fun p => { p with lastDroopRun := m.die.ft }
  else m

/-! ## Thermal control (R592 to R594) -/

/-- A sensor's reading as published (Table 15.10). -/
def M.sensor (m : M) (n : Nat) : Int := signed (m.fld (HDF_SENS + 8 * n) 31 0) 32

/-- The hottest of the temperature sites that have a valid sample, in m°C; none before the first. -/
def M.hottest (m : M) : Option Int :=
  (List.range 256).foldl (fun b n =>
    if m.fld (HDF_SENS + 8 * n) 63 62 = 3 then b
    else some (match b with | none => m.sensor n | some v => max v (m.sensor n))) none

/-- The 1 ms comparison with PWR_THERM (R592, R593). -/
def M.thermalCheck (m : M) : M :=
  match m.hottest with
  | none => m
  | some t =>
    let throttle : Int := m.fld PWR_THERM 15 8 * 1000
    let hyst : Int := m.fld PWR_THERM 31 24 * 1000
    let emerg : Int := m.fld PWR_THERM 23 16 * 1000
    let m :=
      if throttle ≤ t then
        let drop := m.die.pwr.hotChecks % 10 == 0 && decide (m.ceiling 0 < 5)
        let m := if drop then (m.setCeiling 0 (slower (m.ceiling 0))).count PWR_THROTTLE_CNT else m
        m.updPwr fun p => { p with hotChecks := p.hotChecks + 1, coolChecks := 0 }
      else if t < throttle - hyst then
        let cool := m.die.pwr.coolChecks + 1
        let m := if cool = 100 then m.setCeiling 0 (faster (m.ceiling 0)) else m
        m.updPwr fun p => { p with hotChecks := 0, coolChecks := cool % 100 }
      else m.updPwr fun p => { p with hotChecks := 0, coolChecks := 0 }
    let starts := decide (emerg ≤ t) && !m.die.pwr.emergSeen && !m.flag PWR_STATUS 8
    let m := m.updPwr fun p => { p with emergSeen := decide (emerg ≤ t) }
    if starts then
      ((m.setFld PWR_STATUS 8 8 1).count PWR_THERM_HOLD_CNT).updPwr fun p => { p with holdStart := m.die.ft }
    else m

/-- The hottest site is below EMERG_C − HYST_C (R593). -/
def M.cooled (m : M) : Bool :=
  match m.hottest with
  | none => false
  | some t => decide (t < (m.fld PWR_THERM 23 16 * 1000 : Int) - m.fld PWR_THERM 31 24 * 1000)

/-- The hold ends: below EMERG_C − HYST_C at once, else when HOLD_MAX_US has passed (log entry 31). Withheld releases
follow R251, and the thermal ceiling becomes P5 (R593). -/
def M.emergencyHoldEnd (m : M) : M :=
  if m.flag PWR_STATUS 8 then
    let m := if m.cooled then m else m.reach (m.die.pwr.holdStart + m.fld PWR_THERM 63 48 * 1000)
    let m := m.countBy PWR_THERM_HOLD_NS_CNT (m.die.ft - m.die.pwr.holdStart)
    let m := (m.setFld PWR_STATUS 8 8 0).setCeiling 0 5
    { m with die.fences := m.die.fences.map fun f => { f with withheld := false } }
  else m

/-! ## The power cap (R596) -/

/-- The input power of the last 10 ms: the sum of the samples in µW, and their number; the last readings when no sample came. -/
def M.inputPower (m : M) : Int × Nat :=
  let p := m.die.pwr
  if p.capSamples = 0 then (m.sensor 320 * m.sensor 321, 1) else (p.capSum, p.capSamples)

/-- The average of the last 10 ms against CAP_W and MARGIN_W, with no rounding. -/
def M.powerCapCheck (m : M) : M :=
  let cap := m.fld PWR_CAP 31 16
  let (sum, samples) := m.inputPower
  let watts := fun (w : Int) => w * 1000000 * samples
  let m := m.updPwr fun p => { p with capSum := 0, capSamples := 0 }
  if cap = 0 then m
  else if watts cap < sum then
    let m := m.updPwr fun p => { p with capBelow := 0 }
    if m.ceiling 1 < 5 then (m.setCeiling 1 (slower (m.ceiling 1))).count PWR_CAP_STEP_CNT else m
  else if sum < watts ((cap : Int) - m.fld PWR_CAP 15 0) then
    let below := m.die.pwr.capBelow + 1
    let m := m.updPwr fun p => { p with capBelow := below % 10 }
    if below = 10 && decide (Config.topStep < m.ceiling 1) then
      (m.setCeiling 1 (faster (m.ceiling 1))).count PWR_CAP_STEP_CNT
    else m
  else m.updPwr fun p => { p with capBelow := 0 }

end Sys2Proof.Machine
end

