-- ==== Sys2Proof/Machine/Headframe.lean ====
section
/-! DEFINITION. Headframe (chapter 15): boot, updates, flash, the event log, sensors and the sideband. The Redfish
and attestation commands stand in `Attest.lean`. -/
namespace Sys2Proof.Machine

/-! ## Boot (R549, R552, R556, R558, R560, R561, R622, R626) -/

/-- A bundle that fits an image slot and whose signature checks (R555, Table 15.2). -/
def bundleChecks (b : Bundle) : Bool := b.signatureOk && decide (b.length ≤ imageSlotBytes)

/-- A slot verifies: it holds such a bundle (R555, R556). -/
def slotVerifies (s : FlashSlot) : Bool := (s.bundle.map bundleChecks).getD false

/-- A device that the ROM takes: of at least 128 MiB, named by its JESD216 table (R548). -/
def FlashSlot.accepted (s : FlashSlot) : Bool := s.jesd216 && decide (deviceBytes ≤ s.size)

/-- The configuration record (Table 15.3), at most 64 KiB long: MAGIC, VERSION, the fields, whose layout is not given, and the
factory's signature (R551). -/
def configRecordBytes : Nat := 65536
def configRecord : Bytes :=
  let body := toBytes 4 0x33544346 ++ toBytes 2 1 ++ Config.configBody.take (configRecordBytes - 70)
  body ++ toBytes 64 (Config.sm2Signature 2 body).toNat

/-- A digest as a number, its first byte the most significant. -/
def digestNat (d : Bytes) : Nat := numAt d.reverse 0 32

/-- The bytes of the field repairs applied, in order: their widths are the model's (log entry 129). -/
def repairBytes (l : List FieldRepair) : Bytes :=
  (l.map fun r => toBytes 4 r.kind ++ toBytes 4 r.site ++ toBytes 4 r.core ++ toBytes 4 r.memory ++ toBytes 4 r.bank ++
    toBytes 4 r.row).flatten

/-- What a boot measures (Table 15.4): the bundle's three stages, the configuration record and the field repairs. -/
def bootMeasurements (b : Bundle) (h : Headframe) : List Nat :=
  [b.headframe, b.hostBoot, b.foreman, digestNat (sm3 configRecord), digestNat (sm3 (repairBytes h.repairs))]

/-- The order in which the ROM tries the slots (R556): `true` is slot B. -/
def bootOrder (h : Headframe) : List Bool :=
  let st := fun (b : Bool) => slotHeader (hdfSlot b h)
  let pick := fun (p : BootHeader → Bool) => [false, true].filter fun b => p (st b)
  pick (fun x => x.state == .trial && x.tries != 0) ++ pick (fun x => x.state == .active) ++
    pick (fun x => x.state == .inactive)

/-- A TRIAL slot whose TRIES reached 0 is marked BAD and the revert counted (R558). -/
def M.dropSpentTrials (m : M) : M :=
  [false, true].foldl (fun m b =>
    let x := slotHeader (hdfSlot b m.die.hdf)
    if x.state == .trial && x.tries == 0 then
      (m.updHdf (hdfWriteHeader b { x with state := .bad })).count HDF_TRIAL_REVERT_CNT
    else m) m

/-- A stage reached in HDF_STATUS.STAGE: it only rises, and RECOVERY and the configuration halt stay (Table 15.10). -/
def M.stage (m : M) (n : Nat) : M :=
  let s := m.fld HDF_STATUS 11 8
  if s < n && s < 8 then m.setFld HDF_STATUS 11 8 n else m

/-- What starts once a slot has booted: the boot chain of Table 15.4 up to the Foreman and the management port, in one command
(log entry 106); a calibration failure and a bit-identity mismatch, both of this reset, are logged (R241, R488). -/
def M.boot (m : M) (slotB : Bool) (b : Bundle) : M :=
  let hdr := slotHeader (hdfSlot slotB m.die.hdf)
  let m := m.setFld HDF_STATUS 0 0 (bit slotB)
  let m := m.setFld HDF_STATUS 4 4 (bit (hdr.state == .trial))
  let m := m.setFld HDF_STATUS 23 16 (if hdr.state == .trial then hdr.tries else 0)
  let h := m.die.hdf
  let m := m.updHdf fun h => { h with
    bootCount := h.bootCount + 1, firmwareSince := some m.die.ft, macEnabled := true, writeProtect := true
    measurements := bootMeasurements b h
    thresholds := mapSet (mapSet h.thresholds 322 { warning := 38000, critical := 40000 }) 324
      { warning := 5000, critical := 4000 } }
  let m : M := { m.setReg HDF_BOOT_CNT (BitVec.ofNat 64 m.die.hdf.bootCount) with
    die.session := m.die.hdf.bootCount % 2 ^ 16 }
  let m := m.setFld HDF_STATUS 1 1 (bit h.pufOk)
  let m := if h.pufOk then m else m.logEvent 5
  if h.configA || h.configB then
    let m := (m.setFld HDF_STATUS 2 2 1).setFld HDF_STATUS 3 3 (bit (!h.configA))
    let m := (List.range 32).foldl (fun m s => m.setFld (seamReg s SEAM_STATUS) 39 38 1) m
    let m := (m.updHdf fun h => { h with hostReleased := true }).setFld HDF_STATUS 11 8 4
    let m := if m.flag SHAFT_CAL_STATUS 1 then m.logEvent 12 else m
    if m.fld FMN_DET_BIR 55 48 ≠ calClass ∨ m.fld FMN_DET_BIR 47 32 ≠ Config.tableRev.toNat then m.logEvent 13 else m
  else
    let m := (m.setFld HDF_STATUS 2 2 0).setFld HDF_STATUS 11 8 9
    (m.updHdf fun h => { h with hostReleased := false }).logEvent 6

/-- The slots tried in order; the first that verifies boots (R556). -/
def M.tryBoot (m : M) : List Bool → M
  | [] => m.setFld HDF_STATUS 11 8 8
  | s :: rest =>
    let hdr := slotHeader (hdfSlot s m.die.hdf)
    let hdr := if hdr.state == .trial then { hdr with tries := hdr.tries - 1 } else hdr
    let m := if hdr.state == .trial then m.updHdf (hdfWriteHeader s hdr) else m
    match (hdfSlot s m.die.hdf).bundle with
    | some b =>
      if bundleChecks b && decide (hdfMinSvn m.die.hdf ≤ hdr.svn) then m.boot s b
      else ((m.updHdf (hdfWriteHeader s { hdr with state := .bad })).count HDF_BOOT_FAIL_CNT).tryBoot rest
    | none => ((m.updHdf (hdfWriteHeader s { hdr with state := .bad })).count HDF_BOOT_FAIL_CNT).tryBoot rest

/-- R556: once the Headframe PLL is locked (R545) the ROM starts, reads the straps (R626) and picks its slot; with a device that
it refuses it stays in recovery (R548). -/
def M.romBoot (m : M) : M :=
  if mapGetD m.die.pwr.pllLocked headframePll false then
    let m := m.updHdf fun h => { h with romStarted := true, slotId := m.die.pwr.straps }
    if m.die.hdf.slotA.accepted && m.die.hdf.slotB.accepted then
      let m := m.dropSpentTrials
      m.tryBoot (bootOrder m.die.hdf)
    else m.setFld HDF_STATUS 11 8 8
  else m

def execRomBoot : State → Host.Outcome State Fault Refusal := onManaged M.romBoot

/-- In recovery the ROM writes an image into slot A only (R556). -/
def M.recoveryImage (m : M) (b : Bundle) : M :=
  if m.fld HDF_STATUS 11 8 = 8 ∧ m.die.hdf.slotA.accepted = true then
    let hdr := slotHeader m.die.hdf.slotA
    if bundleChecks b && decide (hdfMinSvn m.die.hdf ≤ b.svn) then
      m.updHdf fun h => hdfWriteHeader false { hdr with state := .trial, tries := 3, svn := b.svn, version := b.version }
        { h with slotA := { h.slotA with bundle := some b } }
    else m.updHdf fun h => hdfWriteHeader false { hdr with state := .empty } { h with slotA := { h.slotA with bundle := some b } }
  else m

def execRecoveryImageReceive (b : Bundle) : State → Host.Outcome State Fault Refusal := onManaged (M.recoveryImage · b)

/-! ## Updates (R557 to R559) -/

/-- The slot that runs, from HDF_STATUS.SLOT: `true` is slot B. -/
def M.runningSlot (m : M) : Bool := m.flag HDF_STATUS 0

/-- An update is being written, or a TRIAL slot is pending (R559). -/
def updatePending (h : Headframe) : Bool :=
  (slotHeader h.slotA).state == .trial || (slotHeader h.slotB).state == .trial ||
    (h.flashQueue ++ h.flashRunning.toList.map (·.1)).any fun r => match r with
      | .update _ _ => true
      | .header _ x => x.state == .trial
      | _ => false

/-- The firmware runs (R558, R568). -/
def M.firmwareRuns (m : M) : Bool := m.die.hdf.firmwareSince.isSome

/-- A slot's header as it will be once the header writes that wait have been served. -/
def plannedHeader (slotB : Bool) (h : Headframe) : BootHeader :=
  ((h.flashQueue.filterMap fun r => match r with
    | .header b x => if b = slotB then some x else none
    | _ => none).getLast?).getD (slotHeader (hdfSlot slotB h))

/-- Steps 1 and 2 of R557, by the firmware that runs: the other slot's header to EMPTY, then the bundle; refused and logged under
R559. -/
def M.firmwareUpdate (m : M) (b : Bundle) : M :=
  if !m.firmwareRuns then m
  else if updatePending m.die.hdf then m.logEvent 7
  else
    let slotB := !m.runningSlot
    (m.flash (.header slotB { plannedHeader slotB m.die.hdf with state := .empty })).flash (.update slotB b)

/-- Steps 3 and 4 of R557, once the bundle has been written and read back: the check, and the TRIAL header. -/
def M.updateWritten (m : M) (slotB : Bool) (b : Bundle) : M :=
  let m := m.updHdf fun h => hdfSetSlot slotB { hdfSlot slotB h with bundle := some b } h
  if bundleChecks b && decide (hdfMinSvn m.die.hdf ≤ b.svn) then
    m.flash (.header slotB { plannedHeader slotB m.die.hdf with state := .trial, tries := 3, svn := b.svn, version := b.version })
  else m.count HDF_UPDATE_FAIL_CNT

def execFirmwareUpdate (b : Bundle) : State → Host.Outcome State Fault Refusal := onManaged (M.firmwareUpdate · b)

/-- The Foreman has admitted links and has served a first model load (R558). -/
def M.served (m : M) : Bool := m.die.hdf.firstLoad && decide (6 ≤ m.fld HDF_STATUS 11 8)

/-- The running TRIAL slot becomes ACTIVE and the other INACTIVE (R558). -/
def M.promote (m : M) : M :=
  let s := m.runningSlot
  let x := plannedHeader s m.die.hdf
  if x.state == .trial then
    let m := m.flash (.header s { x with state := .active, tries := 0 })
    let m := m.flash (.header (!s) { plannedHeader (!s) m.die.hdf with state := .inactive })
    (m.setFld HDF_STATUS 4 4 0).setFld HDF_STATUS 23 16 0
  else m

/-- A first model load served once the links are admitted promotes (R558). -/
def M.promoteServed (m : M) : M := if m.firmwareRuns && m.served then m.promote else m

/-- R558: the promotion, once the module has served, else 300 s after the firmware started (log entry 31). -/
def M.trialPromote (m : M) : M :=
  match m.die.hdf.firmwareSince with
  | some t => (if m.served || (plannedHeader m.runningSlot m.die.hdf).state != .trial then m else m.reach (t + 300 * 10 ^ 9)).promote
  | none => m

def execTrialPromote : State → Host.Outcome State Fault Refusal := onManaged M.trialPromote

/-- R559: MIN_SVN rises to the SVN of the ACTIVE slot. -/
def M.commitSvn (m : M) : M :=
  match m.firmwareRuns, [false, true].find? fun b => (plannedHeader b m.die.hdf).state == .active with
  | true, some b =>
    let x := plannedHeader b m.die.hdf
    if max (plannedHeader false m.die.hdf).minSvn (plannedHeader true m.die.hdf).minSvn < x.svn then
      m.flash (.header b { x with minSvn := x.svn })
    else m
  | _, _ => m

def execCommitSvn : State → Host.Outcome State Fault Refusal := onManaged M.commitSvn

/-! ## The event log and flash (R550, R563 to R565) -/

def execLogAppend (severity source code : Nat) (data : Bytes) : State → Host.Outcome State Fault Refusal :=
  onManaged fun m => m.appendLog severity source code data

/-- Flash falls idle and serves the next request (R550). -/
def M.flashNext (m : M) : M :=
  match m.die.hdf.flashQueue with
  | [] => m.updHdf fun h => { h with flashRunning := none }
  | r :: rest => (m.updHdf fun h => { h with flashRunning := some (r, false), flashQueue := rest }).serveFlash r

/-- A write that flash has verified: an update goes on (R557). -/
def M.writeVerified (m : M) : FlashRequest → M
  | .update slotB b => m.updateWritten slotB b
  | _ => m

/-- A write whose verify read failed twice: a bundle leaves its slot EMPTY and is counted (R557). -/
def M.writeFailed (m : M) (r : FlashRequest) : M :=
  let m := (m.count HDF_FLASH_ERR_CNT).spoilWrite r
  match r with
  | .update _ _ => m.count HDF_UPDATE_FAIL_CNT
  | _ => m

/-- A program or erase ends; one that fails its verify read is retried once and then counted (R550). -/
def M.flashComplete (m : M) (verified : Bool) : M :=
  match m.die.hdf.flashRunning with
  | none => m
  | some (r, retried) =>
    if verified then (m.writeVerified r).flashNext
    else if retried then (m.writeFailed r).flashNext
    else m.updHdf fun h => { h with flashRunning := some (r, true) }

def execFlashOperationComplete (verified : Bool) : State → Host.Outcome State Fault Refusal :=
  onManaged (M.flashComplete · verified)

/-! ## Sensors (R566) -/

/-- STATUS of a reading against its thresholds: a critical threshold below the warning one is a lower limit. -/
def sensorStatus (t : Option Thresholds) (v : Int) : Nat :=
  match t with
  | none => 0
  | some t =>
    if t.critical < t.warning then (if v ≤ t.critical then 2 else if v ≤ t.warning then 1 else 0)
    else if t.critical ≤ v then 2 else if t.warning ≤ v then 1 else 0

/-- HDF_SENSn as stored: STATUS and VALUE; AGE_MS is computed on a read (`Control.lean`). -/
def sensorWord (status : Nat) (v : Int) : Word := BitVec.ofNat 64 (status * 2 ^ 62 + unsigned v 32)

/-- A sensor of Table 15.7. -/
def sensorExists (n : Nat) : Bool := decide (n < 325) || (decide (512 ≤ n) && decide (n < 800))

/-- A sample, or its absence: three periods without one mark the sensor FAILED. -/
def M.sensorSample (m : M) (n : Nat) (reading : Option Int) : M :=
  if !sensorExists n then m else
  let a := HDF_SENS + 8 * n
  match reading with
  | some v =>
    let old := m.fld a 63 62
    let st := sensorStatus (mapGet m.die.hdf.thresholds n) v
    let m := m.setReg a (sensorWord st v)
    let m := m.updHdf fun h => { h with
      sensorMissed := mapSet h.sensorMissed n 0, sensorFt := mapSet h.sensorFt n m.die.ft }
    let m := if n = 321 then m.updPwr fun p => { p with
      capSum := p.capSum + m.sensor 320 * m.sensor 321, capSamples := p.capSamples + 1 } else m
    if (if old = 3 then 0 else old) = st then m else m.logEvent 8
  | none =>
    let missed := mapGetD m.die.hdf.sensorMissed n 0 + 1
    let m := m.updHdf fun h => { h with sensorMissed := mapSet h.sensorMissed n missed }
    if missed = 3 then ((m.setFld a 63 62 3).count HDF_SENS_FAIL_CNT).logEvent 9 else m

def execSensorSample (n : Nat) (reading : Option Int) : State → Host.Outcome State Fault Refusal :=
  onManaged (M.sensorSample · n reading)

/-! ## Management port and sideband (R547, R568) -/

/-- A management frame: dropped and counted until the MAC is enabled (R547). -/
def M.mgtFrame (m : M) (f : Bytes) : M :=
  if m.die.hdf.macEnabled then
    (m.updHdf fun h => { h with mgtFrames := h.mgtFrames ++ [f] }).updPwr fun p => { p with mgtStopped := false }
  else m.count MGT_RX_EARLY_DROP_CNT

def execMgtFrameReceive (f : Bytes) : State → Host.Outcome State Fault Refusal := onManaged (M.mgtFrame · f)

def M.sidebandAnswer (m : M) (b : Option Bytes) : M := m.updHdf fun h => { h with sidebandReply := b }

/-- A request on the sideband: ignored before the ROM starts or at another address (R547, R568, R626). -/
def M.sideband (m : M) (address : Nat) (r : Sideband) : M :=
  if !m.die.hdf.romStarted || address != 0x30 + m.die.hdf.slotId then m.sidebandAnswer none
  else match r with
    | .mctpControl c => m.sidebandAnswer (some (toBytes 1 c ++ toBytes 1 0))
    | .pldmFirmwareUpdate b =>
      let m := if m.fld HDF_STATUS 11 8 = 8 then m.recoveryImage b else m.firmwareUpdate b
      m.sidebandAnswer (some (toBytes 1 0))
    | .pldmReadSensor n =>
      if m.firmwareRuns && decide (320 ≤ n) && decide (n ≤ 324) then
        m.sidebandAnswer (some (toBytes 4 (m.fld (HDF_SENS + 8 * n) 31 0)))
      else m.sidebandAnswer (some [])
    | .pldmHottestSite =>
      match m.firmwareRuns, m.hottest with
      | true, some t => m.sidebandAnswer (some (toBytes 4 (unsigned t 32)))
      | _, _ => m.sidebandAnswer (some [])

def execSidebandRequest (address : Nat) (r : Sideband) : State → Host.Outcome State Fault Refusal :=
  onManaged (M.sideband · address r)

end Sys2Proof.Machine
end

