-- ==== Sys2Proof/Machine/StateMemory.lean ====
section
/-! DEFINITION. State memory outside the steps: training and fill, refresh, patrol, the window, regions, channels and
the ledger's rebuild (R267, R268, R297, R298, R302, R303, R503, R638). -/
namespace Sys2Proof.Machine

/-! ## Training and fill -/

/-- TRAIN of a stack: 0 untrained, 1 training, 2 ready, 3 failed (Table 7.13). -/
def M.stackTrain (m : M) (s : Nat) : Nat := m.fld (seamReg s SEAM_STATUS) 39 38

/-- Bytes of a stack filled with zero, with valid check symbols (R638). -/
def M.zeroFill (m : M) (a n : Nat) : M :=
  { m.clearMem a n with die.bursts := m.die.bursts.filter fun b => decide (b.1 < a) || decide (a + n ≤ b.1) }

/-- Training ends; the controller of a trained stack fills the host carve-out first (R638). -/
def M.trainingDone (m : M) (s : Nat) (trained : Bool) : M :=
  if m.stackTrain s < 2 then
    let m := m.setFld (seamReg s SEAM_STATUS) 39 38 (if trained then 2 else 3)
    if trained then m.zeroFill (stackBase s) (stagingPage * pageSize) else m
  else m

/-- A page remap or withdrawal that flash recorded (R301, R638). -/
def M.applyPageRepair (m : M) (s : Nat) (r : FieldRepair) : M :=
  if r.kind = repairPage ∧ r.site = s then
    if r.core = 1 then
      m.updSeam s fun x => { x with
        remap := mapSet x.remap r.row (channelFrames * r.memory + r.bank), reserveNext := min x.reserveNext r.bank }
    else m.writeN (ledgerAddr s r.row) 8 (ledgerEntry lRETIRED 0 0 0 0)
  else m

/-- Every stack is filled. -/
def M.allFilled (m : M) : Bool := (List.range seamStacks).all fun s => m.flag (seamReg s SEAM_STATUS) 40

/-- The page numbers that a channel holds as itself or as a stand-in (R265, R302). -/
def M.ownNumbers (m : M) (s ch : Nat) : List Nat :=
  ((List.range 16).filter fun b => m.standIn s b == ch).flatMap fun b => (List.range channelFrames).map fun f => 16 * f + b

/-- A channel retired at manufacture: the reserve channel serves in its place, or its pages are withdrawn (R303, R551, Table
15.3). -/
def M.madeRetired (m : M) (s ch : Nat) : M :=
  match m.reserveChannel s with
  | some r =>
    if ch = r then m.setChannelState s ch 3
    else
      let m := m.updSeam s fun x => { x with standIn := mapSet x.standIn ch r }
      ((m.setChannelState s ch 3).setChannelState s r 0).setFld (seamReg s SEAM_CH_STATE) 38 34 ch
  | none =>
    ((m.ownNumbers s ch).foldl (fun m p => m.writeN (ledgerAddr s p) 8 (ledgerEntry lRETIRED 0 0 0 0)) m).setChannelState s ch 3

/-- A frame retired at manufacture: its page moves to a reserve frame, or is withdrawn (R301, R551). -/
def M.frameMade (m : M) (s k : Nat) : M :=
  let p := 16 * (k % channelFrames) + k / channelFrames
  let m := m.markFrame s (k / channelFrames) (k % channelFrames)
  if 16 ≤ k / channelFrames then m
  else match m.reserveChannel s, m.reserveFree s with
    | some ch, f + 1 => m.updSeam s fun x => { x with remap := mapSet x.remap p (channelFrames * ch + f), reserveNext := f }
    | _, _ => m.writeN (ledgerAddr s p) 8 (ledgerEntry lRETIRED 0 0 0 0)

/-- STACK_MAP of the configuration record applied to a stack, before the field repairs (R507, Table 15.3, log entry 125). -/
def M.applyStackMap (m : M) (s : Nat) : M :=
  let m := ((Config.stackMap s).1.filter (· < 17)).eraseDups.foldl (fun m ch => m.madeRetired s ch) m
  ((Config.stackMap s).2.filter (· < 17 * channelFrames)).eraseDups.foldl (fun m k => m.frameMade s k) m

/-- The fill of a trained stack: every frame zero, then what the configuration record and flash recorded (R638). -/
def M.fill (m : M) (s : Nat) : M :=
  if m.stackTrain s = 2 ∧ !m.flag (seamReg s SEAM_STATUS) 40 then
    let m := m.zeroFill (pageAddr s stagingPage) (0x2000000000 - stagingPage * pageSize)
    let m := (m.updSeam s fun x => { x with remap := [], reserveNext := channelFrames }).applyStackMap s
    let m := m.die.hdf.repairs.foldl (fun m r => m.applyPageRepair s r) m
    let m := (m.setFld (seamReg s SEAM_STATUS) 40 40 1).lowCheck s
    if m.allFilled then m.stage 5 else m
  else m

/-! ## Refresh and patrol -/

/-- Accesses that wait for a refreshing bank are counted (R297). -/
def execRefresh (s ch waiting : Nat) : State → Host.Outcome State Fault Refusal :=
  onLive fun m => m.countBy (seamReg s (SEAM_CH_REFRESH_DELAY_CNT + 64 * ch)) waiting

/-- The page that lives in a frame; none for a frame not in use. -/
def M.framePage (m : M) (s ch f : Nat) : Option Nat :=
  match (m.seam s).remap.find? fun r => r.2 == channelFrames * ch + f with
  | some r => some r.1
  | none =>
    ((List.range 16).find? fun b => m.standIn s b == ch && (mapGet (m.seam s).remap (16 * f + b)).isNone).map (16 * f + ·)

/-- Bursts of a frame, and of the 17 channels of a stack. -/
def frameBursts : Nat := 1024
def patrolBursts : Nat := 17 * channelFrames * frameBursts

/-- A mask that more than one symbol of a burst shows, free but for that. -/
def uncorrectableMask (v : Nat) : Nat :=
  let mask := v % (2 ^ 512 - 1) + 1
  if oneSymbol mask then if mask % 2 ^ 16 = 0 then mask + 1 else mask + 2 ^ 16 else mask

/-- What patrol finds in one burst of a frame: a correction, or an uncorrectable burst whose stored bits are free. -/
def M.patrolFind (m : M) (s ch f b : Nat) (found : Burst) : M :=
  let page := m.framePage s ch f
  match found with
  | .clean => m
  | .correctable => m.frameCorrected s ch f (match page with | some p => p * 32 + s | none => noPage)
  | .uncorrectable =>
    match page with
    | some p =>
      let a := pageAddr s p + 64 * b
      let mask := uncorrectableMask m.freeValue
      let m : M := { m.spend with die.bursts := mapSet m.die.bursts a mask }
      m.burstError a 6
    | none =>
      ((m.frameError s ch f 0 noPage 6).errorClass 15 2 s noPage).report 15 2 s 16 0 0 noPage

/-- Patrol reads its next burst; a whole pass is counted (R298). -/
def M.patrol (m : M) (s : Nat) (found : Burst) : M :=
  if m.fld (seamReg s SEAM_CTRL) 63 32 = 0 then m
  else
    let k := (m.seam s).patrol
    let i := k / frameBursts
    let m := m.patrolFind s (i % 17) (i / 17) (k % frameBursts) found
    let next := (k + 1) % patrolBursts
    let m := m.updSeam s fun x => { x with patrol := next }
    if next = 0 then m.count (seamReg s SEAM_PATROL_PASS_CNT) else m

def execPatrolScrubRead (s : Nat) (found : Burst) : State → Host.Outcome State Fault Refusal :=
  onLive (M.patrol · s found)

/-! ## The window and the regions -/

/-- An access through the state-memory window (R267). -/
def M.windowAccess (m : M) (s off width : Nat) (write : Bool) (value : Word) : M :=
  if !accessOk width off then m.badAccess
  else if usablePages * pageSize ≤ off then (m.count (seamReg s SEAM_VIOL_CNT)).zeroRead write
  else
    let a := stackBase s + off
    if write then (m.stateWriteN a width value.toNat 2).lowCheck s
    else
      let (bs, m) := m.stateRead a width 2
      { m with die.readData := ofBytes bs }

def execStateWindowAccess (_req : Requester) (s off width : Nat) (write : Bool) (value : Word) :
    State → Host.Outcome State Fault Refusal := onLive (M.windowAccess · s off width write value)

/-- A write of SEAM_REGION: locked while a model is loaded, and ignored whole outside its limits (R268). -/
def M.regionWrite (m : M) (s : Nat) (value : Word) : M :=
  let t := Machine.fld value 15 0
  let j := Machine.fld value 31 16
  if !m.die.fmn.models.isEmpty then m.count HDF_LOCKED_WRITE_CNT
  else if 256 ≤ t ∧ t ≤ 16384 ∧ 6 ≤ j ∧ j + 145 ≤ t then
    ((m.setFld (seamReg s SEAM_REGION) 15 0 t).setFld (seamReg s SEAM_REGION) 31 16 j).lowCheck s
  else m

def execSeamRegionWrite (s : Nat) (value : Word) : State → Host.Outcome State Fault Refusal :=
  onLive (M.regionWrite · s value)

/-! ## Channels (R302, R303) -/

/-- Pages that live in a channel, by frame: those remapped to it, and those it holds as itself or as a stand-in. -/
def M.channelPages (m : M) (s ch : Nat) : List (Nat × Nat) :=
  ((m.seam s).remap.filter fun r => r.2 / channelFrames == ch).map (fun r => (r.1, r.2 % channelFrames)) ++
    ((List.range 16).filter fun b => m.standIn s b == ch).flatMap fun b =>
      ((List.range channelFrames).filter fun f => (mapGet (m.seam s).remap (16 * f + b)).isNone).map fun f => (16 * f + b, f)

/-- The leaf entries of a request's layer that name page `old` name page `new`. -/
def M.setLeafPage (m : M) (s root layer old new : Nat) : M :=
  (m.chain s root layer).foldl (fun m b =>
    ((m.blockLeaves s b).zipIdx).foldl (fun m (e, k) =>
      if e.page = old * 32 + s then m.stateWriteN (m.blockAddr s b + 8 + 4 * k) 4 (new * 32 + s) 7 else m) m) m

/-- A page that a running park, resume or arriving shipment has reserved, under its new number. -/
def M.renamePage (m : M) (s p q : Nat) : M :=
  let new := fun (stack x : Nat) => if stack = s ∧ x = p then q else x
  { m with
    die.parkJobs := m.die.parkJobs.map fun j => (j.1, { j.2 with
      layers := j.2.layers.map fun l => { l with pages := l.pages.map (new l.stack) } })
    die.fmn.shipsIn := m.die.fmn.shipsIn.map fun h => (h.1, { h.2 with
      pages := h.2.pages.map fun g => (g.1, g.2.1, g.2.2.1, new g.1 g.2.2.2) }) }

/-- A LIVE or PARKED page moved to a newly allocated page; it stays where the pool has none. -/
def M.movePage (m : M) (s p : Nat) : M :=
  let e := m.ledger s p
  let slot := ledgerSlot e
  let (q, m) := m.allocPage s (ledgerState e) slot (ledgerLayer e) (ledgerIndex e)
  match q with
  | none => m
  | some q =>
    let m := m.stateWriteN (ledgerAddr s q) 8 e 7
    let (bs, m) := m.stateRead (pageAddr s p) pageSize 7
    let m := m.stateWrite (pageAddr s q) bs 7
    let m := match m.rootOf slot with
      | some root => (m.noteChain s root (ledgerLayer e) 7).setLeafPage s root (ledgerLayer e) p q
      | none => m
    (m.renamePage s p q).withdrawPage s p

/-- A page of a retiring channel at or above the limit: moved when it holds data, withdrawn when FREE; it keeps its frame until
its data has been read (R300). -/
def M.evictPage (m : M) (s p : Nat) : M :=
  let st := ledgerState (m.ledger s p)
  let m :=
    if st = lLIVE ∨ st = lPARKED then m.movePage s p
    else if st = lRETIRED ∨ p < m.poolPage s then m
    else m.withdrawPage s p
  m.updSeam s fun x => { x with remap := mapDel x.remap p }

/-- A frame copied: a burst with an error in it is met, and stored afresh, corrected or as it is (R299, R300, R302). -/
def M.copyPage (m : M) (s p : Nat) : M :=
  (m.burstsIn (pageAddr s p) pageSize).foldl (fun m b => (m.noteBurst 7 b).freshBurst b) m

/-- SERVES: the channel that channel 16 stands in for (Table 7.15). -/
def M.setServes (m : M) (s : Nat) : M :=
  m.setFld (seamReg s SEAM_CH_STATE) 38 34 (((List.range 16).find? fun b => m.standIn s b == 16).getD 0x1F)

/-- The copy ends: the retiring channel is fenced, and the reserve channel `r` serves in its place. -/
def M.replaceChannel (m : M) (s ch r : Nat) : M :=
  let limit := (m.seam s).reserveNext
  let pages := m.channelPages s ch
  let m := (pages.filter fun p => decide (p.2 < limit)).foldl (fun m p => m.copyPage s p.1) m
  let m := m.updSeam s fun x => { x with
    remap := x.remap.map fun e =>
      if e.2 / channelFrames = ch ∧ e.2 % channelFrames < limit then (e.1, channelFrames * r + e.2 % channelFrames) else e }
  let m := (pages.filter fun p => decide (limit ≤ p.2)).foldl (fun m p => m.evictPage s p.1) m
  let bases := (List.range 16).filter fun b => m.standIn s b == ch
  let m := bases.foldl (fun m b => m.updSeam s fun x => { x with standIn := mapSet x.standIn b r }) m
  (((m.setChannelState s ch 3).setChannelState s r 0).setServes s).lowCheck s

/-- The page numbers of a channel: those it holds as itself or as a stand-in, moved to a reserve frame or not, and those
moved to its frames (R301, R303). -/
def M.channelNumbers (m : M) (s ch : Nat) : List Nat :=
  ((m.seam s).remap.filter fun r => r.2 / channelFrames == ch && m.standIn s (r.1 % 16) != ch).map (·.1) ++ m.ownNumbers s ch

/-- A failed channel with no reserve: all its page numbers are withdrawn, but for those that are already (R303). -/
def M.withdrawChannel (m : M) (s ch : Nat) : M :=
  let ps := (m.channelNumbers s ch).filter fun p => ledgerState (m.ledger s p) != lRETIRED
  (ps.foldl (fun m p => m.withdrawPage s p) m).setChannelState s ch 3

/-- A channel transition runs (SEAM_CH_CMD.BUSY). -/
def M.channelBusy (m : M) (s : Nat) : Bool := (m.seam s).copying.isSome || (m.seam s).returning.isSome

def M.showBusy (m : M) (s : Nat) : M := m.setFld (seamReg s SEAM_CH_CMD) 63 63 (bit (m.channelBusy s))

/-- A number that no channel has: withdrawn pages whose channel has come back as the reserve live in none. -/
abbrev noChannel : Nat := 17

/-- The page numbers that a channel still held leave it, and its frames are free (R303). -/
def M.freeFrames (m : M) (s ch : Nat) : M :=
  let kept := m.die.bursts.filter fun b => addrStack b.1 != s || (m.pageFrame s (addrPage b.1)).1 != ch
  let m : M := { m with die.bursts := kept }
  let bases := (List.range 16).filter fun b => m.standIn s b == ch
  m.updSeam s fun x => { x with
    standIn := bases.foldl (fun l b => mapSet l b noChannel) x.standIn
    remap := x.remap.map fun r => if r.2 / channelFrames = ch then (r.1, channelFrames * noChannel + r.2 % channelFrames) else r
    marked := x.marked.filter fun k => k / channelFrames != ch }

/-- A retired channel comes back as the reserve, with all its frames free (R303). -/
def M.returnNow (m : M) (s : Nat) : M :=
  match (m.seam s).returning with
  | none => m
  | some ch =>
    (((m.freeFrames s ch).setChannelState s ch 1).updSeam s fun x => { x with returning := none, reserveNext := channelFrames }).setServes s

/-- The channel's state allows the operation: a channel in use retires, a retired one returns while there is no reserve (R302,
R303). -/
def M.channelTakes (m : M) (s op ch : Nat) : Bool :=
  if op = 1 then m.channelState s ch == 0 else op == 2 && m.channelState s ch == 3 && (m.reserveChannel s).isNone

/-- A channel operation from a state without a transition. -/
def M.channelStart (m : M) (s op ch : Nat) : M :=
  if !m.channelTakes s op ch then m
  else if op = 1 then
    match m.reserveChannel s with
    | some _ => (m.setChannelState s ch 2).updSeam s fun x => { x with copying := some ch }
    | none => m.withdrawChannel s ch
  else
    let m := m.updSeam s fun x => { x with returning := some ch }
    if m.inStep then m else m.returnNow s

/-- A write of SEAM_CH_CMD; one made while a transition runs is latched, the last one winning (R43). -/
def M.channelCommand (m : M) (s op ch : Nat) : M :=
  let a := seamReg s SEAM_CH_CMD
  let m := (m.setFld a 9 8 op).setFld a 4 0 ch
  if m.channelBusy s then
    (m.latchBehind (16 * s + 6) (m.seam s).chLatched.isSome).updSeam s fun x => { x with chLatched := some (op, ch) }
  else (m.channelStart s op ch).showBusy s

/-- The transition ends, and the latched request runs (R515). -/
def M.channelEnd (m : M) (s : Nat) : M :=
  let m := m.unitDone (16 * s + 6) ccOK
  match (m.seam s).chLatched with
  | none => m.showBusy s
  | some (op, ch) =>
    let m := (m.updSeam s fun x => { x with chLatched := none }).unitTurn (16 * s + 6)
    let code := if m.channelTakes s op ch || m.channelState s ch == (if op = 1 then 3 else 1) then ccOK else ccSTATE
    let m := (m.channelStart s op ch).showBusy s
    if m.channelBusy s then m else m.unitDone (16 * s + 6) code

def execChannelRetire (s ch : Nat) : State → Host.Outcome State Fault Refusal := onLive (M.channelCommand · s 1 ch)

def execChannelReturn (s ch : Nat) : State → Host.Outcome State Fault Refusal := onLive (M.channelCommand · s 2 ch)

def M.channelRetired (m : M) (s : Nat) : M :=
  match (m.seam s).copying, m.reserveChannel s with
  | some ch, some r =>
    ((m.replaceChannel s ch r).updSeam s fun x => { x with copying := none }).channelEnd s
  | _, _ => m

def execChannelRetireComplete (s : Nat) : State → Host.Outcome State Fault Refusal := onLive (M.channelRetired · s)

/-- What a step boundary does to the stacks. -/
def M.seamBoundary (m : M) : M :=
  m.die.seams.foldl (fun m p => if (m.seam p.1).returning.isSome then (m.returnNow p.1).channelEnd p.1 else m) m

/-! ## The ledger's rebuild (R503) -/

/-- A page withdrawn at manufacture: STACK_MAP retired its frame or its channel, and no other frame holds it (R503, R551). -/
def M.madeGone (m : M) (s p : Nat) : Bool :=
  (mapGet (m.seam s).remap p).isNone &&
    ((Config.stackMap s).2.contains (channelFrames * (p % 16) + p / 16) ||
      ((Config.stackMap s).1.contains (m.standIn s (p % 16)) || m.standIn s (p % 16) == noChannel))

/-- The errors of the walks that a rebuild makes over the slots on the stack (R300). -/
def M.noteWalks (m : M) (s : Nat) : M :=
  (((m.seam s).blocks.map (·.2)).eraseDups).foldl (fun m slot =>
    match m.rootOf slot with
    | some root => (List.range (geometryOf (m.rootWord s (32 * root))).layers).foldl (fun m l => m.noteChain s root l 1) m
    | none => m) m

/-- The entry that a page's ledger should hold, found in the leaf chains of the slots on the stack, in running parks and
resumes, and in arriving shipments; its STEP_TAG is free. -/
def M.findOwner (m : M) (s p tag : Nat) : Nat :=
  let slots := ((m.seam s).blocks.map (·.2)).eraseDups
  let entry := fun (slot : Nat) => (m.rootOf slot).bind fun root =>
    let g := geometryOf (m.rootWord s (32 * root))
    (List.range g.layers).findSome? fun l =>
      ((m.leaves s root l).zipIdx.find? fun x => x.1.page == p * 32 + s).map fun x =>
        if (m.rootWord s (32 * root)).testBit 24 then ledgerEntry lPARKED slot l x.2 tag
        else ledgerEntry lLIVE slot l (stackClass slot l s + 32 * x.2) tag
  match slots.findSome? entry with
  | some e => e
  | none =>
    let job := m.die.parkJobs.findSome? fun j => j.2.layers.findSome? fun x =>
      (x.pages.zipIdx.find? fun q => x.stack == s && q.1 == p).map fun q =>
        if j.2.resume then ledgerEntry lLIVE j.1 x.layer (x.indices.getD q.2 0) tag
        else ledgerEntry lPARKED j.1 x.layer q.2 tag
    let ship := m.die.fmn.shipsIn.findSome? fun h =>
      (h.2.pages.find? fun q => q.1 == s && q.2.2.2 == p).map fun q => ledgerEntry lLIVE h.1 q.2.1 q.2.2.1 tag
    let gone := (m.die.hdf.repairs.any fun r => r.kind == repairPage && r.site == s && r.core == 0 && r.row == p) || m.madeGone s p
    match job with
    | some e => e
    | none => match ship with
      | some e => e
      | none => if gone then ledgerEntry lRETIRED 0 0 0 0 else 0

/-- A page that stays in use moves, as it stands, from a marked frame to a reserve frame (R301, R503); without one it stays. -/
def M.reframe (m : M) (s p : Nat) : M :=
  let (ch, f) := m.pageFrame s p
  match (m.seam s).marked.contains (channelFrames * ch + f), m.reserveChannel s, m.reserveFree s with
  | true, some r, n + 1 =>
    let m := m.updSeam s fun x => { x with remap := mapSet x.remap p (channelFrames * r + n), reserveNext := n }
    (m.flash (.fieldRepair { kind := repairPage, site := s, core := 1, memory := r, bank := n, row := p })).count
      (seamReg s SEAM_PAGE_REMAP_CNT)
  | _, _, _ => m

/-- The 8 entries of an uncorrectable ledger burst are found again and written, and their pages may be allocated. -/
def M.rebuildLedger (m : M) (s p : Nat) : M :=
  let g := p / 8
  if (m.seam s).noAlloc.contains g then
    let tag := m.freeValue % 2 ^ 15
    let m := m.spend
    let bs := (List.range 8).flatMap fun i => toBytes 8 (m.findOwner s (8 * g + i) tag)
    let m := (m.noteWalks s).stateWrite (ledgerAddr s (8 * g)) bs 1
    (((m.updSeam s fun x => { x with noAlloc := x.noAlloc.filter (· != g) }).count FMN_LEDGER_REBUILD_CNT).reframe s (addrPage (ledgerAddr s (8 * g)))).lowCheck s
  else m

def execLedgerRebuild (s p : Nat) : State → Host.Outcome State Fault Refusal := onLive (M.rebuildLedger · s p)

end Sys2Proof.Machine
end

