-- ==== Sys2Proof/Machine/Weighbridge.lean ====
section
/-! DEFINITION. The Weighbridge (chapter 17): energy, token reports, sealed records and its sideband endpoint.
Its commands read and write nothing but its own state. -/
namespace Sys2Proof.Machine

/-- The 64-byte public key, x then y. -/
def wbPublicKey : Bytes := (List.range 64).map Config.wbPublicKeyByte

/-- KEY_FP: SM3 of the public key (Table 17.4). -/
def wbKeyFp : Bytes := sm3 wbPublicKey

/-- WB_IDENT (Table 17.7). -/
def wbIdent : Nat := Config.wbVendor.toNat * 2 ^ 32 + Config.wbRomVersion.toNat

/-- 60 s in ns: the spacing of periodic boundaries (R611). -/
def periodicNs : Nat := 60000000000

/-- The first whole multiple of 60 s above a time (R611, R613). -/
def nextBoundary (t : Nat) : Nat := (t / periodicNs + 1) * periodicNs

/-- The size of the record ring (R615). -/
def wbRingSize : Nat := 4194304

/-- A length rounded up to the ring's 256-byte boundary (R615). -/
def wbAlign (n : Nat) : Nat := ceilDiv n 256 * 256

/-- A record opened at a fabric time (R611). -/
def openRecord (isStart : Bool) (t : Nat) : OpenRecord :=
  { isStart, timeJump := false, range := false, reportGap := false, refGap := false, dieRestart := false,
    ftStart := t, firstStep := 0, lastStep := 0, energy := 0, pMax := 0, reports := 0, missed := 0, tenants := [] }

/-- RFLAGS of Table 17.4; FT_UNLOCKED is judged at the seal (R613). -/
def recordFlags (r : OpenRecord) (locked : Bool) : Nat :=
  bit (!locked) + 2 * bit r.timeJump + 4 * bit r.range + 8 * bit r.reportGap + 16 * bit r.refGap +
    32 * bit r.dieRestart

/-- KIND of a record as it seals: a record opened at start-up keeps START (R611). -/
def recordKindCode (r : OpenRecord) (sealing : Nat) : Nat := if r.isStart then 0 else sealing

/-- The tenants a record lists: only those with a nonzero total (Table 17.4). -/
def recordTenants (r : OpenRecord) : List TenantTotal := r.tenants.filter fun t => t.prefill + t.output != 0

/-- Bytes 0 to 159 + 16N of a record (Table 17.4). -/
def recordBody (w : Weighbridge) (r : OpenRecord) (kind ftEnd : Nat) : Bytes :=
  toBytes 4 0x33545742 ++ toBytes 2 1 ++ toBytes 1 (recordKindCode r kind) ++
  toBytes 1 (recordFlags r w.ftLocked) ++ toBytes 8 (w.nvSeq + 1) ++ toBytes 8 r.ftStart ++ toBytes 8 ftEnd ++
  toBytes 8 r.firstStep ++ toBytes 8 r.lastStep ++ toBytes 8 r.energy ++ toBytes 8 w.energyTotal ++
  toBytes 4 r.pMax ++ toBytes 4 r.reports ++ toBytes 4 r.missed ++ toBytes 4 (recordTenants r).length ++
  toBytes 4 Config.wbRomVersion.toNat ++ zeros 4 ++ wbKeyFp ++ zeros 8 ++
  (recordTenants r).flatMap (fun t => toBytes 2 t.tenant ++ toBytes 6 t.prefill ++ toBytes 6 t.output ++ zeros 2) ++
  w.nvChain

/-- A whole record: its body, its CHAIN and its SIGNATURE (Table 17.4). -/
def recordBytes (body : Bytes) : Bytes :=
  let signedPart := body ++ sm3 body
  signedPart ++ toBytes 64 (Config.sm2Signature 1 signedPart).toNat

/-- The ring with the oldest records dropped until `need` bytes are free, and how many were dropped (R615). -/
def wbMakeRoom (need : Nat) : List SealedRecord → List SealedRecord × Nat
  | [] => ([], 0)
  | r :: rs =>
    if sumBy (r :: rs) (fun x => wbAlign x.bytes.length) + need ≤ wbRingSize then (r :: rs, 0)
    else let (l, n) := wbMakeRoom need rs; (l, n + 1)

/-- The seal of the open record and the opening of the next (R611, R614, R615): nothing is sealed while the
Weighbridge does not measure (R603) or its memory failed its check (R618). -/
def wbSeal (kind ftEnd ftNext : Nat) (jump : Bool) (w : Weighbridge) : Weighbridge :=
  match w.openRec with
  | none => w
  | some r =>
    if w.run && w.nvmOk then
      let r := { r with timeJump := r.timeJump || jump }
      let body := recordBody w r kind ftEnd
      let bytes := recordBytes body
      let (kept, dropped) := wbMakeRoom (wbAlign bytes.length) w.ring
      let start := wbAlign w.ringTail % wbRingSize
      let ring := kept ++ [{ seq := w.nvSeq + 1, offset := start, bytes }]
      { w with
        nvSeq := w.nvSeq + 1, nvChain := sm3 body, nvEnergy := w.energyTotal, ring,
        ringHead := (ring.head?.map (·.offset)).getD 0, ringTail := (start + bytes.length) % wbRingSize,
        ringOverwriteCnt := satNat w.ringOverwriteCnt dropped,
        openRec := some (openRecord false ftNext), lastSeal := some ftNext }
    else w

/-- Power-up of the Weighbridge: counters clear, the cumulative register and the chain come from its non-volatile
memory (R601, R602, R614). -/
def wbPowerUp (w : Weighbridge) : Weighbridge :=
  { w with
    powered := true, run := false, energyTotal := w.nvEnergy, remainder := 0, windowSum := 0, windowCount := 0,
    pNow := 0, rangeNow := false, ft := 0, ftLocked := false, nextPeriodic := nextBoundary 0, lastSeal := none,
    openRec := none, lastFrame := none, crcErrCnt := 0, dupCnt := 0, gapCnt := 0, demandIgnoredCnt := 0,
    ringOverwriteCnt := 0, sessionCnt := 0, reply := .silent }

/-- Loss of 50 V: everything stops and the open record is lost, but never a sealed one (R602, R614). -/
def wbPowerDown (w : Weighbridge) : Weighbridge :=
  { w with powered := false, run := false, openRec := none, reply := .silent }

/-- The PLL first locks: measuring starts and a START record opens (R602, R611). -/
def wbStart (w : Weighbridge) : Weighbridge :=
  if w.powered && !w.run && w.openRec.isNone then
    { w with run := true, openRec := some (openRecord true w.ft), nextPeriodic := nextBoundary w.ft }
  else w

/-- REFCLK or PLL lock lost: sampling and sealing stop, and the open record carries REF_GAP (R603). -/
def wbPllLockLoss (w : Weighbridge) : Weighbridge :=
  if w.run then { w with run := false, openRec := w.openRec.map fun r => { r with refGap := true } } else w

/-- The PLL locks again: sampling resumes in the still-open record (R603). -/
def wbPllRelock (w : Weighbridge) : Weighbridge :=
  if w.powered && !w.run && w.openRec.isSome then { w with run := true } else w

/-- Samples in one 100 ms average, at 500,000 a second (R604). -/
def windowSamples : Nat := 50000

/-- The end of a 100 ms average: P_NOW, RANGE and P_MAX (R605, Tables 17.2, 17.4). -/
def wbWindowEnd (w : Weighbridge) : Weighbridge :=
  let avg := w.windowSum / windowSamples
  let out := decide (w.windowSum < 500000000 * windowSamples) || decide (4000000000 * windowSamples < w.windowSum)
  let p := avg / 100000
  { w with
    windowSum := 0, windowCount := 0, pNow := p, rangeNow := out
    openRec := w.openRec.map fun r => { r with pMax := max r.pMax p, range := r.range || out } }

/-- The input below which the Weighbridge does not measure, in mV (R602). -/
def wbMinInput : Nat := 40000

/-- One sample: mV × mA is in microwatts, over 2 µs, so it adds 2 × mV × mA units of 10⁻⁹ mJ (R604); one of an input below
40.0 V stops the Weighbridge (R602). -/
def wbSample (mv ma : Nat) (w : Weighbridge) : Weighbridge :=
  if w.run && decide (mv < wbMinInput) then wbPowerDown w
  else if w.run then
    let acc := w.remainder + 2 * (mv * ma)
    let mj := acc / 1000000000
    let w := { w with
      remainder := acc % 1000000000, energyTotal := (w.energyTotal + mj) % 2 ^ 64
      windowSum := w.windowSum + mv * ma, windowCount := w.windowCount + 1
      openRec := w.openRec.map fun r => { r with energy := r.energy + mj } }
    if w.windowCount = windowSamples then wbWindowEnd w else w
  else w

/-- One tenant's tokens added, keeping the list ascending (Table 17.4). -/
def addTenant (t p o : Nat) : List TenantTotal → List TenantTotal
  | [] => [⟨t, p, o⟩]
  | x :: xs =>
    if t < x.tenant then ⟨t, p, o⟩ :: x :: xs
    else if t = x.tenant then ⟨t, x.prefill + p, x.output + o⟩ :: xs
    else x :: addTenant t p o xs

/-- The tenant entries of a report frame (Table 17.3). -/
def frameEntries (f : Bytes) (n : Nat) : List (Nat × Nat × Nat) :=
  (List.range n).map fun t => (numAt f (28 + 14 * t) 2 % 4096, numAt f (30 + 14 * t) 6, numAt f (36 + 14 * t) 6)

/-- Whether a report frame's length fits its N and its CRC checks (R607, Table 17.3). -/
def frameOk (f : Bytes) : Bool :=
  let n := numAt f 24 2
  f.length = 32 + 14 * n && numAt f (28 + 14 * n) 4 = crc32c (f.take (28 + 14 * n))

/-- A frame taken into the open record, with `missing` reports before it (R607 to R609). -/
def takeFrame (f : Bytes) (missing : Nat) (restart : Bool) (r : OpenRecord) : OpenRecord :=
  { r with
    reports := r.reports + 1, missed := r.missed + missing, reportGap := r.reportGap || missing != 0
    dieRestart := r.dieRestart || restart
    firstStep := if r.reports = 0 then numAt f 8 8 else r.firstStep, lastStep := numAt f 8 8
    tenants := (frameEntries f (numAt f 24 2)).foldl (fun ts e => addTenant e.1 e.2.1 e.2.2 ts) r.tenants }

/-- A frame taken: the session and number it leaves, and the open record with it (R607 to R609). -/
def wbTake (f : Bytes) (missing : Nat) (restart : Bool) (w : Weighbridge) : Weighbridge :=
  { w with
    lastFrame := some (numAt f 26 2, numAt f 0 8), gapCnt := satNat w.gapCnt missing
    openRec := w.openRec.map (takeFrame f missing restart) }

/-- One copy of a report frame (R607 to R609). -/
def wbReport (f : Bytes) (w : Weighbridge) : Weighbridge :=
  if !w.powered then w
  else if !frameOk f then { w with crcErrCnt := satNat w.crcErrCnt 1 }
  else
    match w.lastFrame with
    | none => wbTake f (numAt f 0 8 - 1) false w
    | some (session, rseq) =>
      if session ≠ numAt f 26 2 then
        wbTake f (numAt f 0 8 - 1) true { w with sessionCnt := satNat w.sessionCnt 1 }
      else if numAt f 0 8 ≤ rseq then { w with dupCnt := satNat w.dupCnt 1 }
      else wbTake f (numAt f 0 8 - rseq - 1) false w

/-- Fabric time reaches the next multiple of 60 s: a PERIODIC seal (R611). -/
def wbPeriodic (w : Weighbridge) : Weighbridge :=
  if w.run then
    let b := w.nextPeriodic
    wbSeal 1 b b false { w with ft := max w.ft b, nextPeriodic := nextBoundary b }
  else w

/-- A periodic boundary falls in this cycle: it is due, or its record has just been sealed (R612). -/
def atBoundary (w : Weighbridge) : Bool :=
  decide (w.nextPeriodic ≤ w.ft) || (w.lastSeal == some w.ft && w.ft % periodicNs == 0)

/-- A demand pulse: taken when 1 s has passed since the last seal. In the cycle of a periodic boundary the one record sealed is
the boundary's (R612). -/
def wbDemand (w : Weighbridge) : Weighbridge :=
  if atBoundary w then w
  else if w.openRec.isSome then
    match w.lastSeal with
    | none => wbSeal 2 w.ft w.ft false w
    | some t =>
      if t + 1000000000 ≤ w.ft then wbSeal 2 w.ft w.ft false w
      else { w with demandIgnoredCnt := satNat w.demandIgnoredCnt 1 }
  else w

/-- A move of fabric time that R613 calls a jump: backward, or forward by more than 120 s. -/
def isJump (old new : Nat) : Bool := new < old || old + 120000000000 < new

/-- A time jump seals the open record at the last time before the move (R613). -/
def wbTimeJump (t : Nat) (w : Weighbridge) : Weighbridge :=
  if w.run && isJump w.ft t then
    { wbSeal (Config.timeJumpKind (w.nvSeq + 1)).val w.ft t true w with ft := t, nextPeriodic := nextBoundary t }
  else w

/-- A broadcast of fabric time (R466, Table 17.1). A move that R613 calls a jump is the row WB_TIME_JUMP's, so the
time of such a broadcast is left for it; none is judged before the START record opens. -/
def wbBroadcast (t : Nat) (locked : Bool) (w : Weighbridge) : Weighbridge :=
  if w.powered then
    if w.openRec.isSome && isJump w.ft t then { w with ftLocked := locked } else { w with ft := t, ftLocked := locked }
  else w

/-- GET_INFO (Table 17.5). -/
def wbGetInfo (w : Weighbridge) : Weighbridge :=
  if w.run then
    { w with reply := .data (toBytes 8 wbIdent ++ toBytes 8 Config.wbSerial.toNat ++ wbPublicKey ++ Config.wbCertificate) }
  else w

/-- GET_RECORD: up to 240 bytes from an offset, NOT_HELD outside the ring or without NVM_OK (R616, R618). -/
def wbGetRecord (seq offset : Nat) (w : Weighbridge) : Weighbridge :=
  if w.run then
    match w.ring.find? (fun r => r.seq = seq) with
    | some r => if w.nvmOk then { w with reply := .data ((r.bytes.drop offset).take 240) } else { w with reply := .notHeld }
    | none => { w with reply := .notHeld }
  else w

/-- GET_RANGE: lowest and highest SEQ in the ring (R616, R618). -/
def wbGetRange (w : Weighbridge) : Weighbridge :=
  if w.run then
    match w.ring.head?, w.ring.getLast? with
    | some a, some b => if w.nvmOk then { w with reply := .data (toBytes 8 a.seq ++ toBytes 8 b.seq) } else { w with reply := .notHeld }
    | _, _ => { w with reply := .notHeld }
  else w

/-- WB_STATUS (Table 17.7). -/
def wbStatus (w : Weighbridge) : Word :=
  BitVec.ofNat 64 (w.pNow % 2 ^ 32 * 2 ^ 32 + 8 * bit w.rangeNow + 4 * bit w.ftLocked + 2 * bit w.nvmOk + bit w.run)

/-- A word of the read-only window by its offset (Table 17.6); a read has no side effect (R601). -/
def wbWindowWord (w : Weighbridge) (off : Nat) : Word :=
  if off = 0 then BitVec.ofNat 64 wbIdent
  else if off = 0x8 then Config.wbSerial
  else if 0x10 ≤ off ∧ off < 0x30 then BitVec.ofNat 64 (numAt wbKeyFp (off - 0x10) 8)
  else if off = 0x30 then wbStatus w
  else if off = 0x38 then BitVec.ofNat 64 w.energyTotal
  else if off = 0x40 then BitVec.ofNat 64 w.ringHead
  else if off = 0x48 then BitVec.ofNat 64 w.ringTail
  else if off = 0x50 then BitVec.ofNat 64 w.nvSeq
  else if off = 0x100 then BitVec.ofNat 64 w.crcErrCnt
  else if off = 0x108 then BitVec.ofNat 64 w.dupCnt
  else if off = 0x110 then BitVec.ofNat 64 w.gapCnt
  else if off = 0x118 then BitVec.ofNat 64 w.demandIgnoredCnt
  else if off = 0x120 then BitVec.ofNat 64 w.ringOverwriteCnt
  else if off = 0x128 then BitVec.ofNat 64 w.sessionCnt
  else if 0x100000 ≤ off ∧ off < 0x100000 + wbRingSize then
    let at' := fun i =>
      match w.ring.find? (fun r => decide ((i + wbRingSize - r.offset) % wbRingSize < r.bytes.length)) with
      | some r => byteAt r.bytes ((i + wbRingSize - r.offset) % wbRingSize)
      | none => 0
    BitVec.ofNat 64 (ofBytes ((List.range 8).map fun k => BitVec.ofNat 8 (at' ((off - 0x100000 + k) % wbRingSize))))
  else 0

end Sys2Proof.Machine
end

