-- ==== Sys2Proof/Machine/Time.lean ====
section
/-! DEFINITION. Fabric time: the exchange between ports, the servo, compatibility mode and the die's copies (R457 to
R471). -/
namespace Sys2Proof.Machine

abbrev sFREE : Nat := 0
abbrev sACQUIRE : Nat := 1
abbrev sLOCKED : Nat := 2
abbrev sHOLDOVER : Nat := 3

def M.servoState (m : M) : Nat := m.fld FTC_STATUS 3 0

/-- A servo state entered; LOCKED for the first time ends the boot's last stage (Table 15.10). -/
def M.setServoState (m : M) (v : Nat) : M :=
  let m := m.setFld FTC_STATUS 3 0 v
  if v = sLOCKED then ({ m with die.servo.lockedOnce := true } : M).stage 7 else m

def M.updServo (m : M) (f : Servo → Servo) : M := { m with die.servo := f m.die.servo }

/-- FTC_CTRL.MODE; 3 is treated as 0 (Table 11.11). -/
def M.timeMode (m : M) : Nat := if m.fld FTC_CTRL 5 4 = 3 then 0 else m.fld FTC_CTRL 5 4

/-- A native follower whose servo is enabled. -/
def M.follows (m : M) : Bool := m.timeMode == 0 && m.flag FTC_CTRL 0

/-- The time a TIME message is due: it goes out with the next control flit (R458). -/
def M.timeTimer (m : M) (p : Nat) : M := if m.pState p = pACTIVE then m.control p (ctl32 10 []) else m

def execTimeExchangeTimer (p : Nat) : State → Host.Outcome State Fault Refusal := onLive (M.timeTimer · p)

/-! ## Samples (R459, R460), in units of 2⁻¹⁶ ns -/

/-- A sample: its round trip and its offset. -/
structure TimeSample where
  rtt : Int
  offset : Int

/-- A signed field of 2⁻⁸ ns as 2⁻¹⁶ ns. -/
def M.asymmetry (m : M) (p : Nat) : Int := signed (m.fld (FTC_PORT_ASYM + 8 * p) 31 0) 32 * 256

def M.sample (m : M) (p : Nat) (msg : Bytes) (arrival : Int) : TimeSample :=
  let t1 : Int := numAt msg 16 8 * 65536 + numAt msg 26 2
  let t3 : Int := numAt msg 8 8 * 65536 + numAt msg 24 2
  let turn : Int := numAt msg 28 4 * 256
  let rtt := (arrival - t1) - turn
  { rtt, offset := arrival - (t3 + (rtt / 2 + m.asymmetry p)) }

/-- The cases of R460. -/
def M.rejects (m : M) (p : Nat) (msg : Bytes) (s : TimeSample) : Bool :=
  decide (((m.rtt p + 2) * 65536 : Nat) < s.rtt) || numAt msg 6 2 != m.fld RYS_XPT_ID 31 16 ||
    !((m.port p).timeSent.any fun t => t.seq == byteAt msg 3 && decide (m.fine ≤ t.time + 4000 * 65536))

/-- The partner's last TIME makes its port a valid parent (R461). -/
def Port.validParent (x : Port) : Bool := x.timeFlags.testBit 0 && !x.timeFlags.testBit 1 && decide (x.timeSteps < 255)

/-! ## The servo (R461 to R464) -/

/-- 1 ns and 20 ns in 2⁻⁸ ns, and 1 µs in 2⁻¹⁶ ns. -/
def lockWindow : Int := 256
def farOffset : Int := 5120
def aheadLimit : Int := 65536000

/-- STEPS from a parent: its own plus one, unknown before it has sent a valid one (R461). -/
def Port.stepsBehind (x : Port) : Nat := if x.validParent then x.timeSteps + 1 else 255

/-- The parent of FTC_STATUS, and whether it is the alternate. -/
def M.setParent (m : M) (p : Nat) (alternate : Bool) : M :=
  ((m.setFld FTC_STATUS 19 16 p).setFld FTC_STATUS 20 20 (bit alternate)).setFld FTC_STATUS 15 8 (m.port p).stepsBehind

/-- In HOLDOVER the alternate parent is taken as soon as it is valid (R464); one that names this module as its parent is refused
and counted (R461). -/
def M.switchParent (m : M) : M :=
  let alt := m.fld FTC_CTRL 15 12
  if m.flag FTC_CTRL 7 && !m.flag FTC_STATUS 20 && m.servoState == sHOLDOVER && m.follows then
    if (m.port alt).timeFlags.testBit 1 then m.count FTC_LOOP_CNT
    else if (m.port alt).validParent then
      ((m.setParent alt true).count FTC_PARENT_SWITCH_CNT).updServo fun s => { s with inRow := 0, farRow := 0 }
    else m
  else m

/-- HOLDOVER entered (Table 11.5). -/
def M.servoHoldover (m : M) : M :=
  let m := (m.setServoState sHOLDOVER).count FTC_HOLDOVER_CNT
  (m.updServo fun s => { s with inRow := 0, farRow := 0 }).switchParent

/-- No sample accepted for 10 µs. -/
def M.holdoverTimer (m : M) : M :=
  if m.follows && m.servoState == sLOCKED then (m.reach (m.die.servo.lastSample + 10000)).servoHoldover else m

def execServoHoldover : State → Host.Outcome State Fault Refusal := onLive M.holdoverTimer

/-- The counter moved by an amount of 2⁻¹⁶ ns; the regions' copies never decrease (R466). -/
def M.stepTime (m : M) (d : Int) : M :=
  let t := ((m.fine : Int) + d).toNat
  { m with die.ft := t / 65536, die.servo.frac := t % 65536, die.servo.copyFloor := max m.die.servo.copyFloor m.die.ft }

/-- The servo in ACQUIRE, its one step forward still to come (R462). -/
def M.acquireTime (m : M) : M :=
  (m.setServoState sACQUIRE).updServo fun s => { s with inRow := 0, farRow := 0, stepped := false, everLocked := false }

/-- The servo in FREE: nominal rate, STEPS unknown (Table 11.5). -/
def M.freeTime (m : M) : M :=
  ((m.setServoState sFREE).setFld FTC_STATUS 15 8 255).updServo fun s => { s with rate := 0, stepped := false }

/-- ACQUIRE steps forward once to the parent's time; a counter ahead by more than 1 µs stays, with AHEAD (R462). -/
def M.acquireStep (m : M) (offset : Int) : M :=
  if m.die.servo.stepped then m
  else if aheadLimit < offset then m.setFld FTC_STATUS 4 4 1
  else
    let m := (m.setFld FTC_STATUS 4 4 0).updServo fun s => { s with stepped := true }
    if offset < 0 then m.stepTime (-offset) else m

/-- The filtered offset and the rate correction: the spec gives no filter; the rate stays within ±100 ppm, in HOLDOVER at its
last value, and in ACQUIRE it is corrected once the step forward has been made (Table 11.5, R462). -/
def M.correct (m : M) (offset8 : Int) : M :=
  let f := Config.timeFilter (signed (m.regN FTC_OFFSET) 64) offset8
  let r := Config.timeRate m.die.servo.rate f
  let r := if r < -100000 then -100000 else if 100000 < r then 100000 else r
  let held := m.servoState == sHOLDOVER || (m.servoState == sACQUIRE && !m.die.servo.stepped)
  (m.setReg FTC_OFFSET (BitVec.ofInt 64 f)).updServo fun s => { s with rate := if held then s.rate else r }

/-- Consecutive accepted samples with the filtered offset within ±1 ns, and consecutive offsets beyond ±20 ns. -/
def M.countSample (m : M) (offset8 : Int) : M :=
  let f := signed (m.regN FTC_OFFSET) 64
  m.updServo fun s => { s with
    lastSample := m.die.ft
    inRow := if -lockWindow ≤ f ∧ f ≤ lockWindow then s.inRow + 1 else 0
    farRow := if farOffset < offset8 ∨ offset8 < -farOffset then s.farRow + 1 else 0 }

/-- An accepted sample of the parent (Table 11.5). -/
def M.servoSample (m : M) (steps : Nat) (offset : Int) : M :=
  let m := m.setFld FTC_STATUS 15 8 (steps + 1)
  let m := if m.servoState = sFREE then m.acquireTime else m
  let m := if m.servoState = sACQUIRE then m.acquireStep offset else m
  let m := (m.correct (offset / 256)).countSample (offset / 256)
  let s := m.die.servo
  if m.servoState = sLOCKED then if 8 ≤ s.farRow then m.servoHoldover else m
  else if 64 ≤ s.inRow ∧ (m.servoState = sHOLDOVER ∨ s.stepped) then
    (m.setServoState sLOCKED).updServo fun s => { s with inRow := 0, farRow := 0, everLocked := true }
  else m

/-- What the servo does with a sample that came on a port. -/
def M.servoTake (m : M) (p : Nat) (rejected : Bool) (offset : Int) : M :=
  let m := if p = m.fld FTC_CTRL 15 12 then m.switchParent else m
  if m.follows && m.fld FTC_STATUS 19 16 == p then
    let x := m.port p
    if x.timeFlags.testBit 1 then (m.count FTC_LOOP_CNT).updServo fun s => { s with inRow := 0 }
    else if rejected || !x.validParent then m.updServo fun s => { s with inRow := 0 }
    else m.servoSample x.timeSteps offset
  else m

/-- A TIME message received, at an arrival time in units of 2⁻¹⁶ ns (R408, R458 to R461). -/
def M.timeReceive (m : M) (p : Nat) (msg : Bytes) (arrival : Int) : M :=
  if m.pState p ≠ pACTIVE then m.count (portReg p RYS_PORT_UNADMITTED_DROP_CNT)
  else
    let s := m.sample p msg arrival
    let rejected := m.rejects p msg s
    let m := (m.setReg (FTC_PORT_OFFSET + 8 * p) (BitVec.ofInt 64 (s.offset / 256))).count FTC_SAMPLE_CNT
    let m := if rejected then m.count FTC_SAMPLE_REJECT_CNT else m
    let m := m.updPort p fun x => { x with
      timeLast := some { seq := byteAt msg 2, time := numAt msg 8 8 * 65536 + numAt msg 24 2, arrival := arrival.toNat }
      timeFlags := byteAt msg 4, timeSteps := byteAt msg 5 }
    m.servoTake p rejected s.offset

def execTimeReceive (p : Nat) (msg : Bytes) (arrival : Int) : State → Host.Outcome State Fault Refusal :=
  onLive (M.timeReceive · p msg arrival)

/-! ## FTC_CTRL (R461, R462, R468) -/

/-- The counter set to the parent's time, from the last sample of the active parent (R462). -/
def M.rebase (m : M) : M :=
  let offset := signed (m.regN (FTC_PORT_OFFSET + 8 * m.fld FTC_STATUS 19 16)) 64 * 256
  ((m.stepTime (-offset)).setFld FTC_STATUS 4 4 0).updServo fun s => { s with stepped := true }

/-- REBASE is refused while a model is loaded (R462). -/
def M.rebaseRequest (m : M) : M :=
  let m := m.setFld FTC_CTRL 6 6 0
  if m.die.fmn.models.isEmpty then m.rebase else m

def execFtcRebase : State → Host.Outcome State Fault Refusal := onLive M.rebaseRequest

/-- What MODE and PARENT do once they take effect; a change of MODE puts the servo in ACQUIRE, a change of parent there waits for
a step forward to the new one's time, and a grandmaster stays in LOCKED at its nominal rate with STEPS 0 (R461, R462, R468). -/
def M.takeTimeMode (m : M) (mode parent : Nat) : M :=
  let oldMode := m.timeMode
  let oldParent := m.fld FTC_CTRL 11 8
  let m := (m.setFld FTC_CTRL 5 4 mode).setFld FTC_CTRL 11 8 parent
  let m := if oldParent = parent then m
    else
      let m := m.setParent parent false
      if m.servoState = sACQUIRE then m.acquireTime else m
  let m := if oldMode = m.timeMode then m else (m.setParent parent false).acquireTime
  if m.timeMode = 1 then
    ((m.setServoState sLOCKED).setFld FTC_STATUS 15 8 0).updServo fun s => { s with rate := 0 }
  else if m.timeMode = 2 then m.setFld FTC_STATUS 15 8 255 else m

/-- A follower with EN clear is FREE (Table 11.5). -/
def M.takeEnable (m : M) : M :=
  if m.timeMode = 0 ∧ !m.flag FTC_CTRL 0 then m.freeTime else m

/-- A write of FTC_CTRL: EN, ALT_EN and ALT_PARENT act at once; MODE and PARENT only while no step is in progress, and
are latched otherwise (R468). -/
def M.writeFtcCtrl (m : M) (w : Nat) : M :=
  let m := ((m.setFld FTC_CTRL 0 0 w).setFld FTC_CTRL 7 7 (bits w 7 7)).setFld FTC_CTRL 15 12 (bits w 15 12)
  let mode := bits w 5 4
  let parent := bits w 11 8
  let m :=
    if mode = m.fld FTC_CTRL 5 4 ∧ parent = m.fld FTC_CTRL 11 8 ∧ m.die.servo.latched = none then m
    else if m.inStep then
      (m.latched m.die.servo.latched.isSome).updServo fun s => { s with latched := some (BitVec.ofNat 64 w) }
    else m.takeTimeMode mode parent
  let m := m.takeEnable
  if w.testBit 6 then m.rebaseRequest else m

/-- The boundary applies a latched MODE and PARENT. -/
def M.timeBoundary (m : M) : M :=
  match m.die.servo.latched with
  | none => m
  | some w =>
    ((m.updServo fun s => { s with latched := none }).takeTimeMode (Machine.fld w 5 4) (Machine.fld w 11 8)).takeEnable

/-! ## The die's copies (R466, R467) -/

/-- The broadcast reaches every region's copy: one that restarted is good again (R467, log entry 68). -/
def M.broadcast (m : M) : M :=
  let m := m.reach (m.die.servo.lastBroadcast + 1000)
  m.updServo fun s => { s with lastBroadcast := m.die.ft, staleCopies := [] }

/-- The broadcast also reaches the Weighbridge (Table 17.1). -/
def execFtBroadcast (s : State) : Host.Outcome State Fault Refusal :=
  if s.die.live then
    let m := M.broadcast { die := s.die, mem := CMem.ofList s.mem }
    .next { s with die := m.die, mem := m.mem.cells, wb := wbBroadcast m.die.ft m.ftLocked s.wb }
  else .next s

/-! ## Compatibility mode (R469, R470) -/

def M.compat (m : M) : Bool := m.timeMode == 2

/-- FTC_RACK_EPOCH moved to the next edge. -/
def M.nextEpoch (m : M) : M :=
  m.setReg FTC_RACK_EPOCH (BitVec.ofNat 64 (m.regN FTC_RACK_EPOCH + m.fld FTC_RACK 31 16 * 1000000))

/-- A rising edge of RACKREF_SYNC sets the counter, which never goes back (R457, R469, log entry 130). -/
def M.rackEdge (m : M) : M :=
  if m.compat then
    let t := m.regN FTC_RACK_EPOCH + m.fld FTC_RACK 15 0
    let m := if m.die.ft < t then { m with die.ft := t, die.servo.frac := 0 } else m
    (if m.servoState = sACQUIRE then m.setServoState sLOCKED else m).nextEpoch
  else m

def execRackrefSyncEdge : State → Host.Outcome State Fault Refusal := onLive M.rackEdge

/-- No edge within 50 µs of the expected time: FTC_RACK_EPOCH is then the edge after it (log entry 68). -/
def M.rackMiss (m : M) : M :=
  if m.compat then
    let m := m.reach (m.regN FTC_RACK_EPOCH + m.fld FTC_RACK 15 0 + 50000)
    (m.count FTC_RACK_SYNC_MISS_CNT).nextEpoch
  else m

def execRackrefSyncMiss : State → Host.Outcome State Fault Refusal := onLive M.rackMiss

/-- RACKREF_CLK stops: HOLDOVER on REFCLK. -/
def M.rackStop (m : M) : M :=
  let m := m.updServo fun s => { s with rackClock := false }
  if m.compat && m.servoState != sHOLDOVER then (m.setServoState sHOLDOVER).count FTC_HOLDOVER_CNT else m

def execRackrefClkStop : State → Host.Outcome State Fault Refusal := onLive M.rackStop

/-- RACKREF_CLK is back: a module in compatibility mode follows it again. -/
def M.rackReturn (m : M) : M :=
  let m := m.updServo fun s => { s with rackClock := true }
  if m.compat && m.servoState == sHOLDOVER then m.setServoState sLOCKED else m

def execRackrefClkReturn : State → Host.Outcome State Fault Refusal := onLive M.rackReturn

end Sys2Proof.Machine
end

