-- ==== Sys2Proof/Machine/Barrier.lean ====
section
/-! DEFINITION. Barriers: arrivals, releases, generations and the watchdog (R472 to R479). -/
namespace Sys2Proof.Machine

/-! ## Descriptors (Table 11.11) -/

def barReg (b : Nat) : Nat := FTC_BAR + 8 * b

def M.barValid (m : M) (b : Nat) : Bool := decide (b < 256) && m.flag (barReg b) 63
def M.barRoot (m : M) (b : Nat) : Bool := m.flag (barReg b) 62
def M.barParent (m : M) (b : Nat) : Nat := m.fld (barReg b) 61 58
def M.barChildren (m : M) (b : Nat) : List Nat := (List.range 16).filter fun p => (m.fld (barReg b) 55 40).testBit p

def M.bar (m : M) (b : Nat) : Barrier := mapGetD m.die.barriers b Barrier.fresh

/-- Arrivals in, of this generation. -/
def Barrier.arrivals (x : Barrier) : Nat := bit x.own + x.children.length

/-- A barrier changed; FTC_BARn_STATE shows its generation and arrivals. -/
def M.updBar (m : M) (b : Nat) (f : Barrier → Barrier) : M :=
  let x := f (m.bar b)
  let m : M := { m with die.barriers := mapSet m.die.barriers b x }
  m.setReg (FTC_BAR_STATE + 8 * b) (BitVec.ofNat 64 (x.gen % 65536 * 65536 + x.arrivals % 256))

/-! ## Arrivals (R473) -/

/-- The next generation, with nothing arrived. -/
def Barrier.next (x : Barrier) : Barrier :=
  let gen := (x.gen + 1) % 65536
  { Barrier.fresh with
    gen, early := x.early, ownEarly := x.ownEarly, release := x.nextRelease, passed := x.nextRelease.isSome
    abandoned := x.abandoned, last := match x.nextRelease with
      | some (flags, _, t) => some (gen, flags, t)
      | none => x.last }

/-- TS of a BAR_RELEASE. -/
def releaseTs (b flags gen value t : Nat) : Bytes :=
  toBytes 1 b ++ toBytes 1 flags ++ toBytes 2 gen ++ toBytes 4 value ++ toBytes 8 t

/-- A release of a generation goes to every child port (R474). -/
def M.barForward (m : M) (b flags gen value t : Nat) : M :=
  (m.barChildren b).foldl (fun m p => m.sendOn p tyBAR_RELEASE (releaseTs b flags gen value t) []) m

/-- A release goes to every child port, and waits here for its time (R474). -/
def M.barSend (m : M) (b flags value t : Nat) : M :=
  let gen := (m.bar b).gen
  (m.barForward b flags gen value t).updBar b fun x => { x with release := some (flags, value, t), passed := true, last := some (gen, flags, t) }

/-- Every expected arrival is in: the root releases, any other member sends the combined arrival to its parent. -/
def M.barCheck (m : M) (b : Nat) : M :=
  let x := m.bar b
  if x.own && !x.passed && (m.barChildren b).all x.children.contains then
    if m.barRoot b then m.barSend b x.flags x.value (m.die.ft + m.fld (barReg b) 31 0)
    else
      (m.sendOn (m.barParent b) tyBAR_ARRIVE (toBytes 1 b ++ toBytes 1 x.flags ++ toBytes 2 x.gen ++ toBytes 4 x.value ++
        toBytes 2 x.count) []).updBar b fun x => { x with passed := true }
  else m

/-- One arrival combined: flags by OR, the largest value, counts added. -/
def Barrier.combine (flags value count : Nat) (x : Barrier) : Barrier :=
  { x with flags := x.flags ||| flags, value := max x.value value, count := x.count + count }

/-- The module's own arrival (R472); one for the next generation is held (R478). -/
def M.barArriveOwn (m : M) (b flags value : Nat) : M :=
  if !m.barValid b then m
  else if (m.bar b).own then m.updBar b fun x => { x with ownEarly := some (x.ownEarly.getD (flags, value)) }
  else (m.updBar b fun x => { x.combine flags value 1 with own := true, ownAt := m.die.ft }).barCheck b

/-- Arrivals held for the generation that now begins (R478). -/
def M.barTakeEarly (m : M) (b : Nat) : M :=
  let early := (m.bar b).early
  let own := (m.bar b).ownEarly
  let m := m.updBar b fun x => { x with early := [], ownEarly := none }
  let m := match own with
    | some (flags, value) => m.updBar b fun x => { x.combine flags value 1 with own := true, ownAt := m.die.ft }
    | none => m
  (early.foldl (fun m (p, flags, value, count) =>
    m.updBar b fun x => { x.combine flags value count with children := x.children ++ [p] }) m).barCheck b

/-- The current generation ends. -/
def M.barNext (m : M) (b : Nat) : M := (m.updBar b Barrier.next).barTakeEarly b

/-- A child's arrival (R473, R478); one that fits no expected arrival is counted as stale. -/
def M.barArrive (m : M) (p : Nat) (msg : Bytes) : M :=
  let b := msgTs msg 12 1
  let x := m.bar b
  let flags := msgTs msg 13 1
  let gen := msgTs msg 14 2
  let value := msgTs msg 16 4
  let count := msgTs msg 20 2
  if !m.barValid b || !(m.barChildren b).contains p then m.count FTC_BAR_STALE_CNT
  else if gen = x.gen ∧ !x.children.contains p then
    (m.updBar b fun x => { x.combine flags value count with children := x.children ++ [p] }).barCheck b
  else if gen = (x.gen + 1) % 65536 ∧ !x.early.any (fun e => e.1 == p) then
    m.updBar b fun x => { x with early := x.early ++ [(p, flags, value, count)] }
  else m.count FTC_BAR_STALE_CNT

def execBarArriveReceive (p : Nat) (msg : Bytes) : State → Host.Outcome State Fault Refusal :=
  onLive (M.barArrive · p msg)

/-! ## Releases (R474 to R478) -/

/-- A release received from the parent: taken for the current generation or the next, forwarded, and held until its
time, one for the next behind one that still waits (R478); the second result names a barrier whose release came late (R477). -/
def M.barRelease (m : M) (msg : Bytes) : M × Option Nat :=
  let b := msgTs msg 12 1
  let gen := msgTs msg 14 2
  let t := msgTs msg 20 8
  let x := m.bar b
  let flags := msgTs msg 13 1
  let value := msgTs msg 16 4
  let next := gen == (x.gen + 1) % 65536
  if !m.barValid b || m.barRoot b then (m.count FTC_BAR_STALE_CNT, none)
  else if (gen == x.gen || next) && x.release.isNone then
    let m := (if gen = x.gen then m else m.updBar b Barrier.next).barSend b flags value t
    if t < m.die.ft then (m.count FTC_BAR_LATE_CNT, some b) else (m, none)
  else if next && x.nextRelease.isNone then
    let m := (m.barForward b flags gen value t).updBar b fun x => { x with nextRelease := some (flags, value, t) }
    (if t < m.die.ft then m.count FTC_BAR_LATE_CNT else m, none)
  else (m.count FTC_BAR_STALE_CNT, none)

/-- A release whose time has come, taken from its barrier: its flags, value and time, and the barrier in its next
generation; held while the control region's copy of fabric time is not reloaded (R467). -/
def M.barAct (m : M) (b : Nat) : Option (Nat × Nat × Nat) × M :=
  match m.copyStale, (m.bar b).release with
  | false, some (flags, value, t) => (some (flags, value, t), (m.reach t).barNext b)
  | _, _ => (none, m)

/-- A generation still open FTC_BAR_WDOG after the module's own arrival is abandoned and reported (R479). -/
def M.barTimeout (m : M) (b : Nat) : M :=
  let x := m.bar b
  if x.own && x.release.isNone then
    let m := ((m.reach (x.ownAt + m.regN FTC_BAR_WDOG)).count FTC_BAR_TIMEOUT_CNT).report 14 6 0 0 0 0 b
    (m.updBar b fun x => { x with abandoned := some x.gen }).barNext b
  else m

def execBarrierTimeout (b : Nat) : State → Host.Outcome State Fault Refusal := onLive (M.barTimeout · b)

end Sys2Proof.Machine
end

