-- ==== Sys2Proof/Machine/Build.lean ====
section
/-! DEFINITION. Builds and manifests: their layout and the checks of a load or preparation (R246 to R249, R258, R363,
R364, R483, R535, R536). -/
namespace Sys2Proof.Machine

/-! ## The build (Table 14.8) -/

/-- A field of a build's header. -/
def hdrField (b : Bytes) (o n : Nat) : Nat := numAt b o n

def buildSterling (b : Bytes) : Bool := (byteAt b 7).testBit 0
def buildSplit (b : Bytes) : Bool := (byteAt b 7).testBit 1

/-- Counts: 0 programs, 1 relocations, 2 patch-map entries, 3 shape classes. -/
def buildCount (b : Bytes) (i : Nat) : Nat := numAt b (64 + 4 * i) 4

/-- Offsets: 0 step table, 1 groups, 2 patches, 3 program directory, 4 relocations, 5 patch map, 6 classes. -/
def buildOffset (b : Bytes) (i : Nat) : Nat := numAt b (80 + 4 * i) 4

/-- A part of a build: bytes past its end read as zero. -/
def buildPart (b : Bytes) (i n : Nat) : Bytes := slice b (buildOffset b i) n

/-- The step table, group descriptors and patch store of a build (log entry 75). -/
def buildSteps (b : Bytes) : Bytes := buildPart b 0 32768
def buildGroups (b : Bytes) : Bytes := buildPart b 1 2048
def buildPatches (b : Bytes) : Bytes := buildPart b 2 262144

/-- A step-table entry of a build (Table 6.6). -/
def buildEntry (b : Bytes) (i : Nat) : TableEntry :=
  let w := numAt (buildSteps b) (32 * i) 8
  let v := numAt (buildSteps b) (32 * i + 8) 8
  { startFence := bits w 55 48, endFence := bits w 47 40, group := bits w 39 32, pc := bits w 31 16
    sterling := w.testBit 10, last := w.testBit 9, valid := w.testBit 8
    budget := bits v 63 32, patchCount := bits v 31 16, patchIndex := bits v 15 0 }

/-- The sites and virtual cores of a group of a build (R256). -/
def buildSites (b : Bytes) (g : Nat) : List Nat :=
  let d := slice (buildGroups b) (32 * g) 17
  (List.range 136).filter fun s => (byteAt d (s / 8)).testBit (s % 8)

def buildVirtual (b : Bytes) (g : Nat) : List Nat :=
  let v := numAt (buildGroups b) (32 * g + 19) 2
  (List.range 16).filter fun i => v.testBit i

/-- The valid entries of a build, with their indices. -/
def buildValid (b : Bytes) : List (Nat × TableEntry) :=
  ((List.range 1024).map fun i => (i, buildEntry b i)).filter fun e => e.2.valid

/-- Shape classes and patch map of a build (R535, R538). -/
def buildClasses (b : Bytes) : List ShapeClass :=
  (List.range (buildCount b 3)).map fun i =>
    let o := buildOffset b 6 + 16 * i
    { decode := numAt b o 4, prefill := numAt b (o + 4) 4, first := numAt b (o + 8) 2, count := numAt b (o + 10) 2 }

def buildPatchMap (b : Bytes) : List PatchMap :=
  (List.range (buildCount b 2)).map fun i =>
    let o := buildOffset b 5 + 8 * i
    { register := byteAt b o, kind := byteAt b (o + 1), arg := numAt b (o + 2) 2 }

/-- Image and fixed-bank values of each program, by 16 × site + virtual core. -/
def buildImages (b : Bytes) : NMap Bytes :=
  (List.range (buildCount b 0)).foldl (fun l i =>
    let o := buildOffset b 3 + 16 * i
    mapSet l (16 * byteAt b o + byteAt b (o + 1) % 16) (slice b (numAt b (o + 4) 4) (min 65536 (numAt b (o + 8) 4)))) []

def buildFixed (b : Bytes) : NMap Bytes :=
  (List.range (buildCount b 0)).foldl (fun l i =>
    let o := buildOffset b 3 + 16 * i
    let f := numAt b (o + 12) 4
    mapSet l (16 * byteAt b o + byteAt b (o + 1) % 16) (if f = 0 then zeros 1024 else slice b f 1024)) []

/-! ## Relocations (R536) -/

structure Reloc where
  kind : Nat
  key : Nat
  target : Nat
  location : Nat
  lsb : Nat
  width : Nat
  arg : Nat
  deriving DecidableEq, Repr

def buildRelocs (b : Bytes) : List Reloc :=
  (List.range (buildCount b 1)).map fun i =>
    let o := buildOffset b 4 + 16 * i
    { kind := byteAt b o, key := 16 * byteAt b (o + 1) + byteAt b (o + 2) % 16, target := byteAt b (o + 3)
      location := numAt b (o + 4) 4, lsb := byteAt b (o + 8), width := byteAt b (o + 9), arg := numAt b (o + 12) 4 }

/-- The value of a relocation: none for another KIND, or for a role without a record. -/
def M.relocValue (m : M) (r : Reloc) : Option Nat :=
  if r.kind = 1 then mapGet m.die.fmn.roles r.arg else if r.kind = 2 then some m.moduleId else none

def M.relocOk (m : M) (r : Reloc) : Bool :=
  (m.relocValue r).isSome && decide (r.target ≤ 1) && decide (1 ≤ r.width) && decide (r.width ≤ 32) &&
    decide (r.lsb + r.width ≤ 64)

/-- A field of a 64-bit word in a byte string. -/
def putField (bs : Bytes) (o lsb width v : Nat) : Bytes :=
  patchBytes bs o (toBytes 8 (setFld (BitVec.ofNat 64 (numAt bs o 8)) (lsb + width - 1) lsb v).toNat)

/-- A relocation applied to a model's images or fixed-bank values. -/
def M.relocate (m : M) (x : Model) (r : Reloc) : Model :=
  match m.relocValue r with
  | none => x
  | some v =>
    if r.target = 0 then
      { x with images := mapUpd x.images r.key [] fun b => if r.location + 8 ≤ b.length then putField b r.location r.lsb r.width v else b }
    else { x with fixed := mapUpd x.fixed r.key (zeros 1024) fun b => if r.location < 128 then putField b (8 * r.location) r.lsb r.width v else b }

/-- The STERLING bit of a build's step table, on which its valid entries agree (R483); its header's where it has none. -/
def tableSterling (b : Bytes) : Bool :=
  match buildValid b with
  | e :: _ => e.2.sterling
  | [] => buildSterling b

/-- What the Foreman keeps of a build. -/
def M.modelOf (m : M) (b : Bytes) : Model :=
  let x : Model :=
    { index := byteAt b 6, sterling := tableSterling b, split := buildSplit b, classes := buildClasses b
      patchMap := buildPatchMap b, images := buildImages b, fixed := buildFixed b, programDigest := slice b 32 32
      steps := buildSteps b, groups := buildGroups b, patches := buildPatches b, stopped := false, lastOld := false }
  (buildRelocs b).foldl (fun x r => m.relocate x r) x

/-- The sites that a model's programs run on. -/
def Model.sites (x : Model) : List Nat := (x.images.map fun p => p.1 / 16).eraseDups

/-- The model needs 128 sites, which the module no longer has (R511). -/
def M.sitesLack (m : M) (x : Model) : Bool := m.die.fmn.sitesShort && decide (128 ≤ x.sites.length)

/-! ## The checks of a build (R249, R258, R483) -/

/-- Entries of a class that come before entry `e`, through the fences that start it. -/
def ancestors (es : List (Nat × TableEntry)) : Nat → TableEntry → List Nat
  | 0, _ => []
  | n + 1, e =>
    let ps := es.filter fun p => p.2.endFence == e.startFence
    ps.map (·.1) ++ ps.flatMap fun p => ancestors es n p.2

/-- Two groups share a core. -/
def groupsOverlap (b : Bytes) (g h : Nat) : Bool :=
  (buildSites b g).any (buildSites b h).contains && (buildVirtual b g).any (buildVirtual b h).contains

/-- Two entries of a class that can run at the same time name overlapping groups (R258). -/
def classOverlaps (b : Bytes) (c : ShapeClass) : Bool :=
  let es := (buildValid b).filter fun e => decide (c.first ≤ e.1) && decide (e.1 < c.first + c.count)
  es.any fun e => es.any fun f =>
    decide (e.1 < f.1) && groupsOverlap b e.2.group f.2.group &&
      !(ancestors es es.length e.2).contains f.1 && !(ancestors es es.length f.2).contains e.1

/-- Patch entry `i` of a build is in use: it is not all zero, or a valid entry's list holds it. -/
def patchUsed (b : Bytes) (i : Nat) : Bool :=
  (slice (buildPatches b) (16 * i) 16).any (· != 0) ||
    (buildValid b).any fun e => decide (e.2.patchIndex ≤ i) && decide (i < e.2.patchIndex + e.2.patchCount)

/-- A patch entry names a spare site or a register outside the fixed bank (R257, R258). -/
def M.patchBad (m : M) (b : Bytes) (i : Nat) : Bool :=
  let w := numAt (buildPatches b) (16 * i + 8) 8
  m.siteSpare (bits w 7 0) || decide (128 ≤ bits w 31 24)

/-- R258, over every group and patch entry of the build, and the disagreement of R483, with the build's own STERLING flag too
(log entry 75). -/
def M.tableRefused (m : M) (b : Bytes) : Bool :=
  let es := buildValid b
  (List.range 64).any (fun g => (buildSites b g).any m.siteSpare) || (buildClasses b).any (classOverlaps b) ||
    (List.range 16384).any (fun i => patchUsed b i && m.patchBad b i) ||
    es.any fun e => e.2.sterling != buildSterling b

/-- The travel-time table the loader supplies to the compiler (R248, Table 6.5): the header from the calibration, and
T(a, b) of R231 for every pair of serving sites. -/
def M.travelHeader (m : M) : Bytes :=
  toBytes 2 1 ++ toBytes 1 calClass ++ toBytes 1 Config.fenceLatency ++ toBytes 8 (m.fld SHAFT_GRID_SIG 39 0) ++
    (List.range 7).flatMap (fun i => toBytes 1 (Config.crossingLatency i)) ++ [8, 3, 2, 3]

def M.travelTable (m : M) : Bytes :=
  m.travelHeader ++ zeros 41 ++ (List.range 136).flatMap fun a => (List.range 136).map fun b =>
    if m.siteSpare a || m.siteSpare b then 0xFF else BitVec.ofNat 8 (travelTime a b)

/-- TT_HEADER, bytes 8 to 31 of a build, differs from the module's table in CAL_CLASS or GRID_SIG (R249, Table 14.8). -/
def M.travelMismatch (m : M) (b : Bytes) : Bool :=
  byteAt b 10 != byteAt m.travelHeader 2 || numAt b 12 8 != numAt m.travelHeader 4 8

/-- The bit-identity record does not fit the part: the table revision of an enabled core, or the calibration class (R488). -/
def M.identityMismatch (m : M) : Bool :=
  m.fld FMN_DET_BIR 55 48 != calClass || m.enabledCores.any fun c => m.regN (coreReg c CORE_SML_TABLE_REV) != m.fld FMN_DET_BIR 47 32

/-- The checks of step 1 of R535: the code of the first that fails. -/
def M.buildCheck (m : M) (b man : Bytes) : Option Nat :=
  if numAt b 0 4 ≠ 0x33544C42 ∨ numAt b 4 2 ≠ 1 then some ccINVALID
  else if m.travelMismatch b then some ccMISMATCH
  else if m.flag SHAFT_CAL_STATUS 1 then some ccCAL_FAIL
  else if m.identityMismatch then some ccMISMATCH
  else if slice b 32 32 ≠ slice man 32 32 ∨ sm3 (b.drop 256) ≠ slice man 32 32 then some ccMISMATCH
  else none

/-! ## Manifests (Tables 9.2, 9.3) -/

def manifestCount (man : Bytes) : Nat := numAt man 12 2

/-- The shards a manifest lists. -/
def manifestShards (man : Bytes) : List Shard :=
  (List.range (manifestCount man)).map fun i =>
    let o := 128 + 48 * i
    { site := byteAt man o, vcore := byteAt man (o + 1) % 16, length := numAt man (o + 4) 4, digest := slice man (o + 16) 32
      verified := false, header := [], frame := none, order := 0, requested := none, attempts := 0, source := 0, lost := false
      landed := [], asked := [], written := false }

/-- A manifest as the Foreman keeps it. -/
def manifestOf (man digest : Bytes) (id half : Nat) (use : ManifestUse) : Manifest :=
  { id, use, model := byteAt man 6, split := (byteAt man 7).testBit 0, epoch := numAt man 8 2, role := numAt man 10 2 % 4096
    halfReg := byteAt man 14, gridSig := numAt man 16 8, imageBytes := numAt man 24 8, programDigest := slice man 32 32
    digest, shards := manifestShards man, half }

/-- The longest payload of a shard (Table 9.1). -/
def imageSize (split : Bool) : Nat := if split then 0x100000 else 0x200000

/-- A manifest is well formed, and its digest is the one named (R363). -/
def manifestCheck (man digest : Bytes) (model : Nat) : Option Nat :=
  let n := manifestCount man
  if numAt man 0 4 ≠ 0x33544D46 ∨ numAt man 4 2 ≠ 1 ∨ byteAt man 6 ≠ model ∨ n = 0 ∨ 2048 < n ∨ man.length < 128 + 48 * n ∨
      numAt man 8 2 = 65535 then some ccINVALID
  else if sm3 (man.take (128 + 48 * n)) ≠ digest then some ccMISMATCH
  else if (manifestShards man).any fun s =>
      decide (imageSize ((byteAt man 7).testBit 0) < s.length) || s.length % 64 != 0 then some ccINVALID
  else none

/-- Two entries name one virtual core, or one names a spare site (R364). -/
def M.manifestRefused (m : M) (man : Bytes) : Bool :=
  let ks := (manifestShards man).map fun s => 16 * s.site + s.vcore
  decide (ks.eraseDups.length ≠ ks.length) || (manifestShards man).any fun s => m.siteSpare s.site || decide (136 ≤ s.site)

/-- R364 for any manifest. -/
def M.gridCheck (m : M) (man : Bytes) : Option Nat :=
  if numAt man 16 8 ≠ m.regN SHAFT_GRID_SIG then some ccMISMATCH
  else if m.manifestRefused man then some ccREFUSED
  else none

end Sys2Proof.Machine
end

