-- ==== Sys2Proof/Machine/Weights.lean ====
section
/-! DEFINITION. Manifests the Foreman holds, shards and their fetching, and Lode images (R359 to R377). -/
namespace Sys2Proof.Machine

/-! ## Manifests and shards -/

def M.manifest (m : M) (id : Nat) : Option Manifest := m.die.fmn.manifests.find? fun x => x.id == id

def M.updManifest (m : M) (id : Nat) (f : Manifest → Manifest) : M :=
  { m with die.fmn.manifests := m.die.fmn.manifests.map fun x => if x.id = id then f x else x }

def M.dropManifest (m : M) (id : Nat) : M :=
  { m with die.fmn.manifests := m.die.fmn.manifests.filter fun x => x.id != id }

def M.shard (m : M) (id i : Nat) : Option Shard := (m.manifest id).bind fun x => x.shards[i]?

def M.updShard (m : M) (id i : Nat) (f : Shard → Shard) : M :=
  m.updManifest id fun x => { x with shards := x.shards.modify i f }

/-- The manifest of a use. -/
def M.manifestFor (m : M) (use : ManifestUse) : Option Manifest := m.die.fmn.manifests.find? fun x => x.use == use

/-- Fields of FMN_WT_STATUS (Table 9.8). -/
def M.runEpoch (m : M) : Nat := m.fld FMN_WT_STATUS 63 48
def M.runHalf (m : M) : Nat := m.fld FMN_WT_STATUS 6 6
def M.prep (m : M) : Nat := m.fld FMN_WT_STATUS 3 0
def M.setPrep (m : M) (v : Nat) : M := m.setFld FMN_WT_STATUS 3 0 v
def M.setNextEpoch (m : M) (v : Nat) : M := m.setFld FMN_WT_STATUS 47 32 v

abbrev pIDLE : Nat := 0
abbrev pFETCHING : Nat := 1
abbrev pWRITING : Nat := 2
abbrev pREADY : Nat := 3
abbrev pFLIP_PENDING : Nat := 4
abbrev pCOPYING : Nat := 5
abbrev pFAILED : Nat := 6

/-- Bytes of a shard header (Table 9.1). -/
def shardHeader : Nat := 1120

/-- A staging frame, and how many there are (R367). -/
def frameSize : Nat := 0x200000
def stagingFrames : Nat := 4096

/-- R365: the header's fields are those of the manifest and of its entry, and the digests agree. -/
def shardOk (x : Manifest) (i : Nat) (s : Shard) (h payload : Bytes) : Bool :=
  numAt h 0 4 == 0x33544853 && numAt h 4 2 == 1 && byteAt h 6 == x.model && byteAt h 7 == bit x.split &&
    numAt h 8 2 == x.epoch && numAt h 10 2 == x.role && byteAt h 12 == s.site && byteAt h 13 == s.vcore &&
    numAt h 14 2 == i && numAt h 16 8 == x.gridSig && numAt h 24 4 == s.length && slice h 1088 32 == s.digest &&
    sm3 (slice h 0 1088 ++ payload) == s.digest

/-! ## Frames (R367, R368) -/

/-- Frames that hold a shard, or that an open load has named to software. -/
def M.usedFrames (m : M) : List Nat :=
  (m.die.fmn.manifests.flatMap fun x => x.shards.filterMap (·.frame)) ++
    match m.die.fmn.openLoad with
    | some l => (List.range l.frameCount).map (l.frameBase + ·)
    | none => []

/-- The retained shard that was verified earliest: its manifest and index (R368). -/
def M.oldestRetained (m : M) : Option (Nat × Nat) :=
  let held := m.die.fmn.manifests.flatMap fun x =>
    if x.use == .running then
      x.shards.zipIdx.filterMap fun (s, i) => if s.verified && s.frame.isSome then some (s.order, x.id, i) else none
    else []
  (held.foldl (fun (b : Option (Nat × Nat × Nat)) h => match b with
    | some c => if h.1 < c.1 then some h else b
    | none => some h) none).map (·.2)

/-- A frame for a fetch: a free one, else the oldest retained shard's, else none (R368). -/
def M.takeFrame (m : M) : Option Nat × M :=
  match m.pick 0 stagingFrames m.usedFrames with
  | (some f, m) => (some f, m)
  | (none, m) =>
    match m.oldestRetained with
    | some (id, i) =>
      let f := (m.shard id i).bind (·.frame)
      (f, (m.updShard id i fun s => { s with frame := none }).count FMN_WT_EVICT_CNT)
    | none => (none, m)

/-- A payload in its frame. -/
def M.payload (m : M) (f n : Nat) : Bytes × M := m.stripedRead stagingAddr (frameSize * f) n 4

/-! ## Requests (R370 to R373) -/

/-- TS of SHARD_REQ and NOT_HELD (Table 11.2). -/
def shardTs (role index epoch model : Nat) : Bytes := toBytes 2 role ++ toBytes 2 index ++ toBytes 2 epoch ++ toBytes 1 model

/-- The sources of a role: those of its record that are not "none". -/
def M.sources (m : M) (role : Nat) : List Nat := (mapGetD m.die.fmn.sources role []).filter (· != 0xFFFF)

/-- The source a shard is asked of now (R372). -/
def M.currentSource (m : M) (x : Manifest) (s : Shard) : Option Nat :=
  match m.sources x.role with
  | [] => none
  | src :: rest => some ((src :: rest).getD (s.source % (rest.length + 1)) src)

/-- A shard requested from its current source; nothing goes out while no frame can be had. -/
def M.requestShard (m : M) (x : Manifest) (i : Nat) (again : Bool) : M :=
  match m.shard x.id i, m.sources x.role with
  | some s, _ :: _ =>
    let (f, m) := match s.frame with | some f => (some f, m) | none => m.takeFrame
    match f with
    | none => m
    | some f =>
      let m := m.updShard x.id i fun s => { s with
        frame := some f, requested := some m.die.ft, attempts := s.attempts + 1, header := [], landed := [] }
      let m := (m.count FMN_WT_REQ_CNT)
      let m := if again then m.count FMN_WT_REFETCH_CNT else m
      m.sendMessage tySHARD_REQ ((m.currentSource x s).getD 0xFFFF) (shardTs x.role i x.epoch x.model) []
  | _, _ => m

/-- MAX_ATTEMPTS in force. -/
def M.maxAttempts (m : M) : Nat := max 1 (m.fld FMN_WT_CTRL 47 44)

/-- A load or preparation of a manifest fails (R373). -/
def M.loadFails (m : M) (id code : Nat) : M :=
  match m.die.fmn.openLoad with
  | some l =>
    if l.manifest = id then
      let m : M := { m with die.fmn.openLoad := none }
      (if l.isLoad then m else m.setPrep pFAILED).mbComplete l.mailbox code
    else m
  | none => m

/-- What has landed of a shard discarded; a lost one gives its frame back (R366). -/
def Shard.discarded (s : Shard) : Shard :=
  { s with header := [], landed := [], requested := none, frame := if s.lost then none else s.frame }

/-- A shard that did not come from its source: what landed of it is discarded, and it is asked of the next one, or lost (R366,
R372, R373). A lost shard is lost once. -/
def M.shardAgain (m : M) (x : Manifest) (i : Nat) : M :=
  match m.shard x.id i with
  | none => m
  | some s =>
    if s.lost then m.updShard x.id i Shard.discarded
    else if m.maxAttempts ≤ s.attempts then
      let m := (m.updShard x.id i fun s => ({ s with lost := true } : Shard).discarded).count FMN_WT_SHARD_LOST_CNT
      m.loadFails x.id ccSHARD_LOST
    else
      let m := m.updShard x.id i fun s => { s.discarded with source := s.source + 1 }
      m.requestShard x i true

/-- Every shard that is missing and not yet asked for is asked for (R370). -/
def M.fetchMissing (m : M) (id : Nat) : M :=
  match m.manifest id with
  | none => m
  | some x => (List.range x.shards.length).foldl (fun m i =>
      match m.shard id i with
      | some s => if s.verified || s.lost || s.requested.isSome then m else m.requestShard x i false
      | none => m) m

/-! ## Serving others (R371) -/

/-- Segments of a shard's header-and-payload bytes. -/
def segmentSize : Nat := 65536

/-- A verified shard sent, as a run of segments in one flow. -/
def M.sendShard (m : M) (dest : Nat) (x : Manifest) (i : Nat) (s : Shard) (f : Nat) : M :=
  let (p, m) := m.payload f s.length
  let all := s.header ++ p
  let flow := m.freeValue % 65536
  let m := m.spend.count FMN_WT_SHARD_TX_CNT
  (List.range (ceilDiv all.length segmentSize)).foldl (fun m k =>
    m.sendFlow tySHARD_DATA dest flow
      (shardTs x.role i x.epoch x.model ++ zeros 1 ++ toBytes 4 (segmentSize * k) ++ toBytes 4 all.length)
      ((all.drop (segmentSize * k)).take segmentSize)) m

/-- The held manifest and shard of a role, an epoch, a model and an index (R366). -/
def M.heldShard (m : M) (role epoch model i : Nat) : Option (Manifest × Nat × Shard) :=
  (m.die.fmn.manifests.find? fun x =>
    x.role == role && x.epoch == epoch && x.model == model && decide (i < x.shards.length)).bind
      fun x => (x.shards[i]?).map fun s => (x, i, s)

/-- The manifest and shard that a message names. -/
def M.namedShard (m : M) (msg : Bytes) : Option (Manifest × Nat × Shard) :=
  m.heldShard (msgTs msg 12 2) (msgTs msg 16 2) (msgTs msg 18 1) (msgTs msg 14 2)

/-- A request for a shard: served, put off until it is verified, or NOT_HELD (R371). -/
def M.shardRequest (m : M) (msg : Bytes) : M :=
  let refuse := (m.count FMN_WT_NOT_HELD_CNT).sendMessage tyNOT_HELD (msgSrc msg) (slice msg 12 16) []
  match m.namedShard msg with
  | none => refuse
  | some (x, i, s) => match s.verified, s.frame with
    | true, some f => m.sendShard (msgSrc msg) x i s f
    | true, none => refuse
    | false, _ =>
      if s.requested.isSome then m.updShard x.id i fun s => { s with asked := s.asked ++ [msgSrc msg] } else refuse

def execShardReqReceive (msg : Bytes) : State → Host.Outcome State Fault Refusal := onLive (M.shardRequest · msg)

/-! ## Verification (R365, R366) -/

/-- A shard verified: counted, given its place in the order, and sent to those that wait for it. -/
def M.shardVerified (m : M) (x : Manifest) (i f : Nat) (header : Bytes) : M :=
  let m := m.count FMN_WT_SHARD_RX_CNT
  let waiting := ((m.shard x.id i).map (·.asked)).getD []
  let m := m.updShard x.id i fun s => { s with
    verified := true, header, frame := some f, order := m.die.fmn.verifyNo, requested := none, landed := [], asked := [] }
  let m : M := { m with die.fmn.verifyNo := m.die.fmn.verifyNo + 1 }
  match m.shard x.id i with
  | some s => waiting.foldl (fun m d => m.sendShard d x i s f) m
  | none => m

/-! ## Lode images (R359, R360, R374 to R376) -/

/-- The physical core that a shard's image belongs to. -/
def M.shardCore (m : M) (s : Shard) : Nat := 17 * s.site + m.physical s.site s.vcore

/-- Lode offset of an image. -/
def imageBase (split : Bool) (half : Nat) : Nat := if split then half * 0x100000 else 0

/-- An image written into its range, with zeros beyond its length (R359). -/
def M.writeImage (m : M) (c : Nat) (split : Bool) (half : Nat) (payload : Bytes) : M :=
  m.writeMem c 0 (imageBase split half) (slice payload 0 (imageSize split))

/-- The rows of an image by their Lode offsets. -/
def imageRows (split : Bool) (half : Nat) (payload : Bytes) : NMap Bytes :=
  let b := slice payload 0 (imageSize split)
  (List.range (imageSize split / 64)).map fun r => (imageBase split half + 64 * r, (b.drop (64 * r)).take 64)

/-- The image of shard `i` of a manifest written into core `c`: at once when no step runs, else row by row through the scrub
slots (R213, R375, R376). -/
def M.loadImage (m : M) (c : Nat) (x : Manifest) (i : Nat) (payload : Bytes) : M :=
  if m.inStep then
    m.updCore c fun k => { k with lodeJob := some { manifest := x.id, shard := i, rows := imageRows x.split x.half payload } }
  else (m.writeImage c x.split x.half payload).updShard x.id i fun s => { s with written := true }

/-- One shard's image written into Lode from staging. -/
def M.writeShard (m : M) (x : Manifest) (p : Shard × Nat) : M :=
  match p.1.frame with
  | some f =>
    let (b, m) := m.payload f p.1.length
    m.loadImage (m.shardCore p.1) x p.2 b
  | none => m

/-- Every image of a manifest written, or begun (R375, R376). -/
def M.writeImages (m : M) (id : Nat) : M :=
  match m.manifest id with
  | none => m
  | some x => x.shards.zipIdx.foldl (fun m p => m.writeShard x p) m

/-- What the loader has still to write of a manifest is given up. -/
def M.dropJobs (m : M) (id : Nat) : M :=
  { m with die.cores := m.die.cores.map fun p =>
      (p.1, if (p.2.lodeJob.map (·.manifest)) == some id then { p.2 with lodeJob := none } else p.2) }

/-- Every shard of a manifest is verified. -/
def Manifest.complete (x : Manifest) : Bool := x.shards.all (·.verified)

/-- Whether a step uses the half that a repair of key 2 × core + half rewrites (R382). -/
def M.halfRuns (m : M) (k : Nat) : Bool :=
  m.die.fmn.manifests.any fun x => (x.use == .running || x.use == .draining) && (!x.split || x.half == k % 2)

/-! ## A new epoch runs -/

/-- Frames of a manifest given back: all of them, or none while RETAIN keeps them (R368). -/
def Manifest.release (x : Manifest) : Manifest := { x with shards := x.shards.map fun s => { s with frame := none } }

/-- RETAIN is 0: no frame keeps a verified shard of the running epoch (R368). -/
def M.dropRetained (m : M) : M :=
  if m.flag FMN_WT_CTRL 0 then m
  else
    { m with die.fmn.manifests := m.die.fmn.manifests.map fun x =>
        if x.use = .running then
          { x with shards := x.shards.map fun s => if s.verified then { s with frame := none } else s }
        else x }

/-- Relay shards of a model's epoch are held until its flip or load completes (R371). -/
def M.dropRelays (m : M) (model epoch : Nat) : M :=
  { m with die.fmn.manifests := m.die.fmn.manifests.filter fun x => !(x.use == .relay && x.model == model && x.epoch == epoch) }

/-- A manifest becomes the running one; its shards are retained while RETAIN is 1 (R368, R385). -/
def M.becomeRunning (m : M) (id : Nat) : M :=
  let retain := m.flag FMN_WT_CTRL 0
  let m := m.updManifest id fun x =>
    let x := { x with use := .running }
    if retain then x else x.release
  match m.manifest id with
  | some x =>
    (((m.dropRelays x.model x.epoch).setFld FMN_WT_STATUS 63 48 x.epoch).setFld FMN_WT_STATUS 7 7 (bit x.split)).setFld FMN_WT_STATUS 6 6
      (if x.split then x.half else 0)
  | none => m

end Sys2Proof.Machine
end

