-- ==== Sys2Proof/Machine/Attest.lean ====
section
/-! DEFINITION. Attestation reports (R560 to R562, Table 15.5). -/
namespace Sys2Proof.Machine

/-- A measurement of Table 15.5. -/
def measurement (stage slot svn version : Nat) (digest : Bytes) : Bytes :=
  toBytes 1 stage ++ toBytes 1 slot ++ zeros 2 ++ toBytes 4 svn ++ toBytes 8 version ++ digest

/-- The five measurements of the boot (R554): three firmware stages, all of the running slot (R555), then the configuration record
and the field repairs, whose SLOT, SVN and VERSION are free (log entry 98). -/
def M.measurements (m : M) : Bytes :=
  let slotB := m.flag HDF_STATUS 0
  let x := slotHeader (hdfSlot slotB m.die.hdf)
  let digest := fun (i : Nat) => (toBytes 32 (m.die.hdf.measurements.getD i 0)).reverse
  let fw := fun (i : Nat) => measurement i (bit slotB) x.svn x.version (digest i)
  let free := fun (i : Nat) => measurement i (Config.measurementFree i 0).toNat (Config.measurementFree i 1).toNat
    (Config.measurementFree i 2).toNat (digest i)
  fw 0 ++ fw 1 ++ fw 2 ++ free 3 ++ free 4

/-- The entry of a loaded model, with the manifest that runs. -/
def M.modelEntry (m : M) (x : Model) : Bytes :=
  let man := m.manifestFor .running
  let digest := match man with
    | some y => y.digest
    | none => zeros 32
  toBytes 1 x.index ++ toBytes 1 (bit x.split) ++ toBytes 2 m.runEpoch ++ zeros 12 ++ slice digest 0 32 ++
    slice x.programDigest 0 32

/-- The bytes that the signature covers. -/
def M.attestBody (m : M) (nonce : Bytes) : Bytes :=
  let models := m.die.fmn.models.map (·.2)
  toBytes 4 0x33544154 ++ toBytes 2 1 ++ toBytes 1 5 ++ toBytes 1 models.length ++ slice nonce 0 32 ++
    toBytes 8 m.die.ft ++ toBytes 8 (m.regN FMN_DET_BIR) ++ toBytes 8 Config.serial.toNat ++
    m.die.hdf.logTip ++ toBytes 8 m.die.hdf.logSeq ++ toBytes 4 (m.regN HDF_BOOT_CNT) ++
    toBytes 4 (m.fld FTC_STATUS 3 0) ++ m.measurements ++ (models.map m.modelEntry).flatten

/-- A report, signed with the module key. -/
def M.attestReport (m : M) (nonce : Bytes) : Bytes :=
  let body := m.attestBody nonce
  body ++ toBytes 64 (Config.sm2Signature 0 body).toNat

/-- A report is taken between two steps, and never while a flip's copy runs (R562). -/
def M.attestReady (m : M) : Bool :=
  !m.inStep && match m.die.fmn.flip with
    | some f => !f.copying
    | none => true

/-- The answer to a Redfish request: HTTP status and body. -/
def M.redfishAnswer (m : M) (status : Nat) (body : Bytes) : M :=
  m.updHdf fun h => { h with redfishStatus := status, redfishBody := body }

/-- A request served; its status is not given (log entry 99). -/
def M.redfishServed (m : M) (body : Bytes) : M := m.redfishAnswer (Config.redfishStatus 0).toNat body

/-- A request not served for a reason R567 does not name; its status is not given (log entry 99). -/
def M.redfishRefused (m : M) : M := m.redfishAnswer (Config.redfishStatus 1).toNat []

/-- A request answered: with the report, and the certificate chain behind it through Redfish (Table 15.8); refused while
IDENTITY_OK is 0 (R561). -/
def M.attestAnswer (m : M) (nonce : Bytes) (redfish : Bool) : M :=
  let ok := m.flag HDF_STATUS 1
  let report := if ok then m.attestReport nonce else []
  let m := m.updHdf fun h => { h with attestReport := report }
  if !redfish then m else if ok then m.redfishServed (report ++ Config.deviceCertificate) else m.redfishRefused

/-- The waiting requests answered once an instant between two steps has come. -/
def M.answerAttest (m : M) : M :=
  if m.attestReady then
    m.die.hdf.attestWaiting.foldl (fun m a =>
      (m.attestAnswer a.1 a.2).updHdf fun h => { h with attestWaiting := h.attestWaiting.drop 1 }) m
  else m

/-- An attestation request (R562). -/
def M.attest (m : M) (nonce : Bytes) (redfish : Bool) : M :=
  if m.die.hdf.firmwareSince.isSome then
    (m.updHdf fun h => { h with attestWaiting := h.attestWaiting ++ [(nonce, redfish)] }).answerAttest
  else m

def execAttest (nonce : Bytes) : State → Host.Outcome State Fault Refusal := onManaged (M.attest · nonce false)

end Sys2Proof.Machine
end

