-- ==== Sys2Proof/Machine/Parking.lean ====
section
/-! DEFINITION. Parking, resume and expiry (R304 to R310). -/
namespace Sys2Proof.Machine

/-! ## Units (R304, R307) -/

/-- Elements of a page, and bytes of its parked unit. -/
def Geometry.elements (g : Geometry) : Nat := 2 * g.hkv * 2 ^ g.log2 * g.d
def Geometry.unit (g : Geometry) : Nat := g.elements * 17 / 32

/-- The head and half, keys or values, of element `i` of a page, and its position (R271). -/
def Geometry.halfElements (g : Geometry) : Nat := g.hkv * 2 ^ g.log2 * g.d
def Geometry.headOf (g : Geometry) (i : Nat) : Nat := i % g.halfElements / (2 ^ g.log2 * g.d)
def Geometry.isValue (g : Geometry) (i : Nat) : Nat := i / g.halfElements
def Geometry.position (g : Geometry) (i : Nat) : Nat := i % (2 ^ g.log2 * g.d) / g.d

/-- The values of a page's elements, its page scales included. -/
def pageValues (g : Geometry) (scale data : Bytes) : List Flt :=
  (chunks (kvBytes g.fmt) g.elements data).zipIdx.map fun (b, i) =>
    let x := fpDecode (fmtOf g.fmt) (ofBytes b)
    if g.fmt = 5 then x else mxApply (byteAt scale (2 * g.headOf i + g.isValue i)) x

/-- A list cut into pieces of `n`. -/
def pieces {α : Type} (n : Nat) : Nat → List α → List (List α)
  | 0, _ => []
  | k + 1, l => l.take n :: pieces n k (l.drop n)

/-- Two E2M1 elements to a byte, the lower index in bits [3:0] (R104). -/
def packNibbles : List Nat → Bytes
  | a :: b :: l => BitVec.ofNat 8 (a + 16 * b) :: packNibbles l
  | [a] => [BitVec.ofNat 8 a]
  | [] => []

/-- The parked unit of a page. -/
def parkUnit (g : Geometry) (scale data : Bytes) : Bytes :=
  let bl := (pieces 32 (g.elements / 32) (pageValues g scale data)).map (quantBlock 4)
  packNibbles (bl.flatMap (·.2.1)) ++ bl.map fun b => BitVec.ofNat 8 b.1

/-- The page scale of a head's keys or values in a unit (R307); blocks whose scale byte is 0xFF hold NaNs and have no
exponent (log entry 74). -/
def resumeScale (g : Geometry) (unit : Bytes) (head isValue : Nat) : Nat :=
  let per := 2 ^ g.log2 * g.d / 32
  let first := isValue * (g.halfElements / 32) + head * per
  let top := ((List.range per).map fun i => byteAt unit (g.elements / 2 + first + i)).foldl
    (fun a b => if b = 0xFF then a else max a b) 0
  top - (if g.fmt = 0 then 6 else 13)

/-- The scale entry of a rebuilt page. -/
def resumeScales (g : Geometry) (unit : Bytes) : Bytes :=
  if g.fmt = 5 then zeros 16
  else slice ((List.range g.hkv).flatMap fun h =>
    toBytes 1 (resumeScale g unit h 0) ++ toBytes 1 (resumeScale g unit h 1)) 0 16

/-- The values of a parked unit's elements. -/
def unitValues (g : Geometry) (unit : Bytes) : List Flt :=
  let scales := slice unit (g.elements / 2) (g.elements / 32)
  ((slice unit 0 (g.elements / 2)).flatMap fun b => [b.toNat % 16, b.toNat / 16]).zipIdx.map fun (x, i) =>
    mxApply (byteAt scales (i / 32)) (fpDecode fmtE2M1 x)

/-- A page rebuilt for the positions below `valid`, zero beyond: its bytes and the elements rounded. -/
def resumePage (g : Geometry) (unit scale : Bytes) (valid : Nat) : Bytes × Nat :=
  let rs := (unitValues g unit).zipIdx.map fun (x, i) =>
    if valid ≤ g.position i then (0, false)
    else
      let y := if g.fmt = 5 then x else fltScale (127 - (byteAt scale (2 * g.headOf i + g.isValue i) : Int)) x
      let (r, o) := narrow g.fmt true y
      (r, o == Narrow.plain && !fltEq (fpDecode (fmtOf g.fmt) r) y || o == Narrow.overflow)
  (rs.flatMap fun r => toBytes (kvBytes g.fmt) r.1, (rs.filter (·.2)).length)

/-! ## Plans -/

/-- The real pages of a layer on a stack: their indices, passing over entries without a page (R644). -/
def M.layerIndices (m : M) (slot s root layer : Nat) : List Nat :=
  (m.leaves s root layer).zipIdx.filterMap fun (e, k) =>
    if e.page = noPage then none else some (stackClass slot layer s + 32 * k)

/-- Every layer of a request on every stack, with its page indices. -/
def M.parkPlan (m : M) (slot root : Nat) (g : Geometry) : List ParkLayer :=
  (List.range seamStacks).flatMap fun s =>
    (List.range g.layers).map fun l =>
      { stack := s, layer := l, indices := m.layerIndices slot s root l, pages := [], blocks := [] }

/-- Pages that parked units of a layer take (R305). -/
def parkedPages (g : Geometry) (x : ParkLayer) : Nat := ceilDiv (x.indices.length * g.unit) pageSize

/-- Entries of the leaf chain that resume rebuilds: up to the last index. -/
def resumeEntries (x : ParkLayer) : Nat := x.indices.foldl (fun n i => max n (i / 32 + 1)) 0

/-- Every stack has room for what a plan needs: pages and table blocks by layer (R306). -/
def M.planFits (m : M) (plan : List ParkLayer) (pages blocks : ParkLayer → Nat) : Bool :=
  (List.range seamStacks).all fun s =>
    let xs := plan.filter fun x => x.stack == s
    m.roomFor s (sumBy xs pages) (sumBy xs blocks)

/-- A plan's pages reserved: each gets the ledger state and the index `index` names for its place. -/
def M.reservePlan (m : M) (slot state : Nat) (plan : List ParkLayer) (pages blocks : ParkLayer → Nat)
    (index : ParkLayer → Nat → Nat) : List ParkLayer × M :=
  plan.foldl (fun (xs, m) x =>
    let (ps, m) := (List.range (pages x)).foldl (fun (ps, m) i =>
      let (p, m) := m.allocPage x.stack state slot x.layer (index x i)
      (ps ++ p.toList, m)) ([], m)
    let (bs, m) := m.takeBlocks x.stack slot (blocks x)
    (xs ++ [{ x with pages := ps, blocks := bs }], m)) ([], m)

/-! ## PARK and RESUME (Table 14.5) -/

/-- The slot an entry names, and whether everything outside its arguments is zero (Table 14.3, R530). -/
def M.entrySlot (m : M) (e : Nat) : Nat := m.carveN (e + 4) 4

def M.entryClean (m : M) (e : Nat) (args : List (Nat × Nat)) : Bool :=
  decide (m.entrySlot e < tallySlots) && m.carveN (e + 2) 2 == 0 &&
    (List.range 120).all fun i =>
      let o := 8 + i
      args.any (fun a => decide (a.1 ≤ o) && decide (o < a.1 + a.2)) || m.carveN (e + o) 1 == 0

/-- PARK of a DECODE slot (R305, R306, R310). -/
def M.parkStart (m : M) (ring i slot ttl : Nat) : M × Option Nat :=
  if m.inBatch slot || (mapGet m.die.parkJobs slot).isSome then (m, some ccBUSY)
  else if m.tState slot ≠ tDECODE then (m, some ccSTATE)
  else
    let root := m.tRoot slot / 32
    let g := geometryOf (m.requestWord slot)
    let plan := m.parkPlan slot root g
    let m := m.noteRequest root g.layers 5
    if !m.planFits plan (parkedPages g) (fun _ => 0) then (m, some ccNO_PAGE)
    else
      let (layers, m) := m.reservePlan slot lPARKED plan (parkedPages g) (fun _ => 0) fun _ i => i
      let m := if ttl = 0xFFFFFFFF then m else m.setTally slot oTTL 4 ttl
      ({ m with die.parkJobs := mapSet m.die.parkJobs slot { resume := false, ring, entry := i, layers } }, none)

def M.park (m : M) (r : Nat) : M :=
  m.ringCommand r 0x03 fun e i m =>
    if m.entryClean e [(8, 4)] then (m.tallyUnit (m.entrySlot e)).parkStart r i (m.entrySlot e) (m.carveN (e + 8) 4) else (m, some ccINVALID)

def execPark (ring : Nat) : State → Host.Outcome State Fault Refusal := onLive (M.park · ring)

/-- RESUME of a PARKED slot: accepted before the expiry time, it cancels the expiry; at or after it the request is
EXPIRED, freed already or not (R306, R309, R310). -/
def M.resumeStart (m : M) (ring i slot : Nat) : M × Option Nat :=
  if m.inBatch slot || (mapGet m.die.parkJobs slot).isSome then (m, some ccBUSY)
  else if m.tState slot = tEXPIRED then (m, some ccEXPIRED)
  else if m.tState slot ≠ tPARKED then (m, some ccSTATE)
  else
    let p := mapGetD m.die.parked slot { expiry := none, layers := [] }
    if (p.expiry.map fun t => decide (t ≤ m.die.ft)) = some true then (m, some ccEXPIRED)
    else
      let root := m.tRoot slot / 32
      let blocks := fun (x : ParkLayer) => chainBlocks (resumeEntries x) - (m.chain x.stack root x.layer).length
      let pages := fun (x : ParkLayer) => x.indices.length
      if !m.planFits p.layers pages blocks then (m, some ccNO_PAGE)
      else
        let (layers, m) := m.reservePlan slot lLIVE p.layers pages blocks fun x i => x.indices.getD i 0
        ({ m with
            die.parkJobs := mapSet m.die.parkJobs slot { resume := true, ring, entry := i, layers }
            die.parked := mapSet m.die.parked slot { p with expiry := none } }, none)

def M.resume (m : M) (r : Nat) : M :=
  m.ringCommand r 0x04 fun e i m =>
    if m.entryClean e [] then (m.tallyUnit (m.entrySlot e)).resumeStart r i (m.entrySlot e) else (m, some ccINVALID)

def execResume (ring : Nat) : State → Host.Outcome State Fault Refusal := onLive (M.resume · ring)

/-! ## Completion -/

/-- PARKED in every root block of a request. -/
def M.setParked (m : M) (root : Nat) (v : Bool) : M :=
  (List.range seamStacks).foldl (fun m s =>
    let w := m.rootWord s (32 * root)
    if w.testBit 24 == v then m else m.stateWriteN (m.blockAddr s root) 4 (w ^^^ 2 ^ 24) 5) m

/-- The bytes of a layer's parked units written over its new pages, and the chain that names them (R305). -/
def M.parkLayer (m : M) (root : Nat) (g : Geometry) (x : ParkLayer) : M :=
  let blocks := m.chain x.stack root x.layer
  let old := (m.leaves x.stack root x.layer).filter fun e => e.page != noPage
  let m := m.noteChain x.stack root x.layer 5
  let (units, m) := old.foldl (fun (us, m) e =>
    let (data, m) := m.stateRead (pageAddr x.stack (e.page / 32)) pageSize 5
    (us ++ parkUnit g e.scale data, m)) ([], m)
  let m := x.pages.zipIdx.foldl (fun m (p, i) => m.stateWrite (pageAddr x.stack p) (slice units (pageSize * i) pageSize) 5) m
  let m := m.storeChain x.stack root x.layer blocks (x.pages.map fun p => { page := p * 32 + x.stack, scale := zeros 16 })
  old.foldl (fun m e => (m.freePage x.stack (e.page / 32)).count (seamReg x.stack SEAM_PARK_PAGE_CNT)) m

/-- Parking completes on the last stack (R305, R308). -/
def M.parkDone (m : M) (slot : Nat) : M :=
  match mapGet m.die.parkJobs slot with
  | some j =>
    if j.resume then m
    else
      let root := m.tRoot slot / 32
      let g := geometryOf (m.requestWord slot)
      let m := (j.layers.foldl (fun m x => m.parkLayer root g x) m).setParked root true
      let ttl := m.tally slot oTTL 4
      let p : Parked := { expiry := if ttl = 0 then none else some (m.die.ft + 1000000 * ttl)
                          layers := j.layers.map fun x => { x with pages := [], blocks := [] } }
      let m := m.setTState slot tPARKED
      { m with die.parkJobs := mapDel m.die.parkJobs slot, die.parked := mapSet m.die.parked slot p }.ringStatus
        j.ring j.entry ccOK
  | none => m

def execParkComplete (slot : Nat) : State → Host.Outcome State Fault Refusal := onLive (M.parkDone · slot)

/-- One page rebuilt (R307). -/
def M.resumeOne (m : M) (g : Geometry) (s page index len : Nat) (unit scale : Bytes) : M :=
  let (bs, rounded) := resumePage g unit scale (len - index * 2 ^ g.log2)
  (m.stateWrite (pageAddr s page) bs 5).countBy (seamReg s SEAM_RESUME_ROUND_CNT) rounded

/-- A layer's pages rebuilt on a stack, its chain restored, and its parked pages freed (R307, R644). -/
def M.resumeLayer (m : M) (root len : Nat) (g : Geometry) (x : ParkLayer) : M :=
  let s := x.stack
  let blocks := m.chain s root x.layer ++ x.blocks
  let old := m.leaves s root x.layer
  let m := m.noteChain s root x.layer 5
  let (data, m) := old.foldl (fun (d, m) e =>
    let (bs, m) := m.stateRead (pageAddr s (e.page / 32)) pageSize 5
    (d ++ bs, m)) ([], m)
  let made := (x.indices.zip x.pages).zipIdx.map fun ((i, p), k) => (i, p, slice data (k * g.unit) g.unit)
  let m := made.foldl (fun m (i, p, u) => m.resumeOne g s p i len u (resumeScales g u)) m
  let entry := fun k => match made.find? fun q => q.1 / 32 == k with
    | some (_, p, u) => ({ page := p * 32 + s, scale := resumeScales g u } : Leaf)
    | none => { page := noPage, scale := zeros 16 }
  let m := m.storeChain s root x.layer blocks ((List.range (resumeEntries x)).map entry)
  old.foldl (fun m e => m.freePage s (e.page / 32)) m

/-- Resume completes on the last stack (R307, Table 8.3). -/
def M.resumeDone (m : M) (slot : Nat) : M :=
  match mapGet m.die.parkJobs slot with
  | some j =>
    if j.resume then
      let root := m.tRoot slot / 32
      let g := geometryOf (m.requestWord slot)
      let len := m.tLen slot
      let m := (j.layers.foldl (fun m x => m.resumeLayer root len g x) m).setParked root false
      let m := m.setTState slot tDECODE
      { m with die.parkJobs := mapDel m.die.parkJobs slot, die.parked := mapDel m.die.parked slot }.ringStatus
        j.ring j.entry ccOK
    else m
  | none => m

def execResumeComplete (slot : Nat) : State → Host.Outcome State Fault Refusal := onLive (M.resumeDone · slot)

/-- The Tally's visit at or after the expiry time of a PARKED request (R308). -/
def M.parkedExpired (m : M) (slot : Nat) : M :=
  match mapGet m.die.parked slot with
  | some p => match p.expiry with
    | some t =>
      if m.tState slot = tPARKED then
        let m := ((m.reach t).freeRequest slot (some SEAM_EXPIRE_PAGE_CNT)).setTState slot tEXPIRED
        { m.count TALLY_EXPIRED_CNT with die.parked := mapDel m.die.parked slot }
      else m
    | none => m
  | none => m

def execParkedExpiry (slot : Nat) : State → Host.Outcome State Fault Refusal := onLive (M.parkedExpired · slot)

end Sys2Proof.Machine
end

