-- ==== Sys2Proof/Machine/Entries.lean ====
section
/-! DEFINITION. How a core starts a step-table entry, and the run of the build's table-load entry (R60, R207, R260, R506, R508,
R535, R641). -/
namespace Sys2Proof.Machine

/-! ## Entries (R60, R207, R260, R641) -/

/-- A core at the first instruction of an entry's program: registers, counts and scrub phase zero. What an earlier entry
left queued or in flight stays (R58, R81, R89). Until an instruction has executed, a schedule fault captures the entry's PC as
that of the last one (R97, log entry 135). -/
def Core.begin (entry pc : Nat) (k : Core) : Core :=
  { Core.halt .running k with
    x := [], pc, lastPc := pc, cycle := 0, instret := 0, phaseBase := 0, slotAt := 0, entry := some entry }

/-- A core starts an entry's program: its predicates come from fixed-bank register 0 (R60, R641). A HALTED or RETIRED
core does not start. -/
def M.startCore (m : M) (c entry pc : Nat) : M :=
  if (m.core c).st = .idle then
    let (ps, m) := (m.updCore c (Core.begin entry pc)).readParams c 0 1
    m.setPreds c (ps.getD 0 0)
  else m

/-- FMN_SEQ_STATUS.RUNNING: entries that run (Table 6.16). -/
def M.showRunning (m : M) : M :=
  match m.die.step with
  | some s => m.setFld FMN_SEQ_STATUS 19 10 (s.entries.filter fun p => p.2 == .running).length
  | none => m.setFld FMN_SEQ_STATUS 19 10 0

/-- An entry starts, at this many cycles from the step's start. -/
def M.startEntry (m : M) (at_ i : Nat) : M :=
  let e := m.entry i
  let m := (m.members i).foldl (fun m c => m.startCore c i e.pc) m
  (m.updStep fun s => { s with
    entries := mapSet s.entries i .running, started := mapSet s.started i at_, holds := mapDel s.holds i }).showRunning

/-! ## The table-load entry (R506, R508, R535; log entry 75) -/

/-- No core waits for the table-load entry any more: a load that waited for it completes (R535). -/
def M.tablesDone (m : M) : M :=
  match m.die.fmn.tableLoad with
  | some mb => { m with die.fmn.tableLoad := none }.mbComplete mb ccOK
  | none => m

/-- The Foreman runs the build's table-load entry on the cores that wait for it, those that are IDLE: a run of the sequencer
between steps, in a step of its own that composes and commits nothing. -/
def M.startTables (m : M) : M :=
  if m.inStep then m
  else
    let cores := m.die.fmn.tableCores.filter fun c => (m.core c).st == .idle
    match cores, m.die.fmn.models with
    | _ :: _, (_, x) :: _ =>
      let i := (Config.tableLoadEntry (ofBytes x.programDigest)).val
      let m := m.applyPatches (m.entry i)
      let s : Step :=
        { number := m.die.stepNumber, attempt := 0, startFt := m.die.ft, firstEntry := i, entryCount := 1, entries := [(i, .waiting)]
          cores, slots := [], error := false, schedFault := false, exhausted := false, peerLost := false, started := [], cycles := 0
          holds := [], members := [(i, cores)], groupAt := none, tables := true }
      let m : M := { m with
        die.step := some s, die.uses := [], die.writes := []
        die.fmn.tableCores := m.die.fmn.tableCores.filter fun c => !cores.contains c }
      (m.setFld FMN_SEQ_STATUS 1 0 2).startEntry 0 i
    | _, _ => m.tablesDone

/-- A core waits for the table-load entry. -/
def M.waitTables (m : M) (c : Nat) : M :=
  if m.die.fmn.models.isEmpty || m.die.fmn.tableCores.contains c then m
  else { m with die.fmn.tableCores := m.die.fmn.tableCores ++ [c] }

end Sys2Proof.Machine
end

