-- ==== Sys2Proof/Machine/Spares.lean ====
section
/-! DEFINITION. Core spares, site retirements, row repairs and router copies (R43, R44, R227, R507 to R515). -/
namespace Sys2Proof.Machine

/-- KIND of a field-repair record in this model (log entry 54). -/
abbrev repairCore : Nat := 1
abbrev repairSite : Nat := 2
abbrev repairRow : Nat := 3
abbrev repairRouter : Nat := 4

/-- A field-repair record written to flash (R507, R553). -/
def M.recordRepair (m : M) (r : FieldRepair) : M := m.flash (.fieldRepair r)

/-! ## Functions under R43 (log entry 55) -/

abbrev fnSpare (site : Nat) : Nat := 16 * site + 2
abbrev fnRows (c : Nat) : Nat := 16 * c + 3
abbrev fnStope (site : Nat) : Nat := 16 * site + 4
abbrev fnRouter (site : Nat) : Nat := 16 * site + 5

/-- A UNIT command waits for a function's transition that runs now (R525). -/
def M.unitWaits (m : M) (n : Nat) : Bool := m.die.fmn.unitWaits.any fun w => w.2.1 == n && !w.2.2

/-! ## Core transitions (R508 to R510) -/

/-- The virtual core `v` of a site mapped onto physical core `p` (R247). -/
def M.setVcore (m : M) (site v p : Nat) : M :=
  if v < 12 then m.setFld (cluReg site CLU_VCORE_MAP) (5 * v + 4) (5 * v) p
  else m.setFld (cluReg site CLU_VCORE_MAP_HI) (5 * (v - 12) + 4) (5 * (v - 12)) p

def M.spareResult (m : M) (site r : Nat) : M := m.setFld (cluReg site CLU_SPARE_STATUS) 3 0 r

/-- Physical core that is a site's spare, 0x1F when none; and whether core `p` is RETIRED (Table 13.12). -/
def M.siteSpareCore (m : M) (site : Nat) : Nat := m.fld (cluReg site CLU_SPARE_STATUS) 8 4
def M.isRetired (m : M) (site p : Nat) : Bool := m.flag (cluReg site CLU_SPARE_STATUS) (9 + p)

/-- Shards whose images stand in a core, that of a split preparation under way too, with their manifests and indices. -/
def M.coreShards (m : M) (core : Nat) : List (Manifest × Shard × Nat) :=
  (m.die.fmn.manifests.filter fun x =>
    x.use == .running || x.use == .draining || (x.use == .preparing && x.split && decide (pWRITING ≤ m.prep))).flatMap fun x =>
      (x.shards.zipIdx.filter fun s => m.shardCore s.1 == core).map fun s => (x, s)

/-- The Foreman can have core `p` retired: the site has a spare, and the shards of the core's images are held (R508). -/
def M.canRetire (m : M) (site p : Nat) : Bool :=
  m.siteSpareCore site != 0x1F && m.siteSpareCore site != p && !m.isRetired site p &&
    (m.coreShards (17 * site + p)).all fun xs => xs.2.1.frame.isSome

/-- A shard's image written into a core that serves the control space at once, as an IDLE spare does (R214, R508). -/
def M.preload (m : M) (q : Nat) (x : Manifest) (s : Shard) (i : Nat) : M :=
  match s.frame with
  | some f =>
    let (bs, m) := m.payload f s.length
    (m.writeImage q x.split x.half bs).updShard x.id i fun s => { s with written := true }
  | none => m

/-- STERLING_NEXT written: the mode is pending until the next step boundary (R118). -/
def M.writeAccMode (m : M) (c : Nat) (v : Bool) : M :=
  ((m.setFld (coreReg c CORE_ACC_MODE) 0 0 (bit v)).setFld (coreReg c CORE_ACC_MODE) 1 1 (bit (m.sterling c != v))).updCore c id

/-- The spare of a site made ready for core `p`'s work: Lode from the retained shards, instruction SRAM and fixed bank from
the model, and the accumulator mode of its load (R483, R508; log entry 54). -/
def M.prepareSpare (m : M) (site p : Nat) : M :=
  let c := 17 * site + p
  let q := 17 * site + m.siteSpareCore site
  let k := 16 * site + m.virtualOf c
  let m := (m.coreShards c).foldl (fun m xs => m.preload q xs.1 xs.2.1 xs.2.2) (m.updCore c fun k => { k with lodeJob := none })
  match m.die.fmn.models with
  | (_, x) :: _ =>
    ((m.writeMem q 4 0 (mapGetD x.images k [])).writeMem q 5 0 (mapGetD x.fixed k [])).writeAccMode q x.sterling
  | [] => m

/-- OP 1: physical core `p` of a site retires and its spare takes its virtual core (R508), to run the table-load entry before
its first step; a core that is RETIRED stays so. -/
def M.retireCore (m : M) (site p : Nat) : M :=
  let a := cluReg site CLU_SPARE_STATUS
  let q := m.siteSpareCore site
  if q = 0x1F then m.spareResult site 2
  else if m.isRetired site p then m.spareResult site 1
  else
    let v := m.virtualOf (17 * site + p)
    let m := if v < 16 then ((m.setVcore site v q).count FMN_CORE_SPARE_CNT).waitTables (17 * site + q) else m
    let m := ((m.setFld a (9 + p) (9 + p) 1).setFld a 8 4 0x1F).spareResult site 1
    let m := m.updCore (17 * site + p) (Core.stopped .retired)
    m.recordRepair { kind := repairCore, site, core := p, memory := q, bank := 0, row := 0 }

/-- OP 2: a RETIRED core becomes the site's spare (R44, R510). -/
def M.returnCore (m : M) (site p : Nat) : M :=
  let a := cluReg site CLU_SPARE_STATUS
  if !m.isRetired site p then m.spareResult site 4
  else if m.siteSpareCore site ≠ 0x1F then m.spareResult site 3
  else
    let m := ((m.setFld a (9 + p) (9 + p) 0).setFld a 8 4 p).spareResult site 1
    m.updCore (17 * site + p) (Core.stopped (m.restSt (17 * site + p)))

/-- A core transition carried out, and the code of a UNIT command that asked for it (R510). -/
def M.spareOp (m : M) (site op p : Nat) : Nat × M :=
  let m := if op = 1 then m.retireCore site p else m.returnCore site p
  (if m.fld (cluReg site CLU_SPARE_STATUS) 3 0 = 1 then ccOK else ccSTATE, m)

/-- A latched core transition carried out in its turn: none where the site is in the state it asks for (R515), and for a UNIT
command a retirement only after its preload (R508, R509). -/
def M.spareTurn (m : M) (site op p : Nat) : Nat × M :=
  if (if op = 1 then m.isRetired site p else m.siteSpareCore site == p) then (ccOK, m)
  else if op = 1 ∧ m.unitWaits (fnSpare site) then
    if m.canRetire site p then (m.prepareSpare site p).spareOp site op p else (ccSTATE, m)
  else m.spareOp site op p

/-- The pending core transition of a site carried out, and after it the latched one, from the state it left (R43,
R515). -/
def M.runSpare (m : M) (site : Nat) : M :=
  match (m.site site).sparePending with
  | none => m
  | some (op, p) =>
    let (code, m) := m.spareOp site op p
    let m := (m.updSite site fun s => { s with sparePending := none }).unitDone (fnSpare site) code
    let m := match (m.site site).spareLatched with
      | some (op, p) =>
        let (code, m) := (m.unitTurn (fnSpare site)).spareTurn site op p
        (m.updSite site fun s => { s with spareLatched := none }).unitDone (fnSpare site) code
      | none => m
    m.setFld (cluReg site CLU_SPARE_CMD) 63 63 0

/-- A write of CLU_SPARE_CMD: at the next step boundary, which is now while no step runs; a write while one is pending
is latched (R43, R509, R514). CORE names cores 0 to 16: another value, or OP 0 or 3, asks for nothing. -/
def M.spareCommand (m : M) (site op p : Nat) : M :=
  let a := cluReg site CLU_SPARE_CMD
  let m := (m.setFld a 9 8 op).setFld a 4 0 p
  if (op ≠ 1 ∧ op ≠ 2) ∨ 16 < p then m
  else if (m.site site).sparePending.isSome then
    (m.latchBehind (fnSpare site) (m.site site).spareLatched.isSome).updSite site fun s => { s with spareLatched := some (op, p) }
  else
    let m := (m.updSite site fun s => { s with sparePending := some (op, p) }).setFld a 63 63 1
    if m.inStep then m else (m.runSpare site).startTables

def execCoreRetire (c : Nat) : State → Host.Outcome State Fault Refusal := onLive (M.spareCommand · (c / 17) 1 (c % 17))

def execCoreReturn (c : Nat) : State → Host.Outcome State Fault Refusal := onLive (M.spareCommand · (c / 17) 2 (c % 17))

/-! ## Site retirement (R511) -/

/-- A row of the mesh has a site retirement on record, in flash or on its way there, so its spare site is in use (R511). -/
def M.rowSpareUsed (m : M) (row : Nat) : Bool :=
  m.die.hdf.repairs.any (fun r => r.kind == repairSite && r.site / 17 == row) ||
    (m.die.hdf.flashQueue ++ (m.die.hdf.flashRunning.map (·.1)).toList).any fun q => match q with
      | .fieldRepair r => r.kind == repairSite && r.site / 17 == row
      | _ => false

/-- A site's retirement: recorded, to take effect at the next module reset, and until then no step starts and no load is
accepted. A row whose spare site is in use cannot retire a second one, and the module then serves no model that needs 128
sites (R511). -/
def M.retireSite (m : M) (site : Nat) : Nat × M :=
  if m.siteSpare site then (ccSTATE, m)
  else if m.rowSpareUsed (site / 17) then (ccSTATE, { m with die.fmn.sitesShort := true })
  else
    let m := m.recordRepair { kind := repairSite, site, core := 0, memory := 0, bank := 0, row := 0 }
    (ccOK, { m with die.fmn.siteRetired := true })

/-! ## Row repair (R219, R512, R513) -/

/-- Spare rows of a bank (R219). -/
def spareRows (mem : Nat) : Nat := if mem = 0 ∨ mem = 7 then 8 else if mem = 1 then 4 else 2

/-- The row-repair register of a core, or of a site for Stope, and its status register. -/
def rowRepairReg (c : Nat) (stope : Bool) : Nat := if stope then cluReg (c / 17) CLU_ROW_REPAIR else coreReg c CORE_ROW_REPAIR

def rowRepairStatus (c : Nat) (stope : Bool) : Nat :=
  if stope then cluReg (c / 17) CLU_ROW_REPAIR_STATUS else coreReg c CORE_ROW_REPAIR_STATUS

/-- Spare rows of a bank that the configuration record has used (R219, Table 15.3). -/
def recordRepairs (c mem bank : Nat) : Nat :=
  (Config.rowRepairs.filter fun (site, core, memory, b, _) =>
    site == c / 17 && (mem == 7 || core == c % 17) && memory == mem && b == bank).length

/-- Spare rows of a bank in use: the configuration record's and those repaired in the field (R219). -/
def M.repairsIn (m : M) (c mem bank : Nat) : Nat :=
  recordRepairs c mem bank +
  if mem = 7 then ((m.site (c / 17)).repaired.filter fun r => r.1 == bank).length
  else ((m.core c).repaired.filter fun r => r.1 == mem && r.2.1 == bank).length

/-- A repair carried out: the row's contents go to a spare row, corrected where correctable, and its address follows
(R512); or its refusal (R513). -/
def M.repairRowNow (m : M) (c mem bank row : Nat) : M :=
  let stope := mem == 7
  let st := rowRepairStatus c stope
  if !(decide (mem ≤ 7) && decide (bank < bankCount mem) && decide (row < bankRows mem bank)) then m.setFld st 3 0 3
  else
    let used := m.repairsIn c mem bank
    if spareRows mem ≤ used then (m.setFld st 3 0 2).setFld st 15 8 0
    else
      let m := m.writeBackRow c mem (rowOffset mem (m.sterling c) bank row)
      let m :=
        if stope then m.updSite (c / 17) fun s => { s with repaired := s.repaired ++ [(bank, row)] }
        else m.updCore c fun k => { k with repaired := k.repaired ++ [(mem, bank, row)] }
      let m := ((m.setFld st 3 0 1).setFld st 15 8 (spareRows mem - used - 1)).count FMN_ROW_REPAIR_CNT
      m.recordRepair { kind := repairRow, site := c / 17, core := c % 17, memory := mem, bank, row }

/-- A repair carried out, and the code of a UNIT command that asked for it (R513). -/
def M.repairOp (m : M) (c mem bank row : Nat) : Nat × M :=
  let m := m.repairRowNow c mem bank row
  (if m.fld (rowRepairStatus c (mem == 7)) 3 0 = 1 then ccOK else ccSTATE, m)

/-- A row that a latched request names has just been repaired: there is nothing left to do (R515). -/
def M.rowThere (m : M) (c mem bank row : Nat) : Bool :=
  if mem = 7 then (m.site (c / 17)).repaired.contains (bank, row) else (m.core c).repaired.contains (mem, bank, row)

/-- A latched repair carried out in its turn (R43, R515). -/
def M.repairTurn (m : M) (c mem bank row : Nat) : Nat × M :=
  if m.rowThere c mem bank row then (ccOK, m) else m.repairOp c mem bank row

/-- The pending repair of a core carried out, and after it the latched one (R43, R515). -/
def M.runCoreRepair (m : M) (c : Nat) : M :=
  match (m.core c).repairPending with
  | none => m
  | some (mem, bank, row) =>
    let (code, m) := m.repairOp c mem bank row
    let m := (m.updCore c fun k => { k with repairPending := none }).unitDone (fnRows c) code
    let m := match (m.core c).repairLatched with
      | some (mem, bank, row) =>
        let (code, m) := (m.unitTurn (fnRows c)).repairTurn c mem bank row
        (m.updCore c fun k => { k with repairLatched := none }).unitDone (fnRows c) code
      | none => m
    m.setFld (rowRepairReg c false) 63 63 0

/-- The pending repair of a site's Stope carried out, and after it the latched one (R43, R515). -/
def M.runStopeRepair (m : M) (site : Nat) : M :=
  match (m.site site).repairPending with
  | none => m
  | some (bank, row) =>
    let (code, m) := m.repairOp (17 * site) 7 bank row
    let m := (m.updSite site fun s => { s with repairPending := none }).unitDone (fnStope site) code
    let m := match (m.site site).repairLatched with
      | some (bank, row) =>
        let (code, m) := (m.unitTurn (fnStope site)).repairTurn (17 * site) 7 bank row
        (m.updSite site fun s => { s with repairLatched := none }).unitDone (fnStope site) code
      | none => m
    m.setFld (rowRepairReg (17 * site) true) 63 63 0

/-- GO of a core's row repair: pending for the next step boundary, which is now while no step runs, or latched. -/
def M.askCoreRepair (m : M) (c mem bank row : Nat) : M :=
  if (m.core c).repairPending.isSome then
    (m.latchBehind (fnRows c) (m.core c).repairLatched.isSome).updCore c fun k => { k with repairLatched := some (mem, bank, row) }
  else
    let m := (m.updCore c fun k => { k with repairPending := some (mem, bank, row) }).setFld (rowRepairReg c false) 63 63 1
    if m.inStep then m else m.runCoreRepair c

/-- GO of a Stope's row repair. -/
def M.askStopeRepair (m : M) (site bank row : Nat) : M :=
  if (m.site site).repairPending.isSome then
    (m.latchBehind (fnStope site) (m.site site).repairLatched.isSome).updSite site fun s => { s with repairLatched := some (bank, row) }
  else
    let m := (m.updSite site fun s => { s with repairPending := some (bank, row) }).setFld (rowRepairReg (17 * site) true) 63 63 1
    if m.inStep then m else m.runStopeRepair site

/-- A write of a row-repair register; GO asks for the repair (Table 13.11). -/
def M.rowRepair (m : M) (c : Nat) (stope : Bool) (value : Word) : M :=
  let r := rowRepairReg c stope
  let mem := if !stope && Machine.fld value 27 24 == 7 then 15 else Machine.fld value 27 24
  let bank := Machine.fld value 20 16
  let row := Machine.fld value 11 0
  let m := ((m.setFld r 27 24 (Machine.fld value 27 24)).setFld r 20 16 bank).setFld r 11 0 row
  if !value.getLsbD 28 then m
  else if stope then m.askStopeRepair (c / 17) bank row
  else m.askCoreRepair c mem bank row

def execRowRepair (c : Nat) (stope : Bool) (value : Word) : State → Host.Outcome State Fault Refusal :=
  onLive (M.rowRepair · c stope value)

/-! ## Routers (R43, R44, R227) -/

/-- A site's other router serves: recorded (R227, R507). -/
def M.switchRouter (m : M) (site v : Nat) : M :=
  if m.fld (cluReg site SHAFT_ROUTER_SEL) 0 0 = v then m
  else (m.setFld (cluReg site SHAFT_ROUTER_SEL) 0 0 v).recordRepair
    { kind := repairRouter, site, core := 0, memory := 0, bank := 0, row := v }

/-- A router request carried out (log entry 93): 0 and 1 select the copy that serves; 2 takes the serving copy out of service and
the other serves; 3 returns the copy that is out of service as the spare, and the one that serves stays in place (R44). -/
def M.routerOp (m : M) (site op : Nat) : Nat × M :=
  let now := m.fld (cluReg site SHAFT_ROUTER_SEL) 0 0
  if op < 2 then (ccOK, m.switchRouter site op)
  else if op = 2 then
    if (m.site site).routerOut.isSome then (ccSTATE, m)
    else (ccOK, (m.switchRouter site (1 - now)).updSite site fun s => { s with routerOut := some now })
  else if (m.site site).routerOut.isNone then (ccSTATE, m)
  else (ccOK, m.updSite site fun s => { s with routerOut := none })

/-- The pending router request of a site carried out, and after it the latched one (R43, R515). -/
def M.runRouter (m : M) (site : Nat) : M :=
  match (m.site site).routerPending with
  | none => m
  | some op =>
    let (code, m) := m.routerOp site op
    let m := (m.updSite site fun s => { s with routerPending := none }).unitDone (fnRouter site) code
    match (m.site site).routerLatched with
    | some op =>
      let (code, m) := (m.unitTurn (fnRouter site)).routerOp site op
      (m.updSite site fun s => { s with routerLatched := none }).unitDone (fnRouter site) code
    | none => m

/-- A router request: at the next step boundary, which is now while no step runs; one behind a pending one is latched (R43,
R514). -/
def M.askRouter (m : M) (site op : Nat) : M :=
  if (m.site site).routerPending.isSome then
    (m.latchBehind (fnRouter site) (m.site site).routerLatched.isSome).updSite site fun s => { s with routerLatched := some op }
  else
    let m := m.updSite site fun s => { s with routerPending := some op }
    if m.inStep then m else m.runRouter site

/-- A write of SHAFT_ROUTER_SEL: from the next step boundary. -/
def M.selectRouter (m : M) (site : Nat) (v : Bool) : M := m.askRouter site (bit v)

/-- What the cores, sites and Rysia lanes do at a step boundary. -/
def M.unitsBoundary (m : M) : M :=
  let m := m.die.cores.foldl (fun m p => (((m.coreBoundary p.1).serveLode p.1).serveDeferred p.1).runCoreRepair p.1) m
  (m.die.sites.foldl (fun m p => ((m.runRouter p.1).runStopeRepair p.1).runSpare p.1) m).lanesBoundary

end Sys2Proof.Machine
end

