-- ==== Sys2Proof/Machine/Epoch.lean ====
section
/-! DEFINITION. Model loads, preparations, flips, drains and the epoch policy (R364 to R366, R372, R373, R377, R383 to
R393, R483, R535). -/
namespace Sys2Proof.Machine

/-! ## The accumulator mode (R483) -/

/-- FMN_DET_STATUS brought up to date; a change is logged with the first step run in the mode (R483). -/
def M.modeStatus (m : M) : M :=
  let cores := m.enabledCores
  let now := cores.all m.sterling
  let m := m.setFld FMN_DET_STATUS 1 1 (bit (cores.any fun c => m.flag (coreReg c CORE_ACC_MODE) 1))
  if m.flag FMN_DET_STATUS 0 = now then m
  else
    let m := (m.setFld FMN_DET_STATUS 0 0 (bit now)).setFld FMN_DET_STATUS 63 32 ((m.die.stepNumber + 1) % 2 ^ 32)
    m.appendLog (Config.eventSeverity 10).val (Config.eventSource 10).val (Config.eventCode 10).toNat
      (toBytes 4 ((m.die.stepNumber + 1) % 2 ^ 32))

/-- The step boundary before a step's first cycle: pending accumulator modes take effect, with the actions of R117, on every
core that is not FAULTED (R118; log entry 32). -/
def M.accBoundary (m : M) : M :=
  (m.die.cores.foldl (fun m p =>
    if m.flag (coreReg p.1 CORE_ACC_MODE) 1 && p.2.st != .faulted then (m.takeAccMode p.1).clearEngines p.1 else m) m).modeStatus

def M.loadMode (m : M) (v : Bool) : M := (m.enabledCores.foldl (fun m c => m.writeAccMode c v) m).modeStatus

/-! ## The epoch policy (R389, R390, Table 9.5) -/

/-- The policy that handles an entry: DRAIN only for the epoch being drained, else the fallback. -/
def M.policyFor (m : M) (slot : Nat) : Nat :=
  let p := if m.fld FMN_WT_CTRL 3 2 = 3 then 0 else m.fld FMN_WT_CTRL 3 2
  if p ≠ 2 then p
  else if (m.die.fmn.drain.map (·.epoch)) = some (m.tally slot oEPOCH 2) then 2
  else bit (m.flag FMN_WT_CTRL 4)

/-- A mismatched entry handled by a policy and counted. -/
def M.applyPolicy (m : M) (slot policy : Nat) : M :=
  let m := (m.setTFlag slot fEPOCH true).count (FMN_EPOCH_POLICY_CNT + 8 * policy)
  let st := m.tState slot
  if policy = 1 ∧ st ≠ tDONE then
    match m.cancelSlot slot with
    | some m => if st = tPARKED ∨ st = tADOPTING then m else m.postEvent slot
    | none => m
  else m

/-- States whose entries a new epoch touches. -/
def mismatchStates : List Nat := [tPREFILL, tDECODE, tPARKED, tADOPTING, tDONE]

/-- One entry as a new epoch begins to run; an ADOPTING one that goes on is handled when it completes (R355). -/
def M.entryEpoch (m : M) (epoch slot : Nat) : M :=
  let st := m.tState slot
  if st = tQUEUED then m.setTally slot oEPOCH 2 epoch
  else if mismatchStates.contains st && m.tally slot oEPOCH 2 != epoch then
    let p := m.policyFor slot
    if st = tADOPTING ∧ p ≠ 1 then m.setTFlag slot fEPOCH true else m.applyPolicy slot p
  else m

/-- A new epoch runs: the Tally follows, and software is told (R389, Table 14.10). -/
def M.epochBegins (m : M) : M :=
  let e := m.runEpoch
  (m.slotsInUse.foldl (fun m s => m.entryEpoch e s) m).raise FMN_HOST_IRQ_EVT 3

/-! ## Loads (R535) -/

/-- A load or preparation is open: LOAD_MODEL until its table-load entry has run (R525, R535). -/
def M.loadBusy (m : M) : Bool := m.die.fmn.openLoad.isSome || m.die.fmn.tableLoad.isSome

/-- Between steps: none in progress and none composed. -/
def M.betweenSteps (m : M) : Bool := !m.inStep && m.die.fmn.composed.isNone

/-- The map of a site's virtual cores: in order over its physical cores, skipping the spare of the configuration record,
which stands in for a core that is out of service (R247, R508). -/
def M.loadVcores (m : M) (site : Nat) : M :=
  let a := cluReg site CLU_SPARE_STATUS
  let skip := (Config.spareCore site).val
  let out := fun p => m.flag a (9 + p) || m.fld a 8 4 == p
  ((List.range 17).filter (· != skip)).zipIdx.foldl (fun m (p, v) => m.setVcore site v (if out p then skip else p)) m

/-- A model's programs and fixed-bank values written into its cores. -/
def M.writePrograms (m : M) (x : Model) : M :=
  let m := x.images.foldl (fun m p => m.writeMem (17 * (p.1 / 16) + m.physical (p.1 / 16) (p.1 % 16)) 4 0 p.2) m
  x.fixed.foldl (fun m p => m.writeMem (17 * (p.1 / 16) + m.physical (p.1 / 16) (p.1 % 16)) 5 0 p.2) m

/-- A step composed and not yet started, for an epoch other than the running one: given up with what brings that epoch
(R384). -/
def M.giveUpFor (m : M) (epoch : Nat) : M :=
  match m.die.fmn.composed with
  | some c => if !m.batchStep && c.attempt == 0 && c.epoch == epoch && epoch != m.runEpoch then m.giveUp c else m
  | none => m

/-- A pending flip or preparation is given up: an EPOCH_FLIP that waits completes with SUPERSEDED, a PREPARE_EPOCH with REFUSED
(Table 14.5, log entry 136). -/
def M.discardPreparation (m : M) : M :=
  let m := match m.die.fmn.flip with
    | some f => { m with die.fmn.flip := none, die.fmn.flipWindow := none }.mbComplete f.mailbox ccSUPERSEDED
    | none => m
  let m := match m.die.fmn.openLoad with
    | some l => if l.isLoad then m else { m with die.fmn.openLoad := none }.mbComplete l.mailbox ccREFUSED
    | none => m
  let m := match m.manifestFor .preparing with
    | some x => (m.giveUpFor x.epoch).dropJobs x.id
    | none => m
  let m : M := { m with die.fmn.manifests := m.die.fmn.manifests.filter fun x => x.use != .preparing }
  (m.setPrep pIDLE).setNextEpoch 0xFFFF

/-- SEAM_REGION of every stack from the build (R268, R535); a load in the place of another leaves it, as it is locked (R11). -/
def M.loadRegions (m : M) (x : Model) : M :=
  if m.die.fmn.models.isEmpty then
    (List.range 32).foldl (fun m s => m.regionWrite s ((Config.seamRegion (ofBytes x.programDigest) s).setWidth 64)) m
  else m

/-- The last part of a load, between steps: programs, tables, Lode images, the accumulator mode and SEAM_REGION, and then the
build's table-load entry on every core (R535, log entry 75). -/
def M.finishLoad (m : M) (l : OpenLoad) : M :=
  let m := m.discardPreparation
  let m : M := { m with
    die.fmn.manifests := m.die.fmn.manifests.filter fun x => x.id == l.manifest || x.use == .relay
    die.fmn.openLoad := none, die.fmn.drain := none, die.fmn.lodeRepairs := []
    die.fmn.assay := Assay.idle }
  let m := m.setFld FMN_WT_STATUS 31 16 0xFFFF
  let m := (List.range 136).foldl (fun m s => if m.siteSpare s then m else m.loadVcores s) m
  let m := ((m.writeMasked tableMask stepTableBase l.model.steps).writeMasked tableMask groupBase l.model.groups).writeMasked
    tableMask patchBase l.model.patches
  let m := (((m.writePrograms l.model).writeImages l.manifest).loadMode l.model.sterling).loadRegions l.model
  let old := m.runEpoch
  let m := m.becomeRunning l.manifest
  let m : M := { m with
    die.fmn.models := [(l.model.index, l.model)], die.fmn.tableCores := m.enabledCores, die.fmn.tableLoad := some l.mailbox }
  let m := if old = m.runEpoch then m else m.epochBegins
  (m.updHdf fun h => { h with firstLoad := true }).promoteServed.equalRegions.accBoundary.startTables

/-- Copy time in nanoseconds: IMAGE_BYTES ÷ 1.6 TB/s, and zero for a split model (R377). -/
def Manifest.copyTime (x : Manifest) : Nat := if x.split then 0 else ceilDiv x.imageBytes 1600

/-- The prepared manifest is ready: verified and, when split, written (R377, R387). -/
def Manifest.ready (x : Manifest) : Bool := x.complete && (!x.split || x.shards.all (·.written))

/-- A prepared manifest is ready: the command completes, and the flip-ready barrier hears of it (R377). -/
def M.prepared (m : M) (l : OpenLoad) (x : Manifest) : M :=
  let m : M := { m with die.fmn.openLoad := none }
  let m := match m.die.fmn.run with
    | some r => m.barArriveOwn r.flipBar 0 x.copyTime
    | none => m
  (m.setPrep pREADY).mbComplete l.mailbox ccOK

/-- A preparation whose shards are all verified: a split image is written into the idle half, but not while a drain
runs; the module is ready once it stands whole (R375, R377, R393). -/
def M.finishPrepare (m : M) (l : OpenLoad) (x : Manifest) : M :=
  if x.split && m.die.fmn.drain.isSome then m
  else
    let m := if x.split && m.prep != pWRITING then (m.setPrep pWRITING).writeImages x.id else m
    match m.manifest x.id with
    | some y => if y.ready then m.prepared l y else m
    | none => m

/-- Relay shards whose fetch found no frame are asked for again (R368, R371). -/
def M.fetchRelays (m : M) : M :=
  (m.die.fmn.manifests.filter fun x => x.use == .relay).foldl (fun m x => m.fetchMissing x.id) m

/-- The open load or preparation goes on as far as it can; a fetch that found no frame is tried again (R368). -/
def M.loadTry (m : M) : M :=
  let m := m.fetchRelays
  match m.die.fmn.openLoad with
  | none => m
  | some l => match m.manifest l.manifest with
    | some x =>
      if !x.complete then m.fetchMissing x.id
      else if !l.isLoad then m.finishPrepare l x
      else if m.betweenSteps then m.finishLoad l
      else m
    | none => m

/-- The core's next scrub slot; a preparation whose last row it writes is ready (R207 to R213, R375, R377). -/
def M.slotAndPrepare (m : M) (c : Nat) : M :=
  let m := m.scrubSlot c
  if m.prep = pWRITING then m.loadTry else m

def execScrubSlot (c : Nat) : State → Host.Outcome State Fault Refusal := onLive (M.slotAndPrepare · c)

/-- A run of free staging frames as long as a manifest, to be named to software: its first and its length; none for a
role with sources unless its fetches find as many free frames beside the run (log entry 77). -/
def M.nameFrames (m : M) (role n : Nat) : (Nat × Nat) × M :=
  let used := m.usedFrames
  let bases := (List.range (stagingFrames + 1 - n)).filter fun b => !used.any fun f => decide (b ≤ f) && decide (f < b + n)
  if !(m.sources role).isEmpty && decide (stagingFrames < used.length + 2 * n) then ((0, 0), m)
  else match bases[m.freeValue % max 1 bases.length]? with
    | some b => ((b, n), m.spend)
    | none => ((0, 0), m)

/-- A manifest taken in, its frames named, and its fetching begun (R535 step 5, R370). -/
def M.openStaging (m : M) (mb : Nat) (man digest : Bytes) (use : ManifestUse) (half : Nat) (model : Model) : M :=
  let id := m.die.fmn.manifestNo
  let x := manifestOf man digest id half use
  let ((b, n), m) := m.nameFrames x.role x.shards.length
  let m := m.writeN (mailboxBase mb + 80) 8 (n * 2 ^ 32 + b)
  let m : M := { m with
    die.fmn.manifestNo := id + 1
    die.fmn.manifests := (m.die.fmn.manifests.filter fun y => y.use != use) ++ [x]
    die.fmn.openLoad := some { mailbox := mb, manifest := id, model, isLoad := use == .loading, frameBase := b, frameCount := n } }
  m.fetchMissing id

/-- LOAD_MODEL's checks in the order of R535: the code of the first that fails. -/
def M.loadCheck (m : M) (mb : Nat) (b man digest : Bytes) : Option Nat :=
  let model := m.mbArg mb 8 1
  if byteAt b 6 ≠ model then some ccINVALID
  else match m.buildCheck b man with
    | some c => some c
    | none =>
      if m.tableRefused b then some ccREFUSED
      else match manifestCheck man digest model with
        | some c => some c
        | none => match m.gridCheck man with
          | some c => some c
          | none =>
            if buildSplit b ≠ (byteAt man 7).testBit 0 then some ccREFUSED
            else if (buildRelocs b).all m.relocOk then none
            else some ccINVALID

/-- LOAD_MODEL (R525, R511, R545, R535). -/
def M.loadModel (m : M) (mb : Nat) : M × Option Nat :=
  let ba := m.mbArg mb 16 8
  let bl := m.mbArg mb 24 8
  let ma := m.mbArg mb 64 8
  let ml := m.mbArg mb 72 4
  let digest := m.read (mailboxBase mb + 32) 32
  if m.loadBusy then (m, some ccBUSY)
  else if !inCarve ba bl || !inCarve ma ml then (m, some ccACCESS)
  else if m.die.fmn.siteRetired || m.die.hdf.loadsRefused then (m, some ccREFUSED)
  else
    let (b, m) := m.stripedRead carveAddr ba bl 2
    let (man, m) := m.stripedRead carveAddr ma ml 2
    match m.loadCheck mb b man digest with
    | some c => (m, some c)
    | none =>
      if m.sitesLack (m.modelOf b) then (m, some ccREFUSED)
      else ((m.openStaging mb man digest .loading 0 (m.modelOf b)).loadTry, none)

/-- LOAD_MODEL is admitted once every stack is filled, and waits in its mailbox until then (R638). -/
def execLoadModel (mb : Nat) : State → Host.Outcome State Fault Refusal :=
  onLive fun m => if m.allFilled then m.mailbox mb 0x20 (M.loadModel · mb) else m

/-- UNLOAD_MODEL: no entry of the model may be in use; programs and Lode are released. -/
def M.unloadModel (m : M) (mb : Nat) : M × Option Nat :=
  let x := m.mbArg mb 8 1
  if m.loadBusy then (m, some ccBUSY)
  else if (mapGet m.die.fmn.models x).isNone then (m, some ccINVALID)
  else if m.slotsInUse.any fun s => m.tModel s == x then (m, some ccSTATE)
  else
    let m := m.discardPreparation
    let m : M := { m with
      die.fmn.models := mapDel m.die.fmn.models x, die.fmn.manifests := [], die.fmn.drain := none, die.fmn.run := none
      die.fmn.composed := none, die.fmn.lodeRepairs := [], die.fmn.restores := [], die.fmn.tableCores := []
      die.fmn.assay := Assay.idle }
    ((m.setFld FMN_WT_STATUS 63 48 0xFFFF).setFld FMN_WT_STATUS 31 16 0xFFFF, some ccOK)

/-- A mailbox command that the Foreman carries out between steps waits while a step is in progress (R529). -/
def M.mailboxBetween (m : M) (mb opcode : Nat) (f : M → M × Option Nat) : M :=
  if m.inStep then m else m.mailbox mb opcode f

def execUnloadModel (mb : Nat) : State → Host.Outcome State Fault Refusal :=
  onLive fun m => m.mailboxBetween mb 0x22 (M.unloadModel · mb)

/-! ## Preparations (R364, R377) -/

/-- PREPARE_EPOCH's checks. -/
def M.prepareCheck (m : M) (man digest : Bytes) (x : Model) : Option Nat :=
  match manifestCheck man digest x.index with
  | some c => some (if c = ccMISMATCH then ccREFUSED else c)
  | none =>
    let epoch := numAt man 8 2
    if (m.gridCheck man).isSome || slice man 32 32 != x.programDigest || epoch == m.runEpoch ||
        (m.die.fmn.drain.map (·.epoch)) == some epoch || (byteAt man 7).testBit 0 != x.split then some ccREFUSED
    else none

/-- A role that a ROLE record gives to another module: this module serves its shards to others only (R368, R371; log entry
77). -/
def M.roleElsewhere (m : M) (role : Nat) : Bool :=
  match mapGet m.die.fmn.roles role with
  | some id => id != m.moduleId
  | none => false

/-- A manifest taken in to be relayed, and its fetching begun (R368, R371; log entry 77). -/
def M.openRelay (m : M) (man digest : Bytes) : M :=
  let id := m.die.fmn.manifestNo
  let x := manifestOf man digest id 0 .relay
  let m : M := { m with
    die.fmn.manifestNo := id + 1
    die.fmn.manifests :=
      (m.die.fmn.manifests.filter fun y => !(y.use == .relay && y.role == x.role && y.model == x.model)) ++ [x] }
  m.fetchMissing id

/-- PREPARE_EPOCH: one preparation at a time (R525). A manifest of another module's role is relayed (log entry 77). -/
def M.prepareEpoch (m : M) (mb : Nat) : M × Option Nat :=
  let ma := m.mbArg mb 64 8
  let ml := m.mbArg mb 72 4
  if m.loadBusy || (m.manifestFor .preparing).isSome then (m, some ccBUSY)
  else if !inCarve ma ml then (m, some ccINVALID)
  else match mapGet m.die.fmn.models (m.mbArg mb 8 1) with
    | none => (m, some ccREFUSED)
    | some x =>
      let digest := m.read (mailboxBase mb + 32) 32
      let (man, m) := m.stripedRead carveAddr ma ml 2
      if m.roleElsewhere (numAt man 10 2 % 4096) then
        match manifestCheck man digest x.index with
        | some c => (m, some (if c = ccMISMATCH then ccREFUSED else c))
        | none => if (m.gridCheck man).isSome then (m, some ccREFUSED) else (m.openRelay man digest, some ccOK)
      else match m.prepareCheck man digest x with
      | some c => (m, some c)
      | none =>
        let m := (m.setPrep pFETCHING).setNextEpoch (numAt man 8 2)
        ((m.openStaging mb man digest .preparing (1 - m.runHalf) x).loadTry, none)

def execPrepareEpoch (mb : Nat) : State → Host.Outcome State Fault Refusal :=
  onLive fun m => m.mailbox mb 0x23 (M.prepareEpoch · mb)

/-- CANCEL_PREPARE: the preparation and its staged shards go (R373). -/
def M.cancelPrepare (m : M) (mb : Nat) : M × Option Nat :=
  match m.manifestFor .preparing with
  | some x =>
    if x.model ≠ m.mbArg mb 8 1 ∨ (m.die.fmn.flip.map (·.copying)) = some true then (m, some ccNOT_READY)
    else (m.discardPreparation, some ccOK)
  | none => (m, some ccNOT_READY)

/-! ## Shards that arrive (R365, R366, R369, R372) -/

/-- SHARD_POST: a header in the carve-out and a payload in a named frame (R369). -/
def M.shardPost (m : M) (mb : Nat) : M × Option Nat :=
  let frame := m.mbArg mb 8 4
  let ha := m.mbArg mb 16 8
  match m.die.fmn.openLoad with
  | none => (m, some ccNOT_READY)
  | some l =>
    if stagingFrames ≤ frame || !inCarve ha shardHeader then (m, some ccACCESS)
    else if frame < l.frameBase ∨ l.frameBase + l.frameCount ≤ frame then (m, some ccINVALID)
    else
      let (h, m) := m.stripedRead carveAddr ha shardHeader 2
      match m.heldShard (numAt h 10 2) (numAt h 8 2) (byteAt h 6) (numAt h 14 2) with
      | some (x, i, s) =>
        if s.verified then (m.count FMN_WT_DUP_CNT, some ccOK)
        else
          let (p, m) := m.payload frame s.length
          if shardOk x i s h p then ((m.shardVerified x i frame h).loadTry, some ccOK)
          else (m.count FMN_WT_DIGEST_ERR_CNT, some ccDIGEST)
      | none => (m.count FMN_WT_UNMATCHED_CNT, some ccDIGEST)

def execShardPost (mb : Nat) : State → Host.Outcome State Fault Refusal := onLive fun m => m.mailbox mb 0x21 (M.shardPost · mb)

/-- A segment landed: its header bytes kept, its payload bytes written into the frame. -/
def M.landSegment (m : M) (x : Manifest) (i f off : Nat) (body : Bytes) : M :=
  let h := body.take (shardHeader - off)
  let p := body.drop (shardHeader - off)
  let m := m.updShard x.id i fun s => { s with
    header := if off < shardHeader then patchBytes (slice s.header 0 shardHeader) off h else s.header
    landed := (off, body.length) :: s.landed }
  if p.isEmpty then m
  else m.stripedWrite stagingAddr (frameSize * f + (off - shardHeader)) (p.take (frameSize - (off - shardHeader))) 4

/-- How far the landed segments reach without a gap, where they reach to `n`: one pass over them. -/
def Shard.reach (s : Shard) (n : Nat) : Nat :=
  s.landed.foldl (fun n r => if r.1 ≤ n then max n (r.1 + r.2) else n) n

/-- Every byte of a shard has landed, however the segments cut it. -/
def Shard.allLanded (s : Shard) (total : Nat) : Bool :=
  decide (total ≤ s.landed.foldl (fun n _ => s.reach n) 0)

/-- The frame that a shard's bytes land in: its own, or one taken now (R368). -/
def M.frameFor (m : M) (x : Manifest) (i : Nat) (s : Shard) : Option Nat × M :=
  match s.frame with
  | some f => (some f, m)
  | none =>
    let (f, m) := m.takeFrame
    (f, m.updShard x.id i fun s => { s with frame := f })

/-- A segment of a shard (R365, R366). A shard that matches nothing held, or one verified already, is counted at its last
segment. -/
def M.shardData (m : M) (msg : Bytes) : M :=
  let off := msgTs msg 20 4
  let total := msgTs msg 24 4
  let body := msgBody msg
  let last := off + body.length == total
  match m.namedShard msg with
  | none => if last then m.count FMN_WT_UNMATCHED_CNT else m
  | some (x, i, s) =>
    if s.verified then if last then m.count FMN_WT_DUP_CNT else m
    else match m.frameFor x i s with
      | (none, m) => m
      | (some f, m) =>
        let m := m.landSegment x i f off body
        match m.shard x.id i with
        | none => m
        | some s =>
          if !s.allLanded total then m
          else
            let (p, m) := m.payload f s.length
            if total = shardHeader + s.length && shardOk x i s s.header p then ((m.shardVerified x i f s.header).loadTry)
            else (m.count FMN_WT_DIGEST_ERR_CNT).shardAgain x i

def execShardDataReceive (msg : Bytes) : State → Host.Outcome State Fault Refusal := onLive (M.shardData · msg)

/-- NOT_HELD from the source that a shard is asked of (R372). -/
def M.notHeld (m : M) (msg : Bytes) : M :=
  match m.namedShard msg with
  | some (x, i, s) =>
    if s.verified || s.requested.isNone || m.currentSource x s != some (msgSrc msg) then m else m.shardAgain x i
  | none => m

def execNotHeldReceive (msg : Bytes) : State → Host.Outcome State Fault Refusal := onLive (M.notHeld · msg)

/-- A shard has not arrived within TIMEOUT_MS of its request (R372). -/
def M.shardTimeout (m : M) (id i : Nat) : M :=
  match m.manifest id, m.shard id i with
  | some x, some s => match s.requested with
    | some t =>
      let m := (m.reach (t + 1000000 * max 1 (m.fld FMN_WT_CTRL 63 48))).count FMN_WT_TIMEOUT_CNT
      m.shardAgain x i
    | none => m
  | _, _ => m

def execShardTimeout (manifest index : Nat) : State → Host.Outcome State Fault Refusal :=
  onLive (M.shardTimeout · manifest index)

/-! ## Flips (R383 to R388) -/

/-- EPOCH_FLIP (R383, R388): a later command replaces a pending flip before its T, and is refused from then on. A
composed step that has not started and whose epoch the new T changes is given up, to be composed again (R384). -/
def M.epochFlip (m : M) (mb : Nat) : M × Option Nat :=
  let model := m.mbArg mb 8 1
  let t := m.mbArg mb 16 8
  let u := m.mbArg mb 24 8
  match m.manifestFor .preparing with
  | none => (m, some ccNOT_READY)
  | some x =>
    if x.model ≠ model ∨ (m.prep ≠ pREADY ∧ m.prep ≠ pFLIP_PENDING ∧ m.prep ≠ pCOPYING) then (m, some ccNOT_READY)
    else if (m.die.fmn.flip.map fun f => f.copying || decide (f.t ≤ m.die.ft)) = some true then (m, some ccBUSY)
    else if u < t then (m, some ccINVALID)
    else
      let m := match m.die.fmn.flip with
        | some f => { m with die.fmn.flip := none }.mbComplete f.mailbox ccSUPERSEDED
        | none => m
      let m := match m.die.fmn.composed with
        | some c =>
          if m.batchStep || c.attempt != 0 || decide (c.start < t) && c.epoch == m.runEpoch then m else m.giveUp c
        | none => m
      ({ m with
          die.fmn.flip := some { mailbox := mb, model, t, u, copying := false, heldCounted := false }
          die.fmn.flipWindow := some (t, u) }.setPrep pFLIP_PENDING, none)

/-- The new epoch runs: the flip's command completes, and the old epoch is drained or gone (R385, R386, R388, R391). A step
composed before is given up, to be composed of the entries as the policy leaves them (R389, R391). -/
def M.flipDone (m : M) (f : Flip) (x : Manifest) : M :=
  let m := m.giveUpFor x.epoch
  let draining := x.split && m.fld FMN_WT_CTRL 3 2 == 2
  let old := m.runEpoch
  let m : M := { m with
    die.fmn.manifests := (m.die.fmn.manifests.filter fun y => y.use != .running || draining).map fun y =>
      if y.use == .running then { y.release with use := .draining } else y }
  let m := m.becomeRunning x.id
  let m := match m.manifestFor .draining with
    | some y =>
      { m with die.fmn.drain := some { manifest := y.id, epoch := old, since := m.die.ft } }.setFld FMN_WT_STATUS 31 16 old
    | none => m
  let m : M := { (m.setPrep pIDLE).setNextEpoch 0xFFFF with die.fmn.flip := none }
  (m.epochBegins.count FMN_EPOCH_FLIP_CNT).mbComplete f.mailbox ccOK

/-- A step of the running epoch is under way, or composed and not yet handled: it runs before a flip (R385, R386). -/
def M.oldStepLeft (m : M) : Bool := m.inStep || (m.die.fmn.composed.map (·.epoch)) == some m.runEpoch

/-- No old-epoch step is to come before a flip: its T is here or, for a split model, the next start lies at or after T
(R385, R386). -/
def M.flipNear (m : M) (f : Flip) (x : Manifest) : Bool :=
  decide (f.t ≤ m.die.ft) ||
    x.split && match m.die.fmn.run with | some r => r.period != 0 && decide (f.t ≤ r.next) | none => false

/-! ## Reports the Foreman acts on (R382, R387, R506) -/

/-- A repair that waits (R382). -/
def M.askRepair (m : M) (core half : Nat) : M :=
  let k := 2 * core + half
  if m.die.fmn.lodeRepairs.contains k then m else { m with die.fmn.lodeRepairs := m.die.fmn.lodeRepairs ++ [k] }

/-- The image of a split preparation in a core's half no longer stands whole: the module has lost readiness (R387). -/
def M.unwritten (m : M) (core half : Nat) : M :=
  match m.manifestFor .preparing with
  | some x =>
    if x.split && x.half == half then
      x.shards.zipIdx.foldl (fun m p =>
        if m.shardCore p.1 == core then m.updShard x.id p.2 fun s => { s with written := false } else m) m
    else m
  | none => m

/-- What the Foreman does with an error reported to it beside its part in a fault: a Lode error asks for a repair, an
error in instruction SRAM or Smelter tables during a step asks for a restore (R382, R506). -/
def M.takeReport (m : M) (e : ErrorReport) : M :=
  let core := e.inst / 32 * 17 + e.inst % 32
  if e.block = 0 ∧ e.memory = 0 ∧ (e.cls = 4 ∨ e.cls = 15) then
    let half := if (m.manifestFor .running).map (·.split) = some true then e.row / unitRows else 0
    (m.unwritten core half).askRepair core half
  else if e.cls = 5 ∧ !m.die.fmn.restores.contains core then { m with die.fmn.restores := m.die.fmn.restores ++ [core] }
  else m

def M.takeReports (m : M) : M :=
  let rs := m.die.reports
  { rs.foldl M.takeReport m with die.reports := [] }

/-- The reports that a pending flip is to know of, between steps (R387). -/
def M.flipReports (m : M) : M := if m.die.fmn.flip.isSome && !m.inStep then m.takeReports else m

/-- A flip with no old-epoch step left and the module ready: from T on a whole model's copy begins, and a split model's new
epoch runs from the commit of the last old-epoch step (R385 to R387). -/
def M.flipGo (m : M) : M :=
  match m.die.fmn.flip, m.manifestFor .preparing with
  | some f, some x =>
    if f.copying || !m.flipNear f x || m.oldStepLeft || !x.ready then m
    else if x.split then m.flipDone f x
    else { m with die.fmn.flip := some { f with copying := true } }.setPrep pCOPYING
  | _, _ => m

/-- The flip where it stands, by the control region's copy of fabric time (R467). -/
def M.flipDue (m : M) : M := if m.copyStale then m else m.flipReports.flipGo

def M.flipTime (m : M) : M :=
  match m.die.fmn.flip with
  | some f => if m.copyStale then m else (m.reach f.t).flipDue
  | none => m

/-- The copy from staging ends, with no step running (R376, R385). -/
def M.flipCopied (m : M) : M :=
  match m.die.fmn.flip, m.manifestFor .preparing with
  | some f, some x => if f.copying && !m.inStep then ((m.writeImages x.id).flipDone f x).answerAttest else m
  | _, _ => m

/-! ## Drains (R391 to R393) -/

/-- States that keep a drain running. -/
def drainStates : List Nat := [tQUEUED, tPREFILL, tDECODE, tPARKED, tADOPTING]

/-- Entries of an epoch in some of the states. -/
def M.entriesOf (m : M) (epoch : Nat) (states : List Nat) : List Nat :=
  m.slotsInUse.filter fun s => states.contains (m.tState s) && m.tally s oEPOCH 2 == epoch

/-- The drain ends: its remaining entries go to the fallback, and its half becomes the idle half (R392, R393). -/
def M.drainEnds (m : M) : M :=
  match m.die.fmn.drain with
  | none => m
  | some d =>
    if !m.betweenSteps then m
    else
      let m := if (m.entriesOf d.epoch drainStates).isEmpty then m
        else m.reach (d.since + 1000000000 * m.fld FMN_WT_CTRL 43 28)
      let left := m.entriesOf d.epoch (tDONE :: drainStates)
      let m : M := { m.dropManifest d.manifest with die.fmn.drain := none }
      let m := m.setFld FMN_WT_STATUS 31 16 0xFFFF
      (left.foldl (fun m s => m.applyPolicy s (bit (m.flag FMN_WT_CTRL 4))) m).loadTry

def execDrainEnd : State → Host.Outcome State Fault Refusal := onLive M.drainEnds

/-- A page received; a shipment that completes with a mismatched epoch is handled by the policy (R355, R389). -/
def M.pageShip (m : M) (msg : Bytes) : M :=
  match m.pageReceive msg with
  | (some slot, m) => if m.tally slot oEPOCH 2 = m.runEpoch then m else m.applyPolicy slot (m.policyFor slot)
  | (none, m) => m

def execPageShipReceive (msg : Bytes) : State → Host.Outcome State Fault Refusal := onLive (M.pageShip · msg)

/-- What a step boundary does to loads and flips. -/
def M.epochBoundary (m : M) : M := m.flipDue.loadTry

end Sys2Proof.Machine
end

