-- ==== Sys2Proof/Machine/Assay.lean ====
section
/-! DEFINITION. Assay and Lode repairs (R362, R378 to R382). -/
namespace Sys2Proof.Machine

/-! ## Units (R378, R380) -/

/-- Halves of a core's Lode that a manifest's image is checked in: both of a whole one, and of a split one its own once
it is written. -/
def Manifest.halves (x : Manifest) (s : Shard) : List Nat :=
  if x.split then if s.written then [x.half] else []
  else if x.use == .running || x.use == .draining then [0, 1] else []

/-- The manifest and shard whose image a core's half holds, with the shard's index. -/
def M.unitShard (m : M) (core half : Nat) : Option (Manifest × Nat × Shard) :=
  m.die.fmn.manifests.findSome? fun x =>
    (x.shards.zipIdx.find? fun p => m.shardCore p.1 == core && (x.halves p.1).contains half).map fun p => (x, p.2, p.1)

/-- Every unit that Assay checks, as 32 × core + 16 × half + bank. -/
def M.assayUnits (m : M) : List Nat :=
  m.die.fmn.manifests.flatMap fun x => x.shards.flatMap fun s =>
    (x.halves s).flatMap fun h => (List.range 16).map fun b => 32 * m.shardCore s + 16 * h + b

/-- The next unit in order of core, half and bank, from `from_` on, beginning again at the lowest. -/
def nextUnit (units : List Nat) (from_ : Nat) : Option Nat :=
  match (units.filter fun u => decide (from_ ≤ u)).min? with
  | some u => some u
  | none => units.min?

/-- The time between two starts: PERIOD_S, held to its limits, over the number of units (R380, Table 9.9). -/
def M.assayPeriod (m : M) : Nat := clamp 60 86400 (m.fld FMN_ASSAY_CTRL 63 32) * 1000000000 / m.assayUnits.length

/-- Assay starts on the next unit, one period after the start before; no unit is being checked but one whose check a write
has abandoned (R379, R380). -/
def M.assayStart (m : M) : M :=
  let a := m.die.fmn.assay
  if m.flag FMN_ASSAY_CTRL 0 && (a.unit.isNone || a.abandoned) then
    match nextUnit m.assayUnits a.next with
    | some u =>
      let m := match a.started with
        | some t => m.reach (t + m.assayPeriod)
        | none => m
      { m with die.fmn.assay := { a with unit := some u, taken := 0, data := [], abandoned := false, started := some m.die.ft } }
    | none => m
  else m

def execAssayUnitStart : State → Host.Outcome State Fault Refusal := onLive M.assayStart

/-- The digest a unit must have (R379). -/
def expectedDigest (x : Manifest) (s : Shard) (half bank : Nat) : Bytes :=
  let j := if x.split then 2 * (bank ^^^ (4 * half)) else 2 * bank + half
  slice s.header (64 + 32 * j) 32

/-- Steps of the running kind use this half: the running step's epoch stands in it. -/
def M.halfInUse (m : M) (x : Manifest) : Bool :=
  m.batchStep && (m.die.fmn.composed.map (·.epoch)) == some x.epoch

/-- A mismatch: counted, captured, logged, and the running step's error set when it uses the half (R381). -/
def M.assayMismatch (m : M) (x : Manifest) (i u : Nat) : M :=
  let core := u / 32
  let half := u / 16 % 2
  let last := mapGetD m.die.fmn.assay.lastGood u 0
  let m := m.count FMN_ASSAY_MISMATCH_CNT
  let m :=
    if m.flag FMN_ASSAY_CAP0 63 then m
    else
      (m.setReg FMN_ASSAY_CAP0 (BitVec.ofNat 64
        (2 ^ 63 + core / 17 * 2 ^ 48 + core % 17 * 2 ^ 40 + u % 16 * 2 ^ 36 + half * 2 ^ 35 + x.epoch * 2 ^ 16))).setReg
          FMN_ASSAY_CAP1 (BitVec.ofNat 64 last)
  let m := (m.logEvent 11).errorClass 10 6 0 0
  let m := if x.use = .preparing then m.updShard x.id i fun s => { s with written := false } else m
  let m := m.report 10 6 0 0 (u % 16) 0 core
  let m := if m.halfInUse x then m.stepErrorReported else m
  m.askRepair core (if x.split then half else 0)

/-- A unit's 1,024th row has been taken and the digest of its rows in row order is compared (R362, R378 to R380); before that
nothing ends. An abandoned check counts for nothing. -/
def M.assayComplete (m : M) : M :=
  match m.die.fmn.assay.unit with
  | none => m
  | some u =>
    let a := m.die.fmn.assay
    let stop : M := { m with die.fmn.assay := { a with unit := none, abandoned := false } }
    if a.abandoned then stop
    else if a.taken < unitRows then m
    else match m.unitShard (u / 32) (u / 16 % 2) with
      | none => stop
      | some (x, i, s) =>
        let wraps := !m.assayUnits.any fun v => decide (u < v)
        let m := m.count FMN_ASSAY_UNIT_CNT
        let m := if wraps then m.count FMN_ASSAY_PASS_CNT else m
        let m : M := { m with die.fmn.assay := { a with unit := none, abandoned := false, next := if wraps then 0 else u + 1 } }
        if sm3 a.data = expectedDigest x s (u / 16 % 2) (u % 16) then
          { m with die.fmn.assay := { m.die.fmn.assay with lastGood := mapSet m.die.fmn.assay.lastGood u m.die.ft } }
        else m.assayMismatch x i u

def execAssayUnitComplete : State → Host.Outcome State Fault Refusal := onLive M.assayComplete

/-! ## Repairs (R382, R506) -/

/-- The repair of one image: from its staged copy, rechecked, else asked of the sources again (R382). The image of a half that
steps use is rewritten between steps; that of a preparing half through the scrub slots (R375). -/
def M.repairImage (m : M) (k : Nat) : M :=
  let core := k / 2
  let done : M → M := fun m => { m with die.fmn.lodeRepairs := m.die.fmn.lodeRepairs.filter (· != k) }
  let held := m.die.fmn.manifests.findSome? fun x =>
    if x.split && x.half != k % 2 then none
    else (x.shards.zipIdx.find? fun p => m.shardCore p.1 == core && (x.use == .running || x.use == .draining || (x.split && x.use == .preparing))).map fun p => (x, p.2, p.1)
  match held with
  | none => done m
  | some (x, i, s) =>
    if m.inStep && (x.use == .running || x.use == .draining) then m
    else match s.frame, s.verified with
      | some f, true =>
        let (p, m) := m.payload f s.length
        if shardOk x i s s.header p then done (((m.loadImage core x i p).count FMN_WT_REPAIR_CNT).dropRetained)
        else
          let m := m.count FMN_WT_DIGEST_ERR_CNT
          (m.updShard x.id i fun s => { s with verified := false, attempts := 0 }).requestShard x i false
      | _, true =>
        (m.updShard x.id i fun s => { s with verified := false, attempts := 0 }).requestShard x i false
      | _, false => if s.requested.isSome then m else m.requestShard x i false

/-- LODE_REPAIR of a core: every image of it that waits. -/
def M.lodeRepair (m : M) (core : Nat) : M :=
  let m := if m.inStep then m else m.takeReports
  ((m.die.fmn.lodeRepairs.filter fun k => k / 2 == core).foldl M.repairImage m).loadTry

def execLodeRepair (core : Nat) : State → Host.Outcome State Fault Refusal := onLive (M.lodeRepair · core)

/-- A core restored: its instruction SRAM rewritten from the model's image, and its tables reloaded by the build's table-load
entry, which it waits for (R506). -/
def M.restoreCore (m : M) (core : Nat) : M :=
  let v := m.virtualOf core
  match m.die.fmn.models with
  | (_, x) :: _ =>
    if v < 16 then
      (match mapGet x.images (16 * (core / 17) + v) with
        | some b => m.writeMem core 4 0 b
        | none => m).waitTables core
    else m
  | [] => m

def M.restoreCores (m : M) : M :=
  { m.die.fmn.restores.foldl M.restoreCore m with die.fmn.restores := [] }

end Sys2Proof.Machine
end

