-- ==== Sys2Proof/Machine/Compose.lean ====
section
/-! DEFINITION. Composing a step: eligibility, ranking, batches, the journal record and its patches (R321, R325, R327 to
R331, R347, R348, R360, R384, R391, R485, R538). -/
namespace Sys2Proof.Machine

/-! ## The record (R330) -/

/-- Sections of the record whose bursts have reported an uncorrectable error are rewritten from the Foreman's copy (R495). -/
def M.repairRecord (m : M) (c : Composition) : M :=
  let parts := (stripes (m.recordBase c.number) c.resultOff).map fun p => (journalAddr (m.recordBase c.number + p.1), p.2)
  { m with
    die.bursts := m.die.bursts.filter fun b => !(m.die.fmn.recordErrors.contains b.1 && !oneSymbol b.2 &&
      parts.any fun p => decide (p.1 < b.1 + 64) && decide (b.1 < p.1 + p.2))
    die.fmn.recordErrors := [] }

def M.recordWrite (m : M) (n off : Nat) (bs : Bytes) : M := m.stripedWrite journalAddr (m.recordBase n + off) bs 1

/-- RSTATE or ATTEMPT written in the record's header; a header that holds an uncorrectable burst is rewritten from the Foreman's
copy first (R495). -/
def M.recordMark (m : M) (c : Composition) (off : Nat) (b : Byte) : M :=
  let a := journalAddr (m.recordBase c.number + off)
  let bad := (m.burstsIn a 1).filter fun x => !oneSymbol x.2
  let m := if bad.isEmpty then m else (bad.foldl (fun m x => m.noteBurst 1 x) m).repairRecord c
  m.recordWrite c.number off [b]

def M.recordRead (m : M) (n off len : Nat) : Bytes × M := m.stripedRead journalAddr (m.recordBase n + off) len 1

/-- Byte offsets in the header. -/
abbrev rATTEMPT : Nat := 8
abbrev rRSTATE : Nat := 9

/-- The header of a record. -/
def Composition.header (c : Composition) : Bytes :=
  slice (toBytes 8 c.number ++ toBytes 1 c.attempt ++ zeros 3 ++ toBytes 4 c.items.length ++ toBytes 4 c.inputs.length ++
    toBytes 8 c.start ++ toBytes 2 c.epoch ++ toBytes 1 c.model ++ zeros 5 ++ toBytes 4 c.patches.length ++ toBytes 4 batchOff ++
    toBytes 4 c.inputOff ++ toBytes 4 c.patchOff ++ toBytes 4 c.resultOff) 0 256

/-- A batch-list entry (Table 8.8). -/
def BatchItem.bytes (b : BatchItem) : Bytes :=
  toBytes 4 (b.spec * 2 ^ 20 + b.kind * 2 ^ 18 + b.slot) ++ toBytes 4 b.pos ++ toBytes 4 b.count ++ toBytes 4 b.root ++
    toBytes 8 b.seed ++ toBytes 4 b.inIndex ++ toBytes 2 b.tenant ++ zeros 2

/-- A batch-list entry read back. -/
def batchItem (bs : Bytes) : BatchItem :=
  let w := numAt bs 0 4
  { slot := bits w 17 0, kind := bits w 19 18, spec := bits w 22 20, pos := numAt bs 4 4, count := numAt bs 8 4
    root := numAt bs 12 4, seed := numAt bs 16 8, inIndex := numAt bs 24 4, tenant := numAt bs 28 2 % 4096 }

/-- The patch section of a record. -/
def Composition.patchBytes (c : Composition) : Bytes := c.patches.flatMap fun p => toBytes 8 p.1 ++ toBytes 8 p.2

/-- The whole record written: open, its results still zero (R331). -/
def M.writeRecord (m : M) (c : Composition) : M :=
  let m := m.recordWrite c.number 0 c.header
  let m := m.recordWrite c.number batchOff (c.items.flatMap BatchItem.bytes)
  let m := m.recordWrite c.number c.inputOff (c.inputs.flatMap (toBytes 4))
  let m := m.recordWrite c.number c.patchOff c.patchBytes
  m.recordWrite c.number c.resultOff (zeros (resultSize * c.items.length))

/-! ## Eligibility and rank (R325, R347, R348) -/

def maxDecode : Nat := 8192
def prefillBudget : Nat := 8192

/-- State, cancel and jobs allow a slot of the model into a batch (R348). -/
def M.maySchedule (m : M) (model slot : Nat) : Bool :=
  let st := m.tState slot
  (st == tQUEUED || st == tPREFILL || st == tDECODE) && m.tModel slot == model && !m.tFlag slot fCANCEL &&
    (mapGet m.die.parkJobs slot).isNone

/-- The eligible slots of a model, each passed over for its ring counted (R325). -/
def M.eligible (m : M) (model : Nat) : List Nat × M :=
  (m.slotsInUse.filter (m.maySchedule model)).foldl (fun (l, m) s =>
    let (n, m) := m.unread s
    if n ≤ ringEligible then (l ++ [s], m) else (l, m.count FMN_RING_FULL_SKIP_CNT)) ([], m)

/-- AGE in force. -/
def M.agePolicy (m : M) : Nat := max 1 m.die.fmn.age

/-- eff(s) (R347). -/
def M.effective (m : M) (s : Nat) : Nat := min 7 (m.tPriority s + m.tally s oSKIP 2 / m.agePolicy)

/-- The order of R347: effective priority, then SKIP, both highest first, then slot number. -/
def M.ranksBefore (m : M) (s t : Nat) : Bool :=
  let e := m.effective s
  let f := m.effective t
  let p := m.tally s oSKIP 2
  let q := m.tally t oSKIP 2
  decide (f < e) || (e == f && (decide (q < p) || (p == q && decide (s ≤ t))))

def M.rank (m : M) (l : List Nat) : List Nat := l.mergeSort m.ranksBefore

/-- Bytes of keys and values of one position in one layer, as FMT, HKV and D of the root give them (R271). -/
def positionBytes (g : Geometry) : Nat := 2 * g.hkv * g.d * kvBytes g.fmt

/-- est(s) × 32 (R347): compared with 32 × SEAM_BUDGET, so that nothing is rounded. -/
def M.estimate (m : M) (s : Nat) : Nat :=
  let g := geometryOf (m.requestWord s)
  (m.tLen s + 1 + m.tSpec s) * positionBytes g * g.layers

/-- A slot passed over: SKIP rises, saturating, and it is counted (R347, R348). -/
def M.passOver (m : M) (s : Nat) : M :=
  (m.setTally s oSKIP 2 (min 65535 (m.tally s oSKIP 2 + 1))).count FMN_SLICE_SKIP_CNT

/-! ## The batch -/

/-- Decode slots taken in rank order within the entry limit and SEAM_BUDGET (R327, R347). -/
def M.takeDecode (m : M) (l : List Nat) : List Nat × List Nat :=
  let r := l.foldl (fun (t : List Nat × List Nat × Nat) s =>
    let e := m.estimate s
    if t.1.length = maxDecode ∨ 32 * m.die.fmn.seamBudget < t.2.2 + e then (t.1, t.2.1 ++ [s], t.2.2)
    else (t.1 ++ [s], t.2.1, t.2.2 + e)) ([], [], 0)
  (r.1, r.2.1)

/-- SCHUNK in force. -/
def M.schunk (m : M) : Nat := m.fld FMN_DET_CTRL 13 0

/-- Prompt tokens of a slot that are not yet prefilled: PROMPT_LEN counts from where its prompt starts (R532). -/
def M.remaining (m : M) (s : Nat) : Nat :=
  let start := ((mapGet m.die.fmn.prompts s).map (·.start)).getD 0
  start + m.tally s oPROMPT 4 - m.tLen s

/-- The next chunk's length with `left` of the budget (R327, R485): none when it gets no chunk in this step. -/
def M.chunkLength (m : M) (sterling : Bool) (s left : Nat) : Option Nat :=
  let rest := m.remaining s
  if sterling then
    let n := min rest (max 1 m.schunk - m.tLen s % max 1 m.schunk)
    if ceilDiv n 64 * 64 ≤ left && n != 0 then some n else none
  else
    let n := min rest (left / 64 * 64)
    if n = 0 then none else some n

/-- Prefill chunks taken in rank order within the budget: the chunks, and the slots left out. -/
def M.takePrefill (m : M) (sterling : Bool) (l : List Nat) : List (Nat × Nat) × List Nat :=
  let r := l.foldl (fun (t : List (Nat × Nat) × List Nat × Nat) s =>
    match m.chunkLength sterling s t.2.2 with
    | some n => (t.1 ++ [(s, n)], t.2.1, t.2.2 - ceilDiv n 64 * 64)
    | none => (t.1, t.2.1 ++ [s], t.2.2)) ([], [], prefillBudget)
  (r.1, r.2.1)

/-- The first class that covers a batch of `d` decode entries and `p` prefill tokens. -/
def coveringClass (cs : List ShapeClass) (d p : Nat) : Option ShapeClass := cs.find? fun c => decide (d ≤ c.decode) && decide (p ≤ c.prefill)

/-- The largest class: the most decode entries, then the most prefill tokens. -/
def largestClass (cs : List ShapeClass) : Option ShapeClass :=
  cs.foldl (fun b c => match b with
    | none => some c
    | some x => if x.decode < c.decode ∨ (x.decode = c.decode ∧ x.prefill < c.prefill) then some c else some x) none

/-- Prefill chunks cut to `n` tokens, whole chunks, in batch order: kept, and left out. -/
def cutChunks (n : Nat) (l : List (Nat × Nat)) : List (Nat × Nat) × List Nat :=
  let r := l.foldl (fun (t : List (Nat × Nat) × List Nat × Nat) p =>
    if p.2 ≤ t.2.2 then (t.1 ++ [p], t.2.1, t.2.2 - p.2) else (t.1, t.2.1 ++ [p.1], t.2.2)) ([], [], n)
  (r.1, r.2.1)

/-- What a batch holds: decode slots, prefill chunks, the slots left out, those of them that R485 left out, and its
class. -/
structure Batch where
  decode : List Nat
  prefill : List (Nat × Nat)
  out : List Nat
  chunkOut : Nat
  cls : ShapeClass
  deriving DecidableEq, Repr

/-- The batch of a set of eligible slots for a model (R347, R485, R538). -/
def M.batch (m : M) (x : Model) (l : List Nat) : Option Batch :=
  let (dec, decOut) := m.takeDecode (m.rank (l.filter fun s => m.tState s == tDECODE))
  let (pre, preOut) := m.takePrefill x.sterling (m.rank (l.filter fun s => m.tState s != tDECODE))
  let chunkOut := if x.sterling then preOut.length else 0
  match coveringClass x.classes dec.length (sumBy pre (·.2)) with
  | some c => some { decode := dec, prefill := pre, out := decOut ++ preOut, chunkOut, cls := c }
  | none =>
    (largestClass x.classes).map fun c =>
      let (pre', cut) := cutChunks c.prefill pre
      { decode := dec.take c.decode, prefill := pre', out := decOut ++ dec.drop c.decode ++ preOut ++ cut, chunkOut, cls := c }

/-! ## Entries, inputs and patches -/

/-- A decode entry and its inputs (R328). -/
def M.decodeItem (m : M) (s inIndex : Nat) : BatchItem × List Nat × M :=
  let k := m.tSpec s
  let (carry, m) := m.carry s
  ({ slot := s, kind := 0, spec := k, pos := m.tLen s, count := k + 1, root := m.tRoot s, seed := m.tally s oSEED 8, inIndex
     tenant := m.tTenant s }, carry.take (k + 1), m)

/-- Token `i` of a slot's prompt, counted from where the prompt starts: EXTEND's base token comes before the tokens in
the carve-out (R321, R532). -/
def M.promptToken (m : M) (p : Prompt) (i : Nat) : Nat × M :=
  match p.first with
  | some t => if i = 0 then (t, m) else m.carveRead (carveWrap (p.addr + 4 * (i - 1))) 4
  | none => m.carveRead (carveWrap (p.addr + 4 * i)) 4

/-- A prefill chunk and its inputs (R321, R328). -/
def M.prefillItem (m : M) (s n inIndex : Nat) : BatchItem × List Nat × M :=
  let p : Prompt := (mapGet m.die.fmn.prompts s).getD { addr := 0, first := none, start := 0 }
  let pos := m.tLen s
  let (ts, m) := (List.range n).foldl (fun (ts, m) i =>
    let (t, m) := m.promptToken p (pos - p.start + i)
    (ts ++ [t], m)) ([], m)
  ({ slot := s, kind := if n = m.remaining s then 2 else 1, spec := 0, pos, count := n, root := m.tRoot s
     seed := m.tally s oSEED 8, inIndex, tenant := m.tTenant s }, ts, m)

/-- The batch list and its inputs, decode entries first. -/
def M.batchItems (m : M) (b : Batch) : List BatchItem × List Nat × M :=
  let r := b.decode.foldl (fun (t : List BatchItem × List Nat × M) s =>
    let (i, xs, m) := t.2.2.decodeItem s t.2.1.length
    (t.1 ++ [i], t.2.1 ++ xs, m)) ([], [], m)
  b.prefill.foldl (fun (t : List BatchItem × List Nat × M) p =>
    let (i, xs, m) := t.2.2.prefillItem p.1 p.2 t.2.1.length
    (t.1 ++ [i], t.2.1 ++ xs, m)) r

/-- Word 1 of a patch entry (R257). -/
def patchWord (site mask index : Nat) : Nat := site + mask * 2 ^ 8 + index * 2 ^ 24

/-- The patch lists of a class's valid entries, as the patch store holds them (R259). -/
def M.classPatches (m : M) (c : ShapeClass) : List (Nat × Nat) :=
  (List.range c.count).flatMap fun k =>
    let e := m.entry (c.first + k)
    if e.valid then (List.range e.patchCount).map fun i =>
      (m.readN (patchBase + 16 * (e.patchIndex + i)) 8, m.readN (patchBase + 16 * (e.patchIndex + i) + 8) 8)
    else []

/-- Virtual cores that a class's entries run on, by 16 × site + virtual core. -/
def M.classCores (m : M) (c : ShapeClass) : List Nat :=
  ((List.range c.count).flatMap fun k =>
    let e := m.entry (c.first + k)
    if e.valid then m.groupNames e.group else []).eraseDups

/-- A register set alike on every core of a class: one patch entry a site. -/
def patchAll (cores : List Nat) (index value : Nat) : List (Nat × Nat) :=
  ((cores.map (· / 16)).eraseDups).map fun s =>
    (value, patchWord s (sumBy (cores.filter fun c => c / 16 == s) fun c => 2 ^ (c % 16)) index)

/-- The patches of one patch-map entry (Table 14.9). -/
def Model.mapPatches (x : Model) (cores : List Nat) (c : Composition) (p : PatchMap) : List (Nat × Nat) :=
  let nDec := (c.items.filter fun i => i.kind == 0).length
  let nPre := sumBy (c.items.filter fun i => i.kind != 0) (·.count)
  let bound := fun n => min 32 (n - 32 * p.arg)
  let initial := fun n => cores.map fun k =>
    let w := numAt (mapGetD x.fixed k []) (8 * p.register) 8
    ((setFld (BitVec.ofNat 64 w) 19 0 (bound n)).toNat, patchWord (k / 16) (2 ^ (k % 16)) p.register)
  match p.kind with
  | 1 => patchAll cores p.register nDec
  | 2 => patchAll cores p.register nPre
  | 3 => initial nDec
  | 4 => initial nPre
  | 5 => patchAll cores p.register batchOff
  | 6 => patchAll cores p.register c.inputOff
  | 7 => patchAll cores p.register c.number
  | _ => []

/-- The half that a model's image of an epoch stands in, and HALF_REG of its manifest (R360). -/
def M.halfPatch (m : M) (cores : List Nat) (model epoch : Nat) : List (Nat × Nat) :=
  match m.die.fmn.manifests.find? fun x =>
    x.epoch == epoch && x.model == model && (x.use == .running || x.use == .draining || x.use == .preparing) with
  | some x => if x.split then patchAll cores x.halfReg (x.half * 0x100000) else []
  | none => []

/-! ## COMPOSE_BATCH -/

/-- A start named from a flip's T up to its U is moved to U (R384). -/
def M.movedStart (m : M) (t : Nat) : Nat :=
  match m.die.fmn.flipWindow with
  | some (a, u) => if a ≤ t ∧ t < u then u else t
  | none => t

/-- The epoch that a start runs under when no drain splits the entries: the flip's new one from its T on. -/
def M.startEpoch (m : M) (start : Nat) : Nat :=
  match m.die.fmn.flip, m.manifestFor .preparing with
  | some f, some x => if f.t ≤ start then x.epoch else m.runEpoch
  | _, _ => m.runEpoch

/-- The eligible slots of one step and their epoch: while a drain runs, old-epoch and new-epoch steps alternate as long
as both have eligible entries (R391). -/
def M.epochSet (m : M) (x : Model) (start : Nat) (l : List Nat) : List Nat × Nat × Bool :=
  match m.die.fmn.drain with
  | none => (l, m.startEpoch start, false)
  | some d =>
    let old := l.filter fun s => m.tally s oEPOCH 2 == d.epoch
    let new_ := l.filter fun s => m.tally s oEPOCH 2 != d.epoch
    if !old.isEmpty && (new_.isEmpty || !x.lastOld) then (old, d.epoch, true) else (new_, m.startEpoch start, false)

/-- On a group, the coordinator sends the start down the tree of the release-at-time barrier, where firmware has given it
one (R26, R475). -/
def M.nameStart (m : M) (r : Run) (start : Nat) : M :=
  let b := Config.startBarrier
  if r.group && r.coord && m.barValid b && m.barRoot b then m.barSend b 0 0 start else m

/-- The Foreman reads every entry in use, and the root of each (R299, R300, R314; log entry 137). -/
def M.readEntries (m : M) : M :=
  m.slotsInUse.foldl (fun m s =>
    let m := m.tallyUnit s
    match m.rootOf s with
    | some root => m.noteBursts (m.blockAddr 0 root) 4 1
    | none => m) m

/-- A step composed for a model at a start (R327 to R331, R347). The eligible slots of the other epoch of a drain are
left out as well (R348, R391). -/
def M.composeFor (m : M) (r : Run) (x : Model) (start : Nat) : M :=
  let m := m.readEntries
  let (all, m) := m.eligible x.index
  let (l, epoch, old) := m.epochSet x start all
  match m.batch x l with
  | none => m
  | some b =>
    let before := (b.decode ++ b.prefill.map (·.1)).map fun s => (s, m.read (tallyBase s) 64)
    let m := (b.out ++ all.filter fun s => !l.contains s).foldl M.passOver m
    let m := m.countBy FMN_DET_CHUNK_SKIP_CNT b.chunkOut
    let m := (b.decode ++ b.prefill.map (·.1)).foldl (fun m s => m.setTally s oSKIP 2 0) m
    let (items, inputs, m) := m.batchItems b
    let cores := m.classCores b.cls
    let c : Composition :=
      { number := m.die.stepNumber + 1, attempt := 0, model := x.index, epoch, start, items, inputs, patches := []
        firstEntry := b.cls.first, entryCount := b.cls.count, heldCounted := r.heldCounted, errors := [], before }
    let fixedPatches := m.classPatches b.cls
    let extra := x.patchMap.flatMap fun p => x.mapPatches cores c p
    let c := { c with patches := fixedPatches ++ extra ++ m.halfPatch cores x.index epoch }
    let m := m.writeRecord c
    { m with
      die.fmn.composed := some c
      die.fmn.models := mapSet m.die.fmn.models x.index { x with lastOld := old }
      die.fmn.run := some { r with heldCounted := false } }

/-- A step composed for a start, where RUN is active, a model is loaded and not stopped, and no step is in progress or
composed (R538). -/
def M.composeAt (m : M) (start : Nat) : M :=
  if !m.betweenSteps then m
  else match m.die.fmn.run, m.die.fmn.models with
    | some r, (_, x) :: _ => if x.stopped || m.die.fmn.siteRetired || m.sitesLack x || r.period == 0 then m else m.composeFor r x start
    | _, _ => m

/-- COMPOSE_BATCH: the step of the next start, FIRST_FT + k × PERIOD_NS, or U for one that a flip has moved (R384, R538); the
start is named on the group (R26). While RUN is active no step is composed for another start (log entry 139). -/
def M.compose (m : M) (start : Nat) : M :=
  if !m.betweenSteps then m
  else match m.die.fmn.run with
    | none => m.takeReports
    | some r =>
      if start ≠ m.movedStart r.next then m else
      let m := m.takeReports.composeAt start
      match m.die.fmn.composed with
      | some _ =>
        let m : M := { m with die.fmn.run := m.die.fmn.run.map fun r => { r with next := r.next + r.period } }
        m.nameStart r start
      | none => m

def execComposeBatch (start : Nat) : State → Host.Outcome State Fault Refusal := onLive (M.compose · start)

/-! ## Composing again (R384, R389, R391) -/

/-- The step that an operation of a flip gives up is composed again for its start, of the entries and the epoch that now
hold; a hold of its start that was counted stays so. -/
def M.recomposed (f : M → M) (m : M) : M :=
  let n := f m
  match m.die.fmn.composed, n.die.fmn.composed with
  | some c, none =>
    let n := n.composeAt (n.movedStart c.start)
    { n with die.fmn.composed := n.die.fmn.composed.map fun d => { d with heldCounted := c.heldCounted } }
  | _, _ => n

/-- The composed step's start as a release names it; where the epoch of that start is another one, the step is composed again
(R26, R384). -/
def M.startNamed (m : M) (t : Nat) : M :=
  match m.die.fmn.composed with
  | some c =>
    let t := m.movedStart t
    if c.attempt = 0 && m.die.fmn.drain.isNone && m.startEpoch t != c.epoch then (m.giveUp c).composeAt t
    else { m with die.fmn.composed := some { c with start := t } }
  | none => m

def execEpochFlip (mb : Nat) : State → Host.Outcome State Fault Refusal :=
  onLive (M.recomposed fun m => m.mailbox mb 0x24 (M.epochFlip · mb))

def execCancelPrepare (mb : Nat) : State → Host.Outcome State Fault Refusal :=
  onLive (M.recomposed fun m => m.mailbox mb 0x25 (M.cancelPrepare · mb))

def execFlipTimeReached : State → Host.Outcome State Fault Refusal := onLive (M.recomposed M.flipTime)

def execFlipCopyComplete : State → Host.Outcome State Fault Refusal := onLive (M.recomposed M.flipCopied)

end Sys2Proof.Machine
end

