-- ==== Sys2Proof/Machine/Sequencer.lean ====
section
/-! DEFINITION. The step sequencer: starts, holds and refusals of a start, group fences and their release, and the start
watchdog (R26, R36, R60, R85 to R89, R207, R250 to R262, R333, R384 to R387, R483, R593, R641). -/
namespace Sys2Proof.Machine

/-! ## Waiting entries -/

/-- Entries that wait for a fence, or for the step's start (0xFF), start now. -/
def M.startWaiting (m : M) (fence at_ : Nat) : M :=
  match m.die.step with
  | none => m
  | some s =>
    (s.entries.filter fun p => p.2 == .waiting && (m.entry p.1).startFence == fence).foldl (fun m p => m.startEntry at_ p.1) m

/-! ## STEP_START -/

/-- Valid entries of a composition's class. -/
def M.stepEntries (m : M) (c : Composition) : List Nat :=
  ((List.range c.entryCount).map (c.firstEntry + ·)).filter fun i => (m.entry i).valid

/-- Cores of the groups of a composition's entries. -/
def M.stepCores (m : M) (c : Composition) : List Nat :=
  (m.stepEntries c).flatMap fun i => m.groupCores (m.entry i).group

/-- What holds a start beside flips: a FAULTED core in a group (R95), an emergency hold (R593), a region that does not run for want of its PLL (R545), a site retirement, or one that could
not be made (R511), a
Lode image that waits for repair in a half that steps use (R382), an open group outcome (R500) or decision (R501), a region
whose copy of fabric time is not yet reloaded (R467), and compute regions at different frequency steps (R37). -/
def M.startBlocked (m : M) (c : Composition) : Bool :=
  (m.stepCores c).any (fun k => (m.core k).st == .faulted) || m.flag PWR_STATUS 8 || m.die.fmn.siteRetired || (m.die.fmn.models.any fun x => m.sitesLack x.2) ||
    (List.range 12).any m.regionFailed || m.die.fmn.lodeRepairs.any m.halfRuns || m.die.fmn.peerLost.isSome || m.die.fmn.deciding.isSome || !m.die.servo.staleCopies.isEmpty ||
    !m.regionsEqual

/-- A start held: counted once (R333). -/
def M.startHeld (m : M) (c : Composition) : M :=
  if c.heldCounted then m
  else { m.count CMT_START_HOLD_CNT with die.fmn.composed := some { c with heldCounted := true } }

/-- A start that falls due while the previous step is being handled (R333). -/
def M.nextStartHeld (m : M) : M :=
  match m.die.fmn.run with
  | some r =>
    if r.heldCounted || r.period == 0 then m
    else { (m.reach r.next).count CMT_START_HOLD_CNT with die.fmn.run := some { r with heldCounted := true } }
  | none => m

/-- A start that falls due while the table-load entry runs is held (R333, R506). -/
def M.heldInStep (m : M) : M :=
  match m.die.fmn.composed with
  | some c => if m.batchStep then m.nextStartHeld else (m.reach c.start).startHeld c
  | none => m.nextStartHeld

/-- A flip at or before this start has not been completed: the start is held and counted once (R385, R387). -/
def M.flipLate (m : M) (f : Flip) : M :=
  if f.heldCounted then m
  else { m.count FMN_WT_FLIP_LATE_CNT with die.fmn.flip := some { f with heldCounted := true } }

/-- A core whose accumulator mode differs from the STERLING bit of an entry it is to run (R483). -/
def M.modeDiffers (m : M) (c : Composition) : Bool :=
  (m.stepEntries c).any fun i =>
    let e := m.entry i
    (m.groupCores e.group).any fun k => m.sterling k != e.sterling

/-- A patch entry from its two words (R257). -/
def patchOf (v w : Nat) : PatchEntry := { value := v, site := bits w 7 0, mask := bits w 23 8, index := bits w 30 24 }

/-- The patches of a step: of its first attempt as composed, of a replay from the journal's copy (R259). -/
def M.stepPatches (m : M) (c : Composition) : List PatchEntry × M :=
  if c.attempt = 0 then (c.patches.map fun p => patchOf p.1 p.2, m)
  else
    let (bs, m) := m.recordRead c.number c.patchOff (16 * c.patches.length)
    ((List.range c.patches.length).map fun i => patchOf (numAt bs (16 * i) 8) (numAt bs (16 * i + 8) 8), m)

/-- The step begins (R260). -/
def M.beginStep (m : M) (c : Composition) : M :=
  let (ps, m) := m.stepPatches c
  let m := ps.foldl M.applyPatch m
  let s : Step :=
    { number := c.number, attempt := c.attempt, startFt := m.die.ft, firstEntry := c.firstEntry, entryCount := c.entryCount
      entries := (m.stepEntries c).map fun i => (i, .waiting)
      cores := m.stepCores c, slots := c.items.map (·.slot), error := false, schedFault := false, exhausted := false, peerLost := false
      started := [], cycles := 0, holds := []
      members := (m.stepEntries c).foldl (fun l i => mapSet l i (m.groupCores (m.entry i).group)) [], groupAt := none }
  let m : M := { m with die.step := some s, die.stepNumber := c.number, die.uses := [], die.writes := [] }
  let m := (m.setFld FMN_SEQ_STATUS 63 32 c.number).setFld FMN_SEQ_STATUS 1 0 2
  m.startWaiting 0xFF 0

/-- A start due while cores wait for the build's table-load entry, which runs first: it is held (R333, R506, R508). -/
def M.tablesFirst (m : M) (c : Composition) : Option M :=
  let t := m.startTables
  if t.inStep then some (t.startHeld c) else none

/-- A start that no flip holds (R95, R333, R382, R483, R506, R511, R593). -/
def M.startChecked (m : M) (c : Composition) : M :=
  if m.startBlocked c then m.startHeld c
  else match m.tablesFirst c with
  | some t => t
  | none =>
    let m := m.accBoundary.repairRecord c
    if m.modeDiffers c then
      ({ m.count FMN_DET_MODE_REFUSE_CNT with die.fmn.refusedStep := some c.number } : M).giveUp c
    else m.beginStep c

/-- The composed step starts at its named time, or is held, or is refused for its mode (R260, R333, R384 to R387, R483). -/
def M.stepStart (m : M) : M :=
  if m.inStep then m.heldInStep
  else match m.die.fmn.composed with
    | none => m
    | some c =>
      let m := (m.reach c.start).recomposed M.flipDue
      match m.die.fmn.flip, m.die.fmn.composed with
      | some f, some c => if f.copying ∨ (f.t ≤ c.start ∧ c.epoch ≠ m.runEpoch) then m.flipLate f else m.startChecked c
      | none, some c => m.startChecked c
      | _, none => m

def execStepStart : State → Host.Outcome State Fault Refusal := onLive M.stepStart

/-! ## FENCE_RELEASE -/

/-- A blocking arrival at fence `f` stalls the control core. -/
def Core.blockedAt (f : Nat) (k : Core) : Bool := (k.arrival.map fun a => a.fence == f && a.blocking).getD false

/-- A core released from fence `f` in cycle `cyc` of its entry: a stalled control core executes its next instruction in that
cycle (R88), and one that ran on keeps its own. -/
def Core.release (f cyc : Nat) (k : Core) : Core :=
  let latest := (k.arrival.map (·.fence)) == some f
  { k with
    arrival := if latest then none else k.arrival
    older := k.older.filter fun a => a.fence != f
    waits := if latest then k.waits.filter fun w => w.2.elastic else k.waits
    phaseBase := cyc, slotAt := 0, cycle := if k.blockedAt f then cyc else k.cycle }

/-- The core's arrival at this fence closes its part of the entry (R89). -/
def Core.endsAt (f : Nat) (k : Core) : Bool := (k.older ++ k.arrival.toList).any fun a => a.fence == f && a.ending

/-- A member released in cycle `cyc`: the cycles its control core still had to wait are counted, and a core whose arrival
ends its part halts, while its queues and what it has in flight go on (R58, R81, R87 to R89). -/
def M.releaseCore (m : M) (f cyc c : Nat) : M :=
  let k := m.core c
  let m := if k.blockedAt f then m.countBy (coreReg c CORE_FENCE_WAIT_CYCLE_CNT) (cyc - k.cycle) else m
  if k.endsAt f then (m.updCore c fun k => Core.halt (m.restSt c) (k.release f cyc)).serveDeferred c
  else m.updCore c (Core.release f cyc)

/-- BUDGET compared with the interval from an entry's start to its END_FENCE's release (R262). -/
def M.budgetCheck (m : M) (i cyc : Nat) : M :=
  let b := (m.entry i).budget
  if b < cyc then
    let m := m.count FMN_SEQ_BUDGET_OVR_CNT
    if m.flag FMN_SEQ_BUDGET_OVR_CAP 63 then m
    else m.setReg FMN_SEQ_BUDGET_OVR_CAP (BitVec.ofNat 64 (2 ^ 63 + i % 1024 * 2 ^ 32 + min (cyc - b) 0xFFFFFFFF))
  else m

/-- The LAST entries of the step have all been released (R260). -/
def M.computeDone (m : M) : Bool :=
  (m.die.step.map fun s => s.entries.all fun p => p.2 == .released || !s.tables && !(m.entry p.1).last).getD false

/-- An entry's END_FENCE has released `cyc` cycles after its start, its group's hold cycles not counted; the measured
interval includes them (Table 6.6, R262). -/
def M.endEntry (m : M) (i cyc : Nat) : M :=
  let held := (m.die.step.map fun s => s.heldCycles i).getD 0
  let m := m.budgetCheck i (cyc + held)
  let m := m.updStep fun s => { s with
    entries := mapSet s.entries i .released
    cycles := max s.cycles (mapGetD s.started i 0 + cyc + held) }
  let m : M := { m with
    die.uses := m.die.uses.filter fun u => u.entry != i
    die.writes := m.die.writes.filter fun x => x.entry != i }
  let m := if m.computeDone && m.batchStep then m.setReg FMN_SEQ_LAST_STEP_CYCLES (BitVec.ofNat 64 ((m.die.step.map (·.cycles)).getD 0)) else m
  m.showRunning

/-- The release of a fence, F cycles after its last arrival took effect: all members at once, and not in a hold cycle of the
group (R36, R251, R254). -/
def M.fenceRelease (m : M) (f : Nat) : M :=
  match m.die.fences.find? (fun x => x.id = f), m.die.step with
  | some x, some s =>
    let members := m.members x.entry
    if x.withheld || !members.all x.arrived.contains || members.any m.groupHeld then m
    else
      let cyc := x.lastCycle + Config.fenceLatency
      let ends := (m.entry x.entry).endFence = f && members.all fun c => (m.core c).endsAt f
      let m : M := { m with die.fences := m.die.fences.filter fun y => y.id != f }
      let m := members.foldl (fun m c => m.releaseCore f cyc c) m
      let m := if ends then m.endEntry x.entry cyc else m
      m.startWaiting f (mapGetD s.started x.entry 0 + cyc + ((m.die.step.map fun s => s.heldCycles x.entry).getD 0))
  | _, _ => m

def execFenceRelease (fence : Nat) : State → Host.Outcome State Fault Refusal := onLive (M.fenceRelease · fence)

/-! ## SEQ_WATCHDOG -/

/-- An entry that has not started in time: a schedule fault of its first core, whose command fields the spec does not give
(R261). -/
def M.seqWatchdog (m : M) (i : Nat) : M :=
  match m.die.step with
  | some s =>
    if mapGet s.entries i = some .waiting then
      let m := m.reach (s.startFt + m.regN FMN_SEQ_WDOG)
      match m.members i with
      | c :: _ =>
        let v := m.freeValue
        m.spend.schedFault c WAIT_WATCHDOG (v % 4) (v / 4 % 65536) (v.testBit 18) (v / 2 ^ 19 % 2 ^ 256)
      | [] => m.abortStep
    else m
  | none => m

def execSeqWatchdog (entry : Nat) : State → Host.Outcome State Fault Refusal := onLive (M.seqWatchdog · entry)

end Sys2Proof.Machine
end

