-- ==== Sys2Proof/Machine/Commit.lean ====
section
/-! DEFINITION. The commit unit and what follows a step: commit, abort, replay, fault, rerun, drop, group outcomes and the
step boundary (R28 to R31, R117, R286, R326, R333 to R346, R494 to R508, R540, R606). -/
namespace Sys2Proof.Machine

/-! ## The step boundary -/

/-- Grants and revokes of host windows take effect (R537). -/
def M.windowBoundary (m : M) : M :=
  m.die.fmn.nextWindows.foldl (fun m p =>
    { m with
      die.fmn.windows := match p.2 with
        | some w => mapSet m.die.fmn.windows p.1 w
        | none => mapDel m.die.fmn.windows p.1
      die.fmn.nextWindows := mapDel m.die.fmn.nextWindows p.1 }) m

/-- CMT_CTRL.GROUP and FMN_DET_CTRL.SCHUNK written during the step (Tables 8.17, 12.5). -/
def M.controlBoundary (m : M) : M :=
  let m := match m.die.fmn.nextGroup with
    | some v => { m.setFld CMT_CTRL 0 0 (bit v) with die.fmn.nextGroup := none }
    | none => m
  match m.die.fmn.nextSchunk with
  | some v => { m.setFld FMN_DET_CTRL 13 0 v with die.fmn.nextSchunk := none }
  | none => m

/-- The end of a step's handling: no step is in progress, everything that waits for a boundary happens, and cores that wait for
the build's table-load entry run it (R506, R508). -/
def M.stepBoundary (m : M) : M :=
  let m : M := { m with die.step := none, die.uses := [], die.writes := [] }
  let m := if m.fld FMN_SEQ_STATUS 1 0 = 2 then m.setFld FMN_SEQ_STATUS 1 0 0 else m
  let m := m.showRunning.unitsBoundary.boundaryCeilings.boundaryRegions.boundarySsc
  m.seamBoundary.timeBoundary.modeStatus.windowBoundary.controlBoundary.epochBoundary.answerAttest.startTables

/-! ## Results (Table 8.9) -/

structure StepResult where
  slot : Nat
  accept : Nat
  ndraft : Nat
  tokens : List Nat
  drafts : List Nat
  deriving DecidableEq, Repr

def stepResult (bs : Bytes) : StepResult :=
  { slot := numAt bs 0 4 % 2 ^ 18, accept := byteAt bs 4, ndraft := byteAt bs 5
    tokens := (List.range 8).map fun i => numAt bs (8 + 4 * i) 4
    drafts := (List.range 7).map fun i => numAt bs (40 + 4 * i) 4 }

/-- Tokens posted from a position on: up to the first STOP_TOKEN and to the token at MAX_LEN − 1 (R336). -/
def postedTokens (stop maxLen : Nat) : Nat → List Nat → List Nat
  | _, [] => []
  | pos, t :: ts => if (t = stop ∧ stop ≠ noPage) ∨ maxLen = pos + 1 then [t] else t :: postedTokens stop maxLen (pos + 1) ts

/-- First position that an entry's tokens are posted at: POS + 1, or POS + COUNT for a last chunk (R336). -/
def BatchItem.postPos (b : BatchItem) : Nat := if b.kind = 0 then b.pos + 1 else b.pos + b.count

/-- The tokens that a result posts. -/
def M.posted (m : M) (b : BatchItem) (r : StepResult) : List Nat :=
  let ts := if b.kind = 0 then r.tokens.take (r.accept + 1) else if b.kind = 1 then [] else r.tokens.take 1
  postedTokens (m.tally b.slot oSTOP 4) (m.tally b.slot oMAX_LEN 4) b.postPos ts

/-- SPEC_LEN for the next step (R335). -/
def M.nextSpec (m : M) (b : BatchItem) (r : StepResult) : Nat := if m.tFlag b.slot fSPEC_EN then r.ndraft else 0

/-- R340; of a chunk that is not the last only SLOT is read. -/
def M.resultInvalid (m : M) (b : BatchItem) (r : StepResult) : Bool :=
  r.slot != b.slot || (b.kind == 0 && decide (b.spec < r.accept)) ||
    (b.kind != 1 && (decide (7 < r.ndraft) || (m.posted b r).contains noPage || (r.drafts.take (m.nextSpec b r)).contains noPage))

/-! ## Committing one entry -/

/-- A request becomes FAULTED at commit (R340, R341). -/
def M.faultEntry (m : M) (slot step ft : Nat) : M :=
  (((m.setTFlag slot fFAULT false).setTFlag slot fCANCEL false).endRequest slot tFAULTED).postState slot step ft

/-- R335. -/
def M.advanceEntry (m : M) (b : BatchItem) (r : StepResult) : M :=
  let m := m.setLen b.slot (if b.kind = 0 then b.pos + 1 + r.accept else b.pos + b.count)
  if b.kind = 1 then m
  else
    let base := r.tokens.getD (if b.kind = 0 then r.accept else 0) 0
    (m.setCarry b.slot (base :: r.drafts)).setTSpec b.slot (m.nextSpec b r)

/-- STOP_SEEN, MAX_REACHED and the state after the commit (R336, Table 8.3). -/
def M.entryState (m : M) (b : BatchItem) (posted : List Nat) : M :=
  let slot := b.slot
  let stop := m.tally slot oSTOP 4
  let stopped := posted.getLast? == some stop && stop != noPage
  let full := !posted.isEmpty && m.tally slot oMAX_LEN 4 == b.postPos + posted.length
  let m := if stopped then m.setTFlag slot fSTOP true else m
  let m := if full then m.setTFlag slot fMAX true else m
  if b.kind = 1 then m.setTState slot tPREFILL
  else if stopped || full then m.setTState slot tDONE
  else if b.kind = 2 && m.tFlag slot fSHIP then m.setTState slot tSHIP_OUT
  else m.setTState slot tDECODE

/-- DEADLINE_PASSED, once (R337). -/
def M.deadlineCheck (m : M) (slot ft : Nat) : M :=
  let d := m.tally slot oDEADLINE 6
  if d != 0 && !m.copyStale && decide (d < ft) && !m.tFlag slot fDEADLINE then (m.setTFlag slot fDEADLINE true).count CMT_DEADLINE_PASSED_CNT
  else m

/-- An entry whose result holds is committed: the tokens it posts, and the die. -/
def M.commitItem (m : M) (step ft : Nat) (b : BatchItem) (r : StepResult) : List Nat × M :=
  let slot := b.slot
  let posted := m.posted b r
  let m := (m.advanceEntry b r).freeTailings slot
  let m := ((m.entryState b posted).deadlineCheck slot ft).setTally slot oLAST_STEP 4 step
  let m := if b.kind = 1 then m else (m.postTokens slot step b.postPos posted ft).countBy CMT_TOKEN_CNT posted.length
  let m :=
    if b.kind = 0 then (m.countBy CMT_DRAFT_ACCEPT_CNT r.accept).countBy CMT_DRAFT_REJECT_CNT (b.spec - r.accept) else m
  let m := if m.tState slot = tSHIP_OUT ∧ !m.tFlag slot fCANCEL then m.shipBegin slot else m
  (posted, m.serveCancel slot step ft)

/-- States from which the commit unit moves an entry (Table 8.3). -/
def commitStates : List Nat := [tQUEUED, tPREFILL, tDECODE]

/-- One batch entry: faulted, or committed with its tenant's counts (R334, R340, R341). -/
def M.commitEntry (m : M) (step ft : Nat) (b : BatchItem) (r : StepResult) (ts : List TenantTotal) : List TenantTotal × M :=
  let m := m.tallyUnit b.slot
  if !commitStates.contains (m.tState b.slot) then (ts, m)
  else if m.resultInvalid b r then
    (ts, ((m.count CMT_RESULT_INVALID_CNT).errorClass 11 3 0 b.slot).faultEntry b.slot step ft)
  else if m.tFlag b.slot fFAULT then (ts, m.faultEntry b.slot step ft)
  else
    let (posted, m) := m.commitItem step ft b r
    let p := if b.kind = 0 then 0 else b.count
    (if p = 0 ∧ posted = [] then ts else addTenant b.tenant p posted.length ts, m)

/-! ## The report to the Weighbridge (R339, R606, Table 17.3) -/

/-- A report frame. -/
def reportFrame (rseq step ft session : Nat) (ts : List TenantTotal) : Bytes :=
  let body := toBytes 8 rseq ++ toBytes 8 step ++ toBytes 8 ft ++ toBytes 2 ts.length ++ toBytes 2 session ++
    ts.flatMap fun t => toBytes 2 t.tenant ++ toBytes 6 t.prefill ++ toBytes 6 t.output
  body ++ toBytes 4 (crc32c body)

/-- The frame goes out twice in a row with one RSEQ. -/
def M.sendReport (m : M) (step ft : Nat) (ts : List TenantTotal) : M :=
  let f := reportFrame (m.die.rseq + 1) step ft m.die.session ts
  { m with die.rseq := m.die.rseq + 1, die.wbOut := m.die.wbOut ++ [f, f] }

/-! ## Commit -/

/-- CMT_STATUS (Table 8.18). -/
def M.commitStatus (m : M) (step attempt state : Nat) : M :=
  m.setReg CMT_STATUS (BitVec.ofNat 64 (step % 2 ^ 32 * 2 ^ 32 + attempt % 8 * 256 + state))

/-- The batch list and the results of a record, as stored. -/
def M.recordEntries (m : M) (c : Composition) : List (BatchItem × StepResult) × M :=
  let n := c.items.length
  let (bs, m) := m.recordRead c.number batchOff (32 * n)
  let (rs, m) := m.recordRead c.number c.resultOff (resultSize * n)
  ((List.range n).map fun i => (batchItem (slice bs (32 * i) 32), stepResult (slice rs (resultSize * i) resultSize)), m)

/-- The commit sequence, from the record, with a sampled time (R334). -/
def M.commitStep (m : M) (c : Composition) (ft : Nat) : M :=
  let m := m.commitStatus c.number c.attempt 1
  let m := m.flushEvents
  let (es, m) := m.recordEntries c
  let (ts, m) := es.foldl (fun (ts, m) e => m.commitEntry c.number ft e.1 e.2 ts) ([], m)
  let m := m.sendReport c.number ft ts
  let m := (m.recordMark c rRSTATE 1).setReg CMT_LAST_STEP (BitVec.ofNat 64 c.number)
  let m := ((m.raise FMN_HOST_IRQ_EVT 0).count CMT_STEP_COMMIT_CNT).commitStatus c.number c.attempt 0
  let m : M := { m.serveReleases with die.fmn.composed := none }
  m.stepBoundary

/-! ## Abort and replay (R342, R494 to R496, R506) -/

/-- The uncommitted pages of the batch are freed (R286). -/
def M.freeBatch (m : M) (c : Composition) : M := c.items.foldl (fun m i => m.freeTailings i.slot) m

/-- A block capture of an uncorrectable error that the Foreman reads and clears at each abort (R496). -/
def isUeCapture (a : Nat) : Bool :=
  a == FMN_ASSAY_CAP0 ||
    (decide (a < 0x11000000000) &&
      (if a / 0x10000000 % 32 = 17 then a % 0x10000000 == 0xF000000 + CLU_STOPE_UE_CAP0
       else a % 0x10000000 == 0xF000000 + CORE_ECC_UE_CAP0)) ||
    (decide (0x200000000000 ≤ a) && decide (a < 0x200020000000) && a % 0x1000000 == SEAM_UE_CAP0)

def M.clearCaptures (m : M) : M :=
  { m with die.regs := m.die.regs.map fun p => if isUeCapture p.1 then (p.1, Machine.setFld p.2 63 63 0) else p }

/-- The first error of the attempt that set its error status. -/
def M.firstError (m : M) : Option ErrorReport := (m.die.step.bind (·.first)).join

/-- What the Foreman does with a failed attempt: its first error is kept, captures and reports are taken, and cores are
restored (R496, R506). -/
def M.takeAttempt (m : M) (c : Composition) : Composition × M :=
  let c := { c with errors := c.errors ++ [m.firstError] }
  (c, m.clearCaptures.takeReports.restoreCores)

/-- A new attempt is named: its start is the Foreman's choice (log entry 72). -/
def M.nameAttempt (m : M) (c : Composition) (attempt : Nat) : M :=
  let start := m.movedStart (m.die.ft + m.freeValue)
  let c : Composition := { c with attempt, start, heldCounted := false }
  let m : M := { m.spend with die.fmn.composed := some c }
  let m := (m.repairRecord c).recordMark c rATTEMPT (BitVec.ofNat 8 attempt)
  match m.die.fmn.run with
  | some r => m.nameStart r start
  | none => m

/-- The abort of a step, which is replayed (R342). -/
def M.abortReplay (m : M) (s : Step) (c : Composition) : M :=
  let m := (m.commitStatus c.number s.attempt 3).freeBatch c
  let m := (m.recordMark c rRSTATE 2).count CMT_STEP_REPLAY_CNT
  let (c, m) := m.takeAttempt c
  let m := (m.nameAttempt c (s.attempt + 1)).commitStatus c.number s.attempt 0
  m.stepBoundary

/-! ## Step faults (R343, R497 to R501) -/

/-- DROP (R499). -/
def M.dropStep (m : M) (c : Composition) : M :=
  let m := ((m.freeBatch c).recordMark c rRSTATE 3).count FMN_STEP_DROP_CNT
  let m : M := { m with die.fmn.peerLost := none, die.fmn.deciding := none, die.step := none, die.uses := [], die.writes := [] }
  (m.giveUp c).stepBoundary

/-- Every failed attempt named the same row of one memory (Table 13.2). -/
def sameRow (es : List (Option ErrorReport)) : Option ErrorReport :=
  match es with
  | some e :: rest =>
    if e.block ≤ 1 ∧ e.cls ≠ 10 ∧ rest.all (fun x => match x with
        | some y => y.block == e.block && y.inst == e.inst && y.memory == e.memory && y.bank == e.bank && y.row == e.row && y.cls != 10
        | none => false) then some e else none
  | _ => none

/-- The physical core that an error names: an Assay mismatch names one in FMN_ASSAY_CAP0. -/
def errorCore (e : ErrorReport) : Option Nat :=
  if e.cls = 10 then some e.detail else if e.block = 0 then some (e.inst / 32 * 17 + e.inst % 32) else none

/-- Every failed attempt named one core. -/
def sameCore (es : List (Option ErrorReport)) : Option Nat :=
  match es with
  | some e :: rest =>
    if rest.all fun x => (x.bind errorCore) == errorCore e then errorCore e else none
  | _ => none

/-- What a replay limit has the Foreman repair (Table 13.2): the row that every failed attempt named, or the core. -/
inductive UnitRepair where
  | row (core memory bank row : Nat)
  | core (core : Nat)
  deriving DecidableEq, Repr

/-- A repair that can be made: the bank has the row and a spare one, or the site a spare core and the shards of the core's
images are held (R508, R513). -/
def M.canRepair (m : M) : UnitRepair → Bool
  | .row c mem bank row =>
    decide (bank < bankCount mem) && decide (row < bankRows mem bank) && decide (m.repairsIn c mem bank < spareRows mem)
  | .core p =>
    m.canRetire (p / 17) (p % 17)

/-- The repair that follows a replay limit, if one can be made. -/
def M.limitRepair (m : M) (c : Composition) : Option UnitRepair :=
  let row := (sameRow c.errors).map fun e =>
    UnitRepair.row (e.inst / 32 * 17 + e.inst % 32) (if e.block = 1 then 7 else e.memory) e.bank e.row
  ([row, (sameCore c.errors).map .core].filterMap id).find? m.canRepair

/-- A repair carried out: the row (R512), or the core in favor of its site's spare (R508). -/
def M.repairUnit (m : M) : UnitRepair → M
  | .row c mem bank row =>
    m.rowRepair c (mem == 7) (BitVec.ofNat 64 (2 ^ 28 + (if mem = 7 then 0 else mem) * 2 ^ 24 + bank * 2 ^ 16 + row))
  | .core p =>
    (m.prepareSpare (p / 17) (p % 17)).spareCommand (p / 17) 1 (p % 17)

/-- RERUN (R498). -/
def M.rerun (m : M) (c : Composition) : M :=
  let m := (m.recordMark c rRSTATE 0).count FMN_STEP_RERUN_CNT
  m.nameAttempt { c with errors := [] } 4

/-- The barrier at which the module commits. -/
def M.commitBar (m : M) : Nat := (m.die.fmn.run.map (·.commitBar)).getD 0

/-! ### The group's decision (R501)

The coordinator, at the root of the commit barrier's tree, decides RERUN or DROP for every module. What members tell it,
and how it decides, are the model's (log entry 84): a member says whether it can rerun the step, which takes an attempt
below 4, REPAIR_EN, and a repair that can be made or no error of its own; one that cannot makes the step dropped. -/

/-- The module decides with a group. -/
def M.grouped (m : M) : Bool := m.flag CMT_CTRL 0 && m.barValid m.commitBar

/-- Body of a vote (kind 3, to the parent) or a decision (kind 4, to the children): whether step `n` is to be rerun. -/
def decideBody (kind b from_ n : Nat) (able : Bool) : Bytes :=
  toBytes 1 kind ++ toBytes 1 b ++ zeros 2 ++ toBytes 2 from_ ++ toBytes 1 (bit able) ++ zeros 1 ++ toBytes 8 n

/-- The module can rerun a failed step (Table 13.2, R498). -/
def M.canRerun (m : M) (c : Composition) : Bool :=
  decide (c.attempt < 4) && m.flag FMN_ERR_CTRL 0 && (c.errors.all (·.isNone) || (m.limitRepair c).isSome)

/-- The step waits for the group's decision: no attempt of it runs, and no step starts. -/
def M.awaitDecision (m : M) (c : Composition) : M :=
  let m := (m.freeBatch c).stepBoundary
  { m with die.fmn.composed := some c, die.fmn.deciding := some c.number }

/-- A decision carried out (R498, R499, R501). -/
def M.decided (m : M) (n : Nat) (able : Bool) : M :=
  let m : M := { m with die.fmn.votes := m.die.fmn.votes.filter fun v => v.2.1 != n }
  match m.die.fmn.composed with
  | some c =>
    if c.number ≠ n then m
    else
      let m : M := { m with die.fmn.deciding := none }
      if able then (match m.limitRepair c with
        | some r => m.repairUnit r
        | none => m).rerun c
      else m.dropStep c
  | none => m

/-- A decision goes to every child, and is carried out here. -/
def M.spreadDecision (m : M) (n : Nat) (able : Bool) : M :=
  ((m.barChildren m.commitBar).foldl (fun m p =>
    m.sendOn p tyFOREMAN [] (decideBody 4 m.commitBar m.moduleId n able)) m).decided n able

/-- What a member and those below it say: at the root it is the decision, elsewhere it goes to the parent. -/
def M.vote (m : M) (n : Nat) (able : Bool) : M :=
  if m.barRoot m.commitBar then m.spreadDecision n able
  else m.sendOn (m.barParent m.commitBar) tyFOREMAN [] (decideBody 3 m.commitBar m.moduleId n able)

/-- Every child has said that it can rerun the step that this module waits for. -/
def M.voteCheck (m : M) : M :=
  match m.die.fmn.deciding, m.die.fmn.composed with
  | some n, some c =>
    let modules := (m.barChildren m.commitBar).map fun p => m.fld (portReg p RYS_PORT_PARTNER) 15 0
    if m.canRerun c && modules.all fun x => m.die.fmn.votes.contains (x, n, true) then m.vote n true else m
  | _, _ => m

/-- A child's vote: one that cannot rerun decides at once. -/
def M.voteReceive (m : M) (from_ n : Nat) (able : Bool) : M :=
  if able then { m with die.fmn.votes := m.die.fmn.votes ++ [(from_, n, true)] }.voteCheck else m.vote n false

/-- DROP: in a group the coordinator's (R501). -/
def M.dropAction (m : M) (c : Composition) : M :=
  if m.grouped then (m.awaitDecision c).vote c.number false else m.dropStep c

/-- The site whose Stope row every failed attempt named, when its bank has no spare row left: it is retired (R513). -/
def M.stopeSite (m : M) (c : Composition) : Option Nat :=
  if m.flag FMN_ERR_CTRL 0 then
    match sameRow c.errors with
    | some e =>
      let site := e.inst / 32
      if e.block = 1 ∧ !m.canRepair (.row (17 * site) 7 e.bank e.row) then some site else none
    | none => none
  else none

/-- After a replay limit: a repair and a rerun, or a drop (Table 13.2); in a group the coordinator's decision. -/
def M.afterLimit (m : M) (c : Composition) : M :=
  let m := match m.stopeSite c with
    | some site => (m.retireSite site).2
    | none => m
  if !m.canRerun c then m.dropAction c
  else if m.grouped then (m.awaitDecision c).voteCheck
  else match m.limitRepair c with
    | some r => (((m.freeBatch c).stepBoundary).repairUnit r).rerun c
    | none => m.dropStep c

/-- The Foreman's message of its own, for the outcome of a barrier's generation: kind 1 asks and kind 2 answers; outcome 0
is no release, 1 clean, 2 with an error (R500; the layout is the model's, log entry 79). -/
def outcomeBody (kind b gen asker outcome t : Nat) : Bytes :=
  toBytes 1 kind ++ toBytes 1 b ++ toBytes 2 gen ++ toBytes 2 asker ++ toBytes 1 outcome ++ zeros 1 ++ toBytes 8 t

/-- The outcome of a group step is asked of the barrier's root, through the parents (R500). -/
def M.askOutcome (m : M) (c : Composition) : M :=
  let b := m.commitBar
  let gen := (m.bar b).gen
  if m.flag CMT_CTRL 0 && m.barValid b && !m.barRoot b then
    let m : M := { m with die.fmn.peerLost := some gen, die.fmn.composed := some c }
    m.sendOn (m.barParent b) tyFOREMAN [] (outcomeBody 1 b gen m.moduleId 0 0)
  else m.dropAction c

/-- The models whose steps a schedule fault stops, reported to software (Table 13.2). -/
def M.stopModel (m : M) (i : Nat) : M :=
  let models := m.die.fmn.models.map fun (p : Nat × Model) => if p.1 = i then (p.1, { p.2 with stopped := true }) else p
  { m.raise FMN_HOST_IRQ_EVT 4 with die.fmn.models := models }

/-- A PARKED request, which one is free, is expired, as on the low-page event; with none the event goes to software, which parks
or expires (R288, R497, log entry 85). -/
def M.relieve (m : M) : M :=
  let parked := (m.die.parked.map (·.1)).filter fun slot => m.tState slot == tPARKED
  match parked[m.freeValue % parked.length]? with
  | some slot =>
    let m := (m.spend.freeRequest slot (some SEAM_EXPIRE_PAGE_CNT)).setTState slot tEXPIRED
    { m.count TALLY_EXPIRED_CNT with die.parked := mapDel m.die.parked slot }
  | none => m.raise FMN_HOST_IRQ_EVT 2

/-- A step fault: recorded, captured and handed to firmware, which acts (R343, R497). -/
def M.stepFault (m : M) (s : Step) (c : Composition) (cause : Nat) : M :=
  let m := ((m.recordMark c rRSTATE 3).count CMT_STEP_FAULT_CNT).raise FMN_HOST_IRQ_EVT 1
  let m := if m.flag CMT_FAULT_CAP 63 then m
    else m.setReg CMT_FAULT_CAP (BitVec.ofNat 64 (2 ^ 63 + cause * 2 ^ 36 + s.attempt % 8 * 2 ^ 33 + c.number % 2 ^ 32))
  let m := m.commitStatus c.number s.attempt 4
  let (c, m) := m.takeAttempt c
  match cause with
  | 1 => m.afterLimit c
  | 2 =>
    (m.stopModel c.model).dropAction c
  | 4 => if s.groupAt.isSome && (m.bar m.commitBar).own then m.askOutcome c else m.dropAction c
  | _ => (if m.flag FMN_ERR_CTRL 0 then m.relieve else m).dropAction c

/-- What becomes of a step that does not commit (R342, R343). -/
def M.failStep (m : M) (s : Step) (c : Composition) : M :=
  if s.schedFault then m.stepFault s c 2
  else if s.exhausted then m.stepFault s c 3
  else if s.peerLost then m.stepFault s c 4
  else if s.attempt = 3 ∨ s.attempt = 7 then m.stepFault s c 1
  else m.abortReplay s c

/-! ## STEP_COMMIT, and the group's outcome -/

/-- The table-load entry has run on its cores, or was aborted (log entry 75): after an error it runs again; after a schedule fault
the model stops, and a load that waited for it is refused. -/
def M.tablesEnd (m : M) (s : Step) : M :=
  if s.schedFault then
    let m := match m.die.fmn.models with
      | (i, _) :: _ => m.stopModel i
      | [] => m
    let m := match m.die.fmn.tableLoad with
      | some mb => { m with die.fmn.tableLoad := none }.mbComplete mb ccREFUSED
      | none => m
    m.takeReports.stepBoundary
  else if !m.computeDone then m
  else if s.error then ((s.cores.foldl M.waitTables m).clearCaptures.takeReports.restoreCores).stepBoundary
  else m.stepBoundary

/-- The error status is sampled once every LAST entry has released, or once the step was aborted (R31, R95, R334). In group
mode the module then arrives at its commit barrier (R344). -/
def M.stepCommit (m : M) : M :=
  match m.die.step, m.die.fmn.composed with
  | some s, some c =>
    if s.tables then m.tablesEnd s
    else if s.groupAt.isSome || !(m.computeDone || s.schedFault) then m
    else if m.flag CMT_CTRL 0 then
      let m := (m.updStep fun s => { s with groupAt := some m.die.ft }).commitStatus c.number s.attempt 2
      m.barArriveOwn m.commitBar (bit s.error) 0
    else if s.error then m.failStep s c
    else m.commitStep c m.die.ft
  | some s, none => if s.tables then m.tablesEnd s else m
  | none, _ => m

def execStepCommit : State → Host.Outcome State Fault Refusal := onLive M.stepCommit

/-- The commit barrier's release: every module commits when the OR is clean, and none when it is not (R344). -/
def M.groupResolve (m : M) (flags : Nat) : M :=
  match m.die.step, m.die.fmn.composed with
  | some s, some c =>
    match s.groupAt, m.die.fmn.peerLost with
    | some t, none =>
      if flags.testBit 0 then (m.count CMT_GROUP_ABORT_CNT).failStep s c
      else m.commitStep c t
    | _, _ => m
  | _, _ => m

/-- A release acted on (R476): the commit barrier resolves the step, and the start barrier names the composed step's start
(R26). -/
def M.releaseAct (m : M) (b : Nat) : M :=
  match m.barAct b with
  | (none, m) => m
  | (some (flags, _, t), m) =>
    if b = m.commitBar ∧ m.flag CMT_CTRL 0 then m.groupResolve flags
    else if b = Config.startBarrier ∧ !m.inStep then m.startNamed t
    else m

def execBarrierReleaseAct (bar : Nat) : State → Host.Outcome State Fault Refusal := onLive (M.releaseAct · bar)

/-- A release received; one that is late acts at once (R474, R477). -/
def M.releaseReceive (m : M) (msg : Bytes) : M :=
  match m.barRelease msg with
  | (m, some b) => m.releaseAct b
  | (m, none) => m

def execBarReleaseReceive (_port : Nat) (msg : Bytes) : State → Host.Outcome State Fault Refusal :=
  onLive (M.releaseReceive · msg)

/-- The commit barrier has not released in time (R345). -/
def M.groupWatchdog (m : M) : M :=
  match m.die.step, m.die.fmn.composed with
  | some s, some c =>
    match s.groupAt, m.die.fmn.peerLost with
    | some t, none => ((m.reach (t + m.regN CMT_GROUP_WDOG)).errorClass 14 4 0 0).stepFault s c 4
    | _, _ => m
  | _, _ => m

def execGroupWdogExpiry : State → Host.Outcome State Fault Refusal := onLive M.groupWatchdog

/-- The outcome that the root knows of a generation of its barrier. -/
def M.outcomeOf (m : M) (b gen : Nat) : Nat × Nat :=
  match (m.bar b).last with
  | some (g, flags, t) => if g = gen then (if flags.testBit 0 then 2 else 1, t) else (0, 0)
  | none => (0, 0)

/-- The open step's outcome is known: LATE COMMIT or DROP (R500). -/
def M.outcomeKnown (m : M) (gen outcome t : Nat) : M :=
  match m.die.fmn.peerLost, m.die.fmn.composed with
  | some g, some c =>
    if g ≠ gen then m
    else if outcome = 1 then { m.count FMN_LATE_COMMIT_CNT with die.fmn.peerLost := none }.commitStep c t
    else m.dropStep c
  | _, _ => m

/-! ### Ceilings raised to the group (R597) -/

/-- At the root the ceilings that a module raises are kept; elsewhere they go on to the parent. -/
def M.ceilingsReceive (m : M) (b : Nat) (body : Bytes) : M :=
  if !m.barValid b then m
  else if m.barRoot b then
    { m with die.fmn.groupCeilings := mapSet m.die.fmn.groupCeilings (numAt body 4 2) ((List.range 4).map fun i => byteAt body (8 + i)) }
  else m.sendOn (m.barParent b) tyFOREMAN [] (slice body 0 16)

/-- The module's ceilings: thermal, power cap, input and droop (Table 16.7). -/
def M.ceilings (m : M) : List Nat := (List.range 4).map m.ceiling

/-- A change of a ceiling: in group mode the Foreman raises it to the group's coordinator, at the root of the commit barrier
(the message is the model's, kind 5, log entry 132). -/
def M.raisingCeilings (m : M) (f : M → M) : M :=
  let m' := f m
  if m'.grouped && m'.ceilings != m.ceilings then
    m'.ceilingsReceive m'.commitBar (toBytes 1 5 ++ toBytes 1 m'.commitBar ++ zeros 2 ++ toBytes 2 m'.moduleId ++ zeros 2 ++
      m'.ceilings.flatMap (toBytes 1) ++ zeros 4)
  else m'

/-- A FOREMAN message: a query of an outcome goes on to the parent until the root answers it (R500), a vote goes up the
tree and a decision down (R501), ceilings up (R597). -/
def M.foremanMessage (m : M) (msg : Bytes) : M :=
  let body := msgBody msg
  let b := byteAt body 1
  let gen := numAt body 2 2
  match byteAt body 0 with
  | 1 =>
    if !m.barValid b then m
    else if m.barRoot b then
      let (o, t) := m.outcomeOf b gen
      m.sendMessage tyFOREMAN (numAt body 4 2) [] (outcomeBody 2 b gen (numAt body 4 2) o t)
    else m.sendOn (m.barParent b) tyFOREMAN [] (slice body 0 16)
  | 2 => if b = m.commitBar then m.outcomeKnown gen (byteAt body 6) (numAt body 8 8) else m
  | 3 => if b = m.commitBar ∧ m.grouped then m.voteReceive (msgSrc msg) (numAt body 8 8) (byteAt body 6 == 1) else m
  | 4 => if b = m.commitBar ∧ m.grouped then m.spreadDecision (numAt body 8 8) (byteAt body 6 == 1) else m
  | 5 => m.ceilingsReceive b body
  | _ => m

def execForemanMessage (msg : Bytes) : State → Host.Outcome State Fault Refusal := onLive (M.foremanMessage · msg)

/-! ## Tally entries (R312 to R314) -/

/-- A firmware write of a word, or a half, of an entry: applied after any update the module makes in the same cycle
(R12, R313). -/
def M.tallyWrite (m : M) (slot offset width : Nat) (value : Word) (sameCycle : Bool) : M :=
  if !((width == 8 || width == 4) && offset % width == 0) then m.badAccess
  else if tallySlots ≤ slot ∨ 64 ≤ offset then m
  else
    let m := (m.tallyMeet slot offset width).writeMasked tallyMask (tallyBase slot + offset) (toBytes width value.toNat)
    if sameCycle then m.count TALLY_FW_WR_DEFER_CNT else m

def execTallyEntryWrite (slot offset width : Nat) (value : Word) (sameCycle : Bool) :
    State → Host.Outcome State Fault Refusal := onLive (M.tallyWrite · slot offset width value sameCycle)

def execTallyUe (slot : Nat) : State → Host.Outcome State Fault Refusal := onLive (M.tallyError · slot)

end Sys2Proof.Machine
end

