-- ==== Sys2Proof/Machine/Ceilings.lean ====
section
/-! DEFINITION. The commands that may change a frequency ceiling, which in group mode is raised to the group's coordinator
(R570, R591 to R593, R596, R597). -/
namespace Sys2Proof.Machine

def execInputUndervoltage : State → Host.Outcome State Fault Refusal := onManaged (M.raisingCeilings · M.inputUndervoltage)

def execInputUndervoltageClear : State → Host.Outcome State Fault Refusal :=
  onManaged (M.raisingCeilings · M.inputUndervoltageClear)

def execDroopWindow (region : Nat) : State → Host.Outcome State Fault Refusal :=
  onLive (M.raisingCeilings · (M.droopWindow · region))

def execThermalCheck : State → Host.Outcome State Fault Refusal := onManaged (M.raisingCeilings · M.thermalCheck)

def execEmergencyHoldEnd : State → Host.Outcome State Fault Refusal := onManaged (M.raisingCeilings · M.emergencyHoldEnd)

def execPowerCapCheck : State → Host.Outcome State Fault Refusal := onManaged (M.raisingCeilings · M.powerCapCheck)

end Sys2Proof.Machine
end

