-- ==== Sys2Proof/Machine/Requests.lean ====
section
/-! DEFINITION. Request commands of the submission rings (Table 14.5: SUBMIT, CANCEL, RELEASE, EXTEND, REPREFILL, SHIP,
QUERY; R315 to R317, R324, R389, R532, R533). -/
namespace Sys2Proof.Machine

/-! ## Prompts -/

/-- Limits of PROMPT_LEN (Table 8.5). -/
def promptLenOk (n : Nat) : Bool := decide (1 ≤ n) && decide (n ≤ 2 ^ 31)

/-- The code that a prompt's length and address give, when they are not in order (Table 8.5, Table 14.4). -/
def promptCheck (len addr : Nat) : Option Nat :=
  if !promptLenOk len || addr % 16 != 0 then some ccINVALID
  else if !inCarve addr (4 * len) then some ccACCESS
  else none

def M.setPrompt (m : M) (slot : Nat) (p : Prompt) : M := { m with die.fmn.prompts := mapSet m.die.fmn.prompts slot p }

/-! ## SUBMIT -/

/-- Reserved bits of a SUBMIT entry are zero (Table 8.5). -/
def M.submitClean (m : M) (e : Nat) : Bool :=
  decide (m.carveN (e + 2) 1 < 8) && decide (m.carveN (e + 12) 2 < 4096) && decide (m.carveN (e + 14) 2 < 4) &&
    m.carveN (e + 30) 2 == 0 && m.carveN (e + 58) 70 == 0

/-- The entry of a request that is submitted: QUEUED, under the running epoch (R389, Table 8.1). -/
def M.submitEntry (m : M) (e slot root : Nat) : M :=
  let rf := m.carveN (e + 14) 2
  let flags := 8 * (rf % 2) + 16 * (rf / 2 % 2)
  m.write (tallyBase slot)
    (toBytes 1 tQUEUED ++ m.carve (e + 2) 1 ++ m.carve (e + 12) 2 ++ zeros 4 ++ toBytes 4 root ++ toBytes 2 m.runEpoch ++
      m.carve (e + 3) 1 ++ zeros 1 ++ m.carve (e + 16) 8 ++ m.carve (e + 24) 6 ++ zeros 2 ++ m.carve (e + 32) 4 ++
      toBytes 4 flags ++ m.carve (e + 44) 4 ++ m.carve (e + 36) 4 ++ zeros 4 ++ m.carve (e + 40) 4 ++ zeros 4 ++
      m.carve (e + 8) 4)

/-- SUBMIT: FREE to QUEUED; the slot is written back and its ring zeroed (R324). Without a table block for its root it
completes as without a slot (log entry 136). -/
def M.submitStart (m : M) (e : Nat) : M × Option Nat :=
  let model := m.carveN (e + 3) 1
  let p := promptCheck (m.carveN (e + 44) 4) (m.carveN (e + 48) 8)
  if !m.submitClean e ∨ p = some ccINVALID then (m, some ccINVALID)
  else if (mapGet m.die.fmn.models model).isNone then (m, some ccNO_MODEL)
  else if p.isSome then (m, p)
  else match m.freeSlot with
    | (none, _) => (m, some ccNO_SLOT)
    | (some slot, m') => match m'.allocRoot slot (Config.rootGeometry model).toNat with
      | (none, _) => (m, some ccNO_SLOT)
      | (some root, m') =>
        let m := ((m'.submitEntry e slot root).clearRing slot).setPrompt slot
          { addr := m.carveN (e + 48) 8, first := none, start := 0 }
        let m : M := { m with die.fmn.shipDest := mapSet m.die.fmn.shipDest slot (m.carveN (e + 56) 2) }
        (m.carveWrite (carveWrap (e + 4)) (toBytes 4 slot), some ccOK)

def execSubmit (ring : Nat) : State → Host.Outcome State Fault Refusal :=
  onLive fun m => m.ringCommand ring 0x01 fun e _ m => m.submitStart e

/-! ## CANCEL and RELEASE -/

/-- CANCEL (R317, R357, R533). -/
def M.cancelStart (m : M) (e : Nat) : M × Option Nat :=
  let m := m.tallyUnit (m.entrySlot e)
  if !m.entryClean e [] then (m, some ccINVALID)
  else match m.cancelSlot (m.entrySlot e) with
    | some m => (m, some ccOK)
    | none => (m, some ccSTATE)

def execCancel (ring : Nat) : State → Host.Outcome State Fault Refusal :=
  onLive fun m => m.ringCommand ring 0x02 fun e _ m => m.cancelStart e

/-- RELEASE: one of a slot in the batch is latched until after the commit (R317, R533). -/
def M.releaseStart (m : M) (ring e i : Nat) : M × Option Nat :=
  let slot := m.entrySlot e
  let m := m.tallyUnit slot
  if !m.entryClean e [] then (m, some ccINVALID)
  else if m.inBatch slot then ({ m with die.fmn.releases := m.die.fmn.releases ++ [(slot, ring, i)] }, none)
  else match m.releaseSlot slot with
    | some m => (m, some ccOK)
    | none => (m, some ccSTATE)

def execRelease (ring : Nat) : State → Host.Outcome State Fault Refusal :=
  onLive fun m => m.ringCommand ring 0x05 fun e i m => m.releaseStart ring e i

/-! ## EXTEND and REPREFILL -/

/-- EXTEND is refused to an entry that the REPREFILL policy handles (Table 9.5). -/
def M.extendRefused (m : M) (slot : Nat) : Bool := m.tFlag slot fEPOCH && m.policyFor slot == 1

/-- EXTEND: DONE to QUEUED, the carry entry's base token before the new prompt (R532). -/
def M.extendStart (m : M) (e : Nat) : M × Option Nat :=
  let slot := m.entrySlot e
  let m := m.tallyUnit slot
  let len := m.carveN (e + 8) 4
  let addr := m.carveN (e + 16) 8
  if !m.entryClean e [(8, 16)] then (m, some ccINVALID)
  else if m.tState slot ≠ tDONE ∨ m.extendRefused slot then (m, some ccSTATE)
  else match promptCheck len addr with
    | some c => (m, some c)
    | none =>
      let (carry, m) := m.carry slot
      let m := ((m.setTally slot oPROMPT 4 (1 + len)).setTally slot oMAX_LEN 4 (m.carveN (e + 12) 4)).setTState slot tQUEUED
      let m := (m.setTFlag slot fSTOP false).setTFlag slot fMAX false
      (m.setPrompt slot { addr, first := some (carry.getD 0 0), start := m.tLen slot }, some ccOK)

def execExtend (ring : Nat) : State → Host.Outcome State Fault Refusal :=
  onLive fun m => m.ringCommand ring 0x06 fun e _ m => m.extendStart e

/-- REPREFILL: STATE_INCOMPLETE to QUEUED with nothing committed, under the running epoch, with a new root (R316, Table
8.3); without a table block for one it completes with STATE (log entry 136). -/
def M.reprefillStart (m : M) (e : Nat) : M × Option Nat :=
  let slot := m.entrySlot e
  let m := m.tallyUnit slot
  let len := m.carveN (e + 8) 4
  let addr := m.carveN (e + 16) 8
  if !m.entryClean e [(8, 4), (16, 8)] then (m, some ccINVALID)
  else if m.tState slot ≠ tINCOMPLETE then (m, some ccSTATE)
  else match promptCheck len addr with
    | some c => (m, some c)
    | none => match m.allocRoot slot (Config.rootGeometry (m.tModel slot)).toNat with
      | (none, _) => (m, some ccSTATE)
      | (some root, m) =>
        let m := ((m.setTally slot oROOT 4 root).setLen slot 0).setTally slot oPROMPT 4 len
        let m := ((m.setTally slot oEPOCH 2 m.runEpoch).setTFlag slot fEPOCH false).setTSpec slot 0
        ((m.setTState slot tQUEUED).setPrompt slot { addr, first := none, start := 0 }, some ccOK)

def execReprefill (ring : Nat) : State → Host.Outcome State Fault Refusal :=
  onLive fun m => m.ringCommand ring 0x07 fun e _ m => m.reprefillStart e

/-! ## SHIP and QUERY -/

/-- SHIP: the flag and the destination of a QUEUED or PREFILL entry; one of a slot in the batch takes effect after the commit
(R529). -/
def M.shipStart (m : M) (ring e i : Nat) : M × Option Nat :=
  let slot := m.entrySlot e
  let m := m.tallyUnit slot
  let dest := m.carveN (e + 8) 2
  if !m.entryClean e [(8, 2)] then (m, some ccINVALID)
  else if m.inBatch slot then ({ m with die.fmn.shipWaits := m.die.fmn.shipWaits ++ [(slot, ring, i, dest)] }, none)
  else match m.shipSlot slot dest with
    | some m => (m, some ccOK)
    | none => (m, some ccSTATE)

def execShip (ring : Nat) : State → Host.Outcome State Fault Refusal :=
  onLive fun m => m.ringCommand ring 0x08 fun e i m => m.shipStart ring e i

/-- An entry as a QUERY shows it: of a slot in the batch, as it stood when the step was composed (R533). -/
def M.shownEntry (m : M) (slot : Nat) : Bytes :=
  match m.inBatch slot, m.die.fmn.composed.bind fun c => mapGet c.before slot with
  | true, some bs => bs
  | _, _ => m.read (tallyBase slot) 64

/-- QUERY: the entry at bytes 64 to 127 (R533). -/
def M.queryStart (m : M) (e : Nat) : M × Option Nat :=
  let slot := m.entrySlot e
  let m := m.tallyUnit slot
  if !m.entryClean e [] then (m, some ccINVALID)
  else if m.tState slot = tFREE then (m, some ccSTATE)
  else (m.carveWrite (carveWrap (e + 64)) (m.shownEntry slot), some ccOK)

def execQuery (ring : Nat) : State → Host.Outcome State Fault Refusal :=
  onLive fun m => m.ringCommand ring 0x09 fun e _ m => m.queryStart e

end Sys2Proof.Machine
end

