-- ==== Sys2Proof/Machine/Receive.lean ====
section
/-! DEFINITION. What arrives on a Rysia port: flits, their control messages, and the messages of the transport (R401,
R402, R410, R445, R446). -/
namespace Sys2Proof.Machine

/-! ## Control messages (Table 10.4) -/

/-- A LANE message, by its OP. -/
def M.laneMessageReceive (m : M) (p : Nat) (msg : Bytes) : M :=
  match byteAt msg 2 with
  | 1 => m.spareReq p msg
  | 2 => m.mirrorOn p msg
  | 3 => m.switchedMsg p msg
  | 4 => m.releasedMsg p msg
  | 5 => m.degradeReq p msg
  | 6 => m.degradeMark p msg
  | 7 => m.degradeDone p msg
  | 8 => m.widenReq p msg
  | 9 => m.widenMark p msg
  | 10 => m.widenDone p msg
  | _ => m

/-- A control message acted on, by its type (R402). -/
def M.controlMessage (m : M) (p : Nat) (msg : Bytes) : M :=
  match byteAt msg 0 with
  | 1 => m.creditReceive p msg
  | 2 => m.nackReceive p msg
  | 3 => m.initReceive p msg
  | 4 => m.initAckReceive p msg
  | 5 => m.notReadyReceive p msg
  | 6 => m.pingReceive p msg
  | 7 => m.pongReceive p msg
  | 8 => m.linkResume p msg
  | 9 => m.laneMessageReceive p msg
  | 10 => m.timeReceive p msg m.fine
  | 11 => m.downReceive p
  | _ => m

/-! ## Messages (R444 to R449) -/

/-- A SHIP_CTL message, by its OP. -/
def M.shipMessage (m : M) (msg : Bytes) : M :=
  match msgTs msg 12 1 with
  | 1 => m.offerReceive msg
  | 2 => m.acceptReceive msg
  | 3 => m.refuseReceive msg
  | 4 => m.rereqReceive msg
  | 5 => m.shipOutAnswer msg
  | 6 => m.shipOutAnswer msg
  | _ => m

/-- A message delivered in this module, by its type (Table 11.2). -/
def M.deliver (m : M) (p : Nat) (msg : Bytes) : M :=
  match msgType msg with
  | 1 => m.putReceive p msg
  | 2 => m.putDone msg
  | 3 => m.pageShip msg
  | 4 => m.shipMessage msg
  | 5 => m.shardRequest msg
  | 6 => m.shardData msg
  | 7 => m.notHeld msg
  | 8 => m.barArrive p msg
  | 9 => m.releaseReceive msg
  | 10 => m.foremanMessage msg
  | _ => m

/-- The header checks: its CRC, and its type against its class (R444, R445). -/
def messageOk (cls : Nat) (msg : Bytes) : Bool :=
  crc32c (slice msg 0 28) == numAt msg 28 4 && messageClass (msgType msg) == some cls

/-- A message that has arrived: discarded and counted, delivered, or forwarded (R444 to R446, R449). -/
def M.messageReceive (m : M) (p cls : Nat) (msg : Bytes) : M :=
  if !messageOk cls msg then m.count RYS_XPT_HDR_ERR_CNT
  else if msgDest msg = m.moduleId then (m.count RYS_XPT_MSG_RX_CNT).deliver p msg
  else m.forward cls msg

def execMessageReceive (p cls : Nat) (msg : Bytes) : State → Host.Outcome State Fault Refusal :=
  onLive (M.messageReceive · p cls msg)

/-! ## Flits (R401, R402, R410 to R414, R425) -/

/-- The header fields of a flit (Table 10.3). -/
structure FlitHeader where
  seq : Nat
  ack : Nat
  ctl : Bool
  cls : Nat
  rcls : Nat
  rcnt : Nat

def flitHeader (flit : Bytes) : FlitHeader :=
  let h := numAt flit 0 6
  { seq := bits h 47 28, ack := bits h 27 8, ctl := h.testBit 7, cls := bits h 6 5, rcls := bits h 4 3, rcnt := bits h 2 0 }

/-- The CRC of a flit checks (R400). -/
def flitGood (flit : Bytes) : Bool := crcFlit (slice flit 0 248) == numAt flit 248 8

/-- The units of a class that the bytes taken so far leave free: all but one, when `keep` bytes of its last flit stay. -/
def M.openUnits (m : M) (p cls : Nat) (keep : Bool) : M :=
  let k := at4 (m.port p).open_ cls - bit keep
  (m.freeUnits p cls k).updPort p fun x => { x with open_ := x.open_.set cls (at4 x.open_ cls - k) }

/-- The header of a message in transit has arrived, with what has come of its body: it is forwarded at once, or
discarded with its body (R445, R448 to R450). -/
def M.beginTransit (m : M) (p cls : Nat) (s : Bytes) : M :=
  let left := msgLen s - (s.length - 32)
  let r := if messageClass (msgType s) = some cls then m.forwardOn cls (s.take (32 + msgLen s)) left (4 * p + cls)
    else (none, m.count RYS_XPT_HDR_ERR_CNT)
  r.2.updPort p fun x => { x with transit := mapSet x.transit cls (r.1.getD 16, left) }

/-- The messages of a class's stream are taken in order (R443, R444): the body of the message in transit goes on, one
for another module is forwarded from its header on, and one for this module is taken whole. -/
def M.parseStream (p cls : Nat) : Nat → M → Bytes → M × Bytes
  | 0, m, s => (m, s)
  | n + 1, m, s =>
    let (out, left) := mapGetD (m.port p).transit cls (16, 0)
    if s.isEmpty then (m, [])
    else if 0 < left then
      let m := if out < 16 then m.feedMessage out cls (4 * p + cls) (s.take left) else m
      let m := m.updPort p fun x => { x with transit := mapSet x.transit cls (out, left - s.length) }
      M.parseStream p cls n (m.openUnits p cls (decide (left < s.length))) (s.drop left)
    else if byteAt s 0 = 0 then (m, [])
    else if s.length < 32 then (m, s)
    else if crc32c (s.take 28) ≠ numAt s 28 4 then (m.count RYS_XPT_HDR_ERR_CNT, [])
    else if msgDest s ≠ m.moduleId then
      M.parseStream p cls n (m.beginTransit p cls s) (s.drop (32 + msgLen s))
    else
      let total := 32 + msgLen s
      if s.length < total then (m, s)
      else
        let rest := s.drop total
        let m := (m.messageReceive p cls (s.take total)).openUnits p cls (!rest.isEmpty && byteAt rest 0 != 0)
        M.parseStream p cls n m rest

/-- The payload of an accepted data flit continues its class's stream (R443). -/
def M.takePayload (m : M) (p cls : Nat) (payload : Bytes) : M :=
  let s := mapGetD (m.port p).stream cls [] ++ payload
  let (m, rest) := M.parseStream p cls (s.length / 16 + 2) m s
  let m := m.updPort p fun x => { x with stream := mapSet x.stream cls rest }
  if rest.isEmpty then m.openUnits p cls false else m

/-- A data flit accepted: its unit, its credits and its payload (R410, R419, R421). -/
def M.acceptFlit (m : M) (p : Nat) (h : FlitHeader) (payload : Bytes) : M :=
  let m := m.count (portReg p RYS_PORT_FLIT_RX_CNT)
  let m := m.updPort p fun x => { x with
    expect := (x.expect + 1) % seqMod, accepted := x.accepted + 1, nackState := false
    reportOwed := x.reportOwed || (x.accepted + 1) % 64 == 0
    held := add4 x.held h.cls 1, open_ := add4 x.open_ h.cls 1
    inUse := sub4 x.inUse h.rcls h.rcnt, hdrApplied := (add4 x.hdrApplied h.rcls h.rcnt).map (· % 65536) }
  m.takePayload p h.cls payload

/-- A data flit with sequence E finds no unit free (R425). -/
def M.poolOverrun (m : M) (p : Nat) (h : FlitHeader) : Bool :=
  !h.ctl && m.pState p == pACTIVE && h.seq == (m.port p).expect && decide (poolUnits ≤ (m.port p).held.sum)

/-- A data flit with a good CRC, and a unit for it (R408, R410). -/
def M.dataFlit (m : M) (p : Nat) (h : FlitHeader) (flit : Bytes) : M :=
  let x := m.port p
  if m.pState p ≠ pACTIVE then m.count (portReg p RYS_PORT_UNADMITTED_DROP_CNT)
  else if h.seq = x.expect then m.acceptFlit p h (slice flit 6 242)
  else if seqNewer h.seq x.expect then (m.count (portReg p RYS_PORT_OOS_DISCARD_CNT)).nackEnter p
  else (m.count (portReg p RYS_PORT_DUP_DISCARD_CNT)).updPort p fun x => { x with reportOwed := true }

/-- The messages of a control flit's payload, acted on in order (R402). -/
def M.controlMessages (p : Nat) : Nat → M → Bytes → M
  | 0, m, _ => m
  | n + 1, m, s =>
    let type := byteAt s 0
    let len := 16 * byteAt s 1
    if type = 0 ∨ s.isEmpty then m
    else if 11 < type then m.count (portReg p RYS_PORT_CTL_UNKNOWN_CNT)
    else if s.length < len ∨ len = 0 then m
    else M.controlMessages p n (m.controlMessage p (s.take len)) (s.drop len)

/-- A control flit with a good CRC (R402, R412, R413). -/
def M.controlFlit (m : M) (p : Nat) (h : FlitHeader) (flit : Bytes) : M :=
  let m := if h.seq = (m.port p).expect then m.updPort p fun x => { x with nackState := false } else m
  M.controlMessages p 15 m (slice flit 6 240)

/-- The codewords that hold a flit's data are counted, each with the first flit it holds (R397). -/
def M.codewordsReceive (m : M) (p : Nat) (cs : List Codeword) : M :=
  cs.foldl (fun m c => if c.again then m else m.countCodewords p c.lane c.symbols (bit c.uncorrectable)) m

/-- A flit arrives: one that holds data of an uncorrectable codeword fails its CRC (R397, R401, R410 to R413, R422). -/
def M.flitReceive (m : M) (p : Nat) (f : ArrivedFlit) : M :=
  let h := flitHeader f.bytes
  let m := (m.codewordsReceive p f.codewords).updPort p fun x => { x with rxSlot := f.slot }
  if !flitGood f.bytes || f.codewords.any (·.uncorrectable) then
    let m := m.count (portReg p RYS_PORT_CRC_ERR_CNT)
    if m.portRuns p then m.nackEnter p else m
  else if h.ctl && (h.cls != 0 || h.rcls != 0 || h.rcnt != 0) then m.count (portReg p RYS_PORT_CRC_ERR_CNT)
  else
    let m := m.updPort p fun x => { x with lastGood := m.die.ft }
    if m.poolOverrun p h then (m.count (portReg p RYS_PORT_POOL_OVERRUN_CNT)).nackEnter p
    else
      let m := if m.portUp p then m.ackRead p h.ack else m
      if h.ctl then m.controlFlit p h f.bytes else m.dataFlit p h f.bytes

def execDataFlitReceive (p : Nat) (flit : ArrivedFlit) : State → Host.Outcome State Fault Refusal :=
  onLive (M.flitReceive · p flit)

def execControlFlitReceive (p : Nat) (flit : ArrivedFlit) : State → Host.Outcome State Fault Refusal :=
  onLive (M.flitReceive · p flit)

/-- The messages of this module to itself delivered (R446): they arrive on no port, 16. -/
def M.deliverLoopback (m : M) : M :=
  let due := m.die.loopback
  due.foldl (fun m q => m.messageReceive 16 q.1 q.2) { m with die.loopback := [] }

end Sys2Proof.Machine
end

