-- ==== Sys2Proof/Machine/Control.lean ====
section
/-! DEFINITION. Control-space accesses to registers: access types, locks, read-clear counters and what a write of a
register starts (R8 to R17). -/
namespace Sys2Proof.Machine

/-! ## Addresses -/

/-- A register access: 64 bits, or 32 bits of either half, naturally aligned (R12). -/
def registerOk (width a : Nat) : Bool := (width == 8 || width == 4) && a % width == 0

/-- What stands at a control-space address (Table 0.3). A core's window holds its 4 KiB of registers, its memories, and
addresses that Table 5.1 leaves out (R222). -/
inductive Place where
  /-- A memory address of a core's window, with the core. -/
  | core (c off : Nat)
  /-- Registers of a core's window. -/
  | coreRegs (c off : Nat)
  | cluster (site off : Nat)
  | seam (stack off : Nat)
  | port (p off : Nat)
  | tally (slot off : Nat)
  /-- A mailbox (R522). -/
  | mailbox (off : Nat)
  /-- Step table, group descriptors or patch store (chapter 6). -/
  | sequencer
  | weighbridge (off : Nat)
  | window (stack off : Nat)
  /-- Every other register, and addresses no table assigns. -/
  | other

/-- The place of an address. -/
def place (a : Nat) : Place :=
  if a < 0x11000000000 then
    let site := a / 0x200000000
    let slot := a / 0x10000000 % 32
    let off := a % 0x10000000
    if slot < 17 then if off < 0xF000000 ∨ 0xF001000 ≤ off then .core (17 * site + slot) off else .coreRegs (17 * site + slot) (off - 0xF000000)
    else if slot = 17 ∧ 0xF000000 ≤ off then .cluster site (off - 0xF000000)
    else .other
  else if 0x200000000000 ≤ a ∧ a < 0x200020000000 then .seam ((a - 0x200000000000) / 0x1000000) ((a - 0x200000000000) % 0x1000000)
  else if 0x210000000000 ≤ a ∧ a < 0x210001000000 then .port ((a - 0x210000000000) / 0x100000) ((a - 0x210000000000) % 0x100000)
  else if 0x230001000000 ≤ a ∧ a < 0x230001000000 + 64 * tallySlots then
    .tally ((a - 0x230001000000) / 64) ((a - 0x230001000000) % 64)
  else if 0x240000000000 ≤ a ∧ a < 0x240000004000 then .mailbox (a - 0x240000000000)
  else if (stepTableBase ≤ a ∧ a < stepTableBase + 0x8000) ∨ (groupBase ≤ a ∧ a < groupBase + 0x800) ∨
      (patchBase ≤ a ∧ a < patchBase + 0x40000) then .sequencer
  else if 0x260000000000 ≤ a ∧ a < 0x270000000000 then .weighbridge (a - 0x260000000000)
  else if stackBase 0 ≤ a ∧ a < stackBase 32 then
    .window ((a - stackBase 0) / 0x2000000000) ((a - stackBase 0) % 0x2000000000)
  else .other

/-- The place takes accesses of 1, 2, 4 and 8 bytes, as a memory does (log entry 52). -/
def Place.memory : Place → Bool
  | .core _ _ => true
  | .mailbox _ => true
  | .window _ _ => true
  | _ => false

/-- The width and alignment of an access are allowed (R12). -/
def accessAllowed (a width : Nat) : Bool := if (place a).memory then accessOk width a else registerOk width a

/-! ## Register writes (R9, R11) -/

/-- The bits of a 64-bit register that an access of this width at this address writes. -/
def writeMask (a width : Nat) : Word :=
  if width = 8 then ~~~0 else if a % 8 = 4 then 0xFFFFFFFF00000000 else 0xFFFFFFFF

/-- The written value in its place in the 64-bit register. -/
def writeValue (a width : Nat) (value : Word) : Word :=
  if width = 8 then value else if a % 8 = 4 then value <<< 32 else value &&& 0xFFFFFFFF

/-- What a write makes of a register by its access types: RW and RWL fields take the value, W1C bits clear, W1S bits set,
the rest stays (Table 0.5, R9, R10). -/
def RegRow.written (r : RegRow) (old mask v : Word) : Word :=
  let rw := BitVec.ofNat 64 r.rw &&& mask
  let w := (old &&& ~~~rw) ||| (v &&& rw)
  (w &&& ~~~(v &&& BitVec.ofNat 64 r.w1c &&& mask)) ||| (v &&& BitVec.ofNat 64 r.w1s &&& mask)

/-- A write of a register that starts nothing. -/
def M.plainWrite (m : M) (a : Nat) (mask v : Word) : M :=
  match regRow a with
  | some r => m.setReg a (r.written (m.reg a) mask v)
  | none => m

/-- The write reaches the field that begins at a bit. -/
def touches (mask : Word) (i : Nat) : Bool := mask.getLsbD i

/-! ## What a write starts -/

/-- HALT, held for the step boundary while a step runs (Table 2.12). -/
def M.writeHalt (m : M) (c : Nat) (v : Bool) : M :=
  if m.inStep then m.updCore c fun k => { k with nextHalt := some v }
  else
    let m := m.setFld (coreReg c CORE_CTRL) 0 0 (bit v)
    if (m.core c).st = .idle ∨ (m.core c).st = .halted then m.updCore c fun k => { k with st := m.restSt c } else m

/-- A write of a core's register. -/
def M.coreWrite (m : M) (c off a : Nat) (mask v : Word) : M :=
  if (m.core c).st = .retired then m
  else if off = CORE_CTRL then
    if touches mask 0 then (m.setFld a 1 1 (Machine.fld v 1 1)).writeHalt c (v.getLsbD 0) else m
  else if off = CORE_SCHED_FAULT then if v.getLsbD 63 then m.clearSchedFault c else m
  else if off = CORE_ACC_MODE then if touches mask 0 then (m.writeAccMode c (v.getLsbD 0)).modeStatus else m
  else if off = CORE_PAD then
    if !touches mask 0 then m
    else if m.inStep then m.updCore c fun k => { k with nextPad := some (Machine.fld v 31 0) }
    else m.setFld a 31 0 (Machine.fld v 31 0)
  else if off = CORE_ECC_INJECT then if touches mask 0 then m.injectArm c false v else m
  else if off = CORE_ROW_REPAIR then if touches mask 0 then m.rowRepair c false v else m
  else m.plainWrite a mask v

/-- A write of a cluster register. -/
def M.clusterWrite (m : M) (site off a : Nat) (mask v : Word) : M :=
  if off = CLU_STOPE_ECC_INJECT then if touches mask 0 then m.injectArm (17 * site) true v else m
  else if off = CLU_ROW_REPAIR then if touches mask 0 then m.rowRepair (17 * site) true v else m
  else if off = SHAFT_ROUTER_SEL then if touches mask 0 then m.selectRouter site (v.getLsbD 0) else m
  else if off = CLU_SPARE_CMD then if touches mask 0 then m.spareCommand site (Machine.fld v 9 8) (Machine.fld v 4 0) else m
  else m.plainWrite a mask v

/-- A write of a Seam controller's register. -/
def M.seamWrite (m : M) (s off a : Nat) (mask v : Word) : M :=
  if off = SEAM_REGION then if touches mask 0 then m.regionWrite s v else m
  else if off = SEAM_CH_CMD then if touches mask 0 then m.channelCommand s (Machine.fld v 9 8) (Machine.fld v 4 0) else m
  else if off = SEAM_FREE_LOW then (m.plainWrite a mask v).lowCheck s
  else m.plainWrite a mask v

/-- A write of a port's register. -/
def M.portWrite (m : M) (p off a : Nat) (mask v : Word) : M :=
  if off = RYS_PORT_CTRL then
    if touches mask 0 then (m.setFld a 2 2 (Machine.fld v 2 2)).portControl p (v.getLsbD 0) (v.getLsbD 1) else m
  else if off = RYS_PORT_LANE_CMD then
    if touches mask 0 then m.laneCommand p (v.getLsbD 4) (Machine.fld v 9 8) (Machine.fld v 3 0) else m
  else m.plainWrite a mask v

/-- A write of RYS_XPT_ID: its fields are locked once LOCK is set (R11). -/
def M.writeXptId (m : M) (mask v : Word) : M :=
  if m.flag RYS_XPT_ID 63 && touches mask 0 then m.count HDF_LOCKED_WRITE_CNT else m.plainWrite RYS_XPT_ID mask v

/-- A chunk size that a write may set: a multiple of 64 and of every page's P, from 256 to 8,192 (R485). -/
def M.chunkOk (m : M) (n : Nat) : Bool :=
  decide (256 ≤ n) && decide (n ≤ 8192) && n % 64 == 0 &&
    m.die.fmn.models.all fun x => n % 2 ^ (geometryOf (Config.rootGeometry x.1).toNat).log2 == 0

/-- A write of FMN_DET_CTRL.SCHUNK (Table 12.5). -/
def M.writeSchunk (m : M) (n : Nat) : M :=
  if !m.chunkOk n then m
  else if m.inStep then { m with die.fmn.nextSchunk := some n }
  else m.setFld FMN_DET_CTRL 13 0 n

/-- A write of CMT_CTRL.GROUP (Table 8.17). -/
def M.writeGroup (m : M) (v : Bool) : M :=
  if m.inStep then { m with die.fmn.nextGroup := some v } else m.setFld CMT_CTRL 0 0 (bit v)

/-- REQ_STEP asked for every compute region (R576); P0 is refused on grade B (R2). -/
def M.requestStep (m : M) (n : Nat) : M :=
  if n < Config.topStep then m
  else match m.askStep { step := n, mask := 255, mailbox := none } with
    | (m, some mb) => m.mbComplete mb ccSUPERSEDED
    | (m, none) => m

/-- A write of CLK_CTRL. -/
def M.writeClkCtrl (m : M) (mask v : Word) : M :=
  if touches mask 0 then
    let m := (m.setFld CLK_CTRL 23 16 (Machine.fld v 23 16)).setFld CLK_CTRL 13 8 (Machine.fld v 13 8)
    if Machine.fld v 2 0 = m.fld CLK_CTRL 2 0 then m else m.requestStep (Machine.fld v 2 0)
  else m

/-- A write of CLK_REFMUX: a switch, or with FORCE a forced one (R581, R583). -/
def M.writeRefmux (m : M) (mask v : Word) : M :=
  if touches mask 0 then if v.getLsbD 8 then m.refmuxForce (Machine.fld v 1 0) else m.refmuxSwitch (Machine.fld v 1 0) else m

/-- A write of any other register. -/
def M.globalWrite (m : M) (a : Nat) (mask v : Word) : M :=
  if FMN_MB_DOORBELL ≤ a ∧ a < FMN_MB_DOORBELL + 8 * mailboxes then m.mailboxDoorbell ((a - FMN_MB_DOORBELL) / 8)
  else if FMN_RING_DOORBELL ≤ a ∧ a < FMN_RING_DOORBELL + 8 * 64 then m.readProducer ((a - FMN_RING_DOORBELL) / 8)
  else if a = RYS_XPT_ID then m.writeXptId mask v
  else if a = FMN_WT_CTRL then (m.plainWrite a mask v).dropRetained
  else if a = FTC_CTRL then if touches mask 0 then m.writeFtcCtrl (Machine.fld v 15 0) else m
  else if a = CMT_CTRL then if touches mask 0 then m.writeGroup (v.getLsbD 0) else m
  else if a = FMN_DET_CTRL then if touches mask 0 then m.writeSchunk (Machine.fld v 13 0) else m
  else if a = CLK_CTRL then m.writeClkCtrl mask v
  else if a = CLK_REFMUX then m.writeRefmux mask v
  else m.plainWrite a mask v

/-- A control-space write of allowed width (R8, R9); one to a site comes over the Shaft (R233). -/
def M.controlWrite (m : M) (req : Requester) (a width : Nat) (value : Word) : M :=
  let r := a / 8 * 8
  let mask := writeMask a width
  let v := writeValue a width value
  match place a with
  | .core c off => (m.elasticPath c 34).csLocal req c off width true value
  | .coreRegs c off => (m.elasticPath c 34).coreWrite c (off / 8 * 8) r mask v
  | .cluster s off => (m.elasticPath (17 * s) 34).clusterWrite s (off / 8 * 8) r mask v
  | .seam s off => m.seamWrite s (off / 8 * 8) r mask v
  | .port p off => m.portWrite p (off / 8 * 8) r mask v
  | .tally slot off => m.tallyWrite slot off width value false
  | .mailbox _ => m.writeN a width value.toNat
  | .sequencer => m.writeMasked tableMask a (toBytes width value.toNat)
  | .weighbridge _ => m
  | .window s off => m.windowAccess s off width true value
  | .other => m.globalWrite r mask v

/-- A register write; the demand register pulses the Weighbridge's demand line, whatever is written (Table 17.6, R612). -/
def execRegisterWrite (req : Requester) (a width : Nat) (value : Word) (s : State) :
    Host.Outcome State Fault Refusal :=
  if s.die.live && accessAllowed a width && a / 8 * 8 == HDF_WB_DEMAND then onWb wbDemand s
  else onLive (fun m => if accessAllowed a width then m.controlWrite req a width value else m.badAccess) s

/-! ## Register reads -/

/-- CORE_STATUS (Table 2.13). While a fence wait and an elastic wait run together it shows FENCE_WAIT, and a head that WFF holds
shows it while the control core runs (log entry 122). -/
def M.coreStatus (m : M) (c : Nat) : Nat :=
  let k := m.core c
  let st := match k.st with
    | .idle => 0
    | .running =>
      let now := k.waits.filter fun w => k.waitHolds w.1 w.2
      if now.any (fun w => !w.2.elastic) then 2 else if now.any (fun w => w.2.elastic) then 3 else 1
    | .faulted => 4
    | .halted => 5
    | .retired => 6
  let depth := fun (e : Nat) => (k.queue.filter fun (q : Queued) => cmdEngine q.cmd == e).length
  st + depth 0 * 2 ^ 4 + depth 1 * 2 ^ 10 + depth 2 * 2 ^ 16 + depth 3 * 2 ^ 22 + k.scoreboard.length * 2 ^ 28

/-- Slots in a Tally state (TALLY_STATE_CNTn). -/
def M.tallyCount (m : M) (st : Nat) : Nat :=
  let used := (m.mem.cells.filter fun (p : Host.Cell) => decide (tallyBase 0 ≤ p.1) && decide (p.1 < tallyBase tallySlots) &&
    p.1 % 64 == 0 && p.2.toNat % 16 != 0).map fun (p : Host.Cell) => p.2.toNat % 16
  if st = 0 then tallySlots - used.length else (used.filter (· == st)).length

/-- Time in the running holdover not yet in CLK_HOLDOVER_NS_CNT (R585). -/
def M.holdoverTime (m : M) : Nat := if m.flag CLK_STATUS 2 then m.die.ft - m.die.pwr.holdoverSince else 0

/-- A register's value as a read returns it: stored, or composed from the state it shows. -/
def M.readReg (m : M) (a : Nat) : Nat :=
  match place a with
  | .coreRegs c off =>
    if (m.core c).st = .retired then 0 else if off = CORE_STATUS then m.coreStatus c else m.regN a
  | .seam s off =>
    if off = SEAM_STATUS then m.regN a / 2 ^ 38 * 2 ^ 38 + m.reserveFree s * 2 ^ 21 + m.freePages s else m.regN a
  | .port p off =>
    if off = RYS_PORT_STATUS then (Machine.setFld (m.reg a) 8 8 (bit (m.portBusy p))).toNat
    else if off = RYS_PORT_LANE_CMD then
      (Machine.setFld (m.reg a) 63 63 (bit ((m.port p).rxTask.isSome || (m.port p).txTask.isSome))).toNat
    else m.regN a
  | _ =>
    if a = TALLY_STATUS then m.die.fmn.shipsIn.length * 512 + m.shipsOffered
    else if TALLY_STATE_CNT ≤ a ∧ a < TALLY_STATE_CNT + 96 then m.tallyCount ((a - TALLY_STATE_CNT) / 8)
    else if a = FTC_NOW then m.die.ft
    else if a = CLK_HOLDOVER_NS_CNT then min (2 ^ 64 - 1) (m.regN a + m.holdoverTime)
    else if a = CLK_STATUS then
      (Machine.setFld (m.reg a) 7 5 (bit (m.refPresent 0) + 2 * bit (m.refPresent 1) + 4 * bit (m.refPresent 2))).toNat
    else if CLK_REGION_STATUS ≤ a ∧ a < CLK_REGION_STATUS + 64 then
      (Machine.setFld (m.reg a) 11 11 (bit m.die.pwr.stepPending.isSome)).toNat
    else if HDF_SENS ≤ a ∧ a < HDF_SENS + 6400 then
      let n := (a - HDF_SENS) / 8
      (Machine.setFld (m.reg a) 61 48 (min 16383 ((m.die.ft - mapGetD m.die.hdf.sensorFt n m.die.ft) / 1000000))).toNat
    else m.regN a

/-- A 64-bit read returns and clears an RC counter (R12, R17). -/
def M.readClear (m : M) (a : Nat) : M :=
  let m : M := { m with die.readData := m.readReg a }
  let m := if a = CLK_HOLDOVER_NS_CNT then m.updPwr fun p => { p with holdoverSince := m.die.ft } else m
  match regRow a with
  | some r => if r.rc && !(match place a with | .coreRegs c _ => (m.core c).st == .retired | _ => false) then m.setReg a 0 else m
  | none => m

/-- A register access of a site comes over the Shaft (R233). -/
def M.siteTraffic (m : M) (a : Nat) : M :=
  match place a with
  | .coreRegs c _ => m.elasticPath c 34
  | .cluster s _ => m.elasticPath (17 * s) 34
  | _ => m

/-- The half that a 32-bit read returns. -/
def halfOf (a v : Nat) : Nat := if a % 8 = 4 then v / 2 ^ 32 else v % 2 ^ 32

/-- A control-space read of allowed width (R8, R12); the Weighbridge's window is read-only and read without effect
(R601). -/
def M.controlRead (m : M) (wb : Weighbridge) (req : Requester) (a width : Nat) : M :=
  match place a with
  | .core c off => (m.elasticPath c 34).csLocal req c off width false 0
  | .tally slot off =>
    let m := m.tallyMeet slot off width
    { m with die.readData := m.tally slot off width }
  | .mailbox _ => { m with die.readData := m.readN a width }
  | .sequencer => { m with die.readData := m.readN a width }
  | .weighbridge off =>
    let v := (wbWindowWord wb (off / 8 * 8)).toNat
    { m with die.readData := if width = 8 then v else halfOf a v }
  | .window s off => m.windowAccess s off width false 0
  | _ =>
    let m := m.siteTraffic a
    if width = 8 then m.readClear a else { m with die.readData := halfOf a (m.readReg (a / 8 * 8)) }

/-- A 64-bit control-space read: of an RC counter, its value, and the counter clears (R12). -/
def execCounterReadClear (a : Nat) (s : State) : Host.Outcome State Fault Refusal :=
  onLive (fun m => if accessAllowed a 8 then m.controlRead s.wb .foreman a 8 else m.badAccess) s

/-- An access of a width or alignment that R12 does not allow reaches no register. An allowed one is no such access: a
read of it is carried out, and a write names no value to store. -/
def execControlSpaceMisalignedAccess (a width : Nat) (write : Bool) (s : State) : Host.Outcome State Fault Refusal :=
  onLive (fun m =>
    if !accessAllowed a width then if write then m.count HDF_CS_ACCESS_ERR_CNT else m.badAccess
    else if write then m else m.controlRead s.wb .foreman a width) s

/-- The host die's FMN interrupt line (R540). -/
def Die.fmnInterrupt (d : Die) : Bool :=
  let m : M := { die := d, mem := CMem.ofList [] }
  (m.flag FMN_HOST_IRQ_MASK 0 && m.reg FMN_HOST_IRQ_MB != 0) || (m.flag FMN_HOST_IRQ_MASK 1 && m.reg FMN_HOST_IRQ_RING != 0) ||
    (m.flag FMN_HOST_IRQ_MASK 2 && m.reg FMN_HOST_IRQ_EVT != 0)

end Sys2Proof.Machine
end

