-- ==== Sys2Proof/Machine/Commands.lean ====
section
/-! DEFINITION. The mailbox commands on policy, rings, windows, steps, the fabric, units, clocks and time (Tables 14.5,
14.6; R525, R531, R534, R537 to R539, R577), and the end of transitions (R515). -/
namespace Sys2Proof.Machine

/-! ## POLICY -/

/-- POLICY: AGE, SEAM_BUDGET and the epoch policies; DRAIN is refused for a whole model (R390). -/
def M.policy (m : M) (mb : Nat) : M × Option Nat :=
  let policy := m.mbArg mb 10 1
  let fallback := m.mbArg mb 11 1
  if 2 < policy ∨ 1 < fallback then (m, some ccINVALID)
  else if policy == 2 && m.die.fmn.models.any (fun x => !x.2.split) then (m, some ccREFUSED)
  else
    let m : M := { m with die.fmn.age := m.mbArg mb 8 2, die.fmn.seamBudget := m.mbArg mb 16 8 }
    ((m.setFld FMN_WT_CTRL 3 2 policy).setFld FMN_WT_CTRL 4 4 fallback, some ccOK)

def execPolicy (mb : Nat) : State → Host.Outcome State Fault Refusal := onLive fun m => m.mailbox mb 0x26 (M.policy · mb)

/-! ## Rings -/

/-- RING_OPEN: both indexes are read as written. -/
def M.ringOpen (m : M) (mb : Nat) : M × Option Nat :=
  let r := m.mbArg mb 8 1
  let k := m.mbArg mb 9 1
  let base := m.mbArg mb 16 8
  if 63 < r ∨ k < 6 ∨ 12 < k ∨ base % 64 ≠ 0 then (m, some ccINVALID)
  else if (m.ring r).isSome then (m, some ccSTATE)
  else if !inCarve base (64 + 128 * 2 ^ k) then (m, some ccACCESS)
  else
    let g : Ring := { base, k, consumer := m.carveN (base + 4) 4, producer := m.carveN base 4, stopped := false, closing := none }
    (({ m with die.fmn.rings := mapSet m.die.fmn.rings r g } : M).readProducer r, some ccOK)

def execRingOpen (mb : Nat) : State → Host.Outcome State Fault Refusal := onLive fun m => m.mailbox mb 0x27 (M.ringOpen · mb)

/-- RING_CLOSE: it completes when the consumer index reaches the producer index; a stopped ring, from which no entry is
taken any more, closes at once (R528, log entry 92). -/
def M.ringClose (m : M) (mb : Nat) : M × Option Nat :=
  let r := m.mbArg mb 8 1
  match m.ring r with
  | none => (m, some (if 63 < r then ccINVALID else ccSTATE))
  | some g =>
    if g.closing.isSome then (m, some ccSTATE)
    else
      let m := m.readProducer r
      if (m.ring r).all (fun g => g.stopped || g.waiting == 0) then
        ({ m with die.fmn.rings := mapDel m.die.fmn.rings r }, some ccOK)
      else (m.updRing r fun g => { g with closing := some mb }, none)

def execRingClose (mb : Nat) : State → Host.Outcome State Fault Refusal :=
  onLive fun m => m.mailbox mb 0x28 (M.ringClose · mb)

/-! ## Host windows (R537) -/

/-- A window's mapping from the next step boundary, which is now while no step runs. -/
def M.mapWindow (m : M) (w : Nat) (x : Option HostWindow) : M :=
  let m : M := { m with die.fmn.nextWindows := mapSet m.die.fmn.nextWindows w x }
  if m.inStep then m else m.windowBoundary

def windowNumber (w : Nat) : Bool := decide (1 ≤ w) && decide (w ≤ 62)

def M.windowGrant (m : M) (mb : Nat) : M × Option Nat :=
  let w := m.mbArg mb 8 1
  let dir := m.mbArg mb 9 1
  let base := m.mbArg mb 16 8
  let size := m.mbArg mb 24 8
  if !windowNumber w || decide (3 < dir) then (m, some ccINVALID)
  else if !inCarve base size then (m, some ccACCESS)
  else (m.mapWindow w (some { dieReads := dir.testBit 0, dieWrites := dir.testBit 1, base, size }), some ccOK)

def execWindowGrant (mb : Nat) : State → Host.Outcome State Fault Refusal :=
  onLive fun m => m.mailbox mb 0x29 (M.windowGrant · mb)

/-- The window is granted, a mapping that waits for the boundary counting. -/
def M.windowGranted (m : M) (w : Nat) : Bool :=
  match mapGet m.die.fmn.nextWindows w with
  | some x => x.isSome
  | none => (mapGet m.die.fmn.windows w).isSome

def M.windowRevoke (m : M) (mb : Nat) : M × Option Nat :=
  let w := m.mbArg mb 8 1
  if !windowNumber w then (m, some ccINVALID)
  else if !m.windowGranted w then (m, some ccSTATE)
  else (m.mapWindow w none, some ccOK)

def execWindowRevoke (mb : Nat) : State → Host.Outcome State Fault Refusal :=
  onLive fun m => m.mailbox mb 0x2A (M.windowRevoke · mb)

/-! ## RUN (R538) -/

/-- With PERIOD_NS 0 no step starts after the one running: a composition that waits for its start is given up. -/
def M.stopRun (m : M) : M :=
  match m.die.fmn.composed with
  | some c => if m.batchStep then m else m.giveUp c
  | none => m

def M.run (m : M) (mb : Nat) : M × Option Nat :=
  let flags := m.mbArg mb 8 1
  let cb := m.mbArg mb 9 1
  let fb := m.mbArg mb 10 1
  let period := m.mbArg mb 24 8
  if 3 < flags then (m, some ccINVALID)
  else if m.loadBusy then (m, some ccBUSY)
  else if m.die.fmn.models.isEmpty then (m, some ccNO_MODEL)
  else
    let m := m.writeGroup (flags.testBit 0)
    let m := if flags.testBit 1 then (m.setFld (barReg cb) 62 62 1).setFld (barReg fb) 62 62 1 else m
    let r : Run := { next := m.mbArg mb 16 8, period, group := flags.testBit 0, coord := flags.testBit 1, commitBar := cb,
                     flipBar := fb, heldCounted := false }
    let m : M := { m with die.fmn.run := some r }
    (if period = 0 then m.stopRun else m, some ccOK)

def execRun (mb : Nat) : State → Host.Outcome State Fault Refusal := onLive fun m => m.mailbox mb 0x2B (M.run · mb)

/-! ## FABRIC_CONFIG (R534, Table 14.6) -/

/-- A record applied; none when its TYPE is unknown or a field is out of range. -/
def M.fabricRecord (m : M) (b : Bytes) : Option M :=
  let v := BitVec.ofNat 64 (numAt b 8 8)
  match byteAt b 0 with
  | 1 => some (m.writeXptId (~~~0) (BitVec.ofNat 64 (2 ^ 63 + numAt b 4 2 * 2 ^ 16 + numAt b 2 2)))
  | 2 => some (m.plainWrite (RYS_ROUTE + 8 * numAt b 2 2) (~~~0) v)
  | 3 => some (m.plainWrite (barReg (byteAt b 2)) (~~~0) v)
  | 4 => some { m with die.fmn.roles := mapSet m.die.fmn.roles (numAt b 2 2) (numAt b 4 2) }
  | 5 => some { m with die.fmn.sources := mapSet m.die.fmn.sources (numAt b 2 2) ((List.range 4).map fun i => numAt b (4 + 2 * i) 2) }
  | 6 => if byteAt b 2 < 16 then some (m.plainWrite (FTC_PORT_ASYM + 8 * byteAt b 2) (~~~0) (BitVec.ofNat 64 (numAt b 4 4))) else none
  | 7 => some { m with die.fmn.adopt := mapSet m.die.fmn.adopt (numAt b 2 2) ((byteAt b 4).testBit 0) }
  | _ => none

/-- The records in order, up to the first that fails; those before it stay applied. -/
def M.fabricRecords : Nat → M → Bytes → M × Option Nat
  | 0, m, _ => (m, some ccOK)
  | n + 1, m, b =>
    match m.fabricRecord (b.take 16) with
    | some m => M.fabricRecords n m (b.drop 16)
    | none => (m, some ccINVALID)

def M.fabricConfig (m : M) (mb : Nat) : M × Option Nat :=
  let a := m.mbArg mb 16 8
  let n := m.mbArg mb 24 4
  if n % 16 ≠ 0 then (m, some ccINVALID)
  else if m.loadBusy then (m, some ccBUSY)
  else if !inCarve a n then (m, some ccACCESS)
  else
    let (b, m) := m.stripedRead carveAddr a n 2
    M.fabricRecords (n / 16) m b

def execFabricConfig (mb : Nat) : State → Host.Outcome State Fault Refusal :=
  onLive fun m => m.mailbox mb 0x2C (M.fabricConfig · mb)

/-! ## Functions under R43

A function of R43 is numbered 16 × unit + kind (log entry 55): 0 port p, 1 lane direction 2p + rx, 2 the core spare of a
site, 3 the SRAM rows of a core, 4 the Stope rows of a site, 5 a site's router, 6 a stack's channels, 7 the clock regions,
8 an optical engine. -/

def fnUnit (n : Nat) : Nat := n / 16

/-- The function's transition runs, or waits for its boundary. -/
def M.functionBusy (m : M) (n : Nat) : Bool :=
  let u := fnUnit n
  match n % 16 with
  | 0 => m.portBusy u
  | 1 => (m.task (u / 2) (u % 2 == 1)).isSome
  | 2 => (m.site u).sparePending.isSome
  | 3 => (m.core u).repairPending.isSome
  | 4 => (m.site u).repairPending.isSome
  | 5 => (m.site u).routerPending.isSome
  | 6 => m.channelBusy u
  | 7 => m.die.pwr.stepPending.isSome
  | 8 => m.flag (PWR_OPT + 8 * u) 8
  | _ => false

/-- The latched request of a function run from the state its transition left (R515). -/
def M.runLatched (m : M) (n : Nat) : M :=
  let u := fnUnit n
  match n % 16 with
  | 0 => m.runLatchedControl u
  | 1 => if (m.task (u / 2) (u % 2 == 1)).isNone then m.endTask (u / 2) (u % 2 == 1) else m
  | 2 => if m.inStep then m else (m.runSpare u).startTables
  | 3 => if m.inStep then m else m.runCoreRepair u
  | 4 => if m.inStep then m else m.runStopeRepair u
  | 5 => if m.inStep then m else m.runRouter u
  | 6 => if m.channelBusy u then m else m.channelEnd u
  | _ => m

/-- TRANSITION_COMPLETE (R515): the latched request of the function runs once its transition has ended, and the commands
that waited complete (R525). -/
def M.transitionEnd (m : M) (n : Nat) : M := m.runLatched n

def execTransitionComplete (n : Nat) : State → Host.Outcome State Fault Refusal := onLive (M.transitionEnd · n)

/-! ## UNIT (R539) -/

/-- A UNIT command waits for a function's transition, or in the place of the latched request (R525). -/
def M.unitWait (m : M) (mb n : Nat) (latched : Bool) : M :=
  { m with die.fmn.unitWaits := m.die.fmn.unitWaits ++ [(mb, n, latched)] }

/-- A unit's request made by a UNIT command, which completes when it has run; a request that has nothing to run completes it with
OK. Behind a running transition it is latched, in the place of an earlier one (R43, R514, R525). -/
def M.unitRequest (m : M) (mb n : Nat) (request : M → M) : M × Option Nat :=
  if m.functionBusy n then ((request m).unitWait mb n true, none)
  else
    let m := request (m.unitWait mb n false)
    (if m.functionBusy n then m else m.unitDone n ccOK, none)

/-- KIND 0: a core. The Foreman makes the preload itself, and has a retirement refused for which the site has no spare or the
images are not held; one behind a pending transition is preloaded in its turn (R508, R510; log entry 93). -/
def M.unitCore (m : M) (mb op site p : Nat) : M × Option Nat :=
  if 136 ≤ site ∨ 17 ≤ p then (m, some ccINVALID)
  else if m.functionBusy (fnSpare site) then m.unitRequest mb (fnSpare site) (M.spareCommand · site op p)
  else if op = 1 then
    if m.canRetire site p then m.unitRequest mb (fnSpare site) fun m => (m.prepareSpare site p).spareCommand site 1 p
    else (m, some ccSTATE)
  else if !m.isRetired site p || m.siteSpareCore site != 0x1F then (m, some ccSTATE)
  else m.unitRequest mb (fnSpare site) (M.spareCommand · site 2 p)

/-- KIND 1: a cluster site, retired at the next reset (R511). -/
def M.unitSite (m : M) (op site : Nat) : M × Option Nat :=
  if 136 ≤ site then (m, some ccINVALID)
  else if op = 2 then (m, some ccSTATE)
  else
    let (code, m) := m.retireSite site
    (m, some code)

/-- KIND 2: an SRAM row, of a core or, with MEM 7, of the site's Stope (R512). -/
def M.unitRow (m : M) (mb op site core mem bank row : Nat) : M × Option Nat :=
  let stope := mem == 7
  let c := if stope then 17 * site else 17 * site + core
  if 136 ≤ site ∨ 17 ≤ core ∨ 7 < mem ∨ op ≠ 1 ∨ bankCount mem ≤ bank ∨ bankRows mem bank ≤ row then (m, some ccINVALID)
  else m.unitRequest mb (if stope then fnStope site else fnRows c) fun m =>
    m.rowRepair c stope (BitVec.ofNat 64 (2 ^ 28 + mem * 2 ^ 24 + bank * 2 ^ 16 + row))

/-- KIND 3: a router: the copy that serves is retired, or the one out of service returns as the spare (R44, R227, log entry 93);
behind no pending request a retirement of a second copy, and a return of none, is refused. -/
def M.unitRouter (m : M) (mb op site : Nat) : M × Option Nat :=
  if 136 ≤ site then (m, some ccINVALID)
  else if !m.functionBusy (fnRouter site) && ((m.site site).routerOut.isSome == (op == 1)) then (m, some ccSTATE)
  else m.unitRequest mb (fnRouter site) fun m => m.askRouter site (op + 1)

/-- KIND 4: a stack channel (R302, R303). -/
def M.unitChannel (m : M) (mb op s ch : Nat) : M × Option Nat :=
  if 32 ≤ s ∨ 17 ≤ ch then (m, some ccINVALID)
  else if !m.channelBusy s && (if op = 1 then m.channelState s ch != 0 else
      m.channelState s ch != 3 || (m.reserveChannel s).isSome) then (m, some ccSTATE)
  else m.unitRequest mb (16 * s + 6) fun m => m.channelCommand s op ch

/-- KIND 5: a lane; DIR bit 0 set names the receive direction (R428, R430). -/
def M.unitLane (m : M) (mb op p lane dir : Nat) : M × Option Nat :=
  if 16 ≤ p ∨ 9 ≤ lane ∨ 1 < dir then (m, some ccINVALID)
  else if !m.portRuns p then (m, some ccSTATE)
  else m.unitRequest mb (16 * (2 * p + dir) + 1) fun m => m.laneCommand p (dir == 1) op lane

def M.unit (m : M) (mb : Nat) : M × Option Nat :=
  let op := m.mbArg mb 8 1
  let a := m.mbArg mb 10 2
  let b := m.mbArg mb 12 2
  if op ≠ 1 ∧ op ≠ 2 then (m, some ccINVALID)
  else match m.mbArg mb 9 1 with
    | 0 => m.unitCore mb op a b
    | 1 => m.unitSite op a
    | 2 => m.unitRow mb op a b (m.mbArg mb 14 1) (m.mbArg mb 15 1) (m.mbArg mb 16 2)
    | 3 => m.unitRouter mb op a
    | 4 => m.unitChannel mb op a b
    | 5 => m.unitLane mb op a b (m.mbArg mb 18 1)
    | _ => (m, some ccINVALID)

def execUnitCmd (mb : Nat) : State → Host.Outcome State Fault Refusal := onLive fun m => m.mailbox mb 0x2D (M.unit · mb)

/-! ## CLOCK_STEP (R576 to R579) -/

/-- CLOCK_STEP (R577): it completes once its change has run; one that it replaces completes with SUPERSEDED (R525). -/
def M.clockStep (m : M) (mb : Nat) : M × Option Nat :=
  let step := m.mbArg mb 8 1
  let mask := m.mbArg mb 9 2
  if 5 < step ∨ 2 ^ 15 ≤ mask then (m, some ccINVALID)
  else if 256 ≤ mask ∨ step < Config.topStep ∨ (!m.die.fmn.models.isEmpty ∧ mask ≠ 255) then (m, some ccREFUSED)
  else
    match m.askStep { step, mask, mailbox := some mb } with
    | (m, some old) => (m.mbComplete old ccSUPERSEDED, none)
    | (m, none) => (m, none)

def execClockStep (mb : Nat) : State → Host.Outcome State Fault Refusal :=
  onLive fun m => m.mailbox mb 0x2E (M.clockStep · mb)

/-- A CLOCK_STEP whose request is settled completes (R525). -/
def stepAnswered : M × Option Nat → M
  | (m, some mb) => m.mbComplete mb ccOK
  | (m, none) => m

/-- The change of step at a boundary; the CLOCK_STEP that asked for it completes (R525, R578), and a request latched behind it that
asks for the steps now in effect as well (R515). -/
def M.stepChangeDone (m : M) (railsReady : Bool) : M :=
  let m := stepAnswered (m.stepChange railsReady)
  if !m.inStep && m.die.pwr.stepPending.isSome && (List.range 8).all (fun r => m.regionStep r == m.regionTarget r) then
    stepAnswered m.stepSettled
  else m

def execFrequencyStepChange (railsReady : Bool) : State → Host.Outcome State Fault Refusal :=
  onLive (M.stepChangeDone · railsReady)

/-! ## TIME_MODE (R462, R468) -/

/-- TIME_MODE writes FTC_CTRL, whose EN stays as it is; REBASE is refused while a model is loaded. -/
def M.timeModeCmd (m : M) (mb : Nat) : M × Option Nat :=
  let mode := m.mbArg mb 8 1
  let parent := m.mbArg mb 9 1
  let alt := m.mbArg mb 10 1
  let flags := m.mbArg mb 11 1
  if 2 < mode ∨ 15 < parent ∨ 15 < alt ∨ 3 < flags then (m, some ccINVALID)
  else if flags.testBit 1 && !m.die.fmn.models.isEmpty then (m, some ccREFUSED)
  else (m.writeFtcCtrl (m.fld FTC_CTRL 0 0 + mode * 16 + bit (flags.testBit 1) * 64 + bit (flags.testBit 0) * 128 +
    parent * 256 + alt * 4096), some ccOK)

def execTimeMode (mb : Nat) : State → Host.Outcome State Fault Refusal := onLive fun m => m.mailbox mb 0x2F (M.timeModeCmd · mb)

end Sys2Proof.Machine
end

