-- ==== Sys2Proof/Machine/Rv32.lean ====
section
/-! DEFINITION. The control core's instruction set, decoded: RV32IMC and the command extension of Table 2.9 (R94). -/
namespace Sys2Proof.Machine

/-- An RV32IMC or command-extension instruction; a compressed one is decoded to the instruction it stands for. `funct`
fields keep the RISC-V codes. -/
inductive Rv where
  | lui (rd : Nat) (imm : BitVec 32)
  | auipc (rd : Nat) (imm : BitVec 32)
  | jal (rd : Nat) (off : BitVec 32)
  | jalr (rd rs1 : Nat) (off : BitVec 32)
  | branch (funct rs1 rs2 : Nat) (off : BitVec 32)
  | load (funct rd rs1 : Nat) (off : BitVec 32)
  | store (funct rs1 rs2 : Nat) (off : BitVec 32)
  | aluImm (funct : Nat) (alt : Bool) (rd rs1 : Nat) (imm : BitVec 32)
  | alu (funct : Nat) (alt : Bool) (rd rs1 rs2 : Nat)
  | muldiv (funct rd rs1 rs2 : Nat)
  | fence
  | csr (rd csr : Nat)
  | cpush (rs1 : Nat)
  | ppatch (idx : Nat) (high : Bool) (rs1 : Nat)
  | pset (mask : Nat) (value : Bool)
  | psetp (pred idx bit : Nat) (invert : Bool)
  | waitr (space rs1 rs2 : Nat)
  | farrive (fence : Nat) (blocking drained ending : Bool)
  | ftrd (rd : Nat) (high : Bool)
  deriving DecidableEq, Repr

/-- A `w`-bit number sign-extended to 32 bits. -/
def sext (n w : Nat) : BitVec 32 := BitVec.ofInt 32 (signed n w)

/-! ## The command extension (Table 2.9) -/

def decodeCustom0 (w : Nat) : Option Rv :=
  match bits w 14 12 with
  | 0 => if bits w 31 20 = 0 ∧ bits w 11 7 = 0 then some (.cpush (bits w 19 15)) else none
  | 1 => if bits w 23 21 = 0 ∧ bits w 11 7 = 0 then some (.ppatch (bits w 31 24) (w.testBit 20) (bits w 19 15)) else none
  | 2 => if bits w 11 7 = 0 then some (.pset (bits w 31 16) (w.testBit 15)) else none
  | 3 => if bits w 18 15 = 0 then some (.psetp (bits w 11 8) (bits w 31 25) (bits w 24 19) (w.testBit 7)) else none
  | _ => none

def decodeCustom1 (w : Nat) : Option Rv :=
  match bits w 14 12 with
  | 0 => if bits w 27 25 = 0 ∧ bits w 11 7 = 0 then some (.waitr (bits w 31 28) (bits w 19 15) (bits w 24 20)) else none
  | 1 =>
    if bits w 31 29 = 0 ∧ bits w 19 15 = 0 ∧ bits w 11 7 = 0 then
      some (.farrive (bits w 25 20) (w.testBit 26) (w.testBit 27) (w.testBit 28))
    else none
  | 2 => if bits w 31 21 = 0 ∧ bits w 19 15 = 0 then some (.ftrd (bits w 11 7) (w.testBit 20)) else none
  | _ => none

/-! ## 32-bit instructions -/

/-- Reads of cycle, cycleh, instret and instreth are the only CSR instructions (R94). -/
def decodeSystem (w : Nat) : Option Rv :=
  let f := bits w 14 12
  let csr := bits w 31 20
  if (f = 2 ∨ f = 3 ∨ f = 6 ∨ f = 7) ∧ bits w 19 15 = 0 ∧ (csr = 0xC00 ∨ csr = 0xC80 ∨ csr = 0xC02 ∨ csr = 0xC82) then
    some (.csr (bits w 11 7) csr)
  else none

def decodeOp (w : Nat) : Option Rv :=
  let f := bits w 14 12
  let rd := bits w 11 7
  let rs1 := bits w 19 15
  let rs2 := bits w 24 20
  match bits w 31 25 with
  | 0 => some (.alu f false rd rs1 rs2)
  | 1 => some (.muldiv f rd rs1 rs2)
  | 0x20 => if f = 0 ∨ f = 5 then some (.alu f true rd rs1 rs2) else none
  | _ => none

def decodeOpImm (w : Nat) : Option Rv :=
  let f := bits w 14 12
  let rd := bits w 11 7
  let rs1 := bits w 19 15
  if f = 1 then if bits w 31 25 = 0 then some (.aluImm 1 false rd rs1 (BitVec.ofNat 32 (bits w 24 20))) else none
  else if f = 5 then
    if bits w 31 25 = 0 then some (.aluImm 5 false rd rs1 (BitVec.ofNat 32 (bits w 24 20)))
    else if bits w 31 25 = 0x20 then some (.aluImm 5 true rd rs1 (BitVec.ofNat 32 (bits w 24 20)))
    else none
  else some (.aluImm f false rd rs1 (sext (bits w 31 20) 12))

def decodeRv32 (w : Nat) : Option Rv :=
  let f := bits w 14 12
  let rd := bits w 11 7
  let rs1 := bits w 19 15
  let rs2 := bits w 24 20
  match bits w 6 0 with
  | 0x37 => some (.lui rd (BitVec.ofNat 32 (bits w 31 12 * 4096)))
  | 0x17 => some (.auipc rd (BitVec.ofNat 32 (bits w 31 12 * 4096)))
  | 0x6F =>
    some (.jal rd (sext (bits w 31 31 * 2 ^ 20 + bits w 19 12 * 2 ^ 12 + bits w 20 20 * 2 ^ 11 + bits w 30 21 * 2) 21))
  | 0x67 => if f = 0 then some (.jalr rd rs1 (sext (bits w 31 20) 12)) else none
  | 0x63 =>
    if f = 2 ∨ f = 3 then none
    else some (.branch f rs1 rs2
      (sext (bits w 31 31 * 2 ^ 12 + bits w 7 7 * 2 ^ 11 + bits w 30 25 * 2 ^ 5 + bits w 11 8 * 2) 13))
  | 0x03 => if f ≤ 2 ∨ f = 4 ∨ f = 5 then some (.load f rd rs1 (sext (bits w 31 20) 12)) else none
  | 0x23 => if f ≤ 2 then some (.store f rs1 rs2 (sext (bits w 31 25 * 32 + bits w 11 7) 12)) else none
  | 0x13 => decodeOpImm w
  | 0x33 => decodeOp w
  | 0x0F => if f = 0 then some .fence else none
  | 0x73 => decodeSystem w
  | 0x0B => decodeCustom0 w
  | 0x2B => decodeCustom1 w
  | _ => none

/-! ## 16-bit instructions (the C extension of RV32) -/

def decodeC0 (w : Nat) : Option Rv :=
  let rd' := 8 + bits w 4 2
  let rs1' := 8 + bits w 9 7
  let off := bits w 5 5 * 64 + bits w 12 10 * 8 + bits w 6 6 * 4
  match bits w 15 13 with
  | 0 =>
    let imm := bits w 10 7 * 64 + bits w 12 11 * 16 + bits w 5 5 * 8 + bits w 6 6 * 4
    if imm = 0 then none else some (.aluImm 0 false rd' 2 (BitVec.ofNat 32 imm))
  | 2 => some (.load 2 rd' rs1' (BitVec.ofNat 32 off))
  | 6 => some (.store 2 rs1' rd' (BitVec.ofNat 32 off))
  | _ => none

/-- C.J and C.JAL share an offset layout. -/
def cjOffset (w : Nat) : BitVec 32 :=
  sext (bits w 12 12 * 2048 + bits w 8 8 * 1024 + bits w 10 9 * 256 + bits w 6 6 * 128 + bits w 7 7 * 64 +
    bits w 2 2 * 32 + bits w 11 11 * 16 + bits w 5 3 * 2) 12

def cbOffset (w : Nat) : BitVec 32 :=
  sext (bits w 12 12 * 256 + bits w 6 5 * 64 + bits w 2 2 * 32 + bits w 11 10 * 8 + bits w 4 3 * 2) 9

def decodeC1Alu (w : Nat) : Option Rv :=
  let rd' := 8 + bits w 9 7
  let rs2' := 8 + bits w 4 2
  let imm6 := bits w 12 12 * 32 + bits w 6 2
  match bits w 11 10 with
  | 0 => if w.testBit 12 then none else some (.aluImm 5 false rd' rd' (BitVec.ofNat 32 imm6))
  | 1 => if w.testBit 12 then none else some (.aluImm 5 true rd' rd' (BitVec.ofNat 32 imm6))
  | 2 => some (.aluImm 7 false rd' rd' (sext imm6 6))
  | _ =>
    if w.testBit 12 then none
    else match bits w 6 5 with
      | 0 => some (.alu 0 true rd' rd' rs2')
      | 1 => some (.alu 4 false rd' rd' rs2')
      | 2 => some (.alu 6 false rd' rd' rs2')
      | _ => some (.alu 7 false rd' rd' rs2')

def decodeC1 (w : Nat) : Option Rv :=
  let rd := bits w 11 7
  let imm6 := bits w 12 12 * 32 + bits w 6 2
  match bits w 15 13 with
  | 0 => some (.aluImm 0 false rd rd (sext imm6 6))
  | 1 => some (.jal 1 (cjOffset w))
  | 2 => some (.aluImm 0 false rd 0 (sext imm6 6))
  | 3 =>
    if imm6 = 0 then none
    else if rd = 2 then
      some (.aluImm 0 false 2 2
        (sext (bits w 12 12 * 512 + bits w 4 3 * 128 + bits w 5 5 * 64 + bits w 2 2 * 32 + bits w 6 6 * 16) 10))
    else some (.lui rd (sext (imm6 * 4096) 18))
  | 4 => decodeC1Alu w
  | 5 => some (.jal 0 (cjOffset w))
  | 6 => some (.branch 0 (8 + bits w 9 7) 0 (cbOffset w))
  | _ => some (.branch 1 (8 + bits w 9 7) 0 (cbOffset w))

def decodeC2 (w : Nat) : Option Rv :=
  let rd := bits w 11 7
  let rs2 := bits w 6 2
  match bits w 15 13 with
  | 0 => if w.testBit 12 then none else some (.aluImm 1 false rd rd (BitVec.ofNat 32 rs2))
  | 2 =>
    if rd = 0 then none
    else some (.load 2 rd 2 (BitVec.ofNat 32 (bits w 3 2 * 64 + bits w 12 12 * 32 + bits w 6 4 * 4)))
  | 4 =>
    if w.testBit 12 then
      if rs2 = 0 then if rd = 0 then none else some (.jalr 1 rd 0) else some (.alu 0 false rd rd rs2)
    else if rs2 = 0 then if rd = 0 then none else some (.jalr 0 rd 0)
    else some (.alu 0 false rd 0 rs2)
  | 6 => some (.store 2 2 rs2 (BitVec.ofNat 32 (bits w 8 7 * 64 + bits w 12 9 * 4)))
  | _ => none

def decodeRv16 (w : Nat) : Option Rv :=
  match bits w 1 0 with
  | 0 => decodeC0 w
  | 1 => decodeC1 w
  | 2 => decodeC2 w
  | _ => none

/-! ## Arithmetic -/

/-- The integer operations, by RISC-V funct3; `alt` is SUB or SRA. -/
def rvAlu (funct : Nat) (alt : Bool) (a b : BitVec 32) : BitVec 32 :=
  match funct with
  | 0 => if alt then a - b else a + b
  | 1 => a <<< (b.toNat % 32)
  | 2 => if a.slt b then 1 else 0
  | 3 => if a.ult b then 1 else 0
  | 4 => a ^^^ b
  | 5 => if alt then a.sshiftRight (b.toNat % 32) else a >>> (b.toNat % 32)
  | 6 => a ||| b
  | _ => a &&& b

/-- The M extension, with RISC-V's results for division by zero and signed overflow. -/
def rvMulDiv (funct : Nat) (a b : BitVec 32) : BitVec 32 :=
  match funct with
  | 0 => a * b
  | 1 => BitVec.ofInt 32 (a.toInt * b.toInt / 2 ^ 32)
  | 2 => BitVec.ofInt 32 (a.toInt * (b.toNat : Int) / 2 ^ 32)
  | 3 => BitVec.ofNat 32 (a.toNat * b.toNat / 2 ^ 32)
  | 4 => if b = 0 then BitVec.allOnes 32 else BitVec.ofInt 32 (a.toInt.tdiv b.toInt)
  | 5 => if b = 0 then BitVec.allOnes 32 else BitVec.ofNat 32 (a.toNat / b.toNat)
  | 6 => if b = 0 then a else BitVec.ofInt 32 (a.toInt.tmod b.toInt)
  | _ => if b = 0 then a else BitVec.ofNat 32 (a.toNat % b.toNat)

/-- Branch conditions by funct3. -/
def rvTaken (funct : Nat) (a b : BitVec 32) : Bool :=
  match funct with
  | 0 => a == b
  | 1 => a != b
  | 4 => a.slt b
  | 5 => !a.slt b
  | 6 => a.ult b
  | _ => !a.ult b

/-- Cycles of an instruction that is not a load, a store, a branch or a jump (Table 2.8). -/
def rvMulDivCycles (funct : Nat) : Nat := if funct < 4 then 3 else 34

end Sys2Proof.Machine
end

