-- ==== Sys2Proof/Machine/ControlCore.lean ====
section
/-! DEFINITION. The control core (R85 to R94, R641, R642): the command-extension instructions and RV32IMC. -/
namespace Sys2Proof.Machine

/-- Core-local address of the instruction SRAM, and its size. -/
def isramBase : Nat := 0x3000000
def isramSize : Nat := 0x10000

/-! ## Registers and progress -/

/-- An integer register; x0 reads zero. -/
def Core.xr (k : Core) (i : Nat) : BitVec 32 := if i = 0 then 0 else mapGetD k.x i 0

/-- An integer register written; x0 discards. -/
def Core.setX (k : Core) (i : Nat) (v : BitVec 32) : Core := if i = 0 then k else { k with x := mapSet k.x i v }

/-- The control core can execute: its entry runs, and no blocking arrival holds it (R88, R89). -/
def Core.ready (k : Core) : Bool :=
  k.st == .running && (match k.arrival with | some a => !a.blocking | none => true)

/-- An instruction of `size` bytes done in its cycles (R92). -/
def Core.advance (size cycles : Nat) (k : Core) : Core :=
  { k with
    lastPc := k.pc, pc := k.pc + size, cycle := k.cycle + cycles, instret := k.instret + 1
    waits := mapDel k.waits 4, waitRegion := none }

/-- One more cycle stalled at the instruction that the program counter names. -/
def Core.stall (k : Core) : Core := { k with cycle := k.cycle + 1, lastPc := k.pc }

/-- A control transfer to a core-local address (R642). -/
def Core.jump (target : BitVec 32) (cycles : Nat) (k : Core) : Core :=
  { k with
    lastPc := k.pc, pc := (target - BitVec.ofNat 32 isramBase).toNat, cycle := k.cycle + cycles
    instret := k.instret + 1 }

/-- The core-local address of an instruction-SRAM offset. -/
def pcAddr (pc : Nat) : BitVec 32 := BitVec.ofNat 32 (isramBase + pc)

/-- A malformed instruction: the capture holds its own offset (Table 2.14). -/
def M.malformedAt (m : M) (c word : Nat) : M :=
  (m.updCore c fun k => { k with lastPc := k.pc }).ccFault c MALFORMED word

/-! ## The command extension -/

/-- CPUSH: a command image from the instruction SRAM into its engine's queue (R72, R73, R94). -/
def M.cpush (m : M) (c rs1 word : Nat) : M :=
  let k := m.core c
  let off := (k.xr rs1).toNat
  if off % 32 ≠ 0 ∨ isramSize ≤ off then m.malformedAt c word
  else
    let (bs, m) := m.readMem c 4 off 32 0
    let cmd := ofBytes bs
    if queueDepth ≤ (k.queueOf (cmdEngine cmd)).length then
      (m.updCore c fun k => { k with lastPc := k.pc }).schedFault c QUEUE_OVERFLOW (cmdEngine cmd) (cmdTag cmd) true word
    else m.updCore c fun k =>
      { k.advance 4 1 with queue := k.queue ++ [{ push := k.pushNo, cmd }], pushNo := k.pushNo + 1 }

/-- PPATCH: one half of a working-bank register (R59, R94). -/
def M.ppatch (m : M) (c idx : Nat) (high : Bool) (rs1 word : Nat) : M :=
  if idx < 128 then m.malformedAt c word
  else
    let v := ((m.core c).xr rs1).toNat
    (m.writeMem c 5 (8 * idx + 4 * bit high) (toBytes 4 v)).updCore c (Core.advance 4 1)

/-- PSET: every predicate bit of the mask set or cleared; bit 0 is ignored (R94). -/
def M.pset (m : M) (c mask : Nat) (value : Bool) : M :=
  let p := m.preds c
  (m.setPreds c (if value then p ||| mask else p &&& (0xFFFF - mask % 2 ^ 16))).updCore c (Core.advance 4 1)

/-- PSETP: one predicate from a bit of a fixed-bank register; predicate 0 is left alone (R94). -/
def M.psetp (m : M) (c pred idx b : Nat) (invert : Bool) : M :=
  let (bs, m) := m.readMem c 5 (8 * idx) 8 0
  let v := (ofBytes bs).testBit b != invert
  let p := m.preds c
  let m := if pred = 0 then m else m.setPreds c (if v then p ||| 2 ^ pred else p &&& (0xFFFF - 2 ^ pred))
  m.updCore c (Core.advance 4 1)

/-- WAITR: held while any outstanding or unissued range of the space overlaps the region (R84, R94). -/
def M.waitr (m : M) (c space rs1 rs2 : Nat) : M :=
  let k := m.core c
  let region : Range := { space, len := (k.xr rs2).toNat, base := (k.xr rs1).toNat }
  let by_ := k.regionHolds region
  if by_.isEmpty then m.updCore c (Core.advance 4 1)
  else (m.heldBy c 4 by_ CORE_SB_STALL_CYCLE_CNT).updCore c fun k =>
    { k.stall with waitRegion := some (space, region.len, region.base) }

/-- An arrival that takes effect at the fence unit in the core's cycle `cycle` (R250 to R252): one from outside the group, or
a second one before the release, is ignored and counted. An emergency hold withholds a fence whose last arrival comes in it
(R593). -/
def M.arrive (m : M) (c f cycle : Nat) : M :=
  match (m.core c).entry with
  | none => m.count SHAFT_FENCE_STRAY_CNT
  | some e =>
    if !(m.members e).contains c then m.count SHAFT_FENCE_STRAY_CNT
    else match m.die.fences.find? (fun x => x.id = f) with
      | none =>
        { m with die.fences := m.die.fences ++
            [{ id := f, entry := e, arrived := [c], lastCycle := cycle, withheld := m.flag PWR_STATUS 8 }] }
      | some x =>
        if x.entry != e || x.arrived.contains c then m.count SHAFT_FENCE_STRAY_CNT
        else
          { m with die.fences := m.die.fences.map fun y =>
              if y.id = f then
                { y with arrived := y.arrived ++ [c], lastCycle := max y.lastCycle cycle, withheld := m.flag PWR_STATUS 8 }
              else y }

/-- All four queues and the scoreboard are empty (R86). -/
def Core.drained (k : Core) : Bool := k.queue.isEmpty && k.scoreboard.isEmpty

/-- FARRIVE (R85 to R89): with the drain bit, the arrival takes effect once the core has drained. -/
def M.farrive (m : M) (c f : Nat) (blocking drained ending : Bool) : M :=
  let k := m.core c
  let now := !drained || k.drained
  let a : Arrival := { fence := f, blocking := blocking || ending, ending, effective := now }
  let m := m.updCore c fun k =>
    { k.advance 4 1 with
      older := k.older ++ k.arrival.toList, arrival := some a
      waits := if a.blocking then mapSet k.waits 4 { elastic := false, since := m.die.ft } else mapDel k.waits 4 }
  if now then m.arrive c f k.cycle else m

/-- FTRD: the region's copy of fabric time, its high half latched by a read of the low half (R94, R466). -/
def M.ftrd (m : M) (c rd : Nat) (high : Bool) : M :=
  m.updCore c fun k =>
    if high then (k.setX rd (BitVec.ofNat 32 k.ftLatch)).advance 4 1
    else { (k.setX rd (BitVec.ofNat 32 m.copyTime)).advance 4 1 with ftLatch := bits m.copyTime 63 32 }

/-! ## Loads, stores and counters -/

/-- The memory of the given codes whose window holds a core-local address. -/
def windowOf (mems : List Nat) (addr : Nat) : Option Nat :=
  mems.find? fun mem => decide (memLocal mem ≤ addr) && decide (addr < memLocal mem + memSize mem)

/-- The first address of an access that lies outside the windows it may use (R222): the end of the window it starts in, or
its own start. -/
def firstOutside (mems : List Nat) (addr : Nat) : Nat :=
  match windowOf mems addr with
  | some mem => memLocal mem + memSize mem
  | none => addr

/-- A load (R91): the windows of the instruction SRAM, the parameter registers and Scratch; anything else reads zero
and is a violation (R222), an access that runs past its window's end as a whole (log entry 119). A Scratch load waits for its
bank (R203), and delivers what stands in its cycle (R205). Answers the bytes as a number and the cycles. -/
def M.ccLoad (m : M) (c addr n : Nat) : Nat × Nat × M :=
  if isramBase ≤ addr ∧ addr + n ≤ isramBase + isramSize then
    let (bs, m) := m.readMem c 4 (addr - isramBase) n 0
    (ofBytes bs, 2, m)
  else if memLocal 5 ≤ addr ∧ addr + n ≤ memLocal 5 + memSize 5 then
    let (bs, m) := m.readMem c 5 (addr - memLocal 5) n 0
    (ofBytes bs, 2, m)
  else if memLocal 1 ≤ addr ∧ addr + n ≤ memLocal 1 + memSize 1 then
    let t := m.schedCycle c
    let (w, m) := m.ccBankWait c (addr - memLocal 1) n false
    let (bs, m) := m.spaceReadAt c SCRATCH (addr - memLocal 1) n (t + w)
    (ofBytes bs, 3 + w, m)
  else (0, 2, m.violation c 4 false 0 0 (m.core c).pc (firstOutside [4, 5, 1] addr))

/-- A store (R91): the instruction SRAM and Scratch; anything else, the parameter window too, is ignored and is a
violation. Answers the cycles. -/
def M.ccStore (m : M) (c addr n v : Nat) : Nat × M :=
  let addr' := memAddr c 1 (addr - memLocal 1)
  if isramBase ≤ addr ∧ addr + n ≤ isramBase + isramSize then (2, m.writeMem c 4 (addr - isramBase) (toBytes n v))
  else if memLocal 1 ≤ addr ∧ addr + n ≤ memLocal 1 + memSize 1 then
    let t := m.schedCycle c
    let (w, m) := m.ccBankWait c (addr - memLocal 1) n true
    (3 + w, (m.writeMem c 1 (addr - memLocal 1) (toBytes n v)).noteWrite m c (2 ^ 33) (m.entryOf c) (t + w) controlRank addr' n)
  else (2, m.violation c 5 true 0 0 (m.core c).pc (firstOutside [4, 1] addr))

/-- A load reaches a Scratch granule that a token-carrying beat has still to bring (R141). -/
def M.loadHeld (m : M) (c addr n : Nat) : Bool :=
  decide (memLocal 1 ≤ addr) && decide (addr + n ≤ memLocal 1 + memSize 1) &&
    m.tokenHeld c { space := SCRATCH, len := (addr % 16 + n + 15) / 16, base := (addr - memLocal 1) / 16 * 16 }

/-- A loaded number extended as its funct3 says. -/
def loadExtend (funct v : Nat) : BitVec 32 :=
  match funct with
  | 0 => sext v 8
  | 1 => sext v 16
  | _ => BitVec.ofNat 32 v

/-- Bytes a load or store moves. -/
def accessBytes (funct : Nat) : Nat := if funct % 4 = 0 then 1 else if funct % 4 = 1 then 2 else 4

/-- A read of cycle, cycleh, instret or instreth: a low read latches its high half (R94). -/
def Core.readCounter (rd csr : Nat) (k : Core) : Core :=
  match csr with
  | 0xC00 => { k.setX rd (BitVec.ofNat 32 k.cycle) with cycleLatch := bits k.cycle 63 32 }
  | 0xC02 => { k.setX rd (BitVec.ofNat 32 k.instret) with instretLatch := bits k.instret 63 32 }
  | 0xC80 => k.setX rd (BitVec.ofNat 32 k.cycleLatch)
  | _ => k.setX rd (BitVec.ofNat 32 k.instretLatch)

/-! ## One instruction -/

/-- The effect of a decoded instruction of `size` bytes, its bits `word`. FENCE, which Table 2.8 puts in no class, takes 1
cycle (log entry 120). -/
def M.rvExec (m : M) (c size word : Nat) (i : Rv) : M :=
  let k := m.core c
  match i with
  | .lui rd imm => m.updCore c fun k => (k.setX rd imm).advance size 1
  | .auipc rd imm => m.updCore c fun k => (k.setX rd (pcAddr k.pc + imm)).advance size 1
  | .jal rd off => m.updCore c fun k => (k.setX rd (pcAddr (k.pc + size))).jump (pcAddr k.pc + off) 2
  | .jalr rd rs1 off =>
    m.updCore c fun k => (k.setX rd (pcAddr (k.pc + size))).jump ((k.xr rs1 + off) &&& ~~~1#32) 2
  | .branch f rs1 rs2 off =>
    if rvTaken f (k.xr rs1) (k.xr rs2) then m.updCore c fun k => k.jump (pcAddr k.pc + off) 2
    else m.updCore c (Core.advance size 1)
  | .load f rd rs1 off =>
    let addr := (k.xr rs1 + off).toNat
    if m.loadHeld c addr (accessBytes f) then (m.count (cluReg (c / 17) CLU_SLIP_CYCLE_CNT)).updCore c Core.stall
    else
      let (v, cyc, m) := m.ccLoad c addr (accessBytes f)
      m.updCore c fun k => (k.setX rd (loadExtend f v)).advance size cyc
  | .store f rs1 rs2 off =>
    let (cyc, m) := m.ccStore c (k.xr rs1 + off).toNat (accessBytes f) (k.xr rs2).toNat
    m.updCore c (Core.advance size cyc)
  | .aluImm f alt rd rs1 imm => m.updCore c fun k => (k.setX rd (rvAlu f alt (k.xr rs1) imm)).advance size 1
  | .alu f alt rd rs1 rs2 => m.updCore c fun k => (k.setX rd (rvAlu f alt (k.xr rs1) (k.xr rs2))).advance size 1
  | .muldiv f rd rs1 rs2 =>
    m.updCore c fun k => (k.setX rd (rvMulDiv f (k.xr rs1) (k.xr rs2))).advance size (rvMulDivCycles f)
  | .fence => m.updCore c (Core.advance size 1)
  | .csr rd csr => m.updCore c fun k => (k.readCounter rd csr).advance size 1
  | .cpush rs1 => m.cpush c rs1 word
  | .ppatch idx h rs1 => m.ppatch c idx h rs1 word
  | .pset mask v => m.pset c mask v
  | .psetp p idx b n => m.psetp c p idx b n
  | .waitr space rs1 rs2 => m.waitr c space rs1 rs2
  | .farrive f b d e => m.farrive c f b d e
  | .ftrd rd h => m.ftrd c rd h

/-- A fetch outside the instruction SRAM (R642). No instruction was fetched: CORE_FAULT_CMD0 takes 0 (log entry 121). -/
def M.fetchFault (m : M) (c : Nat) : M := m.ccFault c MALFORMED 0

/-- Fetch, decode and execute one instruction (R92, R94, R642); a stalled control core waits one more cycle (log
entry 36), and a core whose group holds advances nothing (R245). -/
def M.ccInstruction (m : M) (c : Nat) : M :=
  let k := m.core c
  if m.groupHeld c then m
  else if k.ready then
    if isramSize < k.pc + 2 then m.fetchFault c
    else if ofBytes (m.readMem c 4 k.pc 2 0).1 % 4 ≠ 3 then
      let (bs, m) := m.readMem c 4 k.pc 2 0
      match decodeRv16 (ofBytes bs) with
      | some i => m.rvExec c 2 (ofBytes bs) i
      | none => m.malformedAt c (ofBytes bs)
    else if isramSize < k.pc + 4 then m.fetchFault c
    else
      let (bs, m) := m.readMem c 4 k.pc 4 0
      match decodeRv32 (ofBytes bs) with
      | some i => m.rvExec c 4 (ofBytes bs) i
      | none => m.malformedAt c (ofBytes bs)
  else if k.st = .running && k.arrival.isSome then
    (m.count (coreReg c CORE_FENCE_WAIT_CYCLE_CNT)).updCore c fun k => { k with cycle := k.cycle + 1 }
  else m

def execControlCoreInstruction (c : Nat) : State → Host.Outcome State Fault Refusal := onLive (M.ccInstruction · c)

/-! ## The rows of the command extension: the instruction at the program counter -/

/-- A command-extension row: it acts while the control core can execute and its group does not hold. -/
def ccRow (c : Nat) (f : M → M) : State → Host.Outcome State Fault Refusal :=
  onLive fun m => if (m.core c).ready && !m.groupHeld c then f m else m

/-- The encodings of Table 2.9, for a capture's word 0. -/
def encCpush (rs1 : Nat) : Nat := rs1 * 2 ^ 15 + 0x0B
def encPpatch (idx : Nat) (high : Bool) (rs1 : Nat) : Nat :=
  idx * 2 ^ 24 + bit high * 2 ^ 20 + rs1 * 2 ^ 15 + 2 ^ 12 + 0x0B

def execCpush (c rs1 : Nat) : State → Host.Outcome State Fault Refusal := ccRow c (M.cpush · c rs1 (encCpush rs1))
def execPpatch (c idx : Nat) (high : Bool) (rs1 : Nat) : State → Host.Outcome State Fault Refusal :=
  ccRow c (M.ppatch · c idx high rs1 (encPpatch idx high rs1))
def execPset (c mask : Nat) (value : Bool) : State → Host.Outcome State Fault Refusal := ccRow c (M.pset · c mask value)
def execPsetp (c pred idx b : Nat) (invert : Bool) : State → Host.Outcome State Fault Refusal :=
  ccRow c (M.psetp · c pred idx b invert)
def execWaitr (c space rs1 rs2 : Nat) : State → Host.Outcome State Fault Refusal := ccRow c (M.waitr · c space rs1 rs2)
def execFarrive (c f : Nat) (blocking drained ending : Bool) : State → Host.Outcome State Fault Refusal :=
  ccRow c (M.farrive · c f blocking drained ending)
def execFtrd (c rd : Nat) (high : Bool) : State → Host.Outcome State Fault Refusal := ccRow c (M.ftrd · c rd high)

/-- A drained arrival takes effect once the queues and the scoreboard are empty (R86). -/
def M.arrivalDrained (m : M) (c : Nat) : M :=
  let k := m.core c
  if k.st = .running && k.drained then
    let due := (k.older ++ k.arrival.toList).filter fun a => !a.effective
    let m := m.updCore c fun k => { k with
      older := k.older.map fun a => { a with effective := true }
      arrival := k.arrival.map fun a => { a with effective := true } }
    due.foldl (fun m a => m.arrive c a.fence k.cycle) m
  else m

def execFenceArrivalDrained (c : Nat) : State → Host.Outcome State Fault Refusal := onLive (M.arrivalDrained · c)

end Sys2Proof.Machine
end

