-- ==== Sys2Proof/Machine/Dme.lean ====
section
/-! DEFINITION. The data mover inside the module (R137 to R142, R645 to R648) and the Shaft's beats (R225 to R237). -/
namespace Sys2Proof.Machine

/-! ## Layouts (R640, R645, R646) -/

/-- Every extent is at least 1 (R645). -/
def Job.extents (j : Job) : Bool := decide (1 ≤ j.d 0) && decide (1 ≤ j.d 1) && decide (1 ≤ j.d 2)

/-- A strided layout of planes of rows of granules lies inside the range. -/
def Range.coversPlanes (r : Range) (inner outer d0 d1 d2 : Nat) : Bool :=
  r.covers (outer * (d2 - 1) + inner * (d1 - 1)) (16 * d0)

/-- PADSEL and PFMT of a command that writes pad values (R132, R647). -/
def Job.padOk (j : Job) : Bool := j.ctl 5 4 != 3 && [0, 1, 5, 6, 7, 8].contains (j.ctl 15 12)

/-- A pad granule of a command, with CORE_PAD as the third choice (R132, R647). -/
def M.jobPad (m : M) (j : Job) : Bytes :=
  padGranule (j.ctl 15 12) (j.ctl 5 4) (BitVec.ofNat 32 (m.fld (coreReg j.c CORE_PAD) 31 0))

/-- The in-bound rows of a strided layout, as (plane, row). -/
def Job.rows (j : Job) : List (Nat × Nat) :=
  (List.range (j.bd 2)).flatMap fun p => (List.range (j.bd 1)).map fun r => (p, r)

/-- Rows written in order. -/
def M.writeRows (m : M) (c space : Nat) (rows : List (Nat × Bytes)) : M :=
  rows.foldl (fun m p => m.spaceWrite c space p.1 p.2) m

/-! ## Copies whose ranges overlap: each granule moves in its own cycles (R205, R648) -/

/-- A copy's granules read and written in the cycles from `lo` to below `hi`, reads before writes in each cycle (R205);
`data` holds what has been read, by granule. A granule without a source carries the pad. -/
def M.moveCycles (m : M) (j : Job) (pad : Bytes) (ts : List Timed) (lo hi : Nat) (data : NMap Bytes) : NMap Bytes × M :=
  let live := ts.zipIdx.filter fun p => p.1.grain.live
  (List.range (hi - lo)).foldl (fun (data, m) n =>
    let t := lo + n
    let (data, m) := (live.filter fun p => p.1.readAt == t).foldl (fun (data, m) (x, i) =>
      match x.grain.src with
      | none => (mapSet data i pad, m)
      | some a =>
        let (bs, m) := m.spaceRead j.c j.a.space a 16
        (mapSet data i bs, m)) (data, m)
    (data, (live.filter fun p => p.1.writeAt == t).foldl (fun m (x, i) =>
      m.spaceWrite j.c j.w.space x.grain.dst (mapGetD data i pad)) m)) (data, m)

/-- The cycle after the last write of a copy. -/
def lastCycle (ts : List Timed) : Nat := ts.foldl (fun t x => max t (max x.readAt x.writeAt + 1)) 0

/-! ## DCOPY and DFILL -/

def dcopyShape (j : Job) (_ : M) : Bool :=
  j.extents && j.bounded [0, 1, 2] && j.a.coversPlanes (j.inner 2) (j.outer 2) (j.d 0) (j.d 1) (j.d 2) &&
    j.w.coversPlanes (j.inner 4) (j.outer 4) (j.d 0) (j.d 1) (j.d 2)

/-- The granules of a DCOPY or DFILL in layout order: out-of-bound ones keep their places (R648). -/
def Job.grains (j : Job) (reads : Bool) : List Grain :=
  (List.range (j.d 2)).flatMap fun p => (List.range (j.d 1)).flatMap fun r => (List.range (j.d 0)).map fun g =>
    { src := if reads then some (j.a.base + j.outer 2 * p + j.inner 2 * r + 16 * g) else none
      dst := j.w.base + j.outer 4 * p + j.inner 4 * r + 16 * g
      live := decide (p < j.bd 2) && decide (r < j.bd 1) && decide (g < j.bd 0) }

def dcopyTimes (j : Job) : List Timed := copyTimes j.a.space j.w.space (j.grains true)

/-- DCOPY (R646). Where its ranges overlap, a granule written in one cycle is read as written from the next one on
(R205). -/
def dcopyRun (j : Job) (m : M) : M :=
  if j.w.overlaps j.a then
    (m.moveCycles j [] (dcopyTimes j) 1 (lastCycle (dcopyTimes j)) []).2
  else
    let (rows, m) := j.rows.foldl (fun (l, m) (p, r) =>
      let (bs, m) := m.spaceRead j.c j.a.space (j.a.base + j.outer 2 * p + j.inner 2 * r) (16 * j.bd 0)
      (l ++ [(j.w.base + j.outer 4 * p + j.inner 4 * r, bs)], m)) ([], m)
    m.writeRows j.c j.w.space rows

def dcopyEngine : Engine :=
  { shapeOk := dcopyShape, hold := noHold, run := dcopyRun
    uses := fun j _ => timedUses j.a.space j.w.space (dcopyTimes j) }

def execDcopy (c : Nat) : State → Host.Outcome State Fault Refusal :=
  execEngine c 2 1 dcopyEngine

def dfillShape (j : Job) (_ : M) : Bool :=
  j.extents && j.bounded [0, 1, 2] && j.padOk && j.w.coversPlanes (j.inner 4) (j.outer 4) (j.d 0) (j.d 1) (j.d 2)

def dfillRun (j : Job) (m : M) : M :=
  let row := (List.replicate (j.bd 0) (m.jobPad j)).flatten
  m.writeRows j.c j.w.space (j.rows.map fun (p, r) => (j.w.base + j.outer 4 * p + j.inner 4 * r, row))

def dfillEngine : Engine :=
  { shapeOk := dfillShape, hold := noHold, run := dfillRun
    uses := fun j _ => timedUses j.w.space j.w.space (fillTimes j.w.space (j.grains false)) }

def execDfill (c : Nat) : State → Host.Outcome State Fault Refusal := execEngine c 2 6 dfillEngine

/-! ## DGATHER and DSCATTER -/

/-- Index `i`, an INT32 at B.BASE + 4i. -/
def M.index (m : M) (j : Job) (i : Nat) : Int × M :=
  let (bs, m) := m.spaceRead j.c j.b.space (j.b.base + 4 * i) 4
  (signed (ofBytes bs) 32, m)

/-- An index is valid: not negative and below b2 (Table 5.16). Under b2 = 0 every index is invalid: a DGATHER then delivers
pad rows, as Table 5.16 says, where R63 alone would have it write nothing (log entry 117). -/
def Job.validIndex (j : Job) (i : Int) : Bool := decide (0 ≤ i) && decide (i < j.bd 2)

def dgatherShape (j : Job) (_ : M) : Bool :=
  j.extents && j.bounded [0, 1, 2] && j.padOk && j.b.covers 0 (4 * j.d 1) &&
    j.a.coversRows 0 (j.inner 2) (j.d 2) (16 * j.d 0) && j.w.coversRows 0 (j.inner 4) (j.d 1) (16 * j.d 0)

/-- The granules of index row `i` of a DGATHER, of a DSCATTER (R646), from its index; a row beyond b1 keeps its place. -/
def Job.gatherRow (j : Job) (i : Nat) (x : Int) : List Grain :=
  (List.range (j.d 0)).map fun g =>
    { src := if j.validIndex x then some (j.a.base + j.inner 2 * x.toNat + 16 * g) else none
      dst := j.w.base + j.inner 4 * i + 16 * g
      live := decide (i < j.bd 1) && decide (g < j.bd 0) }

def Job.scatterRow (j : Job) (i : Nat) (x : Int) : List Grain :=
  if j.validIndex x && decide (i < j.bd 1) then
    (List.range (j.d 0)).map fun g =>
      { src := some (j.a.base + j.inner 2 * i + 16 * g), dst := j.w.base + j.inner 4 * x.toNat + 16 * g
        live := decide (g < j.bd 0) }
  else []

/-- The cycles a row of a DGATHER or DSCATTER takes (R648). -/
def Job.rowCycles (j : Job) : Nat := ceilDiv (j.d 0) (copyLimit j.a.space j.w.space)

/-- A DGATHER or DSCATTER in its own cycles (R648): index `i` is read in the cycle before its row's first read, and the
memory then holds what earlier cycles wrote. Answers the granules with their cycles. -/
def M.moveIndexed (m : M) (j : Job) (pad : Bytes) (row : Nat → Int → List Grain) : List Timed × M :=
  let n := j.rowCycles
  let (ts, _, data, m) := (List.range (j.d 1)).foldl (fun (ts, placed, data, m) i =>
    let (data, m) := m.moveCycles j pad ts (1 + (i - 1) * n * bit (i != 0)) (1 + i * n) data
    let (x, m) := if i < j.bd 1 then m.index j i else (0, m)
    let (more, placed) := indexedTimes (copyLimit j.a.space j.w.space) i j.w.space (row i x) placed
    (ts ++ more, placed, data, m)) (([] : List Timed), ([] : List (Nat × Nat × Nat)), ([] : NMap Bytes), m)
  let lo := 1 + (j.d 1 - 1) * n
  (ts, (m.moveCycles j pad ts lo (max lo (lastCycle ts)) data).2)

/-- The reads of the indexes (R648). -/
def Job.indexUses (j : Job) : List RowUse :=
  (List.range (j.bd 1)).flatMap fun i => usesOf (1 + i * j.rowCycles) j.b.space (j.b.base + 4 * i) 4 false .dme

/-- The write range overlaps a read range. -/
def Job.overlapping (j : Job) : Bool := j.w.overlaps j.a || j.w.overlaps j.b

/-- DGATHER (R646); rows move in their own cycles where W overlaps A or B (R205). -/
def dgatherRun (j : Job) (m : M) : M :=
  if j.overlapping then (m.moveIndexed j (m.jobPad j) j.gatherRow).2
  else
    let pad := (List.replicate (j.bd 0) (m.jobPad j)).flatten
    let (rows, m) := (List.range (j.bd 1)).foldl (fun (l, m) i =>
      let (x, m) := m.index j i
      let (bs, m) :=
        if j.validIndex x then m.spaceRead j.c j.a.space (j.a.base + j.inner 2 * x.toNat) (16 * j.bd 0) else (pad, m)
      (l ++ [(j.w.base + j.inner 4 * i, bs)], m)) ([], m)
    m.writeRows j.c j.w.space rows

def dgatherEngine : Engine :=
  { shapeOk := dgatherShape, hold := noHold, run := dgatherRun
    uses := fun j m => j.indexUses ++ timedUses j.a.space j.w.space (m.moveIndexed j [] j.gatherRow).1 }

def execDgather (c : Nat) : State → Host.Outcome State Fault Refusal := execEngine c 2 2 dgatherEngine

def dscatterShape (j : Job) (_ : M) : Bool :=
  j.extents && j.bounded [0, 1, 2] && j.b.covers 0 (4 * j.d 1) &&
    j.a.coversRows 0 (j.inner 2) (j.d 1) (16 * j.d 0) && j.w.coversRows 0 (j.inner 4) (j.d 2) (16 * j.d 0)

def dscatterRun (j : Job) (m : M) : M :=
  if j.overlapping then (m.moveIndexed j [] j.scatterRow).2
  else
    let (rows, m) := (List.range (j.bd 1)).foldl (fun (l, m) i =>
      let (x, m) := m.index j i
      if j.validIndex x then
        let (bs, m) := m.spaceRead j.c j.a.space (j.a.base + j.inner 2 * i) (16 * j.bd 0)
        (l ++ [(j.w.base + j.inner 4 * x.toNat, bs)], m)
      else (l, m)) ([], m)
    m.writeRows j.c j.w.space rows

def dscatterEngine : Engine :=
  { shapeOk := dscatterShape, hold := noHold, run := dscatterRun
    uses := fun j m => j.indexUses ++ timedUses j.a.space j.w.space (m.moveIndexed j [] j.scatterRow).1 }

def execDscatter (c : Nat) : State → Host.Outcome State Fault Refusal := execEngine c 2 3 dscatterEngine

/-! ## DSEND and DHALO (R137 to R139, R228) -/

/-- The destination that AUX names is one a send may have (Table 3.8). -/
def M.remoteOk (m : M) (j : Job) : Bool :=
  let s := j.aux 15 8
  decide (s < 136) && !m.siteSpare s && (j.aux 19 16 == SCRATCH || j.aux 19 16 == OPC)

/-- The destination core of a send. -/
def M.remoteCore (m : M) (j : Job) : Nat := 17 * j.aux 15 8 + m.physical (j.aux 15 8) (j.aux 3 0)

/-- The cycle in which a command issued. -/
def M.issuedAt (m : M) (j : Job) : Nat :=
  (((m.core j.c).flights.find? fun f => f.push = j.push).map (·.issuedAt)).getD (m.schedCycle j.c)

/-- Beat `k` of a send put on the Shaft: it leaves 4 + k cycles after the issue, takes its ports and links, and lands after
the travel time (R139, R231, R232, R235). -/
def M.sendBeat (m : M) (j : Job) (k : Nat) (granules : List (Nat × Bytes)) : M :=
  let dest := m.remoteCore j
  let t := m.issuedAt j + 4 + k
  let travel := travelTime (j.c / 17) (dest / 17)
  let m := m.usePath j.c dest t
  { m with
    die.beatNo := m.die.beatNo + 1
    die.beats := m.die.beats ++
      [{ id := m.die.beatNo, source := j.c, push := j.push, no := k, dest, memory := spaceMem (j.aux 19 16), granules, token := j.flags % 2 == 1
         travel, land := t + travel, atEject := false, inRouter := false, late := false }] }

/-- Row `r` of a send, in beats of 8 granules counted from SHAPE (R139, R646): its in-bound bytes land from offset `dst`
on; a beat without in-bound granules takes its place all the same. -/
def M.sendRow (m : M) (j : Job) (granules r dst : Nat) (bs : Bytes) : M :=
  let gs := (chunks 16 (bs.length / 16) bs).zipIdx.map fun (g, i) => (dst + 16 * i, g)
  let n := ceilDiv granules 8
  (List.range n).foldl (fun m b => m.sendBeat j (n * r + b) ((gs.drop (8 * b)).take 8)) m

/-- The source reads of row `r` of a send, `live` of its granules in bound (R139). -/
def Job.beatUses (j : Job) (granules r src live : Nat) : List RowUse :=
  let n := ceilDiv granules 8
  (List.range n).flatMap fun b => usesOf (3 + n * r + b) j.a.space (src + 128 * b) (16 * min 8 (live - 8 * b)) false .dme

def dsendShape (j : Job) (m : M) : Bool :=
  j.extents && j.bounded [0, 1, 2] && m.remoteOk j &&
    j.a.coversPlanes (j.inner 2) (j.outer 2) (j.d 0) (j.d 1) (j.d 2) &&
    j.w.coversPlanes (j.inner 4) (j.outer 4) (j.d 0) (j.d 1) (j.d 2)

/-- The rows of a DSEND, by number, with their plane and row, in bound or not. -/
def Job.sendRows (j : Job) : List (Nat × Nat × Nat) :=
  (List.range (j.d 2)).flatMap fun p => (List.range (j.d 1)).map fun r => (j.d 1 * p + r, p, r)

/-- Granules in bound of a row of a DSEND. -/
def Job.sendLive (j : Job) (p r : Nat) : Nat := if p < j.bd 2 ∧ r < j.bd 1 then j.bd 0 else 0

def dsendRun (j : Job) (m : M) : M :=
  j.sendRows.foldl (fun m (n, p, r) =>
    let live := j.sendLive p r
    let (bs, m) :=
      if live = 0 then ([], m) else m.spaceRead j.c j.a.space (j.a.base + j.outer 2 * p + j.inner 2 * r) (16 * live)
    m.sendRow j (j.d 0) n (j.w.base + j.outer 4 * p + j.inner 4 * r) bs) m

def dsendEngine : Engine :=
  { shapeOk := dsendShape, hold := noHold, run := dsendRun
    uses := fun j _ => j.sendRows.flatMap fun (n, p, r) =>
      j.beatUses (j.d 0) n (j.a.base + j.outer 2 * p + j.inner 2 * r) (j.sendLive p r) }

def execDsend (c : Nat) : State → Host.Outcome State Fault Refusal := execEngine c 2 4 dsendEngine

/-- Halo rows H of a DHALO (Table 3.8). -/
def Job.haloRows (j : Job) : Nat := j.ctl 3 0 + 1

/-- The source row of halo row `i`; none for a pad row (R138). -/
def Job.haloRow (j : Job) (i : Nat) : Option Nat :=
  if j.ctl 8 8 = 1 then if i < j.bd 0 then some i else none
  else if j.haloRows ≤ j.bd 0 + i then some (j.bd 0 + i - j.haloRows) else none

def dhaloShape (j : Job) (m : M) : Bool :=
  upTo 32 (j.d 0) && upTo 64 (j.d 1) && j.bounded [0, 1, 2] && j.padOk && m.remoteOk j &&
    j.a.coversRows 0 (j.inner 2) (j.d 0) (16 * j.d 1) && j.w.coversRows 0 (j.inner 4) j.haloRows (16 * j.d 1)

def dhaloRun (j : Job) (m : M) : M :=
  let pad := (List.replicate (j.bd 1) (m.jobPad j)).flatten
  (List.range j.haloRows).foldl (fun m i =>
    let (bs, m) := match j.haloRow i with
      | some r => m.spaceRead j.c j.a.space (j.a.base + j.inner 2 * r) (16 * j.bd 1)
      | none => (pad, m)
    m.sendRow j (j.d 1) i (j.w.base + j.inner 4 * i) bs) m

def dhaloEngine : Engine :=
  { shapeOk := dhaloShape, hold := noHold, run := dhaloRun
    uses := fun j _ => (List.range j.haloRows).flatMap fun i =>
      match j.haloRow i with
      | some r => j.beatUses (j.d 1) i (j.a.base + j.inner 2 * r) (j.bd 1)
      | none => [] }

def execDhalo (c : Nat) : State → Host.Outcome State Fault Refusal := execEngine c 2 5 dhaloEngine

/-! ## Beats at their destination (R235 to R237) -/

/-- Beats the ejection buffer of a site holds (R236). -/
def ejectBuffer : Nat := 16

def M.updBeat (m : M) (id : Nat) (f : Beat → Beat) : M :=
  { m with die.beats := m.die.beats.map fun b => if b.id = id then f b else b }

/-- Beats in the ejection buffer of a site. -/
def M.ejectCount (m : M) (site : Nat) : Nat := (m.die.beats.filter fun x => x.atEject && x.dest / 17 == site).length

/-- A beat reaches its ejection port: into the buffer, or, while the buffer is full, it waits in the router and is counted
(R236). -/
def M.beatEject (m : M) (id : Nat) : M :=
  match m.die.beats.find? (fun b => b.id = id) with
  | none => m
  | some b =>
    if b.atEject || b.inRouter then m
    else if ejectBuffer ≤ m.ejectCount (b.dest / 17) then
      (m.count (cluReg (b.dest / 17) SHAFT_EJECT_FULL_CNT)).updBeat id fun b => { b with inRouter := true }
    else m.updBeat id fun b => { b with atEject := true }

def execBeatEjectArrival (id : Nat) : State → Host.Outcome State Fault Refusal := onLive (M.beatEject · id)

/-- The beat that has waited longest in a site's router moves into the place a landing frees (R236). -/
def M.ejectNext (m : M) (site : Nat) : M :=
  match m.die.beats.find? (fun b => b.inRouter && b.dest / 17 == site) with
  | some b => m.updBeat b.id fun b => { b with inRouter := false, atEject := true }
  | none => m

end Sys2Proof.Machine
end

