-- ==== Sys2Proof/Machine/Fallback.lean ====
section
/-! DEFINITION. Fallback mode of the Smelter (R188 to R194): its instructions and SFALL. -/
namespace Sys2Proof.Machine

/-- A fallback instruction (Table 4.6). `op` of the grouped ones is their OP code. -/
inductive Fall where
  | nop
  | fp (op vd va vb vc : Nat)
  | table (op vd va : Nat)
  | cmp (va vb cond : Nat)
  | sel (vd va vb : Nat)
  | int (op vd va vb : Nat)
  | shift (right : Bool) (vd va amount : Nat)
  | convert (mode vd va : Nat)
  | perm (vd va vb : Nat)
  | red (vd va mode : Nat)
  | li (vd : Nat) (imm : BitVec 32)
  | load (vd : Nat) (fromB : Bool) (ac offset : Nat)
  | store (va ac offset : Nat)
  | acadd (ac imm : Nat)
  | loop (body select count : Nat)
  | finish
  deriving DecidableEq, Repr

/-- An instruction decoded (R190); none for any other opcode. -/
def decodeFall (w : Nat) : Option Fall :=
  let op := bits w 63 58
  let vd := bits w 57 53
  let va := bits w 52 48
  let vb := bits w 47 43
  let vc := bits w 42 38
  let imm := bits w 31 0
  if op = 0 then some .nop
  else if op ≤ 6 then some (.fp op vd va vb vc)
  else if op ≤ 0xA then some (.table op vd va)
  else if op = 0xB then some (.cmp va vb (imm % 8))
  else if op = 0xC then some (.sel vd va vb)
  else if op ≤ 0x10 then some (.int op vd va vb)
  else if op ≤ 0x12 then some (.shift (op == 0x12) vd va (imm % 32))
  else if op ≤ 0x14 then some (.convert (op - 0x13) vd va)
  else if op = 0x15 then some (.perm vd va vb)
  else if op = 0x16 then some (.red vd va (imm % 4))
  else if op = 0x17 then some (.li vd (BitVec.ofNat 32 imm))
  else if op = 0x18 then some (.load vd (imm.testBit 31) (bits imm 29 28) (bits imm 15 0))
  else if op = 0x19 then some (.store va (bits imm 29 28) (bits imm 15 0))
  else if op = 0x1A then some (.acadd (bits imm 29 28) (bits imm 15 0))
  else if op = 0x1B then some (.loop (bits imm 7 0) (bits imm 31 30) (bits imm 27 16))
  else if op = 0x1C then some .finish
  else none

/-! ## The machine -/

/-- A vector register: 64 lanes, zero where nothing was written. -/
def Fallback.vreg (f : Fallback) (i : Nat) : List F32 := mapGetD f.v i (List.replicate 64 0)

/-- Lane `l` of a vector register. -/
def Fallback.lane (f : Fallback) (i l : Nat) : F32 := (f.vreg i).getD l 0

/-- 64 lanes, each computed from its number. -/
def lanes (g : Nat → F32) : List F32 := (List.range 64).map g

def Fallback.setV (f : Fallback) (i : Nat) (l : List F32) : Fallback := { f with v := mapSet f.v i l }

/-- After an instruction: the next one, or back to the start of a loop body, or past it (R191). -/
def fallAdvance : Nat → List FallLoop → Nat × List FallLoop
  | i, [] => (i, [])
  | i, l :: ls =>
    if i = l.stop then
      if l.left ≤ 1 then fallAdvance i ls else (l.start, { l with left := l.left - 1 } :: ls)
    else (i, l :: ls)

def Fallback.next (f : Fallback) : Fallback :=
  let (i, ls) := fallAdvance (f.index + 1) f.loops
  { f with index := i, loops := ls }

def M.updFall (m : M) (c : Nat) (g : Fallback → Fallback) : M := m.updCore c fun k => { k with fall := g k.fall }

/-- The SFALL whose program runs: the last one issued. -/
def M.fallFlight (m : M) (c : Nat) : Option Flight :=
  ((m.core c).flights.filter fun f => cmdEngine f.cmd == 1 && cmdOpcode f.cmd == 4).getLast?

def M.fallJob (m : M) (c : Nat) : Option Job :=
  (m.fallFlight c).map fun f => { c, push := f.push, cmd := f.cmd, ps := f.params }

/-- The program stops on a SHAPE fault, reported when the SFALL retires (R191, R192). -/
def M.fallFault (m : M) (c : Nat) : M :=
  let m := m.updFall c fun f => { f with running := false }
  match m.fallJob c with
  | some j => m.updFlight c j.push fun x => { x with fault := true }
  | none => m

/-- The range a VLD or VST uses: absent when no SFALL runs. -/
def M.fallRange (m : M) (c i : Nat) : Range :=
  match m.fallJob c with
  | some j => cmdRange j.cmd i
  | none => { space := 0, len := 0, base := 0 }

/-- The 16 granules at a granule offset lie inside a stream's range (R193). -/
def fallInside (r : Range) (off : Int) : Bool := r.present && decide (0 ≤ off) && decide (off + 16 ≤ r.len)

/-- A VLD or VST outside its stream's range (R193). -/
def M.fallViolation (m : M) (c : Nat) (write : Bool) (r : Range) (off : Int) : M :=
  let tag := ((m.fallJob c).map (·.tag)).getD 0
  let addr : Int := if 0 ≤ off ∧ off < r.len then r.base + r.bytes else r.base + 16 * off
  m.violation c 6 write r.space tag 0 (unsigned addr 32)

/-- The lane-wise FP32 instructions, by OP (R190). -/
def fallFp (op : Nat) (a b c : F32) : F32 :=
  match op with
  | 1 => f32Add a b
  | 2 => f32Sub a b
  | 3 => f32Mul a b
  | 4 => f32Fma a b c
  | 5 => laneMinMax false a b
  | _ => laneMinMax true a b

/-- VEXP2, VLOG2, VRCP and VRSQ. -/
def fallTable (op : Nat) (a : F32) : F32 :=
  match op with
  | 7 => laneExp2 a
  | 8 => laneLog2 a
  | 9 => laneRcp a
  | _ => laneRsq a

/-- VIADD, VAND, VOR and VXOR. -/
def fallInt (op : Nat) (a b : F32) : F32 :=
  match op with
  | 0xD => a + b
  | 0xE => a &&& b
  | 0xF => a ||| b
  | _ => a ^^^ b

/-- Cycles of an instruction (Table 4.6). -/
def Fall.cycles : Fall → Nat
  | .table _ _ _ => 4
  | _ => 1

/-- Lanes as the bits of a mask. -/
def maskOf (l : List Bool) : BitVec 64 := BitVec.ofNat 64 (ofBits l)
where
  /-- The number whose bits, least significant first, are given. -/
  ofBits : List Bool → Nat
    | [] => 0
    | b :: bs => bit b + 2 * ofBits bs

/-- A vector register written and the program moved on. -/
def M.fallWrite (m : M) (c vd : Nat) (l : List F32) : M := m.updFall c fun f => (f.setV vd l).next

/-- The cycle in which the program's next instruction executes, and the entry whose schedule counts it: one cycle after the
SFALL's issue and the cycles of its instructions so far (Table 5.17). -/
def M.fallCycle (m : M) (c : Nat) : Nat × Nat :=
  match m.fallFlight c with
  | some f => (f.entry, f.issuedAt + 1 + (m.core c).fall.cycles)
  | none => (m.entryOf c, m.schedCycle c + 1 + (m.core c).fall.cycles)

/-- The four rows of a VLD or VST, accessed in its own instruction cycle (Table 5.17). -/
def M.fallUse (m : M) (c : Nat) (r : Range) (off : Int) (write : Bool) : M :=
  (bankAccesses (usesOf 0 r.space (r.base + 16 * off.toNat) 256 write .smelter)).foldl (fun m u =>
    m.useRow c (m.fallCycle c).2 u.mem u.off u.len write .smelter) m

/-- The 256 bytes of a VLD as they stand in its cycle (R205), the read noted with its SFALL. -/
def M.fallLoad (m : M) (c : Nat) (r : Range) (off : Int) : Bytes × M :=
  let at_ := r.base + 16 * off.toNat
  let (entry, t) := m.fallCycle c
  let a := memAddr c (spaceMem r.space) at_
  let (bs, m) := (m.fallUse c r off false).spaceRead c r.space at_ 256
  let bs := m.undone (m.wallOf entry t) a bs
  match m.fallFlight c with
  | some f => (bs, m.updFlight c f.push fun x => { x with reads := x.reads ++ [{ cycle := t, addr := a, len := 256 }] })
  | none => (bs, m)

/-- The 256 bytes of a VST, recorded in its cycle (R206). -/
def M.fallStore (m : M) (c : Nat) (r : Range) (off : Int) (bs : Bytes) : M :=
  let at_ := r.base + 16 * off.toNat
  let (entry, t) := m.fallCycle c
  let push := ((m.fallFlight c).map (·.push)).getD 0
  let mem := spaceMem r.space
  let before := m.fallUse c r off true
  (before.spaceWrite c r.space at_ bs).noteWrite before c push entry t (m.accessRank c mem .smelter) (memAddr c mem at_)
    (insideSpace r.space at_ 256)

/-- The effect of one fallback instruction (Table 4.6); a comparison or reduction code the table does not define gives a free
value of its operands, the same in every run (R480, R482). -/
def M.fallEffect (m : M) (c : Nat) (i : Fall) : M :=
  let f := (m.core c).fall
  match i with
  | .nop => m.updFall c Fallback.next
  | .fp op vd va vb vc =>
    m.fallWrite c vd (lanes fun l => fallFp op (f.lane va l) (f.lane vb l) (f.lane vc l))
  | .table op vd va => m.fallWrite c vd (lanes fun l => fallTable op (f.lane va l))
  | .cmp va vb cond =>
    if cond ≤ 5 then
      m.updFall c fun f => { f with mask := maskOf ((List.range 64).map fun l => laneCmp cond (f.lane va l) (f.lane vb l)) }.next
    else m.updFall c fun f => { f with mask := Config.reservedCompare cond (lanes (f.lane va)) (lanes (f.lane vb)) }.next
  | .sel vd va vb =>
    m.fallWrite c vd (lanes fun l => if f.mask.getLsbD l then f.lane va l else f.lane vb l)
  | .int op vd va vb => m.fallWrite c vd (lanes fun l => fallInt op (f.lane va l) (f.lane vb l))
  | .shift right vd va n =>
    m.fallWrite c vd (lanes fun l => if right then f.lane va l >>> n else f.lane va l <<< n)
  | .convert mode vd va => m.fallWrite c vd (lanes fun l => laneIcvt mode (f.lane va l))
  | .perm vd va vb => m.fallWrite c vd (lanes fun l => f.lane va ((f.lane vb l).toNat % 64))
  | .red vd va mode =>
    if mode ≤ 2 then m.fallWrite c vd (lanes fun _ => laneTree mode (lanes (f.lane va)))
    else m.fallWrite c vd (lanes fun _ => Config.reservedReduce (lanes (f.lane va)))
  | .li vd imm => m.fallWrite c vd (lanes fun _ => imm)
  | .load vd fromB ac offset =>
    let r := m.fallRange c (if fromB then 2 else 1)
    let off := mapGetD f.ac ac 0 + offset
    if fallInside r off then
      let (bs, m) := m.fallLoad c r off
      m.fallWrite c vd (lanes fun l => BitVec.ofNat 32 (numAt bs (4 * l) 4))
    else (m.fallViolation c false r off).fallWrite c vd (lanes fun _ => 0)
  | .store va ac offset =>
    let r := m.fallRange c 3
    let off := mapGetD f.ac ac 0 + offset
    let m :=
      if fallInside r off then
        m.fallStore c r off ((lanes (f.lane va)).flatMap fun x => toBytes 4 x.toNat)
      else m.fallViolation c true r off
    m.updFall c Fallback.next
  | .acadd ac imm => m.updFall c fun f => { f with ac := mapUpd f.ac ac 0 (· + signed imm 16) }.next
  | .loop body select count =>
    let j := m.fallJob c
    let n := if select = 0 then count else (j.map fun j => j.d (select - 1)).getD 0
    if body = 0 ∨ 4 ≤ f.loops.length then m.fallFault c
    else if n = 0 then m.updFall c fun f => { f with index := f.index + body }.next
    else m.updFall c fun f =>
      { f with
        loops := { start := f.index + 1, stop := f.index + 1 + body, left := n } :: f.loops, index := f.index + 1 }
  | .finish => m.updFall c fun f => { f with running := false }

/-- One fallback instruction: its effect, and its cycles (R191, R194). -/
def M.fallExec (m : M) (c : Nat) (i : Fall) : M :=
  (m.fallEffect c i).updFall c fun f => { f with cycles := f.cycles + i.cycles }

/-! ## SFALL (R188, R189, R192) -/

/-- One instruction fetched from the program store and executed; an index not loaded ends the program (R192). -/
def M.fallStep (m : M) (c : Nat) : M :=
  let f := (m.core c).fall
  if 256 ≤ f.index || !mapGetD (m.core c).fallValid f.index false then m.fallFault c
  else
    let (bs, m) := m.readMem c 6 (storeOff + 8 * f.index) 8 0
    match decodeFall (ofBytes bs) with
    | some i => m.fallExec c i
    | none => m.fallFault c

/-- The program run until it ends. Every loop is counted, so the number of instructions is below the fuel given. -/
def M.fallRun (c : Nat) : Nat → M → M
  | 0, m => m
  | n + 1, m => if (m.core c).fall.running then M.fallRun c n (m.fallStep c) else m

/-- More than any program can run: four nested counts of 2²⁰ over 255 instructions. -/
def fallFuel : Nat := 2 ^ 96

/-- SFALL's layout is that of its instructions, which R193 bounds; its first index is in the store. -/
def sfallShape (_ : Job) (_ : M) : Bool := true

def sfallRun (j : Job) (m : M) : M :=
  M.fallRun j.c fallFuel (m.updFall j.c fun _ => { Fallback.empty with index := j.ctl 7 0, running := true })

def sfallEngine : Engine := { shapeOk := sfallShape, hold := noHold, run := sfallRun }

def execSfall (c : Nat) : State → Host.Outcome State Fault Refusal := execEngine c 1 4 sfallEngine

/-! ## The instructions as rows: each acts on the core's fallback machine as it stands (log entry 50), while no schedule
fault stops the core and its group does not hold (R95, R245) -/

/-- A VLD reaches a granule that a token-carrying beat has still to bring (R141). -/
def M.fallHeld (m : M) (c : Nat) : Fall → Bool
  | .load _ fromB ac offset =>
    let r := m.fallRange c (if fromB then 2 else 1)
    let off := mapGetD (m.core c).fall.ac ac 0 + offset
    fallInside r off && m.tokenHeld c { space := r.space, len := 16, base := r.base + 16 * off.toNat }
  | _ => false

/-- A row of a fallback instruction; a VLD that an arrival token holds counts its cycle and waits. -/
def M.fallTry (m : M) (c : Nat) (i : Fall) : M :=
  if m.fallHeld c i then
    (m.count (cluReg (c / 17) CLU_SLIP_CYCLE_CNT)).updFall c fun f => { f with cycles := f.cycles + 1 }
  else m.fallExec c i

def fallRow (c : Nat) (i : Fall) : State → Host.Outcome State Fault Refusal :=
  onLive fun m => if (m.core c).engines && !m.groupHeld c then m.fallTry c i else m

def execVnop (c : Nat) : State → Host.Outcome State Fault Refusal := fallRow c .nop
def execVadd (c vd va vb : Nat) : State → Host.Outcome State Fault Refusal := fallRow c (.fp 1 vd va vb 0)
def execVsub (c vd va vb : Nat) : State → Host.Outcome State Fault Refusal := fallRow c (.fp 2 vd va vb 0)
def execVmul (c vd va vb : Nat) : State → Host.Outcome State Fault Refusal := fallRow c (.fp 3 vd va vb 0)
def execVfma (c vd va vb vc : Nat) : State → Host.Outcome State Fault Refusal := fallRow c (.fp 4 vd va vb vc)
def execVmin (c vd va vb : Nat) : State → Host.Outcome State Fault Refusal := fallRow c (.fp 5 vd va vb 0)
def execVmax (c vd va vb : Nat) : State → Host.Outcome State Fault Refusal := fallRow c (.fp 6 vd va vb 0)
def execVexp2 (c vd va : Nat) : State → Host.Outcome State Fault Refusal := fallRow c (.table 7 vd va)
def execVlog2 (c vd va : Nat) : State → Host.Outcome State Fault Refusal := fallRow c (.table 8 vd va)
def execVrcp (c vd va : Nat) : State → Host.Outcome State Fault Refusal := fallRow c (.table 9 vd va)
def execVrsq (c vd va : Nat) : State → Host.Outcome State Fault Refusal := fallRow c (.table 0xA vd va)
def execVcmp (c va vb cond : Nat) : State → Host.Outcome State Fault Refusal := fallRow c (.cmp va vb cond)
def execVsel (c vd va vb : Nat) : State → Host.Outcome State Fault Refusal := fallRow c (.sel vd va vb)
def execViadd (c vd va vb : Nat) : State → Host.Outcome State Fault Refusal := fallRow c (.int 0xD vd va vb)
def execVand (c vd va vb : Nat) : State → Host.Outcome State Fault Refusal := fallRow c (.int 0xE vd va vb)
def execVor (c vd va vb : Nat) : State → Host.Outcome State Fault Refusal := fallRow c (.int 0xF vd va vb)
def execVxor (c vd va vb : Nat) : State → Host.Outcome State Fault Refusal := fallRow c (.int 0x10 vd va vb)
def execVshl (c vd va n : Nat) : State → Host.Outcome State Fault Refusal := fallRow c (.shift false vd va n)
def execVshr (c vd va n : Nat) : State → Host.Outcome State Fault Refusal := fallRow c (.shift true vd va n)
def execVcvtif (c vd va : Nat) : State → Host.Outcome State Fault Refusal := fallRow c (.convert 0 vd va)
def execVcvtfi (c vd va : Nat) : State → Host.Outcome State Fault Refusal := fallRow c (.convert 1 vd va)
def execVperm (c vd va vb : Nat) : State → Host.Outcome State Fault Refusal := fallRow c (.perm vd va vb)
def execVred (c vd va mode : Nat) : State → Host.Outcome State Fault Refusal := fallRow c (.red vd va mode)
def execVli (c vd : Nat) (imm : BitVec 32) : State → Host.Outcome State Fault Refusal := fallRow c (.li vd imm)
def execVld (c vd : Nat) (fromB : Bool) (ac offset : Nat) : State → Host.Outcome State Fault Refusal :=
  fallRow c (.load vd fromB ac offset)
def execVst (c va ac offset : Nat) : State → Host.Outcome State Fault Refusal := fallRow c (.store va ac offset)
def execAcadd (c ac imm : Nat) : State → Host.Outcome State Fault Refusal := fallRow c (.acadd ac imm)
def execLoop (c body select count : Nat) : State → Host.Outcome State Fault Refusal := fallRow c (.loop body select count)
def execFallEnd (c : Nat) : State → Host.Outcome State Fault Refusal := fallRow c .finish

end Sys2Proof.Machine
end

