-- ==== Sys2Proof/Machine/Service.lean ====
section
/-! DEFINITION. The service ports: their registers, queues and frames (R541, R542). -/
namespace Sys2Proof.Machine

/-! ## Service ports (R541, R542) -/

def M.service (m : M) (p : Nat) : ServicePort := mapGetD m.die.svc p ServicePort.fresh

def M.updService (m : M) (p : Nat) (f : ServicePort → ServicePort) : M :=
  { m with die.svc := mapSet m.die.svc p (f (m.service p)) }

/-- The queues that are enabled, by number. -/
def ServicePort.enabled (x : ServicePort) : NMap ServiceQueue := x.rx.filter (·.2.enabled)

/-- Source and destination addresses and ports of an IPv4 or IPv6 frame that carries TCP or UDP; none for another frame
(log entry 88). -/
def flowBytes (frame : Bytes) : Option Bytes :=
  let type := 256 * byteAt frame 12 + byteAt frame 13
  if type = 0x0800 ∧ (byteAt frame 23 = 6 ∨ byteAt frame 23 = 17) then
    some (slice frame 26 8 ++ slice frame (14 + 4 * (byteAt frame 14 % 16)) 4)
  else if type = 0x86DD ∧ (byteAt frame 20 = 6 ∨ byteAt frame 20 = 17) then some (slice frame 22 32 ++ slice frame 54 4)
  else none

/-- The receive queue of a frame: its hash modulo the enabled queues; a free choice where the frame has no such fields. -/
def M.receiveQueue (m : M) (x : ServicePort) (frame : Bytes) : Option (Nat × ServiceQueue) × M :=
  match flowBytes frame with
  | some b => (x.enabled[crc32c b % x.enabled.length]?, m)
  | none => (x.enabled[m.freeValue % x.enabled.length]?, m.spend)

/-- Carve-out offset of descriptor `i` of a queue. -/
def ServiceQueue.descriptor (q : ServiceQueue) (i : Nat) : Nat := carveWrap (q.base + 16 * (i % q.entries))

/-- Free descriptors that a frame of `n` bytes fills from descriptor `i` on: their number, or none when too few are
free. A descriptor is free while its done flag is clear. -/
def M.descriptorsFor (m : M) (q : ServiceQueue) : Nat → Nat → Nat → Option Nat
  | 0, _, _ => none
  | fuel + 1, i, n =>
    let d := q.descriptor i
    if (m.carveN (d + 12) 2).testBit 1 then none
    else if n ≤ m.carveN (d + 8) 4 then some 1
    else (m.descriptorsFor q fuel (i + 1) (n - m.carveN (d + 8) 4)).map (· + 1)

/-- A frame written into `k` descriptors: each buffer filled in turn and its length and flags written back; end of frame
on the last. -/
def M.fillDescriptors (q : ServiceQueue) (flags : Nat) : Nat → M → Nat → Bytes → M
  | 0, m, _, _ => m
  | k + 1, m, i, bs =>
    let d := q.descriptor i
    let part := bs.take (m.carveN (d + 8) 4)
    let m := (m.noteCarve d 16).carveWrite (carveWrap (m.carveN d 8)) part
    let m := m.carveWrite (d + 8) (toBytes 4 part.length ++ toBytes 2 (flags + 2 + bit (k == 0)))
    M.fillDescriptors q flags k m (i + 1) (bs.drop part.length)

/-- A frame delivered to its queue, or dropped and counted when no descriptor is free; one longer than MTU is counted either
way (R542). -/
def M.deliverFrame (m : M) (p : Nat) (whole frame : Bytes) (flags : Nat) : M :=
  let m := if flags.testBit 3 then m.updService p fun x => { x with rxTruncCnt := satNat x.rxTruncCnt 1 } else m
  let x := m.service p
  match m.receiveQueue x whole with
  | (some (n, q), m) =>
    match m.descriptorsFor q q.entries q.next frame.length with
    | some k =>
      let m := M.fillDescriptors q flags k m q.next frame
      m.updService p fun x => { x with rx := mapSet x.rx n { q with next := (q.next + k) % q.entries } }
    | none => m.updService p fun x => { x with rxNodescCnt := satNat x.rxNodescCnt 1 }
  | (none, m) => m.updService p fun x => { x with rxNodescCnt := satNat x.rxNodescCnt 1 }

/-- A frame received on a service port: a bad FCS drops it unless KEEP_BAD is set, and the MTU cuts it (R542). -/
def M.serviceFrame (m : M) (p : Nat) (frame : Bytes) (badFcs : Bool) : M :=
  let x := m.service p
  if badFcs && !x.keepBad then m.updService p fun x => { x with rxFcsErrCnt := satNat x.rxFcsErrCnt 1 }
  else m.deliverFrame p frame (frame.take x.mtu) (4 * bit badFcs + 8 * bit (decide (x.mtu < frame.length)))

def execServiceFrameReceive (p : Nat) (frame : Bytes) (badFcs : Bool) : State → Host.Outcome State Fault Refusal :=
  onLive (M.serviceFrame · p frame badFcs)

/-! ## Transmission (R541) -/

/-- The descriptors of a transmit queue from the next one up to TAIL: whole frames sent, each of its descriptors written back as
done. `kept` is the state with the last whole frame sent, which a frame without its end leaves as it is. -/
def M.transmit (p n : Nat) : Nat → M → M → Bytes → M
  | 0, kept, _, _ => kept
  | fuel + 1, kept, m, bs =>
    let q := mapGetD (m.service p).tx n ServiceQueue.fresh
    if q.next % q.entries = q.tail % q.entries then kept
    else
      let d := q.descriptor q.next
      let flags := m.carveN (d + 12) 2
      let (part, m) := (m.noteCarve d 16).stripedRead carveAddr (carveWrap (m.carveN d 8)) (m.carveN (d + 8) 4) 2
      let m := m.carveWrite (d + 12) (toBytes 2 (flags ||| 2))
      let m := m.updService p fun x => { x with tx := mapSet x.tx n { q with next := (q.next + 1) % q.entries } }
      if flags.testBit 0 then
        let m := m.updService p fun x => { x with sent := x.sent ++ [bs ++ part] }
        M.transmit p n fuel m m []
      else M.transmit p n fuel kept m (bs ++ part)

/-- A transmit queue sends what stands up to its TAIL. -/
def M.transmitQueue (m : M) (p n : Nat) : M :=
  let q := mapGetD (m.service p).tx n ServiceQueue.fresh
  if q.enabled then M.transmit p n q.entries m m [] else m

/-! ## Registers

The spec names SVC_PORTn_CTRL with KEEP_BAD and MTU, three counters and 16 queues each way, and gives no layout of the window;
this one is the model's (log entry 88): CTRL at 0x0 (MTU [15:0], KEEP_BAD [16]), RX_NODESC_CNT at 0x8, RX_FCS_ERR_CNT at 0x10,
RX_TRUNC_CNT at 0x18, receive queue q at 0x400 + 0x20 × q and transmit queue q at 0x800 + 0x20 × q: its ring's carve-out offset,
its ring (ENTRIES [31:0], ENABLE [32]), its next descriptor (RO), and TAIL of a transmit queue. -/

/-- A queue's register. -/
def ServiceQueue.reg (q : ServiceQueue) (i : Nat) : Nat :=
  match i with
  | 0 => q.base
  | 1 => q.entries + 2 ^ 32 * bit q.enabled
  | 2 => q.next
  | _ => q.tail

/-- A queue's register written; a ring laid anew begins at its first descriptor. -/
def ServiceQueue.write (q : ServiceQueue) (i v : Nat) : ServiceQueue :=
  match i with
  | 0 => { q with base := carveWrap v }
  | 1 => { q with entries := v % 2 ^ 32, enabled := v.testBit 32, next := 0, tail := 0 }
  | 2 => q
  | _ => { q with tail := v % 2 ^ 32 }

/-- The queue and the register of it that an offset names: whether it is a transmit queue, its number, and its register. -/
def serviceQueueAt (off : Nat) : Option (Bool × Nat × Nat) :=
  if 0x400 ≤ off ∧ off < 0x600 then some (false, (off - 0x400) / 0x20, off % 0x20 / 8)
  else if 0x800 ≤ off ∧ off < 0xA00 then some (true, (off - 0x800) / 0x20, off % 0x20 / 8)
  else none

/-- A register of a port's window; an unassigned offset reads zero. -/
def ServicePort.reg (x : ServicePort) (off : Nat) : Nat :=
  match serviceQueueAt off with
  | some (t, q, i) => (mapGetD (if t then x.tx else x.rx) q ServiceQueue.fresh).reg i
  | none =>
    if off = 0 then x.mtu + 2 ^ 16 * bit x.keepBad
    else if off = 8 then x.rxNodescCnt
    else if off = 0x10 then x.rxFcsErrCnt
    else if off = 0x18 then x.rxTruncCnt
    else 0

/-- A counter of a port cleared by a 64-bit read (Table 0.5, R12). -/
def ServicePort.cleared (x : ServicePort) (off : Nat) : ServicePort :=
  if off = 8 then { x with rxNodescCnt := 0 }
  else if off = 0x10 then { x with rxFcsErrCnt := 0 }
  else if off = 0x18 then { x with rxTruncCnt := 0 }
  else x

/-- A register of a port's window written whole; a counter or an unassigned offset takes nothing. -/
def ServicePort.write (x : ServicePort) (off v : Nat) : ServicePort :=
  match serviceQueueAt off with
  | some (true, q, i) => { x with tx := mapSet x.tx q ((mapGetD x.tx q ServiceQueue.fresh).write i v) }
  | some (false, q, i) => { x with rx := mapSet x.rx q ((mapGetD x.rx q ServiceQueue.fresh).write i v) }
  | none => if off = 0 then { x with mtu := v % 2 ^ 16, keepBad := v.testBit 16 } else x

/-- A write of a port's window: the bytes of its width in the register. A TAIL sends. -/
def M.serviceWrite (m : M) (p off n : Nat) (value : Word) : M :=
  let r := off / 8 * 8
  let old := BitVec.ofNat 64 ((m.service p).reg r)
  let v := old &&& ~~~ writeMask off n ||| writeValue off n value &&& writeMask off n
  let m := m.updService p fun x => x.write r v.toNat
  match serviceQueueAt r with
  | some (true, q, 3) => m.transmitQueue p q
  | _ => m

/-- An access of a service port's window, with the meaning of R12. -/
def M.serviceAccess (m : M) (p off n : Nat) (write : Bool) (value : Word) : M :=
  if !registerOk n off then if write then m.count HDF_CS_ACCESS_ERR_CNT else m.badAccess
  else if write then m.serviceWrite p off n value
  else
    let r := off / 8 * 8
    let v := (m.service p).reg r
    if n = 8 then { m.updService p (·.cleared r) with die.readData := v }
    else { m with die.readData := halfOf off v }

end Sys2Proof.Machine
end

