-- ==== Sys2Proof/Machine/HostSide.lean ====
section
/-! DEFINITION. The host side: DMA windows (R537, R650) and accesses of the application cores (R520 to R523, R535, R505).
-/
namespace Sys2Proof.Machine

/-! ## DHOSTRD and DHOSTWR (R537, R650) -/

/-- Where a host window lies: in the journal or in the carve-out, its first byte there and its size; none when it is not
granted in the direction. Windows 0 and 63 are the step's own and serve both directions (log entry 96). -/
def M.hostWindow (m : M) (w : Nat) (write : Bool) : Option (Bool × Nat × Nat) :=
  if w = 0 ∨ w = 63 then
    m.die.fmn.composed.map fun c =>
      if w = 0 then (true, m.recordBase c.number + c.resultOff, resultSize * c.items.length)
      else (true, m.recordBase c.number, c.recordSize)
  else match mapGet m.die.fmn.windows w with
    | some x => if (if write then x.dieWrites else x.dieReads) then some (false, x.base, x.size) else none
    | none => none

/-- The address of a window's byte in state memory. -/
def windowAddr (journal : Bool) (a : Nat) : Nat := if journal then journalAddr a else carveAddr a

/-- Bytes of a range of `n` from an offset that lie within a size. -/
def withinSize (size off n : Nat) : Nat := min n (size - off)

/-- Some burst of a striped range holds an uncorrectable error. -/
def M.stripedBad (m : M) (f : Nat → Nat) (a n : Nat) : Bool :=
  (stripes a n).any fun q => !(m.badBursts (f (a + q.1)) q.2).isEmpty

/-- A host range that reaches beyond what its window grants, counted once (R54, R650). -/
def M.windowViolation (m : M) (j : Job) (r : Range) (write : Bool) (size : Nat) : M :=
  if !r.present || decide (r.base + r.bytes ≤ size) then m else m.violation j.c 2 write HOSTWIN j.tag 0 (max r.base size)

/-- Both ranges have one length, and bytes that move lie in present ranges (R640, R650). -/
def dhostShape (j : Job) (_ : M) : Bool := j.a.len == j.w.len && (j.a.len == 0 || (j.a.present && j.w.present))

/-- DHOSTRD: LEN granules from the window, zeros for what is not granted; an uncorrectable burst sets the step's error
status (R505). -/
def dhostrdRun (j : Job) (m : M) : M :=
  let m := m.elasticPath j.c 32
  let n := j.a.bytes
  match m.hostWindow (j.aux 5 0) false with
  | some (jr, base, size) =>
    let k := withinSize size j.a.base n
    let m := if m.stripedBad (windowAddr jr) (base + j.a.base) k then m.stepError else m
    let (bs, m) := m.stripedRead (windowAddr jr) (base + j.a.base) k 2
    ((m.windowViolation j j.a false size).elasticRows j.c j.w.space j.w.base n true).spaceWrite j.c j.w.space j.w.base
      (bs ++ zeros (n - k))
  | none =>
    ((m.windowViolation j j.a false 0).elasticRows j.c j.w.space j.w.base n true).spaceWrite j.c j.w.space j.w.base (zeros n)

def execDhostrd (c : Nat) : State → Host.Outcome State Fault Refusal :=
  execEngine c 2 7 { shapeOk := dhostShape, hold := noHold, run := dhostrdRun }

/-- DHOSTWR: LEN granules to the window; what is not granted is ignored. -/
def dhostwrRun (j : Job) (m : M) : M :=
  let (bs, m) := ((m.elasticPath j.c 32).elasticRows j.c j.a.space j.a.base j.a.bytes false).spaceRead j.c j.a.space j.a.base j.a.bytes
  match m.hostWindow (j.aux 5 0) true with
  | some (jr, base, size) =>
    let k := withinSize size j.w.base j.w.bytes
    (m.stripedWrite (windowAddr jr) (base + j.w.base) (bs.take k) 2).windowViolation j j.w true size
  | none => m.windowViolation j j.w true 0

def execDhostwr (c : Nat) : State → Host.Outcome State Fault Refusal :=
  execEngine c 2 8 { shapeOk := dhostShape, hold := noHold, run := dhostwrRun }

/-! ## HOST_ACCESS (R520, Table 14.1) -/

/-- A bus error on the host bridge: a read gives no data. -/
def M.hostError (m : M) : M := { m with die.busError := true, die.readData := 0 }

def M.hostDone (m : M) : M := { m with die.busError := false }

/-- What a host access of state memory waits for: the carve-out of its stacks is filled once they are trained, and staging
once FILLED (R638, log entry 126). -/
def M.stripedReady (m : M) (staging : Bool) (a n : Nat) : Bool :=
  (stripes a n).all fun q =>
    if staging then m.flag (seamReg (addrStack (stagingAddr (a + q.1))) SEAM_STATUS) 40
    else m.stackTrain (addrStack (carveAddr (a + q.1))) == 2

/-- A host access put behind those that wait. -/
def M.hostDefer (m : M) (x : HostWait) : M := { m with die.hostWait := m.die.hostWait ++ [x] }

/-- A host read of a striped space (R505). -/
def M.hostRead (m : M) (f : Nat → Nat) (a n : Nat) : M :=
  let bad := m.stripedBad f a n
  let (bs, m) := m.stripedRead f a n 2
  if bad then (m.count FMN_HOST_UE_CNT).hostError else { m with die.readData := ofBytes bs, die.busError := false }

/-- A host access of the carve-out. -/
def M.hostCarve (m : M) (a n : Nat) (write : Bool) (value : Word) : M :=
  if !m.stripedReady false a n then m.hostDefer { staging := false, addr := a, width := n, write, value }
  else if write then (m.carveWrite a (toBytes n value.toNat)).hostDone
  else m.hostRead carveAddr a n

/-- The frame is one that the Foreman has named to software (R535). -/
def M.frameNamed (m : M) (f : Nat) : Bool :=
  m.die.fmn.openLoad.any fun l => decide (l.frameBase ≤ f) && decide (f < l.frameBase + l.frameCount)

/-- A host access of weight staging: writable only in the frames named while a load is open (R535). -/
def M.hostStaging (m : M) (a n : Nat) (write : Bool) (value : Word) : M :=
  if !m.stripedReady true a n then m.hostDefer { staging := true, addr := a, width := n, write, value }
  else if !write then m.hostRead stagingAddr a n
  else if m.frameNamed (a / frameSize) && m.frameNamed ((a + n - 1) / frameSize) then
    (m.stripedWrite stagingAddr a (toBytes n value.toNat) 2).hostDone
  else if m.die.fmn.openLoad.isSome then (m.count FMN_STAGING_VIOL_CNT).hostDone
  else m.hostDone

/-- The host accesses whose wait has ended, served in order (R638). -/
def M.serveHost (m : M) : M :=
  let due := m.die.hostWait.filter fun x => m.stripedReady x.staging x.addr x.width
  let m : M := { m with die.hostWait := m.die.hostWait.filter fun x => !m.stripedReady x.staging x.addr x.width }
  due.foldl (fun m x =>
    if x.staging then m.hostStaging x.addr x.width x.write x.value else m.hostCarve x.addr x.width x.write x.value) m

def execStackTrainingComplete (s : Nat) (trained : Bool) : State → Host.Outcome State Fault Refusal :=
  onLive fun m => (m.trainingDone s trained).serveHost

def execStateMemoryFillComplete (s : Nat) : State → Host.Outcome State Fault Refusal := onLive fun m => (m.fill s).serveHost

/-- A host access of a mailbox: ignored and counted while it is busy (R523). -/
def M.hostMailbox (m : M) (off n : Nat) (write : Bool) (value : Word) : M :=
  if !write then { m with die.readData := m.readN (0x240000000000 + off) n, die.busError := false }
  else if m.mbBusy (off / 256) then (m.count FMN_MB_WR_BUSY_CNT).hostDone
  else (m.writeN (0x240000000000 + off) n value.toNat).hostDone

/-- A host access of a register of the Foreman window, with the meaning of R12. -/
def M.hostRegister (m : M) (off n : Nat) (write : Bool) (value : Word) : M :=
  let a := 0x240000000000 + off
  if write then (m.globalWrite (a / 8 * 8) (writeMask a n) (writeValue a n value)).hostDone
  else if n = 8 then (m.readClear a).hostDone
  else { m with die.readData := halfOf a (m.readReg (a / 8 * 8)), die.busError := false }

/-- A host access of the Foreman window (R520, R521). -/
def M.hostForeman (m : M) (off n : Nat) (write : Bool) (value : Word) : M :=
  if off < 0x4000 then
    if accessOk n off then m.hostMailbox off n write value else (m.count FMN_HOST_ACCESS_ERR_CNT).hostError
  else if registerOk n off then m.hostRegister off n write value
  else (m.count FMN_HOST_ACCESS_ERR_CNT).hostError

/-- The first address of the staging range, the Foreman window and the service ports (Table 14.1). -/
abbrev hostStagingBase : Nat := 0x2000000000
abbrev hostForemanBase : Nat := 0x4000000000
abbrev hostServiceBase : Nat := 0x4100000000

/-- An access of an application core (R520, Table 14.1). -/
def M.hostAccess (m : M) (a n : Nat) (write : Bool) (value : Word) : M :=
  if a + n ≤ hostStagingBase then m.hostCarve a n write value
  else if hostStagingBase ≤ a ∧ a + n ≤ 0x2200000000 then m.hostStaging (a - hostStagingBase) n write value
  else if hostForemanBase ≤ a ∧ a < hostForemanBase + 0x10000 then m.hostForeman (a - hostForemanBase) n write value
  else if hostServiceBase ≤ a ∧ a < hostServiceBase + 0x20000 then
    (m.serviceAccess ((a - hostServiceBase) / 0x10000) (a % 0x10000) n write value).hostDone
  else m.hostError

def execHostAccess (a width : Nat) (write : Bool) (value : Word) : State → Host.Outcome State Fault Refusal :=
  onLive (M.hostAccess · a width write value)

end Sys2Proof.Machine
end

