-- ==== Sys2Proof/Machine/Mxe.lean ====
section
/-! DEFINITION. The matrix engine (chapter 3): weight planes, tiles and their five commands. -/
namespace Sys2Proof.Machine

/-! ## Planes, tiles and the drain scales -/

/-- Where a weight plane stands (log entry 3): column `c` at 512 × c, its scale of block `b` at 0x8000 + 64 × b + c. -/
def planeAddr (c plane : Nat) : Nat := coreBase c + 0x8100000 + plane * 0x10000

def M.planeValid (m : M) (c p : Nat) : Bool := m.flag (coreReg c CORE_MXE_STATUS) p

def M.planeFmt (m : M) (c p : Nat) : Nat := m.fld (coreReg c CORE_MXE_STATUS) (4 * p + 7) (4 * p + 4)

def M.tileInt (m : M) (c t : Nat) : Bool := m.flag (coreReg c CORE_MXE_STATUS) (32 + t)

def M.setTileInt (m : M) (c t : Nat) (i : Bool) : M :=
  m.setFld (coreReg c CORE_MXE_STATUS) (32 + t) (32 + t) (bit i)

/-- The drain scale of a column (Table 3.16). -/
def M.dscale (m : M) (c col : Nat) : F32 :=
  BitVec.ofNat 32 (m.fld (coreReg c CORE_DSCALE + 8 * (col / 2)) (32 * (col % 2) + 31) (32 * (col % 2)))

/-- The tile an ACC range names (R51). -/
def Range.tile (r : Range) : Nat := r.base / 0x10000

/-- R119: exactly one whole tile. -/
def wholeTile (sterling : Bool) (r : Range) : Bool :=
  r.present && r.base % 0x10000 == 0 && r.bytes == tileSize sterling

/-- R101: the pairs of Table 3.1, activations first. -/
def pairListed (a w : Nat) : Bool :=
  ([0, 1].contains a && [0, 1].contains w) || ([2, 3].contains a && [2, 3, 4].contains w) ||
    (a == 4 && w == 4) || (a == 5 && w == 5) || (a == 6 && w == 6)

/-- A multiple of 32 from 32 to 256. -/
def kExtent (k : Nat) : Bool := decide (32 ≤ k) && decide (k ≤ 256) && k % 32 == 0

/-- The pad value that PADSEL selects (R132). -/
def M.pad (m : M) (c sel : Nat) : Flt :=
  if sel = 0 then .zero else if sel = 1 then .inf true
  else f32Decode (BitVec.ofNat 32 (m.fld (coreReg c CORE_PAD) 31 0))

/-- A plane still filling (R123): an MLOAD into it has not retired. -/
def M.planeFilling (m : M) (c p : Nat) : Bool :=
  (m.core c).flights.any fun f =>
    cmdEngine f.cmd == 0 && cmdOpcode f.cmd == 1 && !isDscale f.cmd && (cmdFlags f.cmd) % 2 == p

/-- A command that names a filling plane is held and counted (R123). -/
def planeHold (j : Job) (m : M) : Option (List Nat) :=
  if !isDscale j.cmd && m.planeFilling j.c (j.flags % 2) then some [coreReg j.c CORE_MXE_PLANE_WAIT_CYCLE_CNT]
  else none

/-! ## MLOAD (R106, R122, R125) -/

def mloadShape (j : Job) (_ : M) : Bool :=
  if isDscale j.cmd then j.a.present && j.a.len == 16
  else
    let f := j.ctl 3 0
    decide (f ≤ 6) && kExtent (j.d 0) && upTo 64 (j.d 1) && j.d 2 == 0 && j.bounded [0, 1, 2] &&
      j.a.coversRows 0 (j.inner 2) (j.d 1) (elemBytes f (j.d 0)) &&
      (!isMx f || j.a.coversRows (j.outer 2) 64 (j.d 0 / 32) (j.d 1))

/-- The bytes of `n` packed elements without what stands beyond them: the high nibble after an odd count of FP4. -/
def onlyElems (f n : Nat) (bs : Bytes) : Bytes :=
  if f = 4 ∧ n % 2 = 1 then modifyNth bs (n / 2) (· &&& 0x0F) else bs

/-- One column of the fill: in-bound elements from Lode, zero beyond (R122). -/
def M.fillColumn (m : M) (j : Job) (f col : Nat) : M :=
  let n := if col < j.bd 1 then elemBytes f (j.bd 0) else 0
  let (bs, m) := if n = 0 then ([], m) else m.spaceRead j.c LODE (j.a.base + j.inner 2 * col) n
  m.write (planeAddr j.c (j.flags % 2) + 512 * col) (onlyElems f (j.bd 0) bs ++ zeros (512 - n))

/-- The scales of one block (R106); an out-of-bound element counts as zero under any scale, so its scale is 2⁰. -/
def M.fillScales (m : M) (j : Job) (blk : Nat) : M :=
  let n := if 32 * blk < j.bd 0 then j.bd 1 else 0
  let (bs, m) := if n = 0 then ([], m) else m.spaceRead j.c LODE (j.a.base + j.outer 2 + 64 * blk) n
  m.write (planeAddr j.c (j.flags % 2) + 0x8000 + 64 * blk) (bs ++ List.replicate (64 - n) 127)

def mloadRun (j : Job) (m : M) : M :=
  if isDscale j.cmd then
    let (bs, m) := m.spaceRead j.c LODE j.a.base 256
    (List.range 32).foldl (fun m i => m.setReg (coreReg j.c CORE_DSCALE + 8 * i) (BitVec.ofNat 64 (numAt bs (8 * i) 8))) m
  else
    let f := j.ctl 3 0
    let p := j.flags % 2
    let m := (List.range 64).foldl (fun m col => m.fillColumn j f col) m
    let m := if isMx f then (List.range 8).foldl (fun m b => m.fillScales j b) m else m
    let st := coreReg j.c CORE_MXE_STATUS
    (m.setFld st (4 * p + 7) (4 * p + 4) f).setFld st p p 1

def mloadEngine : Engine := { shapeOk := mloadShape, hold := planeHold, run := mloadRun }

def execMload (c : Nat) : State → Host.Outcome State Fault Refusal := execEngine c 0 1 mloadEngine

/-! ## MMUL and MMULZ (R100 to R115, R128 to R132) -/

def mmulShape (zero : Bool) (j : Job) (m : M) : Bool :=
  let f := j.ctl 3 0
  let p := j.flags % 2
  let t := j.w.tile
  wholeTile (m.sterling j.c) j.w && m.planeValid j.c p && pairListed f (m.planeFmt j.c p) &&
    upTo 32 (j.d 0) && upTo 64 (j.d 1) && kExtent (j.d 2) && j.bounded [0, 1, 2] &&
    j.ctl 5 4 != 3 && (f != 6 || j.ctl 5 4 == 0) &&
    j.a.coversRows 0 (j.inner 2) (j.d 0) (elemBytes f (j.d 2)) &&
    (!isMx f || j.a.coversRows (j.outer 2) 32 (j.d 2 / 32) (j.d 0)) &&
    (zero || ((m.tileInt j.c t == (f == 6)) && decide (mapGetD (m.core j.c).tileK t 0 + j.d 2 ≤ 65536)))

/-- The activation values of token row `r` (R107, R128, R129): out-of-bound lanes carry the pad value. -/
def M.actRow (m : M) (j : Job) (f : Nat) (scales : List Bytes) (pad : Flt) (r : Nat) : List Flt × M :=
  let kb := if r < j.bd 0 then j.bd 2 else 0
  let (bs, m) := if kb = 0 then ([], m) else m.spaceRead j.c SCRATCH (j.a.base + j.inner 2 * r) (elemBytes f kb)
  ((List.range (j.d 2)).map fun k =>
    if k < kb then
      let x := elemDecode f (elemRaw f bs k)
      if isMx f then mxApply (byteAt (scales.getD (k / 32) []) r) x else x
    else pad, m)

/-- The activation scales, by block (R107). -/
def M.actScales (m : M) (j : Job) (f : Nat) : List Bytes × M :=
  if isMx f then
    (List.range (j.d 2 / 32)).foldl (fun (ss, m) b =>
      let n := if 32 * b < j.bd 2 then j.bd 0 else 0
      let (bs, m) := if n = 0 then ([], m) else m.spaceRead j.c SCRATCH (j.a.base + j.outer 2 + 32 * b) n
      (ss ++ [bs], m)) ([], m)
  else ([], m)

/-- The weights of column `col` of a plane, `n` of them (R106). -/
def M.planeColumn (m : M) (c p col n : Nat) : List Flt :=
  let f := m.planeFmt c p
  let bs := m.read (planeAddr c p + 512 * col) (elemBytes f n)
  let sc := if isMx f then (List.range (n / 32)).map fun b => m.readN (planeAddr c p + 0x8000 + 64 * b + col) 1 else []
  (List.range n).map fun k =>
    let x := elemDecode f (elemRaw f bs k)
    if isMx f then mxApply (sc.getD (k / 32) 127) x else x

/-- The products of one cell, in K order (R100). -/
def cellProducts (a w : List Flt) : List Flt := List.zipWith fltMul a w

/-- The block sums added to an FP32 element in K order (R111). -/
def fp32Cell (n : Nat) (old : F32) (ps : List Flt) : F32 :=
  (List.range (n / 32)).foldl (fun acc b =>
    let s := ((ps.drop (32 * b)).take 32).foldl fltAdd .zero
    f32Add acc (f32Encode (f32FreeNan 4 acc.toNat b) s)) old

/-- The integer sum added to an INT32 element (R112). -/
def int32Cell (old : Nat) (ps : List Flt) : Nat :=
  unsigned (signed old 32 + ps.foldl (fun s p => s + p.dyadic.n) 0) 32

/-- The Sterling sum added to an element, with the products out of range and those rounded (R115). -/
def sterlingCell (old : Sterling) (ps : List Flt) : Sterling × Nat × Nat :=
  ps.foldl (fun (s, a, b) p =>
    let (t, past, rnd) := sterlingTerm p
    (sterlingAdd s t, a + bit past, b + bit rnd)) (old, 0, 0)

/-- Bytes of an accumulator element. -/
def accElem (sterling : Bool) : Nat := if sterling then 16 else 4

/-- The new bytes of a tile, with the counts of R115. -/
def tileUpdate (sterling isInt : Bool) (n : Nat) (acts cols : List (List Flt)) (old : List Bytes) : Bytes × Nat × Nat :=
  ((List.range 32).flatMap fun r => (List.range 64).map fun c => (r, c)).foldl (fun (bs, a, b) (r, c) =>
    let ps := cellProducts (acts.getD r []) (cols.getD c [])
    let o := old.getD (64 * r + c) []
    if sterling then
      let (s, x, y) := sterlingCell (Sterling.ofBytes o) ps
      (bs ++ s.bytes, a + x, b + y)
    else if isInt then (bs ++ toBytes 4 (int32Cell (ofBytes o) ps), a, b)
    else (bs ++ toBytes 4 (fp32Cell n (BitVec.ofNat 32 (ofBytes o)) ps).toNat, a, b)) ([], 0, 0)

def mmulRun (zero : Bool) (j : Job) (m : M) : M :=
  let c := j.c
  let f := j.ctl 3 0
  let p := j.flags % 2
  let t := j.w.tile
  let st := m.sterling c
  let pad := m.pad c (j.ctl 5 4)
  let (scales, m) := m.actScales j f
  let (acts, m) := (List.range 32).foldl (fun (l, m) r => let (x, m) := m.actRow j f scales pad r; (l ++ [x], m)) ([], m)
  let cols := (List.range 64).map fun col => m.planeColumn c p col (j.d 2)
  let off := t * tileSize st
  let (old, m) := if zero then (zeros (tileSize st), m) else m.readMem c 2 off (tileSize st) 0
  let (bs, past, rnd) := tileUpdate st (f == 6) (j.d 2) acts cols (chunks (accElem st) 2048 old)
  let m := m.writeMem c 2 off bs
  let m := (m.countBy (coreReg c CORE_MXE_STERLING_RANGE_CNT) past).countBy (coreReg c CORE_MXE_STERLING_ROUND_CNT) rnd
  let m := if zero then m.setTileInt c t (f == 6) else m
  m.updCore c fun k => { k with
    tileK := mapSet k.tileK t ((if zero then 0 else mapGetD k.tileK t 0) + j.d 2) }

/-- Cycles of a K block of 32 (Table 3.1). -/
def blockCycles (sterling : Bool) (f : Nat) : Nat :=
  (if f = 4 then 16 else if f = 5 then 128 else 32) * (if sterling then 2 else 1)

/-- Reads of an MMUL on Scratch's MXE port: each K block's elements in four cycles of 8 token rows, and its scales in the fifth
(Table 5.17). The tile is written with its last block; no port of it is shared. -/
def mmulUses (j : Job) (m : M) : List RowUse :=
  let f := j.ctl 3 0
  let q := blockCycles (m.sterling j.c) f
  let n := tileSize (m.sterling j.c)
  ((List.range (ceilDiv (j.bd 2) 32)).flatMap fun b =>
    let k := elemBytes f (min 32 (j.bd 2 - 32 * b))
    ((List.range (j.bd 0)).flatMap fun r =>
      usesOf (1 + b * q + r / 8) SCRATCH (j.a.base + j.inner 2 * r + elemBytes f (32 * b)) k false .mxe) ++
      (if isMx f then usesOf (5 + b * q) SCRATCH (j.a.base + j.outer 2 + 32 * b) (j.bd 0) false .mxe else [])) ++
    [{ at_ := 1 + ceilDiv (j.d 2) 32 * q, mem := 2, off := j.w.tile * n, len := n, write := true, unit := .mxe }]

def mmulEngine (zero : Bool) : Engine :=
  { shapeOk := mmulShape zero, hold := planeHold, uses := mmulUses, run := mmulRun zero }

def execMmul (c : Nat) : State → Host.Outcome State Fault Refusal := execEngine c 0 2 (mmulEngine false)
def execMmulz (c : Nat) : State → Host.Outcome State Fault Refusal := execEngine c 0 3 (mmulEngine true)

/-! ## MDRAIN (R126, R127, R131) -/

def drainFormats : List Nat := [0, 1, 5, 7, 8]

def mdrainShape (j : Job) (m : M) : Bool :=
  let f := j.ctl 3 0
  wholeTile (m.sterling j.c) j.a && drainFormats.contains f && upTo 32 (j.d 0) && upTo 64 (j.d 1) && j.d 2 == 0 &&
    j.bounded [0, 1, 2] && (f != 8 || m.tileInt j.c j.a.tile) &&
    j.w.coversRows 0 (j.inner 4) (j.d 0) (elemBytes f (j.d 1))

/-- An accumulator element's exact value. -/
def accValue (sterling isInt : Bool) (b : Bytes) : Flt :=
  if sterling then (Sterling.ofBytes b).flt
  else if isInt then elemDecode 8 (ofBytes b) else f32Decode (BitVec.ofNat 32 (ofBytes b))

/-- One drained element: its bits and how it came out (R126). -/
def drainElement (sterling isInt : Bool) (f : Nat) (sat : Bool) (scale : F32) (b : Bytes) : Nat × Narrow :=
  let x := accValue sterling isInt b
  if f = 8 then (unsigned (toIntSat 32 x) 32, .plain)
  else narrow f sat (if isInt then fltMul x (f32Decode scale) else x)

/-- One row drained: its in-bound bytes, its overflows and its NaNs (R126, R131). -/
def drainRow (sterling isInt : Bool) (f : Nat) (sat : Bool) (scales : List F32) (elems : List Bytes) : Bytes × Nat × Nat :=
  (List.zip scales elems).foldl (fun (bs, o, n) (sc, b) =>
    let (v, w) := drainElement sterling isInt f sat sc b
    (bs ++ toBytes (elemBits f / 8) v, o + bit (w == .overflow), n + bit (w == .nan))) ([], 0, 0)

def mdrainRun (j : Job) (m : M) : M :=
  let c := j.c
  let f := j.ctl 3 0
  let st := m.sterling c
  let isInt := m.tileInt c j.a.tile
  let scales := (List.range (j.bd 1)).map (m.dscale c)
  (List.range (j.bd 0)).foldl (fun m r =>
    let (row, m) := m.readMem c 2 (j.a.tile * tileSize st + 64 * accElem st * r) (accElem st * j.bd 1) 0
    let (out, o, n) := drainRow st isInt f (j.ctl 8 8 == 1) scales (chunks (accElem st) (j.bd 1) row)
    let m := m.spaceWrite c j.w.space (j.w.base + j.inner 4 * r) out
    (m.countBy (coreReg c CORE_MXE_DRAIN_SAT_CNT) o).countBy (coreReg c CORE_MXE_NAN_CNT) n) m

/-- Row r of the tile is written 12 + k × r cycles after the issue (Table 5.17). -/
def mdrainUses (j : Job) (m : M) : List RowUse :=
  let k := if m.sterling j.c then 2 else 1
  (List.range (j.bd 0)).flatMap fun r =>
    usesOf (12 + k * r) j.w.space (j.w.base + j.inner 4 * r) (elemBytes (j.ctl 3 0) (j.bd 1)) true .mxe

def mdrainEngine : Engine := { shapeOk := mdrainShape, hold := noHold, uses := mdrainUses, run := mdrainRun }

def execMdrain (c : Nat) : State → Host.Outcome State Fault Refusal := execEngine c 0 4 mdrainEngine

/-! ## MZERO (R110, R119) -/

def mzeroShape (j : Job) (m : M) : Bool := wholeTile (m.sterling j.c) j.w && j.bounded [0, 1, 2]

def mzeroRun (j : Job) (m : M) : M :=
  let t := j.w.tile
  let n := tileSize (m.sterling j.c)
  let m := (m.writeMem j.c 2 (t * n) (zeros n)).setTileInt j.c t (j.flags % 2 == 1)
  m.updCore j.c fun k => { k with tileK := mapSet k.tileK t 0 }

def mzeroEngine : Engine := { shapeOk := mzeroShape, hold := noHold, run := mzeroRun }

def execMzero (c : Nat) : State → Host.Outcome State Fault Refusal := execEngine c 0 5 mzeroEngine

end Sys2Proof.Machine
end

