-- ==== Sys2Proof/Machine/Redfish.lean ====
section
/-! DEFINITION. The Redfish service of the management port (R567, Table 15.8). -/
namespace Sys2Proof.Machine

/-- Number of a listed resource, for its body, which the standard's schema gives and the spec does not. -/
def resourceNumber : RedfishResource → Option Nat
  | .serviceRoot => some 0
  | .sessionService => some 1
  | .accountService => some 2
  | .chassis => some 3
  | .sensors => some 4
  | .thresholds => some 5
  | .environmentMetrics => some 6
  | .managers => some 7
  | .networkProtocol => some 8
  | .logServices => some 9
  | .updateService => some 10
  | .certificateService => some 11
  | .eventService => some 12
  | .unlisted => none

/-- Subscriptions that EventService holds at most (Table 15.8). -/
def maxSubscriptions : Nat := 8

/-- The records of the log that stand on a device, `true` for device B (R563). -/
def logOn (h : Headframe) (deviceB : Bool) : List Bytes := h.log.filter fun r => logDevice (numAt r 0 8) == deviceB

/-- A raw log record by SEQ, from the device that holds its segment, while the ring still does (R563, R564). -/
def logRecordAt (h : Headframe) (seq : Nat) : Option Bytes := (logOn h (logDevice seq)).find? fun r => numAt r 0 8 == seq

/-- What a listed resource shows of the module (Table 15.8); its body in the standard's schema is not given (log entry 99). -/
def M.resourceData (m : M) : RedfishResource → Bytes
  | .serviceRoot => []
  | .sessionService => m.die.hdf.sessions.flatMap (toBytes 8)
  | .accountService => m.die.hdf.accounts.flatMap (toBytes 8)
  | .chassis => toBytes 8 Config.serial.toNat ++ Config.orderCode.toList.map fun c => BitVec.ofNat 8 c.toNat
  | .sensors => ((List.range 800).filter sensorExists).flatMap fun n => toBytes 8 (m.regN (HDF_SENS + 8 * n))
  | .thresholds => m.die.hdf.thresholds.flatMap fun t => toBytes 4 t.1 ++ toBytes 4 (unsigned t.2.warning 32) ++ toBytes 4 (unsigned t.2.critical 32)
  | .environmentMetrics => (List.range 5).flatMap fun n => toBytes 8 (m.regN (HDF_SENS + 8 * (320 + n)))
  | .managers => toBytes 8 (m.regN HDF_STATUS)
  | .networkProtocol => toBytes 8 m.die.hdf.networkProtocol
  | .logServices => m.die.hdf.log.flatten
  | .updateService => [false, true].flatMap fun b =>
      let x := slotHeader (hdfSlot b m.die.hdf)
      toBytes 1 x.state.code ++ toBytes 4 x.svn ++ toBytes 4 x.minSvn ++ toBytes 8 x.version
  | .certificateService => m.die.hdf.tlsCertificate ++ Config.deviceCertificate
  | .eventService => m.die.hdf.subscriptions.flatMap (toBytes 8)
  | .unlisted => []

/-- What a request does once its sender is known. -/
def M.redfishServe (m : M) : Redfish → M
  | .read r =>
    match resourceNumber r with
    | some n => m.redfishServed (Config.redfishBody n (m.resourceData r))
    | none => m.redfishAnswer 404 []
  | .createAccount a =>
    if m.die.hdf.accounts.contains a then m.redfishRefused
    else (m.updHdf fun h => { h with accounts := h.accounts ++ [a] }).redfishServed []
  | .removeAccount a =>
    if m.die.hdf.accounts.contains a then
      (m.updHdf fun h => { h with
        accounts := h.accounts.filter (· != a), sessions := h.sessions.filter (· != a) }).redfishServed []
    else m.redfishAnswer 404 []
  | .createSession a =>
    if m.die.hdf.accounts.contains a then (m.updHdf fun h => { h with sessions := h.sessions ++ [a] }).redfishServed []
    else m.redfishRefused
  | .removeSession a =>
    if m.die.hdf.sessions.contains a then
      (m.updHdf fun h => { h with sessions := h.sessions.erase a }).redfishServed []
    else m.redfishAnswer 404 []
  | .setThreshold n w c =>
    if sensorExists n then
      (m.updHdf fun h => { h with thresholds := mapSet h.thresholds n { warning := w, critical := c } }).redfishServed []
    else m.redfishAnswer 404 []
  | .setNetworkProtocol v => (m.updHdf fun h => { h with networkProtocol := v }).redfishServed []
  | .managerReset => (m.updHdf fun h => { h with resetRequested := true }).redfishServed []
  | .attest nonce => m.attest nonce true
  | .readLogRecord seq =>
    match logRecordAt m.die.hdf seq with
    | some r => m.redfishServed r
    | none => m.redfishAnswer 404 []
  | .push b => if updatePending m.die.hdf then (m.firmwareUpdate b).redfishRefused else (m.firmwareUpdate b).redfishServed []
  | .commitSvn => m.commitSvn.redfishServed []
  | .readCertificate => m.redfishServed Config.deviceCertificate
  | .replaceTlsCertificate c => (m.updHdf fun h => { h with tlsCertificate := c }).redfishServed []
  | .subscribe d =>
    if m.die.hdf.subscriptions.length < maxSubscriptions then
      (m.updHdf fun h => { h with subscriptions := h.subscriptions ++ [d] }).redfishServed []
    else m.redfishRefused
  | .unsubscribe d =>
    if m.die.hdf.subscriptions.contains d then
      (m.updHdf fun h => { h with subscriptions := h.subscriptions.erase d }).redfishServed []
    else m.redfishAnswer 404 []
  | .unlistedAction => m.redfishAnswer 405 []

/-- A resource or an action that Table 15.8 does not list: 404 or 405 whoever asks (R567). -/
def unlistedRequest : Redfish → Bool
  | .read .unlisted => true
  | .unlistedAction => true
  | _ => false

/-- The sender is known: by basic authentication with a local account, or by a session; no one is asked while there is no account
(log entry 99). -/
def M.redfishKnown (m : M) : RedfishAuth → Bool
  | .none => m.die.hdf.accounts.isEmpty
  | .basic a => m.die.hdf.accounts.contains a || m.die.hdf.accounts.isEmpty
  | .session a => m.die.hdf.sessions.contains a || m.die.hdf.accounts.isEmpty

/-- A request reaches the service once the management MAC is enabled (R547, Table 15.1), over TLS 1.3 with a suite that is served
(R567); before, its frames drop and count, and over another connection nothing is served. -/
def M.redfish (m : M) (call : RedfishCall) : M :=
  if !m.die.hdf.macEnabled then m.count MGT_RX_EARLY_DROP_CNT
  else if call.tls = .other then m
  else if unlistedRequest call.request || m.redfishKnown call.auth then m.redfishServe call.request
  else m.redfishRefused

def execRedfishRequest (call : RedfishCall) : State → Host.Outcome State Fault Refusal := onManaged (M.redfish · call)

end Sys2Proof.Machine
end

