-- ==== Sys2Proof/Machine/Reset.lean ====
section
/-! DEFINITION. The tray's power events and the module reset (R6, R197, R507, R543, R570, R614, R624 to R626). -/
namespace Sys2Proof.Machine

/-! ## Module reset -/

/-- What flash, the identity range and the accounts keep over a reset (Table 15.2, R551, R553, R563); the application cores and the
Foreman wait for the ROM's boot (R543, R552). -/
def Headframe.kept (h : Headframe) : Headframe :=
  { Headframe.atReset with
    hostReleased := false, slotA := h.slotA, slotB := h.slotB, configA := h.configA, configB := h.configB, pufOk := h.pufOk
    repairsA := h.repairsA, repairsB := h.repairsB, log := h.log, logSeq := h.logSeq, logTip := h.logTip
    bootCount := h.bootCount, accounts := h.accounts, tlsCertificate := h.tlsCertificate
    networkProtocol := h.networkProtocol }

/-- Power after a reset: the tray's inputs, the rails and the straps stand. -/
def Power.kept (p : Power) : Power :=
  { Power.atReset with
    input50 := p.input50, pwrGood := p.pwrGood, refclk := p.refclk, rails := p.rails, mgtRail := p.mgtRail
    latched := p.latched, straps := p.straps, released := true, sscInEffect := 0x1E00 }

/-- A field-repair record applied at reset: a core retirement, a site retirement, a row repair or a router switch
(R507, R246). Page remaps are applied as state memory is filled (R638). -/
def M.applyRepair (m : M) (r : FieldRepair) : M :=
  let c := 17 * r.site + r.core
  if r.kind = repairCore then
    let a := cluReg r.site CLU_SPARE_STATUS
    let m := (m.setFld a (9 + r.core) (9 + r.core) 1).setFld a 8 4 0x1F
    m.updCore c (Core.stopped .retired)
  else if r.kind = repairSite then
    let row := r.site / 17
    m.setFld SHAFT_GRID_SIG (5 * row + 4) (5 * row) (r.site % 17)
  else if r.kind = repairRow then
    if r.memory = 7 then m.updSite r.site fun s => { s with repaired := s.repaired ++ [(r.bank, r.row)] }
    else m.updCore c fun k => { k with repaired := k.repaired ++ [(r.memory, r.bank, r.row)] }
  else if r.kind = repairRouter then m.setFld (cluReg r.site SHAFT_ROUTER_SEL) 0 0 r.row
  else m

/-- The module reset: every register at its reset value, memories zero (R197), the crossings calibrated (R239) and the
field repairs applied after the configuration record, whose row repairs `M.repairsIn` counts with them (R219, R507); what
flash keeps stays. The counter of free values is the
model's own and runs on. -/
def M.moduleReset (m : M) : M :=
  let h := m.die.hdf
  let m' : M := { die := { Die.fresh h.kept m.die.pwr.kept with free := m.die.free }, mem := .empty }
  let m' := m'.setReg HDF_BOOT_CNT (BitVec.ofNat 64 h.bootCount)
  let m' := m'.setReg HDF_LOG_SEQ (BitVec.ofNat 64 h.logSeq)
  h.repairs.foldl M.applyRepair m'

/-- REFCLK at a module whose rails are up releases the reset (R543), unless its Headframe PLL has failed since power good (R545); a
trip that came before is recorded now (R572, R595). -/
def M.release (m : M) : M :=
  let p := m.die.pwr
  if p.refclk && p.mgtRail && !p.released && !p.pllDead then
    match p.unrecorded with
    | some trip => m.moduleReset.tripRecorded trip
    | none => m.moduleReset
  else m

/-! ## The tray's events -/

/-- PWR_GOOD rises: with 50 V present the rails come up, those latched off excepted, and the straps are the ones that
the ROM will read (R571, R572, R625, R626). -/
def M.pwrGoodRise (m : M) (slotId : Nat) : M :=
  if m.die.pwr.pwrGood then m
  else
    let m := m.updPwr fun p => { p with
      pwrGood := true, straps := slotId % 16, mgtRail := p.input50, rails := p.input50 && !p.latched, released := false
      pllDead := false, unrecorded := none }
    m.release

def execPwrGoodRise (slotId : Nat) : State → Host.Outcome State Fault Refusal := onDie (M.pwrGoodRise · slotId)

/-- PWR_GOOD falls: every rail goes off (R625). -/
def execPwrGoodFall : State → Host.Outcome State Fault Refusal :=
  onDie fun m => (m.updPwr fun p => { p with pwrGood := false }).railsOff

/-- 50 V arrives: the latch of R572 has been released by its removal, and the Weighbridge starts (R602, R624). The dies
stay off until PWR_GOOD rises (R6). -/
def execInput50vApplied (s : State) : Host.Outcome State Fault Refusal :=
  match onDie (fun m => if m.die.pwr.input50 then m else m.updPwr fun p => { p with input50 := true, latched := false }) s with
  | .next t => .next { t with wb := if s.die.pwr.input50 && s.wb.powered then s.wb else wbPowerUp s.wb }
  | o => o

/-- 50 V is lost: every rail goes off and the Weighbridge stops, the open record with it (R6, R614). -/
def execInput50vLoss (s : State) : Host.Outcome State Fault Refusal :=
  match onDie (fun m => (m.updPwr fun p => { p with input50 := false, latched := false }).railsOff) s with
  | .next t => .next { t with wb := wbPowerDown s.wb }
  | o => o

/-- The input below 40 V for 10 µs, or above 58 V, which the command does not say: every rail goes off, as after a loss of 50 V
(R570); below 40 V the Weighbridge stops as well (R602, log entry 101). -/
def execInputShutdown (s : State) : Host.Outcome State Fault Refusal :=
  match onDie (fun m => m.spend.railsOff) s with
  | .next t => .next { t with wb := if Config.freeNat s.die.free % 2 = 0 then wbPowerDown s.wb else s.wb }
  | o => o

/-- REFCLK first appears (R543). -/
def execRefclkPresent : State → Host.Outcome State Fault Refusal :=
  onDie fun m => (m.updPwr fun p => { p with refclk := true }).release

end Sys2Proof.Machine
end

