-- ==== Sys2Proof/Machine/Timeline.lean ====
section
/-! DEFINITION. Commands and beats in time: what a command in flight reads when a landing or another core's write comes
before its read, the landings, and the end of a lockstep command (R81, R140 to R142, R205, R206, R235 to R237). -/
namespace Sys2Proof.Machine

/-! ## A command's reads brought up to date -/

/-- The engine of a lockstep opcode. -/
def engineOf (cmd : Nat) : Option Engine :=
  match cmdEngine cmd, cmdOpcode cmd with
  | 0, 1 => some mloadEngine
  | 0, 2 => some (mmulEngine false)
  | 0, 3 => some (mmulEngine true)
  | 0, 4 => some mdrainEngine
  | 0, 5 => some mzeroEngine
  | 1, 1 => some schainEngine
  | 1, 2 => some sdescEngine
  | 1, 3 => some stableEngine
  | 1, 4 => some sfallEngine
  | 2, 1 => some dcopyEngine
  | 2, 2 => some dgatherEngine
  | 2, 3 => some dscatterEngine
  | 2, 4 => some dsendEngine
  | 2, 5 => some dhaloEngine
  | 2, 6 => some dfillEngine
  | _, _ => none

/-- A write that another command recorded after a command issued, and that a read of it sees. -/
def M.overtakes (m : M) (c : Nat) (f : Flight) (x : TimedWrite) : Bool :=
  decide (f.seen ≤ x.no) && !(x.core == c && x.push == f.push) &&
    f.reads.any fun r => x.touches r.addr r.len && !m.unseen (m.wallOf f.entry r.cycle) x

/-- A beat with the data of the beat of the same number that the same command sends again. -/
def resent (c push : Nat) (again : List Beat) (b : Beat) : Beat :=
  if b.source = c ∧ b.push = push then
    match again.find? fun x => x.source == c && x.push == push && x.no == b.no with
    | some x => { b with granules := x.granules }
    | none => b
  else b

/-- A flight whose reads a later-recorded write has overtaken: its writes taken back, and its effect on memory and on its
beats made anew from what stands in its reads' cycles (R140, R205). Counters and ports keep what the issue gave them. -/
def M.settle (m : M) (c : Nat) (f : Flight) : M :=
  match engineOf f.cmd with
  | some eng =>
    if m.die.writes.any (m.overtakes c f) then
      let j : Job := { c, push := f.push, cmd := f.cmd, ps := f.params }
      let back := (m.dropWrites c f.push).updCore c fun k => { k with flights := [{ f with fault := false, reads := [] }] }
      let r := ({ back with die.beats := [] } : M).runTimed j eng f.entry f.issuedAt (eng.uses j back)
      let g := (r.core c).flights.find? fun x => x.push = f.push
      let m : M := { m with
        mem := r.mem, die.writes := r.die.writes, die.writeNo := r.die.writeNo
        die.beats := m.die.beats.map (resent c f.push r.die.beats) }
      let m := if cmdEngine f.cmd == 1 && cmdOpcode f.cmd == 4 then m.updCore c fun k => { k with fall := (r.core c).fall } else m
      m.updFlight c f.push fun x => { x with seen := m.die.writeNo, fault := (g.map (·.fault)).getD x.fault }
    else m
  | none => m

/-- Every flight of a core brought up to date. -/
def M.settleCore (m : M) (c : Nat) : M := (m.core c).flights.foldl (fun m f => m.settle c f) m

/-! ## The end of a lockstep command -/

/-- A lockstep command retires, its group not holding; a fault it met is raised now (R81, R177, R191, R192, R245). -/
def M.commandRetire (m : M) (c push : Nat) : M :=
  let k := m.core c
  match k.engines && !m.groupHeld c, k.flights.find? (fun f => f.push = push) with
  | true, some f =>
    if cmdElastic f.cmd then m
    else
      let m := m.settle c f
      let fault := (((m.core c).flights.find? fun f => f.push = push).map (·.fault)).getD false
      let m := m.updCore c (Core.retire push)
      if fault then m.cmdFault c SHAPE f.cmd else m
  | _, _ => m

def execCommandRetire (c push : Nat) : State → Host.Outcome State Fault Refusal := onLive (M.commandRetire · c push)

/-! ## Landings (R140 to R142, R235 to R237) -/

/-- The cycle in which the sender of a beat issued: it leaves 4 cycles and its own number later (R139). -/
def Beat.issued (b : Beat) : Nat := b.land - b.travel - 4 - b.no

/-- The receiver's reads of a beat's granules wait for it (R141). -/
def M.awaited (m : M) (b : Beat) : Bool := b.token && m.flag (coreReg b.dest CORE_CTRL) 1

/-- One granule of a beat lands: it can be read from the next cycle on (R140); reads that wait for its token deliver it from
the sender's issue on (R141, log entry 113). -/
def M.landGranule (m : M) (b : Beat) (space : Nat) (g : Nat × Bytes) : M :=
  let a := memAddr b.dest b.memory g.1
  let after := m.spaceWrite b.dest space g.1 g.2
  after.record m
    { no := 0, core := b.dest, push := 2 ^ 32 + b.id, entry := m.entryOf b.dest, cycle := b.land
      shown := if m.awaited b then b.issued else b.land + 1
      rank := m.accessRank b.dest b.memory .landing, addr := a, old := []
      new := after.read a (insideSpace space g.1 g.2.length) }

/-- The cycles that commands in flight at the receiver are held for a token: from their first read of one of the beat's granules
to the landing (R141). -/
def tokenCycles (b : Beat) (f : Flight) : Nat :=
  let late := f.reads.filter fun r =>
    decide (b.issued ≤ r.cycle) && decide (r.cycle ≤ b.land) && b.granules.any fun g =>
      let a := memAddr b.dest b.memory g.1
      decide (r.addr < a + 16) && decide (a < r.addr + r.len)
  late.foldl (fun n r => max n (b.land + 1 - r.cycle)) 0

/-- A beat's granules land in its destination core; a beat on time takes the core's DME port, as a scheduled access of its
cycle (R142, R202, R209). -/
def M.landBeat (m : M) (b : Beat) : M :=
  let space := if b.memory = 1 then SCRATCH else OPC
  let uses := bankAccesses (b.granules.flatMap fun g => usesOf 0 space g.1 16 true .landing)
  let m := if b.late then m else uses.foldl (fun m u => m.useRow b.dest b.land u.mem u.off u.len true .landing) m
  let m := b.granules.foldl (fun m g => m.landGranule b space g) m
  let held := if m.awaited b then (m.core b.dest).flights.foldl (fun n f => max n (tokenCycles b f)) 0 else 0
  let m := m.countBy (cluReg (b.dest / 17) CLU_SLIP_CYCLE_CNT) held
  (({ m with die.beats := m.die.beats.filter fun x => x.id != b.id } : M).settleCore b.dest).ejectNext (b.dest / 17)

/-- A beat's landing cycle: it lands from the ejection buffer (R235), or its group holds until it comes (R237). -/
def M.beatLand (m : M) (id : Nat) : M :=
  match m.die.beats.find? (fun b => b.id = id) with
  | none => m
  | some b =>
    if b.atEject then m.landBeat b
    else
      let m := if b.late then m else m.count (cluReg (b.dest / 17) CLU_LATE_LAND_CNT)
      (m.holdCycle b.dest b.land).updBeat id fun b => { b with late := true }

def execBeatLanding (id : Nat) : State → Host.Outcome State Fault Refusal := onLive (M.beatLand · id)

/-! ## Control-space accesses to core memories -/

/-- A control-space access to Lode (R213); it comes over the Shaft from the control region (R233). -/
def execCsLodeAccess (req : Requester) (c off width : Nat) (write : Bool) (value : Word) :
    State → Host.Outcome State Fault Refusal :=
  onLive fun m => (m.elasticPath c 34).csLocal req c (off % 0x200000) width write value

/-- A control-space access at a core-local address (R214, R222). -/
def execCsMemoryAccess (req : Requester) (c off width : Nat) (write : Bool) (value : Word) :
    State → Host.Outcome State Fault Refusal :=
  onLive fun m => (m.elasticPath c 34).csLocal req c off width write value

/-- A firmware write of a parameter register (R66). -/
def execParameterRegisterWrite (c idx : Nat) (value : Word) : State → Host.Outcome State Fault Refusal :=
  onLive fun m => (m.elasticPath c 34).csLocal .foreman c (memLocal 5 + 8 * idx) 8 true value

end Sys2Proof.Machine
end

