-- ==== Sys2Proof/Machine/WbCommands.lean ====
section
/-! DEFINITION. The commands of the Weighbridge (chapter 17): each works on the Weighbridge alone (R600). -/
namespace Sys2Proof.Machine

def execWbStart : State → Host.Outcome State Fault Refusal := onWb wbStart

def execWbEnergySample (mv ma : Nat) : State → Host.Outcome State Fault Refusal := onWb (wbSample mv ma)

/-- A report frame that arrives has left the link (R606, R607). -/
def execWbReportFrame (frame : Bytes) (s : State) : Host.Outcome State Fault Refusal :=
  onWb (wbReport frame) { s with die.wbOut := s.die.wbOut.erase frame }

def execWbPeriodicSeal : State → Host.Outcome State Fault Refusal := onWb wbPeriodic

def execWbDemand : State → Host.Outcome State Fault Refusal := onWb wbDemand

def execWbTimeJump (t : Nat) : State → Host.Outcome State Fault Refusal := onWb (wbTimeJump t)

def execGetInfo : State → Host.Outcome State Fault Refusal := onWb wbGetInfo

def execGetRecord (seq off : Nat) : State → Host.Outcome State Fault Refusal := onWb (wbGetRecord seq off)

def execGetRange : State → Host.Outcome State Fault Refusal := onWb wbGetRange

def execWbPllLockLoss : State → Host.Outcome State Fault Refusal := onWb wbPllLockLoss

def execWbPllRelock : State → Host.Outcome State Fault Refusal := onWb wbPllRelock

end Sys2Proof.Machine
end

