-- ==== Sys2Proof/Machine/Dispatch.lean ====
section
/-! DEFINITION. The dispatch of commands: one arm per command, each the call of its meaning. -/
namespace Sys2Proof.Machine

/-- A command's effect on everything but the queue. -/
def exec (i : Instr) (s : State) : Host.Outcome State Fault Refusal :=
  match i with
  | .registerWrite req addr width value => Sys2Proof.Machine.execRegisterWrite req addr width value s
  | .counterReadClear addr => Sys2Proof.Machine.execCounterReadClear addr s
  | .controlSpaceMisalignedAccess addr width write => Sys2Proof.Machine.execControlSpaceMisalignedAccess addr width write s
  | .pwrGoodRise slotId => Sys2Proof.Machine.execPwrGoodRise slotId s
  | .pwrGoodFall => Sys2Proof.Machine.execPwrGoodFall s
  | .input50vApplied => Sys2Proof.Machine.execInput50vApplied s
  | .input50vLoss => Sys2Proof.Machine.execInput50vLoss s
  | .inputUndervoltage => Sys2Proof.Machine.execInputUndervoltage s
  | .inputUndervoltageClear => Sys2Proof.Machine.execInputUndervoltageClear s
  | .inputShutdown => Sys2Proof.Machine.execInputShutdown s
  | .railTrip rail => Sys2Proof.Machine.execRailTrip rail s
  | .thermalTrip => Sys2Proof.Machine.execThermalTrip s
  | .refclkPresent => Sys2Proof.Machine.execRefclkPresent s
  | .pllLockJudgment pll count spread => Sys2Proof.Machine.execPllLockJudgment pll count spread s
  | .regionPllFailed pll => Sys2Proof.Machine.execRegionPllFailed pll s
  | .refLoss => Sys2Proof.Machine.execRefLoss s
  | .refOk => Sys2Proof.Machine.execRefOk s
  | .refmuxSwitch sel => Sys2Proof.Machine.execRefmuxSwitch sel s
  | .refmuxSwitchComplete => Sys2Proof.Machine.execRefmuxSwitchComplete s
  | .refmuxForce sel => Sys2Proof.Machine.execRefmuxForce sel s
  | .pllRelockComplete => Sys2Proof.Machine.execPllRelockComplete s
  | .droopFire region mv => Sys2Proof.Machine.execDroopFire region mv s
  | .lagTokenMirror region => Sys2Proof.Machine.execLagTokenMirror region s
  | .droopWindow region => Sys2Proof.Machine.execDroopWindow region s
  | .thermalCheck => Sys2Proof.Machine.execThermalCheck s
  | .emergencyHoldEnd => Sys2Proof.Machine.execEmergencyHoldEnd s
  | .powerCapCheck => Sys2Proof.Machine.execPowerCapCheck s
  | .frequencyStepChange railsReady => Sys2Proof.Machine.execFrequencyStepChange railsReady s
  | .opticalEngineOn port biasSettled => Sys2Proof.Machine.execOpticalEngineOn port biasSettled s
  | .sensorSample sensor reading => Sys2Proof.Machine.execSensorSample sensor reading s
  | .romBoot => Sys2Proof.Machine.execRomBoot s
  | .recoveryImageReceive bundle => Sys2Proof.Machine.execRecoveryImageReceive bundle s
  | .firmwareUpdate bundle => Sys2Proof.Machine.execFirmwareUpdate bundle s
  | .trialPromote => Sys2Proof.Machine.execTrialPromote s
  | .commitSvn => Sys2Proof.Machine.execCommitSvn s
  | .attest nonce => Sys2Proof.Machine.execAttest nonce s
  | .logAppend severity source code data => Sys2Proof.Machine.execLogAppend severity source code data s
  | .flashOperationComplete verified => Sys2Proof.Machine.execFlashOperationComplete verified s
  | .redfishRequest call => Sys2Proof.Machine.execRedfishRequest call s
  | .sidebandRequest address request => Sys2Proof.Machine.execSidebandRequest address request s
  | .mgtFrameReceive frame => Sys2Proof.Machine.execMgtFrameReceive frame s
  | .stackTrainingComplete stack trained => Sys2Proof.Machine.execStackTrainingComplete stack trained s
  | .stateMemoryFillComplete stack => Sys2Proof.Machine.execStateMemoryFillComplete stack s
  | .cpush core rs1 => Sys2Proof.Machine.execCpush core rs1 s
  | .ppatch core idx high rs1 => Sys2Proof.Machine.execPpatch core idx high rs1 s
  | .pset core mask value => Sys2Proof.Machine.execPset core mask value s
  | .psetp core pred idx bit invert => Sys2Proof.Machine.execPsetp core pred idx bit invert s
  | .waitr core space rs1 rs2 => Sys2Proof.Machine.execWaitr core space rs1 rs2 s
  | .farrive core fence blocking drained ending => Sys2Proof.Machine.execFarrive core fence blocking drained ending s
  | .fenceArrivalDrained core => Sys2Proof.Machine.execFenceArrivalDrained core s
  | .ftrd core rd high => Sys2Proof.Machine.execFtrd core rd high s
  | .controlCoreInstruction core => Sys2Proof.Machine.execControlCoreInstruction core s
  | .mload core => Sys2Proof.Machine.execMload core s
  | .mmul core => Sys2Proof.Machine.execMmul core s
  | .mmulz core => Sys2Proof.Machine.execMmulz core s
  | .mdrain core => Sys2Proof.Machine.execMdrain core s
  | .mzero core => Sys2Proof.Machine.execMzero core s
  | .schain core => Sys2Proof.Machine.execSchain core s
  | .sdesc core => Sys2Proof.Machine.execSdesc core s
  | .stable core => Sys2Proof.Machine.execStable core s
  | .sfall core => Sys2Proof.Machine.execSfall core s
  | .vnop core => Sys2Proof.Machine.execVnop core s
  | .vadd core vd va vb => Sys2Proof.Machine.execVadd core vd va vb s
  | .vsub core vd va vb => Sys2Proof.Machine.execVsub core vd va vb s
  | .vmul core vd va vb => Sys2Proof.Machine.execVmul core vd va vb s
  | .vfma core vd va vb vc => Sys2Proof.Machine.execVfma core vd va vb vc s
  | .vmin core vd va vb => Sys2Proof.Machine.execVmin core vd va vb s
  | .vmax core vd va vb => Sys2Proof.Machine.execVmax core vd va vb s
  | .vexp2 core vd va => Sys2Proof.Machine.execVexp2 core vd va s
  | .vlog2 core vd va => Sys2Proof.Machine.execVlog2 core vd va s
  | .vrcp core vd va => Sys2Proof.Machine.execVrcp core vd va s
  | .vrsq core vd va => Sys2Proof.Machine.execVrsq core vd va s
  | .vcmp core va vb cond => Sys2Proof.Machine.execVcmp core va vb cond s
  | .vsel core vd va vb => Sys2Proof.Machine.execVsel core vd va vb s
  | .viadd core vd va vb => Sys2Proof.Machine.execViadd core vd va vb s
  | .vand core vd va vb => Sys2Proof.Machine.execVand core vd va vb s
  | .vor core vd va vb => Sys2Proof.Machine.execVor core vd va vb s
  | .vxor core vd va vb => Sys2Proof.Machine.execVxor core vd va vb s
  | .vshl core vd va amount => Sys2Proof.Machine.execVshl core vd va amount s
  | .vshr core vd va amount => Sys2Proof.Machine.execVshr core vd va amount s
  | .vcvtif core vd va => Sys2Proof.Machine.execVcvtif core vd va s
  | .vcvtfi core vd va => Sys2Proof.Machine.execVcvtfi core vd va s
  | .vperm core vd va vb => Sys2Proof.Machine.execVperm core vd va vb s
  | .vred core vd va mode => Sys2Proof.Machine.execVred core vd va mode s
  | .vli core vd imm => Sys2Proof.Machine.execVli core vd imm s
  | .vld core vd fromB ac offset => Sys2Proof.Machine.execVld core vd fromB ac offset s
  | .vst core va ac offset => Sys2Proof.Machine.execVst core va ac offset s
  | .acadd core ac imm => Sys2Proof.Machine.execAcadd core ac imm s
  | .loop core body select count => Sys2Proof.Machine.execLoop core body select count s
  | .fallEnd core => Sys2Proof.Machine.execFallEnd core s
  | .dcopy core => Sys2Proof.Machine.execDcopy core s
  | .dgather core => Sys2Proof.Machine.execDgather core s
  | .dscatter core => Sys2Proof.Machine.execDscatter core s
  | .dsend core => Sys2Proof.Machine.execDsend core s
  | .dhalo core => Sys2Proof.Machine.execDhalo core s
  | .dfill core => Sys2Proof.Machine.execDfill core s
  | .dhostrd core => Sys2Proof.Machine.execDhostrd core s
  | .dhostwr core => Sys2Proof.Machine.execDhostwr core s
  | .dput core => Sys2Proof.Machine.execDput core s
  | .drecv core => Sys2Proof.Machine.execDrecv core s
  | .qattend core => Sys2Proof.Machine.execQattend core s
  | .qappend core => Sys2Proof.Machine.execQappend core s
  | .commandRetire core push => Sys2Proof.Machine.execCommandRetire core push s
  | .elasticCompletion core push => Sys2Proof.Machine.execElasticCompletion core push s
  | .beatEjectArrival beat => Sys2Proof.Machine.execBeatEjectArrival beat s
  | .beatLanding beat => Sys2Proof.Machine.execBeatLanding beat s
  | .fenceRelease fence => Sys2Proof.Machine.execFenceRelease fence s
  | .waitWatchdog core => Sys2Proof.Machine.execWaitWatchdog core s
  | .seqWatchdog entry => Sys2Proof.Machine.execSeqWatchdog entry s
  | .scrubSlot core => Sys2Proof.Machine.execScrubSlot core s
  | .idleScrub core stope bank => Sys2Proof.Machine.execIdleScrub core stope bank s
  | .eccWriteBack core memory bank => Sys2Proof.Machine.execEccWriteBack core memory bank s
  | .eccInjectArm core stope value => Sys2Proof.Machine.execEccInjectArm core stope value s
  | .csLodeAccess req core offset width write value => Sys2Proof.Machine.execCsLodeAccess req core offset width write value s
  | .csMemoryAccess req core offset width write value => Sys2Proof.Machine.execCsMemoryAccess req core offset width write value s
  | .parameterRegisterWrite core idx value => Sys2Proof.Machine.execParameterRegisterWrite core idx value s
  | .clearSchedFault core => Sys2Proof.Machine.execClearSchedFault core s
  | .stepStart => Sys2Proof.Machine.execStepStart s
  | .composeBatch start => Sys2Proof.Machine.execComposeBatch start s
  | .stepCommit => Sys2Proof.Machine.execStepCommit s
  | .groupWdogExpiry => Sys2Proof.Machine.execGroupWdogExpiry s
  | .tallyEntryWrite slot offset width value sameCycle => Sys2Proof.Machine.execTallyEntryWrite slot offset width value sameCycle s
  | .tallyUe slot => Sys2Proof.Machine.execTallyUe slot s
  | .seamQappendRequest stack => Sys2Proof.Machine.execSeamQappendRequest stack s
  | .seamQattendRequest stack => Sys2Proof.Machine.execSeamQattendRequest stack s
  | .refresh stack channel waiting => Sys2Proof.Machine.execRefresh stack channel waiting s
  | .patrolScrubRead stack found => Sys2Proof.Machine.execPatrolScrubRead stack found s
  | .stateWindowAccess req stack offset width write value => Sys2Proof.Machine.execStateWindowAccess req stack offset width write value s
  | .seamRegionWrite stack value => Sys2Proof.Machine.execSeamRegionWrite stack value s
  | .channelRetire stack channel => Sys2Proof.Machine.execChannelRetire stack channel s
  | .channelRetireComplete stack => Sys2Proof.Machine.execChannelRetireComplete stack s
  | .channelReturn stack channel => Sys2Proof.Machine.execChannelReturn stack channel s
  | .parkComplete slot => Sys2Proof.Machine.execParkComplete slot s
  | .resumeComplete slot => Sys2Proof.Machine.execResumeComplete slot s
  | .parkedExpiry slot => Sys2Proof.Machine.execParkedExpiry slot s
  | .shipOfferSend slot => Sys2Proof.Machine.execShipOfferSend slot s
  | .shipOfferReceive msg => Sys2Proof.Machine.execShipOfferReceive msg s
  | .shipAcceptReceive msg => Sys2Proof.Machine.execShipAcceptReceive msg s
  | .shipRefuseReceive msg => Sys2Proof.Machine.execShipRefuseReceive msg s
  | .pageShipReceive msg => Sys2Proof.Machine.execPageShipReceive msg s
  | .shipRereqReceive msg => Sys2Proof.Machine.execShipRereqReceive msg s
  | .shipRetryTimer slot => Sys2Proof.Machine.execShipRetryTimer slot s
  | .shipTimeout slot => Sys2Proof.Machine.execShipTimeout slot s
  | .shipDoneReceive msg => Sys2Proof.Machine.execShipDoneReceive msg s
  | .shipFailReceive msg => Sys2Proof.Machine.execShipFailReceive msg s
  | .shipHoldExpiry slot => Sys2Proof.Machine.execShipHoldExpiry slot s
  | .shardDataReceive msg => Sys2Proof.Machine.execShardDataReceive msg s
  | .shardReqReceive msg => Sys2Proof.Machine.execShardReqReceive msg s
  | .notHeldReceive msg => Sys2Proof.Machine.execNotHeldReceive msg s
  | .shardTimeout manifest index => Sys2Proof.Machine.execShardTimeout manifest index s
  | .assayUnitStart => Sys2Proof.Machine.execAssayUnitStart s
  | .assayUnitComplete => Sys2Proof.Machine.execAssayUnitComplete s
  | .lodeRepair core => Sys2Proof.Machine.execLodeRepair core s
  | .flipTimeReached => Sys2Proof.Machine.execFlipTimeReached s
  | .flipCopyComplete => Sys2Proof.Machine.execFlipCopyComplete s
  | .drainEnd => Sys2Proof.Machine.execDrainEnd s
  | .portEnable port => Sys2Proof.Machine.execPortEnable port s
  | .portDisable port => Sys2Proof.Machine.execPortDisable port s
  | .portAdmit port => Sys2Proof.Machine.execPortAdmit port s
  | .portUnadmit port => Sys2Proof.Machine.execPortUnadmit port s
  | .portDrainEnd port => Sys2Proof.Machine.execPortDrainEnd port s
  | .lanesLocked port lanes => Sys2Proof.Machine.execLanesLocked port lanes s
  | .acquireTimeout port => Sys2Proof.Machine.execAcquireTimeout port s
  | .initTimer port => Sys2Proof.Machine.execInitTimer port s
  | .initReceive port msg => Sys2Proof.Machine.execInitReceive port msg s
  | .initAckReceive port msg => Sys2Proof.Machine.execInitAckReceive port msg s
  | .notReadyReceive port msg => Sys2Proof.Machine.execNotReadyReceive port msg s
  | .pingReceive port msg => Sys2Proof.Machine.execPingReceive port msg s
  | .pongReceive port msg => Sys2Proof.Machine.execPongReceive port msg s
  | .dataFlitReceive port flit => Sys2Proof.Machine.execDataFlitReceive port flit s
  | .controlFlitReceive port flit => Sys2Proof.Machine.execControlFlitReceive port flit s
  | .nackReceive port msg => Sys2Proof.Machine.execNackReceive port msg s
  | .creditReceive port msg => Sys2Proof.Machine.execCreditReceive port msg s
  | .nackRepeatTimer port => Sys2Proof.Machine.execNackRepeatTimer port s
  | .replayTimeout port => Sys2Proof.Machine.execReplayTimeout port s
  | .ackAdvanceTimer port => Sys2Proof.Machine.execAckAdvanceTimer port s
  | .transmitSlot port => Sys2Proof.Machine.execTransmitSlot port s
  | .laneWindow port lane symbols uncorrectable lockLost => Sys2Proof.Machine.execLaneWindow port lane symbols uncorrectable lockLost s
  | .spareReqReceive port msg => Sys2Proof.Machine.execSpareReqReceive port msg s
  | .mirrorOnReceive port msg => Sys2Proof.Machine.execMirrorOnReceive port msg s
  | .switchedReceive port msg => Sys2Proof.Machine.execSwitchedReceive port msg s
  | .releasedReceive port msg => Sys2Proof.Machine.execReleasedReceive port msg s
  | .degradeReqReceive port msg => Sys2Proof.Machine.execDegradeReqReceive port msg s
  | .degradeMarkReceive port msg => Sys2Proof.Machine.execDegradeMarkReceive port msg s
  | .degradeDoneReceive port msg => Sys2Proof.Machine.execDegradeDoneReceive port msg s
  | .widenReqReceive port msg => Sys2Proof.Machine.execWidenReqReceive port msg s
  | .widenMarkReceive port msg => Sys2Proof.Machine.execWidenMarkReceive port msg s
  | .widenDoneReceive port msg => Sys2Proof.Machine.execWidenDoneReceive port msg s
  | .laneMessageRetry port => Sys2Proof.Machine.execLaneMessageRetry port s
  | .widthChangeTimeout port => Sys2Proof.Machine.execWidthChangeTimeout port s
  | .laneSpare port receive lane => Sys2Proof.Machine.execLaneSpare port receive lane s
  | .laneReturn port receive lane => Sys2Proof.Machine.execLaneReturn port receive lane s
  | .laneWiden port receive => Sys2Proof.Machine.execLaneWiden port receive s
  | .linkSilence port => Sys2Proof.Machine.execLinkSilence port s
  | .holdRetrainComplete port lanes => Sys2Proof.Machine.execHoldRetrainComplete port lanes s
  | .linkResumeReceive port msg => Sys2Proof.Machine.execLinkResumeReceive port msg s
  | .downReceive port msg => Sys2Proof.Machine.execDownReceive port msg s
  | .graceExpiry port => Sys2Proof.Machine.execGraceExpiry port s
  | .messageReceive port cls msg => Sys2Proof.Machine.execMessageReceive port cls msg s
  | .putReceive port msg => Sys2Proof.Machine.execPutReceive port msg s
  | .putDoneReceive msg => Sys2Proof.Machine.execPutDoneReceive msg s
  | .putWindowTimeout window => Sys2Proof.Machine.execPutWindowTimeout window s
  | .timeExchangeTimer port => Sys2Proof.Machine.execTimeExchangeTimer port s
  | .timeReceive port msg arrival => Sys2Proof.Machine.execTimeReceive port msg arrival s
  | .servoHoldover => Sys2Proof.Machine.execServoHoldover s
  | .ftcRebase => Sys2Proof.Machine.execFtcRebase s
  | .ftBroadcast => Sys2Proof.Machine.execFtBroadcast s
  | .rackrefSyncEdge => Sys2Proof.Machine.execRackrefSyncEdge s
  | .rackrefSyncMiss => Sys2Proof.Machine.execRackrefSyncMiss s
  | .rackrefClkStop => Sys2Proof.Machine.execRackrefClkStop s
  | .barArriveReceive port msg => Sys2Proof.Machine.execBarArriveReceive port msg s
  | .barReleaseReceive port msg => Sys2Proof.Machine.execBarReleaseReceive port msg s
  | .barrierReleaseAct bar => Sys2Proof.Machine.execBarrierReleaseAct bar s
  | .barrierTimeout bar => Sys2Proof.Machine.execBarrierTimeout bar s
  | .foremanMessage msg => Sys2Proof.Machine.execForemanMessage msg s
  | .mailboxDoorbell mb => Sys2Proof.Machine.execMailboxDoorbell mb s
  | .ringDoorbell ring => Sys2Proof.Machine.execRingDoorbell ring s
  | .ringPoll => Sys2Proof.Machine.execRingPoll s
  | .hostAccess addr width write value => Sys2Proof.Machine.execHostAccess addr width write value s
  | .submit ring => Sys2Proof.Machine.execSubmit ring s
  | .cancel ring => Sys2Proof.Machine.execCancel ring s
  | .park ring => Sys2Proof.Machine.execPark ring s
  | .resume ring => Sys2Proof.Machine.execResume ring s
  | .release ring => Sys2Proof.Machine.execRelease ring s
  | .extend ring => Sys2Proof.Machine.execExtend ring s
  | .reprefill ring => Sys2Proof.Machine.execReprefill ring s
  | .ship ring => Sys2Proof.Machine.execShip ring s
  | .query ring => Sys2Proof.Machine.execQuery ring s
  | .loadModel mb => Sys2Proof.Machine.execLoadModel mb s
  | .shardPost mb => Sys2Proof.Machine.execShardPost mb s
  | .unloadModel mb => Sys2Proof.Machine.execUnloadModel mb s
  | .prepareEpoch mb => Sys2Proof.Machine.execPrepareEpoch mb s
  | .epochFlip mb => Sys2Proof.Machine.execEpochFlip mb s
  | .cancelPrepare mb => Sys2Proof.Machine.execCancelPrepare mb s
  | .policy mb => Sys2Proof.Machine.execPolicy mb s
  | .ringOpen mb => Sys2Proof.Machine.execRingOpen mb s
  | .ringClose mb => Sys2Proof.Machine.execRingClose mb s
  | .windowGrant mb => Sys2Proof.Machine.execWindowGrant mb s
  | .windowRevoke mb => Sys2Proof.Machine.execWindowRevoke mb s
  | .run mb => Sys2Proof.Machine.execRun mb s
  | .fabricConfig mb => Sys2Proof.Machine.execFabricConfig mb s
  | .unitCmd mb => Sys2Proof.Machine.execUnitCmd mb s
  | .clockStep mb => Sys2Proof.Machine.execClockStep mb s
  | .timeMode mb => Sys2Proof.Machine.execTimeMode mb s
  | .coreRetire core => Sys2Proof.Machine.execCoreRetire core s
  | .coreReturn core => Sys2Proof.Machine.execCoreReturn core s
  | .rowRepair core stope value => Sys2Proof.Machine.execRowRepair core stope value s
  | .ledgerRebuild stack page => Sys2Proof.Machine.execLedgerRebuild stack page s
  | .transitionComplete function => Sys2Proof.Machine.execTransitionComplete function s
  | .serviceFrameReceive port frame badFcs => Sys2Proof.Machine.execServiceFrameReceive port frame badFcs s
  | .wbStart => Sys2Proof.Machine.execWbStart s
  | .wbEnergySample millivolts milliamps => Sys2Proof.Machine.execWbEnergySample millivolts milliamps s
  | .wbReportFrame frame => Sys2Proof.Machine.execWbReportFrame frame s
  | .wbPeriodicSeal => Sys2Proof.Machine.execWbPeriodicSeal s
  | .wbDemand => Sys2Proof.Machine.execWbDemand s
  | .wbTimeJump newTime => Sys2Proof.Machine.execWbTimeJump newTime s
  | .getInfo => Sys2Proof.Machine.execGetInfo s
  | .getRecord seq offset => Sys2Proof.Machine.execGetRecord seq offset s
  | .getRange => Sys2Proof.Machine.execGetRange s
  | .wbPllLockLoss => Sys2Proof.Machine.execWbPllLockLoss s
  | .wbPllRelock => Sys2Proof.Machine.execWbPllRelock s
  | .resumeTimer port => Sys2Proof.Machine.execResumeTimer port s
  | .laneRetrainComplete port receive lane => Sys2Proof.Machine.execLaneRetrainComplete port receive lane s
  | .rackrefClkReturn => Sys2Proof.Machine.execRackrefClkReturn s

end Sys2Proof.Machine
end

