-- ==== Sys2Proof/Machine/Tick.lean ====
section
/-! DEFINITION. What happens when no command waits (log entry 90): fabric time advances and the module's messages to
itself arrive. -/
namespace Sys2Proof.Machine

/-- One nanosecond of fabric time on a die that runs (R42), with the waiting messages to the module itself delivered
(R446). -/
def M.tick (m : M) : M := (({ m with die.ft := m.die.ft + 1 } : M)).deliverLoopback

/-- The step of an empty queue. -/
def tick : State → Host.Outcome State Fault Refusal := onLive M.tick

end Sys2Proof.Machine
end

