-- ==== Sys2Proof/Safety.lean ====
section
/-! DEFINITION. The terms that the claims use: what a command works on, what it leaves, and what a sound state is: the
memory in its canonical form, the Weighbridge's books balanced, and its ring of sealed records as a verifier accepts it. -/
namespace Sys2Proof

open Machine

/-! ## What a command works on and leaves -/

/-- A state without its queue and its Weighbridge, the memory in its canonical form. -/
def view (s : State) : M := { die := s.die, mem := CMem.ofList s.mem }

/-- The state with what a command worked on put back. -/
def put (s : State) (m : M) : State := { s with die := m.die, mem := m.mem.cells }

/-- Every register reads as before, those of a list aside. -/
def keepsRegs (s t : State) (l : List Nat) : Prop := ∀ a, a ∉ l → (view t).reg a = (view s).reg a

/-- The registers that an append to the event log may write (Table 15.9). -/
def logRegs : List Nat := [HDF_LOG_SEQ, HDF_LOG_WRAP_CNT, HDF_LOG_DROP_CNT]

/-- One byte of the block's memory, by control-space address. -/
def byteOf (s : State) (a : Nat) : Byte := cellGet s.mem a

/-- Every byte of memory outside a range reads as before. -/
def keepsBytes (s t : State) (a n : Nat) : Prop := ∀ x, x < a ∨ a + n ≤ x → byteOf t x = byteOf s x

/-! ## Soundness -/

/-- PREV and CHAIN of a sealed record of `n` bytes (Table 17.4): they end 96 and 64 bytes before its end. -/
def recordPrev (r : SealedRecord) : Bytes := slice r.bytes (r.bytes.length - 128) 32

def recordChain (r : SealedRecord) : Bytes := slice r.bytes (r.bytes.length - 96) 32

/-- The bytes that CHAIN digests. -/
def recordDigested (r : SealedRecord) : Bytes := r.bytes.take (r.bytes.length - 96)

/-- The verifier's walk over records in SEQ order (chapter 17, Verification), signatures aside: CHAIN is the digest of
the bytes before it, and each record follows the one before it by SEQ and by PREV. -/
def verifierWalk : List SealedRecord → Prop
  | [] => True
  | [r] => sm3 (recordDigested r) = recordChain r
  | r :: q :: rest =>
    sm3 (recordDigested r) = recordChain r ∧ q.seq = r.seq + 1 ∧ recordPrev q = recordChain r ∧ verifierWalk (q :: rest)

/-- The Weighbridge's books balance: the cumulative register is the stored one and the open record's energy, and
nothing is measured without an open record (R602, R604, R614). -/
def wbBooks (w : Weighbridge) : Prop :=
  (w.run = true → w.openRec.isSome = true) ∧
    ∀ r, w.openRec = some r → (w.nvEnergy + r.energy) % 2 ^ 64 = w.energyTotal % 2 ^ 64

/-- The ring is what a verifier accepts, and it ends with the record whose SEQ and CHAIN the Weighbridge stores
(R614, R615, R617). -/
def wbChained (w : Weighbridge) : Prop :=
  w.nvChain.length = 32 ∧ verifierWalk w.ring ∧
    ∀ r, w.ring.getLast? = some r → r.seq = w.nvSeq ∧ recordChain r = w.nvChain

/-- A sound state. -/
def Sound (s : State) : Prop := Memory.wf s.mem = true ∧ wbBooks s.wb ∧ wbChained s.wb

end Sys2Proof
end

