-- ==== Sys2Proof/Certificates/Slice0/Obligations.lean ====
section
/-! DEFINITION. The statements for the provers. -/
section
open Sys2Proof Sys2Proof.Machine

/-! ## The machine as a whole -/

/-- The commands that may change the Weighbridge: its own rows, the broadcast of fabric time, the arrival and loss of 50 V,
and a write of the demand register (Table 17.1). -/
def Sys2Proof.touchesWeighbridge : Instr → Bool
  | .wbStart | .wbEnergySample _ _ | .wbReportFrame _ | .wbPeriodicSeal | .wbDemand | .wbTimeJump _ => true
  | .getInfo | .getRecord _ _ | .getRange | .wbPllLockLoss | .wbPllRelock => true
  | .ftBroadcast | .input50vApplied | .input50vLoss | .inputShutdown => true
  | .registerWrite _ a _ _ => a / 8 * 8 == HDF_WB_DEMAND
  | _ => false

/-- The commands of the Weighbridge that touch nothing else. -/
def Sys2Proof.weighbridgeOnly : Instr → Bool
  | .wbStart | .wbEnergySample _ _ | .wbPeriodicSeal | .wbDemand | .wbTimeJump _ => true
  | .getInfo | .getRecord _ _ | .getRange | .wbPllLockLoss | .wbPllRelock => true
  | _ => false

/-- The commands that the tray, the trip comparators and the Weighbridge's own sources send: they act although the dies are
off. -/
def Sys2Proof.actsWithDiesOff : Instr → Bool
  | .pwrGoodRise _ | .pwrGoodFall | .input50vApplied | .input50vLoss | .inputShutdown | .refclkPresent => true
  | .railTrip _ | .thermalTrip => true
  | .wbStart | .wbEnergySample _ _ | .wbReportFrame _ | .wbPeriodicSeal | .wbDemand | .wbTimeJump _ => true
  | .getInfo | .getRecord _ _ | .getRange | .wbPllLockLoss | .wbPllRelock => true
  | _ => false

/-- A step with a command at the front of the queue is that command's effect on the state with the queue's rest. -/
def Obligations.StepRunsFront : Prop :=
  ∀ (c : Instr) (rest : List Instr) (s : State),
    Machine.step { s with pending := c :: rest } = exec c { s with pending := rest }

/-- The state right after reset is sound, its dies run, and its queue is empty. -/
def Obligations.ResetIsSound : Prop := Sound State.reset ∧ State.reset.die.live = true ∧ State.reset.pending = []

/-- Every step keeps a sound state sound: the memory keeps its canonical form, the Weighbridge's books balance, and its
ring is what a verifier accepts, whatever command comes. -/
def Obligations.StepKeepsSound : Prop :=
  ∀ s t : State, Sound s → Machine.step s = .next t → Sound t

/-- Every command answers a next state with the queue as it was, in every state and with any operands. -/
def Obligations.EveryCommandCompletes : Prop :=
  ∀ (c : Instr) (s : State), ∃ t, exec c s = .next t ∧ t.pending = s.pending

/-- The Weighbridge is reached through the interfaces of Table 17.1 alone: no other command changes any of its state, and
its own commands change nothing else and answer from its own state alone. -/
def Obligations.WeighbridgeIsolated : Prop :=
  (∀ (c : Instr) (s t : State), touchesWeighbridge c = false → exec c s = .next t → t.wb = s.wb) ∧
  (∀ (c : Instr) (s t : State), weighbridgeOnly c = true → exec c s = .next t → t.die = s.die ∧ t.mem = s.mem) ∧
  (∀ (c : Instr) (s s' t t' : State), weighbridgeOnly c = true → s.wb = s'.wb →
    exec c s = .next t → exec c s' = .next t' → t.wb = t'.wb)

/-- On an empty queue a module that runs counts one nanosecond of fabric time, and one that is off does nothing (log
entry 90; the model's choice). Before the tray has brought the module up, no command changes anything but the tray's
own, the Weighbridge's, and the Weighbridge sees no broadcast (R6). -/
def Obligations.IdleAndOffModules : Prop :=
  (∀ s : State, s.pending = [] → Memory.wf s.mem = true →
     (s.die.live = true → s.die.loopback = [] →
       Machine.step s = .next { s with die.ft := s.die.ft + 1 }) ∧
     (s.die.live = false → Machine.step s = .next s)) ∧
  (∀ (c : Instr) (s : State), s.die.live = false → s.die.managed = false → Memory.wf s.mem = true →
     actsWithDiesOff c = false → exec c s = .next s)

/-! ## The Weighbridge (chapter 17) -/

/-- Measuring starts with a START record when the PLL first locks, stops with REF_GAP when lock is lost, and resumes in the
still-open record; a sample adds voltage times current over 2 µs to the energy of the open record and to the cumulative
register alike, in whole mJ, and carries the remainder; a sample below 40 V stops the Weighbridge, as the input has fallen
there (R602 to R604, R611). -/
def Obligations.WeighbridgeMeasures : Prop :=
  (∀ s : State,
     (s.wb.powered = true → s.wb.run = false → s.wb.openRec = none →
       exec .wbStart s = .next { s with
         wb.run := true, wb.openRec := some (openRecord true s.wb.ft), wb.nextPeriodic := nextBoundary s.wb.ft }) ∧
     (∀ r, s.wb.run = true → s.wb.openRec = some r →
       exec .wbPllLockLoss s = .next { s with wb.run := false, wb.openRec := some { r with refGap := true } }) ∧
     (∀ r, s.wb.powered = true → s.wb.run = false → s.wb.openRec = some r →
       exec .wbPllRelock s = .next { s with wb.run := true }) ∧
     (∀ mv ma, s.wb.run = false → exec (.wbEnergySample mv ma) s = .next s) ∧
     (∀ mv ma, s.wb.run = true → mv < 40000 → exec (.wbEnergySample mv ma) s = .next { s with wb := wbPowerDown s.wb }) ∧
     (s.wb.run = false → exec .wbPeriodicSeal s = .next s) ∧ (s.wb.openRec = none → exec .wbDemand s = .next s)) ∧
  (∀ (s : State) (mv ma : Nat) (r : OpenRecord), s.wb.run = true → 40000 ≤ mv → s.wb.openRec = some r →
     ∃ t r' mj, exec (.wbEnergySample mv ma) s = .next t ∧ t.wb.openRec = some r' ∧
       mj * 1000000000 + t.wb.remainder = s.wb.remainder + 2 * (mv * ma) ∧ t.wb.remainder < 1000000000 ∧
       r'.energy = r.energy + mj ∧ t.wb.energyTotal = (s.wb.energyTotal + mj) % 2 ^ 64 ∧
       t.wb.ring = s.wb.ring ∧ t.wb.nvSeq = s.wb.nvSeq ∧ t.wb.nvEnergy = s.wb.nvEnergy ∧ t.die = s.die ∧ t.mem = s.mem)

/-- A 100 ms average outside 500 W to 4,000 W sets RANGE in the open record; no command clears it there; and the record
seals with it (R605). -/
def Obligations.RangeFlagRule : Prop :=
  (∀ (s : State) (mv ma : Nat) (r : OpenRecord), s.wb.run = true → 40000 ≤ mv → s.wb.openRec = some r →
    s.wb.windowCount + 1 = windowSamples →
    (s.wb.windowSum + mv * ma < 500 * 1000000 * windowSamples ∨
      4000 * 1000000 * windowSamples < s.wb.windowSum + mv * ma) →
    ∃ t r', exec (.wbEnergySample mv ma) s = .next t ∧ t.wb.openRec = some r' ∧ r'.range = true) ∧
  (∀ (c : Instr) (s t : State) (r r' : OpenRecord), s.wb.openRec = some r → r.range = true → exec c s = .next t →
    t.wb.openRec = some r' → t.wb.nvSeq = s.wb.nvSeq → r'.range = true) ∧
  (∀ (c : Instr) (s t : State) (r : OpenRecord), s.wb.openRec = some r → r.range = true → exec c s = .next t →
    t.wb.nvSeq = s.wb.nvSeq + 1 → ∃ q, t.wb.ring.getLast? = some q ∧ (byteAt q.bytes 7).testBit 2 = true)

/-- A copy of a report frame is discarded and counted when its CRC fails, or when its session is the last one's and its
number at or below the last; every other copy is taken into the open record (R607). -/
def Obligations.ReportCopyRule : Prop :=
  ∀ (s : State) (f : Bytes), s.wb.powered = true →
    (frameOk f = false → ∃ t, exec (.wbReportFrame f) s = .next t ∧
      t.wb = { s.wb with crcErrCnt := satNat s.wb.crcErrCnt 1 }) ∧
    (∀ rseq, frameOk f = true → s.wb.lastFrame = some (numAt f 26 2, rseq) → numAt f 0 8 ≤ rseq →
      ∃ t, exec (.wbReportFrame f) s = .next t ∧ t.wb = { s.wb with dupCnt := satNat s.wb.dupCnt 1 }) ∧
    (∀ r, frameOk f = true → s.wb.openRec = some r →
      (∀ rseq, s.wb.lastFrame = some (numAt f 26 2, rseq) → rseq < numAt f 0 8) →
      ∃ t r', exec (.wbReportFrame f) s = .next t ∧ t.wb.openRec = some r' ∧
        t.wb.lastFrame = some (numAt f 26 2, numAt f 0 8) ∧ r'.reports = r.reports + 1 ∧
        t.wb.crcErrCnt = s.wb.crcErrCnt ∧ t.wb.dupCnt = s.wb.dupCnt ∧
        r'.tenants = (frameEntries f (numAt f 24 2)).foldl (fun ts e => addTenant e.1 e.2.1 e.2.2 ts) r.tenants)

/-- A taken frame of another session begins a new sequence whatever its number: it is counted, DIE_RESTART is set, the
session's earlier reports count as missed, and the next frames are judged against it (R608). -/
def Obligations.ReportSessionRule : Prop :=
  ∀ (s : State) (f : Bytes) (session rseq : Nat) (r : OpenRecord), s.wb.powered = true → frameOk f = true →
    s.wb.lastFrame = some (session, rseq) → session ≠ numAt f 26 2 → s.wb.openRec = some r →
    ∃ t r', exec (.wbReportFrame f) s = .next t ∧ t.wb.openRec = some r' ∧
      t.wb.sessionCnt = satNat s.wb.sessionCnt 1 ∧ r'.dieRestart = true ∧
      r'.missed = r.missed + (numAt f 0 8 - 1) ∧ t.wb.gapCnt = satNat s.wb.gapCnt (numAt f 0 8 - 1) ∧
      (r'.reportGap = true ↔ r.reportGap = true ∨ 1 < numAt f 0 8) ∧
      (∀ (g : Bytes) (v : State), frameOk g = true → numAt g 26 2 = numAt f 26 2 →
        exec (.wbReportFrame g) t = .next v →
        (numAt g 0 8 ≤ numAt f 0 8 → v.wb.dupCnt = satNat t.wb.dupCnt 1 ∧ v.wb.openRec = some r') ∧
        (numAt f 0 8 < numAt g 0 8 → v.wb.gapCnt = satNat t.wb.gapCnt (numAt g 0 8 - numAt f 0 8 - 1)))

/-- A taken number more than one above the last counts the missing reports in the counter and in the open record, which
carries REPORT_GAP; their tokens are not estimated: the totals grow by the taken frame's own entries (R609). -/
def Obligations.ReportGapRule : Prop :=
  ∀ (s : State) (f : Bytes) (rseq : Nat) (r : OpenRecord), s.wb.powered = true → frameOk f = true →
    s.wb.lastFrame = some (numAt f 26 2, rseq) → rseq + 1 < numAt f 0 8 → s.wb.openRec = some r →
    ∃ t r', exec (.wbReportFrame f) s = .next t ∧ t.wb.openRec = some r' ∧
      t.wb.gapCnt = satNat s.wb.gapCnt (numAt f 0 8 - rseq - 1) ∧ r'.missed = r.missed + (numAt f 0 8 - rseq - 1) ∧
      r'.reportGap = true ∧
      r'.tenants = (frameEntries f (numAt f 24 2)).foldl (fun ts e => addTenant e.1 e.2.1 e.2.2 ts) r.tenants

/-- What a seal leaves: the record has the next SEQ, its PREV is the CHAIN before it, its KIND, flags, fabric times and
energy are the open record's, the stored SEQ, CHAIN and energy are its own, and an empty record opens. -/
def Sys2Proof.sealed (w w' : Weighbridge) (kind : Nat) (r : OpenRecord) (ftEnd ftNext : Nat) : Prop :=
  ∃ q, w'.ring.getLast? = some q ∧ q.seq = w.nvSeq + 1 ∧ w'.nvSeq = w.nvSeq + 1 ∧ recordChain q = w'.nvChain ∧
    (w.nvChain.length = 32 → recordPrev q = w.nvChain) ∧ numAt q.bytes 6 1 = recordKindCode r kind ∧
    byteAt q.bytes 7 = recordFlags r w.ftLocked ∧
    numAt q.bytes 16 8 = r.ftStart % 2 ^ 64 ∧ numAt q.bytes 24 8 = ftEnd % 2 ^ 64 ∧
    numAt q.bytes 48 8 = r.energy % 2 ^ 64 ∧ w'.nvEnergy = w.energyTotal ∧
    w'.openRec = some (openRecord false ftNext) ∧ w'.lastSeal = some ftNext

/-- The open record seals, and the next opens, at each multiple of 60 s (PERIODIC), at a demand pulse 1 s or more after the
last seal (DEMAND; an earlier one is ignored and counted, and one in a boundary's cycle seals no record beside the boundary's), and at a jump of fabric time (TIME_JUMP, at the last time
before the move; the KIND is free) (R611 to R614). -/
def Obligations.RecordsSeal : Prop :=
  ∀ (s : State) (r : OpenRecord), s.wb.run = true → s.wb.nvmOk = true → s.wb.openRec = some r →
    (∃ t, exec .wbPeriodicSeal s = .next t ∧ sealed s.wb t.wb 1 r s.wb.nextPeriodic s.wb.nextPeriodic ∧
      t.wb.nextPeriodic = nextBoundary s.wb.nextPeriodic) ∧
    (atBoundary s.wb = true → exec .wbDemand s = .next s) ∧
    (s.wb.ft < s.wb.nextPeriodic → s.wb.lastSeal.all (fun l => l + 1000000000 ≤ s.wb.ft) = true →
      ∃ t, exec .wbDemand s = .next t ∧ sealed s.wb t.wb 2 r s.wb.ft s.wb.ft) ∧
    (∀ l, atBoundary s.wb = false → s.wb.lastSeal = some l → s.wb.ft < l + 1000000000 →
      exec .wbDemand s = .next { s with wb.demandIgnoredCnt := satNat s.wb.demandIgnoredCnt 1 }) ∧
    (∀ x, x < s.wb.ft ∨ s.wb.ft + 120000000000 < x →
      ∃ t kind, exec (.wbTimeJump x) s = .next t ∧ sealed s.wb t.wb kind { r with timeJump := true } s.wb.ft x ∧
        t.wb.ft = x ∧ t.wb.nextPeriodic = nextBoundary x)

/-- The sideband: GET_INFO always answers; GET_RECORD gives up to 240 bytes of a record in the ring, GET_RANGE the lowest
and highest SEQ; NOT_HELD for a record not in the ring, and for both while NVM_OK is 0, when nothing seals either (R616,
R618). -/
def Obligations.SidebandServesRecords : Prop :=
  ∀ s : State, s.wb.run = true →
    (∃ t b, exec .getInfo s = .next t ∧ t.wb.reply = .data b ∧ slice b 0 8 = toBytes 8 wbIdent) ∧
    (∀ q off, s.wb.nvmOk = true → s.wb.ring.find? (fun x => x.seq = q.seq) = some q →
      exec (.getRecord q.seq off) s = .next { s with wb.reply := .data ((q.bytes.drop off).take 240) }) ∧
    (∀ q l, s.wb.nvmOk = true → s.wb.ring.head? = some q → s.wb.ring.getLast? = some l →
      exec .getRange s = .next { s with wb.reply := .data (toBytes 8 q.seq ++ toBytes 8 l.seq) }) ∧
    (∀ seq off, (∀ q ∈ s.wb.ring, q.seq ≠ seq) → exec (.getRecord seq off) s = .next { s with wb.reply := .notHeld }) ∧
    (s.wb.nvmOk = false →
      (∀ seq off, exec (.getRecord seq off) s = .next { s with wb.reply := .notHeld }) ∧
      exec .getRange s = .next { s with wb.reply := .notHeld } ∧
      ∀ (c : Instr) (t : State), exec c s = .next t → t.wb.ring = s.wb.ring ∧ t.wb.nvSeq = s.wb.nvSeq)

/-! ## The tray, power and clocks (chapters 15, 16 and 18) -/

/-- The tray's events: 50 V starts and stops the Weighbridge alone, PWR_GOOD with REFCLK brings the module up from reset, and
its fall, the loss of 50 V and an input out of range switch every rail off; whether the input fell below 40 V, where the
Weighbridge stops too, the shutdown does not say (log entry 101).
The application cores and the Foreman do not run until the boot has released them. A module reset keeps flash, the event log
and the boot count, gives every other register its reset value, and the Weighbridge does not notice; a module whose Headframe
PLL has failed stays in reset (R6, R17, R197, R507, R543, R545, R551, R552, R563, R570, R602, R614, R625). -/
def Obligations.TrayPower : Prop :=
  (∀ s : State,
     (s.die.pwr.input50 = false → ∃ t, exec .input50vApplied s = .next t ∧ t.die.pwr.input50 = true ∧
       t.die.pwr.latched = false ∧ t.die.pwr.rails = s.die.pwr.rails ∧ t.wb = wbPowerUp s.wb) ∧
     (∃ t, exec .input50vLoss s = .next t ∧ t.die.pwr.input50 = false ∧ t.die.pwr.latched = false ∧
       t.die.live = false ∧ t.die.managed = false ∧ t.wb = wbPowerDown s.wb) ∧
     (∃ t, exec .pwrGoodFall s = .next t ∧ t.die.pwr.pwrGood = false ∧ t.die.live = false ∧ t.die.managed = false ∧
       t.die.pwr.latched = s.die.pwr.latched ∧ t.wb = s.wb) ∧
     (∃ t low, exec .inputShutdown s = .next t ∧ t.die.live = false ∧ t.die.managed = false ∧
       t.die.pwr.latched = s.die.pwr.latched ∧ t.wb = if low = true then wbPowerDown s.wb else s.wb) ∧
     (∀ straps, straps < 16 → s.die.pwr.pwrGood = false → s.die.pwr.input50 = true → s.die.pwr.latched = false →
       ∃ t, exec (.pwrGoodRise straps) s = .next t ∧ t.die.pwr.pwrGood = true ∧ t.die.pwr.straps = straps ∧
         (s.die.pwr.refclk = true →
           t.die.managed = true ∧ t.die.pwr.rails = true ∧ t.mem = [] ∧ t.die.ft = 0 ∧ t.die.step = none) ∧
         (s.die.pwr.refclk = false → t.die.managed = false) ∧ t.die.live = false) ∧
     (s.die.pwr.pllDead = true → Memory.wf s.mem = true →
       exec .refclkPresent s = .next { s with die.pwr.refclk := true }) ∧
     (s.die.pwr.mgtRail = true → s.die.pwr.released = false → s.die.pwr.pllDead = false →
       ∃ t, exec .refclkPresent s = .next t ∧ t.die.managed = true ∧ t.mem = [] ∧ t.die.ft = 0 ∧
         t.die.hdf.romStarted = false ∧ t.die.live = false ∧
         (s.die.hdf.repairs = [] → s.die.pwr.unrecorded = none → ∀ a, a ≠ HDF_BOOT_CNT → a ≠ HDF_LOG_SEQ → (view t).reg a = regReset a))) ∧
  (∀ (s t : State) (straps : Nat), s.die.pwr.pwrGood = false → s.die.pwr.input50 = true → s.die.pwr.latched = false →
     s.die.pwr.refclk = true → s.die.hdf.repairs = [] → exec (.pwrGoodRise straps) s = .next t →
     t.wb = s.wb ∧ t.die.hdf.log = s.die.hdf.log ∧ t.die.hdf.logTip = s.die.hdf.logTip ∧
     t.die.hdf.slotA = s.die.hdf.slotA ∧ t.die.hdf.slotB = s.die.hdf.slotB ∧ t.die.hdf.bootCount = s.die.hdf.bootCount ∧
     t.die.cores = [] ∧ t.die.fmn = .fresh ∧
     (view t).reg HDF_BOOT_CNT = BitVec.ofNat 64 s.die.hdf.bootCount ∧
     (view t).reg HDF_LOG_SEQ = BitVec.ofNat 64 s.die.hdf.logSeq ∧
     keepsRegs { s with die.regs := [] } t [HDF_BOOT_CNT, HDF_LOG_SEQ])

/-- Ceilings move between steps at once: P3 on a low input, the grade's top when it is back, one step slower at THROTTLE_C
and above the cap, P5 after an emergency hold; each is counted where its rule counts it. In group mode the root of the commit
barrier keeps the ceilings that its module raises (R570, R592, R593, R596, R597; the message of R597 is the model's, log entry
132). -/
def Obligations.CeilingsFollowTheirCauses : Prop :=
  ∀ s : State, s.die.managed = true → s.die.step = none → s.die.pwr.nextCeiling = [] →
    (∃ t, exec .inputUndervoltage s = .next t ∧ (view t).flag PWR_STATUS 5 = true ∧
      (view t).fld CLK_STATUS 22 20 = max 3 Config.topStep % 8 ∧
      (view t).regN PWR_IN_UV_CNT = min ((view s).regN PWR_IN_UV_CNT + 1) counterMax) ∧
    ((view s).flag PWR_STATUS 5 = true → ∃ t, exec .inputUndervoltageClear s = .next t ∧
      (view t).flag PWR_STATUS 5 = false ∧ (view t).fld CLK_STATUS 22 20 = Config.topStep % 8) ∧
    (∀ temp : Int, (view s).hottest = some temp → (view s).fld PWR_THERM 15 8 * 1000 ≤ temp →
      s.die.pwr.hotChecks % 10 = 0 → (view s).fld CLK_STATUS 28 26 < 5 →
      ∃ t, exec .thermalCheck s = .next t ∧
        (view t).fld CLK_STATUS 28 26 = (view s).fld CLK_STATUS 28 26 + 1 ∧
        (view t).regN PWR_THROTTLE_CNT = min ((view s).regN PWR_THROTTLE_CNT + 1) counterMax) ∧
    (∀ temp : Int, (view s).hottest = some temp → (view s).fld PWR_THERM 23 16 * 1000 ≤ temp →
      s.die.pwr.emergSeen = false → (view s).flag PWR_STATUS 8 = false →
      ∃ t, exec .thermalCheck s = .next t ∧ (view t).flag PWR_STATUS 8 = true ∧
        (view t).regN PWR_THERM_HOLD_CNT = min ((view s).regN PWR_THERM_HOLD_CNT + 1) counterMax) ∧
    ((view s).flag PWR_STATUS 8 = true → ∃ t, exec .emergencyHoldEnd s = .next t ∧
      (view t).flag PWR_STATUS 8 = false ∧ (view t).fld CLK_STATUS 28 26 = 5 ∧
      t.die.ft = (if (view s).cooled then s.die.ft
        else max s.die.ft (s.die.pwr.holdStart + (view s).fld PWR_THERM 63 48 * 1000)) ∧
      (view t).regN PWR_THERM_HOLD_NS_CNT =
        min ((view s).regN PWR_THERM_HOLD_NS_CNT + (t.die.ft - s.die.pwr.holdStart)) counterMax ∧
      ∀ f ∈ t.die.fences, f.withheld = false) ∧
    ((view s).grouped = true → (view s).barRoot (view s).commitBar = true →
      (view s).fld CLK_STATUS 22 20 ≠ max 3 Config.topStep % 8 →
      ∃ t, exec .inputUndervoltage s = .next t ∧
        mapGet t.die.fmn.groupCeilings (view s).moduleId = some ((List.range 4).map fun i => (view t).ceiling i)) ∧
    ((view s).fld PWR_CAP 31 16 ≠ 0 →
      ((view s).fld PWR_CAP 31 16 : Int) * 1000000 * (view s).inputPower.2 < (view s).inputPower.1 →
      (view s).fld CLK_STATUS 25 23 < 5 →
      ∃ t, exec .powerCapCheck s = .next t ∧ (view t).fld CLK_STATUS 25 23 = (view s).fld CLK_STATUS 25 23 + 1 ∧
        (view t).regN PWR_CAP_STEP_CNT = min ((view s).regN PWR_CAP_STEP_CNT + 1) counterMax)

/-- A change of frequency step between steps: each compute region then runs the step asked of it or the slowest ceiling,
whichever is slower, the report shows the step in effect, the change is counted once, the compute regions stop and start again
with the fence unit cleared and their copies of fabric time to be reloaded, and a CLOCK_STEP that asked for it completes; a
step up before the rails are in regulation is deferred and counted, and every region keeps its step; with every region at its
step no register changes but the report; and the spread of CLK_SSC takes effect there as well, held to its limits, with a stop
of the regions where it changes (R39, R467, R515, R576 to R579, R587). -/
def Obligations.FrequencyStepChanges : Prop :=
  ∀ s : State, s.die.live = true → s.die.step = none → s.die.pwr.nextCeiling = [] → s.die.pwr.regionFail = [] →
    s.die.pwr.stepLatched = none →
    (∀ ready, ∃ t, exec (.frequencyStepChange ready) s = .next t ∧ t.die.ft = s.die.ft ∧
      t.die.pwr.sscInEffect = sscClamped ((view s).reg CLK_SSC) ∧
      (s.die.pwr.sscInEffect ≠ sscClamped ((view s).reg CLK_SSC) →
        t.die.fences = [] ∧ ∀ r, r < 8 → r ∈ t.die.servo.staleCopies)) ∧
    (∀ ready, (ready = true ∨ ∀ r, r < 8 → (view s).regionStep r ≤ (view s).regionTarget r) →
      (∃ r, r < 8 ∧ (view s).regionStep r ≠ (view s).regionTarget r) →
      ∃ t, exec (.frequencyStepChange ready) s = .next t ∧
        (∀ r, r < 8 → (view t).regionStep r = (view s).regionTarget r) ∧
        (view t).fld CLK_STATUS 31 29 = (view s).targetStep ∧
        (view t).regN CLK_STEP_CHANGE_CNT = min ((view s).regN CLK_STEP_CHANGE_CNT + 1) counterMax ∧
        t.die.pwr.stepPending = none ∧ t.die.ft = s.die.ft ∧ t.die.fences = [] ∧
        (∀ r, r < 8 → r ∈ t.die.servo.staleCopies) ∧
        (∀ q mb, s.die.pwr.stepPending = some q → q.mailbox = some mb → mb < 64 → (view t).mbBusy mb = false)) ∧
    (∀ r, r < 8 → (view s).regionTarget r < (view s).regionStep r →
      ∃ t, exec (.frequencyStepChange false) s = .next t ∧
        (view t).regN CLK_STEP_DEFER_CNT = min ((view s).regN CLK_STEP_DEFER_CNT + 1) counterMax ∧
        t.die.pwr.stepPending = s.die.pwr.stepPending ∧ keepsRegs s t [CLK_STEP_DEFER_CNT]) ∧
    (∀ ready, (∀ r, r < 8 → (view s).regionStep r = (view s).regionTarget r) →
      ∃ t, exec (.frequencyStepChange ready) s = .next t ∧ (view t).fld CLK_STATUS 31 29 = (view s).targetStep ∧
        t.die.pwr.stepPending = none ∧ t.die.ft = s.die.ft ∧
        ((s.die.pwr.stepPending.bind fun q => q.mailbox) = none → keepsRegs s t [CLK_STATUS]))

/-- The reference multiplexer: a loss puts the PLLs in holdover and is counted, and a source that has stopped, which the loss
does not say (log entry 21), runs no more; a
normal switch pends until an edge of both sources, which a stopped one never gives; a forced write is honored in holdover only; a source that does not run is
refused and counted; reacquisition ends holdover and counts its length (R580 to R586). -/
def Obligations.ReferenceSwitches : Prop :=
  ∀ s : State, s.die.managed = true →
    (∃ t stopped, exec .refLoss s = .next t ∧ (view t).flag CLK_STATUS 2 = true ∧
      (view t).flag CLK_STATUS 1 = true ∧
      (view t).regN CLK_REF_LOSS_CNT = min ((view s).regN CLK_REF_LOSS_CNT + 1) counterMax ∧
      t.die.pwr.activeSource = s.die.pwr.activeSource ∧
      (stopped = true → (view t).refPresent s.die.pwr.activeSource = false) ∧
      (stopped = false → ∀ src, (view t).refPresent src = (view s).refPresent src)) ∧
    (∃ t, exec .refOk s = .next t ∧ (view t).flag CLK_STATUS 4 = true ∧ t.die.pwr.refclk = true) ∧
    (∀ sel, sel < 3 → (view s).refPresent sel = true →
      ∃ t, exec (.refmuxSwitch sel) s = .next t ∧ (view t).fld CLK_REFMUX 1 0 = sel ∧
        (view t).flag CLK_REFMUX 63 = true ∧ (view t).flag CLK_STATUS 2 = true ∧
        t.die.pwr.activeSource = s.die.pwr.activeSource) ∧
    (∀ sel, (view s).refPresent sel = false →
      exec (.refmuxSwitch sel) s = .next (put s ((view s).count CLK_REFMUX_REJECT_CNT)) ∧
      exec (.refmuxForce sel) s = .next (put s ((view s).count CLK_REFMUX_REJECT_CNT))) ∧
    ((view s).flag CLK_REFMUX 63 = true → (view s).refPresent s.die.pwr.activeSource = true →
      (view s).refPresent ((view s).fld CLK_REFMUX 1 0) = true → ∃ t, exec .refmuxSwitchComplete s = .next t ∧ (view t).flag CLK_REFMUX 63 = false ∧
        (view t).flag CLK_STATUS 3 = true ∧ t.die.pwr.activeSource = (view s).fld CLK_REFMUX 1 0) ∧
    ((view s).refPresent s.die.pwr.activeSource = false ∨ (view s).refPresent ((view s).fld CLK_REFMUX 1 0) = false →
      Memory.wf s.mem = true → exec .refmuxSwitchComplete s = .next s) ∧
    (∀ sel, sel < 3 → (view s).refPresent sel = true → (view s).flag CLK_STATUS 2 = true →
      ∃ t, exec (.refmuxForce sel) s = .next t ∧ (view t).fld CLK_REFMUX 1 0 = sel ∧
        (view t).flag CLK_REFMUX 63 = false ∧ (view t).flag CLK_STATUS 3 = true ∧ t.die.pwr.activeSource = sel ∧
        (view t).regN CLK_FORCED_SWITCH_CNT = min ((view s).regN CLK_FORCED_SWITCH_CNT + 1) counterMax) ∧
    (∀ sel, (view s).flag CLK_STATUS 2 = false → exec (.refmuxForce sel) s = exec (.refmuxSwitch sel) s) ∧
    ((view s).flag CLK_STATUS 3 = true → ∃ t, exec .pllRelockComplete s = .next t ∧
      (view t).flag CLK_STATUS 3 = false ∧ (view t).flag CLK_STATUS 2 = false ∧
      (view t).regN CLK_HOLDOVER_NS_CNT =
        min ((view s).regN CLK_HOLDOVER_NS_CNT + (s.die.ft - s.die.pwr.holdoverSince)) counterMax)

/-- A PLL's count lies more than 200 ppm from its nominal one. -/
def Sys2Proof.unlocked (m : M) (pll count spread : Nat) : Prop :=
  let n := m.nominalCount pll spread
  200 * n < (count - n) * 1000000 ∨ 200 * n < (n - count) * 1000000

/-- Lock judgments and droop: the nominal count is the PLL's own and with spread lies below it by DEPTH at most; a count within
±200 ppm of the nominal one locks a PLL and clears its failures, and a locked PLL
that fails with its reference good enters a holdover of its own, counted; sixteen failures of a starting PLL fail its region
and refuse loads, and those of the Headframe PLL put the module back in reset; a holdover that has not ended within sixteen
windows fails its region at the boundary. A region whose rail falls beyond the threshold stretches, which is counted, and a
compute region sends a lag token with the amount to the other compute regions, each of which then mirrors it; ten windows over the
limit drop the droop ceiling (R40, R244, R544, R545, R575, R590, R591). -/
def Obligations.PllsAndDroop : Prop :=
  ∀ s : State, s.die.managed = true →
    (∀ pll spread, (view s).nominalCount pll spread ≤ pllCount pll ∧
      pllCount pll ≤ (view s).nominalCount pll spread + pllCount pll * Machine.fld s.die.pwr.sscInEffect 7 4 / 2000 ∧
      ((view s).spreads pll = false → (view s).nominalCount pll spread = pllCount pll)) ∧
    (∀ pll count spread, count ≤ (view s).nominalCount pll spread + (view s).nominalCount pll spread / 5000 →
      (view s).nominalCount pll spread ≤ count + (view s).nominalCount pll spread / 5000 →
      ∃ t, exec (.pllLockJudgment pll count spread) s = .next t ∧ mapGet t.die.pwr.pllLocked pll = some true ∧
        mapGet t.die.pwr.pllFails pll = some 0 ∧ mapGet t.die.pwr.pllHoldover pll = some false) ∧
    (∀ pll count spread, unlocked (view s) pll count spread →
      mapGetD s.die.pwr.pllLocked pll false = true → mapGetD s.die.pwr.pllHoldover pll false = false →
      (view s).flag CLK_STATUS 2 = false →
      ∃ t, exec (.pllLockJudgment pll count spread) s = .next t ∧ mapGet t.die.pwr.pllHoldover pll = some true ∧
        (view t).regN CLK_PLL_UNLOCK_CNT = min ((view s).regN CLK_PLL_UNLOCK_CNT + 1) counterMax) ∧
    (∀ count spread, unlocked (view s) headframePll count spread → mapGetD s.die.pwr.pllLocked headframePll false = false →
      mapGetD s.die.pwr.pllFails headframePll 0 = 15 →
      ∃ t, exec (.pllLockJudgment headframePll count spread) s = .next t ∧ t.die.managed = false ∧ t.die.pwr.pllDead = true) ∧
    (∀ pll r count spread, unlocked (view s) pll count spread → pllRegion pll = some r →
      mapGetD s.die.pwr.pllLocked pll false = false → mapGetD s.die.pwr.pllFails pll 0 = 15 →
      ∃ t, exec (.pllLockJudgment pll count spread) s = .next t ∧
        (view t).fld (CLK_REGION_STATUS + 8 * r) 1 0 = 3 ∧ t.die.hdf.loadsRefused = true) ∧
    (∀ pll r, s.die.step = none → s.die.pwr.regionFail = [] → mapGetD s.die.pwr.pllHoldover pll false = true →
      16 < mapGetD s.die.pwr.pllFails pll 0 → pllRegion pll = some r →
      ∃ t, exec (.regionPllFailed pll) s = .next t ∧ (view t).fld (CLK_REGION_STATUS + 8 * r) 1 0 = 3 ∧
        t.die.hdf.loadsRefused = true) ∧
    (s.die.live = true → Memory.wf s.mem = true →
      (∀ region mv, mv ≤ (view s).droopThreshold → exec (.droopFire region mv) s = .next s) ∧
      (∀ region mv, (view s).droopThreshold < mv → region < 15 →
        ∃ t eighths, exec (.droopFire region mv) s = .next t ∧ 1 ≤ eighths ∧ eighths ≤ 4 ∧
        (view t).regN (CLK_REGION_STRETCH_CNT + 8 * region) =
          min ((view s).regN (CLK_REGION_STRETCH_CNT + 8 * region) + 1) counterMax ∧
        mapGet t.die.pwr.stretched region = some eighths ∧
        (∀ q, q < 8 → mapGetD t.die.pwr.lagTokens q [] = mapGetD s.die.pwr.lagTokens q [] ++
          if region < 8 ∧ q ≠ region then [eighths] else []) ∧
        keepsRegs s t [CLK_REGION_STRETCH_CNT + 8 * region] ∧ t.mem = s.mem) ∧
      (∀ region amount rest, mapGetD s.die.pwr.lagTokens region [] = amount :: rest →
        ∃ t, exec (.lagTokenMirror region) s = .next t ∧
        mapGetD t.die.pwr.lagTokens region [] = rest ∧ mapGet t.die.pwr.stretched region = some amount ∧
        (view t).regN (CLK_REGION_STRETCH_CNT + 8 * region) =
          min ((view s).regN (CLK_REGION_STRETCH_CNT + 8 * region) + 1) counterMax ∧
        keepsRegs s t [CLK_REGION_STRETCH_CNT + 8 * region] ∧ t.mem = s.mem) ∧
      (∀ region, s.die.step = none → s.die.pwr.nextCeiling = [] → (view s).fld CLK_STATUS 19 17 < 5 →
        (view s).fld CLK_CTRL 23 16 < mapGetD s.die.pwr.droopFirings region 0 →
        mapGetD s.die.pwr.droopRuns region 0 = 9 → ∃ t, exec (.droopWindow region) s = .next t ∧
        (view t).fld CLK_STATUS 19 17 = (view s).fld CLK_STATUS 19 17 + 1 ∧
        (view t).regN PWR_DROOP_STEPDOWN_CNT = min ((view s).regN PWR_DROOP_STEPDOWN_CNT + 1) counterMax))

/-! ## Headframe (chapter 15) -/

/-- Boot and the two image slots: with the Headframe PLL locked and both devices accepted the ROM boots the one ACTIVE slot that
verifies at or above MIN_SVN, and stays in recovery with none or with a device that it refuses; the boot takes the five
measurements and releases the application cores and the Foreman; in recovery a good image goes to slot A as a TRIAL; an update
empties the slot that does not run, then writes the bundle, then, once it verifies, a TRIAL header with 3 tries, and a write
that fails leaves no bundle; promotion, once the module has served or after 300 s, makes the running TRIAL slot ACTIVE and the
other INACTIVE; and MIN_SVN rises to the ACTIVE slot's SVN (R545, R548, R549, R550, R552, R554, R556 to R559). -/
def Obligations.FirmwareSlots : Prop :=
  ∀ s : State, s.die.managed = true →
    (mapGetD s.die.pwr.pllLocked headframePll false = true → s.die.hdf.slotA.accepted = true →
      s.die.hdf.slotB.accepted = true →
      (∀ b, (slotHeader s.die.hdf.slotA).state = .active → (slotHeader s.die.hdf.slotB).state = .empty →
        s.die.hdf.slotA.bundle = some b → bundleChecks b = true →
        hdfMinSvn s.die.hdf ≤ (slotHeader s.die.hdf.slotA).svn → s.die.hdf.configA = true →
        ∃ t, exec .romBoot s = .next t ∧ (view t).flag HDF_STATUS 0 = false ∧ (view t).flag HDF_STATUS 2 = true ∧
          (view t).flag HDF_STATUS 3 = false ∧ (view t).fld HDF_STATUS 11 8 = 4 ∧ t.die.hdf.hostReleased = true ∧
          t.die.live = s.die.pwr.rails ∧
          t.die.hdf.macEnabled = true ∧ t.die.hdf.romStarted = true ∧ t.die.hdf.slotId = s.die.pwr.straps ∧
          t.die.hdf.bootCount = s.die.hdf.bootCount + 1 ∧
          t.die.hdf.measurements = bootMeasurements b s.die.hdf) ∧
      ((slotHeader s.die.hdf.slotA).state = .empty → (slotHeader s.die.hdf.slotB).state = .empty →
        ∃ t, exec .romBoot s = .next t ∧ (view t).fld HDF_STATUS 11 8 = 8 ∧
          t.die.hdf.hostReleased = s.die.hdf.hostReleased ∧ t.die.hdf.romStarted = true)) ∧
    (mapGetD s.die.pwr.pllLocked headframePll false = true →
      (s.die.hdf.slotA.accepted = false ∨ s.die.hdf.slotB.accepted = false) →
      ∃ t, exec .romBoot s = .next t ∧ (view t).fld HDF_STATUS 11 8 = 8 ∧
        t.die.hdf.hostReleased = s.die.hdf.hostReleased) ∧
    (mapGetD s.die.pwr.pllLocked headframePll false = false → Memory.wf s.mem = true → exec .romBoot s = .next s) ∧
    (∀ b : Bundle, (view s).fld HDF_STATUS 11 8 = 8 → s.die.hdf.slotA.accepted = true → bundleChecks b = true →
      hdfMinSvn s.die.hdf ≤ b.svn →
      ∃ t, exec (.recoveryImageReceive b) s = .next t ∧ t.die.hdf.slotA.bundle = some b ∧
        (slotHeader t.die.hdf.slotA).state = .trial ∧ (slotHeader t.die.hdf.slotA).tries = 3 ∧
        t.die.hdf.slotB = s.die.hdf.slotB) ∧
    (∀ b : Bundle, (view s).firmwareRuns = true → updatePending s.die.hdf = false → s.die.hdf.flashRunning = none →
      s.die.hdf.flashQueue = [] →
      ∃ t hdr, exec (.firmwareUpdate b) s = .next t ∧
        t.die.hdf.flashRunning = some (.header (!(view s).flag HDF_STATUS 0) hdr, false) ∧
        t.die.hdf.flashQueue = [.update (!(view s).flag HDF_STATUS 0) b] ∧
        (slotHeader (hdfSlot (!(view s).flag HDF_STATUS 0) t.die.hdf)).state = .empty ∧
        hdfSlot ((view s).flag HDF_STATUS 0) t.die.hdf = hdfSlot ((view s).flag HDF_STATUS 0) s.die.hdf) ∧
    (∀ b : Bundle, (view s).firmwareRuns = false → Memory.wf s.mem = true → exec (.firmwareUpdate b) s = .next s) ∧
    (∀ (b : Bundle) (slotB retried : Bool), s.die.hdf.flashRunning = some (.update slotB b, retried) →
      s.die.hdf.flashQueue = [] → bundleChecks b = true → hdfMinSvn s.die.hdf ≤ b.svn →
      ∃ t, exec (.flashOperationComplete true) s = .next t ∧ (hdfSlot slotB t.die.hdf).bundle = some b ∧
        (slotHeader (hdfSlot slotB t.die.hdf)).state = .trial ∧ (slotHeader (hdfSlot slotB t.die.hdf)).tries = 3 ∧
        hdfSlot (!slotB) t.die.hdf = hdfSlot (!slotB) s.die.hdf) ∧
    (∀ (b : Bundle) (slotB : Bool), s.die.hdf.flashRunning = some (.update slotB b, true) →
      ∃ t, exec (.flashOperationComplete false) s = .next t ∧
        (view t).regN HDF_UPDATE_FAIL_CNT = min ((view s).regN HDF_UPDATE_FAIL_CNT + 1) counterMax ∧
        (s.die.hdf.flashQueue = [] → (hdfSlot slotB t.die.hdf).bundle = none)) ∧
    (∀ since, s.die.hdf.firmwareSince = some since → (s.die.hdf.flashRunning = none → s.die.hdf.flashQueue = []) →
      (plannedHeader ((view s).flag HDF_STATUS 0) s.die.hdf).state = .trial →
      ∃ t, exec .trialPromote s = .next t ∧
        (plannedHeader ((view s).flag HDF_STATUS 0) t.die.hdf).state = .active ∧
        (plannedHeader (!(view s).flag HDF_STATUS 0) t.die.hdf).state = .inactive ∧
        (s.die.hdf.flashRunning = none → (slotHeader (hdfSlot ((view s).flag HDF_STATUS 0) t.die.hdf)).state = .active) ∧
        (view t).flag HDF_STATUS 4 = false ∧ (view t).flag HDF_STATUS 0 = (view s).flag HDF_STATUS 0 ∧
        t.die.ft = if (view s).served then s.die.ft else max s.die.ft (since + 300 * 10 ^ 9)) ∧
    ((view s).firmwareRuns = true → s.die.hdf.flashRunning = none → s.die.hdf.flashQueue = [] →
      (slotHeader s.die.hdf.slotA).state = .active →
      ∃ t, exec .commitSvn s = .next t ∧
        hdfMinSvn t.die.hdf = max (hdfMinSvn s.die.hdf) (slotHeader s.die.hdf.slotA).svn ∧
        (view t).die.hdf.slotB = s.die.hdf.slotB)

/-- The event log and flash: a record appended while flash is idle has the next SEQ and ends in the SM3 of its first 96
bytes, which hold the boot count, whether fabric time runs free, and the CHAIN before it, and with the log full the oldest segment goes and is counted; while flash is busy
it waits behind what goes before it, or with 4,096 records waiting is dropped and counted; an operation that is verified, an
update's bundle aside, or that fails twice and is then counted, ends, and the next request in the queue is served; a first failure is retried
(R550, R563 to R565). -/
def Obligations.EventLogChains : Prop :=
  ∀ s : State, s.die.managed = true →
    (∀ severity source code data, s.die.hdf.flashRunning = none → s.die.hdf.logTip.length = 32 →
      ∃ t r, exec (.logAppend severity source code data) s = .next t ∧
        t.die.hdf.log = (if s.die.hdf.log.length = segmentRecords * logSegments
          then s.die.hdf.log.drop segmentRecords else s.die.hdf.log) ++ [r] ∧
        (view t).regN HDF_LOG_WRAP_CNT = (if s.die.hdf.log.length = segmentRecords * logSegments
          then min ((view s).regN HDF_LOG_WRAP_CNT + 1) counterMax else (view s).regN HDF_LOG_WRAP_CNT) ∧
        t.die.hdf.logSeq = s.die.hdf.logSeq + 1 ∧ numAt r 0 8 = (s.die.hdf.logSeq + 1) % 2 ^ 64 ∧
        numAt r 8 8 = s.die.ft % 2 ^ 64 ∧ numAt r 24 4 = s.die.hdf.bootCount % 2 ^ 32 ∧
        (byteAt r 16).testBit 0 = (view s).freeRunning ∧ slice r 64 32 = s.die.hdf.logTip ∧ r.drop 96 = sm3 (r.take 96) ∧
        t.die.hdf.logTip = r.drop 96 ∧ (view t).reg HDF_LOG_SEQ = BitVec.ofNat 64 (s.die.hdf.logSeq + 1) ∧
        keepsRegs s t logRegs ∧ t.die.pwr = s.die.pwr) ∧
    (∀ severity source code data r b, s.die.hdf.flashRunning = some (r, b) →
      (s.die.hdf.flashQueue.filter fun x => flashRank x == 1).length < logQueueMax →
      ∃ t, exec (.logAppend severity source code data) s = .next t ∧ t.die.hdf.log = s.die.hdf.log ∧
        t.die.hdf.flashQueue = flashInsert (.logRecord severity source code data s.die.ft s.die.hdf.bootCount
          (view s).freeRunning) s.die.hdf.flashQueue ∧ t.die.regs = s.die.regs) ∧
    (∀ severity source code data r b, s.die.hdf.flashRunning = some (r, b) →
      logQueueMax ≤ (s.die.hdf.flashQueue.filter fun x => flashRank x == 1).length →
      ∃ t, exec (.logAppend severity source code data) s = .next t ∧ t.die.hdf.log = s.die.hdf.log ∧
        t.die.hdf.flashQueue = s.die.hdf.flashQueue ∧ t.die.hdf.lostBefore = true ∧
        (view t).regN HDF_LOG_DROP_CNT = min ((view s).regN HDF_LOG_DROP_CNT + 1) counterMax) ∧
    (∀ r b verified, s.die.hdf.flashRunning = some (r, b) → (verified = true ∧ flashRank r ≠ 3 ∨ verified = false ∧ b = true) →
      ∃ t, exec (.flashOperationComplete verified) s = .next t ∧
        (s.die.hdf.flashQueue = [] → t.die.hdf.flashRunning = none ∧ t.die.hdf.log = s.die.hdf.log) ∧
        (∀ q rest, s.die.hdf.flashQueue = q :: rest →
          t.die.hdf.flashRunning = some (q, false) ∧ t.die.hdf.flashQueue = rest ∧
          t.die.hdf.logSeq = s.die.hdf.logSeq + if flashRank q = 1 then 1 else 0) ∧
        (verified = false → (view t).regN HDF_FLASH_ERR_CNT = min ((view s).regN HDF_FLASH_ERR_CNT + 1) counterMax)) ∧
    (∀ r, s.die.hdf.flashRunning = some (r, false) →
      ∃ t, exec (.flashOperationComplete false) s = .next t ∧ t.die.hdf.flashRunning = some (r, true) ∧
        t.die.regs = s.die.regs)

/-- A rail or thermal trip latches off every rail but VDD_MGT and VDD_PLL, and records itself in PWR_STATUS; no other
register but the log's moves, and no byte of memory. Before Headframe runs the rails latch off all the same, and the trip is
recorded as the reset is released. A sensor's reading is published with its status against its thresholds;
three periods without one mark it FAILED and count it (R566, R572, R595, Table 15.10). -/
def Obligations.TripsAndSensors : Prop :=
  (∀ s : State, s.die.managed = true → s.die.pwr.rails = true → Memory.wf s.mem = true →
     (∀ rail, rail < 32 → ∃ t, exec (.railTrip rail) s = .next t ∧ t.die.pwr.rails = false ∧ t.die.pwr.latched = true ∧
       t.die.managed = true ∧ t.die.live = false ∧ (view t).fld PWR_STATUS 15 11 = rail ∧
       (view t).flag PWR_STATUS 10 = true ∧ keepsRegs s t (PWR_STATUS :: logRegs) ∧ t.mem = s.mem ∧ t.wb = s.wb) ∧
     (∃ t, exec .thermalTrip s = .next t ∧ t.die.pwr.rails = false ∧ t.die.pwr.latched = true ∧
       t.die.managed = true ∧ t.die.live = false ∧ (view t).flag PWR_STATUS 9 = true ∧
       keepsRegs s t (PWR_STATUS :: logRegs) ∧ t.mem = s.mem ∧ t.wb = s.wb)) ∧
  (∀ s : State, s.die.managed = false → s.die.pwr.rails = true →
     (∀ rail, rail < 32 → ∃ t, exec (.railTrip rail) s = .next t ∧ t.die.pwr.rails = false ∧ t.die.pwr.latched = true ∧
       t.die.pwr.unrecorded = some rail ∧ t.die.regs = s.die.regs) ∧
     (∃ t, exec .thermalTrip s = .next t ∧ t.die.pwr.rails = false ∧ t.die.pwr.latched = true ∧
       t.die.pwr.unrecorded = some 32 ∧ t.die.regs = s.die.regs)) ∧
  (∀ (s : State) (trip : Nat), s.die.pwr.mgtRail = true → s.die.pwr.released = false → s.die.pwr.pllDead = false →
     s.die.pwr.unrecorded = some trip → trip ≤ 32 →
     ∃ t, exec .refclkPresent s = .next t ∧ t.die.managed = true ∧ t.die.pwr.rails = s.die.pwr.rails ∧
       (trip = 32 → (view t).flag PWR_STATUS 9 = true) ∧
       (trip < 32 → (view t).fld PWR_STATUS 15 11 = trip ∧ (view t).flag PWR_STATUS 10 = true)) ∧
  (∀ (s : State) (n : Nat), s.die.managed = true → sensorExists n = true →
     (∀ v : Int, -2147483648 ≤ v → v < 2147483648 →
       ∃ t, exec (.sensorSample n (some v)) s = .next t ∧ (view t).sensor n = v ∧
         (view t).fld (HDF_SENS + 8 * n) 63 62 = sensorStatus (mapGet s.die.hdf.thresholds n) v ∧
         mapGet t.die.hdf.sensorFt n = some s.die.ft ∧ keepsRegs s t ((HDF_SENS + 8 * n) :: logRegs)) ∧
     (mapGetD s.die.hdf.sensorMissed n 0 = 2 →
       ∃ t, exec (.sensorSample n none) s = .next t ∧ (view t).fld (HDF_SENS + 8 * n) 63 62 = 3 ∧
         (view t).regN HDF_SENS_FAIL_CNT = min ((view s).regN HDF_SENS_FAIL_CNT + 1) counterMax))

/-- Until the management MAC is enabled it drops and counts every frame; the sideband ignores what is addressed to the module
until the ROM has started, and answers from then on (R547). -/
def Obligations.EarlyTrafficRule : Prop :=
  ∀ s : State, s.die.managed = true →
    (∀ f : Bytes, s.die.hdf.macEnabled = false →
      exec (.mgtFrameReceive f) s = .next (put s ((view s).count MGT_RX_EARLY_DROP_CNT))) ∧
    (∀ r : RedfishCall, s.die.hdf.macEnabled = false →
      exec (.redfishRequest r) s = .next (put s ((view s).count MGT_RX_EARLY_DROP_CNT))) ∧
    (∀ f : Bytes, s.die.hdf.macEnabled = true →
      ∃ t, exec (.mgtFrameReceive f) s = .next t ∧ t.die.hdf.mgtFrames = s.die.hdf.mgtFrames ++ [f] ∧
        t.die.pwr.mgtStopped = false ∧ t.die.regs = s.die.regs) ∧
    (∀ r : Sideband, s.die.hdf.romStarted = false → Memory.wf s.mem = true →
      exec (.sidebandRequest (0x30 + s.die.hdf.slotId) r) s = .next { s with die.hdf.sidebandReply := none }) ∧
    (∀ r : Sideband, s.die.hdf.romStarted = true →
      ∃ t b, exec (.sidebandRequest (0x30 + s.die.hdf.slotId) r) s = .next t ∧ t.die.hdf.sidebandReply = some b)

/-- Attestation and Redfish: between two steps a request is answered by a report with the nonce, the time and the log's tip,
and refused without the key; what Table 15.8 does not list gives 404 or 405; a connection without TLS 1.3 and a suite that is
served gets nothing, and a sender not known is refused (which answer it gets is free, log entry 99); a ninth subscription is
not taken; a session needs a local account; and an account, a session or a subscription is removed (R561, R562, R567). -/
def Obligations.AttestAndRedfish : Prop :=
  ∀ s : State, s.die.managed = true →
    (∀ nonce : Bytes, nonce.length = 32 → s.die.hdf.firmwareSince.isSome = true → s.die.step = none →
      s.die.fmn.flip = none → s.die.hdf.attestWaiting = [] → s.die.hdf.logTip.length = 32 →
      (view s).flag HDF_STATUS 1 = true →
      ∃ t, exec (.attest nonce) s = .next t ∧ numAt t.die.hdf.attestReport 0 4 = 0x33544154 ∧
        slice t.die.hdf.attestReport 8 32 = nonce ∧ numAt t.die.hdf.attestReport 40 8 = s.die.ft % 2 ^ 64 ∧
        slice t.die.hdf.attestReport 64 32 = s.die.hdf.logTip ∧ t.die.hdf.attestWaiting = []) ∧
    (∀ nonce : Bytes, s.die.hdf.firmwareSince.isSome = true → s.die.step = none → s.die.fmn.flip = none →
      s.die.hdf.attestWaiting = [] → (view s).flag HDF_STATUS 1 = false →
      ∃ t, exec (.attest nonce) s = .next t ∧ t.die.hdf.attestReport = []) ∧
    (∀ nonce : Bytes, s.die.hdf.firmwareSince.isSome = true → s.die.step ≠ none →
      ∃ t, exec (.attest nonce) s = .next t ∧ t.die.hdf.attestWaiting = s.die.hdf.attestWaiting ++ [(nonce, false)] ∧
        t.die.hdf.attestReport = s.die.hdf.attestReport) ∧
    (∀ auth r, s.die.hdf.macEnabled = true → Memory.wf s.mem = true →
      exec (.redfishRequest { tls := .other, auth, request := r }) s = .next s) ∧
    (∀ tls auth, s.die.hdf.macEnabled = true → tls ≠ .other →
      (∃ t, exec (.redfishRequest { tls, auth, request := .read .unlisted }) s = .next t ∧ t.die.hdf.redfishStatus = 404) ∧
      (∃ t, exec (.redfishRequest { tls, auth, request := .unlistedAction }) s = .next t ∧
        t.die.hdf.redfishStatus = 405) ∧
      (∀ r, unlistedRequest r = false → (view s).redfishKnown auth = false →
        exec (.redfishRequest { tls, auth, request := r }) s = .next (put s (view s).redfishRefused)) ∧
      ((view s).redfishKnown auth = true →
        (∀ a, s.die.hdf.accounts.contains a = true →
          (∃ t, exec (.redfishRequest { tls, auth, request := .createSession a }) s = .next t ∧
            t.die.hdf.sessions = s.die.hdf.sessions ++ [a]) ∧
          ∃ t, exec (.redfishRequest { tls, auth, request := .removeAccount a }) s = .next t ∧
            t.die.hdf.accounts.contains a = false ∧ t.die.hdf.sessions.contains a = false) ∧
        (∀ a, s.die.hdf.accounts.contains a = false →
          (∃ t, exec (.redfishRequest { tls, auth, request := .createSession a }) s = .next t ∧
            t.die.hdf.sessions = s.die.hdf.sessions) ∧
          ∃ t, exec (.redfishRequest { tls, auth, request := .createAccount a }) s = .next t ∧
            t.die.hdf.accounts = s.die.hdf.accounts ++ [a]) ∧
        (∀ n w c, sensorExists n = true →
          ∃ t, exec (.redfishRequest { tls, auth, request := .setThreshold n w c }) s = .next t ∧
            mapGet t.die.hdf.thresholds n = some { warning := w, critical := c }) ∧
        (∀ d, s.die.hdf.subscriptions.length < 8 →
          ∃ t, exec (.redfishRequest { tls, auth, request := .subscribe d }) s = .next t ∧
            t.die.hdf.subscriptions = s.die.hdf.subscriptions ++ [d]) ∧
        (∀ d, 8 ≤ s.die.hdf.subscriptions.length →
          ∃ t, exec (.redfishRequest { tls, auth, request := .subscribe d }) s = .next t ∧
            t.die.hdf.subscriptions = s.die.hdf.subscriptions) ∧
        (∀ d, s.die.hdf.subscriptions.contains d = true →
          ∃ t, exec (.redfishRequest { tls, auth, request := .unsubscribe d }) s = .next t ∧
            t.die.hdf.subscriptions = s.die.hdf.subscriptions.erase d)))

/-! ## The control space (chapter 0) -/

/-- An address of a register that stands once, whose write starts nothing of its own. -/
def Sys2Proof.plainRegister (a : Nat) : Prop :=
  place a = .other ∧ a % 8 = 0 ∧ ¬ (FMN_MB_DOORBELL ≤ a ∧ a < FMN_MB_DOORBELL + 8 * mailboxes) ∧
  ¬ (FMN_RING_DOORBELL ≤ a ∧ a < FMN_RING_DOORBELL + 8 * 64) ∧
  a ∉ [HDF_WB_DEMAND, RYS_XPT_ID, FMN_WT_CTRL, FTC_CTRL, CMT_CTRL, FMN_DET_CTRL, CLK_CTRL, CLK_REFMUX]

/-- A 64-bit write of a register updates each field by its access type: RW bits take the value, W1C bits written 1 clear,
W1S bits written 1 set, every other bit stays; no other register and no byte of memory changes. A 64-bit read of an RC
counter returns its value and clears it; a 32-bit read of either half returns that half and clears nothing; an access of
a width or alignment that R12 does not allow reaches no register and is counted; and a write to an address that no table
assigns changes nothing (R8 to R10, R12, R17). -/
def Obligations.RegistersByAccessType : Prop :=
  (∀ (s : State) (req : Requester) (a : Nat) (r : RegRow) (v : Word), s.die.live = true → plainRegister a →
     regRow a = some r → Memory.wf s.mem = true →
     ∃ t, exec (.registerWrite req a 8 v) s = .next t ∧
       (∀ i, i < 64 → ((view t).reg a).getLsbD i =
         (let old := if r.rw.testBit i then v.getLsbD i else ((view s).reg a).getLsbD i
          (old && !(v.getLsbD i && r.w1c.testBit i)) || (v.getLsbD i && r.w1s.testBit i))) ∧
       keepsRegs s t [a] ∧ t.mem = s.mem ∧ t.die.readData = s.die.readData) ∧
  (∀ (s : State) (a : Nat) (r : RegRow), s.die.live = true → Memory.wf s.mem = true →
     (place a = .other → a % 8 = 0 → regRow a = some r → r.rc = true →
       ∃ t, exec (.counterReadClear a) s = .next t ∧ t.die.readData = (view s).readReg a ∧ (view t).reg a = 0 ∧
         keepsRegs s t [a] ∧ t.mem = s.mem) ∧
     (place a = .other → a % 4 = 0 →
       ∃ t, exec (.controlSpaceMisalignedAccess a 4 false) s = .next t ∧
         t.die.readData = halfOf a ((view s).readReg (a / 8 * 8)) ∧ t.die.regs = s.die.regs ∧ t.mem = s.mem) ∧
     (∀ width, accessAllowed a width = false →
       (∃ t, exec (.controlSpaceMisalignedAccess a width true) s = .next t ∧ t.die.readData = s.die.readData ∧
         (view t).regN HDF_CS_ACCESS_ERR_CNT = min ((view s).regN HDF_CS_ACCESS_ERR_CNT + 1) counterMax ∧
         keepsRegs s t [HDF_CS_ACCESS_ERR_CNT] ∧ t.mem = s.mem) ∧
       (∃ t, exec (.controlSpaceMisalignedAccess a width false) s = .next t ∧ t.die.readData = 0 ∧
         (view t).regN HDF_CS_ACCESS_ERR_CNT = min ((view s).regN HDF_CS_ACCESS_ERR_CNT + 1) counterMax ∧
         keepsRegs s t [HDF_CS_ACCESS_ERR_CNT] ∧ t.mem = s.mem)) ∧
     (plainRegister a → regRow a = none →
       ∀ req v, exec (.registerWrite req a 8 v) s = .next s))

/-! ## Mailboxes, rings and the host (chapter 14) -/

/-- A mailbox command completed in its mailbox: STATUS holds the code, BUSY is clear and the interrupt bit set. -/
def Sys2Proof.completes (t : State) (mb code : Nat) : Prop :=
  (view t).mbArg mb 1 1 = code ∧ (view t).mbBusy mb = false ∧ (view t).flag FMN_HOST_IRQ_MB mb = true

/-- No burst of a carve-out range holds an error that a read would meet (R299, R300). -/
def Sys2Proof.cleanCarve (m : M) (a n : Nat) : Prop := m.noteCarve a n = m

/-- A doorbell on an idle mailbox makes it busy and leaves its bytes; rung again it is ignored and counted; an opcode that
belongs in no mailbox completes with INVALID. A ring's doorbell and the poll read its producer index; a producer more
than 2^k ahead stops the ring, and sets and counts its error (R523, R524, R526, R528, R531). -/
def Obligations.DoorbellsRing : Prop :=
  (∀ (s : State) (mb : Nat), s.die.live = true → mb < 64 →
     ((view s).mbBusy mb = false → mailboxCode ((view s).mbArg mb 0 1) = true → Memory.wf s.mem = true →
       ∃ t, exec (.mailboxDoorbell mb) s = .next t ∧ (view t).mbBusy mb = true ∧ keepsRegs s t [FMN_MB_BUSY] ∧
         t.mem = s.mem) ∧
     ((view s).mbBusy mb = true → exec (.mailboxDoorbell mb) s = .next (put s ((view s).count FMN_MB_DOORBELL_BUSY_CNT))) ∧
     ((view s).mbBusy mb = false → mailboxCode ((view s).mbArg mb 0 1) = false →
       ∃ t, exec (.mailboxDoorbell mb) s = .next t ∧ completes t mb ccINVALID ∧
         keepsBytes s t (mailboxBase mb + 1) 1)) ∧
  (∀ (s : State) (r : Nat) (g : Ring), s.die.live = true → r < 64 → (view s).ring r = some g → g.stopped = false →
     g.closing = none → cleanCarve (view s) g.base 4 →
     (2 ^ g.k < ((view s).carveN g.base 4 + 2 ^ 32 - g.consumer) % 2 ^ 32 →
       ∃ t, exec (.ringDoorbell r) s = .next t ∧ (view t).flag FMN_RING_ERR r = true ∧
         (view t).ring r = some { g with producer := (view s).carveN g.base 4, stopped := true } ∧
         (view t).regN FMN_RING_ERR_CNT = min ((view s).regN FMN_RING_ERR_CNT + 1) counterMax ∧
         keepsRegs s t [FMN_RING_ERR, FMN_RING_ERR_CNT]) ∧
     ((view s).carveN g.base 4 = g.consumer → g.consumer < 2 ^ 32 → (∀ q, q ≠ r → (view s).ringReady q = false) →
       ∃ t, exec (.ringDoorbell r) s = .next t ∧ (view t).ring r = some { g with producer := g.consumer } ∧
         t.die.regs = s.die.regs) ∧
     (s.die.fmn.rings = [(r, g)] → exec .ringPoll s = exec (.ringDoorbell r) s))

/-- Mailbox commands on policy, rings, windows, steps, time and the fabric, each with its arguments in range: what each sets,
and its completion with OK. CLOCK_STEP within the grade for all regions is requested and completes at its boundary, behind
another it is latched, and it is refused where it is faster than the grade or for a region with a fixed clock; UNIT retires a
site at once; the end of a router's transition completes the UNIT command that waits for it, and a UNIT that takes the place of
a latched one completes that with SUPERSEDED (R2, R43, R462, R511, R514, R525, R531, R534, R537 to R539, R577; Table 14.5). -/
def Obligations.MailboxCommandsTakeEffect : Prop :=
  (∀ (s : State) (mb : Nat), s.die.live = true → (view s).mbArg mb 4 4 = 0 →
     ((view s).mbHolds mb 0x26 = true → (view s).mbArg mb 10 1 ≤ 2 → (view s).mbArg mb 11 1 ≤ 1 →
       ((view s).mbArg mb 10 1 = 2 → ∀ x ∈ s.die.fmn.models, x.2.split = true) →
       ∃ t, exec (.policy mb) s = .next t ∧ completes t mb ccOK ∧ t.die.fmn.age = (view s).mbArg mb 8 2 ∧
         t.die.fmn.seamBudget = (view s).mbArg mb 16 8 ∧ (view t).fld FMN_WT_CTRL 3 2 = (view s).mbArg mb 10 1 ∧
         (view t).fld FMN_WT_CTRL 4 4 = (view s).mbArg mb 11 1) ∧
     ((view s).mbHolds mb 0x27 = true → (view s).mbArg mb 8 1 < 64 → 6 ≤ (view s).mbArg mb 9 1 →
       (view s).mbArg mb 9 1 ≤ 12 → (view s).mbArg mb 16 8 % 64 = 0 → (view s).ring ((view s).mbArg mb 8 1) = none →
       inCarve ((view s).mbArg mb 16 8) (64 + 128 * 2 ^ (view s).mbArg mb 9 1) = true →
       (view s).carveN ((view s).mbArg mb 16 8) 4 = (view s).carveN ((view s).mbArg mb 16 8 + 4) 4 →
       ∃ t g, exec (.ringOpen mb) s = .next t ∧ completes t mb ccOK ∧ (view t).ring ((view s).mbArg mb 8 1) = some g ∧
         g.base = (view s).mbArg mb 16 8 ∧ g.k = (view s).mbArg mb 9 1 ∧
         g.consumer = (view s).carveN ((view s).mbArg mb 16 8 + 4) 4 ∧ g.stopped = false) ∧
     (∀ g, (view s).mbHolds mb 0x28 = true → (view s).ring ((view s).mbArg mb 8 1) = some g → g.closing = none →
       (g.stopped = true ∨ (view s).carveN g.base 4 = g.consumer) →
       ∃ t, exec (.ringClose mb) s = .next t ∧ completes t mb ccOK ∧ (view t).ring ((view s).mbArg mb 8 1) = none) ∧
     ((view s).mbHolds mb 0x29 = true → windowNumber ((view s).mbArg mb 8 1) = true → (view s).mbArg mb 9 1 ≤ 3 →
       inCarve ((view s).mbArg mb 16 8) ((view s).mbArg mb 24 8) = true → s.die.step ≠ none →
       ∃ t, exec (.windowGrant mb) s = .next t ∧ completes t mb ccOK ∧ t.die.fmn.windows = s.die.fmn.windows ∧
         mapGet t.die.fmn.nextWindows ((view s).mbArg mb 8 1) =
           some (some { dieReads := ((view s).mbArg mb 9 1).testBit 0, dieWrites := ((view s).mbArg mb 9 1).testBit 1,
                        base := (view s).mbArg mb 16 8, size := (view s).mbArg mb 24 8 })) ∧
     ((view s).mbHolds mb 0x2A = true → windowNumber ((view s).mbArg mb 8 1) = true →
       (view s).windowGranted ((view s).mbArg mb 8 1) = true → s.die.step ≠ none →
       ∃ t, exec (.windowRevoke mb) s = .next t ∧ completes t mb ccOK ∧ t.die.fmn.windows = s.die.fmn.windows ∧
         mapGet t.die.fmn.nextWindows ((view s).mbArg mb 8 1) = some none) ∧
     ((view s).mbHolds mb 0x29 = true → windowNumber ((view s).mbArg mb 8 1) = true → (view s).mbArg mb 9 1 ≤ 3 →
       inCarve ((view s).mbArg mb 16 8) ((view s).mbArg mb 24 8) = true → s.die.step = none → s.die.fmn.nextWindows = [] →
       ∃ t, exec (.windowGrant mb) s = .next t ∧ completes t mb ccOK ∧
         mapGet t.die.fmn.windows ((view s).mbArg mb 8 1) =
           some { dieReads := ((view s).mbArg mb 9 1).testBit 0, dieWrites := ((view s).mbArg mb 9 1).testBit 1,
                  base := (view s).mbArg mb 16 8, size := (view s).mbArg mb 24 8 }) ∧
     (∀ x, (view s).mbHolds mb 0x2A = true → windowNumber ((view s).mbArg mb 8 1) = true →
       mapGet s.die.fmn.windows ((view s).mbArg mb 8 1) = some x → s.die.step = none → s.die.fmn.nextWindows = [] →
       ∃ t, exec (.windowRevoke mb) s = .next t ∧ completes t mb ccOK ∧
         mapGet t.die.fmn.windows ((view s).mbArg mb 8 1) = none) ∧
     ((view s).mbHolds mb 0x2B = true → (view s).mbArg mb 8 1 ≤ 3 → (view s).loadBusy = false → s.die.fmn.models ≠ [] →
       (0 < (view s).mbArg mb 24 8 ∨ s.die.fmn.composed = none) →
       ∃ t r, exec (.run mb) s = .next t ∧ completes t mb ccOK ∧ t.die.fmn.run = some r ∧
         r.next = (view s).mbArg mb 16 8 ∧ r.period = (view s).mbArg mb 24 8 ∧
         (s.die.step = none → (view t).fld CMT_CTRL 0 0 = (view s).mbArg mb 8 1 % 2)) ∧
     ((view s).mbHolds mb 0x2F = true → (view s).mbArg mb 8 1 ≤ 2 → (view s).mbArg mb 9 1 ≤ 15 →
       (view s).mbArg mb 10 1 ≤ 15 → (view s).mbArg mb 11 1 ≤ 1 → s.die.step = none → s.die.servo.latched = none →
       ∃ t, exec (.timeMode mb) s = .next t ∧ completes t mb ccOK ∧ (view t).fld FTC_CTRL 5 4 = (view s).mbArg mb 8 1 ∧
         (view t).fld FTC_CTRL 11 8 = (view s).mbArg mb 9 1 ∧ (view t).fld FTC_CTRL 15 12 = (view s).mbArg mb 10 1 ∧
         (view t).fld FTC_CTRL 0 0 = (view s).fld FTC_CTRL 0 0) ∧
     (∀ b, (view s).mbHolds mb 0x2C = true → (view s).mbArg mb 24 4 = 16 → (view s).loadBusy = false →
       inCarve ((view s).mbArg mb 16 8) 16 = true → ((view s).stripedRead carveAddr ((view s).mbArg mb 16 8) 16 2).1 = b →
       byteAt b 0 = 4 →
       ∃ t, exec (.fabricConfig mb) s = .next t ∧ completes t mb ccOK ∧
         mapGet t.die.fmn.roles (numAt b 2 2) = some (numAt b 4 2))) ∧
  (∀ (s : State) (mb : Nat), s.die.live = true → (view s).mbArg mb 4 4 = 0 →
     ((view s).mbHolds mb 0x2E = true → (view s).mbArg mb 8 1 ≤ 5 → Config.topStep ≤ (view s).mbArg mb 8 1 →
       (view s).mbArg mb 9 2 = 255 →
       (s.die.pwr.stepPending = none →
         ∃ t, exec (.clockStep mb) s = .next t ∧ (view t).fld CLK_CTRL 2 0 = (view s).mbArg mb 8 1 ∧
           t.die.pwr.stepPending = some { step := (view s).mbArg mb 8 1, mask := 255, mailbox := some mb } ∧
           (view t).mbBusy mb = true ∧ keepsRegs s t [CLK_CTRL]) ∧
       (∀ q old, s.die.pwr.stepPending = some q → s.die.pwr.stepLatched = some old → old.mailbox ≠ some mb →
         ∃ t, exec (.clockStep mb) s = .next t ∧ t.die.pwr.stepPending = some q ∧
           t.die.pwr.stepLatched = some { step := (view s).mbArg mb 8 1, mask := 255, mailbox := some mb } ∧
           (view t).mbBusy mb = true ∧ ∀ w, old.mailbox = some w → w < 64 → completes t w ccSUPERSEDED)) ∧
     ((view s).mbHolds mb 0x2E = true → (view s).mbArg mb 8 1 ≤ 5 → (view s).mbArg mb 9 2 < 2 ^ 15 →
       ((view s).mbArg mb 8 1 < Config.topStep ∨ 256 ≤ (view s).mbArg mb 9 2) →
       exec (.clockStep mb) s = .next (put s ((view s).mbComplete mb ccREFUSED))) ∧
     ((view s).mbHolds mb 0x2D = true → (view s).mbArg mb 8 1 = 1 → (view s).mbArg mb 9 1 = 1 →
       (view s).mbArg mb 10 2 < 136 → (view s).rowSpareUsed ((view s).mbArg mb 10 2 / 17) = false →
       (view s).siteSpare ((view s).mbArg mb 10 2) = false →
       ∃ t, exec (.unitCmd mb) s = .next t ∧ completes t mb ccOK ∧ t.die.fmn.siteRetired = true) ∧
     (∀ old, (view s).mbHolds mb 0x2D = true → ((view s).mbArg mb 8 1 = 1 ∨ (view s).mbArg mb 8 1 = 2) →
       (view s).mbArg mb 9 1 = 3 → (view s).mbArg mb 10 2 < 136 →
       ((view s).site ((view s).mbArg mb 10 2)).routerPending.isSome = true →
       ((view s).site ((view s).mbArg mb 10 2)).routerLatched.isSome = true →
       s.die.fmn.unitWaits = [(old, fnRouter ((view s).mbArg mb 10 2), true)] → old < 64 → old ≠ mb →
       ∃ t, exec (.unitCmd mb) s = .next t ∧ completes t old ccSUPERSEDED ∧ (view t).mbBusy mb = true ∧
         t.die.fmn.unitWaits = [(mb, fnRouter ((view s).mbArg mb 10 2), true)]) ∧
     (∀ site op waiting, s.die.step = none → ((view s).site site).routerPending = some op →
       ((view s).site site).routerLatched = none → waiting < 64 →
       s.die.fmn.unitWaits = [(waiting, fnRouter site, false)] →
       ∃ t, exec (.transitionComplete (fnRouter site)) s = .next t ∧
         completes t waiting ((view s).routerOp site op).1 ∧ t.die.fmn.unitWaits = [] ∧
         ((view t).site site).routerPending = none))

/-- The application cores: a busy mailbox ignores their writes and counts each, an idle one takes them and nothing else
changes; a disallowed access in the Foreman window is a bus error and counted; an address outside Table 14.1 is a bus
error that changes nothing; and the carve-out is written as bytes, an access waiting while a stack it reaches is not yet
filled (R638). A service port drops and counts a frame with a bad FCS unless it is to be kept, and one that finds no free
descriptor, and the die and the other port do not change; a frame that one free descriptor holds is delivered there, cut to
MTU and counted when it is longer; its registers are written and its counters read and cleared; and a descriptor put before
TAIL sends its frame (R520, R521, R523, R541, R542; the layout of the port's window is the model's, log entry 88). -/
def Obligations.HostAccesses : Prop :=
  (∀ (s : State) (v : Word), s.die.live = true → Memory.wf s.mem = true →
     (∀ mb off n, mb < 64 → off + n ≤ 256 → accessOk n (256 * mb + off) = true → (view s).mbBusy mb = true →
       ∃ t, exec (.hostAccess (hostForemanBase + 256 * mb + off) n true v) s = .next t ∧ t.mem = s.mem ∧
         t.die.busError = false ∧ (view t).regN FMN_MB_WR_BUSY_CNT = min ((view s).regN FMN_MB_WR_BUSY_CNT + 1) counterMax ∧
         keepsRegs s t [FMN_MB_WR_BUSY_CNT]) ∧
     (∀ mb off n, mb < 64 → off + n ≤ 256 → accessOk n (256 * mb + off) = true → (view s).mbBusy mb = false →
       ∃ t, exec (.hostAccess (hostForemanBase + 256 * mb + off) n true v) s = .next t ∧ t.die.busError = false ∧
         (view t).mbArg mb off n = v.toNat % 256 ^ n ∧ keepsBytes s t (mailboxBase mb + off) n ∧
         t.die.regs = s.die.regs) ∧
     (∀ off n w, off < 0x10000 → accessOk n off = false → registerOk n off = false →
       ∃ t, exec (.hostAccess (hostForemanBase + off) n w v) s = .next t ∧ t.die.busError = true ∧ t.die.readData = 0 ∧
         (view t).regN FMN_HOST_ACCESS_ERR_CNT = min ((view s).regN FMN_HOST_ACCESS_ERR_CNT + 1) counterMax ∧
         keepsRegs s t [FMN_HOST_ACCESS_ERR_CNT] ∧ t.mem = s.mem) ∧
     (∀ a n w, hostServiceBase + 0x20000 ≤ a →
       exec (.hostAccess a n w v) s = .next { s with die.busError := true, die.readData := 0 }) ∧
     (∀ a n, a + n ≤ hostStagingBase → (view s).stripedReady false a n = true →
       ∃ t, exec (.hostAccess a n true v) s = .next t ∧ t = put s (((view s).carveWrite a (toBytes n v.toNat)).hostDone)) ∧
     (∀ a n w, a + n ≤ hostStagingBase → (view s).stripedReady false a n = false →
       exec (.hostAccess a n w v) s = .next { s with
         die.hostWait := s.die.hostWait ++ [{ staging := false, addr := a, width := n, write := w, value := v }] })) ∧
  (∀ (s : State) (p : Nat) (frame : Bytes), s.die.live = true → Memory.wf s.mem = true →
     (((view s).service p).keepBad = false →
       ∃ t, exec (.serviceFrameReceive p frame true) s = .next t ∧
         (view t).service p = { (view s).service p with rxFcsErrCnt := satNat ((view s).service p).rxFcsErrCnt 1 } ∧
         (∀ q, q ≠ p → (view t).service q = (view s).service q) ∧ t.die.regs = s.die.regs ∧ t.mem = s.mem) ∧
     (((view s).service p).enabled = [] →
       ∃ t, exec (.serviceFrameReceive p frame false) s = .next t ∧
         (view t).service p = { (view s).service p with
           rxNodescCnt := satNat ((view s).service p).rxNodescCnt 1
           rxTruncCnt := if ((view s).service p).mtu < frame.length then satNat ((view s).service p).rxTruncCnt 1
             else ((view s).service p).rxTruncCnt } ∧
         (∀ q, q ≠ p → (view t).service q = (view s).service q) ∧ t.die.regs = s.die.regs ∧ t.mem = s.mem) ∧
     (∀ bad, exec (.serviceFrameReceive p frame bad) s = .next (put s ((view s).serviceFrame p frame bad))) ∧
     (∀ n q bad, (bad = false ∨ ((view s).service p).keepBad = true) → ((view s).service p).rx = [(n, q)] →
       q.enabled = true → 1 ≤ q.entries → ((view s).carveN (q.descriptor q.next + 12) 2).testBit 1 = false →
       (frame.take ((view s).service p).mtu).length ≤ (view s).carveN (q.descriptor q.next + 8) 4 →
       ∃ t, exec (.serviceFrameReceive p frame bad) s = .next t ∧
         (view t).service p = { (view s).service p with
           rx := [(n, { q with next := (q.next + 1) % q.entries })]
           rxTruncCnt := if ((view s).service p).mtu < frame.length then satNat ((view s).service p).rxTruncCnt 1
             else ((view s).service p).rxTruncCnt })) ∧
  (∀ (s : State) (p : Nat) (v : Word), s.die.live = true → Memory.wf s.mem = true → p < 2 →
     (∃ t, exec (.hostAccess (hostServiceBase + 0x10000 * p) 8 true v) s = .next t ∧ t.die.busError = false ∧
       (view t).service p = { (view s).service p with mtu := v.toNat % 2 ^ 16, keepBad := v.toNat.testBit 16 } ∧
       t.die.regs = s.die.regs ∧ t.mem = s.mem) ∧
     (∃ t, exec (.hostAccess (hostServiceBase + 0x10000 * p + 8) 8 false v) s = .next t ∧ t.die.busError = false ∧
       t.die.readData = ((view s).service p).rxNodescCnt ∧ t.die.regs = s.die.regs ∧ t.mem = s.mem ∧
       (view t).service p = { (view s).service p with rxNodescCnt := 0 }) ∧
     (∀ n q, n < 16 → ((view s).service p).tx = [(n, q)] → q.enabled = true → q.next < q.entries → 2 ≤ q.entries →
       v.toNat = (q.next + 1) % q.entries → v.toNat < 2 ^ 32 → s.die.bursts = [] →
       ((view s).carveN (q.descriptor q.next + 12) 2).testBit 0 = true →
       ∃ t, exec (.hostAccess (hostServiceBase + 0x10000 * p + 0x818 + 0x20 * n) 8 true v) s = .next t ∧
         ((view t).service p).sent = ((view s).service p).sent ++
           [(view s).carve (carveWrap ((view s).carveN (q.descriptor q.next) 8)) ((view s).carveN (q.descriptor q.next + 8) 4)] ∧
         mapGet ((view t).service p).tx n = some { q with next := (q.next + 1) % q.entries, tail := v.toNat }))

/-! ## The control core and the command queues (chapter 2) -/

/-- A command answers the state with `m` put back: what it does not work on, the queue and the Weighbridge, stays. -/
def Sys2Proof.runs (c : Instr) (s : State) (m : M) : Prop := exec c s = .next (put s m)

/-- Every register of two working states agrees, those of a list aside. -/
def Sys2Proof.sameRegs (v m : M) (l : List Nat) : Prop := ∀ a, a ∉ l → m.reg a = v.reg a

/-- A control core that can execute, in a module that runs, its group in no hold cycle, with no flipped bit in any memory. -/
def Sys2Proof.ccCanRun (s : State) (c : Nat) : Prop :=
  s.die.live = true ∧ c < 2312 ∧ ((view s).core c).ready = true ∧ (view s).groupHeld c = false ∧ s.die.ecc = []

/-- The seven instructions of the command extension take the effect R94 gives them: a command image into its engine's queue;
one half of a working register; predicates but for the constant predicate 0; the wait for a region; an arrival; and
fabric time with its latch. Each takes one cycle and four bytes of the program (R60, R72, R84 to R86, R92, R94, R250). -/
def Obligations.CommandExtensionRule : Prop :=
  ∀ (s : State) (c : Nat), ccCanRun s c →
    let v := view s
    let k := v.core c
    let done := k.advance 4 1
    (∀ rs1 cmd, (k.xr rs1).toNat % 32 = 0 → (k.xr rs1).toNat < 65536 →
      cmd = v.readN (memAddr c 4 (k.xr rs1).toNat) 32 → (k.queueOf (cmdEngine cmd)).length < 32 →
      runs (.cpush c rs1) s
        (v.setCore c { done with queue := k.queue ++ [{ push := k.pushNo, cmd }], pushNo := k.pushNo + 1 })) ∧
    (∀ idx high rs1, 128 ≤ idx → v.flag (injectReg c 5) 0 = false →
      runs (.ppatch c idx high rs1) s
        ((v.setCore c done).writeN (memAddr c 5 (8 * idx + 4 * bit high)) 4 (k.xr rs1).toNat)) ∧
    (∀ mask value, ∃ m, runs (.pset c mask value) s m ∧ sameRegs v m [coreReg c CORE_PRED] ∧
      m.die.cores = (v.setCore c done).die.cores ∧ m.mem = v.mem ∧ (m.preds c).testBit 0 = true ∧
      ∀ p, 0 < p → p < 16 → (m.preds c).testBit p = if mask.testBit p then value else (v.preds c).testBit p) ∧
    (∀ pred idx b invert, 0 < pred → pred < 16 → ∃ m, runs (.psetp c pred idx b invert) s m ∧
      sameRegs v m [coreReg c CORE_PRED] ∧ m.die.cores = (v.setCore c done).die.cores ∧ m.mem = v.mem ∧
      (m.preds c).testBit pred = ((v.param c idx).testBit b != invert) ∧
      ∀ p, 0 < p → p < 16 → p ≠ pred → (m.preds c).testBit p = (v.preds c).testBit p) ∧
    (∀ idx b invert, runs (.psetp c 0 idx b invert) s (v.setCore c done)) ∧
    (∀ space rs1 rs2,
      (∀ x ∈ k.scoreboard ++ k.queue.flatMap (fun q => cmdPresent q.push q.cmd),
        x.range.overlaps { space, len := (k.xr rs2).toNat, base := (k.xr rs1).toNat } = false) →
      runs (.waitr c space rs1 rs2) s (v.setCore c done)) ∧
    (∀ space rs1 rs2 x, x ∈ k.scoreboard →
      x.range.overlaps { space, len := (k.xr rs2).toNat, base := (k.xr rs1).toNat } = true →
      ∃ m, runs (.waitr c space rs1 rs2) s m ∧ (m.core c).pc = k.pc ∧ (m.core c).cycle = k.cycle + 1 ∧
        (m.core c).instret = k.instret ∧ m.mem = v.mem ∧
        sameRegs v m [coreReg c CORE_SB_STALL_CYCLE_CNT, coreReg c CORE_ELASTIC_WAIT_CYCLE_CNT]) ∧
    (∀ f blocking ending e, k.entry = some e →
      (v.members e).contains c = true → (∀ x ∈ v.die.fences, x.id ≠ f) →
      ∃ m, runs (.farrive c f blocking false ending) s m ∧
        m.die.fences = v.die.fences ++
          [{ id := f, entry := e, arrived := [c], lastCycle := k.cycle, withheld := v.flag PWR_STATUS 8 }] ∧
        (m.core c).arrival = some { fence := f, blocking := blocking || ending, ending, effective := true } ∧
        (m.core c).older = k.older ++ k.arrival.toList ∧ (m.core c).pc = k.pc + 4 ∧ m.die.regs = v.die.regs ∧
        m.mem = v.mem) ∧
    (∀ f blocking ending, k.drained = false → ∃ m, runs (.farrive c f blocking true ending) s m ∧
      m.die.fences = v.die.fences ∧ (m.core c).pc = k.pc + 4 ∧ m.die.regs = v.die.regs ∧ m.mem = v.mem ∧
      (m.core c).arrival = some { fence := f, blocking := blocking || ending, ending, effective := false }) ∧
    (∀ rd, runs (.ftrd c rd false) s
      (v.setCore c { (k.setX rd (BitVec.ofNat 32 v.copyTime)).advance 4 1 with ftLatch := v.copyTime >>> 32 % 2 ^ 32 })) ∧
    (∀ rd, runs (.ftrd c rd true) s (v.setCore c ((k.setX rd (BitVec.ofNat 32 k.ftLatch)).advance 4 1)))

/-- What a schedule fault of core `c` leaves: the core FAULTED with its queues and scoreboard kept, the fault counted and,
when no capture is held, captured with its cause, its engine and tag and its words; and the running step aborted
(R95 to R97, Table 2.14). -/
def Sys2Proof.faulted (v m : M) (c cause engine tag : Nat) (fromCc : Bool) (words : Nat) : Prop :=
  (m.core c).st = .faulted ∧ (m.core c).queue = (v.core c).queue ∧ (m.core c).scoreboard = (v.core c).scoreboard ∧
  m.regN (coreReg c CORE_SCHED_FAULT_CNT) = min (v.regN (coreReg c CORE_SCHED_FAULT_CNT) + 1) counterMax ∧
  (v.flag (coreReg c CORE_SCHED_FAULT) 63 = false →
    m.flag (coreReg c CORE_SCHED_FAULT) 63 = true ∧ m.fld (coreReg c CORE_SCHED_FAULT) 3 0 = cause ∧
    m.fld (coreReg c CORE_SCHED_FAULT) 5 4 = engine ∧ m.flag (coreReg c CORE_SCHED_FAULT) 6 = fromCc ∧
    m.fld (coreReg c CORE_SCHED_FAULT) 31 16 = tag ∧
    ∀ i, i < 4 → m.regN (coreReg c CORE_FAULT_CMD + 8 * i) = cmdWord words i) ∧
  (∀ x, v.die.step = some x → ∃ y, m.die.step = some y ∧ y.error = true ∧ y.schedFault = true)

/-- No control-space access waits anywhere. -/
def Sys2Proof.noneWaits (v : M) : Prop := (∀ p ∈ v.die.cores, p.2.csWait = []) ∧ ∀ p ∈ v.die.sites, p.2.csWait = []

/-- The control core fetches at its program counter and runs what the word there spells by Table 2.9; a word that is no
instruction is a schedule fault MALFORMED with that word captured (R94, R95, R642). -/
def Obligations.ControlCoreFetches : Prop :=
  ∀ (s : State) (c w : Nat), ccCanRun s c → ((view s).core c).pc + 4 ≤ 65536 →
    (view s).readN (memAddr c 4 ((view s).core c).pc) 4 = w →
    (∀ rs1, rs1 < 32 → w = rs1 * 2 ^ 15 + 0x0B → exec (.controlCoreInstruction c) s = exec (.cpush c rs1) s) ∧
    (∀ idx high rs1, idx < 256 → rs1 < 32 → w = idx * 2 ^ 24 + bit high * 2 ^ 20 + rs1 * 2 ^ 15 + 2 ^ 12 + 0x0B →
      exec (.controlCoreInstruction c) s = exec (.ppatch c idx high rs1) s) ∧
    (∀ mask value, mask < 2 ^ 16 → w = mask * 2 ^ 16 + bit value * 2 ^ 15 + 2 * 2 ^ 12 + 0x0B →
      exec (.controlCoreInstruction c) s = exec (.pset c mask value) s) ∧
    (∀ p idx b n, p < 16 → idx < 128 → b < 64 → w = idx * 2 ^ 25 + b * 2 ^ 19 + 3 * 2 ^ 12 + p * 2 ^ 8 + bit n * 2 ^ 7 + 0x0B →
      exec (.controlCoreInstruction c) s = exec (.psetp c p idx b n) s) ∧
    (∀ space rs1 rs2, space < 16 → rs1 < 32 → rs2 < 32 → w = space * 2 ^ 28 + rs2 * 2 ^ 20 + rs1 * 2 ^ 15 + 0x2B →
      exec (.controlCoreInstruction c) s = exec (.waitr c space rs1 rs2) s) ∧
    (∀ f b d e, f < 64 → w = bit e * 2 ^ 28 + bit d * 2 ^ 27 + bit b * 2 ^ 26 + f * 2 ^ 20 + 2 ^ 12 + 0x2B →
      exec (.controlCoreInstruction c) s = exec (.farrive c f b d e) s) ∧
    (∀ rd high, rd < 32 → w = bit high * 2 ^ 20 + 2 * 2 ^ 12 + rd * 2 ^ 7 + 0x2B →
      exec (.controlCoreInstruction c) s = exec (.ftrd c rd high) s) ∧
    (∀ rd rs1 imm, rd < 32 → rs1 < 32 → imm < 2048 → w = imm * 2 ^ 20 + rs1 * 2 ^ 15 + rd * 2 ^ 7 + 0x13 →
      runs (.controlCoreInstruction c) s ((view s).setCore c
        ((((view s).core c).setX rd (((view s).core c).xr rs1 + BitVec.ofNat 32 imm)).advance 4 1))) ∧
    (w % 4 = 3 → decodeRv32 w = none → noneWaits (view s) →
      ∃ m, runs (.controlCoreInstruction c) s m ∧ faulted (view s) m c 1 0 0 true w)

/-- The engine rows: core, engine, opcode and what the engine does with a command that issues (Table 2.4). -/
def Sys2Proof.engineRow : Instr → Option (Nat × Nat × Nat × Engine)
  | .mload c => some (c, 0, 1, mloadEngine)
  | .mmul c => some (c, 0, 2, mmulEngine false)
  | .mmulz c => some (c, 0, 3, mmulEngine true)
  | .mdrain c => some (c, 0, 4, mdrainEngine)
  | .mzero c => some (c, 0, 5, mzeroEngine)
  | .schain c => some (c, 1, 1, schainEngine)
  | .sdesc c => some (c, 1, 2, sdescEngine)
  | .stable c => some (c, 1, 3, stableEngine)
  | .sfall c => some (c, 1, 4, sfallEngine)
  | .dcopy c => some (c, 2, 1, dcopyEngine)
  | .dgather c => some (c, 2, 2, dgatherEngine)
  | .dscatter c => some (c, 2, 3, dscatterEngine)
  | .dsend c => some (c, 2, 4, dsendEngine)
  | .dhalo c => some (c, 2, 5, dhaloEngine)
  | .dfill c => some (c, 2, 6, dfillEngine)
  | .dhostrd c => some (c, 2, 7, { shapeOk := dhostShape, hold := noHold, run := dhostrdRun })
  | .dhostwr c => some (c, 2, 8, { shapeOk := dhostShape, hold := noHold, run := dhostwrRun })
  | .dput c => some (c, 2, 9, { shapeOk := dputShape, hold := noHold, run := dputRun })
  | .drecv c => some (c, 2, 10, { shapeOk := drecvShape, hold := noHold, run := drecvRun })
  | .qattend c => some (c, 3, 1, { shapeOk := qattendShape, hold := noHold, run := seamRun })
  | .qappend c => some (c, 3, 2, { shapeOk := qappendShape, hold := noHold, run := seamRun })
  | _ => none

/-- The engines of core `c` run, its group in no hold cycle, and the head of its queue `e` is `q`, a command of the row `o` of
the opcode table, which no fence holds. -/
def Sys2Proof.headOf (s : State) (c e : Nat) (o : OpSpec) (q : Queued) : Prop :=
  s.die.live = true ∧ ((view s).core c).engines = true ∧ (view s).groupHeld c = false ∧
  ((view s).core c).head e = some q ∧
  opSpec e (cmdOpcode q.cmd) = some o ∧ (cmdWff q.cmd = true → ((view s).core c).arrival = none)

/-- The words of a command that may run, its predicate and its parameters (R55, R67, R116): it goes on to the checks of its
shape as job `j`. -/
def Sys2Proof.jobAt (s : State) (c e : Nat) (o : OpSpec) (j : Job) : Prop :=
  headOf s c e o { push := j.push, cmd := j.cmd } ∧ malformedWords j.cmd = false ∧ (view s).predicate c j.cmd = true ∧
  tileCrossed ((view s).sterling c) j.cmd = false ∧ (view s).readParams c (cmdPbase j.cmd) o.params = (j.ps, view s) ∧
  malformedParams o j.cmd j.ps = false ∧ accBeyond ((view s).sterling c) j.cmd = false ∧ j.c = c

/-- Nothing holds a job's issue: no range in its way, room on the scoreboard, and no hold of its engine (R57, R75, R78, R80,
R123, R141). -/
def Sys2Proof.unheld (s : State) (j : Job) (eng : Engine) : Prop :=
  ((view s).core j.c).hazards j.push j.cmd = [] ∧
  ((view s).core j.c).scoreboard.length + (cmdPresent j.push j.cmd).length ≤ 48 ∧ eng.hold j (view s) = none ∧
  (view s).tokenHeld j.c j.a = false ∧ (view s).tokenHeld j.c j.b = false

/-- A counter of accesses and beats that lose a port or a link or wait for one, or of the hold cycles that this costs: an
access of one core may meet one of any other (R202 to R204, R209, R233, R234, R245). -/
def Sys2Proof.portCounter (a : Nat) : Prop :=
  ∃ x, a = coreReg x CORE_BANK_COLLIDE_CNT ∨ a = coreReg x CORE_SCRUB_COLLIDE_CNT ∨ a = coreReg x CORE_CC_BANK_WAIT_CYCLE_CNT ∨
    a = coreReg x CORE_ELASTIC_BANK_WAIT_CYCLE_CNT ∨ a = cluReg x CLU_STOPE_COLLIDE_CNT ∨
    a = cluReg x CLU_STOPE_ELASTIC_WAIT_CYCLE_CNT ∨ a = cluReg x SHAFT_LINK_COLLIDE_CNT ∨
    a = cluReg x SHAFT_ELASTIC_WAIT_CYCLE_CNT ∨ a = cluReg x CLU_SLIP_CYCLE_CNT

/-- Every register of two working states agrees, those of a list and the port counters aside. -/
def Sys2Proof.sameButPorts (v m : M) (l : List Nat) : Prop := ∀ a, a ∉ l → ¬ portCounter a → m.reg a = v.reg a

/-- The counter of issues that a command advances (R81). -/
def Sys2Proof.issueReg (j : Job) : Nat := coreReg j.c CORE_ENG_ISSUE_CNT + 8 * cmdEngine j.cmd

/-- A core, the count of its cycles aside. -/
def Sys2Proof.timeless (k : Core) : Core := { k with cycle := 0 }

/-- A command at issue, its accesses having taken their ports: it has left its queue, its ranges stand on the scoreboard, it is
in flight with its cycle, and its engine's issue is counted; no other core but for the cycles its control core waits, no
byte and no register but port counters has changed (R75, R81, R202, R203; Table 2.16). -/
def Sys2Proof.issued (v m : M) (j : Job) : Prop :=
  (m.core j.c).queue = (v.core j.c).queue.filter (fun q => q.push != j.push) ∧
  (m.core j.c).scoreboard = (v.core j.c).scoreboard ++ cmdEntries j.push j.cmd ∧
  (m.core j.c).flights = (v.core j.c).flights ++ [{ push := j.push, cmd := j.cmd, params := j.ps, fault := false, owed := [],
                                                         entry := v.entryOf j.c, issuedAt := v.schedCycle j.c }] ∧
  (∀ d, d ≠ j.c → timeless (m.core d) = timeless (v.core d)) ∧ m.mem = v.mem ∧ m.die.ecc = v.die.ecc ∧
  m.die.writes = v.die.writes ∧ m.regN (issueReg j) = min (v.regN (issueReg j) + 1) counterMax ∧ sameButPorts v m [issueReg j]

/-- An engine's work on the state `m` of a command at issue in state `v`, its accesses being `us`: the errors they meet are
captured, its reads deliver what stands in their cycles, its writes are recorded in theirs, and its flight keeps its
reads (R140, R205, R206, R218). -/
def Sys2Proof.engineWork (v m : M) (j : Job) (eng : Engine) (us : List RowUse) : M :=
  let r := (m.captureFirst j.c us).runTimed j eng (v.entryOf j.c) (v.schedCycle j.c) us
  r.updFlight j.c j.push fun f => { f with reads := timedReads j.c (v.schedCycle j.c) us ++ f.reads, seen := r.die.writeNo }

/-- The ranges of a job stay inside their spaces' extents, a REMOTE one inside that of the space its AUX names (R54, Table 2.3,
Table 3.8). -/
def Sys2Proof.insideExtents (j : Job) : Prop :=
  ∀ i, 1 ≤ i → i ≤ 3 → (cmdRange j.cmd i).present = true → (cmdRange j.cmd i).space ≤ REMOTE →
    (cmdRange j.cmd i).base + (cmdRange j.cmd i).bytes ≤
      spaceExtent (if (cmdRange j.cmd i).space = REMOTE then j.aux 19 16 else (cmdRange j.cmd i).space)

/-- Every engine command whose checks pass and that nothing holds issues: it leaves its queue, its ranges are outstanding, its
issue is counted, and its engine does its work on that state, in its cycles; outside a step, with no write recorded that it
could meet, that work is the engine's effect at once (R75, R81, R205). -/
def Obligations.EnginesIssue : Prop :=
  ∀ (i : Instr) (s : State) (e opcode : Nat) (eng : Engine) (o : OpSpec) (j : Job),
    engineRow i = some (j.c, e, opcode, eng) → o.opcode = opcode → jobAt s j.c e o j → eng.shapeOk j (view s) = true →
    unheld s j eng → insideExtents j → j.c < 2312 →
    ∃ m us, runs i s (engineWork (view s) m j eng us) ∧ issued (view s) m j ∧
      ((eng.run j m).die.step = none → s.die.writes = [] → s.die.ecc = [] →
        engineWork (view s) m j eng us = (eng.run j m).updFlight j.c j.push fun f =>
          { f with reads := timedReads j.c ((view s).schedCycle j.c) us ++ f.reads, seen := (eng.run j m).die.writeNo })

/-- The checks of R75 in their order: malformed words, a false predicate (the command is skipped and counted, and nothing
else is checked), a tile crossed or malformed parameters, the accumulator capacity, the shape; and a hazard or a full
scoreboard holds the command and changes nothing but counters and waits (R55, R67, R75, R76, R78, R80, R84, R116). -/
def Obligations.HeadChecksInOrder : Prop :=
  ∀ (i : Instr) (s : State) (c e opcode : Nat) (eng : Engine) (o : OpSpec) (q : Queued),
    engineRow i = some (c, e, opcode, eng) → o.opcode = opcode → headOf s c e o q → c < 2312 → noneWaits (view s) →
    (malformedWords q.cmd = true →
      ∃ m, runs i s m ∧ faulted (view s) m c 1 e (cmdTag q.cmd) false q.cmd) ∧
    (malformedWords q.cmd = false → (view s).predicate c q.cmd = false →
      ∃ m, runs i s m ∧ (m.core c).queue = ((view s).core c).queue.filter (fun x => x.push != q.push) ∧
        (m.core c).scoreboard = ((view s).core c).scoreboard ∧ (m.core c).flights = ((view s).core c).flights ∧
        m.regN (coreReg c CORE_PRED_SKIP_CNT) = min ((view s).regN (coreReg c CORE_PRED_SKIP_CNT) + 1) counterMax ∧
        sameRegs (view s) m [coreReg c CORE_PRED_SKIP_CNT] ∧ m.mem = (view s).mem) ∧
    (malformedWords q.cmd = false → (view s).predicate c q.cmd = true →
      (tileCrossed ((view s).sterling c) q.cmd = true →
        ∃ m, runs i s m ∧ faulted (view s) m c 1 e (cmdTag q.cmd) false q.cmd) ∧
      ∀ ps, tileCrossed ((view s).sterling c) q.cmd = false →
        (view s).readParams c (cmdPbase q.cmd) o.params = (ps, view s) →
        (malformedParams o q.cmd ps = true →
          ∃ m, runs i s m ∧ faulted (view s) m c 1 e (cmdTag q.cmd) false q.cmd) ∧
        (malformedParams o q.cmd ps = false → accBeyond ((view s).sterling c) q.cmd = true →
          ∃ m, runs i s m ∧ faulted (view s) m c 2 e (cmdTag q.cmd) false q.cmd) ∧
        (malformedParams o q.cmd ps = false → accBeyond ((view s).sterling c) q.cmd = false →
          let j : Job := { c, push := q.push, cmd := q.cmd, ps }
          (eng.shapeOk j (view s) = false →
            ∃ m, runs i s m ∧ faulted (view s) m c 3 e (cmdTag q.cmd) false q.cmd) ∧
          (eng.shapeOk j (view s) = true →
            (((view s).core c).hazards q.push q.cmd ≠ [] ∨
              48 < ((view s).core c).scoreboard.length + (cmdPresent q.push q.cmd).length) →
            ∃ m, runs i s m ∧ (m.core c).queue = ((view s).core c).queue ∧
              (m.core c).scoreboard = ((view s).core c).scoreboard ∧ m.mem = (view s).mem ∧
              sameRegs (view s) m [coreReg c CORE_SB_STALL_CYCLE_CNT, coreReg c CORE_SB_FULL_CYCLE_CNT,
                coreReg c CORE_ELASTIC_WAIT_CYCLE_CNT])))

/-- Fences: a drained arrival takes effect once nothing is queued or outstanding; a fence releases all its members at once, F
cycles after the last arrival, and not while an arrival is missing, an emergency hold withholds it or the group is in a
hold cycle; a core that did not stall keeps its own count; and the release of an entry's END_FENCE ends the entry, halts
its cores and compares its cycles, holds included, with BUDGET (R36, R86 to R89, R250, R251, R254, R262, R593). -/
def Obligations.FencesRelease : Prop :=
  ∀ (s : State), s.die.live = true → noneWaits (view s) →
    let v := view s
    (∀ c a e, (v.core c).st = .running → (v.core c).drained = true → (v.core c).arrival = some a → a.effective = false →
      (v.core c).older = [] → (v.core c).entry = some e → (v.members e).contains c = true →
      (∀ x ∈ v.die.fences, x.id ≠ a.fence) →
      ∃ m, runs (.fenceArrivalDrained c) s m ∧ (m.core c).arrival = some { a with effective := true } ∧
        m.die.fences = v.die.fences ++
          [{ id := a.fence, entry := e, arrived := [c], lastCycle := (v.core c).cycle, withheld := v.flag PWR_STATUS 8 }] ∧
        m.die.regs = v.die.regs ∧ m.mem = v.mem) ∧
    (∀ c, (v.core c).drained = false → runs (.fenceArrivalDrained c) s v) ∧
    (∀ (x : Fence) (t : Step) (members : List Nat) (cyc : Nat), v.die.fences.find? (fun y => y.id = x.id) = some x →
      v.die.step = some t → v.members x.entry = members → x.lastCycle + Config.fenceLatency = cyc →
      (∀ p ∈ t.entries, p.2 = .waiting → (v.entry p.1).startFence ≠ x.id) →
      ((∃ c ∈ members, c ∉ x.arrived) ∨ x.withheld = true ∨ (∃ c ∈ members, v.groupHeld c = true) →
        runs (.fenceRelease x.id) s v) ∧
      (x.withheld = false → members ≠ [] → (∀ c ∈ members, v.groupHeld c = false) →
        (∀ c ∈ members, c ∈ x.arrived ∧ (v.core c).endsAt x.id = false) →
        ∃ m, runs (.fenceRelease x.id) s m ∧ m.die.fences = v.die.fences.filter (fun y => y.id != x.id) ∧
          (∀ c ∈ members, m.core c = (v.core c).release x.id cyc) ∧ (∀ c, c ∉ members → m.core c = v.core c) ∧
          m.die.step = v.die.step ∧ sameRegs v m (members.map fun c => coreReg c CORE_FENCE_WAIT_CYCLE_CNT) ∧ m.mem = v.mem) ∧
      (x.withheld = false → members ≠ [] → (∀ c ∈ members, v.groupHeld c = false) →
        (∀ c ∈ members, c ∈ x.arrived ∧ (v.core c).endsAt x.id = true) → (v.entry x.entry).endFence = x.id →
        ∃ m y, runs (.fenceRelease x.id) s m ∧ m.die.step = some y ∧ mapGet y.entries x.entry = some .released ∧
          (∀ c ∈ members, (m.core c).st = v.restSt c ∧ (m.core c).entry = none) ∧ m.mem = v.mem ∧
          ((v.entry x.entry).budget < cyc + t.heldCycles x.entry → m.regN FMN_SEQ_BUDGET_OVR_CNT =
            min (v.regN FMN_SEQ_BUDGET_OVR_CNT + 1) counterMax) ∧
          (cyc + t.heldCycles x.entry ≤ (v.entry x.entry).budget → m.reg FMN_SEQ_BUDGET_OVR_CNT = v.reg FMN_SEQ_BUDGET_OVR_CNT)))

/-- The end of commands, and what ends a wait: a lockstep command retires, in no hold cycle, and its ranges leave the
scoreboard, and a fault it met is raised then, what it read being brought up to date first; an elastic one completes once nothing is owed to it, and a DPUT that waits gives up its read range; a
wait past its limit is a schedule fault of what waits, and an entry that has not started one of the first core of its group;
clearing the capture's VALID empties the core and zeroes its engines; a firmware write of a parameter register is dropped
and counted during a step of the core (R58, R66, R81, R90, R95, R117, R177, R261). -/
def Obligations.CommandsAndWaitsEnd : Prop :=
  ∀ (s : State) (c : Nat), s.die.live = true → noneWaits (view s) → s.die.ecc = [] → c < 2312 →
    let v := view s
    let k := v.core c
    (∀ f, k.engines = true → k.flights.find? (fun x => x.push = f.push) = some f → cmdElastic f.cmd = false →
      (v.groupHeld c = true → runs (.commandRetire c f.push) s v) ∧
      (v.groupHeld c = false →
        (∃ m, runs (.commandRetire c f.push) s m ∧ (m.core c).queue = k.queue ∧
          (m.core c).scoreboard = k.scoreboard.filter (fun x => x.push != f.push)) ∧
        (v.die.writes.any (v.overtakes c f) = false →
          (f.fault = false → runs (.commandRetire c f.push) s (v.setCore c (k.retire f.push))) ∧
          (f.fault = true → ∃ m, runs (.commandRetire c f.push) s m ∧
            faulted (v.setCore c (k.retire f.push)) m c 3 (cmdEngine f.cmd) (cmdTag f.cmd) false f.cmd)))) ∧
    (∀ f, k.engines = true → k.flights.find? (fun x => x.push = f.push) = some f → cmdElastic f.cmd = true →
      runs (.elasticCompletion c f.push) s (if f.owed.isEmpty then v.setCore c (k.retire f.push)
        else if takesAtIssue f.cmd then v.setCore c (k.taken f.push) else v)) ∧
    (∀ x, k.engines = true → k.oldestWait = some (4, x) → ∃ m, runs (.waitWatchdog c) s m ∧
      faulted v m c 4 0 0 true (v.readN (memAddr c 4 k.lastPc) 4)) ∧
    (∀ w x q, k.engines = true → k.oldestWait = some (w, x) → w < 4 → k.head w = some q →
      ∃ m, runs (.waitWatchdog c) s m ∧ faulted v m c 4 w (cmdTag q.cmd) false q.cmd) ∧
    (∀ e t rest, v.die.step = some t → mapGet t.entries e = some .waiting →
      v.members e = c :: rest →
      ∃ m engine tag cc words, runs (.seqWatchdog e) s m ∧ faulted v m c 4 engine tag cc words) ∧
    (v.flag (coreReg c CORE_SCHED_FAULT) 63 = true → k.st = .faulted →
      ∃ m, runs (.clearSchedFault c) s m ∧ m.flag (coreReg c CORE_SCHED_FAULT) 63 = false ∧
        (m.core c).st = v.restSt c ∧ (m.core c).queue = [] ∧ (m.core c).scoreboard = [] ∧ (m.core c).tileK = [] ∧
        m.fld (coreReg c CORE_MXE_STATUS) 1 0 = 0 ∧ (∀ off, off < 0x10000 → m.read (memAddr c 2 off) 1 = [0])) ∧
    (v.flag (coreReg c CORE_SCHED_FAULT) 63 = false → runs (.clearSchedFault c) s v) ∧
    (∀ idx value, idx < 256 → v.flag (injectReg c 5) 0 = false →
      ∃ m, runs (.parameterRegisterWrite c idx value) s m ∧
        (k.st = .running ∨ (k.st ≠ .retired ∧ v.inUse c = true) → m.mem = v.mem ∧
          m.regN (coreReg c CORE_PARAM_WR_DROP_CNT) = min (v.regN (coreReg c CORE_PARAM_WR_DROP_CNT) + 1) counterMax ∧
          sameButPorts v m [coreReg c CORE_PARAM_WR_DROP_CNT]) ∧
        (k.st = .retired → m.mem = v.mem ∧ sameButPorts v m []) ∧
        (k.st ≠ .running → k.st ≠ .retired → v.inUse c = false →
          m.mem = (v.writeN (memAddr c 5 (8 * idx)) 8 value.toNat).mem ∧ sameButPorts v m []))

/-! ## What the engines leave (chapters 3 to 5, 7, 11 and 14) -/

/-- An engine command that issues, with no flipped bit anywhere, no injection armed on its core or its site's Stope, and no
write recorded that its accesses could meet in time. -/
def Sys2Proof.issues (i : Instr) (s : State) (j : Job) : Prop :=
  ∃ e eng o, engineRow i = some (j.c, e, o.opcode, eng) ∧ jobAt s j.c e o j ∧ eng.shapeOk j (view s) = true ∧
    unheld s j eng ∧ insideExtents j ∧ j.c < 2312 ∧ s.die.ecc = [] ∧ s.die.writes = [] ∧ (view s).flag (injectReg j.c 0) 0 = false ∧
    (view s).flag (injectReg j.c 7) 0 = false

/-- The bytes of a space of core `c`, as a command reads them. -/
def Sys2Proof.bytesIn (m : M) (c space off n : Nat) : Bytes := (m.spaceRead c space off n).1

/-- Every byte outside a range of addresses reads as before. -/
def Sys2Proof.sameBytes (v m : M) (a n : Nat) : Prop := ∀ x, x < a ∨ a + n ≤ x → m.read x 1 = v.read x 1

/-- MMUL and MMULZ of INT8: each element of the tile becomes, modulo 2^32, its old value (zero for MMULZ) plus the sum over
K of activation times weight, an out-of-bound activation counting as zero; the K count of the tile grows by the K extent;
and nothing but the tile and its counts changes. MZERO clears its tile, sets its kind from its flag and its K count to zero;
MLOAD fills a plane's columns, zero in every element beyond the bounds, and marks it valid with its format, or, with the
drain-scale flag, loads the 64 scales; MDRAIN to INT32 copies an integer tile's rows (R100, R106, R107, R110, R112, R119,
R122, R125 to R128). -/
def Obligations.MatrixCommands : Prop :=
  (∀ (s : State) (j : Job) (zero : Bool), issues (if zero then .mmulz j.c else .mmul j.c) s j → j.ctl 3 0 = 6 →
     (view s).sterling j.c = false →
     let v := view s
     let tile := memAddr j.c 2 (0x2000 * j.w.tile)
     ∃ m, runs (if zero then .mmulz j.c else .mmul j.c) s m ∧
       (∀ r col, r < 32 → col < 64 →
         m.readN (tile + 4 * (64 * r + col)) 4 =
           unsigned ((if zero then 0 else signed (v.readN (tile + 4 * (64 * r + col)) 4) 32) +
             ((List.range (j.d 2)).map fun k =>
               (if r < j.bd 0 ∧ k < j.bd 2 then
                   signed (ofBytes (bytesIn v j.c SCRATCH (j.a.base + j.inner 2 * r + k) 1)) 8
                 else 0) *
                 signed (v.readN (planeAddr j.c (j.flags % 2) + 512 * col + k) 1) 8).sum) 32) ∧
       mapGet (m.core j.c).tileK j.w.tile = some ((if zero then 0 else mapGetD (v.core j.c).tileK j.w.tile 0) + j.d 2) ∧
       (zero = true → m.tileInt j.c j.w.tile = true) ∧ sameBytes v m tile 0x2000 ∧
       sameButPorts v m [issueReg j, coreReg j.c CORE_MXE_STATUS]) ∧
  (∀ (s : State) (j : Job),
     let v := view s
     (issues (.mzero j.c) s j →
       ∃ m, runs (.mzero j.c) s m ∧
         (∀ off, off < tileSize (v.sterling j.c) →
           m.read (memAddr j.c 2 (j.w.tile * tileSize (v.sterling j.c) + off)) 1 = [0]) ∧
         m.tileInt j.c j.w.tile = j.flags.testBit 0 ∧ mapGet (m.core j.c).tileK j.w.tile = some 0 ∧
         sameBytes v m (memAddr j.c 2 (j.w.tile * tileSize (v.sterling j.c))) (tileSize (v.sterling j.c)) ∧
         sameButPorts v m [issueReg j, coreReg j.c CORE_MXE_STATUS]) ∧
     (issues (.mload j.c) s j → isDscale j.cmd = false →
       ∃ m, runs (.mload j.c) s m ∧ m.planeValid j.c (j.flags % 2) = true ∧ m.planeFmt j.c (j.flags % 2) = j.ctl 3 0 ∧
         (∀ col, col < j.bd 1 → m.read (planeAddr j.c (j.flags % 2) + 512 * col) (elemBytes (j.ctl 3 0) (j.bd 0)) =
           onlyElems (j.ctl 3 0) (j.bd 0) (bytesIn v j.c LODE (j.a.base + j.inner 2 * col) (elemBytes (j.ctl 3 0) (j.bd 0)))) ∧
         (∀ col off, col < 64 → off < 512 → (j.bd 1 ≤ col ∨ elemBytes (j.ctl 3 0) (j.bd 0) ≤ off) →
           m.read (planeAddr j.c (j.flags % 2) + 512 * col + off) 1 = [0]) ∧
         sameButPorts v m [issueReg j, coreReg j.c CORE_MXE_STATUS] ∧
         sameBytes v m (planeAddr j.c (j.flags % 2)) 0x10000) ∧
     (issues (.mload j.c) s j → isDscale j.cmd = true →
       ∃ m, runs (.mload j.c) s m ∧ m.mem = v.mem ∧
         (∀ col, col < 64 → m.dscale j.c col = BitVec.ofNat 32 (ofBytes (bytesIn v j.c LODE (j.a.base + 4 * col) 4))) ∧
         sameButPorts v m (issueReg j :: (List.range 32).map fun i => coreReg j.c CORE_DSCALE + 8 * i)) ∧
     (issues (.mdrain j.c) s j → j.ctl 3 0 = 8 → v.sterling j.c = false → (j.bd 0 ≤ 1 ∨ 4 * j.bd 1 ≤ j.inner 4) →
       ∃ m, runs (.mdrain j.c) s m ∧
         (∀ r col, r < j.bd 0 → col < j.bd 1 →
           bytesIn m j.c j.w.space (j.w.base + j.inner 4 * r + 4 * col) 4 =
             v.read (memAddr j.c 2 (0x2000 * j.a.tile + 4 * (64 * r + col))) 4) ∧
         sameButPorts v m [issueReg j]))

/-- The bytes a job's row takes at its destination do not overlap another row's. -/
def Sys2Proof.rowsApart (j : Job) : Prop :=
  ∀ x ∈ j.rows, ∀ y ∈ j.rows, x ≠ y →
    j.outer 4 * x.1 + j.inner 4 * x.2 + 16 * j.bd 0 ≤ j.outer 4 * y.1 + j.inner 4 * y.2 ∨
    j.outer 4 * y.1 + j.inner 4 * y.2 + 16 * j.bd 0 ≤ j.outer 4 * x.1 + j.inner 4 * x.2

/-- A beat of a job: from its core to the core its AUX names, with the token of its flag, of at most eight granules (R139,
R228; Table 3.8). -/
def Sys2Proof.beatOf (v : M) (j : Job) (b : Beat) : Prop :=
  b.source = j.c ∧ b.dest = v.remoteCore j ∧ b.memory = spaceMem (j.aux 19 16) ∧ b.token = j.flags.testBit 0 ∧
    b.granules.length ≤ 8 ∧ b.atEject = false ∧ b.inRouter = false ∧ b.late = false

/-- What a flight owes after its issue. -/
def Sys2Proof.owes (m : M) (j : Job) (l : List Nat) : Prop := ∃ f ∈ (m.core j.c).flights, f.push = j.push ∧ f.cmd = j.cmd ∧ f.owed = l

/-- The elastic commands: DHOSTRD brings a window's bytes, and zeros where the window is not granted, and DHOSTWR moves its
bytes to a window, and none where it is not granted, each with one violation there if its window range is present; DPUT to
this module itself sends its range in puts of at most 65,536 bytes and waits for each, and to another, which it has a next
hop to, it waits for as many; DRECV binds its window; QATTEND and QAPPEND reach every Seam controller's queue, counted where
it is full, and wait for all 32 (R58, R284, R294, R452, R455, R537, R650). -/
def Obligations.ElasticCommandsStart : Prop :=
  ∀ (s : State) (j : Job),
    let v := view s
    (issues (.dhostrd j.c) s j → v.hostWindow (j.aux 5 0) false = none →
      ∃ m, runs (.dhostrd j.c) s m ∧ bytesIn m j.c j.w.space j.w.base j.w.bytes = zeros j.w.bytes ∧
        (j.a.present = true → m.regN (coreReg j.c CORE_VIOL_CNT) = min (v.regN (coreReg j.c CORE_VIOL_CNT) + 1) counterMax) ∧
        (j.a.present = false → m.reg (coreReg j.c CORE_VIOL_CNT) = v.reg (coreReg j.c CORE_VIOL_CNT))) ∧
    (∀ jr base size, issues (.dhostrd j.c) s j → v.hostWindow (j.aux 5 0) false = some (jr, base, size) →
      j.a.base + j.a.bytes ≤ size → s.die.bursts = [] →
      ∃ m, runs (.dhostrd j.c) s m ∧ sameButPorts v m [issueReg j] ∧
        bytesIn m j.c j.w.space j.w.base j.w.bytes = (v.stripedRead (windowAddr jr) (base + j.a.base) j.a.bytes 2).1) ∧
    (issues (.dhostwr j.c) s j → v.hostWindow (j.aux 5 0) true = none →
      ∃ m, runs (.dhostwr j.c) s m ∧ m.mem = v.mem ∧
        (j.w.present = true → m.regN (coreReg j.c CORE_VIOL_CNT) = min (v.regN (coreReg j.c CORE_VIOL_CNT) + 1) counterMax) ∧
        (j.w.present = false → m.reg (coreReg j.c CORE_VIOL_CNT) = v.reg (coreReg j.c CORE_VIOL_CNT))) ∧
    (∀ jr base size, issues (.dhostwr j.c) s j → v.hostWindow (j.aux 5 0) true = some (jr, base, size) →
      j.w.base + j.w.bytes ≤ size → s.die.bursts = [] →
      ∃ m, runs (.dhostwr j.c) s m ∧
        m.mem = (v.stripedWrite (windowAddr jr) (base + j.w.base) (bytesIn v j.c j.a.space j.a.base j.a.bytes) 2).mem ∧
        m.reg (coreReg j.c CORE_VIOL_CNT) = v.reg (coreReg j.c CORE_VIOL_CNT)) ∧
    (issues (.dput j.c) s j → j.aux 31 16 = v.moduleId →
      ∃ m, runs (.dput j.c) s m ∧ m.mem = v.mem ∧
        owes m j ((List.range (ceilDiv j.a.bytes 65536)).map fun i => j.w.base + 65536 * i) ∧
        (m.die.loopback.drop v.die.loopback.length).map (fun x => (x.1, msgType x.2, msgTs x.2 12 2, msgTs x.2 16 4, msgBody x.2)) =
          (List.range (ceilDiv j.a.bytes 65536)).map fun i =>
            (1, 1, j.aux 11 0, (j.w.base + 65536 * i) % 2 ^ 32,
              bytesIn v j.c j.a.space (j.a.base + 65536 * i) (min 65536 (j.a.bytes - 65536 * i)))) ∧
    (issues (.dput j.c) s j → j.aux 31 16 ≠ v.moduleId → v.nextHops (j.aux 31 16) ≠ [] →
      ∃ m, runs (.dput j.c) s m ∧ m.mem = v.mem ∧
        owes m j ((List.range (ceilDiv j.a.bytes 65536)).map fun i => j.w.base + 65536 * i)) ∧
    (issues (.drecv j.c) s j → (∀ e ∈ v.die.earlyPuts, e.window ≠ j.aux 11 0) → j.w.present = true →
      ∃ m x, runs (.drecv j.c) s m ∧ m.mem = v.mem ∧ owes m j [0] ∧ mapGet m.die.putWindows (j.aux 11 0) = some x ∧
        x.core = j.c ∧ x.push = j.push ∧ x.space = j.w.space ∧ x.base = j.w.base ∧ x.bytes = j.w.bytes ∧
        x.missing = List.range j.w.len ∧ sameButPorts v m [issueReg j]) ∧
    (∀ i, i = .qattend j.c ∨ i = .qappend j.c → issues i s j →
      ∃ m, runs i s m ∧ m.mem = v.mem ∧ owes m j (List.range 32) ∧
        ∀ k, k < 32 → (m.seam k).queue = (v.seam k).queue ++ [(j.c, j.push)] ∧
          m.regN (seamReg k SEAM_REQ_QUEUE_FULL_CYCLE_CNT) =
            if (v.seam k).queue.length < 512 then v.regN (seamReg k SEAM_REQ_QUEUE_FULL_CYCLE_CNT)
            else min (v.regN (seamReg k SEAM_REQ_QUEUE_FULL_CYCLE_CNT) + 1) counterMax)

/-- Bytes of core `c`'s space that a job may write: its range W. -/
def Sys2Proof.staysInW (i : Instr) (s : State) (j : Job) : Prop :=
  ∃ m, runs i s m ∧ sameButPorts (view s) m [issueReg j] ∧
    sameBytes (view s) m (memAddr j.c (spaceMem j.w.space) j.w.base) j.w.bytes

/-- The data mover inside a core and over the Shaft: DCOPY and DFILL write every in-bound row, DGATHER the row each index
names or the pad value, DSCATTER each row to the place its index names, the last writer winning and a bad index
writing nothing, where no range that is written overlaps one that is read; overlapping or not, they complete and write
inside W alone. DSEND and DHALO put every in-bound granule on the Shaft once, in order, in as many beats as SHAPE has
groups of 8, and change nothing at home. A beat at its ejection port enters the site's buffer, or is counted and waits in the
router while the buffer holds 16; at its landing cycle it is gone, the beat that waited longest takes its place, and, where no
command in flight reads its granules, it writes them and nothing else, and leaves what stood there to the reads of its cycle
and of earlier ones; or, while it is still on its way, its group holds and the lateness is counted once (R132, R137 to R140,
R142, R228, R234 to R237, R640, R645 to R648). -/
def Obligations.DataMoverMoves : Prop :=
  (∀ (s : State) (j : Job),
     let v := view s
     let dst := fun (x : Nat × Nat) => j.w.base + j.outer 4 * x.1 + j.inner 4 * x.2
     let src := fun (x : Nat × Nat) => j.a.base + j.outer 2 * x.1 + j.inner 2 * x.2
     let index := fun i => signed (ofBytes (bytesIn v j.c j.b.space (j.b.base + 4 * i) 4)) 32
     (issues (.dcopy j.c) s j → staysInW (.dcopy j.c) s j) ∧
     (issues (.dfill j.c) s j → staysInW (.dfill j.c) s j) ∧
     (issues (.dgather j.c) s j → staysInW (.dgather j.c) s j) ∧
     (issues (.dscatter j.c) s j → staysInW (.dscatter j.c) s j) ∧
     (issues (.dcopy j.c) s j → rowsApart j → j.w.overlaps j.a = false →
       ∃ m, runs (.dcopy j.c) s m ∧ sameButPorts v m [issueReg j] ∧
         ∀ x ∈ j.rows, bytesIn m j.c j.w.space (dst x) (16 * j.bd 0) = bytesIn v j.c j.a.space (src x) (16 * j.bd 0)) ∧
     (issues (.dfill j.c) s j → rowsApart j →
       ∃ m, runs (.dfill j.c) s m ∧ sameButPorts v m [issueReg j] ∧
         ∀ x ∈ j.rows, bytesIn m j.c j.w.space (dst x) (16 * j.bd 0) = (List.replicate (j.bd 0) (v.jobPad j)).flatten) ∧
     (issues (.dgather j.c) s j → j.overlapping = false → (j.bd 1 ≤ 1 ∨ 16 * j.bd 0 ≤ j.inner 4) →
       ∃ m, runs (.dgather j.c) s m ∧ sameButPorts v m [issueReg j] ∧
         ∀ i, i < j.bd 1 → bytesIn m j.c j.w.space (j.w.base + j.inner 4 * i) (16 * j.bd 0) =
           if 0 ≤ index i ∧ index i < j.bd 2 then bytesIn v j.c j.a.space (j.a.base + j.inner 2 * (index i).toNat) (16 * j.bd 0)
           else (List.replicate (j.bd 0) (v.jobPad j)).flatten) ∧
     (issues (.dscatter j.c) s j → j.overlapping = false →
       ∃ m, runs (.dscatter j.c) s m ∧ sameButPorts v m [issueReg j] ∧
         (∀ i, i < j.bd 1 → 0 ≤ index i → index i < j.bd 2 →
           (∀ k, i < k → k < j.bd 1 → 0 ≤ index k → index k < j.bd 2 →
             j.inner 4 * (index k).toNat + 16 * j.bd 0 ≤ j.inner 4 * (index i).toNat ∨
             j.inner 4 * (index i).toNat + 16 * j.bd 0 ≤ j.inner 4 * (index k).toNat) →
           bytesIn m j.c j.w.space (j.w.base + j.inner 4 * (index i).toNat) (16 * j.bd 0) =
             bytesIn v j.c j.a.space (j.a.base + j.inner 2 * i) (16 * j.bd 0)) ∧
         ((∀ i, i < j.bd 1 → index i < 0 ∨ j.bd 2 ≤ index i) → m.mem = v.mem)) ∧
     (issues (.dsend j.c) s j →
       ∃ m new, runs (.dsend j.c) s m ∧ m.die.beats = v.die.beats ++ new ∧ (∀ b ∈ new, beatOf v j b) ∧
         new.length = j.d 2 * j.d 1 * ceilDiv (j.d 0) 8 ∧
         new.flatMap (·.granules) = (j.rows.flatMap fun x => (List.range (j.bd 0)).map fun g =>
           (dst x + 16 * g, bytesIn v j.c j.a.space (src x + 16 * g) 16)) ∧
         m.mem = v.mem ∧ sameButPorts v m [issueReg j]) ∧
     (issues (.dhalo j.c) s j →
       ∃ m new, runs (.dhalo j.c) s m ∧ m.die.beats = v.die.beats ++ new ∧ (∀ b ∈ new, beatOf v j b) ∧
         new.length = j.haloRows * ceilDiv (j.d 1) 8 ∧
         new.flatMap (·.granules) = ((List.range j.haloRows).flatMap fun i => (List.range (j.bd 1)).map fun g =>
           (j.w.base + j.inner 4 * i + 16 * g, match j.haloRow i with
             | some r => bytesIn v j.c j.a.space (j.a.base + j.inner 2 * r + 16 * g) 16
             | none => v.jobPad j)) ∧
         m.mem = v.mem ∧ sameButPorts v m [issueReg j])) ∧
  (∀ (s : State) (b : Beat), s.die.live = true → s.die.ecc = [] → (view s).die.beats.find? (fun x => x.id = b.id) = some b →
     let v := view s
     let waiting := (v.die.beats.filter fun x => x.atEject && x.dest / 17 == b.dest / 17).length
     (b.atEject = false → b.inRouter = false → waiting < 16 →
       ∃ m, runs (.beatEjectArrival b.id) s m ∧ m.die.regs = v.die.regs ∧ m.mem = v.mem ∧
         m.die.beats.find? (fun x => x.id = b.id) = some { b with atEject := true }) ∧
     (b.atEject = false → b.inRouter = false → 16 ≤ waiting →
       runs (.beatEjectArrival b.id) s ((v.count (cluReg (b.dest / 17) SHAFT_EJECT_FULL_CNT)).updBeat b.id
         fun x => { x with inRouter := true })) ∧
     (b.atEject = true ∨ b.inRouter = true → runs (.beatEjectArrival b.id) s v) ∧
     (b.atEject = true → ∃ m, runs (.beatLanding b.id) s m ∧ (∀ x ∈ m.die.beats, x.id ≠ b.id) ∧
       ∀ w, (v.die.beats.filter fun x => x.id != b.id).find? (fun x => x.inRouter && x.dest / 17 == b.dest / 17) = some w →
         ∃ x ∈ m.die.beats, x.id = w.id ∧ x.inRouter = false ∧ x.atEject = true) ∧
     (b.atEject = true → (b.memory = 1 ∨ b.memory = 3) → v.die.writes = [] →
       (∀ f ∈ (v.core b.dest).flights, ∀ r ∈ f.reads, ∀ g ∈ b.granules,
         r.addr + r.len ≤ memAddr b.dest b.memory g.1 ∨ memAddr b.dest b.memory g.1 + 16 ≤ r.addr) →
       (∀ g ∈ b.granules, g.2.length = 16 ∧ g.1 + 16 ≤ spaceExtent (if b.memory = 1 then SCRATCH else OPC)) →
       b.granules.Pairwise (fun x y => x.1 + 16 ≤ y.1 ∨ y.1 + 16 ≤ x.1) → v.flag (injectReg b.dest 0) 0 = false →
       ∃ m, runs (.beatLanding b.id) s m ∧
         (∀ w, (v.die.beats.filter fun x => x.id != b.id).find? (fun x => x.inRouter && x.dest / 17 == b.dest / 17) = some w →
           { w with inRouter := false, atEject := true } ∈ m.die.beats) ∧
         (∀ g ∈ b.granules, m.read (memAddr b.dest b.memory g.1) 16 = g.2) ∧
         (∀ x, (∀ g ∈ b.granules, x < memAddr b.dest b.memory g.1 ∨ memAddr b.dest b.memory g.1 + 16 ≤ x) →
           m.read x 1 = v.read x 1) ∧
         (v.die.step ≠ none → v.awaited b = false → ∀ g ∈ b.granules, ∃ x ∈ m.die.writes,
           x.addr = memAddr b.dest b.memory g.1 ∧ x.new = g.2 ∧ x.old = v.read x.addr 16 ∧ x.cycle = b.land ∧ x.shown = b.land + 1) ∧
         sameButPorts v m [] ∧ ∀ d, timeless (m.core d) = timeless (v.core d)) ∧
     (b.atEject = false →
       ∃ m, runs (.beatLanding b.id) s m ∧ m.mem = v.mem ∧
         m.die.beats.find? (fun x => x.id = b.id) = some { b with late := true } ∧
         (∀ x ∈ v.groupSitesOf b.dest,
           m.regN (cluReg x CLU_SLIP_CYCLE_CNT) = min (v.regN (cluReg x CLU_SLIP_CYCLE_CNT) + 1) counterMax) ∧
         m.regN (cluReg (b.dest / 17) CLU_LATE_LAND_CNT) =
           min (v.regN (cluReg (b.dest / 17) CLU_LATE_LAND_CNT) + if b.late then 0 else 1) counterMax))

/-- The Smelter: STABLE loads the angle table and SDESC descriptor entries, marked valid; SCHAIN of one lane-wise stage
writes, for every in-bound element of its row, that stage's result; SFALL whose program starts with END ends at once, and
one whose first instruction is not loaded is to fault when it retires (R143, R158, R163 to R165, R188, R192). -/
def Obligations.SmelterCommands : Prop :=
  ∀ (s : State) (j : Job),
    let v := view s
    (issues (.stable j.c) s j →
      ∃ m, runs (.stable j.c) s m ∧ m.flag (coreReg j.c CORE_SML_STATUS) 17 = true ∧
        m.read (memAddr j.c 6 angleOff) 512 = bytesIn v j.c j.a.space j.a.base 512 ∧
        sameBytes v m (memAddr j.c 6 angleOff) 512 ∧ sameButPorts v m [issueReg j, coreReg j.c CORE_SML_STATUS]) ∧
    (issues (.sdesc j.c) s j → j.flags % 2 = 0 →
      ∃ m, runs (.sdesc j.c) s m ∧
        m.read (memAddr j.c 6 (64 * j.ctl 5 0)) (64 * j.d 0) = bytesIn v j.c j.a.space j.a.base (64 * j.d 0) ∧
        (∀ i, i < j.d 0 → m.descValid j.c (j.ctl 5 0 + i) = true) ∧
        sameBytes v m (memAddr j.c 6 (64 * j.ctl 5 0)) (64 * j.d 0) ∧
        sameButPorts v m [issueReg j, coreReg j.c CORE_SML_DESC_VALID]) ∧
    (∀ (f : F32 → F32) (g : Stage), issues (.schain j.c) s j → j.bd 1 = 1 → descStages (v.desc j.c j.desc) = [g] →
      (g.type = sEXP2 ∧ f = laneExp2 ∨ g.type = sLOG2 ∧ f = laneLog2 ∨ g.type = sRCP ∧ f = laneRcp ∨
        g.type = sRSQ ∧ f = laneRsq ∨ g.type = sICVT ∧ f = laneIcvt g.mode) →
      j.afmt = 7 → j.wfmt = 7 → j.a.space ≠ ACC → j.ctl 16 16 = 0 → j.ctl 17 17 = 0 → j.sinkOnly = false →
      ∃ m, runs (.schain j.c) s m ∧ m.fld (coreReg j.c CORE_SML_STATUS) 5 0 = j.desc ∧
        (∀ e, e < j.bd 0 → bytesIn m j.c j.w.space (j.w.base + 4 * e) 4 =
          toBytes 4 (f (BitVec.ofNat 32 (ofBytes (bytesIn v j.c j.a.space (j.a.base + 4 * e) 4)))).toNat) ∧
        sameButPorts v m [issueReg j, coreReg j.c CORE_SML_STATUS, coreReg j.c CORE_SML_NAN_CNT]) ∧
    (issues (.sfall j.c) s j → mapGetD (v.core j.c).fallValid (j.ctl 7 0) false = true →
      v.readN (memAddr j.c 6 (storeOff + 8 * j.ctl 7 0)) 8 / 2 ^ 58 = 0x1C →
      ∃ m, runs (.sfall j.c) s m ∧ (m.core j.c).fall.running = false ∧ m.mem = v.mem ∧ sameButPorts v m [issueReg j] ∧
        ∃ f ∈ (m.core j.c).flights, f.push = j.push ∧ f.fault = false) ∧
    (issues (.sfall j.c) s j → mapGetD (v.core j.c).fallValid (j.ctl 7 0) false = false →
      ∃ m, runs (.sfall j.c) s m ∧ (m.core j.c).fall.running = false ∧ m.mem = v.mem ∧
        ∃ f ∈ (m.core j.c).flights, f.push = j.push ∧ f.fault = true)

/-! ## Fallback mode (chapter 4) -/

/-- A core's engines may run: no schedule fault stops them, and its group is in no hold cycle (R95, R245). -/
def Sys2Proof.enginesRun (s : State) (c : Nat) : Prop :=
  s.die.live = true ∧ ((view s).core c).engines = true ∧ (view s).groupHeld c = false

/-- A core's fallback machine after an instruction of `n` cycles that leaves `f` (R191, R194). -/
def Sys2Proof.fallAfter (s : State) (c n : Nat) (f : Fallback) : Fallback := { f with cycles := ((view s).core c).fall.cycles + n }

/-- A fallback instruction leaves its core with fallback machine `f` after `n` cycles, and nothing else changed. -/
def Sys2Proof.leavesFall (i : Instr) (s : State) (c n : Nat) (f : Fallback) : Prop :=
  runs i s ((view s).setCore c { (view s).core c with fall := fallAfter s c n f })

/-- A fallback instruction of `n` cycles leaves register `vd` with a value in each lane, the program moved on, and nothing
else changed. -/
def Sys2Proof.writesLanes (i : Instr) (s : State) (c vd n : Nat) (g : Nat → F32) : Prop :=
  leavesFall i s c n ((((view s).core c).fall).setV vd ((List.range 64).map g)).next

/-- The lane-wise fallback instructions: each writes its destination's 64 lanes from its sources' lanes as they were before,
the destination among them or not and takes the cycles Table 4.6 gives it; a VRED whose mode the table does not define
writes one free value of its operands to every lane (R95, R156 to R160, R189 to R191, R245, R482; Table 4.6). -/
def Obligations.FallbackLanes : Prop :=
  ∀ (s : State) (c vd va vb vc : Nat), enginesRun s c →
    let f := ((view s).core c).fall
    writesLanes (.vadd c vd va vb) s c vd 1 (fun l => f32Add (f.lane va l) (f.lane vb l)) ∧
    writesLanes (.vsub c vd va vb) s c vd 1 (fun l => f32Sub (f.lane va l) (f.lane vb l)) ∧
    writesLanes (.vmul c vd va vb) s c vd 1 (fun l => f32Mul (f.lane va l) (f.lane vb l)) ∧
    writesLanes (.vfma c vd va vb vc) s c vd 1 (fun l => f32Fma (f.lane va l) (f.lane vb l) (f.lane vc l)) ∧
    writesLanes (.vmin c vd va vb) s c vd 1 (fun l => laneMinMax false (f.lane va l) (f.lane vb l)) ∧
    writesLanes (.vmax c vd va vb) s c vd 1 (fun l => laneMinMax true (f.lane va l) (f.lane vb l)) ∧
    writesLanes (.vexp2 c vd va) s c vd 4 (fun l => laneExp2 (f.lane va l)) ∧
    writesLanes (.vlog2 c vd va) s c vd 4 (fun l => laneLog2 (f.lane va l)) ∧
    writesLanes (.vrcp c vd va) s c vd 4 (fun l => laneRcp (f.lane va l)) ∧
    writesLanes (.vrsq c vd va) s c vd 4 (fun l => laneRsq (f.lane va l)) ∧
    writesLanes (.vsel c vd va vb) s c vd 1 (fun l => if f.mask.getLsbD l then f.lane va l else f.lane vb l) ∧
    writesLanes (.viadd c vd va vb) s c vd 1 (fun l => f.lane va l + f.lane vb l) ∧
    writesLanes (.vand c vd va vb) s c vd 1 (fun l => f.lane va l &&& f.lane vb l) ∧
    writesLanes (.vor c vd va vb) s c vd 1 (fun l => f.lane va l ||| f.lane vb l) ∧
    writesLanes (.vxor c vd va vb) s c vd 1 (fun l => f.lane va l ^^^ f.lane vb l) ∧
    (∀ n, writesLanes (.vshl c vd va n) s c vd 1 (fun l => f.lane va l <<< n)) ∧
    (∀ n, writesLanes (.vshr c vd va n) s c vd 1 (fun l => f.lane va l >>> n)) ∧
    writesLanes (.vcvtif c vd va) s c vd 1 (fun l => laneIcvt 0 (f.lane va l)) ∧
    writesLanes (.vcvtfi c vd va) s c vd 1 (fun l => laneIcvt 1 (f.lane va l)) ∧
    writesLanes (.vperm c vd va vb) s c vd 1 (fun l => f.lane va ((f.lane vb l).toNat % 64)) ∧
    (∀ imm, writesLanes (.vli c vd imm) s c vd 1 (fun _ => imm)) ∧
    (∀ mode, mode ≤ 2 → writesLanes (.vred c vd va mode) s c vd 1
      (fun _ => laneTree mode ((List.range 64).map (f.lane va)))) ∧
    (∀ mode, 2 < mode → writesLanes (.vred c vd va mode) s c vd 1
      (fun _ => Config.reservedReduce ((List.range 64).map (f.lane va))))

/-- The other fallback instructions: VCMP writes the mask, one free value of its operands for a condition the table does not
define; VLD and VST move 64 lanes inside their stream's range and, outside it, load zeros or store nothing and are a
violation, and a VLD whose granules an arrival token holds waits and counts its cycle; ACADD moves a counter, LOOP enters its body as often as its
count or its extent says, passes it for zero, or faults on an empty body or where four loops run, END stops the program; and
a loop's body runs as often as its count: at its last instruction the program goes back while turns are left, and past it
after the last (R54, R141, R189 to R191, R193, R482). -/
def Obligations.FallbackControl : Prop :=
  (∀ (s : State) (c : Nat), enginesRun s c → c < 2312 → s.die.ecc = [] →
     let v := view s
     let k := v.core c
     let f := k.fall
     leavesFall (.vnop c) s c 1 f.next ∧
     (∀ va vb cond, ∃ m, runs (.vcmp c va vb cond) s m ∧ m.mem = v.mem ∧ m.die.regs = v.die.regs ∧
       (cond ≤ 5 → ∀ l, l < 64 → (m.core c).fall.mask.getLsbD l = laneCmp cond (f.lane va l) (f.lane vb l)) ∧
       (5 < cond → (m.core c).fall.mask =
         Config.reservedCompare cond ((List.range 64).map (f.lane va)) ((List.range 64).map (f.lane vb))) ∧
       (m.core c).fall = fallAfter s c 1 { f with mask := (m.core c).fall.mask }.next) ∧
     (∀ (vd : Nat) (fromB : Bool) (ac offset : Nat), let r := v.fallRange c (if fromB then 2 else 1)
       let off := mapGetD f.ac ac 0 + (offset : Int)
       let held := v.tokenHeld c { space := r.space, len := 16, base := r.base + 16 * off.toNat }
       (fallInside r off = true → held = true → ∃ m, runs (.vld c vd fromB ac offset) s m ∧ m.mem = v.mem ∧
         sameRegs v m [cluReg (c / 17) CLU_SLIP_CYCLE_CNT] ∧ (m.core c).fall = fallAfter s c 1 f) ∧
       (fallInside r off = true → held = false → r.space ≠ ACC → v.die.writes = [] →
         ∃ m, runs (.vld c vd fromB ac offset) s m ∧ m.mem = v.mem ∧ sameButPorts v m [] ∧ (m.core c).fall = fallAfter s c 1 (f.setV vd ((List.range 64).map fun l =>
           BitVec.ofNat 32 (ofBytes (bytesIn v c r.space (r.base + 16 * off.toNat + 4 * l) 4)))).next) ∧
       (fallInside r off = false → ∃ m, runs (.vld c vd fromB ac offset) s m ∧ m.mem = v.mem ∧
         (m.core c).fall = fallAfter s c 1 (f.setV vd (List.replicate 64 0)).next ∧
         m.regN (coreReg c CORE_VIOL_CNT) = min (v.regN (coreReg c CORE_VIOL_CNT) + 1) counterMax)) ∧
     (∀ va ac offset : Nat, let r := v.fallRange c 3
       let off := mapGetD f.ac ac 0 + (offset : Int)
       (fallInside r off = true → (r.space = SCRATCH ∨ r.space = OPC) →
         r.base + 16 * off.toNat + 256 ≤ spaceExtent r.space → v.flag (injectReg c 0) 0 = false →
         ∃ m, runs (.vst c va ac offset) s m ∧ sameButPorts v m [] ∧ (m.core c).fall = fallAfter s c 1 f.next ∧
           (v.die.writes = [] → ∀ l, l < 64 → bytesIn m c r.space (r.base + 16 * off.toNat + 4 * l) 4 = toBytes 4 (f.lane va l).toNat) ∧
           sameBytes v m (memAddr c (spaceMem r.space) (r.base + 16 * off.toNat)) 256) ∧
       (fallInside r off = false → ∃ m, runs (.vst c va ac offset) s m ∧ m.mem = v.mem ∧
         (m.core c).fall = fallAfter s c 1 f.next ∧
         m.regN (coreReg c CORE_VIOL_CNT) = min (v.regN (coreReg c CORE_VIOL_CNT) + 1) counterMax)) ∧
     (∀ ac imm, ∃ m, runs (.acadd c ac imm) s m ∧ m.mem = v.mem ∧ m.die.regs = v.die.regs ∧
       mapGetD (m.core c).fall.ac ac 0 = mapGetD f.ac ac 0 + signed imm 16 ∧
       (∀ i, i ≠ ac → mapGetD (m.core c).fall.ac i 0 = mapGetD f.ac i 0) ∧
       (m.core c).fall = fallAfter s c 1 { f with ac := (m.core c).fall.ac }.next) ∧
     (∀ body select count, 0 < body → f.loops.length < 4 →
       let n := if select = 0 then count else ((v.fallJob c).map fun j => j.d (select - 1)).getD 0
       (n = 0 → leavesFall (.loop c body select count) s c 1 { f with index := f.index + body }.next) ∧
       (0 < n → leavesFall (.loop c body select count) s c 1
         { f with loops := { start := f.index + 1, stop := f.index + 1 + body, left := n } :: f.loops, index := f.index + 1 })) ∧
     (∀ body select count, body = 0 ∨ 4 ≤ f.loops.length → ∃ m, runs (.loop c body select count) s m ∧
       (m.core c).fall.running = false ∧ m.mem = v.mem ∧ m.die.regs = v.die.regs ∧
       ∀ j, v.fallJob c = some j → ∃ x ∈ (m.core c).flights, x.push = j.push ∧ x.fault = true) ∧
     leavesFall (.fallEnd c) s c 1 { f with running := false }) ∧
  (∀ (s : State) (c : Nat) (l : FallLoop) (rest : List FallLoop), enginesRun s c →
     ((view s).core c).fall.loops = l :: rest → ((view s).core c).fall.index + 1 = l.stop →
     (1 < l.left → ∃ m, runs (.vnop c) s m ∧ (m.core c).fall.index = l.start ∧
       (m.core c).fall.loops = { l with left := l.left - 1 } :: rest) ∧
     (l.left ≤ 1 → (∀ q ∈ rest, q.stop ≠ l.stop) → ∃ m, runs (.vnop c) s m ∧ (m.core c).fall.index = l.stop ∧
       (m.core c).fall.loops = rest))

/-! ## Memories, scrub and repairs (chapters 5, 9 and 13) -/

/-- The unit of a memory rests: its core, or for the Stope every core of its site (R214). -/
def Sys2Proof.unitRests (v : M) (c mem : Nat) : Bool := if mem = 7 then v.siteResting (c / 17) else v.resting c

/-- A control-space access of core `c` that has come over the Shaft. -/
def Sys2Proof.overShaft (s : State) (c : Nat) : M := (view s).elasticPath c 34

/-- Control-space accesses to a core's memories: on their way over the Shaft they change nothing but the counters of waits, and
nothing at all outside a step; at rest they read and write their bytes and nothing else; while the core runs
they wait and are counted; Lode waits for the end of the step; what Table 5.1 or Table 5.9 does not allow is a
violation that reads zero and writes nothing; a wrong width or alignment is counted; and a RETIRED core reads zero and
discards writes (R12, R195, R213, R214, R221 to R224, R233). -/
def Obligations.CoreMemoryAccesses : Prop :=
  (∀ (s : State) (c : Nat), let m := overShaft s c
     m.mem = (view s).mem ∧ m.die.cores = s.die.cores ∧ m.die.sites = s.die.sites ∧ m.die.step = s.die.step ∧
     sameButPorts (view s) m [] ∧ (s.die.step = none → m = view s)) ∧
  (∀ (s : State) (req : Requester) (c addr width mem off : Nat) (value : Word), s.die.live = true → c < 2312 → s.die.ecc = [] →
     ((view s).core c).st ≠ .retired → accessOk width addr = true → localMemory addr = some (mem, off) →
     let v := overShaft s c
     (accessPermitted req mem true = true → mem ≠ 0 → mem ≠ 5 → unitRests v c mem = true →
       v.flag (injectReg c mem) 0 = false →
       runs (.csMemoryAccess req c addr width true value) s (v.writeN (memAddr c mem off) width value.toNat)) ∧
     (mem ≠ 0 → (mem = 5 ∨ unitRests v c mem = true) →
       runs (.csMemoryAccess req c addr width false value) s { v with die.readData := v.readN (memAddr c mem off) width }) ∧
     (∀ w, accessPermitted req mem w = true → mem ≠ 0 → mem ≠ 5 → unitRests v c mem = false →
       ∃ m, runs (.csMemoryAccess req c addr width w value) s m ∧ m.mem = v.mem ∧ sameRegs v m [coreReg c CORE_CS_DEFER_CNT] ∧
         m.regN (coreReg c CORE_CS_DEFER_CNT) = min (v.regN (coreReg c CORE_CS_DEFER_CNT) + 1) counterMax ∧
         m.die.readData = v.die.readData ∧
         (mem ≠ 7 → mapGetD (m.core c).csWait mem [] = mapGetD (v.core c).csWait mem [] ++
           [{ requester := req, offset := off, width, write := w, data := if w then toBytes width value.toNat else [] }])) ∧
     (∀ w, accessPermitted req mem w = false →
       ∃ m, runs (.csMemoryAccess req c addr width w value) s m ∧ m.mem = v.mem ∧
         m.regN (coreReg c CORE_VIOL_CNT) = min (v.regN (coreReg c CORE_VIOL_CNT) + 1) counterMax ∧
         m.die.readData = if w then v.die.readData else 0) ∧
     (mem = 0 → addr = off → s.die.step ≠ none →
       ∀ w, accessPermitted req 0 w = true → ∃ m, runs (.csLodeAccess req c addr width w value) s m ∧ m.mem = v.mem ∧ m.die.regs = v.die.regs ∧
         m.die.readData = v.die.readData ∧
         mapGetD (m.core c).csWait 0 [] = mapGetD (v.core c).csWait 0 [] ++
           [{ requester := req, offset := off, width, write := w, data := if w then toBytes width value.toNat else [] }]) ∧
     (mem = 0 → addr = off → s.die.step = none → s.die.fmn.assay.unit = none → accessPermitted req 0 true = true →
       v.flag (injectReg c 0) 0 = false →
       runs (.csLodeAccess req c addr width true value) s (v.writeN (memAddr c 0 off) width value.toNat)) ∧
     (mem = 0 → addr = off → s.die.step = none →
       runs (.csLodeAccess req c addr width false value) s { v with die.readData := v.readN (memAddr c 0 off) width })) ∧
  (∀ (s : State) (req : Requester) (c addr width : Nat) (w : Bool) (value : Word), s.die.live = true → c < 2312 →
     let v := overShaft s c
     ((v.core c).st = .retired → runs (.csMemoryAccess req c addr width w value) s
       (if w then v else { v with die.readData := 0 })) ∧
     ((v.core c).st ≠ .retired → accessOk width addr = false →
       runs (.csMemoryAccess req c addr width w value) s { v.count HDF_CS_ACCESS_ERR_CNT with die.readData := 0 }) ∧
     ((v.core c).st ≠ .retired → accessOk width addr = true → localMemory addr = none →
       ∃ m, runs (.csMemoryAccess req c addr width w value) s m ∧ m.mem = v.mem ∧
         m.regN (coreReg c CORE_VIOL_CNT) = min (v.regN (coreReg c CORE_VIOL_CNT) + 1) counterMax ∧
         m.die.readData = if w then v.die.readData else 0))

/-- Error correction: a read of a codeword with one flipped bit delivers the right bytes, counts a correctable error and, where
its bank's place is free, queues the row for write-back; one with an uncorrectable error counts and reports it; the
write-back, which in Scratch its scrub slot alone does, stores the row afresh and frees the place; and an armed injection
flips bits of the next granule written, once. Scrub: the core's next slot, at the next even phase, serves its bank, and none
does while the core's group holds: with nothing to write back and
nothing waiting it reads the next row and moves the pointer; a row queued for write-back, a waiting Lode access, or a row
of the loader's takes the slot, the last two counted; an idle bank of the operand cache or of the Stope is read the same
way, and a bank that does not exist is not (R207 to R213, R215 to R217, R220, R245, R375). -/
def Obligations.ErrorsCorrectedAndScrubbed : Prop :=
  (∀ (s : State) (c addr width mem off a mask : Nat) (value : Word), s.die.live = true → c < 2312 →
     ((view s).core c).st = .idle → accessOk width addr = true → localMemory addr = some (mem, off) →
     mem = 1 ∨ mem = 3 ∨ mem = 4 →
     let v := view s
     (∀ b0 b1, v.flipsIn mem (memAddr c mem off) width = [(a, mask)] → eccJudge mem a mask = .corrected b0 b1 0 →
       ∃ m, runs (.csMemoryAccess .foreman c addr width false value) s m ∧
         m.die.readData = v.readN (memAddr c mem off) width ∧ m.mem = v.mem ∧ m.die.ecc = v.die.ecc ∧
         m.regN (eccCounter false c mem) = min (v.regN (eccCounter false c mem) + 1) counterMax ∧
         (v.queuedRow c mem (bankOf mem (v.sterling c) (a - memAddr c mem 0)) = none →
           m.queuedRow c mem (bankOf mem (v.sterling c) (a - memAddr c mem 0)) = some ((a - memAddr c mem 0) / 64 * 64))) ∧
     (v.flipsIn mem (memAddr c mem off) width = [(a, mask)] → eccJudge mem a mask = .uncorrectable →
       ∃ m e, runs (.csMemoryAccess .foreman c addr width false value) s m ∧ m.mem = v.mem ∧
         m.regN (eccCounter true c mem) = min (v.regN (eccCounter true c mem) + 1) counterMax ∧
         m.die.reports = v.die.reports ++ [e] ∧ e.memory = mem) ∧
     (∀ bank row b0 b1, mem ≠ 1 → v.queuedRow c mem bank = some row → v.flipsIn mem (memAddr c mem row) 64 = [(a, mask)] →
       eccJudge mem a mask = .corrected b0 b1 0 →
       ∃ m, runs (.eccWriteBack c mem bank) s m ∧ m.queuedRow c mem bank = none ∧ m.die.ecc = mapDel v.die.ecc a ∧
         (∀ x, m.read x 1 = v.read x 1) ∧ m.die.regs = v.die.regs) ∧
     (∀ bank, v.queuedRow c mem bank = none ∨ mem = 1 → runs (.eccWriteBack c mem bank) s v) ∧
     (Machine.fld value 11 8 < 7 → Machine.fld value 7 6 ≠ 0 → value.getLsbD 0 = true →
       ∃ m, runs (.eccInjectArm c false value) s m ∧ m.flag (injectReg c 0) 0 = true ∧ m.mem = v.mem ∧
         m.fld (injectReg c 0) 11 8 = Machine.fld value 11 8 ∧ m.fld (injectReg c 0) 7 6 = Machine.fld value 7 6 ∧
         sameRegs v m [injectReg c 0]) ∧
     (∀ n, s.die.ecc = [] → v.flag (injectReg c 0) 0 = true → v.fld (injectReg c 0) 11 8 = mem →
       v.fld (injectReg c 0) 7 6 = n →
       ∃ m, runs (.csMemoryAccess .foreman c addr width true value) s m ∧ m.flag (injectReg c 0) 0 = false ∧
         m.die.ecc = [(memAddr c mem (off / 16 * 16), 2 ^ n - 1)] ∧
         m.read (memAddr c mem off) width = toBytes width value.toNat)) ∧
  (∀ (s : State) (c mem bank : Nat) (p : ScrubPtr), s.die.live = true → c < 2312 → s.die.ecc = [] →
     let v := view s
     let ptr := fun (m : M) => mapGetD (m.scrubPtrs c mem) (bankKey mem bank) { row := 0, wrapped := false }
     let n := (v.core c).slotAt + (v.core c).slotAt % 2
     let phase := n % 64
     let after := fun (m : M) => if m.prep = pWRITING then m.loadTry else m
     (v.groupHeld c = true → runs (.scrubSlot c) s (after v)) ∧
     (v.groupHeld c = false → ptr v = p → p.row + 1 < bankRows mem bank → p.wrapped = false → bank < bankCount mem →
     (mem = (if phase % 4 = 0 then 1 else 0) → bank = phase / 4 → v.queuedRow c mem bank = none →
       (mem = 0 → mapGetD (v.core c).csWait 0 [] = [] ∧ (v.core c).lodeJob = none) →
       ∃ m, runs (.scrubSlot c) s (after m) ∧ ptr m = { row := p.row + 1, wrapped := false } ∧
         (m.core c).slotAt = n + 1 ∧ m.die.regs = v.die.regs ∧ m.mem = v.mem) ∧
     (∀ a, mem = 0 → phase % 4 = 2 → bank = phase / 4 → v.queuedRow c 0 bank = none →
       mapGetD (v.core c).csWait 0 [] = [a] → bankOf 0 (v.sterling c) a.offset = bank → a.write = false →
       ∃ m, runs (.scrubSlot c) s (after m) ∧ ptr m = p ∧ mapGetD (m.core c).csWait 0 [] = [] ∧
         m.die.readData = v.readN (memAddr c 0 a.offset) a.width ∧ m.mem = v.mem ∧
         m.regN (coreReg c CORE_LODE_SLOT_WR_CNT) = min (v.regN (coreReg c CORE_LODE_SLOT_WR_CNT) + 1) counterMax) ∧
     (∀ row, mem = (if phase % 4 = 0 then 1 else 0) → bank = phase / 4 → v.queuedRow c mem bank = some row →
       ∃ m, runs (.scrubSlot c) s (after m) ∧ ptr m = p ∧ m.queuedRow c mem bank = none ∧ m.mem = v.mem ∧
         m.die.regs = v.die.regs) ∧
     (∀ j r, mem = 0 → phase % 4 = 2 → bank = phase / 4 → v.queuedRow c 0 bank = none →
       mapGetD (v.core c).csWait 0 [] = [] → (v.core c).lodeJob = some j →
       (j.rows.find? fun x => bankOf 0 (v.sterling c) x.1 == bank) = some r → s.die.fmn.assay.unit = none →
       v.flag (injectReg c 0) 0 = false →
       ∃ m, runs (.scrubSlot c) s (after m) ∧ ptr m = p ∧ m.read (memAddr c 0 r.1) r.2.length = r.2 ∧
         m.regN (coreReg c CORE_LODE_SLOT_WR_CNT) = min (v.regN (coreReg c CORE_LODE_SLOT_WR_CNT) + 1) counterMax) ∧
     (∀ stope : Bool, mem = (if stope then 7 else 3) →
       (∃ m, runs (.idleScrub c stope bank) s m ∧ ptr m = { row := p.row + 1, wrapped := false } ∧
         m.die.regs = v.die.regs ∧ m.mem = v.mem) ∧
       ∀ b, bankCount mem ≤ b → runs (.idleScrub c stope b) s v)))

/-- Spares: between steps a core retires to its site's spare, which takes its virtual core, and a retired core comes back as the
spare; one that is RETIRED stays so and uses no spare up; without a spare the request answers so; within a step it waits; and a row repair takes a spare row of its bank and
answers with those left, or that none is left (R43, R219, R508 to R510, R512, R513, R515). -/
def Obligations.SparesReplace : Prop :=
  ∀ (s : State) (c : Nat), s.die.live = true → c < 2312 → s.die.ecc = [] → s.die.fmn.unitWaits = [] →
    let v := view s
    let a := cluReg (c / 17) CLU_SPARE_STATUS
    (s.die.step = none → s.die.fmn.tableCores = [] → s.die.fmn.tableLoad = none → (v.site (c / 17)).sparePending = none →
      (v.site (c / 17)).spareLatched = none →
      (v.fld a 8 4 ≠ 0x1F → v.flag a (9 + c % 17) = false →
        ∃ m, runs (.coreRetire c) s m ∧ (m.core c).st = .retired ∧ m.fld a 8 4 = 0x1F ∧ m.flag a (9 + c % 17) = true ∧
          m.fld a 3 0 = 1 ∧ m.flag (cluReg (c / 17) CLU_SPARE_CMD) 63 = false ∧ (s.die.fmn.models = [] → m.mem = v.mem) ∧
          (v.virtualOf c < 16 → m.physical (c / 17) (v.virtualOf c) = v.fld a 8 4 ∧
            m.regN FMN_CORE_SPARE_CNT = min (v.regN FMN_CORE_SPARE_CNT + 1) counterMax)) ∧
      (v.fld a 8 4 ≠ 0x1F → v.flag a (9 + c % 17) = true →
        ∃ m, runs (.coreRetire c) s m ∧ m.fld a 3 0 = 1 ∧ m.fld a 8 4 = v.fld a 8 4 ∧ m.die.cores = v.die.cores ∧ m.mem = v.mem) ∧
      (v.fld a 8 4 = 0x1F →
        ∃ m, runs (.coreRetire c) s m ∧ m.fld a 3 0 = 2 ∧ m.fld a 8 4 = 0x1F ∧ m.die.cores = v.die.cores ∧ m.mem = v.mem) ∧
      (v.flag a (9 + c % 17) = true → v.fld a 8 4 = 0x1F →
        ∃ m, runs (.coreReturn c) s m ∧ m.fld a 8 4 = c % 17 ∧ m.flag a (9 + c % 17) = false ∧ m.fld a 3 0 = 1 ∧
          (m.core c).st = v.restSt c ∧ m.mem = v.mem) ∧
      (v.flag a (9 + c % 17) = false →
        ∃ m, runs (.coreReturn c) s m ∧ m.fld a 3 0 = 4 ∧ m.die.cores = v.die.cores ∧ m.mem = v.mem)) ∧
    (s.die.step ≠ none → (v.site (c / 17)).sparePending = none →
      ∃ m, runs (.coreRetire c) s m ∧ (m.site (c / 17)).sparePending = some (1, c % 17) ∧
        m.flag (cluReg (c / 17) CLU_SPARE_CMD) 63 = true ∧ m.die.cores = v.die.cores ∧ m.mem = v.mem) ∧
    (∀ (value : Word) (mem bank row : Nat), s.die.step = none → (v.core c).repairPending = none →
      (v.core c).repairLatched = none → value.getLsbD 28 = true →
      Machine.fld value 27 24 = mem → Machine.fld value 20 16 = bank → Machine.fld value 11 0 = row → mem < 7 →
      (bank < bankCount mem → row < bankRows mem bank → v.repairsIn c mem bank < spareRows mem →
        ∃ m, runs (.rowRepair c false value) s m ∧ m.fld (coreReg c CORE_ROW_REPAIR_STATUS) 3 0 = 1 ∧
          m.fld (coreReg c CORE_ROW_REPAIR_STATUS) 15 8 = spareRows mem - v.repairsIn c mem bank - 1 ∧
          (m.core c).repaired = (v.core c).repaired ++ [(mem, bank, row)] ∧ m.mem = v.mem ∧
          m.regN FMN_ROW_REPAIR_CNT = min (v.regN FMN_ROW_REPAIR_CNT + 1) counterMax) ∧
      (bank < bankCount mem → row < bankRows mem bank → spareRows mem ≤ v.repairsIn c mem bank →
        ∃ m, runs (.rowRepair c false value) s m ∧ m.fld (coreReg c CORE_ROW_REPAIR_STATUS) 3 0 = 2 ∧
          (m.core c).repaired = (v.core c).repaired ∧ m.mem = v.mem) ∧
      (bankCount mem ≤ bank ∨ bankRows mem bank ≤ row →
        ∃ m, runs (.rowRepair c false value) s m ∧ m.fld (coreReg c CORE_ROW_REPAIR_STATUS) 3 0 = 3 ∧
          (m.core c).repaired = (v.core c).repaired ∧ m.mem = v.mem))

/-- Assay starts on the next unit in order, one period after its start before; the scrub slots of the unit's bank give it
the unit's rows in turn; a unit whose 1,024 rows digest as its shard says is counted and dated, one whose rows do not is a
mismatch, counted, and its image waits for repair; a check a write has abandoned counts for nothing; and the repair
rewrites the image from its verified copy in staging, between steps (R362, R378 to R382). -/
def Obligations.AssayChecksLode : Prop :=
  ∀ s : State, s.die.live = true →
    let v := view s
    let a := s.die.fmn.assay
    (∀ u, v.flag FMN_ASSAY_CTRL 0 = true → (a.unit = none ∨ a.abandoned = true) → nextUnit v.assayUnits a.next = some u →
      ∃ m, runs .assayUnitStart s m ∧ m.die.fmn.assay.unit = some u ∧ m.die.fmn.assay.abandoned = false ∧
        m.die.fmn.assay.taken = 0 ∧ m.die.regs = v.die.regs ∧ m.mem = v.mem ∧
        ∀ t, a.started = some t → m.die.ft = max s.die.ft (t + v.assayPeriod)) ∧
    (v.flag FMN_ASSAY_CTRL 0 = false → runs .assayUnitStart s v) ∧
    (∀ u p, a.unit = some u → a.abandoned = false → a.taken < unitRows → u / 32 < 2312 → s.die.ecc = [] →
      v.groupHeld (u / 32) = false →
      let c := u / 32
      let phase := ((v.core c).slotAt + (v.core c).slotAt % 2) % 64
      phase % 4 = 2 → phase / 4 = u % 16 → v.queuedRow c 0 (u % 16) = none → mapGetD (v.core c).csWait 0 [] = [] →
      (v.core c).lodeJob = none → mapGetD (v.scrubPtrs c 0) (bankKey 0 (u % 16)) { row := 0, wrapped := false } = p →
      p.row = u / 16 % 2 * unitRows + a.taken →
      ∃ m, runs (.scrubSlot c) s (if m.prep = pWRITING then m.loadTry else m) ∧ m.die.fmn.assay.taken = a.taken + 1 ∧
        m.die.fmn.assay.data = a.data ++ v.read (memAddr c 0 (rowOffset 0 (v.sterling c) (u % 16) p.row)) 64) ∧
    (∀ u, a.unit = some u → a.abandoned = true →
      ∃ m, runs .assayUnitComplete s m ∧ m.die.fmn.assay.unit = none ∧ m.die.fmn.assay.next = a.next ∧
        m.die.regs = v.die.regs ∧ m.mem = v.mem) ∧
    (∀ u, a.unit = some u → a.abandoned = false → a.taken < unitRows → runs .assayUnitComplete s v) ∧
    (∀ u x i h, a.unit = some u → a.abandoned = false → unitRows ≤ a.taken →
      v.unitShard (u / 32) (u / 16 % 2) = some (x, i, h) →
      (sm3 a.data = expectedDigest x h (u / 16 % 2) (u % 16) →
        ∃ m, runs .assayUnitComplete s m ∧ mapGet m.die.fmn.assay.lastGood u = some s.die.ft ∧ m.mem = v.mem ∧
          m.regN FMN_ASSAY_UNIT_CNT = min (v.regN FMN_ASSAY_UNIT_CNT + 1) counterMax ∧
          m.reg FMN_ASSAY_MISMATCH_CNT = v.reg FMN_ASSAY_MISMATCH_CNT ∧
          m.die.fmn.lodeRepairs = v.die.fmn.lodeRepairs) ∧
      (sm3 a.data ≠ expectedDigest x h (u / 16 % 2) (u % 16) →
        ∃ m, runs .assayUnitComplete s m ∧ m.mem = v.mem ∧
          (2 * (u / 32) + if x.split then u / 16 % 2 else 0) ∈ m.die.fmn.lodeRepairs ∧
          m.regN FMN_ASSAY_MISMATCH_CNT = min (v.regN FMN_ASSAY_MISMATCH_CNT + 1) counterMax)) ∧
    (∀ core, s.die.step ≠ none ∨ s.die.reports = [] → (∀ k ∈ s.die.fmn.lodeRepairs, k / 2 ≠ core) →
      runs (.lodeRepair core) s v.loadTry) ∧
    (∀ k f x sh, s.die.step = none → s.die.reports = [] → s.die.fmn.lodeRepairs = [k] → s.die.fmn.manifests = [x] →
      s.die.fmn.openLoad = none → s.die.ecc = [] → s.die.bursts = [] → a.unit = none → v.flag (injectReg (k / 2) 0) 0 = false →
      x.split = false → x.use = .running → x.shards = [sh] → v.shardCore sh = k / 2 → sh.frame = some f →
      sh.verified = true → shardOk x 0 sh sh.header (v.payload f sh.length).1 = true →
      ∃ m, runs (.lodeRepair (k / 2)) s m ∧ m.die.fmn.lodeRepairs = [] ∧
        m.read (memAddr (k / 2) 0 0) 0x200000 = slice (v.payload f sh.length).1 0 0x200000 ∧
        m.regN FMN_WT_REPAIR_CNT = min (v.regN FMN_WT_REPAIR_CNT + 1) counterMax)

/-! ## Seam (chapter 7) -/

/-- A stack from power-up: it trains and its host carve-out is filled with zeros; then the rest of its memory is, but for the
ledger's entries of what the configuration record has retired; refresh delays are counted, patrol reads burst after burst
unless its period is 0, and an uncorrectable burst it meets stays (R297, R298, R300, R638). -/
def Obligations.StacksTrainAndFill : Prop :=
  ∀ (s : State) (k : Nat), s.die.live = true → k < 32 →
    let v := view s
    (∀ ok : Bool, v.fld (seamReg k SEAM_STATUS) 39 38 < 2 → s.die.hostWait = [] →
      ∃ m, runs (.stackTrainingComplete k ok) s m ∧ m.fld (seamReg k SEAM_STATUS) 39 38 = (if ok then 2 else 3) ∧
        sameRegs v m [seamReg k SEAM_STATUS] ∧ sameBytes v m (stackBase k) (stagingPage * pageSize) ∧
        (ok = false → m.mem = v.mem) ∧
        (ok = true → ∀ off, off < stagingPage * pageSize → m.read (stackBase k + off) 1 = [0])) ∧
    (∀ ok : Bool, 2 ≤ v.fld (seamReg k SEAM_STATUS) 39 38 → s.die.hostWait = [] →
      runs (.stackTrainingComplete k ok) s v) ∧
    (v.fld (seamReg k SEAM_STATUS) 39 38 = 2 → v.flag (seamReg k SEAM_STATUS) 40 = false → s.die.hdf.repairs = [] →
      s.die.hostWait = [] →
      ∃ m, runs (.stateMemoryFillComplete k) s m ∧ m.flag (seamReg k SEAM_STATUS) 40 = true ∧
        (∀ x, pageAddr k stagingPage ≤ x → x < stackBase k + 0x2000000000 →
          (x < pageAddr k ledgerPage ∨ pageAddr k journalPage ≤ x) → m.read x 1 = [0]) ∧
        sameBytes v m (pageAddr k stagingPage) (0x2000000000 - stagingPage * pageSize) ∧
        (∀ b ∈ m.die.bursts, b.1 < pageAddr k stagingPage ∨ stackBase (k + 1) ≤ b.1)) ∧
    (v.fld (seamReg k SEAM_STATUS) 39 38 ≠ 2 ∨ v.flag (seamReg k SEAM_STATUS) 40 = true → s.die.hostWait = [] →
      runs (.stateMemoryFillComplete k) s v) ∧
    (∀ ch n, 0 < n → ∃ m, runs (.refresh k ch n) s m ∧ m.mem = v.mem ∧
      m.regN (seamReg k (SEAM_CH_REFRESH_DELAY_CNT + 64 * ch)) =
        min (v.regN (seamReg k (SEAM_CH_REFRESH_DELAY_CNT + 64 * ch)) + n) counterMax ∧
      sameRegs v m [seamReg k (SEAM_CH_REFRESH_DELAY_CNT + 64 * ch)]) ∧
    (∀ found, v.fld (seamReg k SEAM_CTRL) 63 32 = 0 → runs (.patrolScrubRead k found) s v) ∧
    (v.fld (seamReg k SEAM_CTRL) 63 32 ≠ 0 → (v.seam k).patrol + 1 < patrolBursts →
      ∃ m, runs (.patrolScrubRead k .clean) s m ∧ (m.seam k).patrol = (v.seam k).patrol + 1 ∧
        m.die.regs = v.die.regs ∧ m.mem = v.mem) ∧
    (v.fld (seamReg k SEAM_CTRL) 63 32 ≠ 0 → (v.seam k).patrol + 1 = patrolBursts →
      ∃ m, runs (.patrolScrubRead k .clean) s m ∧ (m.seam k).patrol = 0 ∧ m.mem = v.mem ∧
        m.regN (seamReg k SEAM_PATROL_PASS_CNT) = min (v.regN (seamReg k SEAM_PATROL_PASS_CNT) + 1) counterMax) ∧
    (∀ p, v.fld (seamReg k SEAM_CTRL) 63 32 ≠ 0 →
      v.framePage k ((v.seam k).patrol / 1024 % 17) ((v.seam k).patrol / 1024 / 17) = some p →
      ∃ m mask, runs (.patrolScrubRead k .uncorrectable) s m ∧ 0 < mask ∧
        mapGet m.die.bursts (pageAddr k p + 64 * ((v.seam k).patrol % 1024)) = some mask)

/-- The state-memory window and the region register: an access inside a stack's usable pages reads and writes its bytes, one
beyond them is counted, reads zero and writes nothing; a write that leaves fewer free pages than SEAM_FREE_LOW raises the
event; SEAM_REGION is locked while a model is loaded and takes no value
outside its limits; and a rebuilt ledger burst may be allocated from again. A channel in service starts to retire while a
reserve is free; its copy's end fences it and puts the reserve in its place; without a reserve it is withdrawn at once;
and a retired channel comes back as the reserve, with none of its frames in use (R267, R268, R288, R302, R303, R503). -/
def Obligations.StateMemoryAndChannels : Prop :=
  (∀ (s : State) (req : Requester) (k off width : Nat) (value : Word), s.die.live = true → s.die.bursts = [] →
     let v := view s
     (accessOk width off = true → off < usablePages * pageSize →
       (∃ m, runs (.stateWindowAccess req k off width true value) s m ∧
         m.mem = (v.writeN (stackBase k + off) width value.toNat).mem ∧ sameRegs v m [FMN_HOST_IRQ_EVT] ∧
         (m.freePages k < m.regN (seamReg k SEAM_FREE_LOW) → (v.seam k).lowRaised = false →
           m.flag FMN_HOST_IRQ_EVT 2 = true ∧ (m.seam k).lowRaised = true)) ∧
       runs (.stateWindowAccess req k off width false value) s
         { v with die.readData := v.readN (stackBase k + off) width }) ∧
     (accessOk width off = true → usablePages * pageSize ≤ off →
       ∃ m, runs (.stateWindowAccess req k off width false value) s m ∧ m.die.readData = 0 ∧ m.mem = v.mem ∧
         m.regN (seamReg k SEAM_VIOL_CNT) = min (v.regN (seamReg k SEAM_VIOL_CNT) + 1) counterMax) ∧
     (s.die.fmn.models ≠ [] → runs (.seamRegionWrite k value) s (v.count HDF_LOCKED_WRITE_CNT)) ∧
     (s.die.fmn.models = [] →
       let t := Machine.fld value 15 0
       let j := Machine.fld value 31 16
       (256 ≤ t → t ≤ 16384 → 6 ≤ j → j + 145 ≤ t → ∃ m, runs (.seamRegionWrite k value) s m ∧
         m.tablePages k = t ∧ m.journalPages k = j ∧ sameRegs v m [seamReg k SEAM_REGION, FMN_HOST_IRQ_EVT] ∧ m.mem = v.mem) ∧
       (t < 256 ∨ 16384 < t ∨ j < 6 ∨ t < j + 145 → runs (.seamRegionWrite k value) s v)) ∧
     (∀ p, (v.seam k).noAlloc.contains (p / 8) = true → ∃ m, runs (.ledgerRebuild k p) s m ∧
       (m.seam k).noAlloc.contains (p / 8) = false ∧
       m.regN FMN_LEDGER_REBUILD_CNT = min (v.regN FMN_LEDGER_REBUILD_CNT + 1) counterMax ∧
       sameBytes v m (ledgerAddr k (p / 8 * 8)) 64) ∧
     (∀ p, (v.seam k).noAlloc.contains (p / 8) = false → runs (.ledgerRebuild k p) s v)) ∧
  (∀ (s : State) (k ch r : Nat), s.die.live = true → s.die.bursts = [] → ch < 17 → r < 17 → ch ≠ r →
     let v := view s
     (v.seam k).chLatched = none → s.die.fmn.unitWaits = [] →
     ((v.seam k).copying = none → (v.seam k).returning = none → v.channelState k ch = 0 →
       (v.reserveChannel k = some r →
         ∃ m, runs (.channelRetire k ch) s m ∧ m.channelState k ch = 2 ∧ (m.seam k).copying = some ch ∧
           m.flag (seamReg k SEAM_CH_CMD) 63 = true ∧ m.mem = v.mem) ∧
       (v.reserveChannel k = none →
         ∃ m, runs (.channelRetire k ch) s m ∧ m.channelState k ch = 3 ∧ (m.seam k).copying = none ∧
           m.flag (seamReg k SEAM_CH_CMD) 63 = false)) ∧
     ((v.seam k).copying = some ch → (v.seam k).returning = none → v.reserveChannel k = some r → (v.seam k).remap = [] →
       (v.seam k).reserveNext = channelFrames →
       ∃ m, runs (.channelRetireComplete k) s m ∧ m.channelState k ch = 3 ∧ m.channelState k r = 0 ∧
         (m.seam k).copying = none ∧ m.flag (seamReg k SEAM_CH_CMD) 63 = false ∧ m.mem = v.mem ∧
         (∀ b, b < 16 → v.standIn k b = ch → m.standIn k b = r) ∧
         (∀ b, b < 16 → v.standIn k b ≠ ch → m.standIn k b = v.standIn k b)) ∧
     ((v.seam k).copying = none → (v.seam k).returning = none → v.channelState k ch = 3 → v.reserveChannel k = none →
       s.die.step = none →
       ∃ m, runs (.channelReturn k ch) s m ∧ m.channelState k ch = 1 ∧ (m.seam k).reserveNext = channelFrames ∧
         (m.seam k).returning = none ∧ m.mem = v.mem ∧ ∀ f, f < channelFrames → m.framePage k ch f = none))

/-- A command of engine 3 at the head of a stack's queue, held by no arrival token, with nothing flipped in any memory. -/
def Sys2Proof.seamServes (s : State) (k opcode : Nat) (j : Job) : Prop :=
  s.die.live = true ∧ s.die.ecc = [] ∧ s.die.bursts = [] ∧ (view s).seamHead k opcode = some j ∧
    (view s).seamHeld j = false ∧ (view s).flag (injectReg j.c 0) 0 = false

/-- The stack's part of a command is done: its queue moves on, and the flight owes it no more (R58, R284). -/
def Sys2Proof.stackDone (v m : M) (k : Nat) (j : Job) : Prop :=
  (m.seam k).queue = (v.seam k).queue.drop 1 ∧
  (m.core j.c).flights = (v.core j.c).flights.map fun f => if f.push = j.push then { f with owed := f.owed.erase k } else f

/-- QAPPEND and QATTEND at a stack: whatever its tokens or entries, a command completes this stack's part. Of a single token: it
is written into its page, keys and values head by head, where the page it lands in is this stack's and is there; below
the committed length it is counted and not written; where its slot holds no request of that geometry it is counted and
marks the slot. A single attention entry whose slot holds no request answers the empty record. One whose reads an arrival
token holds waits, and the cycle is counted (R141, R281 to R284, R290 to R292, R643, R644). -/
def Obligations.SeamServesCommands : Prop :=
  ∀ (s : State) (k : Nat) (j : Job) (t : Token), k < 32 →
    let v := view s
    let g := j.appendGeometry
    (seamServes s k 2 j → ∃ m, runs (.seamQappendRequest k) s m ∧ stackDone v m k j) ∧
    (seamServes s k 1 j → ∃ m, runs (.seamQattendRequest k) s m ∧ stackDone v m k j) ∧
    (∀ i opcode, (i = .seamQappendRequest k ∧ opcode = 2) ∨ (i = .seamQattendRequest k ∧ opcode = 1) → s.die.live = true →
      v.seamHead k opcode = some j → v.seamHeld j = true →
      ∃ m, runs i s m ∧ (m.seam k).queue = (v.seam k).queue ∧ m.die.cores = v.die.cores ∧ m.mem = v.mem ∧
        sameRegs v m [cluReg (j.c / 17) CLU_SLIP_CYCLE_CNT] ∧
        m.regN (cluReg (j.c / 17) CLU_SLIP_CYCLE_CNT) = min (v.regN (cluReg (j.c / 17) CLU_SLIP_CYCLE_CNT) + 1) counterMax) ∧
    (seamServes s k 2 j → (v.tokens j).1 = [t] → (v.geometryCheck k t.slot g 1).1 = none →
      ∃ m, runs (.seamQappendRequest k) s m ∧ stackDone v m k j ∧ sameBytes v m (tallyBase t.slot) 64 ∧
        (v.tState t.slot ≠ tFREE → m.tFlag t.slot fFAULT = true) ∧
        m.regN (seamReg k SEAM_GEOM_ERR_CNT) = min (v.regN (seamReg k SEAM_GEOM_ERR_CNT) + 1) counterMax) ∧
    (∀ root, seamServes s k 2 j → (v.tokens j).1 = [t] → v.geometryCheck k t.slot g 1 = (some root, v) →
      placement t.slot g.layers (t.pos / 2 ^ g.log2) = k →
      (t.pos < v.tLen t.slot →
        ∃ m, runs (.seamQappendRequest k) s m ∧ stackDone v m k j ∧ m.mem = v.mem ∧
          m.regN (seamReg k SEAM_APPEND_BELOW_CNT) = min (v.regN (seamReg k SEAM_APPEND_BELOW_CNT) + 1) counterMax) ∧
      (∀ leaf, v.tLen t.slot ≤ t.pos → g.fmt = 5 → (v.leaves k root g.layers)[t.pos / 2 ^ g.log2 / 32]? = some leaf →
        leaf.page ≠ noPage → v.rootOf t.slot = some root →
        ∃ m, runs (.seamQappendRequest k) s m ∧ stackDone v m k j ∧
          (∀ h, h < g.hkv →
            m.read (pageAddr k (leaf.page / 32) + (h * 2 ^ g.log2 + t.pos % 2 ^ g.log2) * (2 * g.d)) (2 * g.d) =
              slice t.key (h * (2 * g.d)) (2 * g.d) ∧
            m.read (pageAddr k (leaf.page / 32) + g.half + (h * 2 ^ g.log2 + t.pos % 2 ^ g.log2) * (2 * g.d)) (2 * g.d) =
              slice t.value (h * (2 * g.d)) (2 * g.d)) ∧
          sameBytes v m (pageAddr k (leaf.page / 32)) (2 * g.half) ∧
          m.regN (seamReg k SEAM_APPEND_TOKEN_CNT) = min (v.regN (seamReg k SEAM_APPEND_TOKEN_CNT) + 1) counterMax)) ∧
    (∀ slot, seamServes s k 1 j → j.bd 2 = 1 → v.rootOf slot = none →
      numAt (bytesIn v j.c j.b.space j.b.base 16) 0 4 % tallySlots = slot → j.w.space = SCRATCH →
      j.w.base + 32 * j.inner 4 ≤ 0x80000 → partialBytes (j.d 0) (j.d 1) ≤ j.inner 4 →
      ∃ m, runs (.seamQattendRequest k) s m ∧ stackDone v m k j ∧
        bytesIn m j.c SCRATCH (j.w.base + j.inner 4 * stackClass slot j.attendGeometry.layers k) (4 * j.d 0 * j.d 1) =
          zeros (4 * j.d 0 * j.d 1) ∧
        m.regN (seamReg k SEAM_ATTEND_ENTRY_CNT) = min (v.regN (seamReg k SEAM_ATTEND_ENTRY_CNT) + 1) counterMax)

/-! ## Steps (chapters 6, 8 and 13) -/

/-- A counter of `m` is one above that of `v`, or at its maximum (R16). -/
def Sys2Proof.counted (v m : M) (a : Nat) : Prop := m.regN a = min (v.regN a + 1) counterMax

/-- Nothing is latched for the step boundary, no core waits for its tables, and no memory holds an error. -/
def Sys2Proof.quiet (v : M) : Prop :=
  (∀ p ∈ v.die.cores, p.2.csWait = [] ∧ p.2.nextHalt = none ∧ p.2.nextPad = none ∧ p.2.repairPending = none) ∧
  (∀ p ∈ v.die.sites, p.2.csWait = [] ∧ p.2.routerPending = none ∧ p.2.repairPending = none ∧ p.2.sparePending = none) ∧
  (∀ p ∈ v.die.seams, p.2.returning = none) ∧ v.die.pwr.nextCeiling = [] ∧ v.die.pwr.regionFail = [] ∧
  v.die.servo.latched = none ∧ v.die.fmn.nextWindows = [] ∧ v.die.fmn.nextGroup = none ∧ v.die.fmn.nextSchunk = none ∧
  v.die.fmn.flip = none ∧ v.die.fmn.openLoad = none ∧ v.die.hdf.attestWaiting = [] ∧ v.die.ecc = [] ∧ v.die.bursts = [] ∧
  v.die.fmn.releases = [] ∧ v.die.fmn.shipWaits = [] ∧ v.die.fmn.tableCores = [] ∧ v.die.fmn.tableLoad = none ∧
  v.die.pwr.sscInEffect = sscClamped (v.reg CLK_SSC) ∧ v.die.fmn.restores = [] ∧ v.die.reports = [] ∧ v.slotsWhere 37 (fun b => b.toNat.testBit 1) = []

/-- STEP_START and COMPOSE_BATCH with no flip pending: a start due in a step, or while cores run the build's table-load entry,
is held and counted once; a blocked start is held and counted once; cores that wait for the table-load entry run it
before the step, whose start is then held; a composed step of one entry that nothing holds starts at its time, once pending accumulator modes
have taken effect, with its group's idle cores at the entry's first instruction and their predicates from fixed-bank
register 0; a start whose accumulator mode differs is refused and named to the Foreman. Between steps, under RUN and with a model that is not
stopped, a step is composed for the next start, FIRST_FT and a whole number of periods: an empty batch where no slot is in use, and where one DECODE slot is, its
entry, with its committed length and SPEC_LEN + 1 tokens; else COMPOSE_BATCH changes nothing (R60, R95, R118, R260, R327,
R328, R333, R347, R483, R506, R538, R593). -/
def Obligations.StepsStart : Prop :=
  ∀ s : State, s.die.live = true → s.die.ecc = [] → s.die.bursts = [] → s.die.fmn.flip = none → s.die.reports = [] →
    let v := view s
    (s.die.step = none → s.die.fmn.composed = none → runs .stepStart s v) ∧
    (∀ t r, s.die.step = some t → t.tables = false → s.die.fmn.run = some r → r.period ≠ 0 → r.heldCounted = false →
      ∃ m, runs .stepStart s m ∧ m.die.step = v.die.step ∧ m.mem = v.mem ∧ counted v m CMT_START_HOLD_CNT ∧
        sameRegs v m [CMT_START_HOLD_CNT] ∧ m.die.fmn.run = some { r with heldCounted := true } ∧
        m.die.ft = max s.die.ft r.next) ∧
    (∀ t r, s.die.step = some t → t.tables = false → s.die.fmn.run = some r → r.heldCounted = true → runs .stepStart s v) ∧
    (∀ t c, s.die.step = some t → t.tables = true → s.die.fmn.composed = some c → c.heldCounted = false →
      ∃ m, runs .stepStart s m ∧ m.die.step = some t ∧ m.mem = v.mem ∧ counted v m CMT_START_HOLD_CNT ∧
        sameRegs v m [CMT_START_HOLD_CNT] ∧ m.die.fmn.composed = some { c with heldCounted := true } ∧
        m.die.ft = max s.die.ft c.start) ∧
    (∀ c, s.die.step = none → s.die.fmn.composed = some c →
      let w := (v.reach c.start).accBoundary
      (v.startBlocked c = true → c.heldCounted = false →
        ∃ m, runs .stepStart s m ∧ m.die.step = none ∧ m.mem = v.mem ∧ counted v m CMT_START_HOLD_CNT ∧
          sameRegs v m [CMT_START_HOLD_CNT] ∧ m.die.fmn.composed = some { c with heldCounted := true }) ∧
      (∀ k i x rest, v.startBlocked c = false → c.heldCounted = false → s.die.fmn.tableCores = [k] → (v.core k).st = .idle →
        s.die.fmn.models = (i, x) :: rest →
        ∃ m t, runs .stepStart s m ∧ m.die.step = some t ∧ t.tables = true ∧ t.cores = [k] ∧ m.die.fmn.tableCores = [] ∧
          t.entries = [((Config.tableLoadEntry (ofBytes x.programDigest)).val, .running)] ∧ (m.core k).st = .running ∧
          counted v m CMT_START_HOLD_CNT ∧ m.die.fmn.composed = some { c with heldCounted := true }) ∧
      (v.startBlocked c = false → s.die.fmn.tableCores = [] → s.die.fmn.tableLoad = none → w.modeDiffers c = true → c.items = [] →
        s.die.fmn.releases = [] → s.die.fmn.shipWaits = [] →
        ∃ m, runs .stepStart s m ∧ m.die.step = none ∧ m.die.fmn.refusedStep = some c.number ∧ m.mem = w.mem ∧ counted w m FMN_DET_MODE_REFUSE_CNT ∧
          sameRegs w m [FMN_DET_MODE_REFUSE_CNT] ∧ m.die.fmn.composed = none) ∧
      (v.startBlocked c = false → s.die.fmn.tableCores = [] → s.die.fmn.tableLoad = none → w.modeDiffers c = false → c.attempt = 0 → c.patches = [] → c.entryCount = 1 →
        (v.entry c.firstEntry).valid = true → (v.entry c.firstEntry).startFence = 0xFF →
        (∀ k ∈ v.groupCores (v.entry c.firstEntry).group, (v.core k).st = .idle) →
        let members := v.groupCores (v.entry c.firstEntry).group
        ∃ m t, runs .stepStart s m ∧ m.die.step = some t ∧ t.number = c.number ∧ t.attempt = 0 ∧ t.error = false ∧
          t.startFt = max v.die.ft c.start ∧ m.die.ft = max v.die.ft c.start ∧ t.entries = [(c.firstEntry, .running)] ∧
          t.cores = members ∧ t.slots = c.items.map (·.slot) ∧ m.die.stepNumber = c.number ∧
          m.fld FMN_SEQ_STATUS 63 32 = c.number % 2 ^ 32 ∧ m.fld FMN_SEQ_STATUS 1 0 = 2 ∧ m.fld FMN_SEQ_STATUS 19 10 = 1 ∧
          (∀ k ∈ members, (m.core k).st = .running ∧ (m.core k).pc = (v.entry c.firstEntry).pc ∧ (m.core k).x = [] ∧
            (m.core k).queue = (w.core k).queue ∧ (m.core k).cycle = 0 ∧ (m.core k).entry = some c.firstEntry ∧
            (m.preds k).testBit 0 = true ∧ ∀ p, 0 < p → p < 16 → (m.preds k).testBit p = (v.param k 0).testBit p) ∧
          (∀ k, k ∉ members → m.core k = w.core k) ∧ m.mem = w.mem ∧
          sameRegs w m (FMN_SEQ_STATUS :: members.map fun k => coreReg k CORE_PRED))) ∧
    (s.die.step.isSome = true ∨ s.die.fmn.composed.isSome = true → ∀ start, runs (.composeBatch start) s v) ∧
    (s.die.step = none → s.die.fmn.composed = none → s.die.fmn.run = none → ∀ start, runs (.composeBatch start) s v) ∧
    (∀ r start, s.die.fmn.run = some r → start ≠ v.movedStart r.next → runs (.composeBatch start) s v) ∧
    (∀ r i x rest, s.die.step = none → s.die.fmn.composed = none → s.die.fmn.run = some r → r.period ≠ 0 →
      s.die.fmn.models = (i, x) :: rest → x.stopped = false → s.die.fmn.siteRetired = false → v.sitesLack x = false → s.die.fmn.drain = none →
      (∀ cl, v.slotsInUse = [] → coveringClass x.classes 0 0 = some cl →
        ∃ m c, runs (.composeBatch (v.movedStart r.next)) s m ∧ m.die.fmn.composed = some c ∧ c.number = v.die.stepNumber + 1 ∧
          c.attempt = 0 ∧ c.model = x.index ∧ c.epoch = v.runEpoch ∧ c.start = v.movedStart r.next ∧ c.items = [] ∧ c.inputs = [] ∧
          c.firstEntry = cl.first ∧ c.entryCount = cl.count ∧ m.die.step = none ∧
          m.die.fmn.run = some { r with next := r.next + r.period, heldCounted := false }) ∧
      (∀ slot cl, v.slotsInUse = [slot] → v.maySchedule x.index slot = true → v.tState slot = tDECODE →
        (v.unread slot).1 ≤ ringEligible → v.estimate slot ≤ 32 * s.die.fmn.seamBudget →
        coveringClass x.classes 1 0 = some cl →
        ∃ m c, runs (.composeBatch (v.movedStart r.next)) s m ∧ m.die.fmn.composed = some c ∧ c.number = v.die.stepNumber + 1 ∧
          c.items = [{ slot, kind := 0, spec := v.tSpec slot, pos := v.tLen slot, count := v.tSpec slot + 1,
                       root := v.tRoot slot, seed := v.tally slot oSEED 8, inIndex := 0, tenant := v.tTenant slot }] ∧
          c.inputs = (v.carry slot).1.take (v.tSpec slot + 1) ∧ c.firstEntry = cl.first ∧ c.entryCount = cl.count ∧
          m.tally slot oSKIP 2 = 0))

/-- A step left open by the loss of a peer: the answer that nothing was released, or that the group aborted, drops it; an answer
that it committed commits it late; an answer for another generation changes nothing (R500). The step has no entries. -/
def Sys2Proof.openStepResolves (s : State) (c : Composition) (gen : Nat) (msg : Bytes) : Prop :=
  let v := view s
  let body := msgBody msg
  s.die.live = true → quiet v → s.die.step = none → s.die.fmn.composed = some c → c.items = [] → s.die.fmn.peerLost = some gen →
  byteAt body 0 = 2 → byteAt body 1 = v.commitBar →
  (numAt body 2 2 ≠ gen → runs (.foremanMessage msg) s v) ∧
  (numAt body 2 2 = gen → byteAt body 6 ≠ 1 → ∃ m, runs (.foremanMessage msg) s m ∧ m.die.fmn.composed = none ∧
    m.die.fmn.peerLost = none ∧ counted v m FMN_STEP_DROP_CNT ∧ m.die.wbOut = v.die.wbOut) ∧
  (numAt body 2 2 = gen → byteAt body 6 = 1 → ∃ m, runs (.foremanMessage msg) s m ∧ m.die.fmn.composed = none ∧
    m.die.fmn.peerLost = none ∧ counted v m FMN_LATE_COMMIT_CNT ∧ counted v m CMT_STEP_COMMIT_CNT ∧
    m.die.wbOut = v.die.wbOut ++ List.replicate 2 (reportFrame (v.die.rseq + 1) c.number (numAt body 8 8) v.die.session []))

/-- The decision of a group on a faulted step that the module waits for: DROP drops it, and RERUN, where no unit is to be
repaired, names it again as attempt 4 (R498, R499, R501; how the decision travels is log entry 84's choice). -/
def Sys2Proof.decisionActs (s : State) (c : Composition) (msg : Bytes) : Prop :=
  let v := view s
  let body := msgBody msg
  s.die.live = true → quiet v → s.die.step = none → s.die.fmn.composed = some c → c.items = [] → s.die.fmn.peerLost = none →
  v.grouped = true → byteAt body 0 = 4 → byteAt body 1 = v.commitBar → numAt body 8 8 = c.number →
  (byteAt body 6 ≠ 1 → ∃ m, runs (.foremanMessage msg) s m ∧ m.die.fmn.composed = none ∧ m.die.fmn.deciding = none ∧
    counted v m FMN_STEP_DROP_CNT) ∧
  (byteAt body 6 = 1 → v.limitRepair c = none → ∃ m x, runs (.foremanMessage msg) s m ∧ m.die.fmn.composed = some x ∧
    x.attempt = 4 ∧ x.number = c.number ∧ x.items = c.items ∧ m.die.fmn.deciding = none ∧ counted v m FMN_STEP_RERUN_CNT)

/-- STEP_COMMIT and what ends a step otherwise: a step that is not done stays; a run of the table-load entry ends by itself and
commits nothing; a clean one without entries commits, is counted
and reported twice to the Weighbridge, and so does one with a single decode entry, whose length moves on by the accepted
drafts and one; one with an error is replayed as the next attempt, and at its replay limit faulted, captured and, where it
cannot be run again, dropped; in group mode the module arrives at its commit barrier, whose clean release commits, and
whose expiry, in a module that has no such barrier, faults the step; an outcome learned later decides a step left open, and
a decision of the group a faulted one (R31, R334, R335, R339, R342 to R345, R467, R494, R498 to R501, R506, R606). -/
def Obligations.StepsEnd : Prop :=
  (∀ (s : State) (t : Step), s.die.live = true → s.die.step = some t → t.tables = true → t.schedFault = false → t.error = false →
    quiet (view s) →
    ((view s).computeDone = false → runs .stepCommit s (view s)) ∧
    ((view s).computeDone = true → ∃ m, runs .stepCommit s m ∧ m.die.step = none ∧ m.die.fmn.composed = s.die.fmn.composed ∧
      m.reg CMT_STEP_COMMIT_CNT = (view s).reg CMT_STEP_COMMIT_CNT ∧ m.reg CMT_STATUS = (view s).reg CMT_STATUS)) ∧
  (∀ (s : State) (t : Step) (c : Composition), s.die.live = true → s.die.step = some t → t.tables = false →
    s.die.fmn.composed = some c → quiet (view s) → s.die.fmn.peerLost = none →
    let v := view s
    let drops := fun (m : M) (cause : Nat) => m.die.step = none ∧ m.die.fmn.composed = none ∧ counted v m CMT_STEP_FAULT_CNT ∧
      counted v m FMN_STEP_DROP_CNT ∧ m.regN CMT_STEP_COMMIT_CNT = v.regN CMT_STEP_COMMIT_CNT ∧ m.die.wbOut = v.die.wbOut ∧
      (v.flag CMT_FAULT_CAP 63 = false → m.flag CMT_FAULT_CAP 63 = true ∧ m.fld CMT_FAULT_CAP 39 36 = cause)
    let commits := fun (m : M) => m.die.step = none ∧ m.die.fmn.composed = none ∧ counted v m CMT_STEP_COMMIT_CNT ∧
      m.regN CMT_LAST_STEP = c.number % 2 ^ 64 ∧ m.flag FMN_HOST_IRQ_EVT 0 = true ∧ m.die.rseq = v.die.rseq + 1
    (t.groupAt = none → v.computeDone = false → t.schedFault = false → runs .stepCommit s v) ∧
    (t.groupAt = none → v.computeDone = true → v.flag CMT_CTRL 0 = false → t.schedFault = false →
      (t.error = false → c.items = [] → ∃ m, runs .stepCommit s m ∧ commits m ∧ m.die.wbOut = v.die.wbOut ++
        List.replicate 2 (reportFrame (v.die.rseq + 1) c.number v.die.ft v.die.session [])) ∧
      (∀ b r, t.error = false → (v.recordEntries c).1 = [(b, r)] → b.kind = 0 → b.slot < tallySlots → v.tState b.slot = tDECODE →
        v.resultInvalid b r = false → v.tFlag b.slot fFAULT = false → v.tFlag b.slot fCANCEL = false →
        v.tally b.slot oDEADLINE 6 = 0 → v.tally b.slot oSTOP 4 ∉ v.posted b r →
        b.pos + 1 + (v.posted b r).length ≠ v.tally b.slot oMAX_LEN 4 →
        ∃ m, runs .stepCommit s m ∧ commits m ∧ m.tState b.slot = tDECODE ∧
          m.tLen b.slot = (b.pos + 1 + r.accept) % 2 ^ 32 ∧ m.tally b.slot oLAST_STEP 4 = c.number % 2 ^ 32 ∧
          m.regN CMT_TOKEN_CNT = min (v.regN CMT_TOKEN_CNT + (v.posted b r).length) counterMax ∧
          m.regN CMT_DRAFT_ACCEPT_CNT = min (v.regN CMT_DRAFT_ACCEPT_CNT + r.accept) counterMax ∧
          (v.posted b r ≠ [] → m.die.wbOut = v.die.wbOut ++ List.replicate 2 (reportFrame (v.die.rseq + 1) c.number v.die.ft
            v.die.session [{ tenant := b.tenant, prefill := 0, output := (v.posted b r).length }]))) ∧
      (t.error = true → t.exhausted = false → t.peerLost = false → t.attempt ≠ 3 → t.attempt ≠ 7 →
        ∃ m x, runs .stepCommit s m ∧ m.die.step = none ∧ counted v m CMT_STEP_REPLAY_CNT ∧ m.die.fmn.composed = some x ∧
          x.attempt = t.attempt + 1 ∧ x.number = c.number ∧ x.items = c.items ∧ x.inputs = c.inputs ∧ x.patches = c.patches ∧
          m.die.wbOut = v.die.wbOut ∧ m.regN CMT_STEP_COMMIT_CNT = v.regN CMT_STEP_COMMIT_CNT) ∧
      (t.error = true → t.exhausted = false → t.peerLost = false → t.attempt = 3 ∨ t.attempt = 7 →
        v.flag FMN_ERR_CTRL 0 = false ∨ 4 ≤ c.attempt →
        ∃ m, runs .stepCommit s m ∧ drops m 1)) ∧
    (t.groupAt = none → v.computeDone = true → v.flag CMT_CTRL 0 = true → v.barValid v.commitBar = false →
      ∃ m x, runs .stepCommit s m ∧ m.die.step = some x ∧ x.groupAt = some v.die.ft ∧ x.error = t.error ∧
        m.fld CMT_STATUS 2 0 = 2 ∧ sameRegs v m [CMT_STATUS] ∧ m.mem = v.mem) ∧
    (∀ ft, t.groupAt = some ft →
      ((v.bar v.commitBar).own = false → v.grouped = false → ∃ m, runs .groupWdogExpiry s m ∧ drops m 4 ∧
        m.die.ft = max v.die.ft (ft + v.regN CMT_GROUP_WDOG)) ∧
      (∀ value time, v.commitBar < 256 → v.flag CMT_CTRL 0 = true → c.items = [] → (v.bar v.commitBar).early = [] →
        (v.bar v.commitBar).ownEarly = none → (v.bar v.commitBar).nextRelease = none → v.copyStale = false →
        (v.bar v.commitBar).release = some (0, value, time) →
        ∃ m, runs (.barrierReleaseAct v.commitBar) s m ∧ commits m ∧ (m.bar v.commitBar).release = none ∧
          (m.bar v.commitBar).gen = ((v.bar v.commitBar).gen + 1) % 65536 ∧ m.die.ft = max v.die.ft time)) ∧
    (∀ b, (v.bar b).release = none ∨ v.copyStale = true → runs (.barrierReleaseAct b) s v)) ∧
  (∀ s c gen msg, openStepResolves s c gen msg) ∧ ∀ s c msg, decisionActs s c msg

/-! ## Requests, parking and the Tally (chapters 7, 8 and 14) -/

/-- A ring whose turn it is, with one entry that waits, of this code, while no other ring has one: its ring; and no error waits in
memory. -/
def Sys2Proof.ringHolds (s : State) (r opcode : Nat) (g : Ring) : Prop :=
  s.die.live = true ∧ s.die.bursts = [] ∧ s.die.ecc = [] ∧
  (∀ p ∈ s.die.fmn.rings, p.1 ≠ r → p.2.waiting = 0 ∨ p.2.stopped = true) ∧ r < 64 ∧ (view s).ring r = some g ∧ (view s).ringTake r opcode = some g.consumer ∧
  g.closing = none ∧ g.waiting = 1 ∧ g.consumer < 2 ^ 32 ∧ g.producer < 2 ^ 32 ∧ g.k ≤ 12 ∧ g.base < 2 ^ 37

/-- An entry completed on its ring: its STATUS holds the code, the consumer index has passed it, the entry is counted and the
ring's interrupt bit is set (R319, R526, R527). -/
def Sys2Proof.ringDone (v m : M) (r : Nat) (g : Ring) (code : Nat) : Prop :=
  m.ring r = some { g with consumer := (g.consumer + 1) % 2 ^ 32 } ∧
  m.carveN (carveWrap (g.entry g.consumer + 1)) 1 = code ∧ counted v m FMN_RING_ENTRY_CNT ∧ m.flag FMN_HOST_IRQ_RING r = true

/-- The request commands of a ring: SUBMIT makes a FREE slot QUEUED and writes it back; CANCEL ends a request outside a batch;
RELEASE frees an ended one and waits for the commit within a batch; EXTEND queues a DONE one again behind its base token;
REPREFILL starts a STATE_INCOMPLETE one over; SHIP marks one that is not yet decoding, after the commit where it is in a batch;
QUERY returns the entry, of a slot in a batch as it stood before the step; PARK and RESUME reserve their pages and run on; and each that the slot's state does not allow completes with STATE and changes
nothing of it (R306, R310, R315 to R317, R319, R324, R389, R529, R532, R533; Tables 8.3 and 14.5). -/
def Obligations.RequestCommands : Prop :=
  ∀ (s : State) (r : Nat) (g : Ring),
    let v := view s
    let e := g.entry g.consumer
    let slot := v.entrySlot e
    let v1 := (v.countTurn r).count FMN_RING_ENTRY_CNT
    (∀ q root w1 w2, ringHolds s r 0x01 g → v.submitClean e = true → promptCheck (v.carveN (e + 44) 4) (v.carveN (e + 48) 8) = none →
      (mapGet v.die.fmn.models (v.carveN (e + 3) 1)).isSome = true → v1.freeSlot = (some q, w1) →
      w1.allocRoot q (Config.rootGeometry (v.carveN (e + 3) 1)).toNat = (some root, w2) → q < tallySlots →
      ∃ m, runs (.submit r) s m ∧ ringDone v m r g ccOK ∧ m.carveN (carveWrap (e + 4)) 4 = q ∧ m.tState q = tQUEUED ∧
        m.tLen q = 0 ∧ m.tRoot q = root % 2 ^ 32 ∧ m.tModel q = v.carveN (e + 3) 1 ∧ m.tally q oEPOCH 2 = v.runEpoch ∧
        m.tPriority q = v.carveN (e + 2) 1 % 8 ∧ m.tally q oPROMPT 4 = v.carveN (e + 44) 4 ∧ m.tally q oOUT_PROD 4 = 0 ∧
        mapGet m.die.fmn.prompts q = some { addr := v.carveN (e + 48) 8, first := none, start := 0 }) ∧
    (ringHolds s r 0x02 g → v.entryClean e [] = true → v.tState slot = tDECODE → v.inBatch slot = false →
      mapGet v.die.parkJobs slot = none → ∃ m, runs (.cancel r) s m ∧ ringDone v m r g ccOK ∧ m.tState slot = tCANCELLED) ∧
    (ringHolds s r 0x02 g → v.entryClean e [] = true → v.tState slot = tDECODE → v.inBatch slot = true →
      ∃ m, runs (.cancel r) s m ∧ ringDone v m r g ccOK ∧ m.tState slot = tDECODE ∧ m.tFlag slot fCANCEL = true) ∧
    (ringHolds s r 0x05 g → v.entryClean e [] = true → v.inBatch slot = false → 7 ≤ v.tState slot → v.tState slot ≤ 11 →
      ∃ m, runs (.release r) s m ∧ ringDone v m r g ccOK ∧ m.tState slot = tFREE) ∧
    (ringHolds s r 0x05 g → v.entryClean e [] = true → v.inBatch slot = true →
      ∃ m, runs (.release r) s m ∧ m.die.fmn.releases = v.die.fmn.releases ++ [(slot, r, g.consumer)] ∧ m.ring r = some g ∧
        m.mem = v.mem ∧ sameRegs v m [FMN_RING_ENTRY_CNT]) ∧
    (ringHolds s r 0x06 g → v.entryClean e [(8, 16)] = true → v.tState slot = tDONE → v.extendRefused slot = false →
      promptCheck (v.carveN (e + 8) 4) (v.carveN (e + 16) 8) = none →
      ∃ m, runs (.extend r) s m ∧ ringDone v m r g ccOK ∧ m.tState slot = tQUEUED ∧ m.tLen slot = v.tLen slot ∧
        m.tally slot oPROMPT 4 = 1 + v.carveN (e + 8) 4 ∧ m.tally slot oMAX_LEN 4 = v.carveN (e + 12) 4 ∧
        m.tFlag slot fSTOP = false ∧ m.tFlag slot fMAX = false ∧ mapGet m.die.fmn.prompts slot =
          some { addr := v.carveN (e + 16) 8, first := some ((v.carry slot).1.getD 0 0), start := v.tLen slot }) ∧
    (∀ root w, ringHolds s r 0x07 g → v.entryClean e [(8, 4), (16, 8)] = true → v.tState slot = tINCOMPLETE →
      promptCheck (v.carveN (e + 8) 4) (v.carveN (e + 16) 8) = none →
      v1.allocRoot slot (Config.rootGeometry (v.tModel slot)).toNat = (some root, w) →
      ∃ m, runs (.reprefill r) s m ∧ ringDone v m r g ccOK ∧ m.tState slot = tQUEUED ∧ m.tLen slot = 0 ∧
        m.tRoot slot = root % 2 ^ 32 ∧ m.tally slot oPROMPT 4 = v.carveN (e + 8) 4 ∧ m.tally slot oEPOCH 2 = v.runEpoch ∧
        m.tFlag slot fEPOCH = false ∧ m.tSpec slot = 0) ∧
    (ringHolds s r 0x08 g → v.entryClean e [(8, 2)] = true → v.inBatch slot = false → v.tState slot = tQUEUED ∨ v.tState slot = tPREFILL →
      ∃ m, runs (.ship r) s m ∧ ringDone v m r g ccOK ∧ m.tState slot = v.tState slot ∧ m.tFlag slot fSHIP = true ∧
        mapGet m.die.fmn.shipDest slot = some (v.carveN (e + 8) 2)) ∧
    (ringHolds s r 0x08 g → v.entryClean e [(8, 2)] = true → v.inBatch slot = true →
      ∃ m, runs (.ship r) s m ∧ m.die.fmn.shipWaits = v.die.fmn.shipWaits ++ [(slot, r, g.consumer, v.carveN (e + 8) 2)] ∧
        m.ring r = some g ∧ m.die.fmn.shipDest = v.die.fmn.shipDest ∧ m.mem = v.mem ∧ sameRegs v m [FMN_RING_ENTRY_CNT]) ∧
    (∀ c bs, ringHolds s r 0x09 g → v.entryClean e [] = true → v.tState slot ≠ tFREE → v.inBatch slot = true →
      v.die.fmn.composed = some c → mapGet c.before slot = some bs → bs.length = 64 →
      ∃ m, runs (.query r) s m ∧ ringDone v m r g ccOK ∧ m.carve (carveWrap (e + 64)) 64 = bs ∧
        m.read (tallyBase slot) 64 = v.read (tallyBase slot) 64) ∧
    (ringHolds s r 0x09 g → v.entryClean e [] = true → v.inBatch slot = false → v.tState slot ≠ tFREE →
      ∃ m, runs (.query r) s m ∧ ringDone v m r g ccOK ∧ m.carve (carveWrap (e + 64)) 64 = v.read (tallyBase slot) 64 ∧
        m.read (tallyBase slot) 64 = v.read (tallyBase slot) 64) ∧
    (ringHolds s r 0x03 g → v.entryClean e [(8, 4)] = true → v.inBatch slot = false → mapGet v.die.parkJobs slot = none →
      v.tState slot = tDECODE → v.planFits (v.parkPlan slot (v.tRoot slot / 32) (geometryOf (v.requestWord slot)))
        (parkedPages (geometryOf (v.requestWord slot))) (fun _ => 0) = true →
      ∃ m j, runs (.park r) s m ∧ mapGet m.die.parkJobs slot = some j ∧ j.resume = false ∧ j.ring = r ∧ j.entry = g.consumer ∧
        m.tState slot = tDECODE ∧ m.ring r = some g) ∧
    (ringHolds s r 0x03 g → v.entryClean e [(8, 4)] = true → v.inBatch slot = false → mapGet v.die.parkJobs slot = none →
      v.tState slot ≠ tDECODE → ∃ m, runs (.park r) s m ∧ ringDone v m r g ccSTATE ∧ m.tState slot = v.tState slot ∧
        m.die.parkJobs = v.die.parkJobs) ∧
    (∀ p, ringHolds s r 0x04 g → v.entryClean e [] = true → v.inBatch slot = false → mapGet v.die.parkJobs slot = none →
      v.tState slot = tPARKED → mapGet v.die.parked slot = some p →
      ((∀ x, p.expiry = some x → v.die.ft < x) →
        v.planFits p.layers (fun x => x.indices.length) (fun x => chainBlocks (resumeEntries x) -
          (v.chain x.stack (v.tRoot slot / 32) x.layer).length) = true →
        ∃ m j, runs (.resume r) s m ∧ mapGet m.die.parkJobs slot = some j ∧ j.resume = true ∧ j.ring = r ∧
          j.entry = g.consumer ∧ m.tState slot = tPARKED ∧ mapGet m.die.parked slot = some { p with expiry := none }) ∧
      (∀ x, p.expiry = some x → x ≤ v.die.ft → ∃ m, runs (.resume r) s m ∧ ringDone v m r g ccEXPIRED ∧
        m.tState slot = tPARKED ∧ mapGet m.die.parked slot = some p))

/-- The Tally and parking: firmware's write of an entry, in order behind the module's own, leaves its reserved bits zero,
and meets the entry's errors, a corrected one of which is counted; an uncorrectable error in an entry frees and faults its
request; parking ends PARKED with its expiry time, resume ends DECODE, and the visit at or after the expiry time frees a
PARKED request and makes it EXPIRED (R12, R305 to R308, R312 to R314). -/
def Obligations.TallyAndParking : Prop :=
  ∀ (s : State) (slot : Nat), s.die.live = true → s.die.bursts = [] →
    let v := view s
    (∀ off width (value : Word) (same : Bool), slot < tallySlots → off < 64 → (width = 8 ∨ width = 4) → off % width = 0 →
      let written := fun (m : M) => m.writeMasked tallyMask (tallyBase slot + off) (toBytes width value.toNat)
      (s.die.ecc = [] → runs (.tallyEntryWrite slot off width value same) s
        (if same then (written v).count TALLY_FW_WR_DEFER_CNT else written v)) ∧
      (∀ a mask x y z, s.die.ecc = [(a, mask)] → a < tallyBase slot + off + width → tallyBase slot + off < a + granuleSize 8 →
        eccJudge 8 a mask = .corrected x y z → ∃ m, runs (.tallyEntryWrite slot off width value same) s m ∧ m.die.ecc = [] ∧
          counted v m TALLY_CE_CNT ∧ m.mem = (written v).mem)) ∧
    (∀ off width (value : Word) (same : Bool), (width ≠ 8 ∧ width ≠ 4) ∨ off % width ≠ 0 →
      ∃ m, runs (.tallyEntryWrite slot off width value same) s m ∧ m.mem = v.mem ∧ counted v m HDF_CS_ACCESS_ERR_CNT) ∧
    (slot < tallySlots → mapGet v.die.parkJobs slot = none →
      ∃ m, runs (.tallyUe slot) s m ∧ m.tState slot = tFAULTED ∧ m.tRoot slot = noPage ∧ counted v m TALLY_UE_CNT ∧
        mapGet m.die.parked slot = none ∧ mapGet m.die.fmn.shipsIn slot = none ∧ mapGet m.die.fmn.shipsOut slot = none) ∧
    (tallySlots ≤ slot → runs (.tallyUe slot) s v) ∧
    (slot < tallySlots → ∀ j, mapGet v.die.parkJobs slot = some j →
      (j.resume = false → ∃ m p, runs (.parkComplete slot) s m ∧ m.tState slot = tPARKED ∧
        m.tLen slot = v.tLen slot ∧ mapGet m.die.parkJobs slot = none ∧ mapGet m.die.parked slot = some p ∧
        p.expiry = (if v.tally slot oTTL 4 = 0 then none else some (v.die.ft + 1000000 * v.tally slot oTTL 4)) ∧
        p.layers.map (fun x => (x.stack, x.layer, x.indices)) = j.layers.map (fun x => (x.stack, x.layer, x.indices))) ∧
      (j.resume = true → runs (.parkComplete slot) s v) ∧
      (j.resume = true → ∃ m, runs (.resumeComplete slot) s m ∧ m.tState slot = tDECODE ∧
        m.tLen slot = v.tLen slot ∧ mapGet m.die.parkJobs slot = none ∧ mapGet m.die.parked slot = none) ∧
      (j.resume = false → runs (.resumeComplete slot) s v)) ∧
    (∀ p t, slot < tallySlots → mapGet v.die.parked slot = some p → p.expiry = some t →
      (v.tState slot = tPARKED → ∃ m, runs (.parkedExpiry slot) s m ∧ m.tState slot = tEXPIRED ∧
        counted v m TALLY_EXPIRED_CNT ∧ mapGet m.die.parked slot = none ∧ m.die.ft = max v.die.ft t ∧
        (∀ root, v.rootOf slot = some root → m.tRoot slot = noPage)) ∧
      (v.tState slot ≠ tPARKED → runs (.parkedExpiry slot) s v))

/-! ## Page shipping, weights and epochs (chapters 8, 9 and 14) -/

/-- One message has been originated: it is counted, and one to this module itself waits on the loopback with its type, its
type-specific fields and its body (R446, Tables 11.1 and 11.2). -/
def Sys2Proof.sent (v m : M) (type dest : Nat) (ts body : Bytes) : Prop :=
  counted v m RYS_XPT_MSG_TX_CNT ∧
  (dest = v.moduleId → ∃ b, m.die.loopback = v.die.loopback ++ [((messageClass type).getD 0, b)] ∧ msgType b = type ∧
    msgDest b = dest ∧ msgSrc b = v.moduleId ∧ slice b 12 16 = slice ts 0 16 ∧ msgBody b = body)

/-- The type-specific fields of a SHIP_CTL message (Table 11.2). -/
def Sys2Proof.shipTs (op id : Nat) : Bytes := toBytes 1 op ++ zeros 3 ++ toBytes 8 id

/-- The sender of a shipment: its offer goes out once, within the limit of 256; the accept starts its pages; a refusal,
SHIP_DONE, SHIP_FAIL or the end of the hold frees the request, CANCELLED when a CANCEL was latched; pages asked for again go
out again, and a shipment that is gone answers SHIP_FAIL (R349 to R351, R353, R356 to R358). -/
def Obligations.ShipmentsLeave : Prop :=
  ∀ (s : State) (slot : Nat) (msg : Bytes), s.die.live = true → s.die.bursts = [] →
    let v := view s
    let ended := fun (m : M) (q : Nat) (x : ShipOut) => mapGet m.die.fmn.shipsOut q = none ∧
      m.tState q = if x.cancel then tCANCELLED else tFREE
    (mapGet v.die.fmn.shipsOut slot = none → runs (.shipOfferSend slot) s v ∧ runs (.shipHoldExpiry slot) s v) ∧
    (∀ x, mapGet v.die.fmn.shipsOut slot = some x →
      (x.offered = true ∨ shipLimit ≤ v.shipsOffered → runs (.shipOfferSend slot) s v) ∧
      (x.offered = false → v.shipsOffered < shipLimit →
        ∃ m, runs (.shipOfferSend slot) s m ∧ m.mem = v.mem ∧
          mapGet m.die.fmn.shipsOut slot = some { x with offered := true } ∧
          sent v m tySHIP_CTL x.dest (shipTs 1 (v.shipId slot x.number)) (v.offerBody slot).1) ∧
      (x.accepted = none → runs (.shipHoldExpiry slot) s v) ∧
      (∀ t, slot < tallySlots → x.accepted = some t → ∃ m, runs (.shipHoldExpiry slot) s m ∧ ended m slot x ∧
        counted v m TALLY_SHIP_HOLD_EXPIRE_CNT ∧ m.die.ft = max v.die.ft (t + 2 * 1000000 * x.timeoutMs))) ∧
    (v.shipOutOf msg = none →
      (∀ i, i = .shipAcceptReceive msg ∨ i = .shipRefuseReceive msg ∨ i = .shipDoneReceive msg ∨ i = .shipFailReceive msg →
        runs i s v) ∧
      ∃ m, runs (.shipRereqReceive msg) s m ∧ m.mem = v.mem ∧
        sent v m tySHIP_CTL (msgSrc msg) (shipTs 6 (shipMsgId msg)) []) ∧
    (∀ q x, v.shipOutOf msg = some (q, x) →
      (x.accepted = none → ∃ m, runs (.shipAcceptReceive msg) s m ∧ m.mem = v.mem ∧
        mapGet m.die.fmn.shipsOut q = some { x with accepted := some v.die.ft, timeoutMs := v.shipTimeoutMs } ∧
        m.regN TALLY_SHIP_PAGE_TX_CNT = min (v.regN TALLY_SHIP_PAGE_TX_CNT + (v.shipPages q).length) counterMax) ∧
      (x.accepted.isSome = true → runs (.shipAcceptReceive msg) s v ∧ runs (.shipRefuseReceive msg) s v) ∧
      (x.accepted = none → ∃ m, runs (.shipRefuseReceive msg) s m ∧ ended m q x) ∧
      (∀ i, i = .shipDoneReceive msg ∨ i = .shipFailReceive msg → ∃ m, runs i s m ∧ ended m q x) ∧
      (∃ m, runs (.shipRereqReceive msg) s m ∧ m.mem = v.mem ∧ m.die.fmn.shipsOut = v.die.fmn.shipsOut ∧
        m.regN TALLY_SHIP_PAGE_TX_CNT = min (v.regN TALLY_SHIP_PAGE_TX_CNT + ((List.range (min 64 (msgLen msg / 4))).filter
          fun i => decide (numAt (msgBody msg) (4 * i) 4 < (v.shipPages q).length)).length) counterMax))

/-- The receiver of a shipment: an offer it may take reserves a slot and is accepted, another is refused; a page whose CRC fails
or that came before is counted and lands nowhere, and one whose CRC fails is asked for again; a page that counts is written to its reserved page; the last one makes
the request decode with the offer's length and answers SHIP_DONE; a missing page is asked for again, and after the last
re-request, or TIMEOUT_MS after the accept, the request is STATE_INCOMPLETE (R350, R352 to R355). -/
def Obligations.ShipmentsArrive : Prop :=
  ∀ (s : State) (slot : Nat) (msg : Bytes), s.die.live = true → s.die.bursts = [] →
    let v := view s
    let offer := msgBody msg
    let b := slice (msgBody msg) 0 shipBytes
    let seq := numAt b 8 4
    let good := crc32c (slice b 0 60 ++ b.drop 64) == numAt b 60 4
    let incomplete := fun (m : M) (x : ShipIn) => m.tState slot = tINCOMPLETE ∧ mapGet m.die.fmn.shipsIn slot = none ∧
      counted v m TALLY_SHIP_INCOMPLETE_CNT ∧ sent v m tySHIP_CTL x.source (shipTs 6 x.id) []
    (v.adopts (msgSrc msg) = false → ∃ m, runs (.shipOfferReceive msg) s m ∧ m.mem = v.mem ∧
      m.die.fmn.shipsIn = v.die.fmn.shipsIn ∧ sent v m tySHIP_CTL (msgSrc msg) (shipTs 3 (shipMsgId msg)) []) ∧
    (∀ q root w w2, v.adopts (msgSrc msg) = true → v.die.fmn.shipsIn.length < shipLimit →
      (mapGet v.die.fmn.models (offerField offer ofMODEL)).isSome = true → offerMatches offer = true →
      v.freeSlot = (some q, w) → q < tallySlots → w.roomForRequest q (geometryOf (offerField offer ofROOT))
        (pagesPerLayer (geometryOf (offerField offer ofROOT)) (offerField offer ofLEN)) (offerField offer ofTOTAL) = true →
      w.allocRoot q (offerField offer ofROOT) = (some root, w2) →
      ∃ m x, runs (.shipOfferReceive msg) s m ∧ m.tState q = tADOPTING ∧ m.tLen q = 0 ∧ m.tRoot q = root % 2 ^ 32 ∧
        m.tally q oMAX_LEN 4 = offerField offer ofMAX_LEN ∧ m.tally q oEPOCH 2 = offerField offer ofEPOCH ∧
        mapGet m.die.fmn.shipsIn q = some x ∧ x.id = shipMsgId msg ∧ x.source = msgSrc msg ∧ x.arrived = [] ∧
        x.total = offerField offer ofTOTAL ∧ x.acceptedAt = v.die.ft ∧
        sent v m tySHIP_CTL (msgSrc msg) (shipTs 2 (shipMsgId msg)) []) ∧
    ((∀ p ∈ v.die.fmn.shipsIn, p.2.id ≠ numAt b 0 8) →
      runs (.pageShipReceive msg) s (if good then v else v.count TALLY_SHIP_CRC_ERR_CNT)) ∧
    (∀ x, v.die.fmn.shipsIn.find? (fun p => p.2.id == numAt b 0 8) = some (slot, x) → good = false → seq < x.total →
      (mapGetD x.asked seq (0, 0)).1 < v.fld TALLY_SHIP_CTRL 35 32 →
      ∃ m y, runs (.pageShipReceive msg) s m ∧ counted v m TALLY_SHIP_CRC_ERR_CNT ∧ counted v m TALLY_SHIP_REREQ_CNT ∧
        (x.arrived.contains seq = true → counted v m TALLY_SHIP_DUP_CNT) ∧ mapGet m.die.fmn.shipsIn slot = some y ∧
        y.arrived = x.arrived ∧ m.mem = v.mem ∧ sent v m tySHIP_CTL x.source (shipTs 4 x.id) (toBytes 4 seq)) ∧
    (∀ x, slot < tallySlots → v.die.fmn.shipsIn.find? (fun p => p.2.id == numAt b 0 8) = some (slot, x) → good = true →
      seq < x.total →
      (x.arrived.contains seq = true → runs (.pageShipReceive msg) s (v.count TALLY_SHIP_DUP_CNT)) ∧
      (∀ q, x.arrived.contains seq = false → x.reserved (byteAt b 16) (numAt b 20 4) = some q →
        let y := { x with arrived := seq :: x.arrived, lastSeen := x.lastSeen || (byteAt b 17).testBit 0, pages := x.pages.erase q }
        (y.missing ≠ [] → (byteAt b 17).testBit 0 = false →
          (∀ k ∈ (v.tRoot slot / 32) :: v.chain q.1 (v.tRoot slot / 32) q.2.1,
            v.blockAddr q.1 k + 128 ≤ pageAddr q.1 q.2.2.2 ∨ pageAddr q.1 q.2.2.2 + pageSize ≤ v.blockAddr q.1 k) →
          ∃ m, runs (.pageShipReceive msg) s m ∧ counted v m TALLY_SHIP_PAGE_RX_CNT ∧
            mapGet m.die.fmn.shipsIn slot = some y ∧ m.tState slot = v.tState slot ∧
            m.read (pageAddr q.1 q.2.2.2) pageSize = slice b 64 pageSize) ∧
        (y.missing = [] → v.tally slot oEPOCH 2 = v.runEpoch →
          ∃ m, runs (.pageShipReceive msg) s m ∧ m.tState slot = tDECODE ∧ m.tLen slot = offerField x.offer ofLEN ∧
            mapGet m.die.fmn.shipsIn slot = none ∧ sent v m tySHIP_CTL x.source (shipTs 5 x.id) []))) ∧
    (mapGet v.die.fmn.shipsIn slot = none → runs (.shipRetryTimer slot) s v ∧ runs (.shipTimeout slot) s v) ∧
    (∀ x, slot < tallySlots → mapGet v.die.fmn.shipsIn slot = some x →
      (x.askedFor = [] → runs (.shipRetryTimer slot) s v) ∧
      (∀ q n t, x.askedFor = [(q, n, t)] → v.fld TALLY_SHIP_CTRL 35 32 ≤ n →
        ∃ m, runs (.shipRetryTimer slot) s m ∧ incomplete m x ∧ m.die.ft = max v.die.ft (t + 1000000 * v.shipRetryMs)) ∧
      (∀ q n t, x.askedFor = [(q, n, t)] → n < v.fld TALLY_SHIP_CTRL 35 32 → x.lastSeen = true →
        ∃ m y, runs (.shipRetryTimer slot) s m ∧ mapGet m.die.fmn.shipsIn slot = some y ∧ counted v m TALLY_SHIP_REREQ_CNT ∧
          mapGet y.asked q = some (n + 1, max v.die.ft (t + 1000000 * v.shipRetryMs)) ∧ m.mem = v.mem ∧
          sent v m tySHIP_CTL x.source (shipTs 4 x.id) (toBytes 4 q)) ∧
      (∃ m, runs (.shipTimeout slot) s m ∧ incomplete m x ∧
        m.die.ft = max v.die.ft (x.acceptedAt + 1000000 * x.timeoutMs)))

/-- A mailbox command completed. -/
def Sys2Proof.mbDone (m : M) (mb code : Nat) : Prop :=
  m.mbArg mb 1 1 = code ∧ m.mbBusy mb = false ∧ m.flag FMN_HOST_IRQ_MB mb = true

/-- A mailbox that holds a command of this code, its reserved bytes zero, in a module with no memory error. -/
def Sys2Proof.mbReady (s : State) (mb opcode : Nat) : Prop :=
  s.die.live = true ∧ s.die.bursts = [] ∧ s.die.ecc = [] ∧ (view s).mbHolds mb opcode = true ∧ (view s).mbArg mb 4 4 = 0

/-- Loads and epochs by mailbox: LOAD_MODEL, once every stack is filled, and PREPARE_EPOCH that pass their checks hold their
manifest and fetch it, and wait; a manifest of another module's role is held to be relayed (log entry 77, the model's
choice); SHARD_POST verifies a shard against its manifest entry or refuses its digest; UNLOAD_MODEL leaves no model, and
waits for the end of the step; EPOCH_FLIP names its T and U; CANCEL_PREPARE drops the preparation and ends the command that
waits for it; and each is refused where
its rule says so (R364, R365, R366, R369, R373, R377, R383, R388, R525, R529, R535, R638). -/
def Obligations.LoadsAndEpochCommands : Prop :=
  ∀ (s : State) (mb : Nat),
    let v := view s
    let ma := v.mbArg mb 64 8
    let ml := v.mbArg mb 72 4
    let man := (v.stripedRead carveAddr ma ml 2).1
    let build := (v.stripedRead carveAddr (v.mbArg mb 16 8) (v.mbArg mb 24 8) 2).1
    let digest := v.read (mailboxBase mb + 32) 32
    let opened := fun (m : M) (use : ManifestUse) (half : Nat) => ∃ l x, m.die.fmn.openLoad = some l ∧ l.mailbox = mb ∧
      l.manifest = v.die.fmn.manifestNo ∧ m.manifest v.die.fmn.manifestNo = some x ∧ x.use = use ∧ x.half = half ∧
      x.digest = (manifestOf man digest v.die.fmn.manifestNo half use).digest ∧ m.mbBusy mb = true ∧
      m.die.fmn.models = v.die.fmn.models
    (mbReady s mb 0x20 → v.allFilled = false → runs (.loadModel mb) s v) ∧
    (mbReady s mb 0x20 → v.allFilled = true → v.loadBusy = true → ∃ m, runs (.loadModel mb) s m ∧ mbDone m mb ccBUSY ∧
      m.die.fmn = v.die.fmn) ∧
    (mbReady s mb 0x20 → v.allFilled = true → v.loadBusy = false → inCarve (v.mbArg mb 16 8) (v.mbArg mb 24 8) = true → inCarve ma ml = true →
      (v.die.hdf.loadsRefused = true → ∃ m, runs (.loadModel mb) s m ∧ mbDone m mb ccREFUSED ∧ m.die.fmn = v.die.fmn) ∧
      (v.loadCheck mb build man digest = none → v.sitesLack (v.modelOf build) = true →
        ∃ m, runs (.loadModel mb) s m ∧ mbDone m mb ccREFUSED ∧ m.die.fmn = v.die.fmn) ∧
      (v.die.fmn.siteRetired = false → v.die.hdf.loadsRefused = false → v.loadCheck mb build man digest = none →
        v.sitesLack (v.modelOf build) = false → (manifestOf man digest v.die.fmn.manifestNo 0 .loading).shards ≠ [] →
        (∀ x ∈ v.die.fmn.manifests, x.id ≠ v.die.fmn.manifestNo) →
        ∃ m, runs (.loadModel mb) s m ∧ opened m .loading 0)) ∧
    (∀ x, mbReady s mb 0x23 → v.loadBusy = false → v.manifestFor .preparing = none → inCarve ma ml = true →
      mapGet v.die.fmn.models (v.mbArg mb 8 1) = some x → (∀ y ∈ v.die.fmn.manifests, y.id ≠ v.die.fmn.manifestNo) →
      (v.roleElsewhere (numAt man 10 2 % 4096) = false → v.prepareCheck man digest x = none →
        (manifestOf man digest v.die.fmn.manifestNo (1 - v.runHalf) .preparing).shards ≠ [] →
        ∃ m, runs (.prepareEpoch mb) s m ∧ opened m .preparing (1 - v.runHalf) ∧ m.prep = pFETCHING ∧
          m.fld FMN_WT_STATUS 47 32 = numAt man 8 2 ∧ m.runEpoch = v.runEpoch) ∧
      (v.roleElsewhere (numAt man 10 2 % 4096) = true → manifestCheck man digest x.index = none → (v.gridCheck man).isSome = true →
        ∃ m, runs (.prepareEpoch mb) s m ∧ mbDone m mb ccREFUSED ∧ m.die.fmn = v.die.fmn) ∧
      (v.roleElsewhere (numAt man 10 2 % 4096) = true → manifestCheck man digest x.index = none → v.gridCheck man = none →
        ∃ m y, runs (.prepareEpoch mb) s m ∧ mbDone m mb ccOK ∧ m.manifest v.die.fmn.manifestNo = some y ∧ y.use = .relay ∧
          m.die.fmn.openLoad = none ∧ m.die.fmn.models = v.die.fmn.models ∧ m.prep = v.prep ∧ m.runEpoch = v.runEpoch)) ∧
    (mbReady s mb 0x23 → v.loadBusy = true ∨ (v.manifestFor .preparing).isSome = true →
      ∃ m, runs (.prepareEpoch mb) s m ∧ mbDone m mb ccBUSY ∧ m.die.fmn = v.die.fmn) ∧
    (mbReady s mb 0x21 → v.die.fmn.openLoad = none → ∃ m, runs (.shardPost mb) s m ∧ mbDone m mb ccNOT_READY ∧
      m.die.fmn = v.die.fmn) ∧
    (∀ l x i j sh other, mbReady s mb 0x21 → v.die.fmn.openLoad = some l → v.mbArg mb 8 4 < stagingFrames →
      l.frameBase ≤ v.mbArg mb 8 4 → v.mbArg mb 8 4 < l.frameBase + l.frameCount → inCarve (v.mbArg mb 16 8) shardHeader = true →
      let h := (v.stripedRead carveAddr (v.mbArg mb 16 8) shardHeader 2).1
      v.heldShard (numAt h 10 2) (numAt h 8 2) (byteAt h 6) (numAt h 14 2) = some (x, i, sh) →
      v.manifest l.manifest = some x → (∀ z ∈ v.die.fmn.manifests, z.id = l.manifest → z = x) → x.use ≠ .running →
      sh.verified = false → sh.asked = [] → x.shards[j]? = some other → j ≠ i → other.verified = false →
      (shardOk x i sh h (v.payload (v.mbArg mb 8 4) sh.length).1 = true →
        ∃ m y, runs (.shardPost mb) s m ∧ mbDone m mb ccOK ∧ counted v m FMN_WT_SHARD_RX_CNT ∧ m.shard l.manifest i = some y ∧
          y.verified = true ∧ y.header = h ∧ y.frame = some (v.mbArg mb 8 4) ∧ y.order = v.die.fmn.verifyNo) ∧
      (shardOk x i sh h (v.payload (v.mbArg mb 8 4) sh.length).1 = false →
        ∃ m, runs (.shardPost mb) s m ∧ mbDone m mb ccDIGEST ∧ counted v m FMN_WT_DIGEST_ERR_CNT ∧
          m.die.fmn = v.die.fmn)) ∧
    (∀ l, mbReady s mb 0x21 → v.die.fmn.openLoad = some l → v.mbArg mb 8 4 < stagingFrames →
      l.frameBase ≤ v.mbArg mb 8 4 → v.mbArg mb 8 4 < l.frameBase + l.frameCount → inCarve (v.mbArg mb 16 8) shardHeader = true →
      let h := (v.stripedRead carveAddr (v.mbArg mb 16 8) shardHeader 2).1
      v.heldShard (numAt h 10 2) (numAt h 8 2) (byteAt h 6) (numAt h 14 2) = none →
      ∃ m, runs (.shardPost mb) s m ∧ mbDone m mb ccDIGEST ∧ counted v m FMN_WT_UNMATCHED_CNT ∧ m.die.fmn = v.die.fmn) ∧
    (mbReady s mb 0x22 → s.die.step.isSome = true → runs (.unloadModel mb) s v) ∧
    (mbReady s mb 0x22 → s.die.step = none → v.loadBusy = false → v.die.fmn.flip = none →
      (mapGet v.die.fmn.models (v.mbArg mb 8 1)).isSome = true →
      ((∀ q ∈ v.slotsInUse, v.tModel q ≠ v.mbArg mb 8 1) → ∃ m, runs (.unloadModel mb) s m ∧ mbDone m mb ccOK ∧
        m.die.fmn.models = mapDel v.die.fmn.models (v.mbArg mb 8 1) ∧ m.die.fmn.manifests = [] ∧ m.die.fmn.run = none ∧
        m.die.fmn.composed = none ∧ m.runEpoch = 0xFFFF) ∧
      (∀ q ∈ v.slotsInUse, v.tModel q = v.mbArg mb 8 1 → ∃ m, runs (.unloadModel mb) s m ∧ mbDone m mb ccSTATE ∧
        m.die.fmn = v.die.fmn)) ∧
    (mbReady s mb 0x24 → v.manifestFor .preparing = none → ∃ m, runs (.epochFlip mb) s m ∧ mbDone m mb ccNOT_READY ∧
      m.die.fmn = v.die.fmn) ∧
    (∀ x, mbReady s mb 0x24 → v.manifestFor .preparing = some x → x.model = v.mbArg mb 8 1 → v.prep = pREADY →
      v.die.fmn.flip = none → v.die.fmn.composed = none →
      (v.mbArg mb 16 8 ≤ v.mbArg mb 24 8 → ∃ m, runs (.epochFlip mb) s m ∧ m.prep = pFLIP_PENDING ∧ m.mbBusy mb = true ∧
        m.die.fmn.flip = some { mailbox := mb, model := x.model, t := v.mbArg mb 16 8, u := v.mbArg mb 24 8,
                                copying := false, heldCounted := false } ∧
        m.die.fmn.flipWindow = some (v.mbArg mb 16 8, v.mbArg mb 24 8) ∧ m.mem = v.mem ∧ sameRegs v m [FMN_WT_STATUS]) ∧
      (v.mbArg mb 24 8 < v.mbArg mb 16 8 → ∃ m, runs (.epochFlip mb) s m ∧ mbDone m mb ccINVALID ∧ m.die.fmn = v.die.fmn)) ∧
    (∀ x, mbReady s mb 0x25 → v.manifestFor .preparing = some x → x.model = v.mbArg mb 8 1 → v.die.fmn.flip = none →
      v.die.fmn.openLoad = none → (∀ c, v.die.fmn.composed = some c → c.epoch ≠ x.epoch) → ∃ m, runs (.cancelPrepare mb) s m ∧ mbDone m mb ccOK ∧ m.prep = pIDLE ∧
        m.fld FMN_WT_STATUS 47 32 = 0xFFFF ∧ m.manifestFor .preparing = none) ∧
    (∀ x l, mbReady s mb 0x25 → v.manifestFor .preparing = some x → x.model = v.mbArg mb 8 1 → v.die.fmn.flip = none →
      v.die.fmn.openLoad = some l → l.isLoad = false → l.mailbox < 64 → v.die.fmn.composed = none →
      ∃ m, runs (.cancelPrepare mb) s m ∧ m.mbBusy l.mailbox = false ∧ m.mbBusy mb = false ∧ m.mbArg mb 1 1 = ccOK ∧
        m.die.fmn.openLoad = none ∧ m.prep = pIDLE ∧ m.manifestFor .preparing = none) ∧
    (mbReady s mb 0x25 → v.manifestFor .preparing = none → ∃ m, runs (.cancelPrepare mb) s m ∧ mbDone m mb ccNOT_READY ∧
      m.die.fmn = v.die.fmn)

/-- Shards and flips as they come: a request for a shard that is verified is served in segments, one for a shard that is on its
way waits, any other is answered NOT_HELD; a segment lands; one that matches nothing, or came before, is counted at its last
segment; a whole one is checked, and verified, or discarded and, once, lost; its source that has it not, or is silent, gives way to the next, up to MAX_ATTEMPTS, when the shard is lost; at T with
a copy of fabric time that runs and no old step left a whole model's copy begins, and at its end outside a step, or at once for a split model, the new epoch
runs and the flip completes; a drain with nothing left ends (R365, R366, R370 to R373, R385 to R387, R389, R391 to R393). -/
def Obligations.ShardsAndFlips : Prop :=
  ∀ (s : State) (msg : Bytes), s.die.live = true → s.die.bursts = [] → s.die.ecc = [] →
    let v := view s
    let off := msgTs msg 20 4
    let last := off + (msgBody msg).length = msgTs msg 24 4
    (v.namedShard msg = none →
      (∃ m, runs (.shardReqReceive msg) s m ∧ counted v m FMN_WT_NOT_HELD_CNT ∧ m.die.fmn = v.die.fmn ∧ m.mem = v.mem ∧
        sent v m tyNOT_HELD (msgSrc msg) (slice msg 12 16) []) ∧
      (last → runs (.shardDataReceive msg) s (v.count FMN_WT_UNMATCHED_CNT)) ∧
      (¬ last → runs (.shardDataReceive msg) s v) ∧ runs (.notHeldReceive msg) s v) ∧
    (∀ x i sh, v.namedShard msg = some (x, i, sh) → v.manifest x.id = some x →
      (∀ f, sh.verified = true → sh.frame = some f → sh.header.length = shardHeader →
        ∃ m, runs (.shardReqReceive msg) s m ∧ counted v m FMN_WT_SHARD_TX_CNT ∧ m.die.fmn = v.die.fmn ∧ m.mem = v.mem ∧
          m.regN RYS_XPT_MSG_TX_CNT =
            min (v.regN RYS_XPT_MSG_TX_CNT + ceilDiv (shardHeader + sh.length) segmentSize) counterMax) ∧
      (sh.verified = false → sh.requested.isSome = true → ∃ m y, runs (.shardReqReceive msg) s m ∧ m.mem = v.mem ∧
        m.die.regs = v.die.regs ∧ m.shard x.id i = some y ∧ y.asked = sh.asked ++ [msgSrc msg]) ∧
      (sh.verified = true → last → runs (.shardDataReceive msg) s (v.count FMN_WT_DUP_CNT)) ∧
      (∀ f, sh.verified = false → sh.frame = some f →
        ({ sh with landed := (off, (msgBody msg).length) :: sh.landed } : Shard).allLanded (msgTs msg 24 4) = false →
        ∃ m y, runs (.shardDataReceive msg) s m ∧ m.die.regs = v.die.regs ∧ m.shard x.id i = some y ∧ y.verified = false ∧
          y.landed = (off, (msgBody msg).length) :: sh.landed) ∧
      (∀ f y, sh.verified = false → sh.frame = some f →
        let w := v.landSegment x i f off (msgBody msg)
        let right := msgTs msg 24 4 = shardHeader + y.length ∧ shardOk x i y y.header (w.payload f y.length).1 = true
        w.shard x.id i = some y → y.allLanded (msgTs msg 24 4) = true → v.die.fmn.openLoad = none →
        (right → sh.asked = [] → (∀ z ∈ v.die.fmn.manifests, z.use ≠ .relay) → ∃ m z, runs (.shardDataReceive msg) s m ∧
          counted v m FMN_WT_SHARD_RX_CNT ∧ m.shard x.id i = some z ∧ z.verified = true ∧ z.header = y.header ∧ z.frame = some f) ∧
        (¬ right → v.maxAttempts ≤ sh.attempts → ∃ m z, runs (.shardDataReceive msg) s m ∧ counted v m FMN_WT_DIGEST_ERR_CNT ∧
          m.shard x.id i = some z ∧ z.header = [] ∧ z.landed = [] ∧ z.frame = none ∧ z.lost = true ∧
          (sh.lost = false → counted v m FMN_WT_SHARD_LOST_CNT) ∧
          (sh.lost = true → m.reg FMN_WT_SHARD_LOST_CNT = v.reg FMN_WT_SHARD_LOST_CNT))) ∧
      (sh.verified = true ∨ sh.requested = none → runs (.notHeldReceive msg) s v) ∧
      (v.currentSource x sh ≠ some (msgSrc msg) → runs (.notHeldReceive msg) s v) ∧
      (sh.verified = false → sh.lost = false → sh.requested.isSome = true → v.currentSource x sh = some (msgSrc msg) →
        v.maxAttempts ≤ sh.attempts → v.die.fmn.openLoad = none → ∃ m y, runs (.notHeldReceive msg) s m ∧
          counted v m FMN_WT_SHARD_LOST_CNT ∧ m.shard x.id i = some y ∧ y.lost = true ∧ y.requested = none ∧ y.landed = [] ∧ m.mem = v.mem)) ∧
    (∀ x id i sh, v.manifest id = some x → x.shards[i]? = some sh →
      (sh.requested = none → runs (.shardTimeout id i) s v) ∧
      (∀ t, sh.requested = some t → sh.lost = false →
        let time := max v.die.ft (t + 1000000 * max 1 (v.fld FMN_WT_CTRL 63 48))
        (v.maxAttempts ≤ sh.attempts → v.die.fmn.openLoad = none → ∃ m, runs (.shardTimeout id i) s m ∧
          counted v m FMN_WT_TIMEOUT_CNT ∧ counted v m FMN_WT_SHARD_LOST_CNT ∧ m.die.ft = time ∧ m.mem = v.mem) ∧
        (∀ src f, sh.attempts < v.maxAttempts → v.sources x.role = [src] → sh.frame = some f →
          ∃ m y, runs (.shardTimeout id i) s m ∧ counted v m FMN_WT_TIMEOUT_CNT ∧ counted v m FMN_WT_REFETCH_CNT ∧
            m.die.ft = time ∧ m.mem = v.mem ∧ m.shard id i = some y ∧ y.attempts = sh.attempts + 1 ∧ y.requested = some time ∧
            sent v m tySHARD_REQ src (shardTs x.role i x.epoch x.model) []))) ∧
    (v.die.fmn.flip = none → runs .flipTimeReached s v ∧ runs .flipCopyComplete s v) ∧
    (v.copyStale = true → runs .flipTimeReached s v) ∧
    (∀ f x, v.die.fmn.flip = some f → v.manifestFor .preparing = some x → v.manifest x.id = some x → f.mailbox < 64 →
      x.epoch < 65536 → v.fld FMN_WT_CTRL 3 2 ≠ 2 → v.slotsInUse = [] →
      let flipped := fun (m : M) => m.runEpoch = x.epoch ∧ m.prep = pIDLE ∧ m.die.fmn.flip = none ∧ mbDone m f.mailbox ccOK ∧
        counted v m FMN_EPOCH_FLIP_CNT ∧ m.flag FMN_HOST_IRQ_EVT 3 = true
      (f.copying = false → s.die.step = none → v.die.fmn.composed = none → v.copyStale = false → v.die.reports = [] → x.ready = true →
        (x.split = false → ∃ m, runs .flipTimeReached s m ∧ m.prep = pCOPYING ∧ m.mem = v.mem ∧ m.die.ft = max v.die.ft f.t ∧
          m.die.fmn.flip = some { f with copying := true } ∧ m.runEpoch = v.runEpoch) ∧
        (x.split = true → ∃ m, runs .flipTimeReached s m ∧ flipped m ∧ m.die.ft = max v.die.ft f.t)) ∧
      (f.copying = false → s.die.step.isSome = true → ∃ m, runs .flipTimeReached s m ∧ m.die.regs = v.die.regs ∧
        m.die.fmn = v.die.fmn ∧ m.mem = v.mem) ∧
      (f.copying = true → s.die.step.isSome = true → runs .flipCopyComplete s v) ∧
      (f.copying = true → s.die.step = none → v.die.fmn.composed = none → v.die.hdf.attestWaiting = [] →
        (∀ h ∈ x.shards, h.site < 136) → ∃ m, runs .flipCopyComplete s m ∧ flipped m) ∧
      (f.copying = false → runs .flipCopyComplete s v)) ∧
    (v.die.fmn.drain = none → runs .drainEnd s v) ∧
    (∀ d, v.die.fmn.drain = some d →
      (s.die.step.isSome = true → runs .drainEnd s v) ∧
      (s.die.step = none → v.die.fmn.composed = none → v.die.fmn.openLoad = none → v.slotsInUse = [] →
        (∀ x ∈ v.die.fmn.manifests, x.use ≠ .relay) → ∃ m, runs .drainEnd s m ∧ m.die.fmn.drain = none ∧ m.manifest d.manifest = none ∧ m.mem = v.mem ∧
          m.fld FMN_WT_STATUS 31 16 = 0xFFFF ∧ sameRegs v m [FMN_WT_STATUS] ∧ m.die.ft = v.die.ft))

/-! ## Rysia ports (chapter 10) -/

/-- A control message has been added to those that wait on a port. -/
def Sys2Proof.controls (v m : M) (p : Nat) (msgs : List Bytes) : Prop := (m.port p).ctlOut = (v.port p).ctlOut ++ msgs

/-- A port has flushed: its replay entries and messages are gone, the flush and the messages are counted, those partly received
among them, and it stands in this state (R437). -/
def Sys2Proof.flushed (v m : M) (p state : Nat) : Prop :=
  counted v m (portReg p RYS_PORT_FLUSH_CNT) ∧ m.regN (portReg p RYS_PORT_FLUSH_MSG_CNT) =
    min (v.regN (portReg p RYS_PORT_FLUSH_MSG_CNT) + ((v.port p).messages.length + (v.port p).partly)) counterMax ∧
  (m.port p).replay = [] ∧ (m.port p).unacked = [] ∧ (m.port p).sendQ = [] ∧
  (m.port p).draining = none ∧ m.pState p = state

/-- A port's link has been taken as down: HOLD, counted, its replay entries, its lanes that retrain and what is latched behind
them kept, its grace timer started (R43, R430, R434, R435). -/
def Sys2Proof.held (v m : M) (p : Nat) : Prop :=
  m.pState p = pHOLD ∧ counted v m (portReg p RYS_PORT_LINK_DOWN_CNT) ∧ (m.port p).replay = (v.port p).replay ∧
  (m.port p).graceEnd = m.die.ft + v.grace p ∧ (m.port p).retrained = false ∧
  (m.port p).rxTask = keepReturn (v.port p).rxTask ∧ (m.port p).txTask = keepReturn (v.port p).txTask ∧
  (m.port p).rxLatched = keepLatched (m.port p).rxTask (v.port p).rxLatched ∧
  (m.port p).txLatched = keepLatched (m.port p).txTask (v.port p).txLatched

/-- A port from DISABLED to ACTIVE and back: its controls, its optical engine, its lanes, and the INIT exchange; link down,
hold, resume and flush (R404 to R407, R434 to R440, R598; Table 10.5). -/
def Obligations.PortsTrain : Prop :=
  ∀ (s : State) (p : Nat) (msg : Bytes), s.die.live = true → p < 16 → ((view s).port p).ctrlLatched = none →
    let v := view s
    let x := v.port p
    let st := v.pState p
    let ctrl := portReg p RYS_PORT_CTRL
    (v.portBusy p = false →
      (v.enabled p = true → runs (.portEnable p) s v) ∧
      (v.enabled p = false → runs (.portDisable p) s v) ∧
      (v.enabled p = false → st = pDISABLED → ∃ m, runs (.portEnable p) s m ∧ m.enabled p = true ∧ m.pState p = pDISABLED ∧
        m.fld (PWR_OPT + 8 * p) 1 0 = 1 ∧ m.admitted p = v.admitted p ∧ m.mem = v.mem ∧ sameRegs v m [ctrl, PWR_OPT + 8 * p]) ∧
      (v.enabled p = true → st = pACTIVE → ∃ m, runs (.portDisable p) s m ∧ m.enabled p = false ∧ m.pState p = pACTIVE ∧
        (m.port p).draining = some v.die.ft ∧ m.mem = v.mem ∧ sameRegs v m [ctrl]) ∧
      (v.enabled p = true → st < 4 → ∃ m, runs (.portDisable p) s m ∧ m.enabled p = false ∧ m.pState p = pDISABLED ∧
        m.fld (PWR_OPT + 8 * p) 1 0 = 0 ∧ m.width p true = 0 ∧ m.width p false = 0 ∧ m.mem = v.mem) ∧
      (v.admitted p = true → runs (.portAdmit p) s v) ∧
      (v.admitted p = false → ∃ m, runs (.portAdmit p) s m ∧ m.admitted p = true ∧ m.enabled p = v.enabled p ∧ m.pState p = st ∧ m.mem = v.mem ∧
        m.fld HDF_STATUS 11 8 = max 6 (v.fld HDF_STATUS 11 8) ∧ sameRegs v m [ctrl, HDF_STATUS]) ∧
      (st < 4 → ∃ m, runs (.portUnadmit p) s m ∧ m.admitted p = false ∧ m.enabled p = v.enabled p ∧ m.pState p = st ∧
        m.mem = v.mem ∧ sameRegs v m [ctrl]) ∧
      (v.admitted p = true → v.enabled p = true → v.portUp p = true → ∃ m, runs (.portUnadmit p) s m ∧ m.admitted p = false ∧
        flushed v m p pINIT)) ∧
    (v.portBusy p = true → st ≠ pDEGRADING → ∃ m, runs (.portDisable p) s m ∧ (m.port p).ctrlLatched = some (false, v.admitted p) ∧
      m.enabled p = v.enabled p ∧ m.mem = v.mem ∧ counted v m FMN_TRANSITION_LATCH_CNT ∧ sameRegs v m [FMN_TRANSITION_LATCH_CNT]) ∧
    (∀ ok, v.fld (PWR_OPT + 8 * p) 1 0 ≠ 1 → runs (.opticalEngineOn p ok) s v) ∧
    (v.fld (PWR_OPT + 8 * p) 1 0 = 1 → (∃ m, runs (.opticalEngineOn p true) s m ∧ m.fld (PWR_OPT + 8 * p) 1 0 = 2 ∧
        m.pState p = pACQUIRE ∧ m.mem = v.mem) ∧
      ∃ m, runs (.opticalEngineOn p false) s m ∧ m.fld (PWR_OPT + 8 * p) 1 0 = 3 ∧ m.pState p = st ∧ m.mem = v.mem) ∧
    (∀ lanes : List LaneSeen,
      let locked := popcount (lanes.foldl (fun n l => n ||| 2 ^ l.lane) 0)
      let usable := popcount (usableLanes lanes)
      ((st = pACQUIRE ∨ st = pALIGN) → 7 ≤ usable → ∃ m, runs (.lanesLocked p lanes) s m ∧ m.pState p = pINIT ∧
        m.width p true = min 8 usable ∧ (m.port p).seen = partnerSeen lanes ∧ (m.port p).session ≠ 0 ∧
        (m.port p).ackSent = false ∧ (m.port p).ackReceived = false ∧ (m.port p).ctlOut.length = 17 ∧ m.mem = v.mem) ∧
      (st = pACQUIRE → 7 ≤ locked → (∀ l ∈ lanes, l.named = none) → ∃ m, runs (.lanesLocked p lanes) s m ∧
        m.pState p = pALIGN ∧ m.mem = v.mem ∧ sameRegs v m [portReg p RYS_PORT_STATUS]) ∧
      (st = pALIGN → usable < 7 → (∃ l ∈ lanes, l.named ≠ none) → ∃ m, runs (.lanesLocked p lanes) s m ∧
        m.pState p = pACQUIRE ∧ m.mem = v.mem ∧ sameRegs v m [portReg p RYS_PORT_STATUS]) ∧
      ((st ≠ pACQUIRE ∧ st ≠ pALIGN) ∨ (st = pACQUIRE ∧ locked < 7) ∨ (st = pALIGN ∧ ∀ l ∈ lanes, l.named = none) →
        runs (.lanesLocked p lanes) s v)) ∧
    (st = pACQUIRE → ∃ m, runs (.acquireTimeout p) s m ∧ m.pState p = pACQUIRE ∧
      counted v m (portReg p RYS_PORT_TRAIN_FAIL_CNT) ∧ m.die.ft = max v.die.ft (x.since + 100000000) ∧
      (m.port p).since = m.die.ft) ∧
    (st ≠ pACQUIRE → runs (.acquireTimeout p) s v) ∧
    runs (.initTimer p) s (if st = pINIT then v.control p (v.initMessage p) else v) ∧
    (st = pINIT →
      (v.admitted p = true → ∃ m, runs (.initReceive p msg) s m ∧ m.fld (portReg p RYS_PORT_PARTNER) 63 32 = numAt msg 6 4 ∧
        (m.port p).pool = numAt msg 10 2 ∧ (m.port p).ackSent = true ∧
        controls v m p [ctl16 4 (zeros 2 ++ toBytes 4 (numAt msg 6 4) ++ toBytes 4 x.session)] ∧
        m.pState p = if v.fld (portReg p RYS_PORT_PARTNER) 63 32 = numAt msg 6 4 ∧ x.ackReceived = true then pACTIVE else pINIT) ∧
      (v.admitted p = false → ∃ m, runs (.initReceive p msg) s m ∧ m.pState p = pINIT ∧ m.mem = v.mem ∧
        controls v m p [ctl16 5 (zeros 2 ++ toBytes 4 (numAt msg 6 4))]) ∧
      (numAt msg 4 4 = x.session → v.fld (portReg p RYS_PORT_PARTNER) 63 32 = 0 → x.ackSent = true →
        ∃ m, runs (.initAckReceive p msg) s m ∧ m.pState p = pACTIVE ∧ (m.port p).txSeq = 0 ∧ (m.port p).expect = 0 ∧
          (m.port p).inUse = [0, 0, 0, 0] ∧ (m.port p).replay = [] ∧
          m.fld (portReg p RYS_PORT_PARTNER) 63 32 = numAt msg 8 4) ∧
      (numAt msg 4 4 = x.session → runs (.notReadyReceive p msg) s (v.updPort p fun y => { y with ackReceived := false }))) ∧
    (numAt msg 4 4 ≠ x.session → runs (.initAckReceive p msg) s v ∧ runs (.notReadyReceive p msg) s v) ∧
    (v.portUp p = true → v.enabled p = true → ∃ m, runs (.initReceive p msg) s m ∧ flushed v m p pINIT) ∧
    (st = pINIT ∨ v.portUp p = true →
      runs (.pingReceive p msg) s (v.control p (ctl16 7 (zeros 6 ++ slice msg 8 8))) ∧
      (x.pongs.length < 15 → runs (.pongReceive p msg) s
        (v.updPort p fun y => { y with pongs := y.pongs ++ [v.die.ft - numAt msg 8 8] })) ∧
      (x.pongs.length = 15 → ∃ m, runs (.pongReceive p msg) s m ∧
        m.rtt p = (x.pongs ++ [v.die.ft - numAt msg 8 8]).foldl max 0 % 2 ^ 32)) ∧
    (v.portRuns p = true → ∃ m, runs (.linkSilence p) s m ∧ held v m p ∧ m.die.ft = max v.die.ft (x.lastGood + 2000)) ∧
    (v.portRuns p = false → runs (.linkSilence p) s v) ∧
    (∀ lanes, st = pHOLD → 7 ≤ popcount (usableLanes lanes) → ∃ m, runs (.holdRetrainComplete p lanes) s m ∧ m.pState p = pHOLD ∧
      (m.port p).retrained = true ∧ m.width p true = min 8 (popcount (usableLanes lanes)) ∧ (m.port p).ctlOut.length = 2 ∧
      (m.port p).replay = x.replay ∧ (m.port p).seen = partnerSeen lanes) ∧
    (∀ lanes, st ≠ pHOLD ∨ popcount (usableLanes lanes) < 7 → runs (.holdRetrainComplete p lanes) s v) ∧
    runs (.resumeTimer p) s (if st = pHOLD ∧ x.retrained = true then v.holdResume p else v) ∧
    (st = pHOLD → numAt msg 6 4 = v.fld (portReg p RYS_PORT_PARTNER) 63 32 → numAt msg 10 4 = x.session →
      (v.samePartner p = true → v.die.ft < x.graceEnd → ∃ m, runs (.linkResumeReceive p msg) s m ∧ m.pState p = pACTIVE ∧
        counted v m (portReg p RYS_PORT_RESUME_CNT) ∧ (m.port p).replayFrom = some (numAt msg 2 3 % seqMod) ∧
        (m.port p).frozen = true ∧ (m.port p).expect = x.expect ∧ (m.port p).txSeq = x.txSeq ∧ (m.port p).session = x.session) ∧
      (v.samePartner p = false ∨ x.graceEnd ≤ v.die.ft → v.enabled p = true → ∃ m, runs (.linkResumeReceive p msg) s m ∧ flushed v m p pINIT)) ∧
    (v.portUp p = false → runs (.linkResumeReceive p msg) s v ∧ runs (.downReceive p msg) s v) ∧
    (v.portUp p = true → v.enabled p = true → ∃ m, runs (.downReceive p msg) s m ∧ flushed v m p pACQUIRE) ∧
    (st = pHOLD → v.enabled p = true → ∃ m, runs (.graceExpiry p) s m ∧ flushed v m p pINIT ∧
      m.die.ft = max v.die.ft x.graceEnd) ∧
    (st ≠ pHOLD → runs (.graceExpiry p) s v) ∧
    (x.draining = none → runs (.portDrainEnd p) s v) ∧
    (∀ t, x.draining = some t → x.replay = [] → v.enabled p = false → ∃ m, runs (.portDrainEnd p) s m ∧
      flushed v m p pDISABLED ∧ m.die.ft = v.die.ft)

/-- The codewords of a flit have been counted on their lanes, each with the first flit it holds (R397). -/
def Sys2Proof.lanesCounted (v m : M) (p : Nat) (cs : List Codeword) : Prop :=
  ∀ l, l < 9 →
    let fresh := cs.filter fun c => !c.again && c.lane == l
    let b := portReg p (0x40 * l)
    m.regN (b + RYS_LANE_FEC_CORR_SYM_CNT) = min (v.regN (b + RYS_LANE_FEC_CORR_SYM_CNT) + sumBy fresh (·.symbols)) counterMax ∧
    m.regN (b + RYS_LANE_FEC_UNCORR_CNT) =
      min (v.regN (b + RYS_LANE_FEC_UNCORR_CNT) + sumBy fresh fun c => bit c.uncorrectable) counterMax

/-- Flits: one in order and within the pool is accepted, one older is counted and acknowledged again, one beyond or damaged
makes the receiver NACK once and again at its timer; an acknowledgement frees the replay buffer; a NACK or an expiry starts
a replay, and the eighth expiry takes the link down; a credit report sets the units in use; a flit of an uncorrectable
codeword is damaged; and each slot sends new data as credit allows, striped over the lanes, else a control flit, with
alignment codewords at the end of their period (R395 to R398, R401, R402, R408 to R424, R434, R441). -/
def Obligations.FlitsFlow : Prop :=
  ∀ (s : State) (p : Nat) (flit msg : Bytes), s.die.live = true → p < 16 →
    let v := view s
    let x := v.port p
    let st := v.pState p
    let h := flitHeader flit
    (∀ i slot cs, i = .dataFlitReceive p ⟨slot, cs, flit⟩ ∨ i = .controlFlitReceive p ⟨slot, cs, flit⟩ → (∀ c ∈ cs, c.lane < 9) →
      let sound := flitGood flit && !cs.any (·.uncorrectable)
      (sound = false → v.portRuns p = false → ∃ m, runs i s m ∧ m.mem = v.mem ∧ counted v m (portReg p RYS_PORT_CRC_ERR_CNT) ∧
        lanesCounted v m p cs ∧ (m.port p).nackState = x.nackState ∧ (m.port p).expect = x.expect) ∧
      (sound = false → v.portRuns p = true → x.nackState = false → ∃ m, runs i s m ∧ m.mem = v.mem ∧ lanesCounted v m p cs ∧
        counted v m (portReg p RYS_PORT_CRC_ERR_CNT) ∧ counted v m (portReg p RYS_PORT_NACK_TX_CNT) ∧
        (m.port p).nackState = true ∧ (m.port p).expect = x.expect ∧ (m.port p).nackNo = (x.nackNo + 1) % 256) ∧
      (st ≠ pACTIVE → sound = true → h.ctl = false → ∃ m, runs i s m ∧ m.mem = v.mem ∧
        counted v m (portReg p RYS_PORT_UNADMITTED_DROP_CNT) ∧ (m.port p).expect = x.expect ∧ (m.port p).lastGood = v.die.ft) ∧
      (st = pACTIVE → sound = true → h.ctl = false →
        (h.seq = x.expect → x.held.sum < poolUnits → mapGetD x.stream h.cls [] = [] →
          (mapGetD x.transit h.cls (16, 0)).2 = 0 → byteAt flit 6 = 0 →
          ∃ m, runs i s m ∧ m.mem = v.mem ∧ counted v m (portReg p RYS_PORT_FLIT_RX_CNT) ∧ lanesCounted v m p cs ∧
            (m.port p).expect = (x.expect + 1) % seqMod ∧ (m.port p).nackState = false ∧ (m.port p).lastGood = v.die.ft ∧
            (m.port p).rxSlot = slot) ∧
        (h.seq = x.expect → poolUnits ≤ x.held.sum → ∃ m, runs i s m ∧ m.mem = v.mem ∧
          counted v m (portReg p RYS_PORT_POOL_OVERRUN_CNT) ∧ (m.port p).expect = x.expect ∧ (m.port p).nackState = true) ∧
        (h.seq ≠ x.expect → seqNewer h.seq x.expect = true → ∃ m, runs i s m ∧ m.mem = v.mem ∧
          counted v m (portReg p RYS_PORT_OOS_DISCARD_CNT) ∧ (m.port p).expect = x.expect ∧ (m.port p).nackState = true) ∧
        (h.seq ≠ x.expect → seqNewer h.seq x.expect = false → ∃ m, runs i s m ∧ m.mem = v.mem ∧
          counted v m (portReg p RYS_PORT_DUP_DISCARD_CNT) ∧ (m.port p).expect = x.expect ∧ (m.port p).reportOwed = true)) ∧
      (v.portUp p = true → sound = true → h.ctl = true → h.cls = 0 → h.rcls = 0 → h.rcnt = 0 → byteAt flit 6 = 0 →
        seqNewer h.ack x.lastAck = true → ∃ m, runs i s m ∧ m.mem = v.mem ∧ m.die.regs = (v.codewordsReceive p cs).die.regs ∧
          (m.port p).lastAck = h.ack ∧ (m.port p).replay = x.replay.filter (fun f => seqNewer f.seq h.ack) ∧
          (m.port p).expect = x.expect ∧ (m.port p).expiries = 0)) ∧
    (v.portRuns p = false → runs (.nackReceive p msg) s v ∧ runs (.creditReceive p msg) s v ∧
      runs (.nackRepeatTimer p) s v ∧ runs (.ackAdvanceTimer p) s v ∧ runs (.replayTimeout p) s v) ∧
    (v.portRuns p = true →
      (let e := numAt msg 4 3 % seqMod
       let y := (v.ackRead p ((e + seqMod - 1) % seqMod)).port p
       (y.ignoresNack e (byteAt msg 7) (v.rtt p) v.die.ft = true → ∃ m, runs (.nackReceive p msg) s m ∧ m.mem = v.mem ∧
         m.port p = y ∧ counted v m (portReg p RYS_PORT_NACK_IGNORED_CNT)) ∧
       (y.ignoresNack e (byteAt msg 7) (v.rtt p) v.die.ft = false → ∃ m, runs (.nackReceive p msg) s m ∧ m.mem = v.mem ∧
         counted v m (portReg p RYS_PORT_NACK_RX_CNT) ∧ (m.port p).replayFrom = some e ∧
         (m.port p).replayStart = some (e, v.die.ft) ∧ (m.port p).lastNack = some (byteAt msg 7) ∧
         (m.port p).replay = y.replay)) ∧
      (x.stale (numAt msg 4 4) = true → runs (.creditReceive p msg) s (v.count (portReg p RYS_PORT_REPORT_STALE_CNT))) ∧
      (x.stale (numAt msg 4 4) = false → ∃ m, runs (.creditReceive p msg) s m ∧ m.die.regs = v.die.regs ∧ m.mem = v.mem ∧
        (m.port p).lastReport = some (numAt msg 4 4) ∧ (m.port p).frozen = false ∧
        ∀ c, c < 4 → at4 (m.port p).inUse c = numAt msg (8 + 2 * c) 2 +
          (x.sent.filter fun q => slotAfter q.1 (numAt msg 4 4) && q.2 == c).length +
          (numAt msg (16 + 2 * c) 2 + 65536 - at4 x.hdrApplied c % 65536) % 65536) ∧
      (x.nackState = true → ∃ m, runs (.nackRepeatTimer p) s m ∧ counted v m (portReg p RYS_PORT_NACK_REPEAT_CNT) ∧
        (m.port p).nackNo = (x.nackNo + 1) % 256 ∧ m.die.ft = max v.die.ft (x.nackAt + 2 * v.rtt p) ∧
        (m.port p).nackAt = m.die.ft ∧ m.mem = v.mem) ∧
      runs (.ackAdvanceTimer p) s (v.updPort p fun y => { y with reportOwed := true }) ∧
      (∀ f rest, x.replay = f :: rest →
        (x.expiries < 7 → ∃ m, runs (.replayTimeout p) s m ∧ counted v m (portReg p RYS_PORT_REPLAY_TIMEOUT_CNT) ∧
          (m.port p).replayFrom = some f.seq ∧ (m.port p).expiries = x.expiries + 1 ∧ m.pState p = st ∧
          m.die.ft = max v.die.ft (x.replayTimer + 3 * v.rtt p)) ∧
        (7 ≤ x.expiries → x.ctrlLatched = none → ∃ m, runs (.replayTimeout p) s m ∧ held v m p))) ∧
    (x.replay = [] → runs (.replayTimeout p) s v) ∧
    (st = pDISABLED → runs (.transmitSlot p) s v) ∧
    (st = pACQUIRE ∨ st = pALIGN → ∃ m, runs (.transmitSlot p) s m ∧ m.mem = v.mem ∧ m.die.regs = v.die.regs ∧
      (m.port p).lastFlit = x.lastFlit ∧ (m.port p).slot = x.slot ∧ (m.port p).laneOut = [] ∧
      (x.lastOfPeriod = true → (m.port p).alignOut = (List.range 9).map fun l => (l, m.alignment p l false)) ∧
      (x.lastOfPeriod = false → (m.port p).alignOut = x.alignOut ∧ (m.port p).inPeriod = x.inPeriod + 8)) ∧
    (∀ b, st = pACTIVE → x.ctlOut = [] → x.reportOwed = false → x.replay = [] → mapGetD x.sendQ 0 [] = [b] →
      mapGetD x.sendOff 0 0 = 0 → b.due = 0 → b.bytes.length ≤ flitPayload → x.freed = [0, 0, 0, 0] → x.canSend 0 = true →
      let flit := makeFlit x.txSeq x.ack 0 0 0 0 b.bytes
      ∃ m, runs (.transmitSlot p) s m ∧ m.mem = v.mem ∧ counted v m (portReg p RYS_PORT_FLIT_TX_CNT) ∧
        (m.port p).lastFlit = flit ∧ (m.port p).laneOut = x.stripes flit ∧ (m.port p).replay = [{ seq := x.txSeq, cls := 0, bytes := flit }] ∧
        (m.port p).unacked = x.unacked ++ [(x.txSeq, b.bytes)] ∧ mapGetD (m.port p).sendQ 0 [] = [] ∧
        (m.port p).txSeq = (x.txSeq + 1) % seqMod ∧ (m.port p).inUse = add4 x.inUse 0 1 ∧
        (m.port p).slot = (x.slot + 1) % 2 ^ 32) ∧
    (st = pACTIVE → x.ctlOut = [] → x.reportOwed = false → x.replay = [] → (∀ c, x.ready c = false) →
      ∃ m, runs (.transmitSlot p) s m ∧ m.mem = v.mem ∧ counted v m (portReg p RYS_PORT_CTL_FLIT_TX_CNT) ∧
        (m.port p).lastFlit = makeFlit x.txSeq x.ack 1 0 0 0 [] ∧ (m.port p).txSeq = x.txSeq ∧
        (m.port p).slot = (x.slot + 1) % 2 ^ 32 ∧
        (x.lastOfPeriod = true → (m.port p).alignOut = (List.range 9).map fun l => (l, m.alignment p l true)))

/-- Lanes: a window past its thresholds, or a command, starts a sparing or asks for seven lanes; the messages of Table 10.11
walk the two ends through sparing, narrowing and widening, each answered; a message without its answer is sent again, 8
times in all, and then a lane that has lost lock asks for seven lanes; a lane that has retrained is the spare; and a width
change that takes too long takes the link down (R395, R397, R427 to R433, R515, R525). -/
def Obligations.LanesChange : Prop :=
  ∀ (s : State) (p lane spare : Nat) (msg : Bytes), s.die.live = true → p < 16 → lane < 9 → spare < 9 → lane ≠ spare →
    msgLane msg = lane → msgSpare msg = spare → ((view s).port p).ctrlLatched = none →
    ((view s).port p).rxLatched = none → ((view s).port p).txLatched = none →
    let v := view s
    let x := v.port p
    let st := v.pState p
    let txn := msgTxn msg
    let window := portReg p (0x40 * lane)
    let task := fun (op sp n : Nat) => some ({ op, lane, spare := sp, txn := n, sentAt := v.die.ft, sends := 1 } : LaneTask)
    let waits := v.die.fmn.unitWaits
    let newPeriod := fun (m : M) => (m.port p).alignOut = (List.range 9).map fun l => (l, m.alignment p l true)
    let inWindow := mapGetD x.windowSym lane 0
    (∀ symbols uncorrectable lock, v.lane p true lane ≠ laneActive ∨ v.portRuns p = false →
      ∃ m, runs (.laneWindow p lane symbols uncorrectable lock) s m ∧ m.mem = v.mem ∧ (m.port p).rxTask = x.rxTask ∧
        m.fld (window + RYS_LANE_SYM_LAST_MS) 31 0 = min (inWindow + symbols) 0xFFFFFFFF ∧
        mapGetD (m.port p).windowSym lane 0 = 0 ∧
        (v.lane p true lane = laneActive → lock = true → counted v m (window + RYS_LANE_LOCK_LOSS_CNT) ∧
          lane ∈ (m.port p).lost) ∧
        (v.lane p true lane = laneSpare → lock = true → lane ∈ (m.port p).lost) ∧
        m.regN (window + RYS_LANE_FEC_CORR_SYM_CNT) = min (v.regN (window + RYS_LANE_FEC_CORR_SYM_CNT) + symbols) counterMax ∧
        m.regN (window + RYS_LANE_FEC_UNCORR_CNT) = min (v.regN (window + RYS_LANE_FEC_UNCORR_CNT) + uncorrectable) counterMax) ∧
    (v.portRuns p = true →
      (∀ symbols uncorrectable, v.lane p true lane = laneActive → v.goodSpare p true = some spare → x.rxTask = none →
        v.flag (portReg p RYS_PORT_CTRL) 2 = true → v.fld (portReg p RYS_PORT_LANE_THRESH) 31 0 < inWindow + symbols →
        v.lostLanes p ≤ v.lostCover p → ∃ m, runs (.laneWindow p lane symbols uncorrectable false) s m ∧
          (m.port p).rxTask = task oSPARE_REQ spare ((x.txnNo + 1) % 256) ∧
          controls v m p [laneMessage oSPARE_REQ lane spare ((x.txnNo + 1) % 256) 0]) ∧
      (∀ symbols uncorrectable, v.lane p true lane = laneActive → v.lostCover p < v.lostLanes p →
        ∃ m, runs (.laneWindow p lane symbols uncorrectable false) s m ∧ held v m p) ∧
      (v.lane p true lane = laneActive → v.goodSpare p true = some spare → x.rxTask = none →
        ∃ m, runs (.laneSpare p true lane) s m ∧ (m.port p).rxTask = task oSPARE_REQ spare ((x.txnNo + 1) % 256) ∧
          controls v m p [laneMessage oSPARE_REQ lane spare ((x.txnNo + 1) % 256) 0] ∧ m.mem = v.mem ∧
          sameRegs v m [portReg p RYS_PORT_LANE_CMD]) ∧
      (v.lane p false lane = laneActive → v.spareLane p false = some spare → x.txTask = none →
        ∃ m, runs (.laneSpare p false lane) s m ∧ (m.port p).txTask = task oMIRROR_ON spare ((x.txnNo + 1) % 256) ∧
          controls v m p [laneMessage oMIRROR_ON lane spare ((x.txnNo + 1) % 256) 0] ∧ m.mem = v.mem ∧
          sameRegs v m [portReg p RYS_PORT_LANE_CMD]) ∧
      (x.rxTask.isSome = true → ∃ m, runs (.laneSpare p true lane) s m ∧ (m.port p).rxLatched = some (1, lane) ∧
        (m.port p).rxTask = x.rxTask ∧ counted v m FMN_TRANSITION_LATCH_CNT) ∧
      (v.lane p true lane = laneFailed → v.spareLane p true = none → x.rxTask = none →
        ∃ m, runs (.laneReturn p true lane) s m ∧ m.lane p true lane = laneRetraining ∧
          (m.port p).rxTask = some { op := oRETURN, lane, spare := 0, txn := 0, sentAt := v.die.ft, sends := 0 }) ∧
      (v.lane p false lane = laneFailed → v.spareLane p false = none → x.txTask = none →
        ∃ m, runs (.laneReturn p false lane) s m ∧ m.lane p false lane = laneRetraining ∧
          (m.port p).txTask = some { op := oRETURN, lane, spare := 0, txn := 0, sentAt := v.die.ft, sends := 0 }) ∧
      (v.spareLane p false = some spare → v.width p false = 7 → x.txTask = none →
        ∃ m, runs (.laneWiden p false) s m ∧ m.width p false = 7 ∧ m.pState p = pDEGRADING ∧ (m.port p).txTask =
          some { op := oWIDEN_MARK, lane := spare, spare, txn := (x.txnNo + 1) % 256, sentAt := v.die.ft, sends := 0 }) ∧
      (v.goodSpare p true = some spare → v.width p true = 7 → x.rxTask = none →
        ∃ m t, runs (.laneWiden p true) s m ∧ (m.port p).rxTask = some t ∧ t.op = oWIDEN_REQ ∧ t.spare = spare ∧
          controls v m p [laneMessage oWIDEN_REQ spare spare ((x.txnNo + 1) % 256) 0] ∧ m.width p true = 7) ∧
      (x.txTask = none → v.lane p false lane = laneActive → v.lane p false spare = laneSpare →
        ∃ m, runs (.spareReqReceive p msg) s m ∧ (m.port p).txTask = task oMIRROR_ON spare txn ∧ m.die.regs = v.die.regs ∧
          controls v m p [laneMessage oMIRROR_ON lane spare txn 0]) ∧
      (v.taskIs p true oSPARE_REQ txn = true → v.lane p true lane = laneActive → v.lane p true spare = laneSpare →
        ∃ m, runs (.mirrorOnReceive p msg) s m ∧ (m.port p).rxTask = task oSWITCHED spare txn ∧
          m.lane p true lane = laneFailed ∧ m.lane p true spare = laneActive ∧ sameRegs v m [portReg p RYS_PORT_LANE_STATE] ∧
          controls v m p [laneMessage oSWITCHED lane spare txn 0]) ∧
      (v.taskIs p false oMIRROR_ON txn = true →
        ∃ m, runs (.switchedReceive p msg) s m ∧ (m.port p).txTask = none ∧ m.lane p false lane = laneFailed ∧
          m.lane p false spare = laneActive ∧ counted v m (portReg p RYS_PORT_SPARE_CNT) ∧
          controls v m p [laneMessage oRELEASED lane spare txn 0]) ∧
      (x.txTask = none → v.width p false = 8 → v.lane p false lane = laneActive →
        ∃ m, runs (.degradeReqReceive p msg) s m ∧ (m.port p).txTask =
            some { op := oDEGRADE_MARK, lane, spare := 0, txn, sentAt := v.die.ft, sends := 0 } ∧
          m.width p false = 8 ∧ m.lane p false lane = laneActive ∧ m.pState p = pDEGRADING ∧ controls v m p []) ∧
      (v.taskIs p true oDEGRADE_REQ txn = true →
        ∃ m, runs (.degradeMarkReceive p msg) s m ∧ (m.port p).rxTask = none ∧ m.width p true = 7 ∧
          m.lane p true lane = laneFailed ∧ counted v m (portReg p RYS_PORT_DEGRADE_CNT) ∧
          controls v m p [laneMessage oDEGRADE_DONE lane 0 txn x.expect]) ∧
      (v.taskIs p false oDEGRADE_MARK txn = true →
        ∃ m, runs (.degradeDoneReceive p msg) s m ∧ (m.port p).txTask = none ∧ m.pState p = pACTIVE ∧
          (m.port p).replayFrom = some (numAt msg 6 3 % seqMod) ∧ counted v m (portReg p RYS_PORT_DEGRADE_CNT)) ∧
      (x.txTask = none → v.width p false = 7 → v.lane p false spare = laneSpare →
        ∃ m, runs (.widenReqReceive p msg) s m ∧ (m.port p).txTask =
            some { op := oWIDEN_MARK, lane, spare, txn, sentAt := v.die.ft, sends := 0 } ∧
          m.width p false = 7 ∧ m.lane p false spare = laneSpare ∧ m.pState p = pDEGRADING ∧ controls v m p []) ∧
      (∀ t, st = pDEGRADING → x.txTask = some t → t.sends = 0 → x.ctlOut = [] → x.reportOwed = false →
        (x.lastOfPeriod = false → ∃ m, runs (.transmitSlot p) s m ∧ (m.port p).txTask = some t ∧
          m.width p false = v.width p false ∧ (m.port p).lastFlit = makeFlit x.txSeq x.ack 1 0 0 0 []) ∧
        (x.lastOfPeriod = true → t.op = oDEGRADE_MARK → t.lane = lane → ∃ m, runs (.transmitSlot p) s m ∧
          (m.port p).txTask = some { t with sends := 1 , sentAt := v.die.ft } ∧ m.width p false = 7 ∧
          m.lane p false lane = laneFailed ∧ (m.port p).txMap = x.txMap.erase lane ∧ newPeriod m ∧
          (m.port p).lastFlit = makeFlit x.txSeq x.ack 1 0 0 0 (laneMessage oDEGRADE_MARK lane t.spare t.txn 0)) ∧
        (x.lastOfPeriod = true → t.op = oWIDEN_MARK → t.spare = spare → ∃ m, runs (.transmitSlot p) s m ∧
          (m.port p).txTask = some { t with sends := 1 , sentAt := v.die.ft } ∧ m.width p false = 8 ∧
          m.lane p false spare = laneActive ∧ (m.port p).txMap = x.txMap ++ [spare] ∧ newPeriod m ∧
          (m.port p).lastFlit = makeFlit x.txSeq x.ack 1 0 0 0 (laneMessage oWIDEN_MARK t.lane spare t.txn 0))) ∧
      (x.rxTask = none → v.width p true = 7 → v.lane p true spare = laneSpare →
        ∃ m, runs (.widenMarkReceive p msg) s m ∧ (m.port p).rxTask = none ∧ m.width p true = 8 ∧
          m.lane p true spare = laneActive ∧ controls v m p [laneMessage oWIDEN_DONE lane spare txn x.expect]) ∧
      (v.taskIs p false oWIDEN_MARK txn = true →
        ∃ m, runs (.widenDoneReceive p msg) s m ∧ (m.port p).txTask = none ∧ m.pState p = pACTIVE ∧
          (m.port p).replayFrom = some (numAt msg 6 3 % seqMod))) ∧
    (∀ mb, v.taskIs p true oSWITCHED txn = true → waits = [(mb, fnLane p true, false)] → mb < 64 →
      ∃ m, runs (.releasedReceive p msg) s m ∧ (m.port p).rxTask = none ∧ mbDone m mb ccOK ∧ m.die.fmn.unitWaits = []) ∧
    (v.taskIs p true oSWITCHED txn = true → waits = [] → ∃ m, runs (.releasedReceive p msg) s m ∧ (m.port p).rxTask = none ∧
      counted v m (portReg p RYS_PORT_SPARE_CNT) ∧ sameRegs v m [portReg p RYS_PORT_SPARE_CNT] ∧ m.mem = v.mem) ∧
    (v.taskIs p true oSWITCHED txn = false → runs (.releasedReceive p msg) s v) ∧
    (v.portRuns p = false → ∀ i, i = .spareReqReceive p msg ∨ i = .mirrorOnReceive p msg ∨ i = .switchedReceive p msg ∨
      i = .degradeReqReceive p msg ∨ i = .degradeMarkReceive p msg ∨ i = .degradeDoneReceive p msg ∨
      i = .widenReqReceive p msg ∨ i = .widenMarkReceive p msg ∨ i = .widenDoneReceive p msg → runs i s v) ∧
    (∀ t, x.rxTask = some t → t.op = oRETURN → t.lane = lane →
      (s.die.step = none → waits = [] → v.lane p true lane = laneRetraining → v.spareLane p true = none →
        ∃ m, runs (.laneRetrainComplete p true lane) s m ∧ m.lane p true lane = laneSpare ∧ (m.port p).rxTask = none ∧
          (m.port p).lost = x.lost.erase lane ∧
          sameRegs v m [portReg p RYS_PORT_LANE_STATE]) ∧
      (s.die.step.isSome = true → ∃ m, runs (.laneRetrainComplete p true lane) s m ∧ m.die.regs = v.die.regs ∧
        (m.port p).rxTask = some { t with op := oRETRAINED })) ∧
    (x.rxTask = none → runs (.laneRetrainComplete p true lane) s v) ∧
    (∀ t, x.txTask = some t → t.op = oRETURN → t.lane = lane → s.die.step = none → waits = [] → v.lane p false lane = laneRetraining →
      v.spareLane p false = none → ∃ m, runs (.laneRetrainComplete p false lane) s m ∧ m.lane p false lane = laneSpare ∧
        (m.port p).txTask = none ∧ sameRegs v m [portReg p RYS_PORT_LANE_STATE]) ∧
    (x.rxTask = none → x.txTask = none → runs (.laneMessageRetry p) s v) ∧
    (∀ t, x.rxTask = some t → waitsAnswer (some t) = some t → waitsAnswer x.txTask = none →
      (t.sends < 8 → ∃ m, runs (.laneMessageRetry p) s m ∧ m.die.ft = max v.die.ft (t.sentAt + 10000) ∧
        (m.port p).rxTask = some { t with sentAt := m.die.ft, sends := t.sends + 1 } ∧
        counted v m (portReg p RYS_PORT_CTL_RETRY_CNT) ∧ controls v m p [laneMessage t.op t.lane t.spare t.txn 0]) ∧
      (8 ≤ t.sends → t.op = oSPARE_REQ → x.lost.contains t.lane = true → v.width p true = 8 →
        ∃ m, runs (.laneMessageRetry p) s m ∧ m.die.ft = max v.die.ft (t.sentAt + 10000) ∧ (m.port p).rxTask =
            some { op := oDEGRADE_REQ, lane := t.lane, spare := 0, txn := (x.txnNo + 1) % 256, sentAt := m.die.ft, sends := 1 } ∧
          controls v m p [laneMessage oDEGRADE_REQ t.lane 0 ((x.txnNo + 1) % 256) 0]) ∧
      (8 ≤ t.sends → x.lost.contains t.lane = false → waits = [] → ∃ m, runs (.laneMessageRetry p) s m ∧ (m.port p).rxTask = none ∧
        m.die.ft = max v.die.ft (t.sentAt + 10000) ∧ (t.op ≠ oSWITCHED → m.die.regs = v.die.regs) ∧
        (t.op = oSWITCHED → t.lane = lane → t.spare = spare → m.lane p true lane = laneActive ∧
          m.lane p true spare = laneSpare))) ∧
    (∀ t, x.txTask = some t → waitsAnswer (some t) = some t → waitsAnswer x.rxTask = none → t.sends < 8 →
      ∃ m, runs (.laneMessageRetry p) s m ∧ m.die.ft = max v.die.ft (t.sentAt + 10000) ∧
        (m.port p).txTask = some { t with sentAt := m.die.ft, sends := t.sends + 1 } ∧
        counted v m (portReg p RYS_PORT_CTL_RETRY_CNT) ∧ controls v m p [laneMessage t.op t.lane t.spare t.txn 0]) ∧
    (st = pDEGRADING → ∃ m, runs (.widthChangeTimeout p) s m ∧ held v m p ∧ m.die.ft = max v.die.ft (x.since + 20000)) ∧
    (st ≠ pDEGRADING → runs (.widthChangeTimeout p) s v)

/-! ## Transport, barriers and fabric time (chapter 11) -/

/-- The type-specific fields of the PUT_DONE of a PUT (Table 11.2). -/
def Sys2Proof.doneTs (b : Bytes) (code : Nat) : Bytes :=
  toBytes 2 (msgTs b 12 2) ++ toBytes 1 (msgTs b 14 1) ++ toBytes 1 code ++ toBytes 4 (msgTs b 16 4) ++ toBytes 8 (msgTs b 20 8)

/-- A message for this module acts as the row of its type (Table 11.2). -/
def Sys2Proof.deliveredAs (p : Nat) (b : Bytes) (i : Instr) : Prop :=
  (msgType b = 1 ∧ i = .putReceive p b) ∨ (msgType b = 2 ∧ i = .putDoneReceive b) ∨ (msgType b = 3 ∧ i = .pageShipReceive b) ∨
  (msgType b = 4 ∧ msgTs b 12 1 = 1 ∧ i = .shipOfferReceive b) ∨ (msgType b = 4 ∧ msgTs b 12 1 = 4 ∧ i = .shipRereqReceive b) ∨
  (msgType b = 5 ∧ i = .shardReqReceive b) ∨ (msgType b = 6 ∧ i = .shardDataReceive b) ∨ (msgType b = 7 ∧ i = .notHeldReceive b) ∨
  (msgType b = 8 ∧ i = .barArriveReceive p b) ∨ (msgType b = 9 ∧ i = .barReleaseReceive p b) ∨
  (msgType b = 10 ∧ i = .foremanMessage b)

/-- Messages and puts: a message that fails its checks, has no hop left or no next hop is discarded and counted, one for
this module is counted and acts as the row of its type, and any other goes on with one hop fewer; a put lands in its window
and is answered 0, is answered 4 when it leaves the window, is answered 5 when it is older than the window's or the running
step, and is held while its window is not bound, until WINDOW_WAIT_US, when it is answered 3; PUT_DONE ends the put it
names, and a code other than 0 is an error of the step (R444 to R446, R449, R452 to R456). -/
def Obligations.MessagesAndPuts : Prop :=
  ∀ (s : State) (p cls : Nat) (b : Bytes), s.die.live = true → s.die.ecc = [] →
    let v := view s
    let w := msgTs b 12 2
    let off := msgTs b 16 4
    let own := v.die.ownPuts.find? fun o => o.dest == msgSrc b && o.window == w && o.offset == off &&
      o.step == msgTs b 20 8 && o.attempt == msgTs b 14 1
    (messageOk cls b = false → runs (.messageReceive p cls b) s (v.count RYS_XPT_HDR_ERR_CNT)) ∧
    (∀ i, messageOk cls b = true → msgDest b = v.moduleId → deliveredAs p b i →
      exec (.messageReceive p cls b) s = exec i (put s (v.count RYS_XPT_MSG_RX_CNT))) ∧
    (messageOk cls b = true → msgDest b ≠ v.moduleId →
      (msgHops b = 0 → runs (.messageReceive p cls b) s (v.count RYS_XPT_HOPLIMIT_DROP_CNT)) ∧
      (msgHops b ≠ 0 → v.nextHops (msgDest b) = [] → msgType b ≠ tyPUT ∨ msgSrc b ≠ v.moduleId →
        runs (.messageReceive p cls b) s (v.count RYS_XPT_NO_ROUTE_CNT)) ∧
      (∀ o, msgHops b ≠ 0 → v.nextHops (msgDest b) = [] → msgType b = tyPUT → msgSrc b = v.moduleId →
        v.die.ownPuts.find? (fun o => o.dest == msgDest b && o.window == w && o.offset == off &&
          o.step == msgTs b 20 8 && o.attempt == msgTs b 14 1) = some o →
        ∃ m, runs (.messageReceive p cls b) s m ∧ counted v m RYS_XPT_NO_ROUTE_CNT ∧ m.mem = v.mem ∧
          m.die.ownPuts = v.die.ownPuts.erase o ∧ counted v m RYS_XPT_FLUSHED_CPL_CNT) ∧
      (∀ q, msgHops b ≠ 0 → v.routePort b cls = some q → ∃ m f, runs (.messageReceive p cls b) s m ∧
        sameRegs v m [RYS_XPT_FWD_CNT] ∧ counted v m RYS_XPT_FWD_CNT ∧ m.mem = v.mem ∧
        mapGetD (m.port q).sendQ cls [] = mapGetD (v.port q).sendQ cls [] ++ [f] ∧ f.due = 0 ∧
        msgHops f.bytes = msgHops b - 1 ∧ msgType f.bytes = msgType b ∧ msgDest f.bytes = msgDest b ∧
        msgSrc f.bytes = msgSrc b ∧ msgFlow f.bytes = msgFlow b ∧ msgBody f.bytes = msgBody b)) ∧
    (v.beforeStep b = true → ∃ m, runs (.putReceive p b) s m ∧ counted v m CMT_STALE_PUT_CNT ∧ m.mem = v.mem ∧
      m.die.putWindows = v.die.putWindows ∧ sent v m tyPUT_DONE (msgSrc b) (doneTs b 5) []) ∧
    (∀ x, mapGet v.die.putWindows w = some x →
      (older (putStep b) (x.step, x.attempt) = true → ∃ m, runs (.putReceive p b) s m ∧ counted v m CMT_STALE_PUT_CNT ∧
        m.mem = v.mem ∧ m.die.putWindows = v.die.putWindows ∧ sent v m tyPUT_DONE (msgSrc b) (doneTs b 5) []) ∧
      (v.beforeStep b = false → putStep b = (x.step, x.attempt) → x.bytes < off + msgLen b → ∃ m, runs (.putReceive p b) s m ∧
        counted v m RYS_XPT_NO_WINDOW_CNT ∧ m.mem = v.mem ∧ m.die.putWindows = v.die.putWindows ∧
        sent v m tyPUT_DONE (msgSrc b) (doneTs b 4) []) ∧
      (v.beforeStep b = false → putStep b = (x.step, x.attempt) → off + msgLen b ≤ x.bytes → x.space ≠ 3 →
        x.base + off + (msgBody b).length ≤ spaceExtent x.space →
        let left := x.missing.filter fun g => decide (16 * g < off) || decide (off + msgLen b ≤ 16 * g)
        let a := memAddr x.core (spaceMem x.space) (x.base + off)
        ∃ m, runs (.putReceive p b) s m ∧ m.read a (msgBody b).length = msgBody b ∧ sameBytes v m a (msgBody b).length ∧
          mapGet m.die.putWindows w = some { x with missing := left } ∧
          (left = [] → ∀ f ∈ (m.core x.core).flights, f.push = x.push → f.owed = []) ∧
          sent v m tyPUT_DONE (msgSrc b) (doneTs b 0) [])) ∧
    (mapGet v.die.putWindows w = none →
      (v.beforeStep b = false → ∃ m e, runs (.putReceive p b) s m ∧ counted v m RYS_XPT_EARLY_PUT_CNT ∧ m.mem = v.mem ∧
        sameRegs v m [RYS_XPT_EARLY_PUT_CNT] ∧ m.die.earlyPuts = v.die.earlyPuts ++ [e] ∧ e.window = w ∧ e.message = b ∧
        e.arrival = v.die.ft ∧ e.port = p)) ∧
    (own = none → runs (.putDoneReceive b) s v) ∧
    (∀ o, own = some o →
      (msgTs b 15 1 = 0 → ∃ m, runs (.putDoneReceive b) s m ∧ m.mem = v.mem ∧ m.die.regs = v.die.regs ∧ m.die.step = v.die.step ∧
        m.die.ownPuts = v.die.ownPuts.erase o ∧ (m.core o.core).flights =
          (v.core o.core).flights.map fun f => if f.push = o.push then { f with owed := f.owed.erase off } else f) ∧
      (∀ t, msgTs b 15 1 ≠ 0 → v.die.step = some t → t.number = msgTs b 20 8 → t.attempt = msgTs b 14 1 →
        ∃ m u, runs (.putDoneReceive b) s m ∧ m.mem = v.mem ∧ m.die.ownPuts = v.die.ownPuts.erase o ∧
          m.die.step = some u ∧ u.error = true ∧ u.number = t.number)) ∧
    (∀ window, v.die.earlyPuts.find? (fun e => e.window == window) = none → runs (.putWindowTimeout window) s v) ∧
    (∀ window e, v.die.earlyPuts.find? (fun e => e.window == window) = some e → ∃ m, runs (.putWindowTimeout window) s m ∧
      m.die.earlyPuts = v.die.earlyPuts.erase e ∧ counted v m RYS_XPT_NO_WINDOW_CNT ∧ m.mem = v.mem ∧
      m.die.ft = max v.die.ft (e.arrival + 1000 * max 1 (v.fld RYS_XPT_CTRL 63 32)) ∧
      sent v m tyPUT_DONE (msgSrc e.message) (doneTs e.message 3) [])

/-- Barriers: a child's arrival is combined by OR, maximum and sum; the root with every arrival in releases at its descriptor's
delay, and any other member sends the combined arrival to its parent; an arrival for the next generation is held, and one
that fits none is counted; a release is taken once, for the current generation, and waits for its time, and one for the
next behind it; one that is late is counted and acts at once; and a generation open too long after the module's own arrival is abandoned, counted and
reported (R472 to R479). -/
def Obligations.BarriersRelease : Prop :=
  ∀ (s : State) (p : Nat) (msg : Bytes), s.die.live = true →
    let v := view s
    let b := msgTs msg 12 1
    let x := v.bar b
    let gen := msgTs msg 14 2
    let shown := FTC_BAR_STATE + 8 * b
    let combined := fun (y : Barrier) => y.children = x.children ++ [p] ∧ y.flags = x.flags ||| msgTs msg 13 1 ∧
      y.value = max x.value (msgTs msg 16 4) ∧ y.count = x.count + msgTs msg 20 2 ∧ y.gen = x.gen
    let fits := v.barValid b = true ∧ (v.barChildren b).contains p = true
    (v.barValid b = false ∨ (v.barChildren b).contains p = false ∨ (gen ≠ x.gen ∧ gen ≠ (x.gen + 1) % 65536) ∨
        (gen = x.gen ∧ x.children.contains p = true) →
      runs (.barArriveReceive p msg) s (v.count FTC_BAR_STALE_CNT)) ∧
    (fits → gen = x.gen → x.children.contains p = false →
      (x.own = false ∨ (v.barChildren b).all (x.children ++ [p]).contains = false → ∃ m, runs (.barArriveReceive p msg) s m ∧
        combined (m.bar b) ∧ (m.bar b).own = x.own ∧ (m.bar b).release = x.release ∧ m.mem = v.mem ∧ sameRegs v m [shown] ∧
        m.fld shown 7 0 = (bit x.own + x.children.length + 1) % 256) ∧
      (x.own = true → x.passed = false → (v.barChildren b).all (x.children ++ [p]).contains = true →
        (v.barRoot b = true → ∃ m, runs (.barArriveReceive p msg) s m ∧ combined (m.bar b) ∧ (m.bar b).passed = true ∧
          m.mem = v.mem ∧ (m.bar b).release = some (x.flags ||| msgTs msg 13 1, max x.value (msgTs msg 16 4),
            v.die.ft + v.fld (barReg b) 31 0)) ∧
        (v.barRoot b = false → v.portTakes (v.barParent b) = true → ∃ m y, runs (.barArriveReceive p msg) s m ∧
          combined (m.bar b) ∧ (m.bar b).passed = true ∧ (m.bar b).release = x.release ∧ m.mem = v.mem ∧
          mapGetD (m.port (v.barParent b)).sendQ 0 [] = mapGetD (v.port (v.barParent b)).sendQ 0 [] ++ [{ bytes := y, due := 0, feed := 0 }] ∧
          msgType y = tyBAR_ARRIVE ∧ msgTs y 12 1 = b ∧ msgTs y 13 1 = (x.flags ||| msgTs msg 13 1) % 256 ∧
          msgTs y 14 2 = gen ∧ msgTs y 16 4 = max x.value (msgTs msg 16 4) % 2 ^ 32 ∧
          msgTs y 20 2 = (x.count + msgTs msg 20 2) % 65536))) ∧
    (fits → gen = (x.gen + 1) % 65536 → gen ≠ x.gen → x.early.any (fun e => e.1 == p) = false →
      ∃ m, runs (.barArriveReceive p msg) s m ∧ m.mem = v.mem ∧ sameRegs v m [shown] ∧
        m.bar b = { x with early := x.early ++ [(p, msgTs msg 13 1, msgTs msg 16 4, msgTs msg 20 2)] }) ∧
    (v.barValid b = false ∨ v.barRoot b = true ∨ (x.release.isSome = true ∧ (gen = x.gen ∨ x.nextRelease.isSome = true)) ∨
        (gen ≠ x.gen ∧ gen ≠ (x.gen + 1) % 65536) →
      runs (.barReleaseReceive p msg) s (v.count FTC_BAR_STALE_CNT)) ∧
    (v.barValid b = true → v.barRoot b = false → x.release = none → gen = x.gen →
      (v.die.ft ≤ msgTs msg 20 8 → ∃ m, runs (.barReleaseReceive p msg) s m ∧ m.mem = v.mem ∧ m.die.ft = v.die.ft ∧
        (m.bar b).gen = gen ∧ (m.bar b).release = some (msgTs msg 13 1, msgTs msg 16 4, msgTs msg 20 8)) ∧
      (msgTs msg 20 8 < v.die.ft → v.copyStale = false → b ≠ v.commitBar → (b = Config.startBarrier → v.die.fmn.composed = none) →
        ∃ m, runs (.barReleaseReceive p msg) s m ∧ counted v m FTC_BAR_LATE_CNT ∧ m.mem = v.mem ∧ m.die.ft = v.die.ft ∧
          (m.bar b).gen = (gen + 1) % 65536 ∧ (m.bar b).release = x.nextRelease)) ∧
    (v.barValid b = true → v.barRoot b = false → x.release.isSome = true → x.nextRelease = none → gen = (x.gen + 1) % 65536 →
      gen ≠ x.gen → ∃ m, runs (.barReleaseReceive p msg) s m ∧ m.mem = v.mem ∧ m.die.ft = v.die.ft ∧
        m.bar b = { x with nextRelease := some (msgTs msg 13 1, msgTs msg 16 4, msgTs msg 20 8) } ∧
        (msgTs msg 20 8 < v.die.ft → counted v m FTC_BAR_LATE_CNT)) ∧
    (∀ n, n < 256 →
      ((v.bar n).own = false ∨ (v.bar n).release.isSome = true → runs (.barrierTimeout n) s v) ∧
      ((v.bar n).own = true → (v.bar n).release = none → ∃ m r, runs (.barrierTimeout n) s m ∧ m.mem = v.mem ∧
        counted v m FTC_BAR_TIMEOUT_CNT ∧ m.die.ft = max v.die.ft ((v.bar n).ownAt + v.regN FTC_BAR_WDOG) ∧
        (m.bar n).gen = ((v.bar n).gen + 1) % 65536 ∧ (m.bar n).abandoned = some (v.bar n).gen ∧ (m.bar n).own = (v.bar n).ownEarly.isSome ∧
        m.die.reports = v.die.reports ++ [r] ∧ r.detail = n))

/-- Fabric time: a port that is ACTIVE sends TIME, and a TIME received there gives a sample in the port's offset register,
counted, and counted again when it is rejected or comes from a parent that follows this module; an accepted sample takes a
FREE follower to ACQUIRE, which steps forward once when it is behind; LOCKED without samples is HOLDOVER, where an alternate
that follows this module is refused; REBASE sets the counter while no model is loaded, and the copies do not go back; a broadcast reaches the Weighbridge and every copy; and in compatibility mode the rack's
edges set the counter, but never back (log entry 130, the model's choice) (R458 to R464, R466, R467, R469, R470). -/
def Obligations.TimeKeeps : Prop :=
  ∀ s : State, s.die.live = true →
    let v := view s
    (∀ p, runs (.timeExchangeTimer p) s (if v.pState p = pACTIVE then v.control p (ctl32 10 []) else v)) ∧
    (∀ p msg arrival,
      (v.pState p ≠ pACTIVE → runs (.timeReceive p msg arrival) s (v.count (portReg p RYS_PORT_UNADMITTED_DROP_CNT))) ∧
      (p < 16 → v.pState p = pACTIVE →
        let x := v.sample p msg arrival
        (∃ m, runs (.timeReceive p msg arrival) s m ∧ counted v m FTC_SAMPLE_CNT ∧ m.mem = v.mem ∧
          m.reg (FTC_PORT_OFFSET + 8 * p) = BitVec.ofInt 64 (x.offset / 256) ∧
          m.regN FTC_SAMPLE_REJECT_CNT = (if v.rejects p msg x = true then min (v.regN FTC_SAMPLE_REJECT_CNT + 1) counterMax
            else v.regN FTC_SAMPLE_REJECT_CNT) ∧
          (m.port p).timeFlags = byteAt msg 4 ∧ (m.port p).timeSteps = byteAt msg 5) ∧
        (v.follows = true → v.fld FTC_STATUS 19 16 = p → v.servoState ≠ sHOLDOVER → (byteAt msg 4).testBit 1 = true →
          ∃ m, runs (.timeReceive p msg arrival) s m ∧ counted v m FTC_LOOP_CNT ∧ m.servoState = v.servoState ∧
            m.fine = v.fine) ∧
        (v.follows = true → v.fld FTC_STATUS 19 16 = p → v.servoState = sFREE → (byteAt msg 4).testBit 1 = false →
          (byteAt msg 4).testBit 0 = true → byteAt msg 5 < 255 → v.rejects p msg x = false →
          ∃ m, runs (.timeReceive p msg arrival) s m ∧ m.servoState = sACQUIRE ∧ m.fld FTC_STATUS 15 8 = byteAt msg 5 + 1 ∧
            (x.offset < 0 → (m.fine : Int) = v.fine - x.offset ∧ m.die.servo.stepped = true) ∧
            (aheadLimit < x.offset → m.fine = v.fine ∧ m.flag FTC_STATUS 4 = true)))) ∧
    (v.follows = false ∨ v.servoState ≠ sLOCKED → runs .servoHoldover s v) ∧
    (v.follows = true → v.servoState = sLOCKED →
      ∃ m, runs .servoHoldover s m ∧ m.servoState = sHOLDOVER ∧ counted v m FTC_HOLDOVER_CNT ∧ m.mem = v.mem ∧
        m.die.ft = max v.die.ft (v.die.servo.lastSample + 10000) ∧
        (v.flag FTC_CTRL 7 = true → v.flag FTC_STATUS 20 = false → (v.port (v.fld FTC_CTRL 15 12)).validParent = true →
          m.fld FTC_STATUS 19 16 = v.fld FTC_CTRL 15 12 ∧ counted v m FTC_PARENT_SWITCH_CNT) ∧
        (v.flag FTC_CTRL 7 = true → v.flag FTC_STATUS 20 = false → (v.port (v.fld FTC_CTRL 15 12)).timeFlags.testBit 1 = true →
          counted v m FTC_LOOP_CNT ∧ m.fld FTC_STATUS 19 16 = v.fld FTC_STATUS 19 16)) ∧
    (v.die.fmn.models ≠ [] → runs .ftcRebase s (v.setFld FTC_CTRL 6 6 0)) ∧
    (v.die.fmn.models = [] →
      let offset := signed (v.regN (FTC_PORT_OFFSET + 8 * v.fld FTC_STATUS 19 16)) 64 * 256
      ∃ m, runs .ftcRebase s m ∧ m.mem = v.mem ∧ sameRegs v m [FTC_CTRL, FTC_STATUS] ∧ m.flag FTC_STATUS 4 = false ∧
        m.die.servo.stepped = true ∧ v.die.ft ≤ m.die.servo.copyFloor ∧ (offset ≤ v.fine → (m.fine : Int) = v.fine - offset)) ∧
    (∃ t, exec .ftBroadcast s = .next t ∧ t.die.ft = max s.die.ft (s.die.servo.lastBroadcast + 1000) ∧
      t.die.regs = s.die.regs ∧ t.die.servo.lastBroadcast = t.die.ft ∧ t.die.servo.staleCopies = [] ∧
      t.pending = s.pending ∧ (s.wb.powered = false → t.wb = s.wb) ∧
      (s.wb.powered = true → isJump s.wb.ft t.die.ft = false → t.wb = { s.wb with ft := t.die.ft, ftLocked := v.ftLocked })) ∧
    (v.compat = false → runs .rackrefSyncEdge s v ∧ runs .rackrefSyncMiss s v ∧
      runs .rackrefClkStop s (v.updServo fun x => { x with rackClock := false }) ∧
      runs .rackrefClkReturn s (v.updServo fun x => { x with rackClock := true })) ∧
    (v.compat = true →
      let epoch := v.regN FTC_RACK_EPOCH
      let next := (epoch + v.fld FTC_RACK 31 16 * 1000000) % 2 ^ 64
      (∃ m, runs .rackrefSyncEdge s m ∧ m.die.ft = max v.die.ft (epoch + v.fld FTC_RACK 15 0) ∧
        m.die.servo.frac = (if v.die.ft < epoch + v.fld FTC_RACK 15 0 then 0 else v.die.servo.frac) ∧ m.mem = v.mem ∧
        m.regN FTC_RACK_EPOCH = next ∧ m.servoState = if v.servoState = sACQUIRE then sLOCKED else v.servoState) ∧
      (∃ m, runs .rackrefSyncMiss s m ∧ m.die.ft = max v.die.ft (epoch + v.fld FTC_RACK 15 0 + 50000) ∧ m.mem = v.mem ∧
        counted v m FTC_RACK_SYNC_MISS_CNT ∧ m.regN FTC_RACK_EPOCH = next ∧
        sameRegs v m [FTC_RACK_SYNC_MISS_CNT, FTC_RACK_EPOCH]) ∧
      (v.servoState ≠ sHOLDOVER → ∃ m, runs .rackrefClkStop s m ∧ m.servoState = sHOLDOVER ∧ m.mem = v.mem ∧
        counted v m FTC_HOLDOVER_CNT ∧ sameRegs v m [FTC_STATUS, FTC_HOLDOVER_CNT]) ∧
      (v.servoState = sHOLDOVER → ∃ m, runs .rackrefClkReturn s m ∧ m.servoState = sLOCKED ∧ m.mem = v.mem ∧
        m.die.ft = v.die.ft ∧ m.die.servo.rackClock = true))

end
end

