-- ==== Sys2Proof/Laws/Words.lean ====
section
/-! SUPPORT. Lemmas on bit fields, byte strings and sparse maps: what a write leaves to be read. -/
namespace Sys2Proof.Machine

/-! ## Sparse maps -/

theorem lookup_filter {α : Type} (m : NMap α) (p : Nat → Bool) (k : Nat) :
    (m.filter fun x => p x.1).lookup k = if p k then m.lookup k else none := by
  induction m with
  | nil => simp
  | cons x m ih =>
    obtain ⟨a, v⟩ := x
    by_cases hk : k = a
    · subst hk
      by_cases hp : p k <;> simp [hp, ih]
    · have hb : (k == a) = false := by simpa using hk
      by_cases hp : p a <;> simp [List.lookup_cons, hp, hb, ih]

theorem lookup_append {α : Type} (l r : NMap α) (k : Nat) :
    (l ++ r).lookup k = (l.lookup k).or (r.lookup k) := by
  induction l with
  | nil => simp
  | cons x l ih =>
    obtain ⟨a, v⟩ := x
    by_cases hk : k = a
    · subst hk; simp
    · have hb : (k == a) = false := by simpa using hk
      simp [List.lookup_cons, hb, ih]

@[simp] theorem mapGet_mapSet_same {α : Type} (m : NMap α) (k : Nat) (v : α) : mapGet (mapSet m k v) k = some v := by
  have h := lookup_filter m (fun x => decide (x < k)) k
  simp only [mapGet, mapSet, lookup_append, List.lookup_cons, beq_self_eq_true]
  rw [h]; simp

theorem mapGet_mapSet_ne {α : Type} (m : NMap α) (k j : Nat) (v : α) (h : j ≠ k) :
    mapGet (mapSet m k v) j = mapGet m j := by
  have h1 := lookup_filter m (fun x => decide (x < k)) j
  have h2 := lookup_filter m (fun x => decide (k < x)) j
  have hb : (j == k) = false := by simpa using h
  simp only [mapGet, mapSet, lookup_append, List.lookup_cons, hb]
  rw [h1, h2]
  rcases Nat.lt_or_gt_of_ne h with h | h
  · simp [h, show ¬ k < j by omega]
  · simp [h, show ¬ j < k by omega]

theorem mapGetD_eq {α : Type} (m : NMap α) (k : Nat) (d : α) : mapGetD m k d = (mapGet m k).getD d := rfl

@[simp] theorem mapGetD_mapSet_same {α : Type} (m : NMap α) (k : Nat) (v d : α) : mapGetD (mapSet m k v) k d = v := by
  simp [mapGetD_eq]

theorem mapGetD_mapSet_ne {α : Type} (m : NMap α) (k j : Nat) (v d : α) (h : j ≠ k) :
    mapGetD (mapSet m k v) j d = mapGetD m j d := by
  simp [mapGetD_eq, mapGet_mapSet_ne _ _ _ _ h]

/-! ## Bit fields -/

theorem bits_testBit (n hi lo i : Nat) : (bits n hi lo).testBit i = (decide (i < hi + 1 - lo) && n.testBit (lo + i)) := by
  simp [bits, Nat.testBit_mod_two_pow, Nat.testBit_shiftRight]

theorem setFld_getLsbD (w : Word) (hi lo v i : Nat) (hl : lo ≤ hi) (h : i < 64) :
    (setFld w hi lo v).getLsbD i = if lo ≤ i ∧ i ≤ hi then v.testBit (i - lo) else w.getLsbD i := by
  have key : (2 ^ (hi + 1 - lo) - 1).testBit (i - lo) = decide (i - lo < hi + 1 - lo) := by
    simp [Nat.testBit_two_pow_sub_one]
  simp only [setFld, BitVec.getLsbD_or, BitVec.getLsbD_and, BitVec.getLsbD_not, BitVec.getLsbD_ofNat,
    Nat.testBit_shiftLeft, key, Nat.testBit_mod_two_pow, h, decide_true, Bool.true_and]
  by_cases h1 : lo ≤ i <;> by_cases h2 : i ≤ hi
  · have : i - lo < hi + 1 - lo := by omega
    simp [h1, h2, this]
  · have : ¬ i - lo < hi + 1 - lo := by omega
    simp [h1, h2, this]
  · simp [h1]
  · simp [h1]

/-- The field just written reads as the value, cut to its width. -/
theorem fld_setFld_same (w : Word) (hi lo v : Nat) (hhi : hi < 64) (hl : lo ≤ hi) :
    fld (setFld w hi lo v) hi lo = v % 2 ^ (hi + 1 - lo) := by
  apply Nat.eq_of_testBit_eq
  intro i
  simp only [fld, bits_testBit, Nat.testBit_mod_two_pow, ← BitVec.getLsbD.eq_def]
  by_cases h : i < hi + 1 - lo
  · rw [setFld_getLsbD _ _ _ _ _ hl (by omega)]
    simp [h, show lo + i ≤ hi by omega]
  · simp [h]

/-- A field that does not meet the one written keeps its value. -/
theorem fld_setFld_other (w : Word) (hi lo v hi' lo' : Nat) (hl : lo ≤ hi) (hhi' : hi' < 64)
    (h : hi' < lo ∨ hi < lo') : fld (setFld w hi lo v) hi' lo' = fld w hi' lo' := by
  apply Nat.eq_of_testBit_eq
  intro i
  simp only [fld, bits_testBit]
  by_cases hi2 : i < hi' + 1 - lo'
  · rw [BitVec.testBit_toNat, BitVec.testBit_toNat, setFld_getLsbD _ _ _ _ _ hl (by omega)]
    rw [if_neg (by omega)]
  · simp [hi2]

/-- The bit written reads as the value's parity; another bit keeps its value. -/
theorem setFld_bit_same (w : Word) (i v : Nat) (hi : i < 64) : (setFld w i i v).getLsbD i = v.testBit 0 := by
  simp [setFld_getLsbD w i i v i (Nat.le_refl _) hi]

theorem satAdd_toNat (w : Word) (k : Nat) : (satAdd w k).toNat = min (w.toNat + k) counterMax := by
  unfold satAdd
  split
  · rename_i h; rw [Nat.min_eq_left h, BitVec.toNat_ofNat]
    unfold counterMax at h; exact Nat.mod_eq_of_lt (by omega)
  · rename_i h; rw [Nat.min_eq_right (by omega)]; simp [counterMax]

/-! ## Byte strings -/

@[simp] theorem toBytes_length (n v : Nat) : (toBytes n v).length = n := by
  induction n generalizing v with
  | zero => rfl
  | succ n ih => simp [toBytes, ih]

@[simp] theorem slice_length (bs : Bytes) (o n : Nat) : (slice bs o n).length = n := by
  simp [slice]

@[simp] theorem zeros_length (n : Nat) : (zeros n).length = n := by simp [zeros]

theorem ofBytes_toBytes (n v : Nat) : ofBytes (toBytes n v) = v % 256 ^ n := by
  induction n generalizing v with
  | zero => simp [toBytes, ofBytes, Nat.mod_one]
  | succ n ih =>
    have h : (256 : Nat) ^ (n + 1) = 256 * 256 ^ n := by rw [Nat.pow_succ, Nat.mul_comm]
    rw [h, Nat.mod_mul]
    simp only [toBytes, ofBytes, ih, BitVec.toNat_ofNat]

theorem slice_append_mid (a b c : Bytes) (o n : Nat) (ho : a.length = o) (hn : b.length = n) :
    slice (a ++ b ++ c) o n = b := by
  subst ho hn
  simp [slice, List.append_assoc]

end Sys2Proof.Machine
end

