-- ==== Sys2Proof/Laws/State.lean ====
section
/-! SUPPORT. For each update of the working state, what it leaves of each field: the lemmas that later proofs rewrite with
instead of unfolding an update. -/
namespace Sys2Proof.Machine

@[simp] theorem M.setReg_mem (m : M) (a : Nat) (w : Word) : (m.setReg a w).mem = m.mem := rfl
@[simp] theorem M.setReg_ft (m : M) (a : Nat) (w : Word) : (m.setReg a w).die.ft = m.die.ft := rfl
@[simp] theorem M.setReg_free (m : M) (a : Nat) (w : Word) : (m.setReg a w).die.free = m.die.free := rfl
@[simp] theorem M.setReg_readData (m : M) (a : Nat) (w : Word) : (m.setReg a w).die.readData = m.die.readData := rfl
@[simp] theorem M.setReg_busError (m : M) (a : Nat) (w : Word) : (m.setReg a w).die.busError = m.die.busError := rfl
@[simp] theorem M.setReg_hdf (m : M) (a : Nat) (w : Word) : (m.setReg a w).die.hdf = m.die.hdf := rfl
@[simp] theorem M.setReg_pwr (m : M) (a : Nat) (w : Word) : (m.setReg a w).die.pwr = m.die.pwr := rfl
@[simp] theorem M.setReg_cores (m : M) (a : Nat) (w : Word) : (m.setReg a w).die.cores = m.die.cores := rfl
@[simp] theorem M.setReg_sites (m : M) (a : Nat) (w : Word) : (m.setReg a w).die.sites = m.die.sites := rfl
@[simp] theorem M.setReg_beats (m : M) (a : Nat) (w : Word) : (m.setReg a w).die.beats = m.die.beats := rfl
@[simp] theorem M.setReg_beatNo (m : M) (a : Nat) (w : Word) : (m.setReg a w).die.beatNo = m.die.beatNo := rfl
@[simp] theorem M.setReg_uses (m : M) (a : Nat) (w : Word) : (m.setReg a w).die.uses = m.die.uses := rfl
@[simp] theorem M.setReg_writes (m : M) (a : Nat) (w : Word) : (m.setReg a w).die.writes = m.die.writes := rfl
@[simp] theorem M.setReg_writeNo (m : M) (a : Nat) (w : Word) : (m.setReg a w).die.writeNo = m.die.writeNo := rfl
@[simp] theorem M.setReg_fences (m : M) (a : Nat) (w : Word) : (m.setReg a w).die.fences = m.die.fences := rfl
@[simp] theorem M.setReg_step (m : M) (a : Nat) (w : Word) : (m.setReg a w).die.step = m.die.step := rfl
@[simp] theorem M.setReg_stepNumber (m : M) (a : Nat) (w : Word) : (m.setReg a w).die.stepNumber = m.die.stepNumber := rfl
@[simp] theorem M.setReg_reports (m : M) (a : Nat) (w : Word) : (m.setReg a w).die.reports = m.die.reports := rfl
@[simp] theorem M.setReg_ecc (m : M) (a : Nat) (w : Word) : (m.setReg a w).die.ecc = m.die.ecc := rfl
@[simp] theorem M.setReg_seams (m : M) (a : Nat) (w : Word) : (m.setReg a w).die.seams = m.die.seams := rfl
@[simp] theorem M.setReg_bursts (m : M) (a : Nat) (w : Word) : (m.setReg a w).die.bursts = m.die.bursts := rfl
@[simp] theorem M.setReg_hostWait (m : M) (a : Nat) (w : Word) : (m.setReg a w).die.hostWait = m.die.hostWait := rfl
@[simp] theorem M.setReg_parkJobs (m : M) (a : Nat) (w : Word) : (m.setReg a w).die.parkJobs = m.die.parkJobs := rfl
@[simp] theorem M.setReg_parked (m : M) (a : Nat) (w : Word) : (m.setReg a w).die.parked = m.die.parked := rfl
@[simp] theorem M.setReg_fmn (m : M) (a : Nat) (w : Word) : (m.setReg a w).die.fmn = m.die.fmn := rfl
@[simp] theorem M.setReg_ports (m : M) (a : Nat) (w : Word) : (m.setReg a w).die.ports = m.die.ports := rfl
@[simp] theorem M.setReg_putWindows (m : M) (a : Nat) (w : Word) : (m.setReg a w).die.putWindows = m.die.putWindows := rfl
@[simp] theorem M.setReg_earlyPuts (m : M) (a : Nat) (w : Word) : (m.setReg a w).die.earlyPuts = m.die.earlyPuts := rfl
@[simp] theorem M.setReg_ownPuts (m : M) (a : Nat) (w : Word) : (m.setReg a w).die.ownPuts = m.die.ownPuts := rfl
@[simp] theorem M.setReg_loopback (m : M) (a : Nat) (w : Word) : (m.setReg a w).die.loopback = m.die.loopback := rfl
@[simp] theorem M.setReg_servo (m : M) (a : Nat) (w : Word) : (m.setReg a w).die.servo = m.die.servo := rfl
@[simp] theorem M.setReg_barriers (m : M) (a : Nat) (w : Word) : (m.setReg a w).die.barriers = m.die.barriers := rfl
@[simp] theorem M.setReg_wbOut (m : M) (a : Nat) (w : Word) : (m.setReg a w).die.wbOut = m.die.wbOut := rfl
@[simp] theorem M.setReg_rseq (m : M) (a : Nat) (w : Word) : (m.setReg a w).die.rseq = m.die.rseq := rfl
@[simp] theorem M.setReg_session (m : M) (a : Nat) (w : Word) : (m.setReg a w).die.session = m.die.session := rfl
@[simp] theorem M.setReg_heldEvents (m : M) (a : Nat) (w : Word) : (m.setReg a w).die.heldEvents = m.die.heldEvents := rfl
@[simp] theorem M.setReg_svc (m : M) (a : Nat) (w : Word) : (m.setReg a w).die.svc = m.die.svc := rfl

@[simp] theorem M.setFld_mem (m : M) (a hi lo v : Nat) : (m.setFld a hi lo v).mem = m.mem := rfl
@[simp] theorem M.setFld_ft (m : M) (a hi lo v : Nat) : (m.setFld a hi lo v).die.ft = m.die.ft := rfl
@[simp] theorem M.setFld_free (m : M) (a hi lo v : Nat) : (m.setFld a hi lo v).die.free = m.die.free := rfl
@[simp] theorem M.setFld_readData (m : M) (a hi lo v : Nat) : (m.setFld a hi lo v).die.readData = m.die.readData := rfl
@[simp] theorem M.setFld_busError (m : M) (a hi lo v : Nat) : (m.setFld a hi lo v).die.busError = m.die.busError := rfl
@[simp] theorem M.setFld_hdf (m : M) (a hi lo v : Nat) : (m.setFld a hi lo v).die.hdf = m.die.hdf := rfl
@[simp] theorem M.setFld_pwr (m : M) (a hi lo v : Nat) : (m.setFld a hi lo v).die.pwr = m.die.pwr := rfl
@[simp] theorem M.setFld_cores (m : M) (a hi lo v : Nat) : (m.setFld a hi lo v).die.cores = m.die.cores := rfl
@[simp] theorem M.setFld_sites (m : M) (a hi lo v : Nat) : (m.setFld a hi lo v).die.sites = m.die.sites := rfl
@[simp] theorem M.setFld_beats (m : M) (a hi lo v : Nat) : (m.setFld a hi lo v).die.beats = m.die.beats := rfl
@[simp] theorem M.setFld_beatNo (m : M) (a hi lo v : Nat) : (m.setFld a hi lo v).die.beatNo = m.die.beatNo := rfl
@[simp] theorem M.setFld_uses (m : M) (a hi lo v : Nat) : (m.setFld a hi lo v).die.uses = m.die.uses := rfl
@[simp] theorem M.setFld_writes (m : M) (a hi lo v : Nat) : (m.setFld a hi lo v).die.writes = m.die.writes := rfl
@[simp] theorem M.setFld_writeNo (m : M) (a hi lo v : Nat) : (m.setFld a hi lo v).die.writeNo = m.die.writeNo := rfl
@[simp] theorem M.setFld_fences (m : M) (a hi lo v : Nat) : (m.setFld a hi lo v).die.fences = m.die.fences := rfl
@[simp] theorem M.setFld_step (m : M) (a hi lo v : Nat) : (m.setFld a hi lo v).die.step = m.die.step := rfl
@[simp] theorem M.setFld_stepNumber (m : M) (a hi lo v : Nat) : (m.setFld a hi lo v).die.stepNumber = m.die.stepNumber := rfl
@[simp] theorem M.setFld_reports (m : M) (a hi lo v : Nat) : (m.setFld a hi lo v).die.reports = m.die.reports := rfl
@[simp] theorem M.setFld_ecc (m : M) (a hi lo v : Nat) : (m.setFld a hi lo v).die.ecc = m.die.ecc := rfl
@[simp] theorem M.setFld_seams (m : M) (a hi lo v : Nat) : (m.setFld a hi lo v).die.seams = m.die.seams := rfl
@[simp] theorem M.setFld_bursts (m : M) (a hi lo v : Nat) : (m.setFld a hi lo v).die.bursts = m.die.bursts := rfl
@[simp] theorem M.setFld_hostWait (m : M) (a hi lo v : Nat) : (m.setFld a hi lo v).die.hostWait = m.die.hostWait := rfl
@[simp] theorem M.setFld_parkJobs (m : M) (a hi lo v : Nat) : (m.setFld a hi lo v).die.parkJobs = m.die.parkJobs := rfl
@[simp] theorem M.setFld_parked (m : M) (a hi lo v : Nat) : (m.setFld a hi lo v).die.parked = m.die.parked := rfl
@[simp] theorem M.setFld_fmn (m : M) (a hi lo v : Nat) : (m.setFld a hi lo v).die.fmn = m.die.fmn := rfl
@[simp] theorem M.setFld_ports (m : M) (a hi lo v : Nat) : (m.setFld a hi lo v).die.ports = m.die.ports := rfl
@[simp] theorem M.setFld_putWindows (m : M) (a hi lo v : Nat) : (m.setFld a hi lo v).die.putWindows = m.die.putWindows := rfl
@[simp] theorem M.setFld_earlyPuts (m : M) (a hi lo v : Nat) : (m.setFld a hi lo v).die.earlyPuts = m.die.earlyPuts := rfl
@[simp] theorem M.setFld_ownPuts (m : M) (a hi lo v : Nat) : (m.setFld a hi lo v).die.ownPuts = m.die.ownPuts := rfl
@[simp] theorem M.setFld_loopback (m : M) (a hi lo v : Nat) : (m.setFld a hi lo v).die.loopback = m.die.loopback := rfl
@[simp] theorem M.setFld_servo (m : M) (a hi lo v : Nat) : (m.setFld a hi lo v).die.servo = m.die.servo := rfl
@[simp] theorem M.setFld_barriers (m : M) (a hi lo v : Nat) : (m.setFld a hi lo v).die.barriers = m.die.barriers := rfl
@[simp] theorem M.setFld_wbOut (m : M) (a hi lo v : Nat) : (m.setFld a hi lo v).die.wbOut = m.die.wbOut := rfl
@[simp] theorem M.setFld_rseq (m : M) (a hi lo v : Nat) : (m.setFld a hi lo v).die.rseq = m.die.rseq := rfl
@[simp] theorem M.setFld_session (m : M) (a hi lo v : Nat) : (m.setFld a hi lo v).die.session = m.die.session := rfl
@[simp] theorem M.setFld_heldEvents (m : M) (a hi lo v : Nat) : (m.setFld a hi lo v).die.heldEvents = m.die.heldEvents := rfl
@[simp] theorem M.setFld_svc (m : M) (a hi lo v : Nat) : (m.setFld a hi lo v).die.svc = m.die.svc := rfl

@[simp] theorem M.countBy_mem (m : M) (a k : Nat) : (m.countBy a k).mem = m.mem := by unfold M.countBy; split <;> rfl
@[simp] theorem M.countBy_ft (m : M) (a k : Nat) : (m.countBy a k).die.ft = m.die.ft := by unfold M.countBy; split <;> rfl
@[simp] theorem M.countBy_free (m : M) (a k : Nat) : (m.countBy a k).die.free = m.die.free := by unfold M.countBy; split <;> rfl
@[simp] theorem M.countBy_readData (m : M) (a k : Nat) : (m.countBy a k).die.readData = m.die.readData := by unfold M.countBy; split <;> rfl
@[simp] theorem M.countBy_busError (m : M) (a k : Nat) : (m.countBy a k).die.busError = m.die.busError := by unfold M.countBy; split <;> rfl
@[simp] theorem M.countBy_hdf (m : M) (a k : Nat) : (m.countBy a k).die.hdf = m.die.hdf := by unfold M.countBy; split <;> rfl
@[simp] theorem M.countBy_pwr (m : M) (a k : Nat) : (m.countBy a k).die.pwr = m.die.pwr := by unfold M.countBy; split <;> rfl
@[simp] theorem M.countBy_cores (m : M) (a k : Nat) : (m.countBy a k).die.cores = m.die.cores := by unfold M.countBy; split <;> rfl
@[simp] theorem M.countBy_sites (m : M) (a k : Nat) : (m.countBy a k).die.sites = m.die.sites := by unfold M.countBy; split <;> rfl
@[simp] theorem M.countBy_beats (m : M) (a k : Nat) : (m.countBy a k).die.beats = m.die.beats := by unfold M.countBy; split <;> rfl
@[simp] theorem M.countBy_beatNo (m : M) (a k : Nat) : (m.countBy a k).die.beatNo = m.die.beatNo := by unfold M.countBy; split <;> rfl
@[simp] theorem M.countBy_uses (m : M) (a k : Nat) : (m.countBy a k).die.uses = m.die.uses := by unfold M.countBy; split <;> rfl
@[simp] theorem M.countBy_writes (m : M) (a k : Nat) : (m.countBy a k).die.writes = m.die.writes := by unfold M.countBy; split <;> rfl
@[simp] theorem M.countBy_writeNo (m : M) (a k : Nat) : (m.countBy a k).die.writeNo = m.die.writeNo := by unfold M.countBy; split <;> rfl
@[simp] theorem M.countBy_fences (m : M) (a k : Nat) : (m.countBy a k).die.fences = m.die.fences := by unfold M.countBy; split <;> rfl
@[simp] theorem M.countBy_step (m : M) (a k : Nat) : (m.countBy a k).die.step = m.die.step := by unfold M.countBy; split <;> rfl
@[simp] theorem M.countBy_stepNumber (m : M) (a k : Nat) : (m.countBy a k).die.stepNumber = m.die.stepNumber := by unfold M.countBy; split <;> rfl
@[simp] theorem M.countBy_reports (m : M) (a k : Nat) : (m.countBy a k).die.reports = m.die.reports := by unfold M.countBy; split <;> rfl
@[simp] theorem M.countBy_ecc (m : M) (a k : Nat) : (m.countBy a k).die.ecc = m.die.ecc := by unfold M.countBy; split <;> rfl
@[simp] theorem M.countBy_seams (m : M) (a k : Nat) : (m.countBy a k).die.seams = m.die.seams := by unfold M.countBy; split <;> rfl
@[simp] theorem M.countBy_bursts (m : M) (a k : Nat) : (m.countBy a k).die.bursts = m.die.bursts := by unfold M.countBy; split <;> rfl
@[simp] theorem M.countBy_hostWait (m : M) (a k : Nat) : (m.countBy a k).die.hostWait = m.die.hostWait := by unfold M.countBy; split <;> rfl
@[simp] theorem M.countBy_parkJobs (m : M) (a k : Nat) : (m.countBy a k).die.parkJobs = m.die.parkJobs := by unfold M.countBy; split <;> rfl
@[simp] theorem M.countBy_parked (m : M) (a k : Nat) : (m.countBy a k).die.parked = m.die.parked := by unfold M.countBy; split <;> rfl
@[simp] theorem M.countBy_fmn (m : M) (a k : Nat) : (m.countBy a k).die.fmn = m.die.fmn := by unfold M.countBy; split <;> rfl
@[simp] theorem M.countBy_ports (m : M) (a k : Nat) : (m.countBy a k).die.ports = m.die.ports := by unfold M.countBy; split <;> rfl
@[simp] theorem M.countBy_putWindows (m : M) (a k : Nat) : (m.countBy a k).die.putWindows = m.die.putWindows := by unfold M.countBy; split <;> rfl
@[simp] theorem M.countBy_earlyPuts (m : M) (a k : Nat) : (m.countBy a k).die.earlyPuts = m.die.earlyPuts := by unfold M.countBy; split <;> rfl
@[simp] theorem M.countBy_ownPuts (m : M) (a k : Nat) : (m.countBy a k).die.ownPuts = m.die.ownPuts := by unfold M.countBy; split <;> rfl
@[simp] theorem M.countBy_loopback (m : M) (a k : Nat) : (m.countBy a k).die.loopback = m.die.loopback := by unfold M.countBy; split <;> rfl
@[simp] theorem M.countBy_servo (m : M) (a k : Nat) : (m.countBy a k).die.servo = m.die.servo := by unfold M.countBy; split <;> rfl
@[simp] theorem M.countBy_barriers (m : M) (a k : Nat) : (m.countBy a k).die.barriers = m.die.barriers := by unfold M.countBy; split <;> rfl
@[simp] theorem M.countBy_wbOut (m : M) (a k : Nat) : (m.countBy a k).die.wbOut = m.die.wbOut := by unfold M.countBy; split <;> rfl
@[simp] theorem M.countBy_rseq (m : M) (a k : Nat) : (m.countBy a k).die.rseq = m.die.rseq := by unfold M.countBy; split <;> rfl
@[simp] theorem M.countBy_session (m : M) (a k : Nat) : (m.countBy a k).die.session = m.die.session := by unfold M.countBy; split <;> rfl
@[simp] theorem M.countBy_heldEvents (m : M) (a k : Nat) : (m.countBy a k).die.heldEvents = m.die.heldEvents := by unfold M.countBy; split <;> rfl
@[simp] theorem M.countBy_svc (m : M) (a k : Nat) : (m.countBy a k).die.svc = m.die.svc := by unfold M.countBy; split <;> rfl

@[simp] theorem M.count_mem (m : M) (a : Nat) : (m.count a).mem = m.mem := rfl
@[simp] theorem M.count_ft (m : M) (a : Nat) : (m.count a).die.ft = m.die.ft := rfl
@[simp] theorem M.count_free (m : M) (a : Nat) : (m.count a).die.free = m.die.free := rfl
@[simp] theorem M.count_readData (m : M) (a : Nat) : (m.count a).die.readData = m.die.readData := rfl
@[simp] theorem M.count_busError (m : M) (a : Nat) : (m.count a).die.busError = m.die.busError := rfl
@[simp] theorem M.count_hdf (m : M) (a : Nat) : (m.count a).die.hdf = m.die.hdf := rfl
@[simp] theorem M.count_pwr (m : M) (a : Nat) : (m.count a).die.pwr = m.die.pwr := rfl
@[simp] theorem M.count_cores (m : M) (a : Nat) : (m.count a).die.cores = m.die.cores := rfl
@[simp] theorem M.count_sites (m : M) (a : Nat) : (m.count a).die.sites = m.die.sites := rfl
@[simp] theorem M.count_beats (m : M) (a : Nat) : (m.count a).die.beats = m.die.beats := rfl
@[simp] theorem M.count_beatNo (m : M) (a : Nat) : (m.count a).die.beatNo = m.die.beatNo := rfl
@[simp] theorem M.count_uses (m : M) (a : Nat) : (m.count a).die.uses = m.die.uses := rfl
@[simp] theorem M.count_writes (m : M) (a : Nat) : (m.count a).die.writes = m.die.writes := rfl
@[simp] theorem M.count_writeNo (m : M) (a : Nat) : (m.count a).die.writeNo = m.die.writeNo := rfl
@[simp] theorem M.count_fences (m : M) (a : Nat) : (m.count a).die.fences = m.die.fences := rfl
@[simp] theorem M.count_step (m : M) (a : Nat) : (m.count a).die.step = m.die.step := rfl
@[simp] theorem M.count_stepNumber (m : M) (a : Nat) : (m.count a).die.stepNumber = m.die.stepNumber := rfl
@[simp] theorem M.count_reports (m : M) (a : Nat) : (m.count a).die.reports = m.die.reports := rfl
@[simp] theorem M.count_ecc (m : M) (a : Nat) : (m.count a).die.ecc = m.die.ecc := rfl
@[simp] theorem M.count_seams (m : M) (a : Nat) : (m.count a).die.seams = m.die.seams := rfl
@[simp] theorem M.count_bursts (m : M) (a : Nat) : (m.count a).die.bursts = m.die.bursts := rfl
@[simp] theorem M.count_hostWait (m : M) (a : Nat) : (m.count a).die.hostWait = m.die.hostWait := rfl
@[simp] theorem M.count_parkJobs (m : M) (a : Nat) : (m.count a).die.parkJobs = m.die.parkJobs := rfl
@[simp] theorem M.count_parked (m : M) (a : Nat) : (m.count a).die.parked = m.die.parked := rfl
@[simp] theorem M.count_fmn (m : M) (a : Nat) : (m.count a).die.fmn = m.die.fmn := rfl
@[simp] theorem M.count_ports (m : M) (a : Nat) : (m.count a).die.ports = m.die.ports := rfl
@[simp] theorem M.count_putWindows (m : M) (a : Nat) : (m.count a).die.putWindows = m.die.putWindows := rfl
@[simp] theorem M.count_earlyPuts (m : M) (a : Nat) : (m.count a).die.earlyPuts = m.die.earlyPuts := rfl
@[simp] theorem M.count_ownPuts (m : M) (a : Nat) : (m.count a).die.ownPuts = m.die.ownPuts := rfl
@[simp] theorem M.count_loopback (m : M) (a : Nat) : (m.count a).die.loopback = m.die.loopback := rfl
@[simp] theorem M.count_servo (m : M) (a : Nat) : (m.count a).die.servo = m.die.servo := rfl
@[simp] theorem M.count_barriers (m : M) (a : Nat) : (m.count a).die.barriers = m.die.barriers := rfl
@[simp] theorem M.count_wbOut (m : M) (a : Nat) : (m.count a).die.wbOut = m.die.wbOut := rfl
@[simp] theorem M.count_rseq (m : M) (a : Nat) : (m.count a).die.rseq = m.die.rseq := rfl
@[simp] theorem M.count_session (m : M) (a : Nat) : (m.count a).die.session = m.die.session := rfl
@[simp] theorem M.count_heldEvents (m : M) (a : Nat) : (m.count a).die.heldEvents = m.die.heldEvents := rfl
@[simp] theorem M.count_svc (m : M) (a : Nat) : (m.count a).die.svc = m.die.svc := rfl

@[simp] theorem M.raise_mem (m : M) (a i : Nat) : (m.raise a i).mem = m.mem := rfl
@[simp] theorem M.raise_ft (m : M) (a i : Nat) : (m.raise a i).die.ft = m.die.ft := rfl
@[simp] theorem M.raise_free (m : M) (a i : Nat) : (m.raise a i).die.free = m.die.free := rfl
@[simp] theorem M.raise_readData (m : M) (a i : Nat) : (m.raise a i).die.readData = m.die.readData := rfl
@[simp] theorem M.raise_busError (m : M) (a i : Nat) : (m.raise a i).die.busError = m.die.busError := rfl
@[simp] theorem M.raise_hdf (m : M) (a i : Nat) : (m.raise a i).die.hdf = m.die.hdf := rfl
@[simp] theorem M.raise_pwr (m : M) (a i : Nat) : (m.raise a i).die.pwr = m.die.pwr := rfl
@[simp] theorem M.raise_cores (m : M) (a i : Nat) : (m.raise a i).die.cores = m.die.cores := rfl
@[simp] theorem M.raise_sites (m : M) (a i : Nat) : (m.raise a i).die.sites = m.die.sites := rfl
@[simp] theorem M.raise_beats (m : M) (a i : Nat) : (m.raise a i).die.beats = m.die.beats := rfl
@[simp] theorem M.raise_beatNo (m : M) (a i : Nat) : (m.raise a i).die.beatNo = m.die.beatNo := rfl
@[simp] theorem M.raise_uses (m : M) (a i : Nat) : (m.raise a i).die.uses = m.die.uses := rfl
@[simp] theorem M.raise_writes (m : M) (a i : Nat) : (m.raise a i).die.writes = m.die.writes := rfl
@[simp] theorem M.raise_writeNo (m : M) (a i : Nat) : (m.raise a i).die.writeNo = m.die.writeNo := rfl
@[simp] theorem M.raise_fences (m : M) (a i : Nat) : (m.raise a i).die.fences = m.die.fences := rfl
@[simp] theorem M.raise_step (m : M) (a i : Nat) : (m.raise a i).die.step = m.die.step := rfl
@[simp] theorem M.raise_stepNumber (m : M) (a i : Nat) : (m.raise a i).die.stepNumber = m.die.stepNumber := rfl
@[simp] theorem M.raise_reports (m : M) (a i : Nat) : (m.raise a i).die.reports = m.die.reports := rfl
@[simp] theorem M.raise_ecc (m : M) (a i : Nat) : (m.raise a i).die.ecc = m.die.ecc := rfl
@[simp] theorem M.raise_seams (m : M) (a i : Nat) : (m.raise a i).die.seams = m.die.seams := rfl
@[simp] theorem M.raise_bursts (m : M) (a i : Nat) : (m.raise a i).die.bursts = m.die.bursts := rfl
@[simp] theorem M.raise_hostWait (m : M) (a i : Nat) : (m.raise a i).die.hostWait = m.die.hostWait := rfl
@[simp] theorem M.raise_parkJobs (m : M) (a i : Nat) : (m.raise a i).die.parkJobs = m.die.parkJobs := rfl
@[simp] theorem M.raise_parked (m : M) (a i : Nat) : (m.raise a i).die.parked = m.die.parked := rfl
@[simp] theorem M.raise_fmn (m : M) (a i : Nat) : (m.raise a i).die.fmn = m.die.fmn := rfl
@[simp] theorem M.raise_ports (m : M) (a i : Nat) : (m.raise a i).die.ports = m.die.ports := rfl
@[simp] theorem M.raise_putWindows (m : M) (a i : Nat) : (m.raise a i).die.putWindows = m.die.putWindows := rfl
@[simp] theorem M.raise_earlyPuts (m : M) (a i : Nat) : (m.raise a i).die.earlyPuts = m.die.earlyPuts := rfl
@[simp] theorem M.raise_ownPuts (m : M) (a i : Nat) : (m.raise a i).die.ownPuts = m.die.ownPuts := rfl
@[simp] theorem M.raise_loopback (m : M) (a i : Nat) : (m.raise a i).die.loopback = m.die.loopback := rfl
@[simp] theorem M.raise_servo (m : M) (a i : Nat) : (m.raise a i).die.servo = m.die.servo := rfl
@[simp] theorem M.raise_barriers (m : M) (a i : Nat) : (m.raise a i).die.barriers = m.die.barriers := rfl
@[simp] theorem M.raise_wbOut (m : M) (a i : Nat) : (m.raise a i).die.wbOut = m.die.wbOut := rfl
@[simp] theorem M.raise_rseq (m : M) (a i : Nat) : (m.raise a i).die.rseq = m.die.rseq := rfl
@[simp] theorem M.raise_session (m : M) (a i : Nat) : (m.raise a i).die.session = m.die.session := rfl
@[simp] theorem M.raise_heldEvents (m : M) (a i : Nat) : (m.raise a i).die.heldEvents = m.die.heldEvents := rfl
@[simp] theorem M.raise_svc (m : M) (a i : Nat) : (m.raise a i).die.svc = m.die.svc := rfl

@[simp] theorem M.setCore_mem (m : M) (c : Nat) (k : Core) : (m.setCore c k).mem = m.mem := rfl
@[simp] theorem M.setCore_regs (m : M) (c : Nat) (k : Core) : (m.setCore c k).die.regs = m.die.regs := rfl
@[simp] theorem M.setCore_ft (m : M) (c : Nat) (k : Core) : (m.setCore c k).die.ft = m.die.ft := rfl
@[simp] theorem M.setCore_free (m : M) (c : Nat) (k : Core) : (m.setCore c k).die.free = m.die.free := rfl
@[simp] theorem M.setCore_readData (m : M) (c : Nat) (k : Core) : (m.setCore c k).die.readData = m.die.readData := rfl
@[simp] theorem M.setCore_busError (m : M) (c : Nat) (k : Core) : (m.setCore c k).die.busError = m.die.busError := rfl
@[simp] theorem M.setCore_hdf (m : M) (c : Nat) (k : Core) : (m.setCore c k).die.hdf = m.die.hdf := rfl
@[simp] theorem M.setCore_pwr (m : M) (c : Nat) (k : Core) : (m.setCore c k).die.pwr = m.die.pwr := rfl
@[simp] theorem M.setCore_sites (m : M) (c : Nat) (k : Core) : (m.setCore c k).die.sites = m.die.sites := rfl
@[simp] theorem M.setCore_beats (m : M) (c : Nat) (k : Core) : (m.setCore c k).die.beats = m.die.beats := rfl
@[simp] theorem M.setCore_beatNo (m : M) (c : Nat) (k : Core) : (m.setCore c k).die.beatNo = m.die.beatNo := rfl
@[simp] theorem M.setCore_uses (m : M) (c : Nat) (k : Core) : (m.setCore c k).die.uses = m.die.uses := rfl
@[simp] theorem M.setCore_writes (m : M) (c : Nat) (k : Core) : (m.setCore c k).die.writes = m.die.writes := rfl
@[simp] theorem M.setCore_writeNo (m : M) (c : Nat) (k : Core) : (m.setCore c k).die.writeNo = m.die.writeNo := rfl
@[simp] theorem M.setCore_fences (m : M) (c : Nat) (k : Core) : (m.setCore c k).die.fences = m.die.fences := rfl
@[simp] theorem M.setCore_step (m : M) (c : Nat) (k : Core) : (m.setCore c k).die.step = m.die.step := rfl
@[simp] theorem M.setCore_stepNumber (m : M) (c : Nat) (k : Core) : (m.setCore c k).die.stepNumber = m.die.stepNumber := rfl
@[simp] theorem M.setCore_reports (m : M) (c : Nat) (k : Core) : (m.setCore c k).die.reports = m.die.reports := rfl
@[simp] theorem M.setCore_ecc (m : M) (c : Nat) (k : Core) : (m.setCore c k).die.ecc = m.die.ecc := rfl
@[simp] theorem M.setCore_seams (m : M) (c : Nat) (k : Core) : (m.setCore c k).die.seams = m.die.seams := rfl
@[simp] theorem M.setCore_bursts (m : M) (c : Nat) (k : Core) : (m.setCore c k).die.bursts = m.die.bursts := rfl
@[simp] theorem M.setCore_hostWait (m : M) (c : Nat) (k : Core) : (m.setCore c k).die.hostWait = m.die.hostWait := rfl
@[simp] theorem M.setCore_parkJobs (m : M) (c : Nat) (k : Core) : (m.setCore c k).die.parkJobs = m.die.parkJobs := rfl
@[simp] theorem M.setCore_parked (m : M) (c : Nat) (k : Core) : (m.setCore c k).die.parked = m.die.parked := rfl
@[simp] theorem M.setCore_fmn (m : M) (c : Nat) (k : Core) : (m.setCore c k).die.fmn = m.die.fmn := rfl
@[simp] theorem M.setCore_ports (m : M) (c : Nat) (k : Core) : (m.setCore c k).die.ports = m.die.ports := rfl
@[simp] theorem M.setCore_putWindows (m : M) (c : Nat) (k : Core) : (m.setCore c k).die.putWindows = m.die.putWindows := rfl
@[simp] theorem M.setCore_earlyPuts (m : M) (c : Nat) (k : Core) : (m.setCore c k).die.earlyPuts = m.die.earlyPuts := rfl
@[simp] theorem M.setCore_ownPuts (m : M) (c : Nat) (k : Core) : (m.setCore c k).die.ownPuts = m.die.ownPuts := rfl
@[simp] theorem M.setCore_loopback (m : M) (c : Nat) (k : Core) : (m.setCore c k).die.loopback = m.die.loopback := rfl
@[simp] theorem M.setCore_servo (m : M) (c : Nat) (k : Core) : (m.setCore c k).die.servo = m.die.servo := rfl
@[simp] theorem M.setCore_barriers (m : M) (c : Nat) (k : Core) : (m.setCore c k).die.barriers = m.die.barriers := rfl
@[simp] theorem M.setCore_wbOut (m : M) (c : Nat) (k : Core) : (m.setCore c k).die.wbOut = m.die.wbOut := rfl
@[simp] theorem M.setCore_rseq (m : M) (c : Nat) (k : Core) : (m.setCore c k).die.rseq = m.die.rseq := rfl
@[simp] theorem M.setCore_session (m : M) (c : Nat) (k : Core) : (m.setCore c k).die.session = m.die.session := rfl
@[simp] theorem M.setCore_heldEvents (m : M) (c : Nat) (k : Core) : (m.setCore c k).die.heldEvents = m.die.heldEvents := rfl
@[simp] theorem M.setCore_svc (m : M) (c : Nat) (k : Core) : (m.setCore c k).die.svc = m.die.svc := rfl

@[simp] theorem M.updCore_mem (m : M) (c : Nat) (f : Core → Core) : (m.updCore c f).mem = m.mem := rfl
@[simp] theorem M.updCore_regs (m : M) (c : Nat) (f : Core → Core) : (m.updCore c f).die.regs = m.die.regs := rfl
@[simp] theorem M.updCore_ft (m : M) (c : Nat) (f : Core → Core) : (m.updCore c f).die.ft = m.die.ft := rfl
@[simp] theorem M.updCore_free (m : M) (c : Nat) (f : Core → Core) : (m.updCore c f).die.free = m.die.free := rfl
@[simp] theorem M.updCore_readData (m : M) (c : Nat) (f : Core → Core) : (m.updCore c f).die.readData = m.die.readData := rfl
@[simp] theorem M.updCore_busError (m : M) (c : Nat) (f : Core → Core) : (m.updCore c f).die.busError = m.die.busError := rfl
@[simp] theorem M.updCore_hdf (m : M) (c : Nat) (f : Core → Core) : (m.updCore c f).die.hdf = m.die.hdf := rfl
@[simp] theorem M.updCore_pwr (m : M) (c : Nat) (f : Core → Core) : (m.updCore c f).die.pwr = m.die.pwr := rfl
@[simp] theorem M.updCore_sites (m : M) (c : Nat) (f : Core → Core) : (m.updCore c f).die.sites = m.die.sites := rfl
@[simp] theorem M.updCore_beats (m : M) (c : Nat) (f : Core → Core) : (m.updCore c f).die.beats = m.die.beats := rfl
@[simp] theorem M.updCore_beatNo (m : M) (c : Nat) (f : Core → Core) : (m.updCore c f).die.beatNo = m.die.beatNo := rfl
@[simp] theorem M.updCore_uses (m : M) (c : Nat) (f : Core → Core) : (m.updCore c f).die.uses = m.die.uses := rfl
@[simp] theorem M.updCore_writes (m : M) (c : Nat) (f : Core → Core) : (m.updCore c f).die.writes = m.die.writes := rfl
@[simp] theorem M.updCore_writeNo (m : M) (c : Nat) (f : Core → Core) : (m.updCore c f).die.writeNo = m.die.writeNo := rfl
@[simp] theorem M.updCore_fences (m : M) (c : Nat) (f : Core → Core) : (m.updCore c f).die.fences = m.die.fences := rfl
@[simp] theorem M.updCore_step (m : M) (c : Nat) (f : Core → Core) : (m.updCore c f).die.step = m.die.step := rfl
@[simp] theorem M.updCore_stepNumber (m : M) (c : Nat) (f : Core → Core) : (m.updCore c f).die.stepNumber = m.die.stepNumber := rfl
@[simp] theorem M.updCore_reports (m : M) (c : Nat) (f : Core → Core) : (m.updCore c f).die.reports = m.die.reports := rfl
@[simp] theorem M.updCore_ecc (m : M) (c : Nat) (f : Core → Core) : (m.updCore c f).die.ecc = m.die.ecc := rfl
@[simp] theorem M.updCore_seams (m : M) (c : Nat) (f : Core → Core) : (m.updCore c f).die.seams = m.die.seams := rfl
@[simp] theorem M.updCore_bursts (m : M) (c : Nat) (f : Core → Core) : (m.updCore c f).die.bursts = m.die.bursts := rfl
@[simp] theorem M.updCore_hostWait (m : M) (c : Nat) (f : Core → Core) : (m.updCore c f).die.hostWait = m.die.hostWait := rfl
@[simp] theorem M.updCore_parkJobs (m : M) (c : Nat) (f : Core → Core) : (m.updCore c f).die.parkJobs = m.die.parkJobs := rfl
@[simp] theorem M.updCore_parked (m : M) (c : Nat) (f : Core → Core) : (m.updCore c f).die.parked = m.die.parked := rfl
@[simp] theorem M.updCore_fmn (m : M) (c : Nat) (f : Core → Core) : (m.updCore c f).die.fmn = m.die.fmn := rfl
@[simp] theorem M.updCore_ports (m : M) (c : Nat) (f : Core → Core) : (m.updCore c f).die.ports = m.die.ports := rfl
@[simp] theorem M.updCore_putWindows (m : M) (c : Nat) (f : Core → Core) : (m.updCore c f).die.putWindows = m.die.putWindows := rfl
@[simp] theorem M.updCore_earlyPuts (m : M) (c : Nat) (f : Core → Core) : (m.updCore c f).die.earlyPuts = m.die.earlyPuts := rfl
@[simp] theorem M.updCore_ownPuts (m : M) (c : Nat) (f : Core → Core) : (m.updCore c f).die.ownPuts = m.die.ownPuts := rfl
@[simp] theorem M.updCore_loopback (m : M) (c : Nat) (f : Core → Core) : (m.updCore c f).die.loopback = m.die.loopback := rfl
@[simp] theorem M.updCore_servo (m : M) (c : Nat) (f : Core → Core) : (m.updCore c f).die.servo = m.die.servo := rfl
@[simp] theorem M.updCore_barriers (m : M) (c : Nat) (f : Core → Core) : (m.updCore c f).die.barriers = m.die.barriers := rfl
@[simp] theorem M.updCore_wbOut (m : M) (c : Nat) (f : Core → Core) : (m.updCore c f).die.wbOut = m.die.wbOut := rfl
@[simp] theorem M.updCore_rseq (m : M) (c : Nat) (f : Core → Core) : (m.updCore c f).die.rseq = m.die.rseq := rfl
@[simp] theorem M.updCore_session (m : M) (c : Nat) (f : Core → Core) : (m.updCore c f).die.session = m.die.session := rfl
@[simp] theorem M.updCore_heldEvents (m : M) (c : Nat) (f : Core → Core) : (m.updCore c f).die.heldEvents = m.die.heldEvents := rfl
@[simp] theorem M.updCore_svc (m : M) (c : Nat) (f : Core → Core) : (m.updCore c f).die.svc = m.die.svc := rfl

@[simp] theorem M.updSite_mem (m : M) (s : Nat) (f : Site → Site) : (m.updSite s f).mem = m.mem := rfl
@[simp] theorem M.updSite_regs (m : M) (s : Nat) (f : Site → Site) : (m.updSite s f).die.regs = m.die.regs := rfl
@[simp] theorem M.updSite_ft (m : M) (s : Nat) (f : Site → Site) : (m.updSite s f).die.ft = m.die.ft := rfl
@[simp] theorem M.updSite_free (m : M) (s : Nat) (f : Site → Site) : (m.updSite s f).die.free = m.die.free := rfl
@[simp] theorem M.updSite_readData (m : M) (s : Nat) (f : Site → Site) : (m.updSite s f).die.readData = m.die.readData := rfl
@[simp] theorem M.updSite_busError (m : M) (s : Nat) (f : Site → Site) : (m.updSite s f).die.busError = m.die.busError := rfl
@[simp] theorem M.updSite_hdf (m : M) (s : Nat) (f : Site → Site) : (m.updSite s f).die.hdf = m.die.hdf := rfl
@[simp] theorem M.updSite_pwr (m : M) (s : Nat) (f : Site → Site) : (m.updSite s f).die.pwr = m.die.pwr := rfl
@[simp] theorem M.updSite_cores (m : M) (s : Nat) (f : Site → Site) : (m.updSite s f).die.cores = m.die.cores := rfl
@[simp] theorem M.updSite_beats (m : M) (s : Nat) (f : Site → Site) : (m.updSite s f).die.beats = m.die.beats := rfl
@[simp] theorem M.updSite_beatNo (m : M) (s : Nat) (f : Site → Site) : (m.updSite s f).die.beatNo = m.die.beatNo := rfl
@[simp] theorem M.updSite_uses (m : M) (s : Nat) (f : Site → Site) : (m.updSite s f).die.uses = m.die.uses := rfl
@[simp] theorem M.updSite_writes (m : M) (s : Nat) (f : Site → Site) : (m.updSite s f).die.writes = m.die.writes := rfl
@[simp] theorem M.updSite_writeNo (m : M) (s : Nat) (f : Site → Site) : (m.updSite s f).die.writeNo = m.die.writeNo := rfl
@[simp] theorem M.updSite_fences (m : M) (s : Nat) (f : Site → Site) : (m.updSite s f).die.fences = m.die.fences := rfl
@[simp] theorem M.updSite_step (m : M) (s : Nat) (f : Site → Site) : (m.updSite s f).die.step = m.die.step := rfl
@[simp] theorem M.updSite_stepNumber (m : M) (s : Nat) (f : Site → Site) : (m.updSite s f).die.stepNumber = m.die.stepNumber := rfl
@[simp] theorem M.updSite_reports (m : M) (s : Nat) (f : Site → Site) : (m.updSite s f).die.reports = m.die.reports := rfl
@[simp] theorem M.updSite_ecc (m : M) (s : Nat) (f : Site → Site) : (m.updSite s f).die.ecc = m.die.ecc := rfl
@[simp] theorem M.updSite_seams (m : M) (s : Nat) (f : Site → Site) : (m.updSite s f).die.seams = m.die.seams := rfl
@[simp] theorem M.updSite_bursts (m : M) (s : Nat) (f : Site → Site) : (m.updSite s f).die.bursts = m.die.bursts := rfl
@[simp] theorem M.updSite_hostWait (m : M) (s : Nat) (f : Site → Site) : (m.updSite s f).die.hostWait = m.die.hostWait := rfl
@[simp] theorem M.updSite_parkJobs (m : M) (s : Nat) (f : Site → Site) : (m.updSite s f).die.parkJobs = m.die.parkJobs := rfl
@[simp] theorem M.updSite_parked (m : M) (s : Nat) (f : Site → Site) : (m.updSite s f).die.parked = m.die.parked := rfl
@[simp] theorem M.updSite_fmn (m : M) (s : Nat) (f : Site → Site) : (m.updSite s f).die.fmn = m.die.fmn := rfl
@[simp] theorem M.updSite_ports (m : M) (s : Nat) (f : Site → Site) : (m.updSite s f).die.ports = m.die.ports := rfl
@[simp] theorem M.updSite_putWindows (m : M) (s : Nat) (f : Site → Site) : (m.updSite s f).die.putWindows = m.die.putWindows := rfl
@[simp] theorem M.updSite_earlyPuts (m : M) (s : Nat) (f : Site → Site) : (m.updSite s f).die.earlyPuts = m.die.earlyPuts := rfl
@[simp] theorem M.updSite_ownPuts (m : M) (s : Nat) (f : Site → Site) : (m.updSite s f).die.ownPuts = m.die.ownPuts := rfl
@[simp] theorem M.updSite_loopback (m : M) (s : Nat) (f : Site → Site) : (m.updSite s f).die.loopback = m.die.loopback := rfl
@[simp] theorem M.updSite_servo (m : M) (s : Nat) (f : Site → Site) : (m.updSite s f).die.servo = m.die.servo := rfl
@[simp] theorem M.updSite_barriers (m : M) (s : Nat) (f : Site → Site) : (m.updSite s f).die.barriers = m.die.barriers := rfl
@[simp] theorem M.updSite_wbOut (m : M) (s : Nat) (f : Site → Site) : (m.updSite s f).die.wbOut = m.die.wbOut := rfl
@[simp] theorem M.updSite_rseq (m : M) (s : Nat) (f : Site → Site) : (m.updSite s f).die.rseq = m.die.rseq := rfl
@[simp] theorem M.updSite_session (m : M) (s : Nat) (f : Site → Site) : (m.updSite s f).die.session = m.die.session := rfl
@[simp] theorem M.updSite_heldEvents (m : M) (s : Nat) (f : Site → Site) : (m.updSite s f).die.heldEvents = m.die.heldEvents := rfl
@[simp] theorem M.updSite_svc (m : M) (s : Nat) (f : Site → Site) : (m.updSite s f).die.svc = m.die.svc := rfl

@[simp] theorem M.updHdf_mem (m : M) (f : Headframe → Headframe) : (m.updHdf f).mem = m.mem := rfl
@[simp] theorem M.updHdf_regs (m : M) (f : Headframe → Headframe) : (m.updHdf f).die.regs = m.die.regs := rfl
@[simp] theorem M.updHdf_ft (m : M) (f : Headframe → Headframe) : (m.updHdf f).die.ft = m.die.ft := rfl
@[simp] theorem M.updHdf_free (m : M) (f : Headframe → Headframe) : (m.updHdf f).die.free = m.die.free := rfl
@[simp] theorem M.updHdf_readData (m : M) (f : Headframe → Headframe) : (m.updHdf f).die.readData = m.die.readData := rfl
@[simp] theorem M.updHdf_busError (m : M) (f : Headframe → Headframe) : (m.updHdf f).die.busError = m.die.busError := rfl
@[simp] theorem M.updHdf_pwr (m : M) (f : Headframe → Headframe) : (m.updHdf f).die.pwr = m.die.pwr := rfl
@[simp] theorem M.updHdf_cores (m : M) (f : Headframe → Headframe) : (m.updHdf f).die.cores = m.die.cores := rfl
@[simp] theorem M.updHdf_sites (m : M) (f : Headframe → Headframe) : (m.updHdf f).die.sites = m.die.sites := rfl
@[simp] theorem M.updHdf_beats (m : M) (f : Headframe → Headframe) : (m.updHdf f).die.beats = m.die.beats := rfl
@[simp] theorem M.updHdf_beatNo (m : M) (f : Headframe → Headframe) : (m.updHdf f).die.beatNo = m.die.beatNo := rfl
@[simp] theorem M.updHdf_uses (m : M) (f : Headframe → Headframe) : (m.updHdf f).die.uses = m.die.uses := rfl
@[simp] theorem M.updHdf_writes (m : M) (f : Headframe → Headframe) : (m.updHdf f).die.writes = m.die.writes := rfl
@[simp] theorem M.updHdf_writeNo (m : M) (f : Headframe → Headframe) : (m.updHdf f).die.writeNo = m.die.writeNo := rfl
@[simp] theorem M.updHdf_fences (m : M) (f : Headframe → Headframe) : (m.updHdf f).die.fences = m.die.fences := rfl
@[simp] theorem M.updHdf_step (m : M) (f : Headframe → Headframe) : (m.updHdf f).die.step = m.die.step := rfl
@[simp] theorem M.updHdf_stepNumber (m : M) (f : Headframe → Headframe) : (m.updHdf f).die.stepNumber = m.die.stepNumber := rfl
@[simp] theorem M.updHdf_reports (m : M) (f : Headframe → Headframe) : (m.updHdf f).die.reports = m.die.reports := rfl
@[simp] theorem M.updHdf_ecc (m : M) (f : Headframe → Headframe) : (m.updHdf f).die.ecc = m.die.ecc := rfl
@[simp] theorem M.updHdf_seams (m : M) (f : Headframe → Headframe) : (m.updHdf f).die.seams = m.die.seams := rfl
@[simp] theorem M.updHdf_bursts (m : M) (f : Headframe → Headframe) : (m.updHdf f).die.bursts = m.die.bursts := rfl
@[simp] theorem M.updHdf_hostWait (m : M) (f : Headframe → Headframe) : (m.updHdf f).die.hostWait = m.die.hostWait := rfl
@[simp] theorem M.updHdf_parkJobs (m : M) (f : Headframe → Headframe) : (m.updHdf f).die.parkJobs = m.die.parkJobs := rfl
@[simp] theorem M.updHdf_parked (m : M) (f : Headframe → Headframe) : (m.updHdf f).die.parked = m.die.parked := rfl
@[simp] theorem M.updHdf_fmn (m : M) (f : Headframe → Headframe) : (m.updHdf f).die.fmn = m.die.fmn := rfl
@[simp] theorem M.updHdf_ports (m : M) (f : Headframe → Headframe) : (m.updHdf f).die.ports = m.die.ports := rfl
@[simp] theorem M.updHdf_putWindows (m : M) (f : Headframe → Headframe) : (m.updHdf f).die.putWindows = m.die.putWindows := rfl
@[simp] theorem M.updHdf_earlyPuts (m : M) (f : Headframe → Headframe) : (m.updHdf f).die.earlyPuts = m.die.earlyPuts := rfl
@[simp] theorem M.updHdf_ownPuts (m : M) (f : Headframe → Headframe) : (m.updHdf f).die.ownPuts = m.die.ownPuts := rfl
@[simp] theorem M.updHdf_loopback (m : M) (f : Headframe → Headframe) : (m.updHdf f).die.loopback = m.die.loopback := rfl
@[simp] theorem M.updHdf_servo (m : M) (f : Headframe → Headframe) : (m.updHdf f).die.servo = m.die.servo := rfl
@[simp] theorem M.updHdf_barriers (m : M) (f : Headframe → Headframe) : (m.updHdf f).die.barriers = m.die.barriers := rfl
@[simp] theorem M.updHdf_wbOut (m : M) (f : Headframe → Headframe) : (m.updHdf f).die.wbOut = m.die.wbOut := rfl
@[simp] theorem M.updHdf_rseq (m : M) (f : Headframe → Headframe) : (m.updHdf f).die.rseq = m.die.rseq := rfl
@[simp] theorem M.updHdf_session (m : M) (f : Headframe → Headframe) : (m.updHdf f).die.session = m.die.session := rfl
@[simp] theorem M.updHdf_heldEvents (m : M) (f : Headframe → Headframe) : (m.updHdf f).die.heldEvents = m.die.heldEvents := rfl
@[simp] theorem M.updHdf_svc (m : M) (f : Headframe → Headframe) : (m.updHdf f).die.svc = m.die.svc := rfl

@[simp] theorem M.updPwr_mem (m : M) (f : Power → Power) : (m.updPwr f).mem = m.mem := rfl
@[simp] theorem M.updPwr_regs (m : M) (f : Power → Power) : (m.updPwr f).die.regs = m.die.regs := rfl
@[simp] theorem M.updPwr_ft (m : M) (f : Power → Power) : (m.updPwr f).die.ft = m.die.ft := rfl
@[simp] theorem M.updPwr_free (m : M) (f : Power → Power) : (m.updPwr f).die.free = m.die.free := rfl
@[simp] theorem M.updPwr_readData (m : M) (f : Power → Power) : (m.updPwr f).die.readData = m.die.readData := rfl
@[simp] theorem M.updPwr_busError (m : M) (f : Power → Power) : (m.updPwr f).die.busError = m.die.busError := rfl
@[simp] theorem M.updPwr_hdf (m : M) (f : Power → Power) : (m.updPwr f).die.hdf = m.die.hdf := rfl
@[simp] theorem M.updPwr_cores (m : M) (f : Power → Power) : (m.updPwr f).die.cores = m.die.cores := rfl
@[simp] theorem M.updPwr_sites (m : M) (f : Power → Power) : (m.updPwr f).die.sites = m.die.sites := rfl
@[simp] theorem M.updPwr_beats (m : M) (f : Power → Power) : (m.updPwr f).die.beats = m.die.beats := rfl
@[simp] theorem M.updPwr_beatNo (m : M) (f : Power → Power) : (m.updPwr f).die.beatNo = m.die.beatNo := rfl
@[simp] theorem M.updPwr_uses (m : M) (f : Power → Power) : (m.updPwr f).die.uses = m.die.uses := rfl
@[simp] theorem M.updPwr_writes (m : M) (f : Power → Power) : (m.updPwr f).die.writes = m.die.writes := rfl
@[simp] theorem M.updPwr_writeNo (m : M) (f : Power → Power) : (m.updPwr f).die.writeNo = m.die.writeNo := rfl
@[simp] theorem M.updPwr_fences (m : M) (f : Power → Power) : (m.updPwr f).die.fences = m.die.fences := rfl
@[simp] theorem M.updPwr_step (m : M) (f : Power → Power) : (m.updPwr f).die.step = m.die.step := rfl
@[simp] theorem M.updPwr_stepNumber (m : M) (f : Power → Power) : (m.updPwr f).die.stepNumber = m.die.stepNumber := rfl
@[simp] theorem M.updPwr_reports (m : M) (f : Power → Power) : (m.updPwr f).die.reports = m.die.reports := rfl
@[simp] theorem M.updPwr_ecc (m : M) (f : Power → Power) : (m.updPwr f).die.ecc = m.die.ecc := rfl
@[simp] theorem M.updPwr_seams (m : M) (f : Power → Power) : (m.updPwr f).die.seams = m.die.seams := rfl
@[simp] theorem M.updPwr_bursts (m : M) (f : Power → Power) : (m.updPwr f).die.bursts = m.die.bursts := rfl
@[simp] theorem M.updPwr_hostWait (m : M) (f : Power → Power) : (m.updPwr f).die.hostWait = m.die.hostWait := rfl
@[simp] theorem M.updPwr_parkJobs (m : M) (f : Power → Power) : (m.updPwr f).die.parkJobs = m.die.parkJobs := rfl
@[simp] theorem M.updPwr_parked (m : M) (f : Power → Power) : (m.updPwr f).die.parked = m.die.parked := rfl
@[simp] theorem M.updPwr_fmn (m : M) (f : Power → Power) : (m.updPwr f).die.fmn = m.die.fmn := rfl
@[simp] theorem M.updPwr_ports (m : M) (f : Power → Power) : (m.updPwr f).die.ports = m.die.ports := rfl
@[simp] theorem M.updPwr_putWindows (m : M) (f : Power → Power) : (m.updPwr f).die.putWindows = m.die.putWindows := rfl
@[simp] theorem M.updPwr_earlyPuts (m : M) (f : Power → Power) : (m.updPwr f).die.earlyPuts = m.die.earlyPuts := rfl
@[simp] theorem M.updPwr_ownPuts (m : M) (f : Power → Power) : (m.updPwr f).die.ownPuts = m.die.ownPuts := rfl
@[simp] theorem M.updPwr_loopback (m : M) (f : Power → Power) : (m.updPwr f).die.loopback = m.die.loopback := rfl
@[simp] theorem M.updPwr_servo (m : M) (f : Power → Power) : (m.updPwr f).die.servo = m.die.servo := rfl
@[simp] theorem M.updPwr_barriers (m : M) (f : Power → Power) : (m.updPwr f).die.barriers = m.die.barriers := rfl
@[simp] theorem M.updPwr_wbOut (m : M) (f : Power → Power) : (m.updPwr f).die.wbOut = m.die.wbOut := rfl
@[simp] theorem M.updPwr_rseq (m : M) (f : Power → Power) : (m.updPwr f).die.rseq = m.die.rseq := rfl
@[simp] theorem M.updPwr_session (m : M) (f : Power → Power) : (m.updPwr f).die.session = m.die.session := rfl
@[simp] theorem M.updPwr_heldEvents (m : M) (f : Power → Power) : (m.updPwr f).die.heldEvents = m.die.heldEvents := rfl
@[simp] theorem M.updPwr_svc (m : M) (f : Power → Power) : (m.updPwr f).die.svc = m.die.svc := rfl

@[simp] theorem M.updStep_mem (m : M) (f : Step → Step) : (m.updStep f).mem = m.mem := rfl
@[simp] theorem M.updStep_regs (m : M) (f : Step → Step) : (m.updStep f).die.regs = m.die.regs := rfl
@[simp] theorem M.updStep_ft (m : M) (f : Step → Step) : (m.updStep f).die.ft = m.die.ft := rfl
@[simp] theorem M.updStep_free (m : M) (f : Step → Step) : (m.updStep f).die.free = m.die.free := rfl
@[simp] theorem M.updStep_readData (m : M) (f : Step → Step) : (m.updStep f).die.readData = m.die.readData := rfl
@[simp] theorem M.updStep_busError (m : M) (f : Step → Step) : (m.updStep f).die.busError = m.die.busError := rfl
@[simp] theorem M.updStep_hdf (m : M) (f : Step → Step) : (m.updStep f).die.hdf = m.die.hdf := rfl
@[simp] theorem M.updStep_pwr (m : M) (f : Step → Step) : (m.updStep f).die.pwr = m.die.pwr := rfl
@[simp] theorem M.updStep_cores (m : M) (f : Step → Step) : (m.updStep f).die.cores = m.die.cores := rfl
@[simp] theorem M.updStep_sites (m : M) (f : Step → Step) : (m.updStep f).die.sites = m.die.sites := rfl
@[simp] theorem M.updStep_beats (m : M) (f : Step → Step) : (m.updStep f).die.beats = m.die.beats := rfl
@[simp] theorem M.updStep_beatNo (m : M) (f : Step → Step) : (m.updStep f).die.beatNo = m.die.beatNo := rfl
@[simp] theorem M.updStep_uses (m : M) (f : Step → Step) : (m.updStep f).die.uses = m.die.uses := rfl
@[simp] theorem M.updStep_writes (m : M) (f : Step → Step) : (m.updStep f).die.writes = m.die.writes := rfl
@[simp] theorem M.updStep_writeNo (m : M) (f : Step → Step) : (m.updStep f).die.writeNo = m.die.writeNo := rfl
@[simp] theorem M.updStep_fences (m : M) (f : Step → Step) : (m.updStep f).die.fences = m.die.fences := rfl
@[simp] theorem M.updStep_stepNumber (m : M) (f : Step → Step) : (m.updStep f).die.stepNumber = m.die.stepNumber := rfl
@[simp] theorem M.updStep_reports (m : M) (f : Step → Step) : (m.updStep f).die.reports = m.die.reports := rfl
@[simp] theorem M.updStep_ecc (m : M) (f : Step → Step) : (m.updStep f).die.ecc = m.die.ecc := rfl
@[simp] theorem M.updStep_seams (m : M) (f : Step → Step) : (m.updStep f).die.seams = m.die.seams := rfl
@[simp] theorem M.updStep_bursts (m : M) (f : Step → Step) : (m.updStep f).die.bursts = m.die.bursts := rfl
@[simp] theorem M.updStep_hostWait (m : M) (f : Step → Step) : (m.updStep f).die.hostWait = m.die.hostWait := rfl
@[simp] theorem M.updStep_parkJobs (m : M) (f : Step → Step) : (m.updStep f).die.parkJobs = m.die.parkJobs := rfl
@[simp] theorem M.updStep_parked (m : M) (f : Step → Step) : (m.updStep f).die.parked = m.die.parked := rfl
@[simp] theorem M.updStep_fmn (m : M) (f : Step → Step) : (m.updStep f).die.fmn = m.die.fmn := rfl
@[simp] theorem M.updStep_ports (m : M) (f : Step → Step) : (m.updStep f).die.ports = m.die.ports := rfl
@[simp] theorem M.updStep_putWindows (m : M) (f : Step → Step) : (m.updStep f).die.putWindows = m.die.putWindows := rfl
@[simp] theorem M.updStep_earlyPuts (m : M) (f : Step → Step) : (m.updStep f).die.earlyPuts = m.die.earlyPuts := rfl
@[simp] theorem M.updStep_ownPuts (m : M) (f : Step → Step) : (m.updStep f).die.ownPuts = m.die.ownPuts := rfl
@[simp] theorem M.updStep_loopback (m : M) (f : Step → Step) : (m.updStep f).die.loopback = m.die.loopback := rfl
@[simp] theorem M.updStep_servo (m : M) (f : Step → Step) : (m.updStep f).die.servo = m.die.servo := rfl
@[simp] theorem M.updStep_barriers (m : M) (f : Step → Step) : (m.updStep f).die.barriers = m.die.barriers := rfl
@[simp] theorem M.updStep_wbOut (m : M) (f : Step → Step) : (m.updStep f).die.wbOut = m.die.wbOut := rfl
@[simp] theorem M.updStep_rseq (m : M) (f : Step → Step) : (m.updStep f).die.rseq = m.die.rseq := rfl
@[simp] theorem M.updStep_session (m : M) (f : Step → Step) : (m.updStep f).die.session = m.die.session := rfl
@[simp] theorem M.updStep_heldEvents (m : M) (f : Step → Step) : (m.updStep f).die.heldEvents = m.die.heldEvents := rfl
@[simp] theorem M.updStep_svc (m : M) (f : Step → Step) : (m.updStep f).die.svc = m.die.svc := rfl

@[simp] theorem M.spend_mem (m : M) : (m.spend).mem = m.mem := rfl
@[simp] theorem M.spend_regs (m : M) : (m.spend).die.regs = m.die.regs := rfl
@[simp] theorem M.spend_ft (m : M) : (m.spend).die.ft = m.die.ft := rfl
@[simp] theorem M.spend_readData (m : M) : (m.spend).die.readData = m.die.readData := rfl
@[simp] theorem M.spend_busError (m : M) : (m.spend).die.busError = m.die.busError := rfl
@[simp] theorem M.spend_hdf (m : M) : (m.spend).die.hdf = m.die.hdf := rfl
@[simp] theorem M.spend_pwr (m : M) : (m.spend).die.pwr = m.die.pwr := rfl
@[simp] theorem M.spend_cores (m : M) : (m.spend).die.cores = m.die.cores := rfl
@[simp] theorem M.spend_sites (m : M) : (m.spend).die.sites = m.die.sites := rfl
@[simp] theorem M.spend_beats (m : M) : (m.spend).die.beats = m.die.beats := rfl
@[simp] theorem M.spend_beatNo (m : M) : (m.spend).die.beatNo = m.die.beatNo := rfl
@[simp] theorem M.spend_uses (m : M) : (m.spend).die.uses = m.die.uses := rfl
@[simp] theorem M.spend_writes (m : M) : (m.spend).die.writes = m.die.writes := rfl
@[simp] theorem M.spend_writeNo (m : M) : (m.spend).die.writeNo = m.die.writeNo := rfl
@[simp] theorem M.spend_fences (m : M) : (m.spend).die.fences = m.die.fences := rfl
@[simp] theorem M.spend_step (m : M) : (m.spend).die.step = m.die.step := rfl
@[simp] theorem M.spend_stepNumber (m : M) : (m.spend).die.stepNumber = m.die.stepNumber := rfl
@[simp] theorem M.spend_reports (m : M) : (m.spend).die.reports = m.die.reports := rfl
@[simp] theorem M.spend_ecc (m : M) : (m.spend).die.ecc = m.die.ecc := rfl
@[simp] theorem M.spend_seams (m : M) : (m.spend).die.seams = m.die.seams := rfl
@[simp] theorem M.spend_bursts (m : M) : (m.spend).die.bursts = m.die.bursts := rfl
@[simp] theorem M.spend_hostWait (m : M) : (m.spend).die.hostWait = m.die.hostWait := rfl
@[simp] theorem M.spend_parkJobs (m : M) : (m.spend).die.parkJobs = m.die.parkJobs := rfl
@[simp] theorem M.spend_parked (m : M) : (m.spend).die.parked = m.die.parked := rfl
@[simp] theorem M.spend_fmn (m : M) : (m.spend).die.fmn = m.die.fmn := rfl
@[simp] theorem M.spend_ports (m : M) : (m.spend).die.ports = m.die.ports := rfl
@[simp] theorem M.spend_putWindows (m : M) : (m.spend).die.putWindows = m.die.putWindows := rfl
@[simp] theorem M.spend_earlyPuts (m : M) : (m.spend).die.earlyPuts = m.die.earlyPuts := rfl
@[simp] theorem M.spend_ownPuts (m : M) : (m.spend).die.ownPuts = m.die.ownPuts := rfl
@[simp] theorem M.spend_loopback (m : M) : (m.spend).die.loopback = m.die.loopback := rfl
@[simp] theorem M.spend_servo (m : M) : (m.spend).die.servo = m.die.servo := rfl
@[simp] theorem M.spend_barriers (m : M) : (m.spend).die.barriers = m.die.barriers := rfl
@[simp] theorem M.spend_wbOut (m : M) : (m.spend).die.wbOut = m.die.wbOut := rfl
@[simp] theorem M.spend_rseq (m : M) : (m.spend).die.rseq = m.die.rseq := rfl
@[simp] theorem M.spend_session (m : M) : (m.spend).die.session = m.die.session := rfl
@[simp] theorem M.spend_heldEvents (m : M) : (m.spend).die.heldEvents = m.die.heldEvents := rfl
@[simp] theorem M.spend_svc (m : M) : (m.spend).die.svc = m.die.svc := rfl

@[simp] theorem M.reach_mem (m : M) (t : Nat) : (m.reach t).mem = m.mem := rfl
@[simp] theorem M.reach_regs (m : M) (t : Nat) : (m.reach t).die.regs = m.die.regs := rfl
@[simp] theorem M.reach_free (m : M) (t : Nat) : (m.reach t).die.free = m.die.free := rfl
@[simp] theorem M.reach_readData (m : M) (t : Nat) : (m.reach t).die.readData = m.die.readData := rfl
@[simp] theorem M.reach_busError (m : M) (t : Nat) : (m.reach t).die.busError = m.die.busError := rfl
@[simp] theorem M.reach_hdf (m : M) (t : Nat) : (m.reach t).die.hdf = m.die.hdf := rfl
@[simp] theorem M.reach_pwr (m : M) (t : Nat) : (m.reach t).die.pwr = m.die.pwr := rfl
@[simp] theorem M.reach_cores (m : M) (t : Nat) : (m.reach t).die.cores = m.die.cores := rfl
@[simp] theorem M.reach_sites (m : M) (t : Nat) : (m.reach t).die.sites = m.die.sites := rfl
@[simp] theorem M.reach_beats (m : M) (t : Nat) : (m.reach t).die.beats = m.die.beats := rfl
@[simp] theorem M.reach_beatNo (m : M) (t : Nat) : (m.reach t).die.beatNo = m.die.beatNo := rfl
@[simp] theorem M.reach_uses (m : M) (t : Nat) : (m.reach t).die.uses = m.die.uses := rfl
@[simp] theorem M.reach_writes (m : M) (t : Nat) : (m.reach t).die.writes = m.die.writes := rfl
@[simp] theorem M.reach_writeNo (m : M) (t : Nat) : (m.reach t).die.writeNo = m.die.writeNo := rfl
@[simp] theorem M.reach_fences (m : M) (t : Nat) : (m.reach t).die.fences = m.die.fences := rfl
@[simp] theorem M.reach_step (m : M) (t : Nat) : (m.reach t).die.step = m.die.step := rfl
@[simp] theorem M.reach_stepNumber (m : M) (t : Nat) : (m.reach t).die.stepNumber = m.die.stepNumber := rfl
@[simp] theorem M.reach_reports (m : M) (t : Nat) : (m.reach t).die.reports = m.die.reports := rfl
@[simp] theorem M.reach_ecc (m : M) (t : Nat) : (m.reach t).die.ecc = m.die.ecc := rfl
@[simp] theorem M.reach_seams (m : M) (t : Nat) : (m.reach t).die.seams = m.die.seams := rfl
@[simp] theorem M.reach_bursts (m : M) (t : Nat) : (m.reach t).die.bursts = m.die.bursts := rfl
@[simp] theorem M.reach_hostWait (m : M) (t : Nat) : (m.reach t).die.hostWait = m.die.hostWait := rfl
@[simp] theorem M.reach_parkJobs (m : M) (t : Nat) : (m.reach t).die.parkJobs = m.die.parkJobs := rfl
@[simp] theorem M.reach_parked (m : M) (t : Nat) : (m.reach t).die.parked = m.die.parked := rfl
@[simp] theorem M.reach_fmn (m : M) (t : Nat) : (m.reach t).die.fmn = m.die.fmn := rfl
@[simp] theorem M.reach_ports (m : M) (t : Nat) : (m.reach t).die.ports = m.die.ports := rfl
@[simp] theorem M.reach_putWindows (m : M) (t : Nat) : (m.reach t).die.putWindows = m.die.putWindows := rfl
@[simp] theorem M.reach_earlyPuts (m : M) (t : Nat) : (m.reach t).die.earlyPuts = m.die.earlyPuts := rfl
@[simp] theorem M.reach_ownPuts (m : M) (t : Nat) : (m.reach t).die.ownPuts = m.die.ownPuts := rfl
@[simp] theorem M.reach_loopback (m : M) (t : Nat) : (m.reach t).die.loopback = m.die.loopback := rfl
@[simp] theorem M.reach_servo (m : M) (t : Nat) : (m.reach t).die.servo = m.die.servo := rfl
@[simp] theorem M.reach_barriers (m : M) (t : Nat) : (m.reach t).die.barriers = m.die.barriers := rfl
@[simp] theorem M.reach_wbOut (m : M) (t : Nat) : (m.reach t).die.wbOut = m.die.wbOut := rfl
@[simp] theorem M.reach_rseq (m : M) (t : Nat) : (m.reach t).die.rseq = m.die.rseq := rfl
@[simp] theorem M.reach_session (m : M) (t : Nat) : (m.reach t).die.session = m.die.session := rfl
@[simp] theorem M.reach_heldEvents (m : M) (t : Nat) : (m.reach t).die.heldEvents = m.die.heldEvents := rfl
@[simp] theorem M.reach_svc (m : M) (t : Nat) : (m.reach t).die.svc = m.die.svc := rfl

@[simp] theorem M.write_die (m : M) (a : Nat) (bs : Bytes) : (m.write a bs).die = m.die := rfl

@[simp] theorem M.writeN_die (m : M) (a n v : Nat) : (m.writeN a n v).die = m.die := rfl

@[simp] theorem M.clearMem_die (m : M) (a n : Nat) : (m.clearMem a n).die = m.die := rfl

/-! ## What an update makes of the field it writes -/

@[simp] theorem M.updHdf_hdf (m : M) (f : Headframe → Headframe) : (m.updHdf f).die.hdf = f m.die.hdf := rfl
@[simp] theorem M.updPwr_pwr (m : M) (f : Power → Power) : (m.updPwr f).die.pwr = f m.die.pwr := rfl
@[simp] theorem M.updStep_step (m : M) (f : Step → Step) : (m.updStep f).die.step = m.die.step.map f := rfl
@[simp] theorem M.spend_free (m : M) : m.spend.die.free = m.die.free + 1 := rfl
@[simp] theorem M.reach_ft (m : M) (t : Nat) : (m.reach t).die.ft = max m.die.ft t := rfl
@[simp] theorem M.write_mem (m : M) (a : Nat) (bs : Bytes) : (m.write a bs).mem = m.mem.write a bs := rfl
@[simp] theorem M.writeN_mem (m : M) (a n v : Nat) : (m.writeN a n v).mem = m.mem.write a (toBytes n v) := rfl
@[simp] theorem M.clearMem_mem (m : M) (a n : Nat) : (m.clearMem a n).mem = m.mem.clear a n := rfl

@[simp] theorem M.core_setCore_same (m : M) (c : Nat) (k : Core) : (m.setCore c k).core c = k := by
  simp [M.core, M.setCore]

theorem M.core_setCore_ne (m : M) (c d : Nat) (k : Core) (h : d ≠ c) : (m.setCore c k).core d = m.core d := by
  simp [M.core, M.setCore, mapGetD_mapSet_ne _ _ _ _ _ h]

@[simp] theorem M.core_updCore_same (m : M) (c : Nat) (f : Core → Core) : (m.updCore c f).core c = f (m.core c) :=
  M.core_setCore_same m c _

theorem M.core_updCore_ne (m : M) (c d : Nat) (f : Core → Core) (h : d ≠ c) : (m.updCore c f).core d = m.core d :=
  M.core_setCore_ne m c d _ h

@[simp] theorem M.site_updSite_same (m : M) (s : Nat) (f : Site → Site) : (m.updSite s f).site s = f (m.site s) := by
  simp [M.site, M.updSite]

theorem M.site_updSite_ne (m : M) (s t : Nat) (f : Site → Site) (h : t ≠ s) : (m.updSite s f).site t = m.site t := by
  simp [M.site, M.updSite, mapGetD_mapSet_ne _ _ _ _ _ h]

/-! ## Registers -/

/-- Two states with the same registers read the same. -/
theorem M.reg_congr {m n : M} (h : m.die.regs = n.die.regs) (a : Nat) : m.reg a = n.reg a := by
  simp [M.reg, h]
theorem M.fld_congr {m n : M} (h : m.die.regs = n.die.regs) (a hi lo : Nat) : m.fld a hi lo = n.fld a hi lo := by
  simp [M.fld, M.reg_congr h]
theorem M.flag_congr {m n : M} (h : m.die.regs = n.die.regs) (a i : Nat) : m.flag a i = n.flag a i := by
  simp [M.flag, M.reg_congr h]

@[simp] theorem M.reg_setReg_same (m : M) (a : Nat) (w : Word) : (m.setReg a w).reg a = w := by
  simp [M.reg, M.setReg]

theorem M.reg_setReg_ne (m : M) (a b : Nat) (w : Word) (h : b ≠ a) : (m.setReg a w).reg b = m.reg b := by
  simp [M.reg, M.setReg, mapGetD_mapSet_ne _ _ _ _ _ h]

theorem M.reg_setReg (m : M) (a b : Nat) (w : Word) : (m.setReg a w).reg b = if b = a then w else m.reg b := by
  split
  · rename_i h; rw [h, M.reg_setReg_same]
  · rename_i h; exact M.reg_setReg_ne m a b w h

theorem M.reg_setFld (m : M) (a hi lo v b : Nat) :
    (m.setFld a hi lo v).reg b = if b = a then Machine.setFld (m.reg a) hi lo v else m.reg b := M.reg_setReg _ _ _ _

theorem M.reg_countBy (m : M) (a k b : Nat) :
    (m.countBy a k).reg b = if b = a then satAdd (m.reg a) k else m.reg b := by
  unfold M.countBy
  split
  · rename_i h
    subst h
    split
    · rename_i h; subst h
      apply BitVec.eq_of_toNat_eq
      rw [satAdd_toNat]
      have := (m.reg b).isLt
      simp [counterMax]; omega
    · rfl
  · exact M.reg_setReg _ _ _ _

theorem M.reg_count (m : M) (a b : Nat) : (m.count a).reg b = if b = a then satAdd (m.reg a) 1 else m.reg b :=
  M.reg_countBy m a 1 b

theorem M.reg_raise (m : M) (a i b : Nat) :
    (m.raise a i).reg b = if b = a then Machine.setFld (m.reg a) i i 1 else m.reg b := M.reg_setFld _ _ _ _ _ _

theorem M.fld_setFld_same (m : M) (a hi lo v : Nat) (h : hi < 64) (hl : lo ≤ hi) :
    (m.setFld a hi lo v).fld a hi lo = v % 2 ^ (hi + 1 - lo) := by
  simp [M.fld, M.reg_setFld, Machine.fld_setFld_same _ _ _ _ h hl]

theorem M.fld_setFld_ne (m : M) (a hi lo v b hi' lo' : Nat) (h : b ≠ a) :
    (m.setFld a hi lo v).fld b hi' lo' = m.fld b hi' lo' := by
  simp [M.fld, M.reg_setFld, h]

@[simp] theorem M.reg_setCore (m : M) (c : Nat) (k : Core) (b : Nat) : (m.setCore c k).reg b = m.reg b := rfl
@[simp] theorem M.reg_updCore (m : M) (c : Nat) (f : Core → Core) (b : Nat) : (m.updCore c f).reg b = m.reg b := rfl
@[simp] theorem M.reg_updSite (m : M) (s : Nat) (f : Site → Site) (b : Nat) : (m.updSite s f).reg b = m.reg b := rfl
@[simp] theorem M.reg_updHdf (m : M) (f : Headframe → Headframe) (b : Nat) : (m.updHdf f).reg b = m.reg b := rfl
@[simp] theorem M.reg_updPwr (m : M) (f : Power → Power) (b : Nat) : (m.updPwr f).reg b = m.reg b := rfl
@[simp] theorem M.reg_updStep (m : M) (f : Step → Step) (b : Nat) : (m.updStep f).reg b = m.reg b := rfl
@[simp] theorem M.reg_spend (m : M) (b : Nat) : (m.spend).reg b = m.reg b := rfl
@[simp] theorem M.reg_reach (m : M) (t : Nat) (b : Nat) : (m.reach t).reg b = m.reg b := rfl
@[simp] theorem M.reg_write (m : M) (a : Nat) (bs : Bytes) (b : Nat) : (m.write a bs).reg b = m.reg b := rfl
@[simp] theorem M.reg_writeN (m : M) (a n v : Nat) (b : Nat) : (m.writeN a n v).reg b = m.reg b := rfl
@[simp] theorem M.reg_clearMem (m : M) (a n : Nat) (b : Nat) : (m.clearMem a n).reg b = m.reg b := rfl

@[simp] theorem M.fld_setCore (m : M) (c : Nat) (k : Core) (b h l : Nat) : (m.setCore c k).fld b h l = m.fld b h l := rfl
@[simp] theorem M.flag_setCore (m : M) (c : Nat) (k : Core) (b i : Nat) : (m.setCore c k).flag b i = m.flag b i := rfl
@[simp] theorem M.fld_updCore (m : M) (c : Nat) (f : Core → Core) (b h l : Nat) : (m.updCore c f).fld b h l = m.fld b h l := rfl
@[simp] theorem M.flag_updCore (m : M) (c : Nat) (f : Core → Core) (b i : Nat) : (m.updCore c f).flag b i = m.flag b i := rfl
@[simp] theorem M.fld_updSite (m : M) (s : Nat) (f : Site → Site) (b h l : Nat) : (m.updSite s f).fld b h l = m.fld b h l := rfl
@[simp] theorem M.flag_updSite (m : M) (s : Nat) (f : Site → Site) (b i : Nat) : (m.updSite s f).flag b i = m.flag b i := rfl
@[simp] theorem M.fld_updHdf (m : M) (f : Headframe → Headframe) (b h l : Nat) : (m.updHdf f).fld b h l = m.fld b h l := rfl
@[simp] theorem M.flag_updHdf (m : M) (f : Headframe → Headframe) (b i : Nat) : (m.updHdf f).flag b i = m.flag b i := rfl
@[simp] theorem M.fld_updPwr (m : M) (f : Power → Power) (b h l : Nat) : (m.updPwr f).fld b h l = m.fld b h l := rfl
@[simp] theorem M.flag_updPwr (m : M) (f : Power → Power) (b i : Nat) : (m.updPwr f).flag b i = m.flag b i := rfl
@[simp] theorem M.fld_updStep (m : M) (f : Step → Step) (b h l : Nat) : (m.updStep f).fld b h l = m.fld b h l := rfl
@[simp] theorem M.flag_updStep (m : M) (f : Step → Step) (b i : Nat) : (m.updStep f).flag b i = m.flag b i := rfl
@[simp] theorem M.fld_spend (m : M) (b h l : Nat) : (m.spend).fld b h l = m.fld b h l := rfl
@[simp] theorem M.flag_spend (m : M) (b i : Nat) : (m.spend).flag b i = m.flag b i := rfl
@[simp] theorem M.fld_reach (m : M) (t : Nat) (b h l : Nat) : (m.reach t).fld b h l = m.fld b h l := rfl
@[simp] theorem M.flag_reach (m : M) (t : Nat) (b i : Nat) : (m.reach t).flag b i = m.flag b i := rfl
@[simp] theorem M.fld_write (m : M) (a : Nat) (bs : Bytes) (b h l : Nat) : (m.write a bs).fld b h l = m.fld b h l := rfl
@[simp] theorem M.flag_write (m : M) (a : Nat) (bs : Bytes) (b i : Nat) : (m.write a bs).flag b i = m.flag b i := rfl
@[simp] theorem M.fld_writeN (m : M) (a n v : Nat) (b h l : Nat) : (m.writeN a n v).fld b h l = m.fld b h l := rfl
@[simp] theorem M.flag_writeN (m : M) (a n v : Nat) (b i : Nat) : (m.writeN a n v).flag b i = m.flag b i := rfl
@[simp] theorem M.fld_clearMem (m : M) (a n : Nat) (b h l : Nat) : (m.clearMem a n).fld b h l = m.fld b h l := rfl
@[simp] theorem M.flag_clearMem (m : M) (a n : Nat) (b i : Nat) : (m.clearMem a n).flag b i = m.flag b i := rfl

end Sys2Proof.Machine
end

