-- ==== Sys2Proof/Laws/Memory.lean ====
section
/-! SUPPORT. The byte memory: every operation keeps the canonical form, a read gives what was written there, and a write
leaves every other byte alone. -/
namespace Sys2Proof.Machine

/-! ## One byte -/

theorem cellGet_filter (l : List Host.Cell) (p : Nat → Bool) (x : Nat) :
    cellGet (l.filter fun c => p c.1) x = if p x then cellGet l x else unlisted := by
  unfold cellGet
  have h : (l.filter fun c : Host.Cell => p c.1).lookup x = if p x then l.lookup x else none := lookup_filter l p x
  rw [h]; split <;> simp

theorem cellGet_append (l r : List Host.Cell) (x : Nat) (h : l.lookup x = none) : cellGet (l ++ r) x = cellGet r x := by
  unfold cellGet
  have := lookup_append l r x
  simp [h] at this
  rw [this]

theorem cellGet_append_none (l r : List Host.Cell) (x : Nat) (h : r.lookup x = none) : cellGet (l ++ r) x = cellGet l x := by
  unfold cellGet
  have := lookup_append l r x
  simp [h] at this
  rw [this]

theorem lookup_none_of_keys (l : List Host.Cell) (x : Nat) (h : ∀ c ∈ l, c.1 ≠ x) : l.lookup x = none := by
  induction l with
  | nil => rfl
  | cons c l ih =>
    obtain ⟨a, v⟩ := c
    have hx : (x == a) = false := by
      have := h (a, v) (by simp)
      simp only [beq_eq_false_iff_ne]; exact fun e => this e.symm
    rw [List.lookup_cons, hx]
    exact ih fun c hc => h c (by simp [hc])

theorem cellGet_cellsOf (a : Nat) (bs : Bytes) (x : Nat) :
    cellGet (cellsOf a bs) x = if a ≤ x ∧ x < a + bs.length then bs.getD (x - a) 0 else 0 := by
  induction bs generalizing a with
  | nil => simp [cellsOf, cellGet, unlisted]
  | cons b bs ih =>
    by_cases hx : x = a
    · subst hx
      have hn : (cellsOf (x + 1) bs).lookup x = none :=
        lookup_none_of_keys _ _ fun c hc => by have := cellsOf_ge (x + 1) bs c hc; omega
      unfold cellsOf
      split
      · rename_i hb
        simp [cellGet, hn, hb, unlisted]
      · simp [cellGet]
    · have hs : cellGet (cellsOf a (b :: bs)) x = cellGet (cellsOf (a + 1) bs) x := by
        rw [cellsOf]
        split
        · rfl
        · have hb : (x == a) = false := by simpa using hx
          simp [cellGet, List.lookup_cons, hb]
      rw [hs, ih]
      by_cases h1 : a ≤ x ∧ x < a + (bs.length + 1)
      · have h2 : a + 1 ≤ x ∧ x < a + 1 + bs.length := by omega
        have h3 : x - a = (x - (a + 1)) + 1 := by omega
        simp only [List.length_cons]
        rw [if_pos h2, if_pos h1, h3]
        simp
      · have h2 : ¬ (a + 1 ≤ x ∧ x < a + 1 + bs.length) := by omega
        simp only [List.length_cons]
        rw [if_neg h2, if_neg h1]

/-- What a byte reads as after a byte string was written. -/
theorem cellGet_cellsSet (l : List Host.Cell) (a : Nat) (bs : Bytes) (x : Nat) :
    cellGet (cellsSet l a bs) x = if a ≤ x ∧ x < a + bs.length then bs.getD (x - a) 0 else cellGet l x := by
  have f1 := cellGet_filter l (fun k => decide (k < a)) x
  have f2 := cellGet_filter l (fun k => decide (a + bs.length ≤ k)) x
  have l1 := lookup_filter l (fun k : Nat => decide (k < a)) x
  have l2 := lookup_filter l (fun k : Nat => decide (a + bs.length ≤ k)) x
  have lm : ¬ (a ≤ x ∧ x < a + bs.length) → (cellsOf a bs).lookup x = none := fun h =>
    lookup_none_of_keys _ _ fun c hc => by have := cellsOf_ge a bs c hc; omega
  unfold cellsSet
  rcases Nat.lt_or_ge x a with h | h
  · have hr : ((l.filter fun c => decide (a + bs.length ≤ c.1)) : List Host.Cell).lookup x = none := by
      rw [l2]; simp; omega
    have hc : ¬ (a ≤ x ∧ x < a + bs.length) := by omega
    rw [cellGet_append_none _ _ _ hr, cellGet_append_none _ _ _ (lm hc), f1, if_neg hc]; simp [h]
  · have hl : ((l.filter fun c => decide (c.1 < a)) : List Host.Cell).lookup x = none := by
      rw [l1]; simp; omega
    rw [List.append_assoc, cellGet_append _ _ _ hl]
    rcases Nat.lt_or_ge x (a + bs.length) with h2 | h2
    · have hr : ((l.filter fun c => decide (a + bs.length ≤ c.1)) : List Host.Cell).lookup x = none := by
        rw [l2]; simp; omega
      have hc : a ≤ x ∧ x < a + bs.length := ⟨h, h2⟩
      rw [cellGet_append_none _ _ _ hr, cellGet_cellsOf, if_pos hc, if_pos hc]
    · have hc : ¬ (a ≤ x ∧ x < a + bs.length) := by omega
      rw [cellGet_append _ _ _ (lm hc), f2, if_neg hc]; simp [h2]

theorem cellGet_cellsClear (l : List Host.Cell) (a n x : Nat) :
    cellGet (cellsClear l a n) x = if a ≤ x ∧ x < a + n then 0 else cellGet l x := by
  have f1 := cellGet_filter l (fun k => decide (k < a)) x
  have f2 := cellGet_filter l (fun k => decide (a + n ≤ k)) x
  have l1 := lookup_filter l (fun k : Nat => decide (k < a)) x
  have l2 := lookup_filter l (fun k : Nat => decide (a + n ≤ k)) x
  unfold cellsClear
  rcases Nat.lt_or_ge x a with h | h
  · have hr : ((l.filter fun c => decide (a + n ≤ c.1)) : List Host.Cell).lookup x = none := by
      rw [l2]; simp; omega
    have hc : ¬ (a ≤ x ∧ x < a + n) := by omega
    rw [cellGet_append_none _ _ _ hr, f1, if_neg hc]; simp [h]
  · have hl : ((l.filter fun c => decide (c.1 < a)) : List Host.Cell).lookup x = none := by
      rw [l1]; simp; omega
    rw [cellGet_append _ _ _ hl, f2]
    by_cases h2 : x < a + n
    · have hc : a ≤ x ∧ x < a + n := ⟨h, h2⟩
      rw [if_pos hc]; simp [show ¬ a + n ≤ x by omega, unlisted]
    · have hc : ¬ (a ≤ x ∧ x < a + n) := by omega
      rw [if_neg hc]; simp [show a + n ≤ x by omega]

/-! ## The working memory -/

/-- One byte of the working memory. -/
def CMem.byte (m : CMem) (x : Nat) : Byte := cellGet m.cells x

theorem CMem.byte_write (m : CMem) (a : Nat) (bs : Bytes) (x : Nat) :
    (m.write a bs).byte x = if a ≤ x ∧ x < a + bs.length then bs.getD (x - a) 0 else m.byte x :=
  cellGet_cellsSet _ _ _ _

theorem CMem.byte_clear (m : CMem) (a n x : Nat) :
    (m.clear a n).byte x = if a ≤ x ∧ x < a + n then 0 else m.byte x := cellGet_cellsClear _ _ _ _

theorem CMem.read_eq (m : CMem) (a n : Nat) : m.read a n = (List.range n).map fun i => m.byte (a + i) := by
  unfold CMem.read CMem.byte
  apply List.map_congr_left
  intro i hi
  have hi := List.mem_range.mp hi
  have h := cellGet_filter m.cells (fun k => decide (a ≤ k) && decide (k < a + n)) (a + i)
  rw [h]; simp; omega

@[simp] theorem CMem.read_length (m : CMem) (a n : Nat) : (m.read a n).length = n := by simp [CMem.read_eq]

/-- A read of the bytes just written gives them. -/
theorem CMem.read_write_same (m : CMem) (a : Nat) (bs : Bytes) : (m.write a bs).read a bs.length = bs := by
  apply List.ext_getElem
  · simp
  · intro i h1 h2
    simp [CMem.read_eq, CMem.byte_write, h2]

/-- A read apart from the bytes written gives what it gave before. -/
theorem CMem.read_write_other (m : CMem) (a : Nat) (bs : Bytes) (b n : Nat) (h : b + n ≤ a ∨ a + bs.length ≤ b) :
    (m.write a bs).read b n = m.read b n := by
  simp only [CMem.read_eq, CMem.byte_write]
  apply List.map_congr_left
  intro i hi
  have hi := List.mem_range.mp hi
  rw [if_neg (by omega)]

/-- Every working memory is in canonical form. -/
theorem CMem.wf (m : CMem) : Memory.wf m.cells = true := m.ok

/-- A list in canonical form stands for itself. -/
theorem CMem.ofList_cells (l : List Host.Cell) (h : Memory.wf l = true) : (CMem.ofList l).cells = l := by
  simp [CMem.ofList, h]

@[simp] theorem CMem.ofList_self (m : CMem) : CMem.ofList m.cells = m := by
  cases m with | mk c ok => simp [CMem.ofList, ok]

theorem memory_wf_nil : Memory.wf [] = true := by decide

end Sys2Proof.Machine
end

