-- ==== Sys2Proof/Laws/Lift.lean ====
section
/-! SUPPORT. What the four ways to lift a command's effect can do: each answers a next state, and says what of the state it
leaves as it was. -/
namespace Sys2Proof

open Machine

@[simp] theorem view_die (s : State) : (view s).die = s.die := rfl

@[simp] theorem view_put (s : State) (m : M) : view (put s m) = m := by simp [view, put]

@[simp] theorem put_die (s : State) (m : M) : (put s m).die = m.die := rfl
@[simp] theorem put_mem (s : State) (m : M) : (put s m).mem = m.mem.cells := rfl
@[simp] theorem put_wb (s : State) (m : M) : (put s m).wb = s.wb := rfl
@[simp] theorem put_pending (s : State) (m : M) : (put s m).pending = s.pending := rfl

theorem view_mem (s : State) (h : Memory.wf s.mem = true) : (view s).mem.cells = s.mem := CMem.ofList_cells _ h

theorem put_view (s : State) (h : Memory.wf s.mem = true) : put s (view s) = s := by
  simp [put, view, CMem.ofList_cells _ h]

theorem onDie_eq (f : M → M) (s : State) : onDie f s = .next (put s (f (view s))) := rfl

theorem onLive_eq (f : M → M) (s : State) (h : s.die.live = true) : onLive f s = .next (put s (f (view s))) := by
  simp [onLive, onDie_eq, h]

theorem onManaged_eq (f : M → M) (s : State) (h : s.die.managed = true) :
    onManaged f s = .next (put s (f (view s))) := by
  simp [onManaged, onDie_eq, h]

/-- A die that does not run takes no command (R6). -/
theorem onLive_dead (f : M → M) (s : State) (h : s.die.live = false) (hw : Memory.wf s.mem = true) :
    onLive f s = .next s := by
  simp [onLive, onDie_eq, h, put_view s hw]

theorem onManaged_dead (f : M → M) (s : State) (h : s.die.managed = false) (hw : Memory.wf s.mem = true) :
    onManaged f s = .next s := by
  simp [onManaged, onDie_eq, h, put_view s hw]

/-- Whatever a die command answers: a next state with the queue and the Weighbridge as they were, its memory in canonical
form. -/
theorem onDie_spec (f : M → M) (s t : State) (h : onDie f s = .next t) :
    t.pending = s.pending ∧ t.wb = s.wb ∧ Memory.wf t.mem = true := by
  rw [onDie_eq] at h
  injection h with h
  subst h
  exact ⟨rfl, rfl, CMem.wf _⟩

theorem onLive_spec (f : M → M) (s t : State) (h : onLive f s = .next t) :
    t.pending = s.pending ∧ t.wb = s.wb ∧ Memory.wf t.mem = true := onDie_spec _ s t h

theorem onManaged_spec (f : M → M) (s t : State) (h : onManaged f s = .next t) :
    t.pending = s.pending ∧ t.wb = s.wb ∧ Memory.wf t.mem = true := onDie_spec _ s t h

/-- Whatever a Weighbridge command answers: the rest of the state is as it was (R600). -/
theorem onWb_spec (f : Weighbridge → Weighbridge) (s t : State) (h : onWb f s = .next t) :
    t.pending = s.pending ∧ t.die = s.die ∧ t.mem = s.mem ∧ t.wb = f s.wb := by
  injection h with h
  subst h
  exact ⟨rfl, rfl, rfl, rfl⟩

end Sys2Proof
end

