-- ==== Sys2Proof/Laws/Log.lean ====
section
/-! SUPPORT. The lemmas of the flash queue and the event log: a record appended touches Headframe's state and the log's
registers, nothing else. -/
namespace Sys2Proof.Machine

@[simp] theorem M.writeLog_mem (m : M) (v s c : Nat) (d : Bytes) (t b : Nat) (u : Bool) : (m.writeLog v s c d t b u).mem = m.mem := by simp only [M.writeLog]; split <;> simp
@[simp] theorem M.writeLog_ft (m : M) (v s c : Nat) (d : Bytes) (t b : Nat) (u : Bool) : (m.writeLog v s c d t b u).die.ft = m.die.ft := by simp only [M.writeLog]; split <;> simp
@[simp] theorem M.writeLog_writes (m : M) (v s c : Nat) (d : Bytes) (t b : Nat) (u : Bool) : (m.writeLog v s c d t b u).die.writes = m.die.writes := by simp only [M.writeLog]; split <;> simp
@[simp] theorem M.writeLog_writeNo (m : M) (v s c : Nat) (d : Bytes) (t b : Nat) (u : Bool) : (m.writeLog v s c d t b u).die.writeNo = m.die.writeNo := by simp only [M.writeLog]; split <;> simp
@[simp] theorem M.writeLog_free (m : M) (v s c : Nat) (d : Bytes) (t b : Nat) (u : Bool) : (m.writeLog v s c d t b u).die.free = m.die.free := by simp only [M.writeLog]; split <;> simp
@[simp] theorem M.writeLog_readData (m : M) (v s c : Nat) (d : Bytes) (t b : Nat) (u : Bool) : (m.writeLog v s c d t b u).die.readData = m.die.readData := by simp only [M.writeLog]; split <;> simp
@[simp] theorem M.writeLog_busError (m : M) (v s c : Nat) (d : Bytes) (t b : Nat) (u : Bool) : (m.writeLog v s c d t b u).die.busError = m.die.busError := by simp only [M.writeLog]; split <;> simp
@[simp] theorem M.writeLog_pwr (m : M) (v s c : Nat) (d : Bytes) (t b : Nat) (u : Bool) : (m.writeLog v s c d t b u).die.pwr = m.die.pwr := by simp only [M.writeLog]; split <;> simp
@[simp] theorem M.writeLog_cores (m : M) (v s c : Nat) (d : Bytes) (t b : Nat) (u : Bool) : (m.writeLog v s c d t b u).die.cores = m.die.cores := by simp only [M.writeLog]; split <;> simp
@[simp] theorem M.writeLog_sites (m : M) (v s c : Nat) (d : Bytes) (t b : Nat) (u : Bool) : (m.writeLog v s c d t b u).die.sites = m.die.sites := by simp only [M.writeLog]; split <;> simp
@[simp] theorem M.writeLog_beats (m : M) (v s c : Nat) (d : Bytes) (t b : Nat) (u : Bool) : (m.writeLog v s c d t b u).die.beats = m.die.beats := by simp only [M.writeLog]; split <;> simp
@[simp] theorem M.writeLog_beatNo (m : M) (v s c : Nat) (d : Bytes) (t b : Nat) (u : Bool) : (m.writeLog v s c d t b u).die.beatNo = m.die.beatNo := by simp only [M.writeLog]; split <;> simp
@[simp] theorem M.writeLog_fences (m : M) (v s c : Nat) (d : Bytes) (t b : Nat) (u : Bool) : (m.writeLog v s c d t b u).die.fences = m.die.fences := by simp only [M.writeLog]; split <;> simp
@[simp] theorem M.writeLog_step (m : M) (v s c : Nat) (d : Bytes) (t b : Nat) (u : Bool) : (m.writeLog v s c d t b u).die.step = m.die.step := by simp only [M.writeLog]; split <;> simp
@[simp] theorem M.writeLog_stepNumber (m : M) (v s c : Nat) (d : Bytes) (t b : Nat) (u : Bool) : (m.writeLog v s c d t b u).die.stepNumber = m.die.stepNumber := by simp only [M.writeLog]; split <;> simp
@[simp] theorem M.writeLog_reports (m : M) (v s c : Nat) (d : Bytes) (t b : Nat) (u : Bool) : (m.writeLog v s c d t b u).die.reports = m.die.reports := by simp only [M.writeLog]; split <;> simp
@[simp] theorem M.writeLog_ecc (m : M) (v s c : Nat) (d : Bytes) (t b : Nat) (u : Bool) : (m.writeLog v s c d t b u).die.ecc = m.die.ecc := by simp only [M.writeLog]; split <;> simp
@[simp] theorem M.writeLog_seams (m : M) (v s c : Nat) (d : Bytes) (t b : Nat) (u : Bool) : (m.writeLog v s c d t b u).die.seams = m.die.seams := by simp only [M.writeLog]; split <;> simp
@[simp] theorem M.writeLog_bursts (m : M) (v s c : Nat) (d : Bytes) (t b : Nat) (u : Bool) : (m.writeLog v s c d t b u).die.bursts = m.die.bursts := by simp only [M.writeLog]; split <;> simp
@[simp] theorem M.writeLog_parkJobs (m : M) (v s c : Nat) (d : Bytes) (t b : Nat) (u : Bool) : (m.writeLog v s c d t b u).die.parkJobs = m.die.parkJobs := by simp only [M.writeLog]; split <;> simp
@[simp] theorem M.writeLog_parked (m : M) (v s c : Nat) (d : Bytes) (t b : Nat) (u : Bool) : (m.writeLog v s c d t b u).die.parked = m.die.parked := by simp only [M.writeLog]; split <;> simp
@[simp] theorem M.writeLog_fmn (m : M) (v s c : Nat) (d : Bytes) (t b : Nat) (u : Bool) : (m.writeLog v s c d t b u).die.fmn = m.die.fmn := by simp only [M.writeLog]; split <;> simp
@[simp] theorem M.writeLog_ports (m : M) (v s c : Nat) (d : Bytes) (t b : Nat) (u : Bool) : (m.writeLog v s c d t b u).die.ports = m.die.ports := by simp only [M.writeLog]; split <;> simp
@[simp] theorem M.writeLog_putWindows (m : M) (v s c : Nat) (d : Bytes) (t b : Nat) (u : Bool) : (m.writeLog v s c d t b u).die.putWindows = m.die.putWindows := by simp only [M.writeLog]; split <;> simp
@[simp] theorem M.writeLog_earlyPuts (m : M) (v s c : Nat) (d : Bytes) (t b : Nat) (u : Bool) : (m.writeLog v s c d t b u).die.earlyPuts = m.die.earlyPuts := by simp only [M.writeLog]; split <;> simp
@[simp] theorem M.writeLog_ownPuts (m : M) (v s c : Nat) (d : Bytes) (t b : Nat) (u : Bool) : (m.writeLog v s c d t b u).die.ownPuts = m.die.ownPuts := by simp only [M.writeLog]; split <;> simp
@[simp] theorem M.writeLog_loopback (m : M) (v s c : Nat) (d : Bytes) (t b : Nat) (u : Bool) : (m.writeLog v s c d t b u).die.loopback = m.die.loopback := by simp only [M.writeLog]; split <;> simp
@[simp] theorem M.writeLog_servo (m : M) (v s c : Nat) (d : Bytes) (t b : Nat) (u : Bool) : (m.writeLog v s c d t b u).die.servo = m.die.servo := by simp only [M.writeLog]; split <;> simp
@[simp] theorem M.writeLog_barriers (m : M) (v s c : Nat) (d : Bytes) (t b : Nat) (u : Bool) : (m.writeLog v s c d t b u).die.barriers = m.die.barriers := by simp only [M.writeLog]; split <;> simp
@[simp] theorem M.writeLog_wbOut (m : M) (v s c : Nat) (d : Bytes) (t b : Nat) (u : Bool) : (m.writeLog v s c d t b u).die.wbOut = m.die.wbOut := by simp only [M.writeLog]; split <;> simp
@[simp] theorem M.writeLog_rseq (m : M) (v s c : Nat) (d : Bytes) (t b : Nat) (u : Bool) : (m.writeLog v s c d t b u).die.rseq = m.die.rseq := by simp only [M.writeLog]; split <;> simp
@[simp] theorem M.writeLog_session (m : M) (v s c : Nat) (d : Bytes) (t b : Nat) (u : Bool) : (m.writeLog v s c d t b u).die.session = m.die.session := by simp only [M.writeLog]; split <;> simp
@[simp] theorem M.writeLog_heldEvents (m : M) (v s c : Nat) (d : Bytes) (t b : Nat) (u : Bool) : (m.writeLog v s c d t b u).die.heldEvents = m.die.heldEvents := by simp only [M.writeLog]; split <;> simp
@[simp] theorem M.writeLog_svc (m : M) (v s c : Nat) (d : Bytes) (t b : Nat) (u : Bool) : (m.writeLog v s c d t b u).die.svc = m.die.svc := by simp only [M.writeLog]; split <;> simp

@[simp] theorem M.serveFlash_mem (m : M) (r : FlashRequest) : (m.serveFlash r).mem = m.mem := by cases r <;> simp [M.serveFlash]
@[simp] theorem M.serveFlash_ft (m : M) (r : FlashRequest) : (m.serveFlash r).die.ft = m.die.ft := by cases r <;> simp [M.serveFlash]
@[simp] theorem M.serveFlash_writes (m : M) (r : FlashRequest) : (m.serveFlash r).die.writes = m.die.writes := by cases r <;> simp [M.serveFlash]
@[simp] theorem M.serveFlash_writeNo (m : M) (r : FlashRequest) : (m.serveFlash r).die.writeNo = m.die.writeNo := by cases r <;> simp [M.serveFlash]
@[simp] theorem M.serveFlash_free (m : M) (r : FlashRequest) : (m.serveFlash r).die.free = m.die.free := by cases r <;> simp [M.serveFlash]
@[simp] theorem M.serveFlash_readData (m : M) (r : FlashRequest) : (m.serveFlash r).die.readData = m.die.readData := by cases r <;> simp [M.serveFlash]
@[simp] theorem M.serveFlash_busError (m : M) (r : FlashRequest) : (m.serveFlash r).die.busError = m.die.busError := by cases r <;> simp [M.serveFlash]
@[simp] theorem M.serveFlash_pwr (m : M) (r : FlashRequest) : (m.serveFlash r).die.pwr = m.die.pwr := by cases r <;> simp [M.serveFlash]
@[simp] theorem M.serveFlash_cores (m : M) (r : FlashRequest) : (m.serveFlash r).die.cores = m.die.cores := by cases r <;> simp [M.serveFlash]
@[simp] theorem M.serveFlash_sites (m : M) (r : FlashRequest) : (m.serveFlash r).die.sites = m.die.sites := by cases r <;> simp [M.serveFlash]
@[simp] theorem M.serveFlash_beats (m : M) (r : FlashRequest) : (m.serveFlash r).die.beats = m.die.beats := by cases r <;> simp [M.serveFlash]
@[simp] theorem M.serveFlash_beatNo (m : M) (r : FlashRequest) : (m.serveFlash r).die.beatNo = m.die.beatNo := by cases r <;> simp [M.serveFlash]
@[simp] theorem M.serveFlash_fences (m : M) (r : FlashRequest) : (m.serveFlash r).die.fences = m.die.fences := by cases r <;> simp [M.serveFlash]
@[simp] theorem M.serveFlash_step (m : M) (r : FlashRequest) : (m.serveFlash r).die.step = m.die.step := by cases r <;> simp [M.serveFlash]
@[simp] theorem M.serveFlash_stepNumber (m : M) (r : FlashRequest) : (m.serveFlash r).die.stepNumber = m.die.stepNumber := by cases r <;> simp [M.serveFlash]
@[simp] theorem M.serveFlash_reports (m : M) (r : FlashRequest) : (m.serveFlash r).die.reports = m.die.reports := by cases r <;> simp [M.serveFlash]
@[simp] theorem M.serveFlash_ecc (m : M) (r : FlashRequest) : (m.serveFlash r).die.ecc = m.die.ecc := by cases r <;> simp [M.serveFlash]
@[simp] theorem M.serveFlash_seams (m : M) (r : FlashRequest) : (m.serveFlash r).die.seams = m.die.seams := by cases r <;> simp [M.serveFlash]
@[simp] theorem M.serveFlash_bursts (m : M) (r : FlashRequest) : (m.serveFlash r).die.bursts = m.die.bursts := by cases r <;> simp [M.serveFlash]
@[simp] theorem M.serveFlash_parkJobs (m : M) (r : FlashRequest) : (m.serveFlash r).die.parkJobs = m.die.parkJobs := by cases r <;> simp [M.serveFlash]
@[simp] theorem M.serveFlash_parked (m : M) (r : FlashRequest) : (m.serveFlash r).die.parked = m.die.parked := by cases r <;> simp [M.serveFlash]
@[simp] theorem M.serveFlash_fmn (m : M) (r : FlashRequest) : (m.serveFlash r).die.fmn = m.die.fmn := by cases r <;> simp [M.serveFlash]
@[simp] theorem M.serveFlash_ports (m : M) (r : FlashRequest) : (m.serveFlash r).die.ports = m.die.ports := by cases r <;> simp [M.serveFlash]
@[simp] theorem M.serveFlash_putWindows (m : M) (r : FlashRequest) : (m.serveFlash r).die.putWindows = m.die.putWindows := by cases r <;> simp [M.serveFlash]
@[simp] theorem M.serveFlash_earlyPuts (m : M) (r : FlashRequest) : (m.serveFlash r).die.earlyPuts = m.die.earlyPuts := by cases r <;> simp [M.serveFlash]
@[simp] theorem M.serveFlash_ownPuts (m : M) (r : FlashRequest) : (m.serveFlash r).die.ownPuts = m.die.ownPuts := by cases r <;> simp [M.serveFlash]
@[simp] theorem M.serveFlash_loopback (m : M) (r : FlashRequest) : (m.serveFlash r).die.loopback = m.die.loopback := by cases r <;> simp [M.serveFlash]
@[simp] theorem M.serveFlash_servo (m : M) (r : FlashRequest) : (m.serveFlash r).die.servo = m.die.servo := by cases r <;> simp [M.serveFlash]
@[simp] theorem M.serveFlash_barriers (m : M) (r : FlashRequest) : (m.serveFlash r).die.barriers = m.die.barriers := by cases r <;> simp [M.serveFlash]
@[simp] theorem M.serveFlash_wbOut (m : M) (r : FlashRequest) : (m.serveFlash r).die.wbOut = m.die.wbOut := by cases r <;> simp [M.serveFlash]
@[simp] theorem M.serveFlash_rseq (m : M) (r : FlashRequest) : (m.serveFlash r).die.rseq = m.die.rseq := by cases r <;> simp [M.serveFlash]
@[simp] theorem M.serveFlash_session (m : M) (r : FlashRequest) : (m.serveFlash r).die.session = m.die.session := by cases r <;> simp [M.serveFlash]
@[simp] theorem M.serveFlash_heldEvents (m : M) (r : FlashRequest) : (m.serveFlash r).die.heldEvents = m.die.heldEvents := by cases r <;> simp [M.serveFlash]
@[simp] theorem M.serveFlash_svc (m : M) (r : FlashRequest) : (m.serveFlash r).die.svc = m.die.svc := by cases r <;> simp [M.serveFlash]

@[simp] theorem M.flash_mem (m : M) (r : FlashRequest) : (m.flash r).mem = m.mem := by simp only [M.flash]; split <;> (try split) <;> (try split) <;> simp
@[simp] theorem M.flash_ft (m : M) (r : FlashRequest) : (m.flash r).die.ft = m.die.ft := by simp only [M.flash]; split <;> (try split) <;> (try split) <;> simp
@[simp] theorem M.flash_writes (m : M) (r : FlashRequest) : (m.flash r).die.writes = m.die.writes := by simp only [M.flash]; split <;> (try split) <;> (try split) <;> simp
@[simp] theorem M.flash_writeNo (m : M) (r : FlashRequest) : (m.flash r).die.writeNo = m.die.writeNo := by simp only [M.flash]; split <;> (try split) <;> (try split) <;> simp
@[simp] theorem M.flash_free (m : M) (r : FlashRequest) : (m.flash r).die.free = m.die.free := by simp only [M.flash]; split <;> (try split) <;> (try split) <;> simp
@[simp] theorem M.flash_readData (m : M) (r : FlashRequest) : (m.flash r).die.readData = m.die.readData := by simp only [M.flash]; split <;> (try split) <;> (try split) <;> simp
@[simp] theorem M.flash_busError (m : M) (r : FlashRequest) : (m.flash r).die.busError = m.die.busError := by simp only [M.flash]; split <;> (try split) <;> (try split) <;> simp
@[simp] theorem M.flash_pwr (m : M) (r : FlashRequest) : (m.flash r).die.pwr = m.die.pwr := by simp only [M.flash]; split <;> (try split) <;> (try split) <;> simp
@[simp] theorem M.flash_cores (m : M) (r : FlashRequest) : (m.flash r).die.cores = m.die.cores := by simp only [M.flash]; split <;> (try split) <;> (try split) <;> simp
@[simp] theorem M.flash_sites (m : M) (r : FlashRequest) : (m.flash r).die.sites = m.die.sites := by simp only [M.flash]; split <;> (try split) <;> (try split) <;> simp
@[simp] theorem M.flash_beats (m : M) (r : FlashRequest) : (m.flash r).die.beats = m.die.beats := by simp only [M.flash]; split <;> (try split) <;> (try split) <;> simp
@[simp] theorem M.flash_beatNo (m : M) (r : FlashRequest) : (m.flash r).die.beatNo = m.die.beatNo := by simp only [M.flash]; split <;> (try split) <;> (try split) <;> simp
@[simp] theorem M.flash_fences (m : M) (r : FlashRequest) : (m.flash r).die.fences = m.die.fences := by simp only [M.flash]; split <;> (try split) <;> (try split) <;> simp
@[simp] theorem M.flash_step (m : M) (r : FlashRequest) : (m.flash r).die.step = m.die.step := by simp only [M.flash]; split <;> (try split) <;> (try split) <;> simp
@[simp] theorem M.flash_stepNumber (m : M) (r : FlashRequest) : (m.flash r).die.stepNumber = m.die.stepNumber := by simp only [M.flash]; split <;> (try split) <;> (try split) <;> simp
@[simp] theorem M.flash_reports (m : M) (r : FlashRequest) : (m.flash r).die.reports = m.die.reports := by simp only [M.flash]; split <;> (try split) <;> (try split) <;> simp
@[simp] theorem M.flash_ecc (m : M) (r : FlashRequest) : (m.flash r).die.ecc = m.die.ecc := by simp only [M.flash]; split <;> (try split) <;> (try split) <;> simp
@[simp] theorem M.flash_seams (m : M) (r : FlashRequest) : (m.flash r).die.seams = m.die.seams := by simp only [M.flash]; split <;> (try split) <;> (try split) <;> simp
@[simp] theorem M.flash_bursts (m : M) (r : FlashRequest) : (m.flash r).die.bursts = m.die.bursts := by simp only [M.flash]; split <;> (try split) <;> (try split) <;> simp
@[simp] theorem M.flash_parkJobs (m : M) (r : FlashRequest) : (m.flash r).die.parkJobs = m.die.parkJobs := by simp only [M.flash]; split <;> (try split) <;> (try split) <;> simp
@[simp] theorem M.flash_parked (m : M) (r : FlashRequest) : (m.flash r).die.parked = m.die.parked := by simp only [M.flash]; split <;> (try split) <;> (try split) <;> simp
@[simp] theorem M.flash_fmn (m : M) (r : FlashRequest) : (m.flash r).die.fmn = m.die.fmn := by simp only [M.flash]; split <;> (try split) <;> (try split) <;> simp
@[simp] theorem M.flash_ports (m : M) (r : FlashRequest) : (m.flash r).die.ports = m.die.ports := by simp only [M.flash]; split <;> (try split) <;> (try split) <;> simp
@[simp] theorem M.flash_putWindows (m : M) (r : FlashRequest) : (m.flash r).die.putWindows = m.die.putWindows := by simp only [M.flash]; split <;> (try split) <;> (try split) <;> simp
@[simp] theorem M.flash_earlyPuts (m : M) (r : FlashRequest) : (m.flash r).die.earlyPuts = m.die.earlyPuts := by simp only [M.flash]; split <;> (try split) <;> (try split) <;> simp
@[simp] theorem M.flash_ownPuts (m : M) (r : FlashRequest) : (m.flash r).die.ownPuts = m.die.ownPuts := by simp only [M.flash]; split <;> (try split) <;> (try split) <;> simp
@[simp] theorem M.flash_loopback (m : M) (r : FlashRequest) : (m.flash r).die.loopback = m.die.loopback := by simp only [M.flash]; split <;> (try split) <;> (try split) <;> simp
@[simp] theorem M.flash_servo (m : M) (r : FlashRequest) : (m.flash r).die.servo = m.die.servo := by simp only [M.flash]; split <;> (try split) <;> (try split) <;> simp
@[simp] theorem M.flash_barriers (m : M) (r : FlashRequest) : (m.flash r).die.barriers = m.die.barriers := by simp only [M.flash]; split <;> (try split) <;> (try split) <;> simp
@[simp] theorem M.flash_wbOut (m : M) (r : FlashRequest) : (m.flash r).die.wbOut = m.die.wbOut := by simp only [M.flash]; split <;> (try split) <;> (try split) <;> simp
@[simp] theorem M.flash_rseq (m : M) (r : FlashRequest) : (m.flash r).die.rseq = m.die.rseq := by simp only [M.flash]; split <;> (try split) <;> (try split) <;> simp
@[simp] theorem M.flash_session (m : M) (r : FlashRequest) : (m.flash r).die.session = m.die.session := by simp only [M.flash]; split <;> (try split) <;> (try split) <;> simp
@[simp] theorem M.flash_heldEvents (m : M) (r : FlashRequest) : (m.flash r).die.heldEvents = m.die.heldEvents := by simp only [M.flash]; split <;> (try split) <;> (try split) <;> simp
@[simp] theorem M.flash_svc (m : M) (r : FlashRequest) : (m.flash r).die.svc = m.die.svc := by simp only [M.flash]; split <;> (try split) <;> (try split) <;> simp

@[simp] theorem M.appendLog_mem (m : M) (v s c : Nat) (d : Bytes) : (m.appendLog v s c d).mem = m.mem := by simp [M.appendLog]
@[simp] theorem M.appendLog_ft (m : M) (v s c : Nat) (d : Bytes) : (m.appendLog v s c d).die.ft = m.die.ft := by simp [M.appendLog]
@[simp] theorem M.appendLog_writes (m : M) (v s c : Nat) (d : Bytes) : (m.appendLog v s c d).die.writes = m.die.writes := by simp [M.appendLog]
@[simp] theorem M.appendLog_writeNo (m : M) (v s c : Nat) (d : Bytes) : (m.appendLog v s c d).die.writeNo = m.die.writeNo := by simp [M.appendLog]
@[simp] theorem M.appendLog_free (m : M) (v s c : Nat) (d : Bytes) : (m.appendLog v s c d).die.free = m.die.free := by simp [M.appendLog]
@[simp] theorem M.appendLog_readData (m : M) (v s c : Nat) (d : Bytes) : (m.appendLog v s c d).die.readData = m.die.readData := by simp [M.appendLog]
@[simp] theorem M.appendLog_busError (m : M) (v s c : Nat) (d : Bytes) : (m.appendLog v s c d).die.busError = m.die.busError := by simp [M.appendLog]
@[simp] theorem M.appendLog_pwr (m : M) (v s c : Nat) (d : Bytes) : (m.appendLog v s c d).die.pwr = m.die.pwr := by simp [M.appendLog]
@[simp] theorem M.appendLog_cores (m : M) (v s c : Nat) (d : Bytes) : (m.appendLog v s c d).die.cores = m.die.cores := by simp [M.appendLog]
@[simp] theorem M.appendLog_sites (m : M) (v s c : Nat) (d : Bytes) : (m.appendLog v s c d).die.sites = m.die.sites := by simp [M.appendLog]
@[simp] theorem M.appendLog_beats (m : M) (v s c : Nat) (d : Bytes) : (m.appendLog v s c d).die.beats = m.die.beats := by simp [M.appendLog]
@[simp] theorem M.appendLog_beatNo (m : M) (v s c : Nat) (d : Bytes) : (m.appendLog v s c d).die.beatNo = m.die.beatNo := by simp [M.appendLog]
@[simp] theorem M.appendLog_fences (m : M) (v s c : Nat) (d : Bytes) : (m.appendLog v s c d).die.fences = m.die.fences := by simp [M.appendLog]
@[simp] theorem M.appendLog_step (m : M) (v s c : Nat) (d : Bytes) : (m.appendLog v s c d).die.step = m.die.step := by simp [M.appendLog]
@[simp] theorem M.appendLog_stepNumber (m : M) (v s c : Nat) (d : Bytes) : (m.appendLog v s c d).die.stepNumber = m.die.stepNumber := by simp [M.appendLog]
@[simp] theorem M.appendLog_reports (m : M) (v s c : Nat) (d : Bytes) : (m.appendLog v s c d).die.reports = m.die.reports := by simp [M.appendLog]
@[simp] theorem M.appendLog_ecc (m : M) (v s c : Nat) (d : Bytes) : (m.appendLog v s c d).die.ecc = m.die.ecc := by simp [M.appendLog]
@[simp] theorem M.appendLog_seams (m : M) (v s c : Nat) (d : Bytes) : (m.appendLog v s c d).die.seams = m.die.seams := by simp [M.appendLog]
@[simp] theorem M.appendLog_bursts (m : M) (v s c : Nat) (d : Bytes) : (m.appendLog v s c d).die.bursts = m.die.bursts := by simp [M.appendLog]
@[simp] theorem M.appendLog_parkJobs (m : M) (v s c : Nat) (d : Bytes) : (m.appendLog v s c d).die.parkJobs = m.die.parkJobs := by simp [M.appendLog]
@[simp] theorem M.appendLog_parked (m : M) (v s c : Nat) (d : Bytes) : (m.appendLog v s c d).die.parked = m.die.parked := by simp [M.appendLog]
@[simp] theorem M.appendLog_fmn (m : M) (v s c : Nat) (d : Bytes) : (m.appendLog v s c d).die.fmn = m.die.fmn := by simp [M.appendLog]
@[simp] theorem M.appendLog_ports (m : M) (v s c : Nat) (d : Bytes) : (m.appendLog v s c d).die.ports = m.die.ports := by simp [M.appendLog]
@[simp] theorem M.appendLog_putWindows (m : M) (v s c : Nat) (d : Bytes) : (m.appendLog v s c d).die.putWindows = m.die.putWindows := by simp [M.appendLog]
@[simp] theorem M.appendLog_earlyPuts (m : M) (v s c : Nat) (d : Bytes) : (m.appendLog v s c d).die.earlyPuts = m.die.earlyPuts := by simp [M.appendLog]
@[simp] theorem M.appendLog_ownPuts (m : M) (v s c : Nat) (d : Bytes) : (m.appendLog v s c d).die.ownPuts = m.die.ownPuts := by simp [M.appendLog]
@[simp] theorem M.appendLog_loopback (m : M) (v s c : Nat) (d : Bytes) : (m.appendLog v s c d).die.loopback = m.die.loopback := by simp [M.appendLog]
@[simp] theorem M.appendLog_servo (m : M) (v s c : Nat) (d : Bytes) : (m.appendLog v s c d).die.servo = m.die.servo := by simp [M.appendLog]
@[simp] theorem M.appendLog_barriers (m : M) (v s c : Nat) (d : Bytes) : (m.appendLog v s c d).die.barriers = m.die.barriers := by simp [M.appendLog]
@[simp] theorem M.appendLog_wbOut (m : M) (v s c : Nat) (d : Bytes) : (m.appendLog v s c d).die.wbOut = m.die.wbOut := by simp [M.appendLog]
@[simp] theorem M.appendLog_rseq (m : M) (v s c : Nat) (d : Bytes) : (m.appendLog v s c d).die.rseq = m.die.rseq := by simp [M.appendLog]
@[simp] theorem M.appendLog_session (m : M) (v s c : Nat) (d : Bytes) : (m.appendLog v s c d).die.session = m.die.session := by simp [M.appendLog]
@[simp] theorem M.appendLog_heldEvents (m : M) (v s c : Nat) (d : Bytes) : (m.appendLog v s c d).die.heldEvents = m.die.heldEvents := by simp [M.appendLog]
@[simp] theorem M.appendLog_svc (m : M) (v s c : Nat) (d : Bytes) : (m.appendLog v s c d).die.svc = m.die.svc := by simp [M.appendLog]

@[simp] theorem M.logEvent_mem (m : M) (e : Nat) : (m.logEvent e).mem = m.mem := by simp [M.logEvent]
@[simp] theorem M.logEvent_ft (m : M) (e : Nat) : (m.logEvent e).die.ft = m.die.ft := by simp [M.logEvent]
@[simp] theorem M.logEvent_writes (m : M) (e : Nat) : (m.logEvent e).die.writes = m.die.writes := by simp [M.logEvent]
@[simp] theorem M.logEvent_writeNo (m : M) (e : Nat) : (m.logEvent e).die.writeNo = m.die.writeNo := by simp [M.logEvent]
@[simp] theorem M.logEvent_free (m : M) (e : Nat) : (m.logEvent e).die.free = m.die.free := by simp [M.logEvent]
@[simp] theorem M.logEvent_readData (m : M) (e : Nat) : (m.logEvent e).die.readData = m.die.readData := by simp [M.logEvent]
@[simp] theorem M.logEvent_busError (m : M) (e : Nat) : (m.logEvent e).die.busError = m.die.busError := by simp [M.logEvent]
@[simp] theorem M.logEvent_pwr (m : M) (e : Nat) : (m.logEvent e).die.pwr = m.die.pwr := by simp [M.logEvent]
@[simp] theorem M.logEvent_cores (m : M) (e : Nat) : (m.logEvent e).die.cores = m.die.cores := by simp [M.logEvent]
@[simp] theorem M.logEvent_sites (m : M) (e : Nat) : (m.logEvent e).die.sites = m.die.sites := by simp [M.logEvent]
@[simp] theorem M.logEvent_beats (m : M) (e : Nat) : (m.logEvent e).die.beats = m.die.beats := by simp [M.logEvent]
@[simp] theorem M.logEvent_beatNo (m : M) (e : Nat) : (m.logEvent e).die.beatNo = m.die.beatNo := by simp [M.logEvent]
@[simp] theorem M.logEvent_fences (m : M) (e : Nat) : (m.logEvent e).die.fences = m.die.fences := by simp [M.logEvent]
@[simp] theorem M.logEvent_step (m : M) (e : Nat) : (m.logEvent e).die.step = m.die.step := by simp [M.logEvent]
@[simp] theorem M.logEvent_stepNumber (m : M) (e : Nat) : (m.logEvent e).die.stepNumber = m.die.stepNumber := by simp [M.logEvent]
@[simp] theorem M.logEvent_reports (m : M) (e : Nat) : (m.logEvent e).die.reports = m.die.reports := by simp [M.logEvent]
@[simp] theorem M.logEvent_ecc (m : M) (e : Nat) : (m.logEvent e).die.ecc = m.die.ecc := by simp [M.logEvent]
@[simp] theorem M.logEvent_seams (m : M) (e : Nat) : (m.logEvent e).die.seams = m.die.seams := by simp [M.logEvent]
@[simp] theorem M.logEvent_bursts (m : M) (e : Nat) : (m.logEvent e).die.bursts = m.die.bursts := by simp [M.logEvent]
@[simp] theorem M.logEvent_parkJobs (m : M) (e : Nat) : (m.logEvent e).die.parkJobs = m.die.parkJobs := by simp [M.logEvent]
@[simp] theorem M.logEvent_parked (m : M) (e : Nat) : (m.logEvent e).die.parked = m.die.parked := by simp [M.logEvent]
@[simp] theorem M.logEvent_fmn (m : M) (e : Nat) : (m.logEvent e).die.fmn = m.die.fmn := by simp [M.logEvent]
@[simp] theorem M.logEvent_ports (m : M) (e : Nat) : (m.logEvent e).die.ports = m.die.ports := by simp [M.logEvent]
@[simp] theorem M.logEvent_putWindows (m : M) (e : Nat) : (m.logEvent e).die.putWindows = m.die.putWindows := by simp [M.logEvent]
@[simp] theorem M.logEvent_earlyPuts (m : M) (e : Nat) : (m.logEvent e).die.earlyPuts = m.die.earlyPuts := by simp [M.logEvent]
@[simp] theorem M.logEvent_ownPuts (m : M) (e : Nat) : (m.logEvent e).die.ownPuts = m.die.ownPuts := by simp [M.logEvent]
@[simp] theorem M.logEvent_loopback (m : M) (e : Nat) : (m.logEvent e).die.loopback = m.die.loopback := by simp [M.logEvent]
@[simp] theorem M.logEvent_servo (m : M) (e : Nat) : (m.logEvent e).die.servo = m.die.servo := by simp [M.logEvent]
@[simp] theorem M.logEvent_barriers (m : M) (e : Nat) : (m.logEvent e).die.barriers = m.die.barriers := by simp [M.logEvent]
@[simp] theorem M.logEvent_wbOut (m : M) (e : Nat) : (m.logEvent e).die.wbOut = m.die.wbOut := by simp [M.logEvent]
@[simp] theorem M.logEvent_rseq (m : M) (e : Nat) : (m.logEvent e).die.rseq = m.die.rseq := by simp [M.logEvent]
@[simp] theorem M.logEvent_session (m : M) (e : Nat) : (m.logEvent e).die.session = m.die.session := by simp [M.logEvent]
@[simp] theorem M.logEvent_heldEvents (m : M) (e : Nat) : (m.logEvent e).die.heldEvents = m.die.heldEvents := by simp [M.logEvent]
@[simp] theorem M.logEvent_svc (m : M) (e : Nat) : (m.logEvent e).die.svc = m.die.svc := by simp [M.logEvent]

theorem M.writeLog_reg (m : M) (v s c : Nat) (d : Bytes) (t b : Nat) (u : Bool) (a : Nat) (h : a ∉ logRegs) :
    (m.writeLog v s c d t b u).reg a = m.reg a := by
  simp only [logRegs, List.mem_cons, List.not_mem_nil, or_false, not_or] at h
  simp only [M.writeLog]
  split <;> simp [M.reg_setReg, M.reg_count, h]

theorem M.appendLog_reg (m : M) (v s c : Nat) (d : Bytes) (a : Nat) (h : a ∉ logRegs) :
    (m.appendLog v s c d).reg a = m.reg a := by
  have h' := h
  simp only [logRegs, List.mem_cons, List.not_mem_nil, or_false, not_or] at h'
  simp only [M.appendLog, M.flash]
  split
  · simp [M.serveFlash, M.writeLog_reg _ _ _ _ _ _ _ _ _ h]
  · split
    · simp [M.reg_count, h']
    · simp [flashRank]

theorem M.logEvent_reg (m : M) (e a : Nat) (h : a ∉ logRegs) : (m.logEvent e).reg a = m.reg a := M.appendLog_reg _ _ _ _ _ _ h

theorem M.appendLog_fld (m : M) (v s c : Nat) (d : Bytes) (a hi lo : Nat) (h : a ∉ logRegs) :
    (m.appendLog v s c d).fld a hi lo = m.fld a hi lo := by simp [M.fld, M.appendLog_reg _ _ _ _ _ _ h]

theorem M.logEvent_fld (m : M) (e a hi lo : Nat) (h : a ∉ logRegs) : (m.logEvent e).fld a hi lo = m.fld a hi lo := by
  simp [M.fld, M.logEvent_reg _ _ _ h]

theorem M.logEvent_flag (m : M) (e a i : Nat) (h : a ∉ logRegs) : (m.logEvent e).flag a i = m.flag a i := by
  simp [M.flag, M.logEvent_reg _ _ _ h]

end Sys2Proof.Machine
end

