-- ==== Sys2Proof/Laws/Registers.lean ====
section
/-! SUPPORT. Fields and bits of a register after it was written. -/
namespace Sys2Proof.Machine

theorem M.flag_setFld (m : M) (a hi lo v b i : Nat) (hl : lo ≤ hi) (hi' : i < 64) :
    (m.setFld a hi lo v).flag b i =
      if b = a then (if lo ≤ i ∧ i ≤ hi then v.testBit (i - lo) else m.flag a i) else m.flag b i := by
  unfold M.flag
  rw [M.reg_setFld]
  split
  · rw [BitVec.testBit_toNat, BitVec.testBit_toNat, setFld_getLsbD _ _ _ _ _ hl hi']
  · rfl

theorem M.fld_setFld (m : M) (a hi lo v b hi' lo' : Nat) (h : hi < 64) (hl : lo ≤ hi) (h' : hi' < 64)
    (hs : (hi' = hi ∧ lo' = lo) ∨ hi' < lo ∨ hi < lo') :
    (m.setFld a hi lo v).fld b hi' lo' =
      if b = a then (if lo' = lo ∧ hi' = hi then v % 2 ^ (hi + 1 - lo) else m.fld a hi' lo') else m.fld b hi' lo' := by
  by_cases hb : b = a
  · subst hb
    rw [if_pos rfl]
    split
    · rename_i e; obtain ⟨rfl, rfl⟩ := e; exact M.fld_setFld_same m b _ _ v h hl
    · rename_i e
      have hd : hi' < lo ∨ hi < lo' := by
        rcases hs with hs | hs
        · exact absurd ⟨hs.2, hs.1⟩ e
        · exact hs
      simp [M.fld, M.reg_setFld, Machine.fld_setFld_other _ _ _ _ _ _ hl h' hd]
  · rw [if_neg hb]; exact M.fld_setFld_ne m a hi lo v b hi' lo' hb

@[simp] theorem M.fld_count_ne (m : M) (a b hi lo : Nat) (h : b ≠ a) : (m.count a).fld b hi lo = m.fld b hi lo := by
  simp [M.fld, M.reg_count, h]

@[simp] theorem M.flag_count_ne (m : M) (a b i : Nat) (h : b ≠ a) : (m.count a).flag b i = m.flag b i := by
  simp [M.flag, M.reg_count, h]

theorem M.regN_count (m : M) (a : Nat) : (m.count a).regN a = min (m.regN a + 1) counterMax := by
  simp [M.regN, M.reg_count, satAdd_toNat]

theorem M.regN_countBy (m : M) (a k : Nat) : (m.countBy a k).regN a = min (m.regN a + k) counterMax := by
  simp [M.regN, M.reg_countBy, satAdd_toNat]

end Sys2Proof.Machine
end

