-- ==== Sys2Proof/WellFormed.lean ====
section
/-! DEFINITION. The operand ranges of the commands, as the rules that name the operands give them. -/
namespace Sys2Proof

/-- A command whose operands lie in their ranges. -/
def Instr.wellFormed (i : Instr) : Bool :=
  match i with
  | .registerWrite _ addr width _ => decide (addr < 0x1000000000000) && decide (width < 16)
  | .counterReadClear addr => decide (addr < 0x1000000000000)
  | .controlSpaceMisalignedAccess addr width _ => decide (addr < 0x1000000000000) && decide (width < 65)
  | .pwrGoodRise slotId => decide (slotId < 16)
  | .pwrGoodFall => true
  | .input50vApplied => true
  | .input50vLoss => true
  | .inputUndervoltage => true
  | .inputUndervoltageClear => true
  | .inputShutdown => true
  | .railTrip rail => decide (rail < 32)
  | .thermalTrip => true
  | .refclkPresent => true
  | .pllLockJudgment pll _ _ => decide (pll < 25)
  | .regionPllFailed pll => decide (pll < 25)
  | .refLoss => true
  | .refOk => true
  | .refmuxSwitch sel => decide (sel < 4)
  | .refmuxSwitchComplete => true
  | .refmuxForce sel => decide (sel < 4)
  | .pllRelockComplete => true
  | .droopFire region _ => decide (region < 15)
  | .lagTokenMirror region => decide (region < 8)
  | .droopWindow region => decide (region < 8)
  | .thermalCheck => true
  | .emergencyHoldEnd => true
  | .powerCapCheck => true
  | .frequencyStepChange _ => true
  | .opticalEngineOn port _ => decide (port < 16)
  | .sensorSample sensor _ => decide (sensor < 800)
  | .romBoot => true
  | .recoveryImageReceive _ => true
  | .firmwareUpdate _ => true
  | .trialPromote => true
  | .commitSvn => true
  | .attest _ => true
  | .logAppend severity source code _ => decide (severity < 4) && decide (source < 11) && decide (code < 0x10000)
  | .flashOperationComplete _ => true
  | .redfishRequest _ => true
  | .sidebandRequest address _ => decide (address < 128)
  | .mgtFrameReceive _ => true
  | .stackTrainingComplete stack _ => decide (stack < 32)
  | .stateMemoryFillComplete stack => decide (stack < 32)
  | .cpush core rs1 => decide (core < 2312) && decide (rs1 < 32)
  | .ppatch core idx _ rs1 => decide (core < 2312) && decide (idx < 256) && decide (rs1 < 32)
  | .pset core mask _ => decide (core < 2312) && decide (mask < 0x10000)
  | .psetp core pred idx bit _ => decide (core < 2312) && decide (pred < 16) && decide (idx < 128) && decide (bit < 64)
  | .waitr core space rs1 rs2 => decide (core < 2312) && decide (space < 16) && decide (rs1 < 32) && decide (rs2 < 32)
  | .farrive core fence _ _ _ => decide (core < 2312) && decide (fence < 64)
  | .fenceArrivalDrained core => decide (core < 2312)
  | .ftrd core rd _ => decide (core < 2312) && decide (rd < 32)
  | .controlCoreInstruction core => decide (core < 2312)
  | .mload core => decide (core < 2312)
  | .mmul core => decide (core < 2312)
  | .mmulz core => decide (core < 2312)
  | .mdrain core => decide (core < 2312)
  | .mzero core => decide (core < 2312)
  | .schain core => decide (core < 2312)
  | .sdesc core => decide (core < 2312)
  | .stable core => decide (core < 2312)
  | .sfall core => decide (core < 2312)
  | .vnop core => decide (core < 2312)
  | .vadd core vd va vb => decide (core < 2312) && decide (vd < 32) && decide (va < 32) && decide (vb < 32)
  | .vsub core vd va vb => decide (core < 2312) && decide (vd < 32) && decide (va < 32) && decide (vb < 32)
  | .vmul core vd va vb => decide (core < 2312) && decide (vd < 32) && decide (va < 32) && decide (vb < 32)
  | .vfma core vd va vb vc => decide (core < 2312) && decide (vd < 32) && decide (va < 32) && decide (vb < 32) && decide (vc < 32)
  | .vmin core vd va vb => decide (core < 2312) && decide (vd < 32) && decide (va < 32) && decide (vb < 32)
  | .vmax core vd va vb => decide (core < 2312) && decide (vd < 32) && decide (va < 32) && decide (vb < 32)
  | .vexp2 core vd va => decide (core < 2312) && decide (vd < 32) && decide (va < 32)
  | .vlog2 core vd va => decide (core < 2312) && decide (vd < 32) && decide (va < 32)
  | .vrcp core vd va => decide (core < 2312) && decide (vd < 32) && decide (va < 32)
  | .vrsq core vd va => decide (core < 2312) && decide (vd < 32) && decide (va < 32)
  | .vcmp core va vb cond => decide (core < 2312) && decide (va < 32) && decide (vb < 32) && decide (cond < 8)
  | .vsel core vd va vb => decide (core < 2312) && decide (vd < 32) && decide (va < 32) && decide (vb < 32)
  | .viadd core vd va vb => decide (core < 2312) && decide (vd < 32) && decide (va < 32) && decide (vb < 32)
  | .vand core vd va vb => decide (core < 2312) && decide (vd < 32) && decide (va < 32) && decide (vb < 32)
  | .vor core vd va vb => decide (core < 2312) && decide (vd < 32) && decide (va < 32) && decide (vb < 32)
  | .vxor core vd va vb => decide (core < 2312) && decide (vd < 32) && decide (va < 32) && decide (vb < 32)
  | .vshl core vd va amount => decide (core < 2312) && decide (vd < 32) && decide (va < 32) && decide (amount < 32)
  | .vshr core vd va amount => decide (core < 2312) && decide (vd < 32) && decide (va < 32) && decide (amount < 32)
  | .vcvtif core vd va => decide (core < 2312) && decide (vd < 32) && decide (va < 32)
  | .vcvtfi core vd va => decide (core < 2312) && decide (vd < 32) && decide (va < 32)
  | .vperm core vd va vb => decide (core < 2312) && decide (vd < 32) && decide (va < 32) && decide (vb < 32)
  | .vred core vd va mode => decide (core < 2312) && decide (vd < 32) && decide (va < 32) && decide (mode < 4)
  | .vli core vd _ => decide (core < 2312) && decide (vd < 32)
  | .vld core vd _ ac offset => decide (core < 2312) && decide (vd < 32) && decide (ac < 4) && decide (offset < 0x10000)
  | .vst core va ac offset => decide (core < 2312) && decide (va < 32) && decide (ac < 4) && decide (offset < 0x10000)
  | .acadd core ac imm => decide (core < 2312) && decide (ac < 4) && decide (imm < 0x10000)
  | .loop core body select count => decide (core < 2312) && decide (body < 256) && decide (select < 4) && decide (count < 0x1000)
  | .fallEnd core => decide (core < 2312)
  | .dcopy core => decide (core < 2312)
  | .dgather core => decide (core < 2312)
  | .dscatter core => decide (core < 2312)
  | .dsend core => decide (core < 2312)
  | .dhalo core => decide (core < 2312)
  | .dfill core => decide (core < 2312)
  | .dhostrd core => decide (core < 2312)
  | .dhostwr core => decide (core < 2312)
  | .dput core => decide (core < 2312)
  | .drecv core => decide (core < 2312)
  | .qattend core => decide (core < 2312)
  | .qappend core => decide (core < 2312)
  | .commandRetire core _ => decide (core < 2312)
  | .elasticCompletion core _ => decide (core < 2312)
  | .beatEjectArrival _ => true
  | .beatLanding _ => true
  | .fenceRelease fence => decide (fence < 64)
  | .waitWatchdog core => decide (core < 2312)
  | .seqWatchdog entry => decide (entry < 1024)
  | .scrubSlot core => decide (core < 2312)
  | .idleScrub core _ bank => decide (core < 2312) && decide (bank < 32)
  | .eccWriteBack core memory bank => decide (core < 2312) && decide (memory < 8) && decide (bank < 32)
  | .eccInjectArm core _ _ => decide (core < 2312)
  | .csLodeAccess _ core offset width _ _ => decide (core < 2312) && decide (offset < 0x200000) && decide (width < 16)
  | .csMemoryAccess _ core offset width _ _ => decide (core < 2312) && decide (offset < 0x10000000) && decide (width < 16)
  | .parameterRegisterWrite core idx _ => decide (core < 2312) && decide (idx < 256)
  | .clearSchedFault core => decide (core < 2312)
  | .stepStart => true
  | .composeBatch _ => true
  | .stepCommit => true
  | .groupWdogExpiry => true
  | .tallyEntryWrite slot offset width _ _ => decide (slot < 0x40000) && decide (offset < 64) && decide (width < 16)
  | .tallyUe slot => decide (slot < 0x40000)
  | .seamQappendRequest stack => decide (stack < 32)
  | .seamQattendRequest stack => decide (stack < 32)
  | .refresh stack channel _ => decide (stack < 32) && decide (channel < 17)
  | .patrolScrubRead stack _ => decide (stack < 32)
  | .stateWindowAccess _ stack offset width _ _ => decide (stack < 32) && decide (offset < 0x2000000000) && decide (width < 16)
  | .seamRegionWrite stack _ => decide (stack < 32)
  | .channelRetire stack channel => decide (stack < 32) && decide (channel < 17)
  | .channelRetireComplete stack => decide (stack < 32)
  | .channelReturn stack channel => decide (stack < 32) && decide (channel < 17)
  | .parkComplete slot => decide (slot < 0x40000)
  | .resumeComplete slot => decide (slot < 0x40000)
  | .parkedExpiry slot => decide (slot < 0x40000)
  | .shipOfferSend slot => decide (slot < 0x40000)
  | .shipOfferReceive _ => true
  | .shipAcceptReceive _ => true
  | .shipRefuseReceive _ => true
  | .pageShipReceive _ => true
  | .shipRereqReceive _ => true
  | .shipRetryTimer slot => decide (slot < 0x40000)
  | .shipTimeout slot => decide (slot < 0x40000)
  | .shipDoneReceive _ => true
  | .shipFailReceive _ => true
  | .shipHoldExpiry slot => decide (slot < 0x40000)
  | .shardDataReceive _ => true
  | .shardReqReceive _ => true
  | .notHeldReceive _ => true
  | .shardTimeout _ index => decide (index < 2048)
  | .assayUnitStart => true
  | .assayUnitComplete => true
  | .lodeRepair core => decide (core < 2312)
  | .flipTimeReached => true
  | .flipCopyComplete => true
  | .drainEnd => true
  | .portEnable port => decide (port < 16)
  | .portDisable port => decide (port < 16)
  | .portAdmit port => decide (port < 16)
  | .portUnadmit port => decide (port < 16)
  | .portDrainEnd port => decide (port < 16)
  | .lanesLocked port lanes => decide (port < 16) && lanes.all fun l => decide (l.lane < 9)
  | .acquireTimeout port => decide (port < 16)
  | .initTimer port => decide (port < 16)
  | .initReceive port _ => decide (port < 16)
  | .initAckReceive port _ => decide (port < 16)
  | .notReadyReceive port _ => decide (port < 16)
  | .pingReceive port _ => decide (port < 16)
  | .pongReceive port _ => decide (port < 16)
  | .dataFlitReceive port flit =>
    decide (port < 16) && decide (flit.slot < 2 ^ 32) && flit.codewords.all fun c => decide (c.lane < 9)
  | .controlFlitReceive port flit =>
    decide (port < 16) && decide (flit.slot < 2 ^ 32) && flit.codewords.all fun c => decide (c.lane < 9)
  | .nackReceive port _ => decide (port < 16)
  | .creditReceive port _ => decide (port < 16)
  | .nackRepeatTimer port => decide (port < 16)
  | .replayTimeout port => decide (port < 16)
  | .ackAdvanceTimer port => decide (port < 16)
  | .transmitSlot port => decide (port < 16)
  | .laneWindow port lane _ _ _ => decide (port < 16) && decide (lane < 9)
  | .spareReqReceive port _ => decide (port < 16)
  | .mirrorOnReceive port _ => decide (port < 16)
  | .switchedReceive port _ => decide (port < 16)
  | .releasedReceive port _ => decide (port < 16)
  | .degradeReqReceive port _ => decide (port < 16)
  | .degradeMarkReceive port _ => decide (port < 16)
  | .degradeDoneReceive port _ => decide (port < 16)
  | .widenReqReceive port _ => decide (port < 16)
  | .widenMarkReceive port _ => decide (port < 16)
  | .widenDoneReceive port _ => decide (port < 16)
  | .laneMessageRetry port => decide (port < 16)
  | .widthChangeTimeout port => decide (port < 16)
  | .laneSpare port _ lane => decide (port < 16) && decide (lane < 9)
  | .laneReturn port _ lane => decide (port < 16) && decide (lane < 9)
  | .laneWiden port _ => decide (port < 16)
  | .linkSilence port => decide (port < 16)
  | .holdRetrainComplete port lanes => decide (port < 16) && lanes.all fun l => decide (l.lane < 9)
  | .linkResumeReceive port _ => decide (port < 16)
  | .downReceive port _ => decide (port < 16)
  | .graceExpiry port => decide (port < 16)
  | .messageReceive port cls _ => decide (port < 16) && decide (cls < 4)
  | .putReceive port _ => decide (port < 16)
  | .putDoneReceive _ => true
  | .putWindowTimeout window => decide (window < 0x10000)
  | .timeExchangeTimer port => decide (port < 16)
  | .timeReceive port _ _ => decide (port < 16)
  | .servoHoldover => true
  | .ftcRebase => true
  | .ftBroadcast => true
  | .rackrefSyncEdge => true
  | .rackrefSyncMiss => true
  | .rackrefClkStop => true
  | .barArriveReceive port _ => decide (port < 16)
  | .barReleaseReceive port _ => decide (port < 16)
  | .barrierReleaseAct bar => decide (bar < 256)
  | .barrierTimeout bar => decide (bar < 256)
  | .foremanMessage _ => true
  | .mailboxDoorbell mb => decide (mb < 64)
  | .ringDoorbell ring => decide (ring < 64)
  | .ringPoll => true
  | .hostAccess addr width _ _ => decide (addr < 0x1000000000000) && decide (width < 65)
  | .submit ring => decide (ring < 64)
  | .cancel ring => decide (ring < 64)
  | .park ring => decide (ring < 64)
  | .resume ring => decide (ring < 64)
  | .release ring => decide (ring < 64)
  | .extend ring => decide (ring < 64)
  | .reprefill ring => decide (ring < 64)
  | .ship ring => decide (ring < 64)
  | .query ring => decide (ring < 64)
  | .loadModel mb => decide (mb < 64)
  | .shardPost mb => decide (mb < 64)
  | .unloadModel mb => decide (mb < 64)
  | .prepareEpoch mb => decide (mb < 64)
  | .epochFlip mb => decide (mb < 64)
  | .cancelPrepare mb => decide (mb < 64)
  | .policy mb => decide (mb < 64)
  | .ringOpen mb => decide (mb < 64)
  | .ringClose mb => decide (mb < 64)
  | .windowGrant mb => decide (mb < 64)
  | .windowRevoke mb => decide (mb < 64)
  | .run mb => decide (mb < 64)
  | .fabricConfig mb => decide (mb < 64)
  | .unitCmd mb => decide (mb < 64)
  | .clockStep mb => decide (mb < 64)
  | .timeMode mb => decide (mb < 64)
  | .coreRetire core => decide (core < 2312)
  | .coreReturn core => decide (core < 2312)
  | .rowRepair core _ _ => decide (core < 2312)
  | .ledgerRebuild stack page => decide (stack < 32) && decide (page < 1179648)
  | .transitionComplete _ => true
  | .serviceFrameReceive port _ _ => decide (port < 2)
  | .wbStart => true
  | .wbEnergySample _ _ => true
  | .wbReportFrame _ => true
  | .wbPeriodicSeal => true
  | .wbDemand => true
  | .wbTimeJump newTime => decide (newTime < 0x10000000000000000)
  | .getInfo => true
  | .getRecord seq offset => decide (seq < 0x10000000000000000) && decide (offset < 0x100000000)
  | .getRange => true
  | .wbPllLockLoss => true
  | .wbPllRelock => true
  | .resumeTimer port => decide (port < 16)
  | .laneRetrainComplete port _ lane => decide (port < 16) && decide (lane < 9)
  | .rackrefClkReturn => true

end Sys2Proof
end

