-- ==== Sys2Proof/Tests/Slice0.lean ====
section
/-! SUPPORT. The model's own tests: ill-formed terms, and witnesses for the hypotheses of the statements. -/
namespace Sys2Proof.Tests
open Sys2Proof Sys2Proof.Machine

set_option Elab.async false

/-! ## Helpers -/

/-- The reset state with another Weighbridge, other dies, other registers, another Headframe, power part or Foreman. -/
def withWb (f : Weighbridge → Weighbridge) : State := { State.reset with wb := f State.reset.wb }
def withDie (f : Die → Die) : State := { State.reset with die := f State.reset.die }
def withRegs (l : List (Nat × Word)) : State := withDie fun d => { d with regs := l }
def withHdf (f : Headframe → Headframe) : State := withDie fun d => { d with hdf := f d.hdf }
def withPwr (f : Power → Power) : State := withDie fun d => { d with pwr := f d.pwr }
def withFmn (f : Foreman → Foreman) : State := withDie fun d => { d with fmn := f d.fmn }

/-- A state with a byte string in memory. -/
def holding (a : Nat) (b : Bytes) (s : State) : State := { s with mem := cellsSet s.mem a b }

/-- The module before the tray raises PWR_GOOD. -/
def offState : State := withPwr fun p => { p with pwrGood := false, rails := false, mgtRail := false, released := false }

/-- A step that runs. -/
def someStep : Step :=
  { number := 1, attempt := 0, startFt := 0, firstEntry := 0, entryCount := 1, entries := [(0, .running)], cores := [],
    slots := [], error := false, schedFault := false, exhausted := false, peerLost := false, started := [], cycles := 0,
    holds := [], members := [], groupAt := none }

/-! ## Nothing in the table gives bits -/

theorem test_no_word_decodes : decodeTableWord 32 0 = none ∧ decodeTableWord 64 (2 ^ 64 - 1) = none := by decide +kernel

theorem test_fetch_word_leaves_state : State.reset.withFetchWord 32 5 = State.reset := by decide +kernel

/-! ## Witnesses: states and operands that meet the hypotheses of each statement -/

theorem witness_IdleAndOffModules :
    (State.reset.pending = [] ∧ Memory.wf State.reset.mem = true ∧ State.reset.die.live = true ∧
      State.reset.die.loopback = []) ∧
    (offState.pending = [] ∧ offState.die.live = false) ∧
    (offState.die.managed = false ∧ Memory.wf offState.mem = true ∧ actsWithDiesOff (.scrubSlot 0) = false) := by decide +kernel

/-- A Weighbridge that measures, with an open record. -/
def measuring (f : OpenRecord → OpenRecord) : State :=
  withWb fun w => { w with run := true, openRec := some (f (openRecord true 0)) }

theorem witness_StepKeepsSound : ∃ t, Sound (measuring id) ∧ Machine.step (measuring id) = .next t := by
  refine ⟨_, ⟨by decide +kernel, ⟨by decide +kernel, ?_⟩, by decide +kernel, trivial, ?_⟩, rfl⟩
  · intro r h; cases h; decide
  · intro r h; cases h

theorem witness_WeighbridgeIsolated :
    (∃ t, touchesWeighbridge .refLoss = false ∧ exec .refLoss State.reset = .next t) ∧
    (∃ t t', weighbridgeOnly .wbStart = true ∧ State.reset.wb = offState.wb ∧
      exec .wbStart State.reset = .next t ∧ exec .wbStart offState = .next t') :=
  ⟨⟨_, rfl, rfl⟩, ⟨_, _, rfl, rfl, rfl, rfl⟩⟩

theorem witness_WeighbridgeMeasures :
    (State.reset.wb.powered = true ∧ State.reset.wb.run = false ∧ State.reset.wb.openRec = none) ∧
    ((measuring id).wb.run = true ∧ (measuring id).wb.openRec = some (openRecord true 0)) ∧
    (withWb fun w => { w with openRec := some (openRecord true 0) }).wb.openRec.isSome = true := by decide +kernel

/-- One sample before the end of a 100 ms window. -/
def windowEnds (sum : Nat) : State :=
  withWb fun w => { w with run := true, openRec := some (openRecord true 0), windowCount := 49999, windowSum := sum }

theorem witness_RangeFlagRule :
    (let s := windowEnds 24999999999999
     s.wb.run = true ∧ s.wb.openRec.isSome = true ∧ s.wb.windowCount + 1 = windowSamples ∧
       s.wb.windowSum + 40000 * 0 < 500 * 1000000 * windowSamples) ∧
    (let s := windowEnds (200000000000000 - 1)
     s.wb.run = true ∧ s.wb.openRec.isSome = true ∧ s.wb.windowCount + 1 = windowSamples ∧
       4000 * 1000000 * windowSamples < s.wb.windowSum + 40000 * 1) := by decide +kernel

theorem witness_RangeStays : ∃ t r', (measuring fun r => { r with range := true }).wb.openRec =
      some { openRecord true 0 with range := true } ∧
    exec .wbPllLockLoss (measuring fun r => { r with range := true }) = .next t ∧ t.wb.openRec = some r' ∧
    t.wb.nvSeq = (measuring id).wb.nvSeq := ⟨_, _, rfl, rfl, rfl, rfl⟩

theorem witness_RangeSeals : ∃ t, (measuring fun r => { r with range := true }).wb.openRec =
      some { openRecord true 0 with range := true } ∧
    exec .wbPeriodicSeal (measuring fun r => { r with range := true }) = .next t ∧ t.wb.nvSeq = (measuring id).wb.nvSeq + 1 :=
  ⟨_, rfl, rfl, rfl⟩

/-- A report frame of no tenant. -/
def frameOf (session rseq : Nat) : Bytes :=
  let f := toBytes 8 rseq ++ zeros 18 ++ toBytes 2 session
  f ++ toBytes 4 (crc32c f)

/-- A Weighbridge that measures and last took this frame. -/
def afterFrame (session rseq : Nat) : State :=
  withWb fun w => { w with run := true, openRec := some (openRecord true 0), lastFrame := some (session, rseq) }

theorem witness_ReportCopyRule :
    frameOk (zeros 32) = false ∧ frameOk (frameOf 1 5) = true ∧ numAt (frameOf 1 5) 26 2 = 1 ∧ numAt (frameOf 1 5) 0 8 = 5 ∧
    (let s := afterFrame 1 5
     s.wb.powered = true ∧ s.wb.lastFrame = some (1, 5)) ∧
    (let s := afterFrame 1 4
     s.wb.openRec.isSome = true ∧ ∀ r, s.wb.lastFrame = some (1, r) → r < 5) := by
  refine ⟨by decide +kernel, by decide +kernel, by decide +kernel, by decide +kernel, by decide +kernel, by decide +kernel, ?_⟩
  intro r h; cases h; decide

theorem witness_ReportSessionRule : ∃ t v,
    frameOk (frameOf 2 3) = true ∧ (afterFrame 1 5).wb.powered = true ∧ (afterFrame 1 5).wb.lastFrame = some (1, 5) ∧
    1 ≠ numAt (frameOf 2 3) 26 2 ∧ (afterFrame 1 5).wb.openRec = some (openRecord true 0) ∧
    exec (.wbReportFrame (frameOf 2 3)) (afterFrame 1 5) = .next t ∧ numAt (frameOf 2 6) 26 2 = numAt (frameOf 2 3) 26 2 ∧
    frameOk (frameOf 2 6) = true ∧ exec (.wbReportFrame (frameOf 2 6)) t = .next v ∧ numAt (frameOf 2 3) 0 8 < numAt (frameOf 2 6) 0 8 :=
  ⟨_, _, by decide +kernel, by decide +kernel, by decide +kernel, by decide +kernel, by decide +kernel, rfl, by decide +kernel, by decide +kernel, rfl, by decide +kernel⟩

theorem witness_ReportGapRule :
    frameOk (frameOf 1 8) = true ∧ (afterFrame 1 5).wb.lastFrame = some (numAt (frameOf 1 8) 26 2, 5) ∧
    5 + 1 < numAt (frameOf 1 8) 0 8 ∧ (afterFrame 1 5).wb.powered = true ∧ (afterFrame 1 5).wb.openRec.isSome = true := by decide +kernel

theorem witness_RecordsSeal :
    ((measuring id).wb.run = true ∧ (measuring id).wb.nvmOk = true ∧ (measuring id).wb.openRec = some (openRecord true 0) ∧
      (measuring id).wb.lastSeal.all (fun l => l + 1000000000 ≤ (measuring id).wb.ft) = true ∧
      (measuring id).wb.ft < (measuring id).wb.nextPeriodic) ∧
    (∀ q ∈ [(60000000000, none), (120000000000, some 60000000000)],
      atBoundary (withWb fun w => { w with ft := 60000000000, nextPeriodic := q.1, lastSeal := q.2 }).wb = true) ∧
    (let s := withWb fun w => { w with run := true, openRec := some (openRecord true 0), lastSeal := some 0, ft := 999999999 }
     s.wb.run = true ∧ s.wb.nvmOk = true ∧ atBoundary s.wb = false ∧ s.wb.lastSeal = some 0 ∧ s.wb.ft < 0 + 1000000000) ∧
    (measuring id).wb.ft + 120000000000 < 120000000001 := by decide +kernel

/-- A ring of one record. -/
def oneRecord (ok : Bool) : State :=
  withWb fun w => { w with run := true, nvmOk := ok, openRec := some (openRecord false 0),
                           ring := [{ seq := 7, offset := 0, bytes := zeros 224 }] }

theorem witness_SidebandServesRecords :
    ((oneRecord true).wb.run = true ∧ (oneRecord true).wb.nvmOk = true ∧
      (oneRecord true).wb.ring.find? (fun x => x.seq = 7) = some { seq := 7, offset := 0, bytes := zeros 224 } ∧
      (oneRecord true).wb.ring.head? = (oneRecord true).wb.ring.getLast? ∧ ∀ q ∈ (oneRecord true).wb.ring, q.seq ≠ 8) ∧
    ((oneRecord false).wb.run = true ∧ (oneRecord false).wb.nvmOk = false) := by decide +kernel

theorem witness_SidebandNoSeal : ∃ t, exec .wbPeriodicSeal (oneRecord false) = .next t := ⟨_, rfl⟩

theorem witness_TrayPower :
    (let s := withPwr fun p => { p with input50 := false }
     s.die.pwr.input50 = false) ∧
    (offState.die.pwr.pwrGood = false ∧ offState.die.pwr.input50 = true ∧ offState.die.pwr.latched = false ∧
      offState.die.pwr.refclk = true ∧ offState.die.hdf.repairs = [] ∧ offState.die.pwr.unrecorded = none) ∧
    (let s := withPwr fun p => { p with pllDead := true }
     s.die.pwr.pllDead = true ∧ Memory.wf s.mem = true) ∧
    (let s := withPwr fun p => { p with pwrGood := false, refclk := false }
     s.die.pwr.pwrGood = false ∧ s.die.pwr.input50 = true ∧ s.die.pwr.latched = false ∧ s.die.pwr.refclk = false) ∧
    (let s := withPwr fun p => { p with released := false }
     s.die.pwr.mgtRail = true ∧ s.die.pwr.released = false ∧ s.die.pwr.pllDead = false ∧ s.die.hdf.repairs = [] ∧
       s.die.pwr.unrecorded = none) := by decide +kernel

theorem witness_ModuleReset : ∃ t, exec (.pwrGoodRise 15) offState = .next t := ⟨_, rfl⟩

/-- Registers of the clocks and power as numbers: CLK_CTRL, CLK_STATUS, PWR_STATUS, PWR_THERM, PWR_CAP. -/
def clocks (ctrl status pwr therm cap : Nat) : List (Nat × Word) :=
  [(CLK_CTRL, BitVec.ofNat 64 ctrl), (CLK_STATUS, BitVec.ofNat 64 status), (PWR_STATUS, BitVec.ofNat 64 pwr),
   (PWR_THERM, BitVec.ofNat 64 therm), (PWR_CAP, BitVec.ofNat 64 cap)]

/-- A temperature site at 120 °C, in m°C, and the input sensors at 50 V and 60 A. -/
def hotSensors : List (Nat × Word) :=
  [(HDF_SENS, 120000), (HDF_SENS + 8 * 320, 50000), (HDF_SENS + 8 * 321, 60000)]

theorem witness_CeilingsFollowTheirCauses :
    (let s := withRegs (clocks 0 0 0x20 0x0069_5A_00 (2999 * 65536) ++ hotSensors)
     s.die.managed = true ∧ s.die.step = none ∧ s.die.pwr.nextCeiling = [] ∧ (view s).flag PWR_STATUS 5 = true ∧
     (view s).hottest = some 120000 ∧ (view s).fld PWR_THERM 15 8 * 1000 ≤ (120000 : Int) ∧ s.die.pwr.hotChecks % 10 = 0 ∧
     (view s).fld CLK_STATUS 28 26 < 5 ∧ (view s).fld PWR_THERM 23 16 * 1000 ≤ (120000 : Int) ∧
     s.die.pwr.emergSeen = false ∧ (view s).flag PWR_STATUS 8 = false ∧ (view s).fld PWR_CAP 31 16 ≠ 0 ∧
     ((view s).fld PWR_CAP 31 16 : Int) * 1000000 * (view s).inputPower.2 < (view s).inputPower.1 ∧ (view s).fld CLK_STATUS 25 23 < 5) ∧
    (let s := withRegs (clocks 0 0 0x100 0 0)
     s.die.managed = true ∧ (view s).flag PWR_STATUS 8 = true) := by decide +kernel

/-- The root of a group. -/
def groupRoot : State :=
  withDie fun d => { d with
    regs := clocks 0 0 0 0 0 ++ [(CMT_CTRL, 1), (barReg 0, BitVec.ofNat 64 (2 ^ 63 + 2 ^ 62))], pwr := { d.pwr with nextCeiling := [] } }

theorem witness_GroupCeilings :
    (view groupRoot).grouped = true ∧ (view groupRoot).barRoot (view groupRoot).commitBar = true ∧
      (view groupRoot).fld CLK_STATUS 22 20 ≠ max 3 Config.topStep % 8 := by
  refine ⟨by decide +kernel, by decide +kernel, ?_⟩
  rw [show (view groupRoot).fld CLK_STATUS 22 20 = 0 by decide +kernel]
  unfold Config.topStep
  split <;> decide

/-- A step asked of every region, with these region registers, and a CLK_SSC that is not yet in effect. -/
def asking (step : Nat) (mailbox : Option Nat) (regs : List (Nat × Word)) : State :=
  withDie fun d => { d with
    regs := clocks step 0 0 0 0 ++ regs, pwr := { d.pwr with
      stepPending := some { step, mask := 255, mailbox }, sscInEffect := 0 } }

theorem witness_FrequencyStepChanges :
    (let s := asking 2 (some 63) [(CLK_REGION_STATUS, 0x501)]
     s.die.live = true ∧ s.die.step = none ∧ s.die.pwr.nextCeiling = [] ∧ s.die.pwr.regionFail = [] ∧
     s.die.pwr.stepLatched = none ∧ s.die.pwr.stepPending = some { step := 2, mask := 255, mailbox := some 63 } ∧ 63 < 64 ∧
     s.die.pwr.sscInEffect ≠ sscClamped ((view s).reg CLK_SSC) ∧ 0 < 8 ∧ (view s).regionStep 0 ≠ (view s).regionTarget 0 ∧ (view s).regionTarget 0 < (view s).regionStep 0) ∧
    (let s := asking 5 none ((List.range 8).map fun r => (CLK_REGION_STATUS + 8 * r, (0x101 : Word)))
     ∀ r, r < 8 → (view s).regionStep r ≤ (view s).regionTarget r) ∧
    (let s := asking 2 none [(CLK_REGION_STATUS + 56, 0x501)]
     7 < 8 ∧ (view s).regionTarget 7 < (view s).regionStep 7) ∧
    (let s := asking 5 none ((List.range 8).map fun r => (CLK_REGION_STATUS + 8 * r, (0x501 : Word)))
     (s.die.pwr.stepPending.bind fun q => q.mailbox) = none ∧ ∀ r ∈ List.range 8, (view s).regionStep r = (view s).regionTarget r) := by decide +kernel

theorem witness_ReferenceSwitches :
    (let s := withDie fun d => { d with regs := clocks 0 0xC 0 0 0 ++ [(CLK_REFMUX, BitVec.ofNat 64 (2 ^ 63))] }
     s.die.managed = true ∧ (view s).refPresent 0 = true ∧ (view s).flag CLK_REFMUX 63 = true ∧
     (view s).refPresent s.die.pwr.activeSource = true ∧ (view s).refPresent ((view s).fld CLK_REFMUX 1 0) = true ∧ (view s).flag CLK_STATUS 2 = true ∧ (view s).flag CLK_STATUS 3 = true) ∧
    (let s := withDie fun d => { d with regs := clocks 0 0 0 0 0, pwr := { d.pwr with refclk := false } }
     s.die.managed = true ∧ (view s).refPresent 0 = false ∧ (view s).refPresent s.die.pwr.activeSource = false ∧
     Memory.wf s.mem = true ∧ (view s).flag CLK_STATUS 2 = false) := by decide +kernel

theorem witness_PllsAndDroop :
    (let m := view State.reset
     m.spreads 22 = false ∧ pllCount 0 = 144000 ∧ 144028 ≤ pllCount 0 + pllCount 0 / 5000 ∧ pllCount 0 ≤ 143972 + pllCount 0 / 5000 ∧
     (m.nominalCount 0 0 = 144000 ∧ m.nominalCount 0 10000 ≤ 144000) ∧ 200 * m.nominalCount 22 7 < (m.nominalCount 22 7 - 0) * 1000000) ∧
    (let s := withDie fun d => { d with regs := clocks 0 0 0 0 0, pwr := { d.pwr with pllLocked := [(0, true)] } }
     s.die.managed = true ∧ mapGetD s.die.pwr.pllLocked 0 false = true ∧ mapGetD s.die.pwr.pllHoldover 0 false = false ∧
     (view s).flag CLK_STATUS 2 = false) ∧
    (let s := withPwr fun p => { p with pllFails := [(7, 17), (22, 15)], pllHoldover := [(24, true), (7, true)] }
     pllRegion 22 = some 14 ∧ mapGetD s.die.pwr.pllLocked 22 false = false ∧ mapGetD s.die.pwr.pllFails 22 0 = 15 ∧
     s.die.step = none ∧ s.die.pwr.regionFail = [] ∧ mapGetD s.die.pwr.pllHoldover 7 false = true ∧
     16 < mapGetD s.die.pwr.pllFails 7 0 ∧ pllRegion 7 = some 7) ∧
    (let s := withDie fun d => { d with
       regs := clocks 0x10000 0 0 0 0, pwr := { d.pwr with lagTokens := [(7, [1])], droopFirings := [(3, 2)], droopRuns := [(3, 9)] } }
     s.die.live = true ∧ Memory.wf s.mem = true ∧ 10 ≤ (view s).droopThreshold ∧ (view s).droopThreshold < 61 ∧
     mapGetD s.die.pwr.lagTokens 7 [] = 1 :: [] ∧ s.die.step = none ∧
     s.die.pwr.nextCeiling = [] ∧ (view s).fld CLK_STATUS 19 17 < 5 ∧
     (view s).fld CLK_CTRL 23 16 < mapGetD s.die.pwr.droopFirings 3 0 ∧ mapGetD s.die.pwr.droopRuns 3 0 = 9) := by decide +kernel

theorem witness_Unlocked : ∃ count, unlocked (view State.reset) headframePll count 0 :=
  ⟨2 * (view State.reset).nominalCount headframePll 0 + 1, Or.inl (by omega)⟩

/-- A bundle, and a slot that holds it. -/
def someBundle : Bundle := { svn := 3, version := 1, headframe := 10, hostBoot := 11, foreman := 12, signatureOk := true }
def slotOf (st : SlotState) : FlashSlot :=
  let h : BootHeader := { state := st, tries := 0, svn := 3, minSvn := 1, version := 1, gen := 1, digest := [] }
  let h := { h with digest := headerDigest h }
  { FlashSlot.blank with copy0 := h, copy1 := h, bundle := some someBundle }

/-- The Headframe PLL locked, with another Headframe. -/
def booting (f : Headframe → Headframe) : State :=
  withDie fun d => { d with pwr := { d.pwr with pllLocked := [(headframePll, true)] }, hdf := f d.hdf }

theorem slotHeader_slotOf (st : SlotState) : slotHeader (slotOf st) = (slotOf st).copy0 := by
  simp [slotHeader, FlashSlot.copy0Used, BootHeader.checks, slotOf, headerDigest]

theorem slotHeader_blank : slotHeader FlashSlot.blank = .blank := by
  unfold slotHeader
  split
  · rfl
  · split <;> rfl

theorem plannedHeader_idle (h : Headframe) (e : h.flashQueue = []) : plannedHeader false h = slotHeader h.slotA := by
  simp [plannedHeader, e, hdfSlot]

/-- The firmware runs from slot A, which is on trial. -/
def trialState : State := withHdf fun h => { h with slotA := slotOf .trial, firmwareSince := some 0 }

theorem witness_FirmwareSlots :
    (let s := booting fun h => { h with slotA := slotOf .active, firmwareSince := some 0 }
     s.die.managed = true ∧ mapGetD s.die.pwr.pllLocked headframePll false = true ∧ s.die.hdf.slotA.accepted = true ∧
     s.die.hdf.slotB.accepted = true ∧ s.die.hdf.slotA.bundle = some someBundle ∧ s.die.hdf.slotA = slotOf .active ∧
     s.die.hdf.slotB = .blank ∧ bundleChecks someBundle = true ∧ s.die.hdf.configA = true ∧
     (view s).firmwareRuns = true ∧ s.die.hdf.flashRunning = none ∧ s.die.hdf.flashQueue = [] ∧
     updatePending s.die.hdf = false) ∧
    ((slotHeader (slotOf .active)).state = .active ∧ (slotHeader .blank).state = .empty ∧
     (slotHeader (slotOf .active)).svn = 3 ∧ (slotHeader (slotOf .active)).minSvn = 1 ∧ (slotHeader .blank).minSvn = 0) ∧
    (let s := booting fun h => { h with slotB := { h.slotB with jesd216 := false } }
     mapGetD s.die.pwr.pllLocked headframePll false = true ∧ s.die.hdf.slotA = .blank ∧ s.die.hdf.slotB.accepted = false) ∧
    (mapGetD State.reset.die.pwr.pllLocked headframePll false = false ∧ (view State.reset).firmwareRuns = false) ∧
    (let s := withRegs [(HDF_STATUS, 0x800)]
     (view s).fld HDF_STATUS 11 8 = 8 ∧ s.die.hdf.slotA.accepted = true) ∧
    (let s := withHdf fun h => { h with flashRunning := some (.update false someBundle, true) }
     s.die.hdf.flashRunning = some (.update false someBundle, true) ∧ s.die.hdf.flashQueue = []) ∧
    (trialState.die.hdf.firmwareSince = some 0 ∧ trialState.die.hdf.flashQueue = [] ∧
     (plannedHeader ((view trialState).flag HDF_STATUS 0) trialState.die.hdf).state = .trial) := by
  refine ⟨by decide +kernel, ?_, by decide +kernel, by decide +kernel, by decide +kernel, by decide +kernel, ?_⟩
  · rw [slotHeader_slotOf, slotHeader_blank]
    decide +kernel
  · refine ⟨rfl, rfl, ?_⟩
    rw [show (view trialState).flag HDF_STATUS 0 = false by decide +kernel, plannedHeader_idle _ rfl,
      show trialState.die.hdf.slotA = slotOf .trial from rfl, slotHeader_slotOf]
    decide +kernel

theorem witness_EventLogChains :
    (State.reset.die.managed = true ∧ State.reset.die.hdf.flashRunning = none ∧ State.reset.die.hdf.logTip.length = 32 ∧
      State.reset.die.hdf.log.length < segmentRecords * logSegments) ∧
    (let r : FlashRequest := .logRecord 0 0 0 [] 0 0 false
     let full := withHdf fun h => { h with flashRunning := some (r, false), flashQueue := List.replicate 4096 r }
     full.die.hdf.flashRunning = some (r, false) ∧
       logQueueMax ≤ (full.die.hdf.flashQueue.filter fun x => flashRank x == 1).length ∧
     ∀ b, (withHdf fun h => { h with flashRunning := some (r, b) }).die.hdf.flashRunning = some (r, b) ∧
       (withHdf fun h => { h with flashRunning := some (r, b) }).die.hdf.flashQueue = [] ∧
       ((withHdf fun h => { h with flashRunning := some (r, b) }).die.hdf.flashQueue.filter
         fun x => flashRank x == 1).length < logQueueMax ∧
       (withHdf fun h => { h with flashRunning := some (r, b), flashQueue := [r] }).die.hdf.flashQueue = [r]) ∧
    flashRank (.logRecord 0 0 0 [] 0 0 false) ≠ 3 := by
  decide +kernel

/-- A full event log. -/
theorem witness_EventLogFull :
    (withHdf fun h => { h with log := List.replicate (segmentRecords * logSegments) (zeros 128) }).die.hdf.log.length =
      segmentRecords * logSegments := List.length_replicate

theorem witness_TripsAndSensors :
    State.reset.die.managed = true ∧ State.reset.die.pwr.rails = true ∧ Memory.wf State.reset.mem = true ∧ 31 < 32 ∧
    (let s := withPwr fun p => { p with released := false, unrecorded := some 32 }
     s.die.managed = false ∧ s.die.pwr.rails = true ∧ s.die.pwr.mgtRail = true ∧ s.die.pwr.released = false ∧
       s.die.pwr.pllDead = false ∧ s.die.pwr.unrecorded = some 32) ∧
    (withPwr fun p => { p with released := false, unrecorded := some 31 }).die.pwr.unrecorded = some 31 ∧
    sensorExists 324 = true ∧ sensorExists 799 = true ∧ (-2147483648 : Int) ≤ 2147483647 ∧
    mapGetD (withHdf fun h => { h with sensorMissed := [(799, 2)] }).die.hdf.sensorMissed 799 0 = 2 := by decide +kernel

theorem witness_EarlyTrafficRule :
    State.reset.die.managed = true ∧ State.reset.die.hdf.macEnabled = false ∧ State.reset.die.hdf.romStarted = false ∧
    Memory.wf State.reset.mem = true ∧
    (let s := withHdf fun h => { h with macEnabled := true, romStarted := true }
     s.die.hdf.macEnabled = true ∧ s.die.hdf.romStarted = true) := by decide +kernel

theorem witness_AttestAndRedfish :
    (let s := withDie fun d => { d with regs := [(HDF_STATUS, 2)], hdf := { d.hdf with firmwareSince := some 0 } }
     s.die.managed = true ∧ (zeros 32).length = 32 ∧ s.die.hdf.firmwareSince.isSome = true ∧ s.die.step = none ∧
     s.die.fmn.flip = none ∧ s.die.hdf.attestWaiting = [] ∧ s.die.hdf.logTip.length = 32 ∧ (view s).flag HDF_STATUS 1 = true) ∧
    (let s := withDie fun d => { d with regs := [(HDF_STATUS, 0)], step := some someStep, hdf := { d.hdf with firmwareSince := some 0 } }
     (view s).flag HDF_STATUS 1 = false ∧ s.die.step ≠ none) ∧
    (let s := withHdf fun h => { h with macEnabled := true, accounts := [4], sessions := [4], subscriptions := List.range 8 }
     s.die.hdf.macEnabled = true ∧ s.die.hdf.accounts.contains 4 = true ∧ s.die.hdf.accounts.contains 5 = false ∧
     8 ≤ s.die.hdf.subscriptions.length ∧ s.die.hdf.subscriptions.contains 7 = true ∧ Memory.wf s.mem = true ∧
     (view s).redfishKnown (.basic 4) = true ∧ (view s).redfishKnown (.session 4) = true ∧ (view s).redfishKnown .none = false ∧
     TlsOffer.other ≠ .sm4GcmSm3 ∧ unlistedRequest (.createAccount 5) = false) ∧
    (view (withHdf fun h => { h with macEnabled := true })).redfishKnown .none = true ∧
    (withHdf fun h => { h with subscriptions := List.range 7 }).die.hdf.subscriptions.length < 8 := by decide +kernel

theorem witness_RegistersByAccessType :
    State.reset.die.live = true ∧ Memory.wf State.reset.mem = true ∧ plainRegister PWR_CAP ∧ (regRow PWR_CAP).isSome = true ∧
    (place FMN_EPOCH_FLIP_CNT = .other ∧ FMN_EPOCH_FLIP_CNT % 8 = 0 ∧ (regRow FMN_EPOCH_FLIP_CNT).map (·.rc) = some true) ∧
    (place (PWR_CAP + 4) = .other ∧ (PWR_CAP + 4) % 4 = 0) ∧ accessAllowed (PWR_CAP + 2) 4 = false ∧
    (plainRegister 0xFFFFFFFFFFF8 ∧ regRow 0xFFFFFFFFFFF8 = none) := by
  refine ⟨rfl, rfl, ⟨rfl, ?_, ?_, ?_, ?_⟩, ?_, ⟨rfl, ?_, ?_⟩, ⟨rfl, ?_⟩, ?_, ⟨rfl, ?_, ?_, ?_, ?_⟩, rfl⟩ <;> decide +kernel

/-- A model of a build with these shape classes. -/
def modelOf (classes : List ShapeClass) : Model :=
  { index := 0, sterling := false, split := false, classes, patchMap := [], images := [], fixed := [], programDigest := [],
    steps := [], groups := [], patches := [], stopped := false, lastOld := false }

/-- A mailbox that holds a command: BUSY in FMN_MB_BUSY, its first byte the opcode, and these bytes from byte 8 on. -/
def mailboxWith (mb opcode : Nat) (args : Bytes) (f : Die → Die) : State :=
  let s := withDie fun d => f { d with regs := [(FMN_MB_BUSY, BitVec.ofNat 64 (2 ^ mb))] }
  { s with mem := cellsSet (cellsSet s.mem (mailboxBase mb) (toBytes 1 opcode)) (mailboxBase mb + 8) args }

/-- Memory without errors is clean everywhere. -/
theorem clean_of_no_bursts (m : M) (a n : Nat) (e : m.die.bursts = []) : cleanCarve m a n := by
  have h : ∀ b k, m.noteBursts b k 2 = m := by intro b k; simp [M.noteBursts, M.burstsIn, e]
  have k : ∀ l : List (Nat × Nat), l.foldl (fun m (o, k) => m.noteBursts (carveAddr (a + o)) k 2) m = m := by
    intro l
    induction l with
    | nil => rfl
    | cons x l ih => simp only [List.foldl_cons, h]; exact ih
  exact k _

/-- With one ring open no other ring is ready. -/
theorem ready_of_one_ring (m : M) (r q : Nat) (g : Ring) (e : m.die.fmn.rings = [(r, g)]) (h : q ≠ r) :
    m.ringReady q = false := by
  simp [M.ringReady, M.ring, mapGet, e, List.lookup, beq_eq_false_iff_ne.mpr h]

theorem witness_DoorbellsRing :
    (let s := holding (mailboxBase 63) [0x20] State.reset
     s.die.live = true ∧ (view s).mbBusy 63 = false ∧ mailboxCode ((view s).mbArg 63 0 1) = true ∧ Memory.wf s.mem = true) ∧
    (view (mailboxWith 0 0x20 [] id)).mbBusy 0 = true ∧
    ((view State.reset).mbBusy 0 = false ∧ mailboxCode ((view State.reset).mbArg 0 0 1) = false) ∧
    (let g : Ring := { base := 0, k := 6, consumer := 2 ^ 32 - 1, producer := 2 ^ 32 - 1, stopped := false, closing := none }
     let s := holding (carveAddr 0) (toBytes 4 64) (withFmn fun f => { f with rings := [(63, g)] })
     (view s).ring 63 = some g ∧ 2 ^ g.k < ((view s).carveN g.base 4 + 2 ^ 32 - g.consumer) % 2 ^ 32 ∧
     s.die.fmn.rings = [(63, g)] ∧ s.die.bursts = []) ∧
    (let g : Ring := { base := 0, k := 6, consumer := 5, producer := 5, stopped := false, closing := none }
     let s := holding (carveAddr 0) (toBytes 4 5) (withFmn fun f => { f with rings := [(0, g)] })
     (view s).ring 0 = some g ∧ (view s).carveN g.base 4 = g.consumer ∧ g.consumer < 2 ^ 32 ∧ s.die.bursts = []) := by decide +kernel

theorem witness_PolicyRings :
    (let s := mailboxWith 0 0x26 [7, 0, 1, 1] id
     s.die.live = true ∧ (view s).mbArg 0 4 4 = 0 ∧ (view s).mbHolds 0 0x26 = true ∧ (view s).mbArg 0 10 1 ≤ 1 ∧
     (view s).mbArg 0 11 1 ≤ 1) ∧
    (let s := mailboxWith 0 0x26 [7, 0, 2, 1] fun d =>
       { d with fmn := { d.fmn with models := [(0, { modelOf [] with split := true })] } }
     (view s).mbHolds 0 0x26 = true ∧ (view s).mbArg 0 10 1 = 2 ∧ (view s).mbArg 0 11 1 ≤ 1 ∧
     ∀ x ∈ s.die.fmn.models, x.2.split = true) ∧
    (let s := mailboxWith 63 0x27 [63, 12] id
     (view s).mbHolds 63 0x27 = true ∧ (view s).mbArg 63 8 1 < 64 ∧ 6 ≤ (view s).mbArg 63 9 1 ∧ (view s).mbArg 63 9 1 ≤ 12 ∧
     (view s).mbArg 63 16 8 % 64 = 0 ∧ (view s).ring ((view s).mbArg 63 8 1) = none ∧
     inCarve ((view s).mbArg 63 16 8) (64 + 128 * 2 ^ (view s).mbArg 63 9 1) = true ∧
     (view s).carveN ((view s).mbArg 63 16 8) 4 = (view s).carveN ((view s).mbArg 63 16 8 + 4) 4) ∧
    (let g : Ring := { base := 0, k := 6, consumer := 0, producer := 0, stopped := true, closing := none }
     let s := mailboxWith 1 0x28 [5] fun d => { d with fmn := { d.fmn with rings := [(5, g)] } }
     (view s).mbHolds 1 0x28 = true ∧ (view s).ring ((view s).mbArg 1 8 1) = some g ∧ g.closing = none ∧ g.stopped = true) ∧
    (let g : Ring := { base := 0, k := 6, consumer := 0, producer := 0, stopped := false, closing := none }
     let s := mailboxWith 1 0x28 [5] fun d => { d with fmn := { d.fmn with rings := [(5, g)] } }
     (view s).ring ((view s).mbArg 1 8 1) = some g ∧ (view s).carveN g.base 4 = g.consumer) := by decide +kernel

theorem witness_WindowsRunTimeFabric :
    (let s := mailboxWith 0 0x29 ([62, 3] ++ zeros 14 ++ toBytes 8 64) fun d => { d with step := some someStep }
     (view s).mbHolds 0 0x29 = true ∧ windowNumber ((view s).mbArg 0 8 1) = true ∧ (view s).mbArg 0 9 1 ≤ 3 ∧
     inCarve ((view s).mbArg 0 16 8) ((view s).mbArg 0 24 8) = true ∧ s.die.step ≠ none) ∧
    (let s := mailboxWith 0 0x2A [1] fun d =>
       { d with step := some someStep, fmn := { d.fmn with windows := [(1, { dieReads := true, dieWrites := true, base := 0, size := 64 })] } }
     (view s).mbHolds 0 0x2A = true ∧ windowNumber ((view s).mbArg 0 8 1) = true ∧
     (view s).windowGranted ((view s).mbArg 0 8 1) = true) ∧
    (let s := mailboxWith 0 0x29 ([62, 3] ++ zeros 14 ++ toBytes 8 64) id
     (view s).mbHolds 0 0x29 = true ∧ windowNumber ((view s).mbArg 0 8 1) = true ∧ (view s).mbArg 0 9 1 ≤ 3 ∧
     inCarve ((view s).mbArg 0 16 8) ((view s).mbArg 0 24 8) = true ∧ s.die.step = none ∧ s.die.fmn.nextWindows = []) ∧
    (let w : HostWindow := { dieReads := true, dieWrites := true, base := 0, size := 64 }
     let s := mailboxWith 0 0x2A [1] fun d => { d with fmn := { d.fmn with windows := [(1, w)] } }
     (view s).mbHolds 0 0x2A = true ∧ windowNumber ((view s).mbArg 0 8 1) = true ∧
     mapGet s.die.fmn.windows ((view s).mbArg 0 8 1) = some w ∧ s.die.step = none ∧ s.die.fmn.nextWindows = []) ∧
    (let x := modelOf []
     let s := mailboxWith 0 0x2B ([3] ++ zeros 15 ++ [1]) fun d => { d with fmn := { d.fmn with models := [(0, x)] } }
     (view s).mbHolds 0 0x2B = true ∧ (view s).mbArg 0 8 1 ≤ 3 ∧ (view s).loadBusy = false ∧ s.die.fmn.models ≠ [] ∧
     0 < (view s).mbArg 0 24 8 ∧ s.die.step = none ∧ s.die.fmn.composed = none) ∧
    (let s := mailboxWith 0 0x2F [2, 15, 15, 1] id
     (view s).mbHolds 0 0x2F = true ∧ (view s).mbArg 0 8 1 ≤ 2 ∧ (view s).mbArg 0 9 1 ≤ 15 ∧ (view s).mbArg 0 10 1 ≤ 15 ∧
     (view s).mbArg 0 11 1 ≤ 1 ∧ s.die.step = none ∧ s.die.servo.latched = none) ∧
    (let s := holding (carveAddr 0) [4] (mailboxWith 0 0x2C (zeros 16 ++ [16]) id)
     (view s).mbHolds 0 0x2C = true ∧ (view s).mbArg 0 24 4 = 16 ∧ (view s).loadBusy = false ∧
     inCarve ((view s).mbArg 0 16 8) 16 = true ∧
     byteAt ((view s).stripedRead carveAddr ((view s).mbArg 0 16 8) 16 2).1 0 = 4) := by decide +kernel

theorem witness_ClockAndUnit :
    (let s := mailboxWith 0 0x2E [5, 255, 0] id
     (view s).mbHolds 0 0x2E = true ∧ (view s).mbArg 0 8 1 ≤ 5 ∧ (view s).mbArg 0 9 2 = 255 ∧ s.die.pwr.stepPending = none ∧
       s.die.pwr.stepLatched = none) ∧
    (let q : StepRequest := { step := 5, mask := 255, mailbox := some 63 }
     let s := mailboxWith 0 0x2E [5, 255, 0] fun d => { d with pwr := { d.pwr with stepPending := some q, stepLatched := some q } }
     (view s).mbHolds 0 0x2E = true ∧ s.die.pwr.stepPending = some q ∧ s.die.pwr.stepLatched = some q ∧
       q.mailbox ≠ some 0 ∧ q.mailbox = some 63) ∧
    (let s := mailboxWith 0 0x2E [5, 0, 1] id
     (view s).mbHolds 0 0x2E = true ∧ (view s).mbArg 0 8 1 ≤ 5 ∧ (view s).mbArg 0 9 2 < 2 ^ 15 ∧ 256 ≤ (view s).mbArg 0 9 2) ∧
    (let s := mailboxWith 0 0x2D [1, 1, 135, 0] fun d => { d with regs := d.regs ++ [(SHAFT_GRID_SIG, 0)] }
     (view s).mbHolds 0 0x2D = true ∧ (view s).mbArg 0 8 1 = 1 ∧ (view s).mbArg 0 9 1 = 1 ∧ (view s).mbArg 0 10 2 < 136 ∧
     (view s).siteSpare ((view s).mbArg 0 10 2) = false ∧ (view s).rowSpareUsed ((view s).mbArg 0 10 2 / 17) = false) ∧
    (let s := mailboxWith 0 0x2D [1, 3, 135, 0] fun d => { d with
       sites := [(135, { Site.fresh with routerPending := some 1, routerLatched := some 3 })],
       fmn := { d.fmn with unitWaits := [(63, fnRouter 135, true)] } }
     (view s).mbHolds 0 0x2D = true ∧ (view s).mbArg 0 8 1 = 1 ∧ (view s).mbArg 0 9 1 = 3 ∧ (view s).mbArg 0 10 2 < 136 ∧
     ((view s).site ((view s).mbArg 0 10 2)).routerPending.isSome = true ∧
     ((view s).site ((view s).mbArg 0 10 2)).routerLatched.isSome = true ∧
     s.die.fmn.unitWaits = [(63, fnRouter ((view s).mbArg 0 10 2), true)] ∧ 63 ≠ 0) ∧
    (let s := withDie fun d => { d with
       sites := [(135, { Site.fresh with routerPending := some 2 })],
       fmn := { d.fmn with unitWaits := [(63, fnRouter 135, false)] } }
     s.die.step = none ∧ ((view s).site 135).routerPending = some 2 ∧ ((view s).site 135).routerLatched = none ∧ 63 < 64 ∧
     s.die.fmn.unitWaits = [(63, fnRouter 135, false)]) := by decide +kernel

theorem witness_HostAccesses :
    (63 < 64 ∧ 248 + 8 ≤ 256 ∧ accessOk 8 (256 * 63 + 248) = true ∧ (view (mailboxWith 63 0x20 [] id)).mbBusy 63 = true) ∧
    ((view State.reset).mbBusy 63 = false ∧ Memory.wf State.reset.mem = true ∧ State.reset.die.live = true) ∧
    (0xFFFE < 0x10000 ∧ accessOk 3 0xFFFE = false ∧ registerOk 3 0xFFFE = false) ∧
    (let s := withRegs [(seamReg 0 SEAM_STATUS, BitVec.ofNat 64 (2 ^ 39))]
     0 + 8 ≤ hostStagingBase ∧ (view s).stripedReady false 0 8 = true) ∧
    ((view State.reset).stripedReady false 0 8 = false) ∧
    ((view State.reset).service 1).keepBad = false ∧ ((view State.reset).service 1).enabled = [] := by decide +kernel

/-- A service port with a receive queue and a transmit queue of four descriptors each at the carve-out's start: the first
descriptor names 64 bytes at 4,096 and is free to receive (its last two bytes 0) or is one frame (1). -/
def servicePort (flags : Nat) : State :=
  let q : ServiceQueue := { base := 0, entries := 4, next := 0, tail := 0, enabled := true }
  holding (carveAddr 0) (toBytes 8 4096 ++ toBytes 4 64 ++ toBytes 2 flags)
    (withDie fun d => { d with svc := [(1, { ServicePort.fresh with keepBad := true, mtu := 60, rx := [(15, q)], tx := [(15, q)] })] })

theorem witness_ServiceQueues :
    (let s := servicePort 0
     let q : ServiceQueue := { base := 0, entries := 4, next := 0, tail := 0, enabled := true }
     s.die.live = true ∧ Memory.wf s.mem = true ∧ ((view s).service 1).keepBad = true ∧ ((view s).service 1).rx = [(15, q)] ∧
     ((view s).carveN (q.descriptor q.next + 12) 2).testBit 1 = false ∧
     ((zeros 100).take ((view s).service 1).mtu).length ≤ (view s).carveN (q.descriptor q.next + 8) 4) ∧
    (let s := servicePort 1
     let q : ServiceQueue := { base := 0, entries := 4, next := 0, tail := 0, enabled := true }
     ((view s).service 1).tx = [(15, q)] ∧ (1 : Word).toNat = (q.next + 1) % q.entries ∧ s.die.bursts = [] ∧
     ((view s).carveN (q.descriptor q.next + 12) 2).testBit 0 = true) := by decide +kernel

/-! ### Cores and engines -/

/-- A core of these contents in a module that runs. -/
def withCore (c : Nat) (f : Core → Core) : State := withDie fun d => { d with cores := [(c, f Core.fresh)] }

theorem witness_CommandExtensionRule :
    (let s := withCore 2311 fun k => { k with st := .running, x := [(31, 65504)] }
     let k := (view s).core 2311
     s.die.live = true ∧ k.ready = true ∧ (view s).groupHeld 2311 = false ∧ s.die.ecc = [] ∧ (k.xr 31).toNat % 32 = 0 ∧ (k.xr 31).toNat < 65536 ∧
     (k.queueOf (cmdEngine ((view s).readN (memAddr 2311 4 (k.xr 31).toNat) 32))).length < 32 ∧
     128 ≤ 255 ∧ (view s).flag (injectReg 2311 5) 0 = false ∧ 0 < 15 ∧ 15 < 16 ∧
     ∀ x ∈ k.scoreboard ++ k.queue.flatMap (fun q => cmdPresent q.push q.cmd),
       x.range.overlaps { space := 2, len := 1, base := 0 } = false) ∧
    (let x : SbEntry := { push := 0, space := 2, base := 0, len := 1, write := true, elastic := false }
     let s := withCore 0 fun k => { k with st := .running, x := [(1, 0), (2, 1)], scoreboard := [x] }
     let k := (view s).core 0
     k.ready = true ∧ x ∈ k.scoreboard ∧
     x.range.overlaps { space := 2, len := (k.xr 2).toNat, base := (k.xr 1).toNat } = true ∧ k.drained = false) := by
  decide +kernel

/-- A group that names virtual core 0 of site 0 alone, where it is physical core 0, as group 0, with these words of entry 0 of
the step table. -/
def withGroup (entry : Nat) (s : State) : State :=
  let s := holding groupBase (toBytes 1 1 ++ zeros 18 ++ toBytes 2 1) s
  let s : State := { s with die.regs := mapSet s.die.regs (cluReg 0 CLU_VCORE_MAP) 0 }
  holding stepTableBase (toBytes 16 entry) s

theorem witness_Arrivals :
    let s := withGroup 0x100 (withCore 0 fun k => { k with st := .running, entry := some 0 })
    s.die.live = true ∧ ((view s).core 0).ready = true ∧ (view s).groupHeld 0 = false ∧ s.die.ecc = [] ∧
    ((view s).core 0).entry = some 0 ∧ ((view s).members 0).contains 0 = true ∧
    ∀ x ∈ (view s).die.fences, x.id ≠ 63 := by decide +kernel

theorem witness_ControlCoreFetches :
    (let s := holding (memAddr 0 4 65532) (toBytes 4 (31 * 2 ^ 15 + 0x0B)) (withCore 0 fun k => { k with st := .running, pc := 65532 })
     ((view s).core 0).ready = true ∧ ((view s).core 0).pc + 4 ≤ 65536 ∧
     (view s).readN (memAddr 0 4 ((view s).core 0).pc) 4 = 31 * 2 ^ 15 + 0x0B) ∧
    (let s := holding (memAddr 0 4 0) (toBytes 4 0xFFFFFFFF) (withCore 0 fun k => { k with st := .running })
     (view s).readN (memAddr 0 4 0) 4 % 4 = 3 ∧ (decodeRv32 0xFFFFFFFF).isNone = true ∧
     (∀ p ∈ (view s).die.cores, p.2.csWait = []) ∧ ∀ p ∈ (view s).die.sites, p.2.csWait = []) := by decide +kernel

theorem witness_EachFetchWord :
    31 * 2 ^ 15 + 0x0B < 2 ^ 32 ∧ 255 * 2 ^ 24 + bit true * 2 ^ 20 + 31 * 2 ^ 15 + 2 ^ 12 + 0x0B < 2 ^ 32 ∧
    65535 * 2 ^ 16 + bit true * 2 ^ 15 + 2 * 2 ^ 12 + 0x0B < 2 ^ 32 ∧
    127 * 2 ^ 25 + 63 * 2 ^ 19 + 3 * 2 ^ 12 + 15 * 2 ^ 8 + bit true * 2 ^ 7 + 0x0B < 2 ^ 32 ∧
    15 * 2 ^ 28 + 31 * 2 ^ 20 + 31 * 2 ^ 15 + 0x2B < 2 ^ 32 ∧
    bit true * 2 ^ 28 + bit true * 2 ^ 27 + bit true * 2 ^ 26 + 63 * 2 ^ 20 + 2 ^ 12 + 0x2B < 2 ^ 32 ∧
    bit true * 2 ^ 20 + 2 * 2 ^ 12 + 31 * 2 ^ 7 + 0x2B < 2 ^ 32 ∧
    2047 * 2 ^ 20 + 31 * 2 ^ 15 + 31 * 2 ^ 7 + 0x13 < 2 ^ 32 := by decide

/-- A range word: space, length and base. -/
def rangeWord (space len base : Nat) : Nat := base + len * 2 ^ 32 + space * 2 ^ 56

/-- A command of an engine, under predicate 0, with its parameters from register 0 on. -/
def commandOf (engine opcode flags a b w : Nat) : Nat :=
  opcode + engine * 2 ^ 8 + flags * 2 ^ 24 + a * 2 ^ 64 + b * 2 ^ 128 + w * 2 ^ 192

/-- Core 0 runs, with this command at the head of its queue and these parameters. -/
def engineState (cmd : Nat) (ps : List Nat) (f : Die → Die) : State :=
  let k : Core := { Core.fresh with st := .running, queue := [{ push := 0, cmd }], pushNo := 1 }
  holding (memAddr 0 5 0) (ps.flatMap (toBytes 8)) (withDie fun d => f { d with cores := [(0, k)] })

def jobOf (cmd : Nat) (ps : List Nat) : Job := { c := 0, push := 0, cmd, ps }

/-- Range `i` of a job stays inside its space's extent. -/
def insideExtent (j : Job) (i : Nat) : Bool :=
  let r := cmdRange j.cmd i
  !r.present || decide (REMOTE < r.space) || decide (r.base + r.bytes ≤ spaceExtent (if r.space = REMOTE then j.aux 19 16 else r.space))

/-- The facts that let a job issue, but for its parameters and its ranges, part by part. -/
structure Issues (s : State) (j : Job) (e : Nat) (o : OpSpec) (eng : Engine) : Prop where
  head : headOf s j.c e o { push := j.push, cmd := j.cmd }
  words : malformedWords j.cmd = false ∧ (view s).predicate j.c j.cmd = true ∧ tileCrossed ((view s).sterling j.c) j.cmd = false ∧
    malformedParams o j.cmd j.ps = false ∧ accBeyond ((view s).sterling j.c) j.cmd = false
  shape : eng.shapeOk j (view s) = true
  free : unheld s j eng
  clean : j.c < 2312 ∧ s.die.ecc = [] ∧ s.die.writes = [] ∧ (view s).flag (injectReg j.c 0) 0 = false ∧ (view s).flag (injectReg j.c 7) 0 = false

/-- The same facts as one Boolean. -/
def issueCheck (s : State) (j : Job) (e : Nat) (o : OpSpec) (eng : Engine) : Bool :=
  let v := view s
  let k := v.core j.c
  let head := s.die.live && k.engines && !v.groupHeld j.c && k.head e == some { push := j.push, cmd := j.cmd } &&
    opSpec e (cmdOpcode j.cmd) == some o && k.arrival == none
  let words := !malformedWords j.cmd && v.predicate j.c j.cmd && !tileCrossed (v.sterling j.c) j.cmd &&
    !malformedParams o j.cmd j.ps && !accBeyond (v.sterling j.c) j.cmd
  let free := k.hazards j.push j.cmd == [] && decide (k.scoreboard.length + (cmdPresent j.push j.cmd).length ≤ 48) &&
    eng.hold j v == none && !v.tokenHeld j.c j.a && !v.tokenHeld j.c j.b
  let clean := decide (j.c < 2312) && s.die.ecc == [] && s.die.writes == [] && !v.flag (injectReg j.c 0) 0 && !v.flag (injectReg j.c 7) 0
  head && words && eng.shapeOk j v && free && clean && (List.range 3).all fun i => insideExtent j (i + 1)

theorem insideExtents_of (j : Job) (h : ((List.range 3).all fun i => insideExtent j (i + 1)) = true) : insideExtents j := by
  intro i h1 h3 hp hs
  have := List.all_eq_true.1 h (i - 1) (List.mem_range.2 (by omega))
  rw [Nat.sub_add_cancel h1] at this
  simp only [insideExtent, hp, Bool.not_true, Bool.false_or, Bool.or_eq_true, decide_eq_true_eq] at this
  omega

theorem issues_facts (s : State) (j : Job) (e : Nat) (o : OpSpec) (eng : Engine) (h : issueCheck s j e o eng = true) :
    Issues s j e o eng ∧ insideExtents j := by
  unfold issueCheck at h
  rw [Bool.and_eq_true] at h
  refine ⟨?_, insideExtents_of j h.2⟩
  have h := h.1
  simp only [Bool.and_eq_true, Bool.not_eq_true', decide_eq_true_eq, beq_iff_eq] at h
  constructor
  · unfold headOf
    tauto
  all_goals
    try unfold unheld
    tauto

/-- A job that passes the checks issues. -/
theorem issues_of (i : Instr) (s : State) (j : Job) (e : Nat) (o : OpSpec) (eng : Engine)
    (hr : engineRow i = some (j.c, e, o.opcode, eng))
    (hp : (view s).readParams j.c (cmdPbase j.cmd) o.params = (j.ps, view s)) (h : issueCheck s j e o eng = true) :
    issues i s j := by
  obtain ⟨f, hi⟩ := issues_facts s j e o eng h
  exact ⟨e, eng, o, hr, ⟨f.head, f.words.1, f.words.2.1, f.words.2.2.1, hp, f.words.2.2.2.1, f.words.2.2.2.2, rfl⟩, f.shape, f.free,
    hi, f.clean⟩

/-- The row of an opcode that the table holds. -/
def rowOf (e opcode : Nat) : OpSpec := (opSpec e opcode).getD { engine := 0, opcode := 0, params := 0 }

/-- SHAPE and BOUND words of three extents. -/
def extents (d0 d1 d2 : Nat) : Nat := d0 + d1 * 2 ^ 20 + d2 * 2 ^ 40

/-! One command of each opcode, at the edge of its operands where it has one, and the state where it issues. -/

def mzeroCmd : Nat := commandOf 0 5 1 0 0 (rangeWord ACC 512 0x70000)
def mzeroState : State := engineState mzeroCmd [0, 0] id

theorem witness_MZERO : issues (.mzero 0) mzeroState (jobOf mzeroCmd [0, 0]) :=
  issues_of _ _ _ 0 (rowOf 0 5) mzeroEngine rfl rfl (by decide +kernel)

/-- CORE_MXE_STATUS with plane 0 valid in INT8, and tile 0 integer. -/
def mxeReady (d : Die) : Die := { d with regs := [(coreReg 0 CORE_MXE_STATUS, BitVec.ofNat 64 (1 + 6 * 16 + 2 ^ 32))] }

def mmulPs : List Nat := [extents 32 64 32, extents 1 1 1, 2, 0, 0, 6]
def mmulCmd (opcode : Nat) : Nat := commandOf 0 opcode 0 (rangeWord SCRATCH 64 0) 0 (rangeWord ACC 512 0)

theorem witness_MMUL :
    issues (.mmul 0) (engineState (mmulCmd 2) mmulPs mxeReady) (jobOf (mmulCmd 2) mmulPs) ∧
    (jobOf (mmulCmd 2) mmulPs).ctl 3 0 = 6 ∧ (view (engineState (mmulCmd 2) mmulPs mxeReady)).sterling 0 = false :=
  ⟨issues_of _ _ _ 0 (rowOf 0 2) (mmulEngine false) rfl rfl (by decide +kernel), by decide +kernel, by decide +kernel⟩

theorem witness_MMULZ : issues (.mmulz 0) (engineState (mmulCmd 3) mmulPs mxeReady) (jobOf (mmulCmd 3) mmulPs) :=
  issues_of _ _ _ 0 (rowOf 0 3) (mmulEngine true) rfl rfl (by decide +kernel)

def mloadPs : List Nat := [extents 32 1 0, extents 32 1 0, 2, 0, 0, 6]
def mloadCmd (flags len : Nat) : Nat := commandOf 0 1 flags (rangeWord LODE len 0) 0 0

theorem witness_MLOAD :
    issues (.mload 0) (engineState (mloadCmd 1 2) mloadPs id) (jobOf (mloadCmd 1 2) mloadPs) ∧
    isDscale (mloadCmd 1 2) = false ∧
    issues (.mload 0) (engineState (mloadCmd 2 16) mloadPs id) (jobOf (mloadCmd 2 16) mloadPs) ∧ isDscale (mloadCmd 2 16) = true :=
  ⟨issues_of _ _ _ 0 (rowOf 0 1) mloadEngine rfl rfl (by decide +kernel), by decide +kernel,
   issues_of _ _ _ 0 (rowOf 0 1) mloadEngine rfl rfl (by decide +kernel), by decide +kernel⟩

def mdrainPs : List Nat := [extents 1 4 0, extents 1 4 0, 0, 0, 0, 8]
def mdrainCmd : Nat := commandOf 0 4 0 (rangeWord ACC 512 0) 0 (rangeWord SCRATCH 1 0)

theorem witness_MDRAIN :
    issues (.mdrain 0) (engineState mdrainCmd mdrainPs mxeReady) (jobOf mdrainCmd mdrainPs) ∧
    (jobOf mdrainCmd mdrainPs).ctl 3 0 = 8 ∧ (jobOf mdrainCmd mdrainPs).bd 0 ≤ 1 :=
  ⟨issues_of _ _ _ 0 (rowOf 0 4) mdrainEngine rfl rfl (by decide +kernel), by decide +kernel, by decide +kernel⟩

def onePs : List Nat := [extents 1 1 1, extents 1 1 1, 0, 0, 0, 0, 0]
def dcopyCmd : Nat := commandOf 2 1 0 (rangeWord SCRATCH 1 0) 0 (rangeWord SCRATCH 1 64)
def dfillCmd : Nat := commandOf 2 6 0 0 0 (rangeWord OPC 1 0)
def dindexCmd (opcode : Nat) : Nat := commandOf 2 opcode 0 (rangeWord SCRATCH 1 0) (rangeWord SCRATCH 1 16) (rangeWord SCRATCH 1 64)

theorem rowsApart_one (j : Job) (h : j.rows = [(0, 0)]) : rowsApart j := by
  intro x hx y hy hne
  rw [h, List.mem_singleton] at hx hy
  exact absurd (hx.trans hy.symm) hne

theorem witness_DCOPY_DFILL :
    (issues (.dcopy 0) (engineState dcopyCmd (onePs.take 5) id) (jobOf dcopyCmd (onePs.take 5)) ∧
      rowsApart (jobOf dcopyCmd (onePs.take 5)) ∧ (jobOf dcopyCmd (onePs.take 5)).w.overlaps (jobOf dcopyCmd (onePs.take 5)).a = false) ∧
    (issues (.dfill 0) (engineState dfillCmd (onePs.take 6) id) (jobOf dfillCmd (onePs.take 6)) ∧
      rowsApart (jobOf dfillCmd (onePs.take 6))) :=
  ⟨⟨issues_of _ _ _ 2 (rowOf 2 1) _ rfl rfl (by decide +kernel), rowsApart_one _ (by decide +kernel), by decide +kernel⟩,
   ⟨issues_of _ _ _ 2 (rowOf 2 6) _ rfl rfl (by decide +kernel), rowsApart_one _ (by decide +kernel)⟩⟩

theorem witness_DGATHER_DSCATTER :
    (issues (.dgather 0) (engineState (dindexCmd 2) onePs id) (jobOf (dindexCmd 2) onePs) ∧ (jobOf (dindexCmd 2) onePs).bd 1 ≤ 1 ∧
      (jobOf (dindexCmd 2) onePs).overlapping = false) ∧
    (issues (.dscatter 0) (engineState (dindexCmd 3) onePs id) (jobOf (dindexCmd 3) onePs) ∧ 0 < (jobOf (dindexCmd 3) onePs).bd 2 ∧
      (jobOf (dindexCmd 3) onePs).overlapping = false) :=
  ⟨⟨issues_of _ _ _ 2 (rowOf 2 2) _ rfl rfl (by decide +kernel), by decide +kernel⟩,
   ⟨issues_of _ _ _ 2 (rowOf 2 3) _ rfl rfl (by decide +kernel), by decide +kernel⟩⟩

/-- The spare site of row 0 is in column 1, so that site 0 serves. -/
def sitesServe (d : Die) : Die := { d with regs := [(SHAFT_GRID_SIG, 1)] }
def remotePs : List Nat := [extents 1 1 1, extents 1 1 1, 0, 0, 0, 0, SCRATCH * 2 ^ 16]
def remoteCmd (opcode flags : Nat) : Nat := commandOf 2 opcode flags (rangeWord SCRATCH 1 0) 0 (rangeWord REMOTE 1 (spaceExtent SCRATCH - 16))

theorem witness_DSEND_DHALO :
    issues (.dsend 0) (engineState (remoteCmd 4 1) remotePs sitesServe) (jobOf (remoteCmd 4 1) remotePs) ∧
    issues (.dhalo 0) (engineState (remoteCmd 5 0) remotePs sitesServe) (jobOf (remoteCmd 5 0) remotePs) :=
  ⟨issues_of _ _ _ 2 (rowOf 2 4) _ rfl rfl (by decide +kernel), issues_of _ _ _ 2 (rowOf 2 5) _ rfl rfl (by decide +kernel)⟩

def windowPs (w : Nat) : List Nat := [0, 0, 0, 0, 0, 0, w]
def dhostrdCmd : Nat := commandOf 2 7 0 (rangeWord HOSTWIN 1 0) 0 (rangeWord SCRATCH 1 0)
def dhostwrCmd : Nat := commandOf 2 8 0 (rangeWord SCRATCH 1 0) 0 (rangeWord HOSTWIN 1 0)
def grantOne (d : Die) : Die :=
  { d with fmn := { d.fmn with windows := [(1, { dieReads := true, dieWrites := false, base := 0, size := 16 })] } }

/-- A scatter whose one index, 5, names no row. -/
def scatterNowhere : State := holding (memAddr 0 1 16) (toBytes 4 5) (engineState (dindexCmd 3) onePs id)

theorem witness_ScatterNowhere :
    issues (.dscatter 0) scatterNowhere (jobOf (dindexCmd 3) onePs) ∧ (jobOf (dindexCmd 3) onePs).bd 1 = 1 ∧
    (jobOf (dindexCmd 3) onePs).bd 2 ≤ signed (ofBytes (bytesIn (view scatterNowhere) 0 SCRATCH (jobOf (dindexCmd 3) onePs).b.base 4)) 32 :=
  ⟨issues_of _ _ _ 2 (rowOf 2 3) _ rfl rfl (by decide +kernel), by decide +kernel, by decide +kernel⟩

def grantWrites (d : Die) : Die :=
  { d with fmn := { d.fmn with windows := [(1, { dieReads := false, dieWrites := true, base := 0, size := 16 })] } }

/-- Host-window commands of no bytes, whose ranges are absent. -/
def emptyWindowCmd (opcode : Nat) : Nat := commandOf 2 opcode 0 0 0 0

theorem witness_EmptyWindows :
    (issues (.dhostrd 0) (engineState (emptyWindowCmd 7) (windowPs 62) id) (jobOf (emptyWindowCmd 7) (windowPs 62)) ∧
      (jobOf (emptyWindowCmd 7) (windowPs 62)).a.present = false) ∧
    (issues (.dhostwr 0) (engineState (emptyWindowCmd 8) (windowPs 62) id) (jobOf (emptyWindowCmd 8) (windowPs 62)) ∧
      (jobOf (emptyWindowCmd 8) (windowPs 62)).w.present = false) :=
  ⟨⟨issues_of _ _ _ 2 (rowOf 2 7) _ rfl rfl (by decide +kernel), by decide +kernel⟩,
   ⟨issues_of _ _ _ 2 (rowOf 2 8) _ rfl rfl (by decide +kernel), by decide +kernel⟩⟩

theorem witness_HostWindows :
    (issues (.dhostrd 0) (engineState dhostrdCmd (windowPs 62) id) (jobOf dhostrdCmd (windowPs 62)) ∧
      (view (engineState dhostrdCmd (windowPs 62) id)).hostWindow 62 false = none ∧
      (jobOf dhostrdCmd (windowPs 62)).a.present = true) ∧
    (issues (.dhostrd 0) (engineState dhostrdCmd (windowPs 1) grantOne) (jobOf dhostrdCmd (windowPs 1)) ∧
      (view (engineState dhostrdCmd (windowPs 1) grantOne)).hostWindow 1 false = some (false, 0, 16) ∧
      (jobOf dhostrdCmd (windowPs 1)).a.base + (jobOf dhostrdCmd (windowPs 1)).a.bytes ≤ 16) ∧
    (issues (.dhostwr 0) (engineState dhostwrCmd (windowPs 1) grantOne) (jobOf dhostwrCmd (windowPs 1)) ∧
      (view (engineState dhostwrCmd (windowPs 1) grantOne)).hostWindow 1 true = none ∧
      (jobOf dhostwrCmd (windowPs 1)).w.present = true) ∧
    (issues (.dhostwr 0) (engineState dhostwrCmd (windowPs 1) grantWrites) (jobOf dhostwrCmd (windowPs 1)) ∧
      (view (engineState dhostwrCmd (windowPs 1) grantWrites)).hostWindow 1 true = some (false, 0, 16) ∧
      (jobOf dhostwrCmd (windowPs 1)).w.base + (jobOf dhostwrCmd (windowPs 1)).w.bytes ≤ 16) :=
  ⟨⟨issues_of _ _ _ 2 (rowOf 2 7) _ rfl rfl (by decide +kernel), by decide +kernel, by decide +kernel⟩,
   ⟨issues_of _ _ _ 2 (rowOf 2 7) _ rfl rfl (by decide +kernel), by decide +kernel, by decide +kernel⟩,
   ⟨issues_of _ _ _ 2 (rowOf 2 8) _ rfl rfl (by decide +kernel), by decide +kernel, by decide +kernel⟩,
   ⟨issues_of _ _ _ 2 (rowOf 2 8) _ rfl rfl (by decide +kernel), by decide +kernel, by decide +kernel⟩⟩

def dputCmd : Nat := commandOf 2 9 0 (rangeWord SCRATCH 1 0) 0 (rangeWord FABWIN 1 0)
def drecvCmd : Nat := commandOf 2 10 0 0 0 (rangeWord SCRATCH 1 0)

/-- Port 15 is ACTIVE and leads to module 5. -/
def routeTo5 (d : Die) : Die :=
  { d with regs := [(portReg 15 RYS_PORT_STATUS, 4), (portReg 15 RYS_PORT_CTRL, 1), (RYS_ROUTE + 8 * 5, BitVec.ofNat 64 (2 ^ 31 + 15))] }

theorem witness_Puts :
    (issues (.dput 0) (engineState dputCmd (windowPs 4095) id) (jobOf dputCmd (windowPs 4095)) ∧
      (jobOf dputCmd (windowPs 4095)).aux 31 16 = (view (engineState dputCmd (windowPs 4095) id)).moduleId) ∧
    (issues (.dput 0) (engineState dputCmd (windowPs (5 * 2 ^ 16)) routeTo5) (jobOf dputCmd (windowPs (5 * 2 ^ 16))) ∧
      (jobOf dputCmd (windowPs (5 * 2 ^ 16))).aux 31 16 = 5 ∧ (view (engineState dputCmd [] routeTo5)).moduleId ≠ 5 ∧
      (view (engineState dputCmd [] routeTo5)).nextHops 5 ≠ []) ∧
    (issues (.drecv 0) (engineState drecvCmd (windowPs 4095) id) (jobOf drecvCmd (windowPs 4095)) ∧
      (∀ e ∈ (view (engineState drecvCmd (windowPs 4095) id)).die.earlyPuts, e.window ≠ 4095) ∧
      (jobOf drecvCmd (windowPs 4095)).w.present = true) :=
  ⟨⟨issues_of _ _ _ 2 (rowOf 2 9) _ rfl rfl (by decide +kernel), by decide +kernel⟩,
   ⟨issues_of _ _ _ 2 (rowOf 2 9) _ rfl rfl (by decide +kernel), by decide +kernel, by decide +kernel, by decide +kernel⟩,
   ⟨issues_of _ _ _ 2 (rowOf 2 10) _ rfl rfl (by decide +kernel), by decide +kernel, by decide +kernel⟩⟩

/-- BF16 pages of 16 tokens, one head of 64. -/
def qappendPs : List Nat := [extents 64 1 1, extents 0 0 1, 1 * 2 ^ 32, 0, 0, 0x4055, 0]
def qappendCmd : Nat := commandOf 3 2 0 (rangeWord SCRATCH 9 0) (rangeWord SCRATCH 8 256) 0
def qattendPs : List Nat := [extents 64 1 1, extents 0 0 1, 0, 0, 18, 0x4155, 0]
def qattendCmd : Nat := commandOf 3 1 0 (rangeWord SCRATCH 8 0) (rangeWord SCRATCH 1 256) (rangeWord SCRATCH 576 512)

theorem witness_SeamCommands :
    issues (.qattend 0) (engineState qattendCmd qattendPs id) (jobOf qattendCmd qattendPs) ∧
    issues (.qappend 0) (engineState qappendCmd qappendPs id) (jobOf qappendCmd qappendPs) :=
  ⟨issues_of _ _ _ 3 (rowOf 3 1) _ rfl rfl (by decide +kernel), issues_of _ _ _ 3 (rowOf 3 2) _ rfl rfl (by decide +kernel)⟩

def stableCmd : Nat := commandOf 1 3 0 (rangeWord SCRATCH 32 0) 0 0
def sdescCmd : Nat := commandOf 1 2 0 (rangeWord SCRATCH 4 0) 0 0
def sdescPs : List Nat := [extents 1 0 0, 0, 0, 0, 0, 63]

theorem witness_SmelterTables :
    issues (.stable 0) (engineState stableCmd (windowPs 0 |>.take 6) id) (jobOf stableCmd (windowPs 0 |>.take 6)) ∧
    issues (.sdesc 0) (engineState sdescCmd sdescPs id) (jobOf sdescCmd sdescPs) ∧ (jobOf sdescCmd sdescPs).flags % 2 = 0 :=
  ⟨issues_of _ _ _ 1 (rowOf 1 3) _ rfl rfl (by decide +kernel), issues_of _ _ _ 1 (rowOf 1 2) _ rfl rfl (by decide +kernel),
   by decide +kernel⟩

/-- SCHAIN through entry 0, one ICVT stage from INT32 to FP32, on a row of four elements. -/
def schainCmd : Nat := commandOf 1 1 0 (rangeWord SCRATCH 1 0) 0 (rangeWord SCRATCH 1 64)
def schainPs : List Nat := [extents 4 1 0, extents 4 1 0, 0, 0, 0, 0x7007, 0]
def schainState : State :=
  holding (memAddr 0 6 0) (toBytes 48 (17 * 2 ^ 27) ++ toBytes 16 1)
    (engineState schainCmd schainPs fun d => { d with regs := [(coreReg 0 CORE_SML_DESC_VALID, 1)] })

theorem witness_SCHAIN :
    issues (.schain 0) schainState (jobOf schainCmd schainPs) ∧
    (let j := jobOf schainCmd schainPs
     let g : Stage := { type := sICVT, mode := 0, ysel := 0, zsel := 0, rest := 0, arg := 0 }
     j.bd 1 = 1 ∧ descStages ((view schainState).desc j.c j.desc) = [g] ∧ j.afmt = 7 ∧ j.wfmt = 7 ∧ j.a.space ≠ ACC ∧
     j.ctl 16 16 = 0 ∧ j.ctl 17 17 = 0 ∧ j.sinkOnly = false) :=
  ⟨issues_of _ _ _ 1 (rowOf 1 1) _ rfl rfl (by decide +kernel), by decide +kernel⟩

def sfallCmd : Nat := commandOf 1 4 0 0 0 0
def sfallReady (valid : Bool) : State :=
  let s := engineState sfallCmd [0, 0, 0, 0, 0, 255, 0] id
  let s : State := { s with die := ((view s).updCore 0 fun k => { k with fallValid := [(255, valid)] }).die }
  holding (memAddr 0 6 (storeOff + 8 * 255)) (toBytes 8 (0x1C * 2 ^ 58)) s

theorem witness_SFALL :
    let j := jobOf sfallCmd [0, 0, 0, 0, 0, 255, 0]
    (issues (.sfall 0) (sfallReady true) j ∧ mapGetD ((view (sfallReady true)).core 0).fallValid (j.ctl 7 0) false = true ∧
      (view (sfallReady true)).readN (memAddr 0 6 (storeOff + 8 * j.ctl 7 0)) 8 / 2 ^ 58 = 0x1C) ∧
    (issues (.sfall 0) (sfallReady false) j ∧ mapGetD ((view (sfallReady false)).core 0).fallValid (j.ctl 7 0) false = false) :=
  ⟨⟨issues_of _ _ _ 1 (rowOf 1 4) _ rfl rfl (by decide +kernel), by decide +kernel, by decide +kernel⟩,
   ⟨issues_of _ _ _ 1 (rowOf 1 4) _ rfl rfl (by decide +kernel), by decide +kernel⟩⟩

theorem witness_EnginesIssue : ∃ e eng o,
    engineRow (.mzero 0) = some (0, e, o.opcode, eng) ∧ jobAt mzeroState 0 e o (jobOf mzeroCmd [0, 0]) ∧
    eng.shapeOk (jobOf mzeroCmd [0, 0]) (view mzeroState) = true ∧ unheld mzeroState (jobOf mzeroCmd [0, 0]) eng ∧
    insideExtents (jobOf mzeroCmd [0, 0]) := by
  obtain ⟨e, eng, o, h1, h2, h3, h4, h5, -⟩ := witness_MZERO
  exact ⟨e, eng, o, h1, h2, h3, h4, h5⟩

/-- Core 0 with an MZERO of this word at its head, and these other queue and scoreboard entries. -/
def headState (cmd : Nat) (others : List Queued) (board : List SbEntry) : State :=
  let k : Core := { Core.fresh with st := .running, queue := others ++ [{ push := 1, cmd }], pushNo := 2, scoreboard := board }
  withDie fun d => { d with cores := [(0, k)] }

def headHolds (cmd : Nat) (others : List Queued) (board : List SbEntry) : Prop :=
  headOf (headState cmd others board) 0 0 (rowOf 0 5) { push := 1, cmd } ∧ noneWaits (view (headState cmd others board))

def mzeroOf (len base : Nat) : Nat := commandOf 0 5 0 0 0 (rangeWord ACC len base)

theorem witness_HeadChecks_words :
    engineRow (.mzero 0) = some (0, 0, 5, mzeroEngine) ∧ (rowOf 0 5).opcode = 5 ∧
    (headHolds (mzeroOf 512 0 + 2 ^ 48) [] [] ∧ malformedWords (mzeroOf 512 0 + 2 ^ 48) = true) ∧
    (headHolds (mzeroOf 512 0 + 2 ^ 14) [] [] ∧ malformedWords (mzeroOf 512 0 + 2 ^ 14) = false ∧
      (view (headState (mzeroOf 512 0 + 2 ^ 14) [] [])).predicate 0 (mzeroOf 512 0 + 2 ^ 14) = false) ∧
    (headHolds (mzeroOf 513 0) [] [] ∧ malformedWords (mzeroOf 513 0) = false ∧
      (view (headState (mzeroOf 513 0) [] [])).predicate 0 (mzeroOf 513 0) = true ∧ tileCrossed false (mzeroOf 513 0) = true) := by
  unfold headHolds headOf noneWaits
  exact ⟨rfl, rfl, by decide +kernel, by decide +kernel, by decide +kernel⟩

/-- What an MZERO has passed before its last checks. -/
def headPasses (cmd : Nat) (others : List Queued) (board : List SbEntry) : Prop :=
  headHolds cmd others board ∧ malformedWords cmd = false ∧ (view (headState cmd others board)).predicate 0 cmd = true ∧
  tileCrossed ((view (headState cmd others board)).sterling 0) cmd = false ∧
  (view (headState cmd others board)).readParams 0 (cmdPbase cmd) 2 = ([0, 0], view (headState cmd others board))

def headJob (cmd : Nat) : Job := { c := 0, push := 1, cmd, ps := [0, 0] }

theorem witness_HeadChecks_rest :
    (headPasses (mzeroOf 512 0x80000) [] [] ∧ malformedParams (rowOf 0 5) (mzeroOf 512 0x80000) [0, 0] = false ∧
      accBeyond false (mzeroOf 512 0x80000) = true) ∧
    (headPasses (mzeroOf 511 0) [] [] ∧ accBeyond false (mzeroOf 511 0) = false ∧
      mzeroEngine.shapeOk (headJob (mzeroOf 511 0)) (view (headState (mzeroOf 511 0) [] [])) = false) ∧
    (let x : SbEntry := { push := 0, space := ACC, base := 0, len := 1, write := true, elastic := false }
     headPasses (mzeroOf 512 0) [] [x] ∧ ((view (headState (mzeroOf 512 0) [] [x])).core 0).hazards 1 (mzeroOf 512 0) ≠ []) ∧
    (let x : SbEntry := { push := 0, space := LODE, base := 0, len := 1, write := false, elastic := false }
     headPasses (mzeroOf 512 0) [] (List.replicate 48 x) ∧
       48 < (List.replicate 48 x).length + (cmdPresent 1 (mzeroOf 512 0)).length) := by
  unfold headPasses headHolds headOf noneWaits
  refine ⟨⟨⟨by decide +kernel, by decide +kernel, by decide +kernel, by decide +kernel, rfl⟩, by decide +kernel⟩,
    ⟨⟨by decide +kernel, by decide +kernel, by decide +kernel, by decide +kernel, rfl⟩, by decide +kernel⟩,
    ⟨⟨by decide +kernel, by decide +kernel, by decide +kernel, by decide +kernel, rfl⟩, by decide +kernel⟩,
    ⟨⟨by decide +kernel, by decide +kernel, by decide +kernel, by decide +kernel, rfl⟩, by decide +kernel⟩⟩

theorem witness_HeadChecks_params :
    let cmd := mmulCmd 2
    let s := engineState cmd [15 * 2 ^ 60, 0, 0, 0, 0, 0] id
    engineRow (.mmul 0) = some (0, 0, 2, mmulEngine false) ∧ headOf s 0 0 (rowOf 0 2) { push := 0, cmd } ∧
    malformedWords cmd = false ∧ (view s).predicate 0 cmd = true ∧ tileCrossed ((view s).sterling 0) cmd = false ∧
    (view s).readParams 0 (cmdPbase cmd) (rowOf 0 2).params = ([15 * 2 ^ 60, 0, 0, 0, 0, 0], view s) ∧
    malformedParams (rowOf 0 2) cmd [15 * 2 ^ 60, 0, 0, 0, 0, 0] = true := by
  unfold headOf
  exact ⟨rfl, by decide +kernel, by decide +kernel, by decide +kernel, by decide +kernel, rfl, by decide +kernel⟩

/-- Core 0 of group 0 waits on a drained arrival at fence 63 in entry 0. -/
def arrivalState (ending : Bool) (fences : List Fence) (budget : Nat) : State :=
  let a : Arrival := { fence := 63, blocking := true, ending, effective := !fences.isEmpty }
  let s := withGroup (63 * 2 ^ 40 + 0x100 + budget * 2 ^ 96) (withCore 0 fun k => { k with st := .running, entry := some 0, arrival := some a })
  { s with die.fences := fences, die.step := some someStep }

def fence63 (arrived : List Nat) (withheld : Bool) : Fence := { id := 63, entry := 0, arrived, lastCycle := 0, withheld }

theorem witness_FencesRelease :
    (let s := arrivalState false [] 0
     s.die.live = true ∧ noneWaits (view s) ∧ ((view s).core 0).st = .running ∧ ((view s).core 0).drained = true ∧
     ((view s).core 0).arrival = some { fence := 63, blocking := true, ending := false, effective := false } ∧
     ((view s).core 0).older = [] ∧ ((view s).core 0).entry = some 0 ∧
     ((view s).members 0).contains 0 = true ∧ ∀ x ∈ (view s).die.fences, x.id ≠ 63) ∧
    (view (engineState mzeroCmd [] id)).core 0 ≠ Core.fresh ∧ ((view (engineState mzeroCmd [] id)).core 0).drained = false ∧
    (∀ b : Bool, let f := fence63 (if b then [0] else []) b
     let s := arrivalState false [f] 0
     (view s).die.fences.find? (fun y => y.id = f.id) = some f ∧ (view s).die.step = some someStep ∧
     (view s).members 0 = [0] ∧ (∀ p ∈ someStep.entries, p.2 = .waiting → False) ∧
     ((∃ c ∈ [0], c ∉ f.arrived) ∨ f.withheld = true)) ∧
    (let s := arrivalState false [fence63 [0] false] 0
     (view s).members 0 = [0] ∧ ((view s).core 0).endsAt 63 = false ∧ (view s).groupHeld 0 = false) ∧
    (let b : Beat := { id := 1, source := 1, push := 0, no := 0, dest := 0, memory := 1, granules := [], token := false, travel := 0, land := 0,
                       atEject := false, inRouter := false, late := true }
     let s := arrivalState false [fence63 [0] false] 0
     (view { s with die.beats := [b] }).groupHeld 0 = true ∧ (view { s with die.beats := [b] }).members 0 = [0]) ∧
    (let s := arrivalState true [fence63 [0] false] 0
     (view s).members 0 = [0] ∧ ((view s).core 0).endsAt 63 = true ∧ (view s).groupHeld 0 = false ∧ ((view s).entry 0).endFence = 63 ∧
       ((view s).entry 0).budget = 0) ∧
    (let s := arrivalState true [fence63 [0] false] (2 ^ 32 - 1)
     ((view s).entry 0).endFence = 63 ∧ ((view s).entry 0).budget = 2 ^ 32 - 1) := by
  unfold noneWaits
  refine ⟨by decide +kernel, by decide +kernel, by decide +kernel, by decide +kernel, by decide +kernel, by decide +kernel,
    by decide +kernel, by decide +kernel⟩

theorem witness_FenceLatency : 0 < 0 + Config.fenceLatency ∧ 0 + Config.fenceLatency ≤ 2 ^ 32 - 1 := by
  unfold Config.fenceLatency; split <;> decide

/-- A blocking arrival at fence 63 that has taken effect. -/
def heldAt63 : Arrival := { fence := 63, blocking := true, ending := false, effective := true }

/-- Core 2311 runs with this flight. -/
def flying (f : Flight) : State := withCore 2311 fun k => { k with st := .running, flights := [f] }
def flightOf (cmd : Nat) (fault : Bool) : Flight := { push := 9, cmd, params := [], fault, owed := [] }

theorem witness_CommandsAndWaitsEnd :
    (∀ b : Bool, let s := flying (flightOf mzeroCmd b)
     s.die.live = true ∧ noneWaits (view s) ∧ s.die.ecc = [] ∧ ((view s).core 2311).engines = true ∧
     (view s).groupHeld 2311 = false ∧ s.die.writes = [] ∧ 2311 < 2312 ∧
     ((view s).core 2311).flights.find? (fun x => x.push = 9) = some (flightOf mzeroCmd b) ∧ cmdElastic mzeroCmd = false) ∧
    (let b : Beat := { id := 1, source := 1, push := 0, no := 0, dest := 2311, memory := 1, granules := [], token := false, travel := 0,
                       land := 0, atEject := false, inRouter := false, late := true }
     let s := flying (flightOf mzeroCmd false)
     (view { s with die.beats := [b] }).groupHeld 2311 = true ∧
       ((view { s with die.beats := [b] }).core 2311).flights.find? (fun x => x.push = 9) = some (flightOf mzeroCmd false)) ∧
    (let s := flying (flightOf drecvCmd false)
     ((view s).core 2311).flights.find? (fun x => x.push = 9) = some (flightOf drecvCmd false) ∧ cmdElastic drecvCmd = true) ∧
    (let s := withCore 0 fun k => { k with st := .running, arrival := some heldAt63,
                                           waits := [(4, { elastic := false, since := 0 })] }
     ((view s).core 0).oldestWait = some (4, { elastic := false, since := 0 })) ∧
    (let wff := drecvCmd + 2 ^ 15
     let s := withCore 0 fun k => { k with st := .running, queue := [{ push := 0, cmd := wff }],
                                           arrival := some heldAt63, waits := [(2, { elastic := false, since := 0 })] }
     ((view s).core 0).oldestWait = some (2, { elastic := false, since := 0 }) ∧
       ((view s).core 0).head 2 = some { push := 0, cmd := wff }) ∧
    (let s := withGroup 0x100 (withDie fun d => { d with step := some { someStep with entries := [(0, .waiting)] } })
     mapGet [(0, EntryPhase.waiting)] 0 = some .waiting ∧ (view s).members 0 = [0] ∧ noneWaits (view s)) ∧
    (let s := withDie fun d => { d with cores := [(0, { Core.fresh with st := .faulted })],
                                        regs := [(coreReg 0 CORE_SCHED_FAULT, 1#64 <<< 63)] }
     (view s).flag (coreReg 0 CORE_SCHED_FAULT) 63 = true ∧ ((view s).core 0).st = .faulted ∧ noneWaits (view s)) ∧
    ((view State.reset).flag (coreReg 0 CORE_SCHED_FAULT) 63 = false ∧ (view State.reset).flag (injectReg 0 5) 0 = false ∧
      ((view (withCore 0 fun k => { k with st := .retired })).core 0).st = .retired ∧
      ((view State.reset).core 0).st ≠ .running) := by
  unfold noneWaits
  refine ⟨by decide +kernel, by decide +kernel, by decide +kernel, by decide +kernel, by decide +kernel, by decide +kernel, by decide +kernel, by decide +kernel⟩

/-! ### The fallback mode, beats and core memories -/

theorem witness_BeatsLand :
    (let b : Beat := { id := 1, source := 0, push := 0, no := 0, dest := 2311, memory := 1, granules := [(0x7FFF0, zeros 16)], token := false,
                       travel := 0, land := 0, atEject := false, inRouter := false, late := false }
     let at16 : State := withDie fun d => { d with beats := b :: (List.range 16).map fun i => { b with id := i + 2, atEject := true } }
     let one := fun x : Beat => withDie fun d => { d with beats := [x] }
     let waiting := fun s : State => (s.die.beats.filter fun x => x.atEject && x.dest / 17 == b.dest / 17).length
     at16.die.live = true ∧ at16.die.ecc = [] ∧ (view at16).die.beats.find? (fun x => x.id = 1) = some b ∧ 16 ≤ waiting at16 ∧
     waiting (one b) < 16 ∧ ((view (one b)).core b.dest).flights = [] ∧ (view (one b)).die.writes = [] ∧
     b.granules = [(0x7FFF0, zeros 16)] ∧ 0x7FFF0 + 16 ≤ spaceExtent SCRATCH ∧ (view (one b)).flag (injectReg b.dest 0) 0 = false ∧
     (view (one { b with inRouter := true })).die.beats.find? (fun x => x.id = 1) = some { b with inRouter := true } ∧
     (view (one { b with atEject := true })).die.beats.find? (fun x => x.id = 1) = some { b with atEject := true } ∧
     (let s := withDie fun d => { d with step := some someStep, beats := [{ b with atEject := true }] }
      (view s).die.step ≠ none ∧ (view s).awaited { b with atEject := true } = false) ∧
     (let w : Beat := { b with id := 2, inRouter := true }
      let s := withDie fun d => { d with beats := [{ b with atEject := true }, w] }
      ((view s).die.beats.filter fun x => x.id != b.id).find? (fun x => x.inRouter && x.dest / 17 == b.dest / 17) = some w)) := by
  decide +kernel

/-- Core 0 runs this SFALL, whose ranges are these. -/
def sfallOver (a w : Nat) (f : Fallback → Fallback) : State :=
  withCore 0 fun k => { k with st := .running, fall := f { k.fall with running := true },
                               flights := [{ push := 0, cmd := commandOf 1 4 0 a 0 w, params := [], fault := false, owed := [] }] }

theorem witness_FallbackLanes : enginesRun State.reset 2311 ∧ 2 ≤ 2 ∧ 2 < 3 ∧ 5 ≤ 5 ∧ 5 < 6 := by
  unfold enginesRun
  decide +kernel

theorem witness_FallbackControl :
    (let s := sfallOver (rangeWord SCRATCH 17 0) (rangeWord SCRATCH 16 (0x80000 - 256)) fun f => { f with ac := [(3, 1)] }
     let v := view s
     enginesRun s 0 ∧ s.die.ecc = [] ∧ fallInside (v.fallRange 0 1) (mapGetD (v.core 0).fall.ac 3 0 + (0 : Nat)) = true ∧
     fallInside (v.fallRange 0 1) (mapGetD (v.core 0).fall.ac 3 0 + (1 : Nat)) = false ∧ (v.fallRange 0 1).space ≠ ACC ∧
     fallInside (v.fallRange 0 3) (mapGetD (v.core 0).fall.ac 0 0 + (0 : Nat)) = true ∧ (v.fallRange 0 3).space = SCRATCH ∧
     (v.fallRange 0 3).base + 16 * (0 : Int).toNat + 256 ≤ spaceExtent SCRATCH ∧ v.flag (injectReg 0 0) 0 = false ∧
     fallInside (v.fallRange 0 3) (mapGetD (v.core 0).fall.ac 0 0 + (1 : Nat)) = false ∧
     (v.fallJob 0).isSome = true ∧ s.die.writes = [] ∧ v.tokenHeld 0 { space := SCRATCH, len := 16, base := 16 } = false ∧
     v.fallRange 0 1 = { space := SCRATCH, len := 17, base := 0 }) ∧
    (let b : Beat := { id := 1, source := 1, push := 0, no := 0, dest := 0, memory := 1, granules := [(16, zeros 16)], token := true,
                       travel := 0, land := 0, atEject := false, inRouter := false, late := false }
     let s := sfallOver (rangeWord SCRATCH 17 0) 0 fun f => { f with ac := [(3, 1)] }
     (view { s with die.beats := [b], die.regs := [(coreReg 0 CORE_CTRL, 2)] }).tokenHeld 0 { space := SCRATCH, len := 16, base := 16 } = true ∧
     (view { s with die.beats := [b] }).fallRange 0 1 = { space := SCRATCH, len := 17, base := 0 }) ∧
    (let l : FallLoop := { start := 1, stop := 3, left := 1 }
     let four := sfallOver 0 0 fun f => { f with loops := List.replicate 4 l }
     4 ≤ ((view four).core 0).fall.loops.length ∧
     ∀ n ∈ [1, 2], let s := sfallOver 0 0 fun f => { f with index := 2, loops := [{ l with left := n }] }
       ((view s).core 0).fall.loops = [{ l with left := n }] ∧ ((view s).core 0).fall.index + 1 = 3) := by
  unfold enginesRun
  decide +kernel

/-- Site 0 with core 0 running. -/
def runningCore : State := withCore 0 fun k => { k with st := .running }

theorem witness_CoreMemoryAccesses :
    (State.reset.die.live = true ∧ State.reset.die.ecc = [] ∧ ((view State.reset).core 2311).st ≠ .retired ∧
      accessOk 8 (memLocal 1 + 0x7FFF8) = true ∧ localMemory (memLocal 1 + 0x7FFF8) = some (1, 0x7FFF8) ∧
      accessPermitted .foreman 1 true = true ∧ unitRests (view State.reset) 2311 1 = true ∧
      (view State.reset).flag (injectReg 2311 1) 0 = false ∧ Memory.wf State.reset.mem = true) ∧
    (unitRests (view runningCore) 0 1 = false ∧ unitRests (view runningCore) 16 7 = false ∧
      accessPermitted .headframe 7 false = true ∧ localMemory (memLocal 7) = some (7, 0)) ∧
    (accessPermitted .headframe 1 true = false ∧ accessPermitted .foreman 2 true = false) ∧
    (localMemory 0x1FFFFF = some (0, 0x1FFFFF) ∧ State.reset.die.step = none ∧
      (withDie fun d => { d with step := some someStep }).die.step ≠ none ∧ State.reset.die.fmn.assay.unit = none ∧
      accessPermitted .foreman 0 true = true) ∧
    (((view (withCore 0 fun k => { k with st := .retired })).core 0).st = .retired ∧ accessOk 3 0 = false ∧ accessOk 4 2 = false ∧
      accessOk 1 0xFFFFFFFF = true ∧ localMemory 0xFFFFFFFF = none) := by decide +kernel

/-- One flip pattern at the last granule of core 0's scratch memory. -/
def flipped (mask : Nat) : State := withDie fun d => { d with ecc := [(memAddr 0 1 0x7FFF0, mask)] }

/-- One flipped bit in the first granule of core 0's operand cache, whose row waits for write-back. -/
def rowQueued : State :=
  withDie fun d => { d with ecc := [(memAddr 0 3 0, 1)],
                            cores := [(0, { Core.fresh with writeBack := [(bankKey 3 (bankOf 3 false 0), 0)] })] }

theorem witness_Corrected :
    (let s := flipped 1
     let v := view s
     s.die.live = true ∧ (v.core 0).st = .idle ∧ accessOk 8 (memLocal 1 + 0x7FFF8) = true ∧
     localMemory (memLocal 1 + 0x7FFF8) = some (1, 0x7FFF8) ∧ v.flipsIn 1 (memAddr 0 1 0x7FFF8) 8 = [(memAddr 0 1 0x7FFF0, 1)] ∧
     eccJudge 1 (memAddr 0 1 0x7FFF0) 1 = .corrected 0 0xFF 0 ∧ v.queuedRow 0 1 (bankOf 1 (v.sterling 0) 0x7FFF0) = none) ∧
    (eccJudge 1 (memAddr 0 1 0x7FFF0) 3 = .uncorrectable ∧
      (view (flipped 3)).flipsIn 1 (memAddr 0 1 0x7FFF8) 8 = [(memAddr 0 1 0x7FFF0, 3)]) ∧
    (let v := view rowQueued
     v.queuedRow 0 3 (bankOf 3 false 0) = some 0 ∧ v.flipsIn 3 (memAddr 0 3 0) 64 = [(memAddr 0 3 0, 1)] ∧
       eccJudge 3 (memAddr 0 3 0) 1 = .corrected 0 0xFF 0) ∧
    (Machine.fld 0x6C1 11 8 < 7 ∧ Machine.fld 0x6C1 7 6 ≠ 0 ∧ (0x6C1#64).getLsbD 0 = true) ∧
    (let s := withRegs [(injectReg 0 1, 0x141)]
     (view s).flag (injectReg 0 0) 0 = true ∧ (view s).fld (injectReg 0 0) 11 8 = 1 ∧ (view s).fld (injectReg 0 0) 7 6 = 1) := by
  unfold eccJudge
  decide +kernel

/-- Core 0 at its last scrub slot before a Lode slot, with these accesses waiting for Lode. -/
def scrubbing (phase : Nat) (waiting : List CsAccess) (job : Option LodeJob) (back : NMap Nat) : State :=
  withCore 0 fun k => { k with slotAt := phase, csWait := if waiting.isEmpty then [] else [(0, waiting)],
                               lodeJob := job, writeBack := back,
                               scrub := [(bankKey 0 0, { row := bankRows 0 0 - 2, wrapped := false })] }

theorem witness_Scrubbed :
    (let s := scrubbing 1 [] none []
     let phase := (((view s).core 0).slotAt + ((view s).core 0).slotAt % 2) % 64
     ((view s).core 0).lodeJob = none ∧ (view s).groupHeld 0 = false ∧ mapGetD ((view s).scrubPtrs 0 0) (bankKey 0 0) { row := 0, wrapped := false } = { row := bankRows 0 0 - 2, wrapped := false } ∧
     bankRows 0 0 - 2 + 1 < bankRows 0 0 ∧ phase % 4 = 2 ∧ phase / 4 = 0 ∧ (view s).queuedRow 0 0 0 = none ∧
     mapGetD ((view s).core 0).csWait 0 [] = []) ∧
    (let a : CsAccess := { requester := .foreman, offset := 0, width := 8, write := false, data := [] }
     let s := scrubbing 2 [a] none []
     (view s).queuedRow 0 0 0 = none ∧ mapGetD ((view s).core 0).csWait 0 [] = [a] ∧ bankOf 0 ((view s).sterling 0) a.offset = 0) ∧
    (let j : LodeJob := { manifest := 0, shard := 0, rows := [(0, zeros 64)] }
     let s := scrubbing 2 [] (some j) []
     ((view s).core 0).lodeJob = some j ∧ (j.rows.find? fun x => bankOf 0 ((view s).sterling 0) x.1 == 0) = some (0, zeros 64) ∧
     s.die.fmn.assay.unit = none ∧ (view s).flag (injectReg 0 0) 0 = false ∧ (view s).queuedRow 0 0 0 = none) ∧
    (let s := scrubbing 2 [] none [(bankKey 0 0, 64)]
     (view s).queuedRow 0 0 0 = some 64) ∧
    (let b : Beat := { id := 1, source := 1, push := 0, no := 0, dest := 0, memory := 1, granules := [], token := false, travel := 0,
                       land := 0, atEject := false, inRouter := false, late := true }
     (view (withDie fun d => { d with beats := [b] })).groupHeld 0 = true) ∧
    (mapGetD ((view State.reset).scrubPtrs 2311 7) (bankKey 7 31) { row := 0, wrapped := false } = { row := 0, wrapped := false } ∧
      0 + 1 < bankRows 7 31 ∧ 31 < bankCount 7 ∧ bankCount 3 ≤ 8) := by decide +kernel

theorem witness_SparesReplace :
    (let a := cluReg 0 CLU_SPARE_STATUS
     State.reset.die.step = none ∧ State.reset.die.fmn.tableCores = [] ∧ State.reset.die.fmn.tableLoad = none ∧
     State.reset.die.fmn.unitWaits = [] ∧ State.reset.die.fmn.models = [] ∧ ((view State.reset).site 0).sparePending = none ∧ ((view State.reset).site 0).spareLatched = none ∧
     (let s := withRegs [(a, 0x100), (cluReg 0 CLU_VCORE_MAP, 0)]
      (view s).fld a 8 4 ≠ 0x1F ∧ (view s).virtualOf 0 < 16 ∧ (view s).flag a 9 = false) ∧
     (let s := withRegs [(a, BitVec.ofNat 64 (0x1F0 + 2 ^ 25))]
      (view s).fld a 8 4 = 0x1F ∧ (view s).flag a (9 + 16) = true) ∧
     (let s := withRegs [(a, 0x300)]
      (view s).fld a 8 4 ≠ 0x1F ∧ (view s).flag a 9 = true)) ∧
    (let s := withDie fun d => { d with step := some someStep }
     s.die.step ≠ none ∧ ((view s).site 0).sparePending = none) ∧
    (let value := BitVec.ofNat 64 (2 ^ 28 + 6 * 2 ^ 24 + 2 * 2 ^ 16)
     value.getLsbD 28 = true ∧ Machine.fld value 27 24 = 6 ∧ Machine.fld value 20 16 = 2 ∧ Machine.fld value 11 0 = 0 ∧ 2 < bankCount 6 ∧
     0 < bankRows 6 2 ∧ spareRows 6 = 2 ∧
     (bankCount 6 ≤ 3 ∨ bankRows 6 3 ≤ 0)) := by decide +kernel

/-- A row that the configuration record has not repaired has its spares, and two repairs in the field use them up. -/
theorem witness_SpareRows :
    (recordRepairs 0 6 2 = 0 → (view State.reset).repairsIn 0 6 2 < spareRows 6) ∧
    spareRows 6 ≤ (view (withCore 0 fun k => { k with repaired := [(6, 2, 0), (6, 2, 1)] })).repairsIn 0 6 2 :=
  ⟨fun h => by
      have : (view State.reset).repairsIn 0 6 2 = recordRepairs 0 6 2 + 0 := rfl
      rw [this, h]; decide,
   Nat.le_add_left 2 (recordRepairs 0 6 2)⟩

/-! ### Assay and state memory -/

/-- A shard of site 0's virtual core 0, verified and staged in frame 0. -/
def shardOf (header digest : Bytes) : Shard :=
  { site := 0, vcore := 0, length := 0, digest, verified := true, header, frame := some 0, order := 0, requested := none, attempts := 0,
    source := 0, lost := false, landed := [], asked := [], written := true }

def manifestWith (use : ManifestUse) (shards : List Shard) : Manifest :=
  { id := 0, use, model := 0, split := false, epoch := 1, role := 0, halfReg := 0, gridSig := 0, imageBytes := 0,
    programDigest := [], digest := [], shards, half := 0 }

/-- Assay is on, and may be at a unit with this many rows read; these shards run. -/
def assaying (unit : Option Nat) (gone : Bool) (taken : Nat) (shards : List Shard) : State :=
  withDie fun d => { d with
    regs := [(cluReg 0 CLU_VCORE_MAP, 0), (FMN_ASSAY_CTRL, 1)]
    fmn := { d.fmn with manifests := [manifestWith .running shards]
                        assay := { unit, taken, data := [], abandoned := gone, next := 0, started := none, lastGood := [] } } }

theorem slice_tail (d : Bytes) (h : d.length = 32) : slice (zeros 64 ++ d) 64 32 = d := by
  have h1 : (zeros 64 ++ d).drop 64 = d := by simp [zeros]
  simp [slice, h1, List.take_of_length_le (Nat.le_of_eq h), h]

theorem witness_AssayChecksLode :
    (let v := view (assaying none false 0 [shardOf [] []])
     v.flag FMN_ASSAY_CTRL 0 = true ∧ v.die.fmn.assay.unit = none ∧ nextUnit v.assayUnits 0 = some 0) ∧
    (view (withRegs [(FMN_ASSAY_CTRL, 0)])).flag FMN_ASSAY_CTRL 0 = false ∧
    ((assaying (some 31) true 0 []).die.fmn.assay.unit = some 31 ∧ (assaying (some 31) true 0 []).die.fmn.assay.abandoned = true) ∧
    (let s := assaying (some 31) false 1023 []
     let s : State := { s with die.cores := [(0, { Core.fresh with
       slotAt := 62, scrub := [(bankKey 0 15, { row := 2047, wrapped := false })] })] }
     let v := view s
     s.die.fmn.assay.unit = some 31 ∧ s.die.fmn.assay.taken = 1023 ∧ 1023 < unitRows ∧ s.die.ecc = [] ∧
     (v.groupHeld 0 = false ∧ ((v.core 0).slotAt + (v.core 0).slotAt % 2) % 64 = 62) ∧ 62 % 4 = 2 ∧ 62 / 4 = 31 % 16 ∧
     v.queuedRow 0 0 15 = none ∧ mapGetD (v.core 0).csWait 0 [] = [] ∧ (v.core 0).lodeJob = none ∧
     mapGetD (v.scrubPtrs 0 0) (bankKey 0 15) { row := 0, wrapped := false } = { row := 2047, wrapped := false } ∧
     2047 = 31 / 16 % 2 * unitRows + 1023) ∧
    (let h := shardOf [] []
     let v := view (assaying (some 0) false 1024 [h])
     unitRows ≤ v.die.fmn.assay.taken ∧ v.unitShard 0 0 = some (manifestWith .running [h], 0, h)) ∧
    (State.reset.die.step = none ∧ State.reset.die.reports = [] ∧ ∀ k ∈ State.reset.die.fmn.lodeRepairs, k / 2 ≠ 0) := by
  exact ⟨by decide +kernel, by decide +kernel, by decide +kernel, by decide +kernel, by decide +kernel, by decide +kernel⟩

theorem flipped_ne (d : Bytes) (h : d.length = 32) : d.map (· ^^^ 1) ≠ d := by
  cases d with
  | nil => simp at h
  | cons x r =>
    intro e
    have : ∀ y : Byte, y ^^^ 1 ≠ y := by decide
    exact this x (List.cons.inj e).1

/-- The header of a shard gives unit 0 the digest of its rows, or another one. -/
theorem witness_AssayDigests :
    (∃ h, sm3 (assaying (some 0) false 1024 [shardOf h []]).die.fmn.assay.data =
      expectedDigest (manifestWith .running []) (shardOf h []) 0 0) ∧
    (∃ h, sm3 (assaying (some 0) false 1024 [shardOf h []]).die.fmn.assay.data ≠
      expectedDigest (manifestWith .running []) (shardOf h []) 0 0) := by
  refine ⟨⟨zeros 64 ++ sm3 [], (slice_tail _ rfl).symm⟩, ⟨zeros 64 ++ (sm3 []).map (· ^^^ 1), ?_⟩⟩
  intro e
  exact flipped_ne _ rfl ((e.trans (slice_tail _ rfl)).symm)

def repairBytes : Bytes := toBytes 4 0x33544853 ++ toBytes 2 1 ++ zeros 2 ++ toBytes 2 1 ++ zeros 1078
def repairShard : Shard := shardOf (repairBytes ++ sm3 repairBytes) (sm3 repairBytes)

theorem witness_LodeRepair :
    let s := withDie fun d => { d with regs := [(cluReg 0 CLU_VCORE_MAP, 0)]
                                       fmn := { d.fmn with manifests := [manifestWith .running [repairShard]], lodeRepairs := [0] } }
    let v := view s
    s.die.step = none ∧ s.die.reports = [] ∧ s.die.ecc = [] ∧ s.die.bursts = [] ∧ s.die.fmn.assay.unit = none ∧
    s.die.fmn.lodeRepairs = [0] ∧ s.die.fmn.manifests = [manifestWith .running [repairShard]] ∧ s.die.fmn.openLoad = none ∧
    v.flag (injectReg 0 0) 0 = false ∧ v.shardCore repairShard = 0 ∧ repairShard.frame = some 0 ∧ repairShard.verified = true ∧
    shardOk (manifestWith .running [repairShard]) 0 repairShard repairShard.header (v.payload 0 0).1 = true := by decide +kernel

/-- Stack 31 with this SEAM_STATUS and SEAM_CTRL, and this controller. -/
def stack31 (status ctrl : Nat) (f : Seam → Seam) : State :=
  withDie fun d => { d with regs := [(seamReg 31 SEAM_CTRL, BitVec.ofNat 64 ctrl), (seamReg 31 SEAM_STATUS, BitVec.ofNat 64 status)]
                            seams := [(31, f Seam.fresh)] }

theorem witness_StacksTrainAndFill :
    ((view State.reset).fld (seamReg 31 SEAM_STATUS) 39 38 < 2 ∧ State.reset.die.hdf.repairs = [] ∧ State.reset.die.hostWait = []) ∧
    (let v := view (stack31 (2 * 2 ^ 38) 0 id)
     v.fld (seamReg 31 SEAM_STATUS) 39 38 = 2 ∧ v.flag (seamReg 31 SEAM_STATUS) 40 = false ∧ v.fld (seamReg 31 SEAM_CTRL) 63 32 = 0) ∧
    (view State.reset).fld (seamReg 31 SEAM_STATUS) 39 38 ≠ 2 ∧
    (let v := view (stack31 0 (2 ^ 32) fun x => { x with patrol := patrolBursts - 2 })
     v.fld (seamReg 31 SEAM_CTRL) 63 32 ≠ 0 ∧ (v.seam 31).patrol + 1 < patrolBursts) ∧
    ((view (stack31 0 (2 ^ 32) fun x => { x with patrol := patrolBursts - 1 })).seam 31).patrol + 1 = patrolBursts ∧
    (let v := view (stack31 0 (2 ^ 32) fun x => { x with patrol := 1024 * 15 })
     v.framePage 31 ((v.seam 31).patrol / 1024 % 17) ((v.seam 31).patrol / 1024 / 17) = some 15) := by decide +kernel

/-- Stack 31 with these channel states. -/
def channels (states : Nat) (f : Seam → Seam) : State :=
  withDie fun d => { d with regs := [(seamReg 31 SEAM_CH_STATE, BitVec.ofNat 64 states)], seams := [(31, f Seam.fresh)] }

theorem witness_StateMemoryAndChannels :
    (State.reset.die.bursts = [] ∧ accessOk 8 (usablePages * pageSize - 8) = true ∧
      usablePages * pageSize - 8 < usablePages * pageSize ∧ accessOk 8 (usablePages * pageSize) = true) ∧
    ((withFmn fun f => { f with models := [(0, modelOf [])] }).die.fmn.models ≠ [] ∧ State.reset.die.fmn.models = []) ∧
    ((256 ≤ 256 ∧ 256 ≤ 16384 ∧ 6 ≤ 6 ∧ 6 + 145 ≤ 256 ∧ Machine.fld 0x60100 15 0 = 256 ∧ Machine.fld 0x60100 31 16 = 6) ∧
      (255 < 256 ∨ 16384 < 255 ∨ 6 < 6 ∨ 255 < 6 + 145)) ∧
    (let v := view (channels 0 fun x => { x with noAlloc := [1] })
     (v.seam 31).noAlloc.contains (15 / 8) = true ∧ (v.seam 31).noAlloc.contains (16 / 8) = false) ∧
    (let v := view (channels (2 ^ 32) id)
     (v.seam 31).chLatched = none ∧ (v.seam 31).copying = none ∧ (v.seam 31).returning = none ∧ v.channelState 31 0 = 0 ∧
       v.reserveChannel 31 = some 16) ∧
    (let v := view (channels (3 * 2 ^ 32) id)
     v.channelState 31 0 = 0 ∧ v.reserveChannel 31 = none ∧ v.channelState 31 16 = 3 ∧ (v.seam 31).chLatched = none ∧
       (v.seam 31).copying = none ∧ (v.seam 31).returning = none ∧ v.die.step = none ∧ v.die.fmn.unitWaits = []) ∧
    (let v := view (channels (2 ^ 32 + 2) fun x => { x with copying := some 0 })
     (v.seam 31).copying = some 0 ∧ v.reserveChannel 31 = some 16 ∧ (v.seam 31).remap = [] ∧
       (v.seam 31).reserveNext = channelFrames ∧ v.standIn 31 0 = 0 ∧ v.standIn 31 15 ≠ 0) := by decide +kernel

/-- The job at the head of stack 31's queue. -/
def seamJob (cmd : Nat) (ps : List Nat) : Job := { c := 0, push := 0, cmd, ps }

/-- A command of engine 3 at stack 31 for slot 0, whose first token is at this position. -/
def seamState (cmd : Nat) (ps : List Nat) (pos : Nat) : State :=
  let k : Core := { Core.fresh with st := .running, flights := [{ push := 0, cmd, params := ps, fault := false, owed := [31] }] }
  holding (memAddr 0 1 0) (toBytes 4 0 ++ toBytes 4 pos)
    (withDie fun d => { d with cores := [(0, k)], seams := [(31, { Seam.fresh with queue := [(0, 0)] })] })

/-- Slot 0 decodes, with this length, and stack 31 holds its root in block 0 and page 0 as its first leaf. -/
def withRoot (len : Nat) (s : State) : State :=
  let a := (view s).blockAddr 31 0
  let s := holding (tallyBase 0) (toBytes 4 3 ++ toBytes 4 len ++ toBytes 4 0) s
  let s := holding a (toBytes 4 (1 + 5 * 2 ^ 8 + 4 * 2 ^ 12 + 2 ^ 16) ++ toBytes 4 32) s
  holding (a + 128) (toBytes 4 0xFFFFFFFF ++ toBytes 4 1 ++ toBytes 4 31) s

/-- Stack 31's queue with its core's arrival token on the way to the command's list. -/
theorem witness_SeamHeld :
    let b : Beat := { id := 1, source := 1, push := 0, no := 0, dest := 0, memory := 1, granules := [(0, zeros 16)], token := true,
                      travel := 0, land := 0, atEject := false, inRouter := false, late := false }
    let s := seamState qappendCmd qappendPs 0
    let s : State := { s with die.beats := [b], die.regs := [(coreReg 0 CORE_CTRL, 2)] }
    s.die.live = true ∧ (view s).seamHead 31 2 = some (seamJob qappendCmd qappendPs) ∧
      (view s).seamHeld (seamJob qappendCmd qappendPs) = true := by decide +kernel

theorem witness_SeamServesCommands :
    (let s := seamState qappendCmd qappendPs 0
     let j := seamJob qappendCmd qappendPs
     let v := view s
     seamServes s 31 2 j ∧ (v.tokens j).1.map (·.slot) = [0] ∧ (v.geometryCheck 31 0 j.appendGeometry 1).1 = none) ∧
    (∀ len ∈ [496, 497], let s := withRoot len (seamState qappendCmd qappendPs 496)
     let j := seamJob qappendCmd qappendPs
     let v := view s
     seamServes s 31 2 j ∧ (v.tokens j).1.map (fun t => (t.slot, t.pos)) = [(0, 496)] ∧ (v.geometryCheck 31 0 j.appendGeometry 1).1 = some 0 ∧
     placement 0 j.appendGeometry.layers (496 / 2 ^ j.appendGeometry.log2) = 31 ∧ v.tLen 0 = len ∧ j.appendGeometry.fmt = 5 ∧
     ((v.leaves 31 0 j.appendGeometry.layers)[496 / 2 ^ j.appendGeometry.log2 / 32]?).map (·.page) = some 31 ∧ 31 ≠ noPage ∧
     v.rootOf 0 = some 0) := by
  unfold seamServes
  decide +kernel

theorem witness_SeamAttends :
    (let s := seamState qattendCmd qattendPs 0
     let j := seamJob qattendCmd qattendPs
     let v := view s
     seamServes s 31 1 j ∧ j.bd 2 = 1 ∧ v.rootOf 0 = none ∧ numAt (bytesIn v 0 j.b.space j.b.base 16) 0 4 % tallySlots = 0 ∧
     j.w.space = SCRATCH ∧ j.w.base + 32 * j.inner 4 ≤ 0x80000 ∧ partialBytes (j.d 0) (j.d 1) ≤ j.inner 4) := by
  unfold seamServes
  decide +kernel

/-! ### Steps -/

def composedOf (items : List BatchItem) : Composition :=
  { number := 1, attempt := 0, model := 0, epoch := 0, start := 0, items, inputs := [], patches := [], firstEntry := 0,
    entryCount := 1, heldCounted := false, errors := [] }

def runOf (period : Nat) : Run :=
  { next := 0, period, group := false, coord := false, commitBar := 0, flipBar := 0, heldCounted := false }

/-- The words of an entry that starts at once with one core, LAST and valid, and may ask for sterling. -/
def entryWord (sterling : Bool) : Nat := 0xFF * 2 ^ 48 + bit sterling * 2 ^ 10 + 0x300

/-- Every compute region at step 0. -/
def regionRegs : NMap Word := (List.range 8).map fun r => (CLK_REGION_STATUS + 8 * r, 1)

/-- A step composed, or running. -/
def composed (sterling : Bool) (c : Composition) (f : Foreman → Foreman) : State :=
  withGroup (entryWord sterling) (withDie fun d => { d with regs := (SHAFT_GRID_SIG, 1) :: regionRegs, fmn := f { d.fmn with composed := some c } })

theorem witness_StepsStart :
    (State.reset.die.live = true ∧ State.reset.die.ecc = [] ∧ State.reset.die.bursts = [] ∧ State.reset.die.fmn.flip = none ∧
      State.reset.die.reports = [] ∧ State.reset.die.step = none ∧ State.reset.die.fmn.composed = none ∧
      State.reset.die.fmn.run = none) ∧
    (let s := withDie fun d => { d with step := some someStep, fmn := { d.fmn with run := some (runOf 1) } }
     s.die.step = some someStep ∧ someStep.tables = false ∧ s.die.fmn.run = some (runOf 1) ∧ (runOf 1).period ≠ 0 ∧
     (runOf 1).heldCounted = false) ∧
    (let c := composedOf []
     let s := composed false c fun x => { x with siteRetired := true }
     s.die.fmn.composed = some c ∧ (view s).startBlocked c = true ∧ c.heldCounted = false) ∧
    (let c := composedOf []
     let s := composed true c id
     (view s).startBlocked c = false ∧ ((view s).reach c.start).accBoundary.modeDiffers c = true ∧ c.items = [] ∧ s.die.fmn.releases = []) ∧
    (let c := composedOf []
     let s := composed false c id
     (view s).startBlocked c = false ∧ ((view s).reach c.start).accBoundary.modeDiffers c = false ∧ c.attempt = 0 ∧
     c.entryCount = 1 ∧ c.patches = [] ∧ ((view s).entry 0).valid = true ∧
     ((view s).entry 0).startFence = 0xFF ∧ (view s).groupCores ((view s).entry 0).group = [0] ∧ ((view s).core 0).st = .idle) := by
  refine ⟨by decide +kernel, by decide +kernel, by decide +kernel, ?_, ?_⟩ <;> refine ⟨by decide +kernel, ?_⟩ <;> decide +kernel

/-- Core 0 waits for its tables before a step, with one model loaded, or runs the table-load entry. -/
theorem witness_TablesRun :
    (let c := composedOf []
     let s := composed false c fun x => { x with tableCores := [0], models := [(0, modelOf [])] }
     s.die.step = none ∧ s.die.fmn.composed = some c ∧ (view s).startBlocked c = false ∧ c.heldCounted = false ∧
     s.die.fmn.tableCores = [0] ∧ ((view s).core 0).st = .idle ∧ s.die.fmn.models = [(0, modelOf [])]) ∧
    (let c := composedOf []
     let s := composed false c id
     let t : Step := { someStep with tables := true, entries := [(0, .released)] }
     let s : State := { s with die.step := some t }
     s.die.step = some t ∧ t.tables = true ∧ t.schedFault = false ∧ t.error = false ∧ s.die.fmn.composed = some c ∧
     (view s).computeDone = true) ∧
    (let t : Step := { someStep with tables := true }
     let s : State := { composed false (composedOf []) id with die.step := some t }
     (view s).computeDone = false) := by
  refine ⟨by decide +kernel, by decide +kernel, by decide +kernel⟩

/-- RUN has been given for a model with one class. -/
def running (f : Foreman → Foreman) : State :=
  withFmn fun x => f { x with run := some (runOf 1), models := [(0, modelOf [{ decode := 1, prefill := 0, first := 0, count := 1 }])] }

/-- The last slot decodes. -/
def decoding (s : State) : State := holding (tallyBase (tallySlots - 1)) (toBytes 1 3) s

theorem witness_StepsCompose :
    (let s := running id
     s.die.step = none ∧ s.die.fmn.composed = none ∧ s.die.fmn.siteRetired = false ∧
     (∀ p ∈ s.die.fmn.models, (view s).sitesLack p.2 = false ∧ p.2.stopped = false) ∧ s.die.fmn.drain = none ∧
     (view s).slotsInUse = [] ∧ coveringClass [{ decode := 1, prefill := 0, first := 0, count := 1 }] 0 0 =
       some { decode := 1, prefill := 0, first := 0, count := 1 }) ∧
    (let s := decoding (running id)
     (view s).slotsInUse = [tallySlots - 1] ∧ (view s).maySchedule 0 (tallySlots - 1) = true ∧ (view s).tState (tallySlots - 1) = tDECODE ∧
     ((view s).unread (tallySlots - 1)).1 ≤ ringEligible ∧ (view s).estimate (tallySlots - 1) ≤ 32 * s.die.fmn.seamBudget ∧
     coveringClass [{ decode := 1, prefill := 0, first := 0, count := 1 }] 1 0 =
       some { decode := 1, prefill := 0, first := 0, count := 1 }) := by decide +kernel

/-- A step that runs, in a group or not, with its composition. -/
def stepping (phase : EntryPhase) (f : Step → Step) (c : Composition) (ctrl : Nat) (g : Die → Die) : State :=
  let s := composed false c id
  { s with die := g { s.die with step := some (f { someStep with entries := [(0, phase)] })
                                 regs := mapSet s.die.regs CMT_CTRL (BitVec.ofNat 64 ctrl) } }

def oneItem : BatchItem :=
  { slot := 0, kind := 0, spec := 0, pos := 0, count := 1, root := 0, seed := 0, inIndex := 0, tenant := 0 }

theorem witness_StepsEnd :
    (let s := stepping .running id (composedOf []) 0 id
     s.die.live = true ∧ quiet (view s) ∧ s.die.fmn.peerLost = none ∧ (view s).computeDone = false ∧
     someStep.tables = false ∧ s.die.fmn.composed = some (composedOf [])) ∧
    (let s := stepping .released id (composedOf []) 0 id
     quiet (view s) ∧ (view s).computeDone = true ∧ (view s).flag CMT_CTRL 0 = false) ∧
    (let s := stepping .released id (composedOf [oneItem]) 0 id
     let s := holding (tallyBase 0) (toBytes 44 3 ++ toBytes 4 3 ++ zeros 4 ++ toBytes 4 0xFFFFFFFF) s
     let v := view s
     quiet v ∧ (v.recordEntries (composedOf [oneItem])).1.all (fun (b, r) => b.kind == 0 && decide (b.slot < tallySlots) &&
       v.tState b.slot == tDECODE && !v.resultInvalid b r && !v.tFlag b.slot fFAULT && !v.tFlag b.slot fCANCEL &&
       v.tally b.slot oDEADLINE 6 == 0 && !(v.posted b r).contains (v.tally b.slot oSTOP 4) &&
       decide (b.pos + 1 + (v.posted b r).length < v.tally b.slot oMAX_LEN 4)) = true ∧
     (v.recordEntries (composedOf [oneItem])).1.length = 1) ∧
    (∀ n ∈ [2, 3], let s := stepping .released (fun t => { t with error := true, attempt := n }) (composedOf []) 0 fun d =>
       { d with regs := mapSet d.regs FMN_ERR_CTRL 0 }
     quiet (view s) ∧ (view s).flag FMN_ERR_CTRL 0 = false) ∧
    (let s := stepping .released id (composedOf []) 1 id
     quiet (view s) ∧ (view s).computeDone = true ∧ (view s).flag CMT_CTRL 0 = true ∧ (view s).barValid (view s).commitBar = false) ∧
    (let s := stepping .released (fun t => { t with groupAt := some 0 }) (composedOf []) 1 id
     quiet (view s) ∧ ((view s).bar (view s).commitBar).own = false ∧ (view s).grouped = false ∧ ((view s).bar 0).release = none) ∧
    (let s := stepping .released (fun t => { t with groupAt := some 0 }) (composedOf []) 1 fun d =>
       { d with barriers := [(0, { Barrier.fresh with own := true, release := some (0, 0, 0) })] }
     quiet (view s) ∧ (view s).commitBar < 256 ∧ (view s).flag CMT_CTRL 0 = true ∧ ((view s).bar (view s).commitBar).early = [] ∧
       ((view s).bar (view s).commitBar).ownEarly = none ∧ ((view s).bar (view s).commitBar).nextRelease = none ∧
       (view s).copyStale = false ∧ ((view s).bar (view s).commitBar).release = some (0, 0, 0)) ∧
    (let s := withDie fun d => { d with servo := { d.servo with staleCopies := [14] } }
     (view s).copyStale = true) := by
  unfold quiet
  refine ⟨by decide +kernel, by decide +kernel, by decide +kernel, by decide +kernel, by decide +kernel, by decide +kernel, by decide +kernel,
    by decide +kernel⟩

/-- A step left open by the loss of a peer in generation 9 of the commit barrier. -/
def leftOpen : State := composed false (composedOf []) fun x => { x with peerLost := some 9 }

theorem quiet_leftOpen : quiet (view leftOpen) := by
  unfold quiet
  decide +kernel

theorem witness_OpenStepResolves :
    ∀ n ∈ [0, 1], ∀ g ∈ [8, 9],
    let body := msgBody (makeMessage tyFOREMAN 1 0 0 0 [] ([2, 0, BitVec.ofNat 8 g, 0, 0, 0, BitVec.ofNat 8 n] ++ zeros 9))
    quiet (view leftOpen) ∧ leftOpen.die.live = true ∧ leftOpen.die.step = none ∧ leftOpen.die.fmn.composed = some (composedOf []) ∧
    leftOpen.die.fmn.peerLost = some 9 ∧ byteAt body 0 = 2 ∧ byteAt body 1 = (view leftOpen).commitBar ∧ numAt body 2 2 = g ∧
    byteAt body 6 = n := by
  intro n hn g hg
  refine ⟨quiet_leftOpen, ?_⟩
  revert g hg n hn
  decide +kernel

/-- A module in a group with a faulted step that waits for the group's decision. -/
def undecided : State :=
  let s := composed false (composedOf []) id
  { s with die.regs := mapSet (mapSet s.die.regs CMT_CTRL 1) (barReg 0) (1#64 <<< 63) }

theorem quiet_undecided : quiet (view undecided) := by
  unfold quiet
  decide +kernel

theorem witness_DecisionActs :
    ∀ n ∈ [0, 1],
    let body := msgBody (makeMessage tyFOREMAN 1 0 0 0 [] ([4, 0, 0, 0, 0, 0, BitVec.ofNat 8 n, 0] ++ toBytes 8 1))
    quiet (view undecided) ∧ undecided.die.live = true ∧ undecided.die.step = none ∧
    undecided.die.fmn.composed = some (composedOf []) ∧ undecided.die.fmn.peerLost = none ∧ (view undecided).grouped = true ∧
    byteAt body 0 = 4 ∧ byteAt body 1 = (view undecided).commitBar ∧ numAt body 8 8 = (composedOf []).number ∧
    byteAt body 6 = n ∧ (view undecided).limitRepair (composedOf []) = none := by
  intro n hn
  refine ⟨quiet_undecided, ?_⟩
  revert n hn
  decide +kernel

/-! ### Requests, parking and shipping -/

/-- Ring 63 holds one entry of these bytes at the top of its index range. -/
def ringWith (entry : Bytes) (s : State) : State :=
  let g : Ring := { base := 0, k := 12, consumer := 2 ^ 32 - 1, producer := 0, stopped := false, closing := none }
  let s : State := { s with die.fmn.rings := [(63, g)] }
  holding (carveAddr (g.entry g.consumer)) entry s

def ring63 : Ring := { base := 0, k := 12, consumer := 2 ^ 32 - 1, producer := 0, stopped := false, closing := none }
def entry63 : Nat := ring63.entry ring63.consumer

/-- An entry's opcode and slot, and its arguments from byte 8 on. -/
def entryBytes (opcode slot : Nat) (args : Bytes) : Bytes := toBytes 4 opcode ++ toBytes 4 slot ++ args

def ringReady (opcode : Nat) (s : State) : Prop := ringHolds s 63 opcode ring63

/-- A slot in this state, with a page-less root in block 0. -/
def slotIn (slot st : Nat) (s : State) : State := holding (tallyBase slot) (toBytes 8 st ++ toBytes 4 0) s

def lastSlot : Nat := tallySlots - 1

theorem witness_RequestCommands :
    (let s := slotIn lastSlot tDECODE (ringWith (entryBytes 2 lastSlot []) State.reset)
     ringReady 2 s ∧ (view s).entryClean entry63 [] = true ∧ (view s).entrySlot entry63 = lastSlot ∧ (view s).tState lastSlot = tDECODE ∧
     (view s).inBatch lastSlot = false ∧ mapGet (view s).die.parkJobs lastSlot = none) ∧
    (∀ op ∈ [2, 5], let s := slotIn lastSlot tDECODE (ringWith (entryBytes op lastSlot []) (withDie fun d => { d with step := some { someStep with slots := [lastSlot] } }))
     ringReady op s ∧ (view s).entryClean entry63 [] = true ∧ (view s).entrySlot entry63 = lastSlot ∧ (view s).inBatch lastSlot = true ∧
     (view s).tState lastSlot = tDECODE) ∧
    (∀ st ∈ [7, 11], let s := slotIn lastSlot st (ringWith (entryBytes 5 lastSlot []) State.reset)
     ringReady 5 s ∧ (view s).entryClean entry63 [] = true ∧ (view s).inBatch lastSlot = false ∧ (view s).tState lastSlot = st) ∧
    (let s := slotIn lastSlot tDONE (ringWith (entryBytes 6 lastSlot (toBytes 4 1 ++ toBytes 4 100 ++ toBytes 8 0)) State.reset)
     ringReady 6 s ∧ (view s).entryClean entry63 [(8, 16)] = true ∧ (view s).tState lastSlot = tDONE ∧ (view s).extendRefused lastSlot = false ∧
     promptCheck ((view s).carveN (entry63 + 8) 4) ((view s).carveN (entry63 + 16) 8) = none) ∧
    (let s := slotIn lastSlot tPREFILL (ringWith (entryBytes 8 lastSlot (toBytes 2 0xFFFF)) State.reset)
     ringReady 8 s ∧ (view s).entryClean entry63 [(8, 2)] = true ∧ (view s).tState lastSlot = tPREFILL) ∧
    (let s := slotIn lastSlot tQUEUED (ringWith (entryBytes 9 lastSlot []) State.reset)
     ringReady 9 s ∧ (view s).entryClean entry63 [] = true ∧ (view s).tState lastSlot ≠ tFREE) ∧
    (∀ st ∈ [tDECODE, tQUEUED], let s := slotIn lastSlot st (ringWith (entryBytes 3 lastSlot (toBytes 4 0)) State.reset)
     ringReady 3 s ∧ (view s).entryClean entry63 [(8, 4)] = true ∧ (view s).tState lastSlot = st ∧
     (view s).planFits ((view s).parkPlan lastSlot ((view s).tRoot lastSlot / 32) (geometryOf ((view s).requestWord lastSlot)))
       (parkedPages (geometryOf ((view s).requestWord lastSlot))) (fun _ => 0) = true) ∧
    (∀ t ∈ [0, 1], let s := slotIn lastSlot tPARKED (ringWith (entryBytes 4 lastSlot [])
       (withDie fun d => { d with parked := [(lastSlot, { expiry := some t, layers := [] })] }))
     ringReady 4 s ∧ (view s).entryClean entry63 [] = true ∧ (view s).tState lastSlot = tPARKED ∧ (view s).die.ft = 0 ∧
     mapGet (view s).die.parked lastSlot = some { expiry := some t, layers := [] } ∧
     (view s).planFits [] (fun x => x.indices.length) (fun x => chainBlocks (resumeEntries x) -
       ((view s).chain x.stack ((view s).tRoot lastSlot / 32) x.layer).length) = true) := by
  unfold ringReady ringHolds
  refine ⟨by decide +kernel, by decide +kernel, by decide +kernel, by decide +kernel, by decide +kernel, by decide +kernel,
    by decide +kernel, by decide +kernel⟩

/-- The last slot is in the batch of the running step: its SHIP waits, and its QUERY returns the entry as it was before. -/
theorem witness_InBatch :
    let b : BatchItem := { slot := lastSlot, kind := 0, spec := 0, pos := 0, count := 1, root := 0, seed := 0, inIndex := 0, tenant := 0 }
    let c : Composition := { composedOf [b] with before := [(lastSlot, zeros 64)] }
    (let s := slotIn lastSlot tDECODE (ringWith (entryBytes 8 lastSlot (toBytes 2 7)) (withFmn fun f => { f with composed := some c }))
     ringReady 8 s ∧ (view s).entryClean entry63 [(8, 2)] = true ∧ (view s).inBatch lastSlot = true) ∧
    (let s := slotIn lastSlot tDECODE (ringWith (entryBytes 9 lastSlot []) (withFmn fun f => { f with composed := some c }))
     ringReady 9 s ∧ (view s).entryClean entry63 [] = true ∧ (view s).tState lastSlot ≠ tFREE ∧ (view s).inBatch lastSlot = true ∧
     (view s).die.fmn.composed = some c ∧ mapGet c.before lastSlot = some (zeros 64) ∧ (zeros 64).length = 64) := by
  unfold ringReady ringHolds
  exact ⟨by decide +kernel, by decide +kernel⟩

/-- A module with model 5, and a SUBMIT for it. -/
def submitting : State :=
  ringWith (toBytes 3 1 ++ toBytes 1 5 ++ zeros 40 ++ toBytes 4 1 ++ toBytes 8 16) (withFmn fun f => { f with models := [(5, modelOf [])] })

theorem witness_Submit :
    (let v := view submitting
     ringReady 1 submitting ∧ v.submitClean entry63 = true ∧ promptCheck (v.carveN (entry63 + 44) 4) (v.carveN (entry63 + 48) 8) = none ∧
     (mapGet v.die.fmn.models (v.carveN (entry63 + 3) 1)).isSome = true ∧ v.slotsInUse = [] ∧
     ((v.countTurn 63).count FMN_RING_ENTRY_CNT).slotsInUse = []) ∧
    (let s := slotIn lastSlot tINCOMPLETE (ringWith (entryBytes 7 lastSlot (toBytes 4 1 ++ zeros 4 ++ toBytes 8 16)) State.reset)
     let v := view s
     ringReady 7 s ∧ v.entryClean entry63 [(8, 4), (16, 8)] = true ∧ v.tState lastSlot = tINCOMPLETE ∧
     promptCheck (v.carveN (entry63 + 8) 4) (v.carveN (entry63 + 16) 8) = none) := by
  unfold ringReady ringHolds
  exact ⟨by decide +kernel, by decide +kernel⟩

theorem freeSlot_empty (m : M) (h : m.slotsInUse = []) : ∃ q, m.freeSlot = (some q, m.spend) ∧ q < tallySlots := by
  refine ⟨0 + (m.freeValue % tallySlots + 0) % tallySlots, ?_, ?_⟩
  · simp [M.freeSlot, h, M.pick, show tallySlots ≠ 0 by decide]
  · simpa using Nat.mod_lt _ (show 0 < tallySlots by decide)

theorem allocRoot_empty (m : M) (slot word : Nat) (h : ((List.range seamStacks).flatMap fun s => (m.seam s).blocks.map (·.1)) = [])
    (hb : m.blockCount 0 ≠ 0) : ∃ root w, m.allocRoot slot word = (some root, w) := by
  simp [M.allocRoot, h, M.pick, hb]

theorem witness_SubmitSlot : ∃ q root w1 w2,
    (((view submitting).countTurn 63).count FMN_RING_ENTRY_CNT).freeSlot = (some q, w1) ∧
    w1.allocRoot q (Config.rootGeometry 5).toNat = (some root, w2) ∧ q < tallySlots := by
  obtain ⟨q, h1, h2⟩ := freeSlot_empty (((view submitting).countTurn 63).count FMN_RING_ENTRY_CNT) (by decide +kernel)
  obtain ⟨root, w, h3⟩ := allocRoot_empty (((view submitting).countTurn 63).count FMN_RING_ENTRY_CNT).spend q
    (Config.rootGeometry 5).toNat (by decide +kernel) (by decide +kernel)
  exact ⟨q, root, _, w, h1, h3, h2⟩

/-! ### Tally, ships and loads -/

/-- A flipped bit in the entry of the last slot is corrected. -/
theorem witness_TallyCorrected :
    let a := tallyBase lastSlot + 56
    let s := withDie fun d => { d with ecc := [(a, 1)] }
    s.die.ecc = [(a, 1)] ∧ a < tallyBase lastSlot + 56 + 8 ∧ tallyBase lastSlot + 56 < a + granuleSize 8 ∧
      eccJudge 8 a 1 = .corrected 0 0xFF 0 ∧ ((withDie fun d => { d with ecc := [] }).die.ecc = []) := by
  unfold eccJudge
  decide +kernel

theorem witness_TallyAndParking :
    State.reset.die.live = true ∧ State.reset.die.bursts = [] ∧ tallySlots - 1 < tallySlots ∧ 56 < 64 ∧ 56 % 8 = 0 ∧ (60 % 8 ≠ 0 ∨ 2 ≠ 8) ∧
    mapGet (view State.reset).die.parkJobs lastSlot = none ∧
    (∀ b : Bool, mapGet (withDie fun d => { d with parkJobs := [(lastSlot, { resume := b, ring := 0, entry := 0, layers := [] })] }).die.parkJobs
      lastSlot = some { resume := b, ring := 0, entry := 0, layers := [] }) ∧
    (∀ st ∈ [tPARKED, tDECODE], let s := slotIn lastSlot st (withDie fun d => { d with parked := [(lastSlot, { expiry := some 0, layers := [] })] })
     mapGet (view s).die.parked lastSlot = some { expiry := some 0, layers := [] } ∧ (view s).tState lastSlot = st) := by decide +kernel

def shipOutOf (offered : Bool) (accepted : Option Nat) : ShipOut :=
  { number := 0, dest := 7, offered, accepted, timeoutMs := 1, cancel := false }
def shippingOut (x : ShipOut) : State := slotIn lastSlot tSHIP_OUT (withFmn fun f => { f with shipsOut := [(lastSlot, x)] })

/-- A SHIP_CTL message from module 7 about the shipment of the last slot of this module, whose id is 0. -/
def shipCtl (op id : Nat) (body : Bytes) : Bytes := makeMessage tySHIP_CTL 1 0 7 0 (shipTs op id) body

theorem witness_ShipmentsLeave :
    mapGet State.reset.die.fmn.shipsOut lastSlot = none ∧ (view State.reset).shipOutOf (shipCtl 2 0 []) = none ∧
    (let x := shipOutOf false none
     mapGet (shippingOut x).die.fmn.shipsOut lastSlot = some x ∧ (view (shippingOut x)).shipsOffered < shipLimit) ∧
    (∀ a ∈ [none, some 0], let x := shipOutOf true a
     let s := shippingOut x
     let msg := shipCtl 2 ((view s).moduleId + 2 ^ 16 * lastSlot) []
     mapGet s.die.fmn.shipsOut lastSlot = some x ∧ (view s).shipOutOf msg = some (lastSlot, x)) := by decide +kernel

/-- A shipment of 4 pages, of which these have arrived, that goes into page 9 of stack 0 as index 0 of layer 0. -/
def shipInOf (arrived : List Nat) (asked : NMap (Nat × Nat)) : ShipIn :=
  { id := 1, source := 7, offer := [], total := 2, firstLayer := 0, acceptedAt := 0, timeoutMs := 1, arrived, asked, lastSeen := true,
    pages := [(0, 0, 0, 9)] }
def adopting (x : ShipIn) : State := slotIn lastSlot tADOPTING (withFmn fun f => { f with shipsIn := [(lastSlot, x)] })

theorem witness_ShipmentsArrive :
    (view State.reset).adopts 7 = false ∧ (∀ p ∈ State.reset.die.fmn.shipsIn, p.2.id ≠ 1) ∧
    (∀ x ∈ [shipInOf [] [], shipInOf [1] [], shipInOf [0] []], let s := adopting x
     s.die.fmn.shipsIn.find? (fun p => p.2.id == 1) = some (lastSlot, x) ∧ 0 < x.total ∧ x.reserved 0 0 = some (0, 0, 0, 9) ∧
       (view s).tally lastSlot oEPOCH 2 = 0) ∧
    (shipInOf [0] []).arrived.contains 0 = true ∧ (shipInOf [1] []).arrived.contains 0 = false ∧ 0 < (shipInOf [] []).total ∧
    (shipInOf [] [(0, 15, 5)]).askedFor = [(0, 15, 5)] ∧ (shipInOf [] [(0, 0, 5)]).askedFor = [(0, 0, 5)] ∧
    (shipInOf [] []).askedFor = [] ∧ (view State.reset).fld TALLY_SHIP_CTRL 35 32 ≤ 15 ∧
    0 < (view State.reset).fld TALLY_SHIP_CTRL 35 32 ∧
    (let v := view (adopting (shipInOf [] []))
     (v.tally lastSlot oEPOCH 2 = 0 ∧ (view (withRegs [(FMN_WT_STATUS, 0)])).runEpoch = 0) ∧
     ∀ k ∈ (v.tRoot lastSlot / 32) :: v.chain 0 (v.tRoot lastSlot / 32) 0,
       v.blockAddr 0 k + 128 ≤ pageAddr 0 9 ∨ pageAddr 0 9 + pageSize ≤ v.blockAddr 0 k) ∧
    ({ shipInOf [] [] with arrived := [0] } : ShipIn).missing ≠ [] ∧ ({ shipInOf [1] [] with arrived := [0, 1] } : ShipIn).missing = [] ∧
    (∀ n ∈ [0, 15], mapGet (adopting (shipInOf [] [(0, n, 5)])).die.fmn.shipsIn lastSlot = some (shipInOf [] [(0, n, 5)])) := by
  decide +kernel

theorem crcByte_lt (c : Nat) (b : Byte) (h : c < 2 ^ 32) : crcByteRefl 0x82F63B78 c b < 2 ^ 32 := by
  have step : ∀ (l : List Nat) (x : Nat), x < 2 ^ 32 → l.foldl (fun c _ => if c % 2 = 1 then (c / 2) ^^^ 0x82F63B78 else c / 2) x < 2 ^ 32 := by
    intro l
    induction l with
    | nil => exact fun x h => h
    | cons _ r ih =>
      intro x h
      refine ih _ ?_
      dsimp only
      split
      · exact Nat.xor_lt_two_pow (by omega) (by decide)
      · omega
  exact step _ _ (Nat.xor_lt_two_pow h (Nat.lt_trans b.isLt (by decide)))

theorem crc32c_lt (bs : Bytes) : crc32c bs < 2 ^ 32 := by
  have : ∀ (l : Bytes) (c : Nat), c < 2 ^ 32 → l.foldl (crcByteRefl 0x82F63B78) c < 2 ^ 32 := by
    intro l
    induction l with
    | nil => exact fun c h => h
    | cons b r ih => exact fun c h => ih _ (crcByte_lt c b h)
  exact Nat.xor_lt_two_pow (this bs _ (by decide)) (by decide)

/-- A payload whose CRC checks. -/
theorem payload_checks (h d : Bytes) (hh : h.length = 60) :
    let b := h ++ toBytes 4 (crc32c (h ++ d)) ++ d
    (crc32c (slice b 0 60 ++ b.drop 64) == numAt b 60 4) = true := by
  intro b
  have h0 : slice b 0 60 = h := by
    have := slice_append_mid [] h (toBytes 4 (crc32c (h ++ d)) ++ d) 0 60 rfl hh
    simpa [b, List.append_assoc] using this
  have h1 : b.drop 64 = d := by
    simp [b, List.drop_append, hh]
  have h2 : slice b 60 4 = toBytes 4 (crc32c (h ++ d)) := slice_append_mid h _ d 60 4 hh (by simp)
  have h3 := crc32c_lt (h ++ d)
  simp only [h0, h1, numAt, h2, ofBytes_toBytes, beq_iff_eq]
  omega

/-- The payload of page `seq` of shipment 1, one of 2 pages, into index 0 of layer 0. -/
def pagePayload (seq : Nat) : Bytes := shipPayload 1 seq 2 0 0 0 [] (zeros pageSize)

/-- A message of this type from module 7 with this body. -/
def messageOf (type : Nat) (body : Bytes) : Bytes :=
  (toBytes 2 (type + 256) ++ toBytes 2 0 ++ toBytes 2 7 ++ zeros 2) ++ toBytes 4 body.length ++ zeros 20 ++ body

theorem messageOf_body (type : Nat) (body : Bytes) (h : body.length < 2 ^ 32) : msgBody (messageOf type body) = body := by
  have hn : msgLen (messageOf type body) = body.length := by
    have := slice_append_mid (toBytes 2 (type + 256) ++ toBytes 2 0 ++ toBytes 2 7 ++ zeros 2) (toBytes 4 body.length) (zeros 20 ++ body)
      8 4 (by simp) (by simp)
    rw [← List.append_assoc] at this
    simp only [msgLen, numAt, messageOf]
    rw [this, ofBytes_toBytes]
    omega
  have := slice_append_mid ((toBytes 2 (type + 256) ++ toBytes 2 0 ++ toBytes 2 7 ++ zeros 2) ++ toBytes 4 body.length ++ zeros 20) body []
    32 body.length (by simp) rfl
  rw [List.append_nil] at this
  unfold msgBody
  rw [hn]
  exact this

def pageShip (seq : Nat) : Bytes := messageOf tyPAGE_SHIP (pagePayload seq)

theorem pageShip_body (seq : Nat) : slice (msgBody (pageShip seq)) 0 shipBytes = pagePayload seq := by
  unfold pageShip
  have hl : (pagePayload seq).length = shipBytes := by simp [pagePayload, shipPayload, shipBytes, pageSize]
  have hb : (pagePayload seq).length < 2 ^ 32 := hl ▸ (by decide : shipBytes < 2 ^ 32)
  generalize pagePayload seq = b at *
  have hm : msgBody (messageOf tyPAGE_SHIP b) = b := messageOf_body tyPAGE_SHIP b hb
  have := slice_append_mid [] b [] 0 shipBytes rfl hl
  rw [hm]
  simpa using this

theorem witness_PageShip (seq : Nat) :
    let b := slice (msgBody (pageShip seq)) 0 shipBytes
    (crc32c (slice b 0 60 ++ b.drop 64) == numAt b 60 4) = true ∧ numAt b 0 8 = 1 ∧ (seq < 2 ^ 32 → numAt b 8 4 = seq) := by
  rw [pageShip_body]
  refine ⟨payload_checks _ _ (by simp), ?_, ?_⟩
  · simp only [pagePayload, shipPayload, List.append_assoc, numAt]
    rw [← List.nil_append (toBytes 8 1 ++ _), ← List.append_assoc, slice_append_mid [] (toBytes 8 1) _ 0 8 rfl (by simp), ofBytes_toBytes]
    decide
  · intro h
    simp only [pagePayload, shipPayload, List.append_assoc, numAt]
    rw [← List.append_assoc, slice_append_mid (toBytes 8 1) (toBytes 4 seq) _ 8 4 (by simp) (by simp), ofBytes_toBytes]
    omega

/-- A page whose CRC fails: the stored one is one more. -/
def badPayload (seq : Nat) : Bytes :=
  let h := toBytes 8 1 ++ toBytes 4 seq ++ zeros 48
  h ++ toBytes 4 ((crc32c (h ++ zeros pageSize) + 1) % 2 ^ 32) ++ zeros pageSize

theorem badPayload_fields (seq : Nat) (hs : seq < 2 ^ 32) :
    let b := badPayload seq
    b.length = shipBytes ∧ (crc32c (slice b 0 60 ++ b.drop 64) == numAt b 60 4) = false ∧ numAt b 0 8 = 1 ∧ numAt b 8 4 = seq := by
  have hb : badPayload seq = (toBytes 8 1 ++ toBytes 4 seq ++ zeros 48) ++
      toBytes 4 ((crc32c ((toBytes 8 1 ++ toBytes 4 seq ++ zeros 48) ++ zeros pageSize) + 1) % 2 ^ 32) ++ zeros pageSize := rfl
  have n0 : numAt (badPayload seq) 0 8 = 1 := by
    have := slice_append_mid [] (toBytes 8 1) (toBytes 4 seq ++ zeros 48 ++
      (toBytes 4 ((crc32c ((toBytes 8 1 ++ toBytes 4 seq ++ zeros 48) ++ zeros pageSize) + 1) % 2 ^ 32) ++ zeros pageSize)) 0 8 rfl (by simp)
    simp only [numAt, hb]
    simp only [List.append_assoc, List.nil_append] at this ⊢
    rw [this, ofBytes_toBytes]
    decide
  have n8 : numAt (badPayload seq) 8 4 = seq := by
    have := slice_append_mid (toBytes 8 1) (toBytes 4 seq) (zeros 48 ++
      (toBytes 4 ((crc32c ((toBytes 8 1 ++ toBytes 4 seq ++ zeros 48) ++ zeros pageSize) + 1) % 2 ^ 32) ++ zeros pageSize)) 8 4 (by simp) (by simp)
    simp only [numAt, hb]
    simp only [List.append_assoc] at this ⊢
    rw [this, ofBytes_toBytes]
    omega
  refine ⟨by simp [badPayload, shipBytes, pageSize], ?_, n0, n8⟩
  have hh : (toBytes 8 1 ++ toBytes 4 seq ++ zeros 48).length = 60 := by simp
  rw [hb]
  generalize toBytes 8 1 ++ toBytes 4 seq ++ zeros 48 = h at hh
  generalize zeros pageSize = d
  have h0 : slice (h ++ toBytes 4 ((crc32c (h ++ d) + 1) % 2 ^ 32) ++ d) 0 60 = h := by
    have := slice_append_mid [] h (toBytes 4 ((crc32c (h ++ d) + 1) % 2 ^ 32) ++ d) 0 60 rfl hh
    simpa [List.append_assoc] using this
  have h1 : (h ++ toBytes 4 ((crc32c (h ++ d) + 1) % 2 ^ 32) ++ d).drop 64 = d := by simp [List.drop_append, hh]
  have h2 : slice (h ++ toBytes 4 ((crc32c (h ++ d) + 1) % 2 ^ 32) ++ d) 60 4 = toBytes 4 ((crc32c (h ++ d) + 1) % 2 ^ 32) :=
    slice_append_mid h _ d 60 4 hh (by simp)
  have h3 := crc32c_lt (h ++ d)
  simp only [h0, h1, numAt, h2, ofBytes_toBytes, beq_eq_false_iff_ne]
  omega

theorem witness_BadPage (seq : Nat) (hs : seq < 2 ^ 32) :
    let b := slice (msgBody (messageOf tyPAGE_SHIP (badPayload seq))) 0 shipBytes
    (crc32c (slice b 0 60 ++ b.drop 64) == numAt b 60 4) = false ∧ numAt b 0 8 = 1 ∧ numAt b 8 4 = seq := by
  obtain ⟨hl, h1, h2, h3⟩ := badPayload_fields seq hs
  have hb : (badPayload seq).length < 2 ^ 32 := hl ▸ (by decide : shipBytes < 2 ^ 32)
  have := slice_append_mid [] (badPayload seq) [] 0 shipBytes rfl hl
  rw [messageOf_body _ _ hb]
  rw [List.append_nil, List.nil_append] at this
  rw [this]
  exact ⟨h1, h2, h3⟩

/-- Shipment 1 with page 0 that came, or not: the page may be asked for again. -/
theorem witness_PageAgain :
    ∀ x ∈ [shipInOf [] [], shipInOf [0] []], (adopting x).die.fmn.shipsIn.find? (fun p => p.2.id == 1) = some (lastSlot, x) ∧
      0 < x.total ∧ (mapGetD x.asked 0 (0, 0)).1 < (view (adopting x)).fld TALLY_SHIP_CTRL 35 32 := by decide +kernel

/-- The body of an offer for model 0 with the geometry of that model, of no page. -/
def offerOf : Bytes :=
  let w := (Config.rootGeometry 0).toNat
  zeros 77 ++ toBytes 4 w ++ toBytes 1 (Config.firstLayer 0).toNat ++ toBytes 1 (geometryOf w).layers ++ zeros 4

def takingOffers : State := withFmn fun f => { f with models := [(0, modelOf [])], adopt := [(7, true)] }

theorem offer_fields :
    offerField offerOf ofROOT = (Config.rootGeometry 0).toNat ∧ offerField offerOf ofFIRST = (Config.firstLayer 0).toNat ∧
    offerField offerOf ofLAYERS = (geometryOf (Config.rootGeometry 0).toNat).layers ∧ offerField offerOf ofTOTAL = 0 ∧
    offerField offerOf ofLEN = 0 ∧ offerField offerOf ofMODEL = 0 := by
  have hw := (Config.rootGeometry 0).isLt
  have hf := (Config.firstLayer 0).isLt
  have hl : (geometryOf (Config.rootGeometry 0).toNat).layers < 256 := by simp only [geometryOf]; omega
  have field : ∀ (a b c : Bytes) (o n : Nat), offerOf = a ++ b ++ c → a.length = o → b.length = n → slice offerOf o n = b :=
    fun a b c o n h ha hb => h ▸ slice_append_mid a b c o n ha hb
  simp only [offerField, numAt]
  refine ⟨?_, ?_, ?_, ?_, ?_, ?_⟩
  · rw [field (zeros 77) (toBytes 4 (Config.rootGeometry 0).toNat) (toBytes 1 (Config.firstLayer 0).toNat ++
      (toBytes 1 (geometryOf (Config.rootGeometry 0).toNat).layers ++ zeros 4)) 77 4 (by simp only [offerOf, List.append_assoc]) (by simp) (by simp),
      ofBytes_toBytes]
    omega
  · rw [field (zeros 77 ++ toBytes 4 (Config.rootGeometry 0).toNat) (toBytes 1 (Config.firstLayer 0).toNat)
      (toBytes 1 (geometryOf (Config.rootGeometry 0).toNat).layers ++ zeros 4) 81 1
      (by simp only [offerOf, List.append_assoc]) (by simp) (by simp), ofBytes_toBytes]
    omega
  · rw [field (zeros 77 ++ toBytes 4 (Config.rootGeometry 0).toNat ++ toBytes 1 (Config.firstLayer 0).toNat)
      (toBytes 1 (geometryOf (Config.rootGeometry 0).toNat).layers) (zeros 4) 82 1 rfl (by simp) (by simp), ofBytes_toBytes]
    omega
  · rw [field (zeros 77 ++ toBytes 4 (Config.rootGeometry 0).toNat ++ toBytes 1 (Config.firstLayer 0).toNat ++
      toBytes 1 (geometryOf (Config.rootGeometry 0).toNat).layers) (zeros 4) [] 83 4 (List.append_nil _).symm (by simp) (by simp)]
    decide
  · rw [field (zeros 40) (zeros 4) (zeros 33 ++ (toBytes 4 (Config.rootGeometry 0).toNat ++ (toBytes 1 (Config.firstLayer 0).toNat ++
      (toBytes 1 (geometryOf (Config.rootGeometry 0).toNat).layers ++ zeros 4)))) 40 4
      (by simp only [offerOf, List.append_assoc]; rfl) (by simp) (by simp)]
    decide
  · rw [field (zeros 39) (zeros 1) (zeros 37 ++ (toBytes 4 (Config.rootGeometry 0).toNat ++ (toBytes 1 (Config.firstLayer 0).toNat ++
      (toBytes 1 (geometryOf (Config.rootGeometry 0).toNat).layers ++ zeros 4)))) 39 1
      (by simp only [offerOf, List.append_assoc]; rfl) (by simp) (by simp)]
    decide

theorem roomForRequest_none (m : M) (slot : Nat) (g : Geometry) (total : Nat) (h : (List.range seamStacks).all (fun s => decide (1 ≤ m.freeBlocks s)) = true) :
    m.roomForRequest slot g 0 total = true := by
  simp only [M.roomForRequest, List.all_eq_true] at *
  intro s hs
  have := h s hs
  have hz : ∀ (n : Nat) (f : Nat → Nat), f 0 = 0 → sumBy (List.replicate n 0) f = 0 := by
    intro n f hf
    unfold sumBy
    induction n with
    | zero => rfl
    | succ n ih => simpa [List.replicate_succ, hf] using ih
  have h1 := hz g.layers id rfl
  have h2 := hz g.layers chainBlocks rfl
  simp_all [stackIndices, heldIndices, M.roomFor]

theorem witness_ShipOffer :
    (let s := takingOffers
     let v := view s
     let msg := messageOf tySHIP_CTL offerOf
     msgBody msg = offerOf ∧ v.adopts 7 = true ∧ v.die.fmn.shipsIn.length < shipLimit ∧ (mapGet v.die.fmn.models 0).isSome = true ∧
     offerField offerOf ofMODEL = 0 ∧ offerMatches offerOf = true ∧
     ∃ q root w w2, v.freeSlot = (some q, w) ∧ q < tallySlots ∧
       w.roomForRequest q (geometryOf (offerField offerOf ofROOT)) (pagesPerLayer (geometryOf (offerField offerOf ofROOT))
         (offerField offerOf ofLEN)) (offerField offerOf ofTOTAL) = true ∧ w.allocRoot q (offerField offerOf ofROOT) = (some root, w2)) := by
  obtain ⟨h1, h2, h3, h4, h5, h6⟩ := offer_fields
  obtain ⟨q, hq, hlt⟩ := freeSlot_empty (view takingOffers) (by decide +kernel)
  obtain ⟨root, w2, hr⟩ := allocRoot_empty (view takingOffers).spend q (offerField offerOf ofROOT) (by decide +kernel) (by decide +kernel)
  refine ⟨messageOf_body _ _ (by simp [offerOf]), by decide +kernel, by decide +kernel, by decide +kernel, h6, ?_, q, root, _, w2, hq, hlt, ?_, hr⟩
  · simp [offerMatches, h1, h2, h3, h4, h6]
  · rw [h5]
    have : pagesPerLayer (geometryOf (offerField offerOf ofROOT)) 0 = 0 := by
      simp [pagesPerLayer, ceilDiv]
    rw [this]
    exact roomForRequest_none _ _ _ _ (by decide +kernel)

/-! ### Loads, shards and flips -/

/-- SM3 of what a build of nothing, or of programs for 128 sites, holds behind its header, of `manifestBytes`, and of `loadManifest`. -/
def programDigest (wide : Bool) : Bytes := toBytes 32 (if wide
  then 67233628257393975372017520429767143732547256889152471136644569663395581501951
  else 19750715898684122695817566777623545489528853977710176438115109912662882759194)
def manifestDigest : Bytes := toBytes 32 60897304587233219629926151214408957746054760630285104201998443456705726233730
def loadDigest (wide : Bool) : Bytes := toBytes 32 (if wide
  then 93952037906550835740570588760902834804173675127107279113289481433349120763333
  else 67121426825596116199096124518573866865819281581799043533239575448677001571145)

/-- A manifest of one shard of site 0, of epoch 2, for grid signature 1. -/
def manifestBytes : Bytes :=
  toBytes 4 0x33544D46 ++ toBytes 2 1 ++ zeros 2 ++ toBytes 2 2 ++ toBytes 2 0 ++ toBytes 2 1 ++ zeros 2 ++ toBytes 8 1 ++ zeros 104 ++ zeros 48

/-- The manifest whose program digest is that of the build. -/
def loadManifest (wide : Bool) : Bytes := manifestBytes.take 32 ++ programDigest wide ++ manifestBytes.drop 64

def buildLength (wide : Bool) : Nat := if wide then 2304 else 92

/-- A build of nothing, or of one empty program on each of 128 sites, for the part's calibration class and grid signature 1. -/
def buildBytes (wide : Bool) : Bytes :=
  toBytes 4 0x33544C42 ++ toBytes 2 1 ++ zeros 4 ++ [BitVec.ofNat 8 calClass] ++ zeros 1 ++ toBytes 8 1 ++ zeros 12 ++ programDigest wide ++
    toBytes 4 (if wide then 128 else 0) ++ zeros 12 ++ toBytes 4 (buildLength wide) ++ toBytes 4 (buildLength wide) ++
    toBytes 4 (buildLength wide) ++
    if wide then toBytes 4 256 ++ zeros 160 ++ (List.range 128).flatMap fun s => toBytes 16 s else []

/-- Registers that show every stack filled. -/
def filledRegs : NMap Word := (List.range 32).map fun k => (seamReg k SEAM_STATUS, 1#64 <<< 40)

/-- Mailbox 63 holds a load, or a preparation, of a build of `n` bytes at carve-out offset 0 and of this manifest at 4096. -/
def loadBase (n c opcode : Nat) (man digest : Bytes) (f : Foreman → Foreman) : M :=
  let args := toBytes 8 opcode ++ toBytes 8 0 ++ toBytes 8 0 ++ toBytes 8 n ++ digest ++ toBytes 8 4096 ++ toBytes 4 176
  let v := view (withFmn f)
  let regs : NMap Word := ([(SHAFT_GRID_SIG, 1), (SHAFT_CAL_STATUS, 0), (FMN_MB_BUSY, 1#64 <<< 63), (FMN_DET_BIR, setFld (setFld 0 55 48 c) 47 32 Config.tableRev.toNat)] : NMap Word) ++ filledRegs
  { die := { v.die with regs }, mem := (v.mem.write (mailboxBase 63) args).write (carveAddr 4096) man }

theorem witness_Prepare :
    let x := { modelOf [] with programDigest := zeros 32 }
    let v := loadBase 92 0 0x23 manifestBytes manifestDigest fun f => { f with models := [(0, x)] }
    let s := put State.reset v
    view s = v ∧ mbReady s 63 0x23 ∧ v.loadBusy = false ∧ v.manifestFor .preparing = none ∧ inCarve 4096 176 = true ∧
    v.mbArg 63 64 8 = 4096 ∧ v.mbArg 63 72 4 = 176 ∧ mapGet v.die.fmn.models (v.mbArg 63 8 1) = some x ∧
    (v.stripedRead carveAddr 4096 176 2).1 = manifestBytes ∧ v.read (mailboxBase 63 + 32) 32 = manifestDigest ∧
    v.prepareCheck manifestBytes manifestDigest x = none ∧ v.roleElsewhere (numAt manifestBytes 10 2 % 4096) = false ∧
    (let w := loadBase 92 0 0x23 manifestBytes manifestDigest fun f => { f with models := [(0, x)], roles := [(0, 7)] }
     let other : M := { w with die.regs := (SHAFT_GRID_SIG, 2) :: w.die.regs }
     w.roleElsewhere (numAt manifestBytes 10 2 % 4096) = true ∧ manifestCheck manifestBytes manifestDigest x.index = none ∧
     w.gridCheck manifestBytes = none ∧ (other.gridCheck manifestBytes).isSome = true) ∧
    (manifestOf manifestBytes manifestDigest v.die.fmn.manifestNo (1 - v.runHalf) .preparing).shards ≠ [] ∧
    (∀ y ∈ v.die.fmn.manifests, y.id ≠ v.die.fmn.manifestNo) := by
  simp only [view_put, mbReady, true_and]
  and_intros <;> decide +kernel

/-- Mailbox 63 holds a load of this manifest, and with the build; the wide one finds too few sites. -/
def loadArgs (wide : Bool) : M :=
  loadBase (buildLength wide) calClass 0x20 (loadManifest wide) (loadDigest wide) fun f => { f with sitesShort := wide }

def loadView (wide : Bool) : M :=
  let v := loadArgs wide
  { v with mem := v.mem.write (carveAddr 0) (buildBytes wide) }

theorem build_length (wide : Bool) : (buildBytes wide).length = buildLength wide := by
  cases wide <;> decide +kernel

theorem bits_lt256 (x : Nat) : bits x 47 40 < 256 := Nat.mod_lt _ (by decide)
theorem calClass_lt : calClass < 256 := bits_lt256 xingCal

theorem loadView_read (wide : Bool) (a n : Nat) (h : a + n ≤ carveAddr 0 ∨ carveAddr 0 + 2304 ≤ a) :
    (loadView wide).read a n = (loadArgs wide).read a n := by
  refine CMem.read_write_other _ _ _ _ _ ?_
  rw [build_length]
  have : buildLength wide ≤ 2304 := by cases wide <;> decide
  omega

theorem loadView_arg (wide : Bool) (off n v : Nat) (h : mailboxBase 63 + off + n ≤ carveAddr 0)
    (hv : (loadArgs wide).readN (mailboxBase 63 + off) n = v) : (loadView wide).mbArg 63 off n = v := by
  have := congrArg ofBytes (loadView_read wide (mailboxBase 63 + off) n (Or.inl h))
  exact this.trans hv

theorem loadView_build (wide : Bool) : ((loadView wide).stripedRead carveAddr 0 (buildLength wide) 2).1 = buildBytes wide := by
  have h := CMem.read_write_same (loadArgs wide).mem (carveAddr 0) (buildBytes wide)
  rw [build_length] at h
  have e : stripes 0 (buildLength wide) = [(0, buildLength wide)] := by cases wide <;> decide
  have n : (loadView wide).die.bursts = [] := rfl
  have k : ((loadView wide).stripedRead carveAddr 0 (buildLength wide) 2).1 =
      (loadView wide).read (carveAddr 0) (buildLength wide) := by
    simp [M.stripedRead, e, M.stateRead, M.stored, M.badBursts, M.burstsIn, n]
  exact k.trans h

theorem loadView_manifest (wide : Bool) : ((loadView wide).stripedRead carveAddr 4096 176 2).1 = loadManifest wide :=
  (loadView_read wide (carveAddr 4096) 176 (by decide)).trans (by cases wide <;> decide +kernel)

theorem loadView_identity (wide : Bool) : (loadView wide).fld FMN_DET_BIR 55 48 = calClass := by
  have h : (loadView wide).fld FMN_DET_BIR 55 48 = fld (setFld (setFld 0 55 48 calClass) 47 32 Config.tableRev.toNat) 55 48 := rfl
  rw [h, fld_setFld_other _ _ _ _ _ _ (by decide) (by decide) (by decide), fld_setFld_same _ _ _ _ (by decide) (by decide)]
  exact Nat.mod_eq_of_lt calClass_lt

theorem mapGetD_none {α : Type} (l : NMap α) (k : Nat) (d : α) (h : ∀ p ∈ l, p.1 ≠ k) : mapGetD l k d = d := by
  have : l.lookup k = none := by
    induction l with
    | nil => rfl
    | cons x l ih =>
      have hx := h x (List.mem_cons_self ..)
      have := ih fun p hp => h p (List.mem_cons_of_mem _ hp)
      simp only [List.lookup, beq_eq_false_iff_ne.mpr (Ne.symm hx), this]
  simp [mapGetD, this]

theorem loadView_keys (wide : Bool) (a : Nat) (h : a < 0x11000000000) : (loadView wide).reg a = regReset a := by
  refine mapGetD_none _ _ _ ?_
  intro p hp e
  have hk : p ∈ ([(SHAFT_GRID_SIG, 1), (SHAFT_CAL_STATUS, 0), (FMN_MB_BUSY, 1#64 <<< 63),
    (FMN_DET_BIR, setFld (setFld 0 55 48 calClass) 47 32 Config.tableRev.toNat)] : NMap Word) ++ filledRegs := hp
  simp only [filledRegs, List.mem_append, List.mem_map, List.mem_range, List.mem_cons, List.not_mem_nil, or_false] at hk
  rcases hk with (rfl | rfl | rfl | rfl) | ⟨k, -, rfl⟩
  all_goals
    try simp only [seamReg] at e
    first
      | omega
      | exact absurd (e ▸ h) (by decide)

theorem regReset_row (a : Nat) (r : RegRow) (h : specialReset a = none) (k : regRow a = some r) :
    regReset a = BitVec.ofNat 64 r.reset := by
  simp only [regReset, h, k]

theorem regReset_special (a v : Nat) (h : specialReset a = some v) : regReset a = BitVec.ofNat 64 v := by
  simp only [regReset, h]

/-- At reset each virtual core maps to physical core 0 of its site. -/
theorem loadView_physical (wide : Bool) (s v : Nat) (h : s < 136) : (loadView wide).physical s v = 0 := by
  have key : ∀ off, off = CLU_VCORE_MAP ∨ off = CLU_VCORE_MAP_HI → (loadView wide).reg (cluReg s off) = 0 := by
    intro off ho
    have hb : off < 0x1000 := by rcases ho with rfl | rfl <;> decide
    have h1 : cluReg s off < 0x11000000000 := by simp only [cluReg]; omega
    have h2 : cluReg s off % 0x10000000 = 0xF000000 + off := by simp only [cluReg]; omega
    have h3 : cluReg s off / 0x10000000 % 32 = 17 := by simp only [cluReg]; omega
    rw [loadView_keys _ _ h1]
    have hf : (findRow clusterRegs off).map (·.reset) = some 0 := by
      rcases ho with rfl | rfl <;> decide +kernel
    obtain ⟨r, hf, hz⟩ := Option.map_eq_some_iff.1 hf
    have hn : off ≠ CLU_SPARE_STATUS := by rcases ho with rfl | rfl <;> decide
    have h4 : specialReset (cluReg s off) = none := by
      unfold specialReset
      rw [if_pos h1, h2, h3]
      dsimp only
      rw [if_neg (by omega), if_neg (by decide), if_neg (by omega)]
    have h5 : regRow (cluReg s off) = some r := by
      unfold regRow
      rw [if_pos h1, h2, h3]
      dsimp only
      rw [if_neg (by omega), if_neg (by decide), if_pos rfl, Nat.add_sub_cancel_left, hf]
    rw [regReset_row _ _ h4 h5, hz]
    rfl
  unfold M.physical
  split
  · simp [M.fld, key _ (Or.inl rfl), Machine.fld, bits]
  · simp [M.fld, key _ (Or.inr rfl), Machine.fld, bits]

/-- Every enabled core of the part holds the table revision of the record. -/
theorem loadView_tables (wide : Bool) (x : Nat) (h : x ∈ (loadView wide).enabledCores) :
    (loadView wide).regN (coreReg x CORE_SML_TABLE_REV) = (loadView wide).fld FMN_DET_BIR 47 32 := by
  have hx : x < 2312 := by
    simp only [M.enabledCores, List.mem_flatMap, List.mem_range] at h
    obtain ⟨s, hs, h⟩ := h
    split at h
    · simp at h
    · obtain ⟨v, -, rfl⟩ := List.mem_map.1 h
      rw [loadView_physical _ s v hs]
      omega
  have e1 : (loadView wide).fld FMN_DET_BIR 47 32 =
      fld (setFld (setFld 0 55 48 calClass) 47 32 Config.tableRev.toNat) 47 32 := rfl
  have e2 : regReset (coreReg x CORE_SML_TABLE_REV) = BitVec.ofNat 64 Config.tableRev.toNat := by
    have h1 : coreReg x CORE_SML_TABLE_REV < 0x11000000000 := by simp only [coreReg, coreBase, CORE_SML_TABLE_REV]; omega
    have h2 : coreReg x CORE_SML_TABLE_REV % 0x10000000 = 0xF000410 := by simp only [coreReg, coreBase, CORE_SML_TABLE_REV]; omega
    have h3 : coreReg x CORE_SML_TABLE_REV / 0x10000000 % 32 < 17 := by simp only [coreReg, coreBase, CORE_SML_TABLE_REV]; omega
    have h4 : specialReset (coreReg x CORE_SML_TABLE_REV) = some Config.tableRev.toNat := by
      unfold specialReset
      rw [if_pos h1, h2]
      dsimp only
      rw [if_neg (by omega), if_pos h3]
      rfl
    exact regReset_special _ _ h4
  have e3 : (loadView wide).reg (coreReg x CORE_SML_TABLE_REV) = regReset (coreReg x CORE_SML_TABLE_REV) :=
    loadView_keys _ _ (by simp only [coreReg, coreBase, CORE_SML_TABLE_REV]; omega)
  have hr := Config.tableRev.isLt
  rw [e1, fld_setFld_same _ _ _ _ (by decide) (by decide), M.regN, e3, e2, BitVec.toNat_ofNat]
  omega

theorem slice_past (b : Bytes) (o n : Nat) (h : b.length ≤ o) : slice b o n = zeros n := by
  unfold slice zeros
  rw [List.drop_eq_nil_of_le h]
  simp

theorem numAt_zeros (n o k : Nat) : numAt (zeros n) o k = 0 := by
  have h : ∀ k, ofBytes (List.replicate k 0) = 0 := by
    intro k
    induction k with
    | zero => rfl
    | succ k ih =>
      simp only [List.replicate_succ, ofBytes]
      exact by simpa using ih
  simp only [numAt, slice, zeros, List.drop_replicate, List.take_replicate, List.length_replicate, List.replicate_append_replicate]
  exact h _

theorem byteAt_zeros (n k : Nat) : byteAt (zeros n) k = 0 := by
  have : (zeros n).getD k 0 = 0 := by
    unfold zeros
    rw [List.getD_eq_getElem?_getD, List.getElem?_replicate]
    split <;> rfl
  simp only [byteAt, this]
  rfl

/-- A build whose tables begin past its end, and that has no class, is not refused for them. -/
theorem noTable (m : M) (b : Bytes) (h : b.length ≤ buildOffset b 0) (hg : b.length ≤ buildOffset b 1)
    (hp : b.length ≤ buildOffset b 2) (hc : buildCount b 3 = 0) : m.tableRefused b = false := by
  have hs : buildSteps b = zeros 32768 := slice_past _ _ _ h
  have hv : ∀ i, i < 1024 → (buildEntry b i).valid = false := by
    intro i hi
    simp only [buildEntry, hs]
    rw [numAt_zeros]
    rfl
  have he : buildValid b = [] := by
    simp only [buildValid, List.filter_eq_nil_iff, List.mem_map, List.mem_range]
    rintro _ ⟨i, hi, rfl⟩
    simp [hv i hi]
  have hz : ∀ n k i, slice (zeros n) k i = zeros i := by
    intro n k i
    simp only [slice, zeros, List.drop_replicate, List.take_replicate, List.length_replicate, List.replicate_append_replicate]
    exact congrArg (fun x => List.replicate x (0 : Byte)) (by omega)
  have hs : ∀ g, buildSites b g = [] := by
    intro g
    have : buildGroups b = zeros 2048 := slice_past _ _ _ hg
    simp only [buildSites, this, hz, List.filter_eq_nil_iff]
    intro s _
    rw [byteAt_zeros]
    simp
  have hu : ∀ i, patchUsed b i = false := by
    intro i
    have : buildPatches b = zeros 262144 := slice_past _ _ _ hp
    simp only [patchUsed, this, hz, he, List.any_nil, Bool.or_false]
    decide
  simp [M.tableRefused, he, hs, hu, buildClasses, hc]

theorem loadView_check (wide : Bool) : (loadView wide).loadCheck 63 (buildBytes wide) (loadManifest wide) (loadDigest wide) = none := by
  have h1 : (loadView wide).mbArg 63 8 1 = 0 := loadView_arg wide 8 1 0 (by decide) (by cases wide <;> decide +kernel)
  have h2 : byteAt (buildBytes wide) 10 = calClass := by
    have : byteAt (buildBytes wide) 10 = (BitVec.ofNat 8 calClass).toNat := by cases wide <;> rfl
    rw [this, BitVec.toNat_ofNat]
    exact Nat.mod_eq_of_lt calClass_lt
  have h3 : (loadView wide).travelMismatch (buildBytes wide) = false := by
    have h4 : numAt (buildBytes wide) 12 8 = 1 := by cases wide <;> decide +kernel
    have h5 : (loadView wide).fld SHAFT_GRID_SIG 39 0 = 1 := by cases wide <;> decide +kernel
    have h6 : byteAt (loadView wide).travelHeader 2 = calClass := by
      have : byteAt (loadView wide).travelHeader 2 = (BitVec.ofNat 8 calClass).toNat := rfl
      rw [this, BitVec.toNat_ofNat]
      exact Nat.mod_eq_of_lt calClass_lt
    have h7 : numAt (loadView wide).travelHeader 4 8 = 1 := by
      have := slice_append_mid (toBytes 2 1 ++ toBytes 1 calClass ++ toBytes 1 Config.fenceLatency) (toBytes 8 1)
        ((List.range 7).flatMap (fun i => toBytes 1 (Config.crossingLatency i)) ++ [8, 3, 2, 3]) 4 8 (by simp) (by simp)
      simp only [numAt, M.travelHeader, h5]
      rw [List.append_assoc _ _ [8, 3, 2, 3], this, ofBytes_toBytes]
      decide
    simp [M.travelMismatch, h2, h4, h6, h7]
  have h6 : (loadView wide).identityMismatch = false := by 
    simp only [M.identityMismatch, loadView_identity wide, bne_self_eq_false, Bool.false_or, List.any_eq_false, bne_iff_ne, ne_eq,
      Decidable.not_not]
    exact loadView_tables wide
  have h7 : numAt (buildBytes wide) 0 4 = 0x33544C42 ∧ numAt (buildBytes wide) 4 2 = 1 ∧ byteAt (buildBytes wide) 6 = 0 ∧ (loadView wide).flag SHAFT_CAL_STATUS 1 = false ∧
    slice (buildBytes wide) 32 32 = slice (loadManifest wide) 32 32 ∧ sm3 ((buildBytes wide).drop 256) = slice (loadManifest wide) 32 32 := by cases wide <;> decide +kernel
  have h8 : (loadView wide).buildCheck (buildBytes wide) (loadManifest wide) = none := by
    obtain ⟨a, b, _, d, e, f⟩ := h7
    simp [M.buildCheck, a, b, d, e, f, h3, h6]
  have h9 : (loadView wide).tableRefused (buildBytes wide) = false := 
    noTable (loadView wide) (buildBytes wide) (by cases wide <;> decide +kernel) (by cases wide <;> decide +kernel)
      (by cases wide <;> decide +kernel) (by cases wide <;> decide +kernel)
  have h10 : manifestCheck (loadManifest wide) (loadDigest wide) 0 = none := by cases wide <;> decide +kernel
  have h11 : (loadView wide).gridCheck (loadManifest wide) = none := by cases wide <;> decide +kernel
  have h12 : buildSplit (buildBytes wide) = (byteAt (loadManifest wide) 7).testBit 0 := by cases wide <;> decide +kernel
  have h13 : (buildRelocs (buildBytes wide)).all (loadView wide).relocOk = true := by cases wide <;> decide +kernel
  simp [M.loadCheck, h1, h7.2.2.1, h8, h9, h10, h11, h12, h13]

/-- Both builds pass the checks of a load; the wide one needs 128 sites, of which the module has lost one. -/
theorem witness_Load (wide : Bool) :
    let v := loadView wide
    let s := put State.reset v
    mbReady s 63 0x20 ∧ view s = v ∧ v.loadBusy = false ∧ v.die.fmn.siteRetired = false ∧ v.die.hdf.loadsRefused = false ∧
    v.mbArg 63 16 8 = 0 ∧ v.allFilled = true ∧ v.mbArg 63 24 8 = buildLength wide ∧ v.mbArg 63 64 8 = 4096 ∧
    v.mbArg 63 72 4 = 176 ∧ v.read (mailboxBase 63 + 32) 32 = loadDigest wide ∧
    (manifestOf (loadManifest wide) (loadDigest wide) v.die.fmn.manifestNo 0 .loading).shards ≠ [] ∧
    (∀ x ∈ v.die.fmn.manifests, x.id ≠ v.die.fmn.manifestNo) ∧ inCarve 0 (buildLength wide) = true ∧ inCarve 4096 176 = true ∧
    (v.stripedRead carveAddr 0 (buildLength wide) 2).1 = buildBytes wide ∧
    (v.stripedRead carveAddr 4096 176 2).1 = loadManifest wide ∧
    v.loadCheck 63 (buildBytes wide) (loadManifest wide) (loadDigest wide) = none ∧
    v.sitesLack (v.modelOf (buildBytes wide)) = wide := by
  have ho : (loadView wide).mbArg 63 0 1 = 0x20 := loadView_arg wide 0 1 0x20 (by decide) (by cases wide <;> decide +kernel)
  refine ⟨⟨rfl, rfl, rfl, ?_, ?_⟩, view_put _ _, rfl, rfl, rfl, ?_, ?_, ?_, ?_, ?_, ?_, ?_, ?_, ?_, by decide, loadView_build wide,
    loadView_manifest wide, loadView_check wide, ?_⟩
  · rw [view_put]
    have hb : (loadView wide).mbBusy 63 = true := by cases wide <;> decide +kernel
    have hr : (loadView wide).mbRunning 63 = false := by cases wide <;> decide +kernel
    simp [M.mbHolds, hb, hr, ho, mailboxes]
  · rw [view_put]
    exact loadView_arg wide 4 4 0 (by decide) (by cases wide <;> decide +kernel)
  · exact loadView_arg wide 16 8 0 (by decide) (by cases wide <;> decide +kernel)
  · cases wide <;> decide +kernel
  · exact loadView_arg wide 24 8 _ (by decide) (by cases wide <;> decide +kernel)
  · exact loadView_arg wide 64 8 4096 (by decide) (by cases wide <;> decide +kernel)
  · exact loadView_arg wide 72 4 176 (by decide) (by cases wide <;> decide +kernel)
  · exact (loadView_read wide _ _ (Or.inl (by decide))).trans (by cases wide <;> decide +kernel)
  · cases wide <;> decide +kernel
  · intro x h; cases h
  · cases wide <;> decide
  · cases wide <;> decide +kernel

def repairDigest : Bytes := toBytes 32 115379688923210464002731578704195894283311678150979349463286703823614628159999

/-- A shard of site 0 not yet verified. -/
def awaited (digest : Bytes) (frame : Option Nat) : Shard := { shardOf [] digest with verified := false, frame, written := false }

def loadOf : OpenLoad := { mailbox := 62, manifest := 0, model := modelOf [], isLoad := true, frameBase := 4095, frameCount := 1 }

/-- Mailbox 63 posts the header at carve-out offset 4096 of the shard of this digest for staging frame 4095. -/
def posting (digest : Bytes) : State :=
  holding (carveAddr 4096) (repairBytes ++ repairDigest) (mailboxWith 63 0x21 (toBytes 4 4095 ++ zeros 4 ++ toBytes 8 4096) fun d =>
    { d with fmn := { d.fmn with openLoad := some loadOf
                                 manifests := [manifestWith .loading [awaited digest none, awaited [] none]] } })

theorem witness_ShardPost :
    ∀ p ∈ [(repairDigest, true), ([], false)],
      let s := posting p.1
      let v := view s
      let h := (v.stripedRead carveAddr (v.mbArg 63 16 8) shardHeader 2).1
      let sh := awaited p.1 none
      let x := manifestWith .loading [sh, awaited [] none]
      (s.die.live = true ∧ s.die.bursts = [] ∧ s.die.ecc = [] ∧ v.mbHolds 63 0x21 = true ∧ v.mbArg 63 4 4 = 0) ∧ v.die.fmn.openLoad = some loadOf ∧ v.mbArg 63 8 4 < stagingFrames ∧ loadOf.frameBase ≤ v.mbArg 63 8 4 ∧
      v.mbArg 63 8 4 < loadOf.frameBase + loadOf.frameCount ∧ inCarve (v.mbArg 63 16 8) shardHeader = true ∧
      v.heldShard (numAt h 10 2) (numAt h 8 2) (byteAt h 6) (numAt h 14 2) = some (x, 0, sh) ∧
      v.manifest 0 = some x ∧ s.die.fmn.manifests = [x] ∧ x.use ≠ .running ∧ 1 ≠ 0 ∧ (awaited [] none).verified = false ∧ sh.verified = false ∧ sh.asked = [] ∧
      x.shards[1]? = some (awaited [] none) ∧ shardOk x 0 sh h (v.payload (v.mbArg 63 8 4) sh.length).1 = p.2 := by decide +kernel

theorem witness_ShardUnmatched :
    let s := posting repairDigest
    let s : State := { s with die.fmn.manifests := [] }
    let v := view s
    let h := (v.stripedRead carveAddr (v.mbArg 63 16 8) shardHeader 2).1
    v.mbHolds 63 0x21 = true ∧ v.die.fmn.openLoad = some loadOf ∧ v.mbArg 63 8 4 < stagingFrames ∧
    inCarve (v.mbArg 63 16 8) shardHeader = true ∧
    v.heldShard (numAt h 10 2) (numAt h 8 2) (byteAt h 6) (numAt h 14 2) = none := by decide +kernel

/-- This manifest prepares or loads, and the staging is at this point of its preparation. -/
def preparing (prep : Nat) (l : List Manifest) (f : Foreman → Foreman) (d : Die) : Die :=
  { d with regs := mapSet d.regs FMN_WT_STATUS (BitVec.ofNat 64 prep), fmn := f { d.fmn with manifests := l } }

theorem witness_EpochCommands :
    (∀ op ∈ [0x20, 0x23], let s := mailboxWith 63 op [] (preparing 0 [] fun f => { f with openLoad := some loadOf })
     (s.die.live = true ∧ s.die.bursts = [] ∧ s.die.ecc = [] ∧ (view s).mbHolds 63 op = true ∧ (view s).mbArg 63 4 4 = 0) ∧
     (view s).die.fmn.openLoad.isSome = true) ∧
    (let s := mailboxWith 63 0x20 [] id
     (view s).mbHolds 63 0x20 = true ∧ (view s).allFilled = false) ∧
    (let s := mailboxWith 63 0x20 [] fun d => { d with regs := d.regs ++ filledRegs, fmn := { d.fmn with openLoad := some loadOf } }
     (view s).mbHolds 63 0x20 = true ∧ (view s).allFilled = true ∧ (view s).loadBusy = true) ∧
    (let s := mailboxWith 63 0x20 (toBytes 8 0 ++ toBytes 8 0 ++ toBytes 8 64) fun d =>
       { d with regs := d.regs ++ filledRegs, hdf := { d.hdf with loadsRefused := true } }
     let v := view s
     v.mbHolds 63 0x20 = true ∧ v.allFilled = true ∧ v.loadBusy = false ∧ inCarve (v.mbArg 63 16 8) (v.mbArg 63 24 8) = true ∧
     inCarve (v.mbArg 63 64 8) (v.mbArg 63 72 4) = true ∧ v.die.hdf.loadsRefused = true) ∧
    (∀ op ∈ [0x21, 0x24, 0x25], let s := mailboxWith 63 op [] id
     (view s).mbHolds 63 op = true ∧ (view s).die.fmn.openLoad = none ∧ (view s).manifestFor .preparing = none) ∧
    (let s := mailboxWith 63 0x22 [] fun d => { d with step := some someStep }
     (view s).mbHolds 63 0x22 = true ∧ s.die.step.isSome = true) ∧
    (∀ model ∈ [0, 1], let s := decoding (mailboxWith 63 0x22 [BitVec.ofNat 8 model] (preparing 0 [] fun f =>
       { f with models := [(model, modelOf [])] }))
     let v := view s
     v.mbHolds 63 0x22 = true ∧ s.die.step = none ∧ v.loadBusy = false ∧ v.die.fmn.flip = none ∧
     (mapGet v.die.fmn.models (v.mbArg 63 8 1)).isSome = true ∧ v.slotsInUse = [tallySlots - 1] ∧ v.tModel (tallySlots - 1) = 0 ∧
     v.mbArg 63 8 1 = model) ∧
    (let x := manifestWith .preparing [awaited [] none]
     ∀ p ∈ [(0, 0), (1, 0)],
     let s := mailboxWith 63 0x24 (toBytes 8 0 ++ toBytes 8 p.1 ++ toBytes 8 p.2) (preparing pREADY [x] id)
     let v := view s
     v.mbHolds 63 0x24 = true ∧ v.mbArg 63 4 4 = 0 ∧ v.manifestFor .preparing = some x ∧ x.model = v.mbArg 63 8 1 ∧ v.prep = pREADY ∧
     v.die.fmn.flip = none ∧ v.die.fmn.composed = none ∧ v.mbArg 63 16 8 = p.1 ∧ v.mbArg 63 24 8 = p.2) ∧
    (let x := manifestWith .preparing [awaited [] none]
     let s := mailboxWith 63 0x25 [] (preparing pREADY [x] id)
     (view s).mbHolds 63 0x25 = true ∧ (view s).manifestFor .preparing = some x ∧ x.model = (view s).mbArg 63 8 1 ∧
     s.die.fmn.flip = none ∧ s.die.fmn.openLoad = none ∧ s.die.fmn.composed = none) ∧
    (let x := manifestWith .preparing [awaited [] none]
     let l := { loadOf with isLoad := false }
     let s := mailboxWith 63 0x25 [] (preparing pFETCHING [x] fun f => { f with openLoad := some l })
     (view s).mbHolds 63 0x25 = true ∧ (view s).manifestFor .preparing = some x ∧ x.model = (view s).mbArg 63 8 1 ∧
     s.die.fmn.flip = none ∧ s.die.fmn.openLoad = some l ∧ l.isLoad = false ∧ l.mailbox < 64 ∧ s.die.fmn.composed = none) := by
  refine ⟨?_, ?_, ?_, ?_, ?_, ?_, ?_, ?_, ?_, ?_⟩ <;> decide +kernel

/-- A message from module 7 about shard 0 of the manifest of `manifestWith`: a segment at this offset of this total. -/
def shardMessage (off total : Nat) : Bytes := makeMessage 0 1 0 7 0 (shardTs 0 0 1 0 ++ zeros 1 ++ toBytes 4 off ++ toBytes 4 total) []

def holdingShard (sh : Shard) (f : Foreman → Foreman) : State := withFmn fun x => f { x with manifests := [manifestWith .preparing [sh]] }

theorem witness_ShardsFetched :
    (State.reset.die.live = true ∧ State.reset.die.bursts = [] ∧ State.reset.die.ecc = [] ∧
      (view State.reset).namedShard [] = none ∧ msgTs [] 20 4 + (msgBody []).length = msgTs [] 24 4 ∧
      (view State.reset).namedShard (shardMessage 0 1) = none ∧
      ¬ msgTs (shardMessage 0 1) 20 4 + (msgBody (shardMessage 0 1)).length = msgTs (shardMessage 0 1) 24 4) ∧
    (∀ sh ∈ [shardOf (zeros shardHeader) [], awaited [] (some 4095), { awaited [] (some 4095) with requested := some 9 },
        { awaited [] none with requested := some 9, attempts := 15 }],
      let s := holdingShard sh id
      let v := view s
      let x := manifestWith .preparing [sh]
      v.namedShard (shardMessage 0 0) = some (x, 0, sh) ∧ v.namedShard (shardMessage 0 64) = some (x, 0, sh) ∧ v.manifest x.id = some x ∧
      x.shards[0]? = some sh ∧ v.die.fmn.openLoad = none) ∧
    (shardOf (zeros shardHeader) []).header.length = shardHeader ∧ (shardOf (zeros shardHeader) []).verified = true ∧
    (shardOf (zeros shardHeader) []).frame = some 0 ∧
    msgTs (shardMessage 0 0) 20 4 + (msgBody (shardMessage 0 0)).length = msgTs (shardMessage 0 0) 24 4 ∧
    ({ awaited [] (some 4095) with landed := [(0, (msgBody (shardMessage 0 64)).length)] } : Shard).allLanded (msgTs (shardMessage 0 64) 24 4) = false ∧
    (view State.reset).maxAttempts ≤ 15 ∧
    (let sh := { awaited [] none with requested := some 9, attempts := 15 }
     let x := manifestWith .preparing [sh]
     (view (holdingShard sh id)).currentSource x sh ≠ some (msgSrc (shardMessage 0 0)) ∧
     (view (holdingShard sh fun f => { f with sources := [(0, [7])] })).currentSource x sh = some (msgSrc (shardMessage 0 0)) ∧
     (view (holdingShard sh fun f => { f with sources := [(0, [7])] })).maxAttempts ≤ sh.attempts) ∧
    (let s := holdingShard { awaited [] (some 4095) with requested := some 9 } fun f => { f with sources := [(0, [7])] }
     (view s).sources 0 = [7] ∧ 0 < (view s).maxAttempts) := by
  refine ⟨?_, ?_, ?_, ?_, ?_, ?_, ?_, ?_, ?_, ?_⟩ <;> decide +kernel

/-- The last segment of the shard of this digest, whose other bytes have landed: it is whole, and right or not; and it was lost
before, or not. -/
theorem witness_ShardWhole :
    ∀ p ∈ [(repairDigest, true), ([], false)], ∀ lost ∈ [false, true],
      let sh := { awaited p.1 (some 4095) with
        header := repairBytes ++ repairDigest, landed := [(64, shardHeader - 64)], attempts := 15, requested := some 9, lost }
      let s := holdingShard sh id
      let v := view s
      let x := manifestWith .preparing [sh]
      let msg := makeMessage tySHARD_DATA 1 0 7 0 (shardTs 0 0 1 0 ++ zeros 1 ++ toBytes 4 0 ++ toBytes 4 shardHeader) (repairBytes.take 64)
      let w := v.landSegment x 0 4095 (msgTs msg 20 4) (msgBody msg)
      let y := (w.shard 0 0).getD sh
      v.namedShard msg = some (x, 0, sh) ∧ v.manifest 0 = some x ∧ w.shard 0 0 = some y ∧ y.allLanded (msgTs msg 24 4) = true ∧
      v.die.fmn.openLoad = none ∧ sh.asked = [] ∧ (∀ z ∈ v.die.fmn.manifests, z.use ≠ .relay) ∧ v.maxAttempts ≤ sh.attempts ∧
      msgTs msg 24 4 = shardHeader + y.length ∧ shardOk x 0 y y.header (w.payload 4095 y.length).1 = p.2 := by decide +kernel

/-- A flip of this manifest, or a drain, with or without a step. -/
def flipping (copying split stepping : Bool) : State :=
  withDie fun d => { d with
    step := if stepping then some someStep else none
    fmn := { d.fmn with
      manifests := [{ manifestWith .preparing [shardOf [] []] with split }]
      flip := some { mailbox := 63, model := 0, t := 5, u := 6, copying, heldCounted := false } } }

theorem witness_FlipsAndDrains :
    (State.reset.die.fmn.flip = none ∧ State.reset.die.fmn.drain = none) ∧
    (∀ copying split stepping : Bool,
      let s := flipping copying split stepping
      let v := view s
      let x := { manifestWith .preparing [shardOf [] []] with split }
      v.die.fmn.flip.map (·.mailbox) = some 63 ∧ 63 < 64 ∧ v.die.fmn.flip.map (·.copying) = some copying ∧ v.manifestFor .preparing = some x ∧
      v.manifest x.id = some x ∧ x.epoch < 65536 ∧ v.fld FMN_WT_CTRL 3 2 ≠ 2 ∧ v.slotsInUse = [] ∧ s.die.step.isSome = stepping ∧
      v.die.fmn.composed = none ∧ x.ready = true ∧ v.copyStale = false ∧ v.die.reports = [] ∧ v.die.hdf.attestWaiting = [] ∧ ∀ h ∈ x.shards, h.site < 136) ∧
    (∀ stepping : Bool,
      let s := withDie fun d => { d with step := if stepping then some someStep else none
                                         fmn := { d.fmn with drain := some { manifest := 0, epoch := 1, since := 0 } } }
      s.die.fmn.drain = some { manifest := 0, epoch := 1, since := 0 } ∧ s.die.step.isSome = stepping ∧
      s.die.fmn.composed = none ∧ s.die.fmn.openLoad = none ∧ (view s).slotsInUse = [] ∧
      ∀ x ∈ (view s).die.fmn.manifests, x.use ≠ .relay) := by
  refine ⟨?_, ?_, ?_⟩ <;> decide +kernel

/-! ### Ports -/

/-- Port 15 in this state, with this RYS_PORTn_CTRL, these other registers and this link state. -/
def portIn (st ctrl : Nat) (more : List (Nat × Word)) (f : Port → Port) : State :=
  withDie fun d => { d with
    regs := [(portReg 15 RYS_PORT_STATUS, BitVec.ofNat 64 st), (portReg 15 RYS_PORT_CTRL, BitVec.ofNat 64 ctrl)] ++ more
    ports := [(15, f Port.fresh)] }

/-- A message that holds the session 7 wherever a session may stand. -/
def sessionMessage : Bytes := zeros 4 ++ toBytes 4 7 ++ zeros 8

/-- Receive lanes 0 to n - 1, locked and naming this partner. -/
def lanesSeen (n : Nat) (named : Option (Nat × Nat)) : List LaneSeen := (List.range n).map fun l => { lane := l, named, arrival := 0 }

theorem witness_PortsTrain :
    (State.reset.die.live = true ∧ 15 < 16 ∧ ((view State.reset).port 15).ctrlLatched = none) ∧
    (∀ st ∈ [0, 3, 4], ∀ ctrl ∈ [0, 1, 3],
      let v := view (portIn st ctrl [] id)
      v.portBusy 15 = false ∧ v.pState 15 = st ∧ v.enabled 15 = (ctrl != 0) ∧ v.admitted 15 = (ctrl == 3) ∧ v.portUp 15 = (st == 4)) ∧
    (let v := view (portIn 4 1 [] fun x => { x with draining := some 0 })
     v.portBusy 15 = true ∧ v.pState 15 ≠ pDEGRADING) ∧
    (∀ w ∈ [0, 1], (view (portIn 0 0 [(PWR_OPT + 8 * 15, BitVec.ofNat 64 w)] id)).fld (PWR_OPT + 8 * 15) 1 0 = w) ∧
    (∀ st ∈ [pACQUIRE, pALIGN, pINIT, pHOLD], (view (portIn st 0 [] id)).pState 15 = st) ∧
    (let named := lanesSeen 7 (some (7, 3))
     let few := lanesSeen 6 (some (7, 3))
     let mute := lanesSeen 7 none
     let locked := fun (l : List LaneSeen) => popcount (l.foldl (fun n l => n ||| 2 ^ l.lane) 0)
     7 ≤ popcount (usableLanes named) ∧ popcount (usableLanes few) < 7 ∧ (∃ l ∈ few, l.named ≠ none) ∧ locked few < 7 ∧
     7 ≤ locked mute ∧ ∀ l ∈ mute, l.named = none) ∧
    (∀ ctrl ∈ [1, 3], let v := view (portIn 3 ctrl [] fun x => { x with session := 7, ackSent := true })
      v.pState 15 = pINIT ∧ v.admitted 15 = (ctrl == 3) ∧ numAt sessionMessage 4 4 = (v.port 15).session ∧
      v.fld (portReg 15 RYS_PORT_PARTNER) 63 32 = 0 ∧ (v.port 15).ackSent = true) ∧
    (let v := view (portIn 3 1 [] id)
     numAt sessionMessage 4 4 ≠ (v.port 15).session) ∧
    (∀ st ∈ [4, 5, 6], let v := view (portIn st 1 [] id)
      v.portUp 15 = true ∧ v.enabled 15 = true ∧ v.portRuns 15 = (st != 5)) ∧
    (∀ n ∈ [14, 15], ((view (portIn 4 1 [] fun x => { x with pongs := List.replicate n 5 })).port 15).pongs.length = n) ∧
    (∀ grace ∈ [0, 1], let v := view (portIn pHOLD 1 [(portReg 15 RYS_PORT_PARTNER, 0)] fun x => { x with graceEnd := grace })
      let msg : Bytes := zeros 16
      v.pState 15 = pHOLD ∧ numAt msg 6 4 = v.fld (portReg 15 RYS_PORT_PARTNER) 63 32 ∧ numAt msg 10 4 = (v.port 15).session ∧
      v.enabled 15 = true ∧ (v.port 15).graceEnd = grace ∧ v.die.ft = 0 ∧ v.samePartner 15 = true) ∧
    ((view (portIn pHOLD 1 [(portReg 15 RYS_PORT_PARTNER, 0)] fun x => { x with seen := some (9, 0) })).samePartner 15 = false) ∧
    (view (portIn 0 0 [] id)).portUp 15 = false ∧
    (let v := view (portIn 4 0 [] fun x => { x with draining := some 0 })
     (v.port 15).draining = some 0 ∧ (v.port 15).replay = [] ∧ v.enabled 15 = false) := by decide +kernel

theorem witness_FlitsReceived :
    (∀ st ∈ [2, 4], (view (portIn st 1 [] id)).pState 15 = st) ∧
    (∀ c ∈ [{ lane := 8, symbols := 1, uncorrectable := true, again := false : Codeword }], c.lane < 9 ∧ c.uncorrectable = true) ∧
    (view (portIn 2 1 [] id)).portRuns 15 = false ∧
    (flitGood (zeros 255 ++ [1]) = false ∧ ((view (portIn 4 1 [] id)).port 15).nackState = false) ∧
    (∀ seq ∈ [0, 1], let flit := makeFlit seq 0 0 0 0 0 [0, 1]
      flitGood flit = true ∧ (flitHeader flit).ctl = false ∧ (flitHeader flit).seq = seq ∧ (flitHeader flit).cls = 0 ∧ byteAt flit 6 = 0) ∧
    (∀ held ∈ [0, poolUnits - 1, poolUnits], let x := (view (portIn 4 1 [] fun x => { x with held := [held, 0, 0, 0] })).port 15
      x.held.sum = held ∧ x.expect = 0 ∧ mapGetD x.stream 0 [] = [] ∧ (mapGetD x.transit 0 (16, 0)).2 = 0) ∧ 0 < poolUnits ∧
    seqNewer 1 0 = true ∧ seqNewer 0 1 = false ∧
    ((view (portIn 4 1 [] fun x => { x with expect := 1 })).port 15).expect = 1 ∧
    (let flit := makeFlit 0 0 1 0 0 0 []
     let h := flitHeader flit
     flitGood flit = true ∧ h.ctl = true ∧ h.cls = 0 ∧ h.rcls = 0 ∧ h.rcnt = 0 ∧ byteAt flit 6 = 0 ∧
     seqNewer h.ack ((view (portIn 4 1 [] id)).port 15).lastAck = true) := by
  refine ⟨?_, ?_, ?_, ?_, ?_, ?_, ?_, ?_, ?_, ?_, ?_⟩ <;> decide +kernel

theorem witness_FlitsAnswered :
    (view State.reset).portRuns 15 = false ∧ (view (portIn 4 1 [] id)).portRuns 15 = true ∧
    (∀ again : Bool, let v := view (portIn 4 1 [] fun x => { x with lastNack := if again then some 0 else none })
      let msg : Bytes := zeros 16
      let e := numAt msg 4 3 % seqMod
      ((v.ackRead 15 ((e + seqMod - 1) % seqMod)).port 15).ignoresNack e (byteAt msg 7) (v.rtt 15) v.die.ft = again) ∧
    (∀ old : Bool, ((view (portIn 4 1 [] fun x => { x with lastReport := if old then some 5 else none })).port 15).stale (numAt (zeros 16) 4 4) = old) ∧
    ((view (portIn 4 1 [] fun x => { x with nackState := true })).port 15).nackState = true ∧
    (∀ n ∈ [6, 7], let x := (view (portIn 4 1 [] fun x => { x with expiries := n, replay := [{ seq := 0, cls := 0, bytes := [] }] })).port 15
      x.replay = [{ seq := 0, cls := 0, bytes := [] }] ∧ x.expiries = n ∧ x.ctrlLatched = none) ∧
    ((view State.reset).port 15).replay = [] ∧
    (∀ st ∈ [pDISABLED, pACQUIRE, pALIGN], (view (portIn st 1 [] id)).pState 15 = st) ∧
    (∀ n ∈ [0, 100000], ((view (portIn pACQUIRE 1 [] fun x => { x with inPeriod := n })).port 15).lastOfPeriod = (n != 0)) ∧
    ((view (portIn 4 1 [] fun x => { x with inPeriod := 100000 })).port 15).lastOfPeriod = true ∧
    (let b : OutMessage := { bytes := zeros flitPayload, due := 0, feed := 0 }
     let x := (view (portIn 4 1 [] fun x => { x with pool := 1, sendQ := [(0, [b])] })).port 15
     x.ctlOut = [] ∧ x.reportOwed = false ∧ x.replay = [] ∧ mapGetD x.sendQ 0 [] = [b] ∧ mapGetD x.sendOff 0 0 = 0 ∧ b.due = 0 ∧ b.bytes.length ≤ flitPayload ∧
     x.freed = [0, 0, 0, 0] ∧ x.canSend 0 = true) ∧
    (∀ c, ((view (portIn 4 1 [] id)).port 15).ready c = false) := by
  refine ⟨?_, ?_, ?_, ?_, ?_, ?_, ?_, ?_, ?_, ?_, ?_, fun c => rfl⟩ <;> decide +kernel

/-- A LANE message that names lane 0, spare 8 and transaction 255. -/
def laneNote : Bytes := [0, 0, 0, 0, 8, 255, 0, 0, 0]

def laneTask (op sends : Nat) : LaneTask := { op, lane := 0, spare := 8, txn := 255, sentAt := 0, sends }

/-- Port 15 ACTIVE with these widths in and out, lane states and tasks. -/
def laneState (wrx wtx lanes : Nat) (rx tx : Option LaneTask) : State :=
  portIn (4 + wrx * 2 ^ 16 + wtx * 2 ^ 20) 5 [(portReg 15 RYS_PORT_LANE_STATE, BitVec.ofNat 64 lanes)] fun x => { x with rxTask := rx, txTask := tx }

theorem witness_LanesChange :
    (State.reset.die.live = true ∧ msgLane laneNote = 0 ∧ msgSpare laneNote = 8 ∧ msgTxn laneNote = 255) ∧
    (∀ rx ∈ [none, some (laneTask oSPARE_REQ 1)], let x := (view (laneState 8 8 0 rx none)).port 15
      x.ctrlLatched = none ∧ x.rxLatched = none ∧ x.txLatched = none ∧ x.rxTask = rx) ∧
    (view State.reset).portRuns 15 = false ∧
    (let v := view (laneState 7 8 (2 ^ 34) none none)
     v.portRuns 15 = true ∧ v.lane 15 true 0 = laneActive ∧ v.spareLane 15 true = some 8 ∧ v.goodSpare 15 true = some 8 ∧
     (v.port 15).rxTask = none ∧ v.flag (portReg 15 RYS_PORT_CTRL) 2 = true ∧
     v.fld (portReg 15 RYS_PORT_LANE_THRESH) 31 0 < 0 + 2 ^ 32 ∧ v.lostLanes 15 ≤ v.lostCover 15 ∧ v.width 15 true = 7 ∧ v.width 15 false = 8 ∧ v.lane 15 false 0 = laneActive ∧
     v.lane 15 true 8 = laneSpare) ∧
    (let v := view (laneState 8 7 (2 * 2 ^ 18 + 2 ^ 16) none none)
     v.lane 15 true 0 = laneFailed ∧ v.spareLane 15 true = none ∧ v.width 15 true = 8 ∧ v.width 15 false = 7 ∧
     v.lane 15 false 8 = laneSpare) ∧
    (∀ op ∈ [oSPARE_REQ, oSWITCHED], let v := view (laneState 8 8 0 (some (laneTask op 1)) none)
      v.portRuns 15 = true ∧ v.taskIs 15 true op 255 = true) ∧
    (view (laneState 8 8 0 none none)).taskIs 15 true oSWITCHED 255 = false ∧
    (∀ op ∈ [oMIRROR_ON, oDEGRADE_MARK, oWIDEN_MARK], let v := view (laneState 8 8 0 none (some (laneTask op 1)))
      v.portRuns 15 = true ∧ v.taskIs 15 false op 255 = true) ∧
    ((laneTask oRETURN 0).op = oRETURN ∧ (laneTask oRETURN 0).lane = 0 ∧
      ((view (laneState 8 8 0 (some (laneTask oRETURN 0)) none)).port 15).rxTask = some (laneTask oRETURN 0)) ∧
    (∀ n ∈ [7, 8], (laneTask oSPARE_REQ n).op ≠ oRETURN ∧ (laneTask oSPARE_REQ n).sends = n ∧
      ((view (laneState 8 8 0 (some (laneTask oSPARE_REQ n)) none)).port 15).lost.contains 0 = false ∧
      ((view (laneState 8 8 0 (some (laneTask oSPARE_REQ n)) none)).port 15).rxTask = some (laneTask oSPARE_REQ n)) ∧
    (∀ st ∈ [pACTIVE, pDEGRADING], (view (portIn st 1 [] id)).pState 15 = st) := by
  refine ⟨?_, ?_, ?_, ?_, ?_, ?_, ?_, ?_, ?_, ?_, ?_⟩ <;> decide +kernel

/-- The same, with these lanes lost and in this state of the port. -/
def laneStateIn (st wrx wtx lanes : Nat) (rx tx : Option LaneTask) (f : Port → Port) : State :=
  portIn (st + wrx * 2 ^ 16 + wtx * 2 ^ 20) 5 [(portReg 15 RYS_PORT_LANE_STATE, BitVec.ofNat 64 lanes)] fun x =>
    f { x with rxTask := rx, txTask := tx }

/-- A lane that has lost lock asks for a spare the eighth time; a UNIT command waits for a sparing or a return; the spare has
lost lock; and a request is latched behind a lane's change. -/
theorem witness_LanesWait :
    (let v := view (laneStateIn 4 8 8 0 (some (laneTask oSPARE_REQ 8)) none fun x => { x with lost := [0] })
     v.portRuns 15 = true ∧ (v.port 15).rxTask = some (laneTask oSPARE_REQ 8) ∧ 8 ≤ (laneTask oSPARE_REQ 8).sends ∧
     (v.port 15).lost.contains (laneTask oSPARE_REQ 8).lane = true ∧ v.width 15 true = 8 ∧ v.die.fmn.unitWaits = []) ∧
    (let s := laneState 8 8 0 (some (laneTask oSWITCHED 1)) none
     let s : State := { s with die.fmn.unitWaits := [(63, fnLane 15 true, false)] }
     (view s).taskIs 15 true oSWITCHED 255 = true ∧ (view s).die.fmn.unitWaits = [(63, fnLane 15 true, false)] ∧ 63 < 64) ∧
    (let v := view (laneStateIn 4 8 8 (2 ^ 34) none none fun x => { x with lost := [8] })
     v.lane 15 true 8 = laneSpare ∧ v.goodSpare 15 true = none) ∧
    (let v := view (laneState 8 8 0 (some (laneTask oSPARE_REQ 1)) none)
     v.portRuns 15 = true ∧ (v.port 15).rxTask.isSome = true ∧ (v.port 15).rxLatched = none) ∧
    (let v := view (laneState 7 8 (2 ^ 34) none none)
     v.goodSpare 15 true = some 8 ∧ v.width 15 true = 7 ∧ (v.port 15).rxTask = none) := by
  refine ⟨?_, ?_, ?_, ?_, ?_⟩ <;> decide +kernel

theorem witness_LanesMore :
    (let v := view (laneState 8 8 (2 * 2 ^ 18) none none)
     v.lane 15 true 0 ≠ laneActive) ∧
    (let v := view (laneStateIn 4 7 8 (2 * 2 ^ 34) none none fun x => { x with lost := [0] })
     v.portRuns 15 = true ∧ v.lane 15 true 0 = laneActive ∧ v.lostCover 15 < v.lostLanes 15) ∧
    (let v := view (laneState 8 8 (2 ^ 34 + 2 ^ 16) (some (laneTask oSPARE_REQ 1)) none)
     v.taskIs 15 true oSPARE_REQ 255 = true ∧ v.lane 15 true 0 = laneActive ∧ v.lane 15 true 8 = laneSpare ∧
     (v.port 15).txTask = none ∧ v.lane 15 false 0 = laneActive ∧ v.lane 15 false 8 = laneSpare ∧ v.width 15 false = 8 ∧
     v.spareLane 15 false = some 8) ∧
    (let v := view (laneState 8 8 (2 + 2 * 2 ^ 16) none none)
     v.lane 15 false 0 = laneFailed ∧ v.spareLane 15 false = none) ∧
    (let v := view (laneState 7 7 (2 ^ 34 + 2 ^ 16) none none)
     v.spareLane 15 false = some 8 ∧ v.width 15 false = 7 ∧ v.lane 15 false 8 = laneSpare ∧ v.spareLane 15 true = some 8 ∧
     v.width 15 true = 7 ∧ v.lane 15 true 8 = laneSpare) ∧
    (∀ op ∈ [oDEGRADE_MARK, oWIDEN_MARK], ∀ n ∈ [0, 100000],
      let x := (view (laneStateIn pDEGRADING 8 8 0 none (some (laneTask op 0)) fun x => { x with inPeriod := n })).port 15
      x.txTask = some (laneTask op 0) ∧ (laneTask op 0).sends = 0 ∧ x.ctlOut = [] ∧ x.reportOwed = false ∧ x.lastOfPeriod = (n != 0)) ∧
    (∀ rx : Bool, let t := some (laneTask oRETURN 0)
      let v := view (laneState 8 8 (if rx then 3 * 2 ^ 18 else 3) (if rx then t else none) (if rx then none else t))
      v.task 15 rx = t ∧ v.lane 15 rx 0 = laneRetraining ∧ v.spareLane 15 rx = none ∧ v.die.step = none) ∧
    (let s := laneState 8 8 (3 * 2 ^ 18) (some (laneTask oRETURN 0)) none
     let s : State := { s with die.step := some someStep }
     ((view s).port 15).rxTask = some (laneTask oRETURN 0) ∧ s.die.step.isSome = true) ∧
    (∀ n ∈ [7, 8], waitsAnswer (some (laneTask oSWITCHED n)) = some (laneTask oSWITCHED n) ∧ waitsAnswer none = none ∧
      (laneTask oSWITCHED n).lane = 0 ∧ (laneTask oSWITCHED n).spare = 8) := by
  refine ⟨?_, ?_, ?_, ?_, ?_, ?_, ?_, ?_, ?_⟩ <;> decide +kernel

/-! ### Transport, barriers and time -/

/-- A message of this type, hop count and destination that names window 65535 (or barrier 255), attempt 0, this code, offset and step. -/
def putMessage (type hops dest code off step : Nat) (body : Bytes) : Bytes :=
  makeMessage type hops dest 7 0 (toBytes 2 65535 ++ toBytes 1 0 ++ toBytes 1 code ++ toBytes 4 off ++ toBytes 8 step) body

/-- A window of 32 bytes of OPC of core 2311, of step 1. -/
def lastWindow : PutWindow := { core := 2311, push := 9, space := 4, base := 0, bytes := 32, step := 1, attempt := 0, missing := [0, 1] }

theorem witness_MessagesArrive :
    (State.reset.die.live = true ∧ State.reset.die.ecc = []) ∧
    messageOk 2 (zeros 32) = false ∧
    (∀ ty ∈ [1, 2, 3, 5, 6, 7, 8, 9, 10], ∃ cls, let b := putMessage ty 0 0 0 0 0 []
      cls < 4 ∧ messageOk cls b = true ∧ msgDest b = (view State.reset).moduleId ∧ msgType b = ty) ∧
    (∀ op ∈ [1, 4], ∃ cls, let b := makeMessage 4 0 0 7 0 (toBytes 1 op) []
      cls < 4 ∧ messageOk cls b = true ∧ msgDest b = (view State.reset).moduleId ∧ msgType b = 4 ∧ msgTs b 12 1 = op) ∧
    (∀ hops ∈ [0, 1], ∃ cls, let b := putMessage 1 hops 65535 0 0 0 []
      cls < 4 ∧ messageOk cls b = true ∧ msgDest b ≠ (view State.reset).moduleId ∧ msgHops b = hops ∧ (view State.reset).nextHops (msgDest b) = []) ∧
    (∃ cls, let b := putMessage 1 255 5 0 0 0 []
     let v := view (portIn 4 1 [(RYS_ROUTE + 8 * 5, BitVec.ofNat 64 (2 ^ 31 + 15))] id)
     cls < 4 ∧ messageOk cls b = true ∧ msgDest b ≠ v.moduleId ∧ msgHops b ≠ 0 ∧ v.routePort b cls = some 15) ∧
    (∃ cls, let b := makeMessage 1 255 9 0 0 (toBytes 2 65535 ++ zeros 14) []
     let o : OwnPut := { core := 2311, push := 9, dest := 9, window := 65535, offset := 0, step := 0, attempt := 0 }
     let v := view (withDie fun d => { d with ownPuts := [o] })
     cls < 4 ∧ messageOk cls b = true ∧ msgDest b ≠ v.moduleId ∧ msgHops b ≠ 0 ∧ v.nextHops (msgDest b) = [] ∧ msgType b = tyPUT ∧
     msgSrc b = v.moduleId ∧ v.die.ownPuts.find? (fun o => o.dest == msgDest b && o.window == msgTs b 12 2 &&
       o.offset == msgTs b 16 4 && o.step == msgTs b 20 8 && o.attempt == msgTs b 14 1) = some o) := by
  refine ⟨?_, ?_, ?_, ?_, ?_, ?_, ?_⟩ <;> decide +kernel

theorem witness_PutsLand :
    (∀ step off, (step, off) ∈ [(0, 0), (1, 16), (1, 17)] →
      let b := putMessage 1 0 0 0 off step (zeros 16)
      let v := view (withDie fun d => { d with putWindows := [(65535, lastWindow)] })
      let w := msgTs b 12 2
      mapGet v.die.putWindows w = some lastWindow ∧ older (putStep b) (1, 0) = (step == 0) ∧ putStep b = (step, 0) ∧ v.beforeStep b = false ∧
      decide (lastWindow.bytes < msgTs b 16 4 + msgLen b) = (off == 17) ∧ lastWindow.space ≠ 3 ∧
      (off = 16 → lastWindow.base + msgTs b 16 4 + (msgBody b).length ≤ spaceExtent lastWindow.space)) ∧
    (∀ step ∈ [1, 2], let b := putMessage 1 0 0 0 0 step []
      let v := view (withDie fun d => { d with step := some { someStep with number := 2, attempt := 0 } })
      mapGet v.die.putWindows (msgTs b 12 2) = none ∧ v.beforeStep b = (step == 1)) ∧
    (∀ code ∈ [0, 4], let b := putMessage 2 0 0 code 0 1 []
      let o : OwnPut := { core := 2311, push := 9, dest := 7, window := 65535, offset := 0, step := 1, attempt := 0 }
      let v := view (withDie fun d => { d with ownPuts := [o], step := some { someStep with number := 1, attempt := 0 } })
      (v.die.ownPuts.find? fun q => q.dest == msgSrc b && q.window == msgTs b 12 2 && q.offset == msgTs b 16 4 && q.step == msgTs b 20 8 &&
        q.attempt == msgTs b 14 1) = some o ∧ msgTs b 15 1 = code ∧
      v.die.step.map (fun t => (t.number, t.attempt)) = some (msgTs b 20 8, msgTs b 14 1)) ∧
    (State.reset.die.ownPuts = [] ∧ State.reset.die.earlyPuts = []) ∧
    (let e : EarlyPut := { port := 15, window := 65535, message := putMessage 1 0 0 0 0 0 [], arrival := 1, units := 1 }
     (view (withDie fun d => { d with earlyPuts := [e] })).die.earlyPuts.find? (fun e => e.window == 65535) = some e) := by
  refine ⟨?_, ?_, ?_, ?_, ?_⟩
  · intro step off h
    simp only [List.mem_cons, List.not_mem_nil, or_false, Prod.mk.injEq] at h
    rcases h with ⟨rfl, rfl⟩ | ⟨rfl, rfl⟩ | ⟨rfl, rfl⟩ <;> decide +kernel
  all_goals decide +kernel

/-- Barrier 255 with this descriptor beside its valid bit, and this barrier state; port 14 is ACTIVE. -/
def barrierState (desc : Nat) (f : Barrier → Barrier) (g : Die → Die) : State :=
  withDie fun d => g { d with regs := [(barReg 255, BitVec.ofNat 64 (2 ^ 63 + desc)), (portReg 14 RYS_PORT_STATUS, 4)]
                              barriers := [(255, f Barrier.fresh)] }

/-- A message for barrier 255 and this generation with these FLAGS, VALUE and time. -/
def barMessage (gen time : Nat) : Bytes :=
  makeMessage 8 0 0 7 0 (toBytes 1 255 ++ toBytes 1 1 ++ toBytes 2 gen ++ toBytes 4 3 ++ toBytes 8 time) []

/-- A root, or a member below port 14, whose only child port is 15. -/
def rootDesc : Nat := 2 ^ 62 + 2 ^ 55
def memberDesc : Nat := 14 * 2 ^ 58 + 2 ^ 55

theorem witness_BarriersRelease :
    (State.reset.die.live = true ∧ (view State.reset).barValid 255 = false) ∧
    (∀ desc ∈ [rootDesc, memberDesc], ∀ own : Bool,
      let v := view (barrierState desc (fun x => { x with own }) id)
      let msg := barMessage 0 0
      msgTs msg 12 1 = 255 ∧ msgTs msg 14 2 = (v.bar 255).gen ∧ v.barValid 255 = true ∧ (v.barChildren 255).contains 15 = true ∧
      (v.barChildren 255).contains 14 = false ∧ (v.bar 255).children.contains 15 = false ∧ (v.bar 255).own = own ∧ (v.bar 255).passed = false ∧
      (v.barChildren 255).all ((v.bar 255).children ++ [15]).contains = true ∧ v.barRoot 255 = (desc == rootDesc) ∧
      v.portTakes 14 = true ∧ (desc = memberDesc → v.barParent 255 = 14)) ∧
    (let v := view (barrierState memberDesc id id)
     let msg := barMessage 1 0
     msgTs msg 14 2 = ((v.bar 255).gen + 1) % 65536 ∧ msgTs msg 14 2 ≠ (v.bar 255).gen ∧ (v.bar 255).early.any (fun e => e.1 == 15) = false) ∧
    (let v := view (barrierState memberDesc (fun x => { x with gen := 65535 }) id)
     msgTs (barMessage 0 0) 14 2 = ((v.bar 255).gen + 1) % 65536 ∧ msgTs (barMessage 5 0) 14 2 ≠ (v.bar 255).gen ∧
     msgTs (barMessage 5 0) 14 2 ≠ ((v.bar 255).gen + 1) % 65536) ∧
    (∀ time ∈ [0, 9], let v := view (barrierState memberDesc id fun d => { d with ft := 9 })
      v.barValid 255 = true ∧ v.barRoot 255 = false ∧ (v.bar 255).release = none ∧ msgTs (barMessage 0 time) 14 2 = (v.bar 255).gen ∧
      decide (msgTs (barMessage 0 time) 20 8 < v.die.ft) = (time == 0) ∧ v.copyStale = false ∧ 255 ≠ v.commitBar ∧ v.die.fmn.composed = none) ∧
    (let v := view (barrierState memberDesc (fun x => { x with release := some (1, 2, 3) }) fun d => { d with ft := 9 })
     v.barValid 255 = true ∧ v.barRoot 255 = false ∧ (v.bar 255).release.isSome = true ∧ (v.bar 255).nextRelease = none ∧
     msgTs (barMessage 1 0) 14 2 = ((v.bar 255).gen + 1) % 65536 ∧ msgTs (barMessage 1 0) 14 2 ≠ (v.bar 255).gen ∧
     msgTs (barMessage 1 0) 20 8 < v.die.ft) ∧
    (∀ own : Bool, let v := view (barrierState memberDesc (fun x => { x with own }) id)
      (v.bar 255).own = own ∧ (v.bar 255).release = none) := by
  refine ⟨?_, ?_, ?_, ?_, ?_, ?_, ?_⟩ <;> decide +kernel

/-- The servo of a module whose parent port is 15, in this state; CTRL is FTC_CTRL. -/
def timing (ctrl servo : Nat) (f : Servo → Servo) (g : Port → Port) : State :=
  let s := portIn 4 1 [(FTC_CTRL, BitVec.ofNat 64 ctrl), (FTC_STATUS, BitVec.ofNat 64 (15 * 2 ^ 16 + servo))] fun x =>
    g { x with timeSent := [{ seq := 0, time := 0, arrival := 0 }] }
  { s with die := { s.die with servo := f s.die.servo } }

/-- A TIME message with these flags, sent at t3 in answer to one sent at t1. -/
def timeMessage (flags t1 t3 : Nat) : Bytes := zeros 4 ++ [BitVec.ofNat 8 flags, 254] ++ zeros 2 ++ toBytes 8 t3 ++ toBytes 8 t1 ++ zeros 8

theorem witness_TimeKeeps :
    (State.reset.die.live = true ∧ (view State.reset).pState 15 ≠ pACTIVE ∧ (view State.reset).die.fmn.models = [] ∧
      (view State.reset).servoState ≠ sHOLDOVER) ∧
    (∀ q ∈ [(0, 0, 5), (1, 2000, 0)], ∀ flags ∈ [1, 2],
      let v := view (timing 1 sFREE id id)
      let msg := timeMessage flags q.2.1 q.2.2
      let x := v.sample 15 msg (q.2.1 * 65536 : Nat)
      v.pState 15 = pACTIVE ∧ v.follows = true ∧ v.fld FTC_STATUS 19 16 = 15 ∧ v.servoState = sFREE ∧ (byteAt msg 4).testBit 1 = (flags == 2) ∧
      (byteAt msg 4).testBit 0 = (flags == 1) ∧ byteAt msg 5 < 255 ∧ v.rejects 15 msg x = false ∧ v.die.servo.inRow = 0 ∧
      v.die.servo.stepped = false ∧ decide (x.offset < 0) = (q.1 == 0) ∧ decide (aheadLimit < x.offset) = (q.1 == 1)) ∧
    (let v := view (timing (1 + 2 ^ 7 + 15 * 2 ^ 12) sLOCKED id fun x => { x with timeFlags := 1, timeSteps := 254 })
     v.follows = true ∧ v.servoState = sLOCKED ∧ v.flag FTC_CTRL 7 = true ∧ v.flag FTC_STATUS 20 = false ∧
     (v.port (v.fld FTC_CTRL 15 12)).validParent = true) ∧
    (let v := view (timing (1 + 2 ^ 7 + 15 * 2 ^ 12) sLOCKED id fun x => { x with timeFlags := 3 })
     v.follows = true ∧ v.servoState = sLOCKED ∧ v.flag FTC_CTRL 7 = true ∧ v.flag FTC_STATUS 20 = false ∧
     (v.port (v.fld FTC_CTRL 15 12)).timeFlags.testBit 1 = true) ∧
    ((view (timing 0 sLOCKED id id)).follows = false ∧ (view (timing 1 sACQUIRE id id)).servoState ≠ sLOCKED) ∧
    (view (withFmn fun f => { f with models := [(0, modelOf [])] })).die.fmn.models ≠ [] ∧
    (let v := view State.reset
     signed (v.regN (FTC_PORT_OFFSET + 8 * v.fld FTC_STATUS 19 16)) 64 * 256 ≤ v.fine) ∧
    (State.reset.wb.powered = true ∧ isJump State.reset.wb.ft (max State.reset.die.ft (State.reset.die.servo.lastBroadcast + 1000)) = false ∧
      (withWb fun w => { w with powered := false }).wb.powered = false) ∧
    ((view State.reset).compat = false ∧ ∀ st ∈ [sACQUIRE, sHOLDOVER],
      (view (timing 0x20 st id id)).compat = true ∧ (view (timing 0x20 st id id)).servoState = st) := by
  refine ⟨?_, ?_, ?_, ?_, ?_, ?_, ?_, ?_, ?_⟩ <;> decide +kernel

/-! ### Well-formedness: one ill-formed term for each check, the other operands in range -/

theorem test_ill_formed_1 : ([
    .registerWrite .foreman 0x1000000000000 0 0, .registerWrite .foreman 0 16 0, .counterReadClear 0x1000000000000,
    .controlSpaceMisalignedAccess 0x1000000000000 0 false, .controlSpaceMisalignedAccess 0 65 false, .pwrGoodRise 16, .railTrip 32,
    .pllLockJudgment 25 0 0, .regionPllFailed 25, .refmuxSwitch 4, .refmuxForce 4, .droopFire 15 0, .lagTokenMirror 8,
    .droopWindow 8, .opticalEngineOn 16 false, .sensorSample 800 none, .logAppend 4 0 0 [], .logAppend 0 11 0 [],
    .logAppend 0 0 0x10000 [], .sidebandRequest 128 .pldmHottestSite, .stackTrainingComplete 32 false, .stateMemoryFillComplete 32,
    .cpush 2312 0, .cpush 0 32, .ppatch 2312 0 false 0, .ppatch 0 256 false 0, .ppatch 0 0 false 32, .pset 2312 0 false,
    .pset 0 0x10000 false, .psetp 2312 0 0 0 false, .psetp 0 16 0 0 false, .psetp 0 0 128 0 false, .psetp 0 0 0 64 false,
    .waitr 2312 0 0 0, .waitr 0 16 0 0, .waitr 0 0 32 0, .waitr 0 0 0 32, .farrive 2312 0 false false false,
    .farrive 0 64 false false false, .fenceArrivalDrained 2312, .ftrd 2312 0 false, .ftrd 0 32 false, .controlCoreInstruction 2312,
    .mload 2312, .mmul 2312, .mmulz 2312, .mdrain 2312, .mzero 2312, .schain 2312, .sdesc 2312, .stable 2312, .sfall 2312, .vnop 2312,
    .vadd 2312 0 0 0, .vadd 0 32 0 0] : List Instr).all (fun i => !i.wellFormed) = true := by decide

theorem test_ill_formed_2 : ([
    .vadd 0 0 32 0, .vadd 0 0 0 32, .vsub 2312 0 0 0, .vsub 0 32 0 0, .vsub 0 0 32 0, .vsub 0 0 0 32, .vmul 2312 0 0 0,
    .vmul 0 32 0 0, .vmul 0 0 32 0, .vmul 0 0 0 32, .vfma 2312 0 0 0 0, .vfma 0 32 0 0 0, .vfma 0 0 32 0 0, .vfma 0 0 0 32 0,
    .vfma 0 0 0 0 32, .vmin 2312 0 0 0, .vmin 0 32 0 0, .vmin 0 0 32 0, .vmin 0 0 0 32, .vmax 2312 0 0 0, .vmax 0 32 0 0,
    .vmax 0 0 32 0, .vmax 0 0 0 32, .vexp2 2312 0 0, .vexp2 0 32 0, .vexp2 0 0 32, .vlog2 2312 0 0, .vlog2 0 32 0, .vlog2 0 0 32,
    .vrcp 2312 0 0, .vrcp 0 32 0, .vrcp 0 0 32, .vrsq 2312 0 0, .vrsq 0 32 0, .vrsq 0 0 32, .vcmp 2312 0 0 0, .vcmp 0 32 0 0,
    .vcmp 0 0 32 0, .vcmp 0 0 0 8, .vsel 2312 0 0 0, .vsel 0 32 0 0, .vsel 0 0 32 0, .vsel 0 0 0 32, .viadd 2312 0 0 0,
    .viadd 0 32 0 0, .viadd 0 0 32 0, .viadd 0 0 0 32, .vand 2312 0 0 0, .vand 0 32 0 0, .vand 0 0 32 0, .vand 0 0 0 32,
    .vor 2312 0 0 0, .vor 0 32 0 0, .vor 0 0 32 0, .vor 0 0 0 32, .vxor 2312 0 0 0] : List Instr).all (fun i => !i.wellFormed) = true := by decide

theorem test_ill_formed_3 : ([
    .vxor 0 32 0 0, .vxor 0 0 32 0, .vxor 0 0 0 32, .vshl 2312 0 0 0, .vshl 0 32 0 0, .vshl 0 0 32 0, .vshl 0 0 0 32,
    .vshr 2312 0 0 0, .vshr 0 32 0 0, .vshr 0 0 32 0, .vshr 0 0 0 32, .vcvtif 2312 0 0, .vcvtif 0 32 0, .vcvtif 0 0 32,
    .vcvtfi 2312 0 0, .vcvtfi 0 32 0, .vcvtfi 0 0 32, .vperm 2312 0 0 0, .vperm 0 32 0 0, .vperm 0 0 32 0, .vperm 0 0 0 32,
    .vred 2312 0 0 0, .vred 0 32 0 0, .vred 0 0 32 0, .vred 0 0 0 4, .vli 2312 0 0, .vli 0 32 0, .vld 2312 0 false 0 0,
    .vld 0 32 false 0 0, .vld 0 0 false 4 0, .vld 0 0 false 0 0x10000, .vst 2312 0 0 0, .vst 0 32 0 0, .vst 0 0 4 0,
    .vst 0 0 0 0x10000, .acadd 2312 0 0, .acadd 0 4 0, .acadd 0 0 0x10000, .loop 2312 0 0 0, .loop 0 256 0 0, .loop 0 0 4 0,
    .loop 0 0 0 0x1000, .fallEnd 2312, .dcopy 2312, .dgather 2312, .dscatter 2312, .dsend 2312, .dhalo 2312, .dfill 2312,
    .dhostrd 2312, .dhostwr 2312, .dput 2312, .drecv 2312, .qattend 2312, .qappend 2312, .commandRetire 2312 0] : List Instr).all (fun i => !i.wellFormed) = true := by decide

theorem test_ill_formed_4 : ([
    .elasticCompletion 2312 0, .fenceRelease 64, .waitWatchdog 2312, .seqWatchdog 1024, .scrubSlot 2312, .idleScrub 2312 false 0,
    .idleScrub 0 false 32, .eccWriteBack 2312 0 0, .eccWriteBack 0 8 0, .eccWriteBack 0 0 32, .eccInjectArm 2312 false 0,
    .csLodeAccess .foreman 2312 0 0 false 0, .csLodeAccess .foreman 0 0x200000 0 false 0, .csLodeAccess .foreman 0 0 16 false 0,
    .csMemoryAccess .foreman 2312 0 0 false 0, .csMemoryAccess .foreman 0 0x10000000 0 false 0,
    .csMemoryAccess .foreman 0 0 16 false 0, .parameterRegisterWrite 2312 0 0, .parameterRegisterWrite 0 256 0, .clearSchedFault 2312,
    .tallyEntryWrite 0x40000 0 0 0 false, .tallyEntryWrite 0 64 0 0 false,
    .tallyEntryWrite 0 0 16 0 false, .tallyUe 0x40000, .seamQappendRequest 32, .seamQattendRequest 32, .refresh 32 0 0,
    .refresh 0 17 0, .patrolScrubRead 32 .clean, .stateWindowAccess .foreman 32 0 0 false 0,
    .stateWindowAccess .foreman 0 0x2000000000 0 false 0, .stateWindowAccess .foreman 0 0 16 false 0, .seamRegionWrite 32 0,
    .channelRetire 32 0, .channelRetire 0 17, .channelRetireComplete 32, .channelReturn 32 0, .channelReturn 0 17,
    .parkComplete 0x40000, .resumeComplete 0x40000, .parkedExpiry 0x40000, .shipOfferSend 0x40000, .shipRetryTimer 0x40000,
    .shipTimeout 0x40000, .shipHoldExpiry 0x40000, .shardTimeout 0 2048, .lodeRepair 2312, .portEnable 16, .portDisable 16,
    .portAdmit 16, .portUnadmit 16, .portDrainEnd 16, .lanesLocked 16 [],
    .lanesLocked 0 [{ lane := 9, named := none, arrival := 0 }], .acquireTimeout 16] : List Instr).all (fun i => !i.wellFormed) = true := by decide

theorem test_ill_formed_5 : ([
    .initTimer 16, .initReceive 16 [], .initAckReceive 16 [], .notReadyReceive 16 [], .pingReceive 16 [], .pongReceive 16 [],
    .dataFlitReceive 16 ⟨0, [], []⟩, .dataFlitReceive 0 ⟨0x100000000, [], []⟩,
    .dataFlitReceive 0 ⟨0, [{ lane := 9, symbols := 0, uncorrectable := false, again := false }], []⟩, .controlFlitReceive 16 ⟨0, [], []⟩,
    .controlFlitReceive 0 ⟨0x100000000, [], []⟩,
    .controlFlitReceive 0 ⟨0, [{ lane := 9, symbols := 0, uncorrectable := false, again := false }], []⟩, .nackReceive 16 [], .creditReceive 16 [], .nackRepeatTimer 16,
    .replayTimeout 16, .ackAdvanceTimer 16, .transmitSlot 16, .laneWindow 16 0 0 0 false, .laneWindow 0 9 0 0 false,
    .spareReqReceive 16 [], .mirrorOnReceive 16 [], .switchedReceive 16 [], .releasedReceive 16 [], .degradeReqReceive 16 [],
    .degradeMarkReceive 16 [], .degradeDoneReceive 16 [], .widenReqReceive 16 [], .widenMarkReceive 16 [], .widenDoneReceive 16 [],
    .laneMessageRetry 16, .widthChangeTimeout 16, .laneSpare 16 false 0, .laneSpare 0 false 9, .laneReturn 16 false 0,
    .laneReturn 0 false 9, .laneWiden 16 false, .linkSilence 16, .holdRetrainComplete 16 [],
    .holdRetrainComplete 0 [{ lane := 9, named := none, arrival := 0 }],
    .linkResumeReceive 16 [], .downReceive 16 [], .graceExpiry 16, .messageReceive 16 0 [], .messageReceive 0 4 [], .putReceive 16 [],
    .putWindowTimeout 0x10000, .timeExchangeTimer 16, .timeReceive 16 [] 0, .barArriveReceive 16 [], .barReleaseReceive 16 [],
    .barrierReleaseAct 256, .barrierTimeout 256, .mailboxDoorbell 64, .ringDoorbell 64, .hostAccess 0x1000000000000 0 false 0,
    .hostAccess 0 65 false 0, .submit 64, .cancel 64, .park 64] : List Instr).all (fun i => !i.wellFormed) = true := by decide

theorem test_ill_formed_6 : ([
    .resume 64, .release 64, .extend 64, .reprefill 64, .ship 64, .query 64, .loadModel 64, .shardPost 64, .unloadModel 64,
    .prepareEpoch 64, .epochFlip 64, .cancelPrepare 64, .policy 64, .ringOpen 64, .ringClose 64, .windowGrant 64, .windowRevoke 64,
    .run 64, .fabricConfig 64, .unitCmd 64, .clockStep 64, .timeMode 64, .coreRetire 2312, .coreReturn 2312, .rowRepair 2312 false 0,
    .ledgerRebuild 32 0, .ledgerRebuild 0 1179648, .serviceFrameReceive 2 [] false, .wbTimeJump 0x10000000000000000,
    .getRecord 0x10000000000000000 0, .getRecord 0 0x100000000, .resumeTimer 16, .laneRetrainComplete 16 false 0,
    .laneRetrainComplete 0 false 9] : List Instr).all (fun i => !i.wellFormed) = true := by decide

theorem test_well_formed_1 : ([
    .registerWrite .foreman 281474976710655 15 0, .counterReadClear 281474976710655,
    .controlSpaceMisalignedAccess 281474976710655 64 false, .pwrGoodRise 15, .railTrip 31, .pllLockJudgment 24 0 0,
    .regionPllFailed 24, .refmuxSwitch 3, .refmuxForce 3, .droopFire 14 9, .lagTokenMirror 7, .droopWindow 7,
    .opticalEngineOn 15 false, .sensorSample 799 none, .logAppend 3 10 65535 [], .sidebandRequest 127 .pldmHottestSite,
    .stackTrainingComplete 31 false, .stateMemoryFillComplete 31, .cpush 2311 31, .ppatch 2311 255 false 31, .pset 2311 65535 false,
    .psetp 2311 15 127 63 false, .waitr 2311 15 31 31, .farrive 2311 63 false false false, .fenceArrivalDrained 2311,
    .ftrd 2311 31 false, .controlCoreInstruction 2311, .mload 2311, .mmul 2311, .mmulz 2311, .mdrain 2311, .mzero 2311, .schain 2311,
    .sdesc 2311, .stable 2311, .sfall 2311, .vnop 2311, .vadd 2311 31 31 31, .vsub 2311 31 31 31, .vmul 2311 31 31 31,
    .vfma 2311 31 31 31 31, .vmin 2311 31 31 31, .vmax 2311 31 31 31, .vexp2 2311 31 31, .vlog2 2311 31 31, .vrcp 2311 31 31,
    .vrsq 2311 31 31, .vcmp 2311 31 31 7, .vsel 2311 31 31 31, .viadd 2311 31 31 31, .vand 2311 31 31 31, .vor 2311 31 31 31,
    .vxor 2311 31 31 31, .vshl 2311 31 31 31, .vshr 2311 31 31 31, .vcvtif 2311 31 31] : List Instr).all (fun i => i.wellFormed) = true := by decide

theorem test_well_formed_2 : ([
    .vcvtfi 2311 31 31, .vperm 2311 31 31 31, .vred 2311 31 31 3, .vli 2311 31 0, .vld 2311 31 false 3 65535, .vst 2311 31 3 65535,
    .acadd 2311 3 65535, .loop 2311 255 3 4095, .fallEnd 2311, .dcopy 2311, .dgather 2311, .dscatter 2311, .dsend 2311, .dhalo 2311,
    .dfill 2311, .dhostrd 2311, .dhostwr 2311, .dput 2311, .drecv 2311, .qattend 2311, .qappend 2311, .commandRetire 2311 0,
    .elasticCompletion 2311 0, .fenceRelease 63, .waitWatchdog 2311, .seqWatchdog 1023, .scrubSlot 2311, .idleScrub 2311 false 31,
    .eccWriteBack 2311 7 31, .eccInjectArm 2311 false 0, .csLodeAccess .foreman 2311 2097151 15 false 0,
    .csMemoryAccess .foreman 2311 268435455 15 false 0, .parameterRegisterWrite 2311 255 0, .clearSchedFault 2311,
    .composeBatch 0, .tallyEntryWrite 262143 63 15 0 false, .tallyUe 262143, .seamQappendRequest 31,
    .seamQattendRequest 31, .refresh 31 16 0, .patrolScrubRead 31 .clean, .stateWindowAccess .foreman 31 137438953471 15 false 0,
    .seamRegionWrite 31 0, .channelRetire 31 16, .channelRetireComplete 31, .channelReturn 31 16, .parkComplete 262143,
    .resumeComplete 262143, .parkedExpiry 262143, .shipOfferSend 262143, .shipRetryTimer 262143, .shipTimeout 262143,
    .shipHoldExpiry 262143, .shardTimeout 0 2047, .lodeRepair 2311, .portEnable 15] : List Instr).all (fun i => i.wellFormed) = true := by decide

theorem test_well_formed_3 : ([
    .portDisable 15, .portAdmit 15, .portUnadmit 15, .portDrainEnd 15, .lanesLocked 15 [{ lane := 8, named := none, arrival := 0 }], .acquireTimeout 15, .initTimer 15,
    .initReceive 15 [], .initAckReceive 15 [], .notReadyReceive 15 [], .pingReceive 15 [], .pongReceive 15 [], .dataFlitReceive 15 ⟨0xFFFFFFFF, [], []⟩,
    .controlFlitReceive 15 ⟨0xFFFFFFFF, [], []⟩, .nackReceive 15 [], .creditReceive 15 [], .nackRepeatTimer 15, .replayTimeout 15, .ackAdvanceTimer 15,
    .transmitSlot 15, .laneWindow 15 8 0 0 false, .spareReqReceive 15 [], .mirrorOnReceive 15 [], .switchedReceive 15 [],
    .releasedReceive 15 [], .degradeReqReceive 15 [], .degradeMarkReceive 15 [], .degradeDoneReceive 15 [], .widenReqReceive 15 [],
    .widenMarkReceive 15 [], .widenDoneReceive 15 [], .laneMessageRetry 15, .widthChangeTimeout 15, .laneSpare 15 false 8,
    .laneReturn 15 false 8, .laneWiden 15 false, .linkSilence 15, .holdRetrainComplete 15 [{ lane := 8, named := none, arrival := 0 }], .linkResumeReceive 15 [],
    .downReceive 15 [], .graceExpiry 15, .messageReceive 15 3 [], .putReceive 15 [], .putWindowTimeout 65535, .timeExchangeTimer 15,
    .timeReceive 15 [] 0, .barArriveReceive 15 [], .barReleaseReceive 15 [], .barrierReleaseAct 255, .barrierTimeout 255,
    .mailboxDoorbell 63, .ringDoorbell 63, .hostAccess 281474976710655 64 false 0, .submit 63, .cancel 63, .park 63] : List Instr).all (fun i => i.wellFormed) = true := by decide

theorem test_well_formed_4 : ([
    .resume 63, .release 63, .extend 63, .reprefill 63, .ship 63, .query 63, .loadModel 63, .shardPost 63, .unloadModel 63,
    .prepareEpoch 63, .epochFlip 63, .cancelPrepare 63, .policy 63, .ringOpen 63, .ringClose 63, .windowGrant 63, .windowRevoke 63,
    .run 63, .fabricConfig 63, .unitCmd 63, .clockStep 63, .timeMode 63, .coreRetire 2311, .coreReturn 2311, .rowRepair 2311 false 0,
    .ledgerRebuild 31 1179647, .serviceFrameReceive 1 [] false, .wbTimeJump 18446744073709551615,
    .getRecord 18446744073709551615 4294967295, .resumeTimer 15, .laneRetrainComplete 15 false 8] : List Instr).all (fun i => i.wellFormed) = true := by decide

end Sys2Proof.Tests
end

/-! ## A module that idles, and one that is off (R6) -/

namespace Sys2Proof.Machine

/-- With no message to itself waiting, a module's tick is one nanosecond of fabric time. -/
theorem M.tick_quiet (m : M) (h : m.die.loopback = []) : m.tick = { m with die.ft := m.die.ft + 1 } := by
  calc m.tick = { m with die := { m.die with ft := m.die.ft + 1, loopback := [] } } := by
        simp [M.tick, M.deliverLoopback, h]
    _ = { m with die.ft := m.die.ft + 1 } := by rw [← h]

end Sys2Proof.Machine

namespace Sys2Proof
open Machine

/-- Headframe's commands: they act while Headframe runs, whether or not the compute die does. -/
def headframeCommand : Instr → Bool
  | .inputUndervoltage | .inputUndervoltageClear | .pllLockJudgment _ _ _ | .regionPllFailed _ | .refLoss => true
  | .refOk | .refmuxSwitch _ | .refmuxSwitchComplete | .refmuxForce _ | .pllRelockComplete => true
  | .thermalCheck | .emergencyHoldEnd | .powerCapCheck | .sensorSample _ _ | .romBoot => true
  | .recoveryImageReceive _ | .firmwareUpdate _ | .trialPromote | .commitSvn | .attest _ => true
  | .logAppend _ _ _ _ | .flashOperationComplete _ | .redfishRequest _ | .sidebandRequest _ _ | .mgtFrameReceive _ => true
  | _ => false

/-- Headframe's commands act through `onManaged`. -/
theorem exec_headframeCommand (c : Instr) (s : State) (h : headframeCommand c = true) :
    ∃ m, exec c s = .next (put s (if s.die.managed = true then m else view s)) := by
  cases c <;> cases h <;> exact ⟨_, rfl⟩

/-- Every other command, but for the tray's and the Weighbridge's, the broadcast and a register write, acts on a running compute
die alone. -/
theorem exec_dieCommand (c : Instr) (s : State) (hh : headframeCommand c = false) (ht : actsWithDiesOff c = false)
    (hb : c ≠ .ftBroadcast) (hw : ∀ req a width v, c ≠ .registerWrite req a width v) :
    ∃ m, exec c s = .next (put s (if s.die.live = true then m else view s)) := by
  cases c
  case ftBroadcast => exact absurd rfl hb
  case registerWrite req a width v => exact absurd rfl (hw req a width v)
  all_goals cases hh <;> cases ht <;> exact ⟨_, rfl⟩

/-- A die that does not run sends no broadcast of fabric time. -/
theorem execFtBroadcast_dead (s : State) (h : s.die.live = false) : execFtBroadcast s = .next s := by
  simp [execFtBroadcast, h]

/-- A die that does not run takes no register write. -/
theorem execRegisterWrite_dead (req : Requester) (a width : Nat) (v : Word) (s : State) (h : s.die.live = false)
    (hw : Memory.wf s.mem = true) : execRegisterWrite req a width v s = .next s := by
  simp [execRegisterWrite, h, onLive_dead _ s h hw]

/-- Before the tray has brought the module up, every command but the tray's and the Weighbridge's changes nothing (R6). -/
theorem exec_off (c : Instr) (s : State) (hl : s.die.live = false) (hm : s.die.managed = false)
    (hw : Memory.wf s.mem = true) (hc : actsWithDiesOff c = false) : exec c s = .next s := by
  cases hh : headframeCommand c
  case true =>
    obtain ⟨m, hm'⟩ := exec_headframeCommand c s hh
    simp [hm', hm, put_view s hw]
  case false =>
    by_cases hb : c = .ftBroadcast
    · subst hb; exact execFtBroadcast_dead s hl
    by_cases hr : ∃ req a width v, c = .registerWrite req a width v
    · obtain ⟨req, a, width, v, rfl⟩ := hr
      exact execRegisterWrite_dead req a width v s hl hw
    · obtain ⟨m, hm'⟩ := exec_dieCommand c s hh hc hb fun req a width v e => hr ⟨req, a, width, v, e⟩
      simp [hm', hl, put_view s hw]

/-- The step of an empty queue on a die that runs. -/
theorem tick_live (s : State) (hw : Memory.wf s.mem = true) (hl : s.die.live = true) (hq : s.die.loopback = []) :
    tick s = .next { s with die.ft := s.die.ft + 1 } := by
  rw [tick, onLive_eq _ _ hl, M.tick_quiet _ hq]
  simp [put, view_mem s hw]

/-- Settles O6: an idle module ticks, and the commands of a die that is off are lifts that leave the state alone. -/
theorem idleAndOffModules : Obligations.IdleAndOffModules := by
  refine ⟨fun s hp hw => ?_, fun c s hl hm hw hc => exec_off c s hl hm hw hc⟩
  have hs : Machine.step s = tick s := by simp [Machine.step, hp]
  rw [hs]
  exact ⟨tick_live s hw, fun hl => onLive_dead _ s hl hw⟩

end Sys2Proof

/-! ## The tray and the module reset -/

namespace Sys2Proof.Machine

/-! ### Rails off -/

@[simp] theorem M.spoilWrite_pwr (m : M) (r : FlashRequest) : (m.spoilWrite r).die.pwr = m.die.pwr := by
  cases r
  case fieldRepair x => simp only [M.spoilWrite]; split <;> simp
  all_goals simp [M.spoilWrite]

/-- What switching the rails off leaves of the power state. -/
theorem M.railsOff_pwr (m : M) :
    m.railsOff.die.pwr = { m.die.pwr with rails := false, mgtRail := false, released := false, unrecorded := none } := by
  simp only [M.railsOff]
  split <;> simp [M.updPwr]

/-- With the rails off neither the compute die nor Headframe runs. -/
theorem M.railsOff_off (m : M) : m.railsOff.die.live = false ∧ m.railsOff.die.managed = false := by
  simp [Die.live, Die.managed, M.railsOff_pwr]

/-! ### The module reset -/

@[simp] theorem M.applyRepair_mem (m : M) (r : FieldRepair) : (m.applyRepair r).mem = m.mem := by
  simp only [M.applyRepair]; repeat' split
  all_goals simp
@[simp] theorem M.applyRepair_ft (m : M) (r : FieldRepair) : (m.applyRepair r).die.ft = m.die.ft := by
  simp only [M.applyRepair]; repeat' split
  all_goals simp
@[simp] theorem M.applyRepair_step (m : M) (r : FieldRepair) : (m.applyRepair r).die.step = m.die.step := by
  simp only [M.applyRepair]; repeat' split
  all_goals simp
@[simp] theorem M.applyRepair_hdf (m : M) (r : FieldRepair) : (m.applyRepair r).die.hdf = m.die.hdf := by
  simp only [M.applyRepair]; repeat' split
  all_goals simp
@[simp] theorem M.applyRepair_pwr (m : M) (r : FieldRepair) : (m.applyRepair r).die.pwr = m.die.pwr := by
  simp only [M.applyRepair]; repeat' split
  all_goals simp

/-- What every field repair keeps, all of them keep. -/
theorem M.applyRepairs_keep {α : Type} (g : M → α) (h : ∀ m r, g (M.applyRepair m r) = g m) (l : List FieldRepair) (m : M) :
    g (l.foldl M.applyRepair m) = g m := by
  induction l generalizing m with
  | nil => rfl
  | cons r l ih => rw [List.foldl_cons, ih, h]

@[simp] theorem M.moduleReset_mem (m : M) : m.moduleReset.mem = .empty :=
  M.applyRepairs_keep (·.mem) M.applyRepair_mem _ _
@[simp] theorem M.moduleReset_ft (m : M) : m.moduleReset.die.ft = 0 :=
  M.applyRepairs_keep (·.die.ft) M.applyRepair_ft _ _
@[simp] theorem M.moduleReset_step (m : M) : m.moduleReset.die.step = none :=
  M.applyRepairs_keep (·.die.step) M.applyRepair_step _ _
@[simp] theorem M.moduleReset_hdf (m : M) : m.moduleReset.die.hdf = m.die.hdf.kept :=
  M.applyRepairs_keep (·.die.hdf) M.applyRepair_hdf _ _
@[simp] theorem M.moduleReset_pwr (m : M) : m.moduleReset.die.pwr = m.die.pwr.kept :=
  M.applyRepairs_keep (·.die.pwr) M.applyRepair_pwr _ _

/-- The application cores and the Foreman's memory are fresh after a reset without field repairs. -/
theorem M.moduleReset_fresh (m : M) (h : m.die.hdf.repairs = []) :
    m.moduleReset.die.cores = [] ∧ m.moduleReset.die.fmn = .fresh := by
  simp only [M.moduleReset, h, List.foldl_nil]
  exact ⟨rfl, rfl⟩

/-- Registers after a reset without field repairs (R17): the two that flash fills, and the reset values. -/
theorem M.moduleReset_reg (m : M) (h : m.die.hdf.repairs = []) (a : Nat) :
    m.moduleReset.reg a =
      if a = HDF_LOG_SEQ then BitVec.ofNat 64 m.die.hdf.logSeq
      else if a = HDF_BOOT_CNT then BitVec.ofNat 64 m.die.hdf.bootCount else regReset a := by
  simp only [M.moduleReset, h, List.foldl_nil, M.reg_setReg]
  rfl

/-! ### A trip recorded as the reset ends -/

/-- A record appended writes the log's part of Headframe's state alone: what it leaves of the boot. -/
theorem M.appendLog_boot (m : M) (v s c : Nat) (d : Bytes) :
    (m.appendLog v s c d).die.hdf.romStarted = m.die.hdf.romStarted ∧
    (m.appendLog v s c d).die.hdf.hostReleased = m.die.hdf.hostReleased := by
  simp only [M.appendLog, M.flash]
  split
  · simp only [M.serveFlash, M.writeLog]; split <;> simp [M.updHdf]
  · split <;> simp [M.updHdf, flashRank]

/-- A trip's record leaves memory, time and power as they were, and starts nothing. -/
theorem M.tripRecorded_keeps (m : M) (trip : Nat) :
    (m.tripRecorded trip).mem = m.mem ∧ (m.tripRecorded trip).die.ft = m.die.ft ∧
    (m.tripRecorded trip).die.pwr = m.die.pwr ∧ (m.tripRecorded trip).die.hdf.romStarted = m.die.hdf.romStarted ∧
    (m.tripRecorded trip).die.hdf.hostReleased = m.die.hdf.hostReleased := by
  unfold M.tripRecorded
  split <;> simp [M.logEvent, M.appendLog_boot]

/-- A reset die runs no program: Headframe is up, the boot has not yet released the rest (R543, R552). -/
theorem M.release_of_ready (m : M) (hr : m.die.pwr.refclk = true) (hm : m.die.pwr.mgtRail = true)
    (hn : m.die.pwr.released = false) (hp : m.die.pwr.pllDead = false) :
    m.release.mem = .empty ∧ m.release.die.ft = 0 ∧ m.release.die.pwr = m.die.pwr.kept ∧
    m.release.die.hdf.romStarted = false ∧ m.release.die.hdf.hostReleased = false := by
  simp only [M.release, hr, hm, hn, hp]
  cases m.die.pwr.unrecorded with
  | none => simp [Headframe.kept, Headframe.atReset]
  | some trip => simp [M.tripRecorded_keeps, Headframe.kept, Headframe.atReset]

/-- With no trip to record the release is the module reset. -/
theorem M.release_eq_moduleReset (m : M) (hr : m.die.pwr.refclk = true) (hm : m.die.pwr.mgtRail = true)
    (hn : m.die.pwr.released = false) (hp : m.die.pwr.pllDead = false) (hu : m.die.pwr.unrecorded = none) :
    m.release = m.moduleReset := by
  simp [M.release, hr, hm, hn, hp, hu]

/-- A module whose Headframe PLL has failed stays in reset (R545). -/
theorem M.release_of_pllDead (m : M) (hp : m.die.pwr.pllDead = true) : m.release = m := by
  simp [M.release, hp]

/-! ### The tray's events -/

/-- PWR_GOOD rises on a module whose input is there and whose rails are not latched off. -/
def M.poweredOn (m : M) (straps : Nat) : M :=
  m.updPwr fun p => { p with
    pwrGood := true, straps := straps % 16, mgtRail := true, rails := true, released := false, pllDead := false, unrecorded := none }

theorem M.pwrGoodRise_eq (m : M) (straps : Nat) (hg : m.die.pwr.pwrGood = false) (hi : m.die.pwr.input50 = true)
    (hl : m.die.pwr.latched = false) : m.pwrGoodRise straps = (m.poweredOn straps).release := by
  simp [M.pwrGoodRise, M.poweredOn, M.updPwr, hg, hi, hl]

/-- Without REFCLK the module stays in reset (R543). -/
theorem M.release_of_noRefclk (m : M) (hr : m.die.pwr.refclk = false) : m.release = m := by
  simp [M.release, hr]

/-- With REFCLK the rise of PWR_GOOD is a module reset (R6, R543). -/
theorem M.pwrGoodRise_reset (m : M) (straps : Nat) (hg : m.die.pwr.pwrGood = false) (hi : m.die.pwr.input50 = true)
    (hl : m.die.pwr.latched = false) (hr : m.die.pwr.refclk = true) :
    m.pwrGoodRise straps = (m.poweredOn straps).moduleReset := by
  rw [M.pwrGoodRise_eq m straps hg hi hl]
  exact M.release_eq_moduleReset _ hr rfl rfl rfl rfl

end Sys2Proof.Machine

namespace Sys2Proof
open Machine

/-- 50 V arrives: the latch goes, the rails stay, and the Weighbridge starts. -/
theorem input50vApplied_effect (s : State) (h : s.die.pwr.input50 = false) :
    ∃ t, exec .input50vApplied s = .next t ∧ t.die.pwr.input50 = true ∧ t.die.pwr.latched = false ∧
      t.die.pwr.rails = s.die.pwr.rails ∧ t.wb = wbPowerUp s.wb := by
  refine ⟨_, rfl, ?_⟩
  simp [h, M.updPwr]

/-- 50 V is lost: the rails go off and the Weighbridge stops. -/
theorem input50vLoss_effect (s : State) :
    ∃ t, exec .input50vLoss s = .next t ∧ t.die.pwr.input50 = false ∧ t.die.pwr.latched = false ∧
      t.die.live = false ∧ t.die.managed = false ∧ t.wb = wbPowerDown s.wb := by
  refine ⟨_, rfl, ?_, ?_, (M.railsOff_off _).1, (M.railsOff_off _).2, rfl⟩ <;> simp [M.railsOff_pwr, M.updPwr]

/-- PWR_GOOD falls: the rails go off, the latch and the Weighbridge stay. -/
theorem pwrGoodFall_effect (s : State) :
    ∃ t, exec .pwrGoodFall s = .next t ∧ t.die.pwr.pwrGood = false ∧ t.die.live = false ∧ t.die.managed = false ∧
      t.die.pwr.latched = s.die.pwr.latched ∧ t.wb = s.wb := by
  refine ⟨_, rfl, ?_, (M.railsOff_off _).1, (M.railsOff_off _).2, ?_, rfl⟩ <;> simp [M.railsOff_pwr, M.updPwr]

/-- The input goes out of range: the rails go off, and below 40 V the Weighbridge stops (log entry 101). -/
theorem inputShutdown_effect (s : State) :
    ∃ t low, exec .inputShutdown s = .next t ∧ t.die.live = false ∧ t.die.managed = false ∧
      t.die.pwr.latched = s.die.pwr.latched ∧ t.wb = if low = true then wbPowerDown s.wb else s.wb := by
  refine ⟨_, decide (Config.freeNat s.die.free % 2 = 0), rfl, (M.railsOff_off _).1, (M.railsOff_off _).2, ?_, ?_⟩ <;>
    simp [M.railsOff_pwr]

/-- PWR_GOOD rises: with REFCLK the module comes up from reset, without it the dies wait. -/
theorem pwrGoodRise_effect (s : State) (straps : Nat) (hs : straps < 16) (hg : s.die.pwr.pwrGood = false)
    (hi : s.die.pwr.input50 = true) (hl : s.die.pwr.latched = false) :
    ∃ t, exec (.pwrGoodRise straps) s = .next t ∧ t.die.pwr.pwrGood = true ∧ t.die.pwr.straps = straps ∧
      (s.die.pwr.refclk = true →
        t.die.managed = true ∧ t.die.pwr.rails = true ∧ t.mem = [] ∧ t.die.ft = 0 ∧ t.die.step = none) ∧
      (s.die.pwr.refclk = false → t.die.managed = false) ∧ t.die.live = false := by
  refine ⟨put s ((view s).pwrGoodRise straps), rfl, ?_⟩
  cases hr : s.die.pwr.refclk with
  | true =>
    rw [M.pwrGoodRise_reset (view s) straps hg hi hl hr]
    simp [M.poweredOn, M.updPwr, Power.kept, Die.managed, Die.live, Headframe.kept, CMem.empty, Nat.mod_eq_of_lt hs]
  | false =>
    rw [M.pwrGoodRise_eq (view s) straps hg hi hl, M.release_of_noRefclk _ hr]
    simp [M.poweredOn, M.updPwr, Die.managed, Die.live, Nat.mod_eq_of_lt hs]

/-- REFCLK appears at a module whose Headframe PLL has failed (R545). -/
theorem refclkPresent_pllDead (s : State) (hp : s.die.pwr.pllDead = true) (hw : Memory.wf s.mem = true) :
    exec .refclkPresent s = .next { s with die.pwr.refclk := true } := by
  have h : exec .refclkPresent s = .next (put s ((view s).updPwr fun p => { p with refclk := true }).release) := rfl
  rw [h, M.release_of_pllDead _ hp]
  simp [put, M.updPwr, view_mem s hw]

/-- REFCLK appears at a module whose rails are up: it comes out of reset (R17, R197, R543). -/
theorem refclkPresent_effect (s : State) (hm : s.die.pwr.mgtRail = true) (hn : s.die.pwr.released = false)
    (hp : s.die.pwr.pllDead = false) :
    ∃ t, exec .refclkPresent s = .next t ∧ t.die.managed = true ∧ t.mem = [] ∧ t.die.ft = 0 ∧
      t.die.hdf.romStarted = false ∧ t.die.live = false ∧
      (s.die.hdf.repairs = [] → s.die.pwr.unrecorded = none →
        ∀ a, a ≠ HDF_BOOT_CNT → a ≠ HDF_LOG_SEQ → (view t).reg a = regReset a) := by
  obtain ⟨hmem, hft, hpwr, hrom, hhost⟩ :=
    M.release_of_ready ((view s).updPwr fun p => { p with refclk := true }) rfl hm hn hp
  refine ⟨_, rfl, ?_, ?_, hft, hrom, ?_, fun hrep hu a hb hl => ?_⟩
  · exact (congrArg (fun p : Power => p.mgtRail && p.released) hpwr).trans (by simp [Power.kept, M.updPwr, hm])
  · exact congrArg CMem.cells hmem
  · simp only [Die.live]; exact (congrArg _ hhost).trans (Bool.and_false _)
  · refine (congrArg (M.reg · a) (view_put s _)).trans ?_
    dsimp only
    rw [M.release_eq_moduleReset _ rfl hm hn hp hu, M.moduleReset_reg _ hrep, if_neg hl, if_neg hb]

/-- What the rise of PWR_GOOD keeps over the reset, where no field repair is applied (R17, R507, R551, R563). -/
theorem pwrGoodRise_keeps (s t : State) (straps : Nat) (hg : s.die.pwr.pwrGood = false) (hi : s.die.pwr.input50 = true)
    (hl : s.die.pwr.latched = false) (hr : s.die.pwr.refclk = true) (hrep : s.die.hdf.repairs = [])
    (h : exec (.pwrGoodRise straps) s = .next t) :
    t.wb = s.wb ∧ t.die.hdf.log = s.die.hdf.log ∧ t.die.hdf.logTip = s.die.hdf.logTip ∧
    t.die.hdf.slotA = s.die.hdf.slotA ∧ t.die.hdf.slotB = s.die.hdf.slotB ∧ t.die.hdf.bootCount = s.die.hdf.bootCount ∧
    t.die.cores = [] ∧ t.die.fmn = .fresh ∧
    (view t).reg HDF_BOOT_CNT = BitVec.ofNat 64 s.die.hdf.bootCount ∧
    (view t).reg HDF_LOG_SEQ = BitVec.ofNat 64 s.die.hdf.logSeq ∧
    keepsRegs { s with die.regs := [] } t [HDF_BOOT_CNT, HDF_LOG_SEQ] := by
  have ht : t = put s ((view s).poweredOn straps).moduleReset := by
    rw [← M.pwrGoodRise_reset (view s) straps hg hi hl hr]
    injection h with h; exact h.symm
  have hreg := M.moduleReset_reg ((view s).poweredOn straps) hrep
  obtain ⟨hcores, hfmn⟩ := M.moduleReset_fresh ((view s).poweredOn straps) hrep
  have hne : HDF_BOOT_CNT ≠ HDF_LOG_SEQ := by decide
  have hdf := M.moduleReset_hdf ((view s).poweredOn straps)
  subst ht
  have hboot : (view (put s ((view s).poweredOn straps).moduleReset)).reg HDF_BOOT_CNT = BitVec.ofNat 64 s.die.hdf.bootCount := by
    rw [view_put, hreg, if_neg hne, if_pos rfl]; rfl
  have hseq : (view (put s ((view s).poweredOn straps).moduleReset)).reg HDF_LOG_SEQ = BitVec.ofNat 64 s.die.hdf.logSeq := by
    rw [view_put, hreg, if_pos rfl]; rfl
  refine ⟨rfl, (congrArg Headframe.log hdf :), (congrArg Headframe.logTip hdf :), (congrArg Headframe.slotA hdf :),
    (congrArg Headframe.slotB hdf :), (congrArg Headframe.bootCount hdf :), hcores, hfmn, hboot, hseq, fun a ha => ?_⟩
  simp only [List.mem_cons, List.not_mem_nil, or_false, not_or] at ha
  rw [view_put, hreg, if_neg ha.2, if_neg ha.1]
  rfl

/-- Settles O14: each of the tray's events by what it does to power, and the rise of PWR_GOOD and REFCLK by the module reset. -/
theorem trayPower : Obligations.TrayPower :=
  ⟨fun s => ⟨input50vApplied_effect s, input50vLoss_effect s, pwrGoodFall_effect s, inputShutdown_effect s,
      pwrGoodRise_effect s, refclkPresent_pllDead s, refclkPresent_effect s⟩,
    fun s t straps hg hi hl hr hrep h => pwrGoodRise_keeps s t straps hg hi hl hr hrep h⟩

end Sys2Proof

/-! ## Registers by access type -/

namespace Sys2Proof.Machine

/-! ### Registers that stand once -/

/-- An address outside every window takes the accesses of a register. -/
theorem accessAllowed_other (a width : Nat) (h : place a = .other) : accessAllowed a width = registerOk width a := by
  simp [accessAllowed, h, Place.memory]

/-- A 64-bit write reaches every bit. -/
theorem writeMask_64 (a : Nat) (i : Nat) (h : i < 64) : (writeMask a 8).getLsbD i = true := by
  rw [writeMask, if_pos rfl, BitVec.getLsbD_not]; simp [h]

/-- A register's bits after a write, by their access types (R9, R10). -/
theorem RegRow.written_getLsbD (r : RegRow) (old mask v : Word) (i : Nat) (h : i < 64) :
    (r.written old mask v).getLsbD i =
      (let w := if r.rw.testBit i && mask.getLsbD i then v.getLsbD i else old.getLsbD i
       (w && !(v.getLsbD i && r.w1c.testBit i && mask.getLsbD i)) ||
         (v.getLsbD i && r.w1s.testBit i && mask.getLsbD i)) := by
  simp only [RegRow.written, BitVec.getLsbD_or, BitVec.getLsbD_and, BitVec.getLsbD_not, BitVec.getLsbD_ofNat, h,
    decide_true, Bool.true_and]
  cases r.rw.testBit i && mask.getLsbD i <;> simp

/-- A write of a register that starts nothing of its own is the plain write. -/
theorem M.controlWrite_plain (m : M) (req : Requester) (a : Nat) (v : Word) (h : plainRegister a) :
    m.controlWrite req a 8 v = m.plainWrite a (writeMask a 8) v := by
  obtain ⟨hp, ha, hmb, hring, hl⟩ := h
  have hr : a / 8 * 8 = a := by omega
  simp only [List.mem_cons, List.not_mem_nil, or_false, not_or] at hl
  simp [M.controlWrite, hp, hr, M.globalWrite, hmb, hring, hl, writeValue]

/-- A 64-bit register write of a die that runs, at a register that starts nothing of its own. -/
theorem execRegisterWrite_plain (s : State) (req : Requester) (a : Nat) (v : Word) (hl : s.die.live = true)
    (h : plainRegister a) :
    execRegisterWrite req a 8 v s = .next (put s ((view s).plainWrite a (writeMask a 8) v)) := by
  have hc := M.controlWrite_plain (view s) req a v h
  obtain ⟨hp, ha, -, -, hn⟩ := h
  have hr : a / 8 * 8 = a := by omega
  have ha8 : accessAllowed a 8 = true := by simp [accessAllowed_other a 8 hp, registerOk, ha]
  have hd : a ≠ HDF_WB_DEMAND := by
    intro e; simp [e] at hn
  simp [execRegisterWrite, hr, ha8, hd, onLive_eq _ s hl, hc]

/-- A 64-bit read of a counter that clears returns its value, and clears that register alone (R12, R17). -/
theorem M.readClear_counter (m : M) (a : Nat) (r : RegRow) (hp : place a = .other) (hr : regRow a = some r)
    (hc : r.rc = true) :
    (m.readClear a).die.readData = m.readReg a ∧ (m.readClear a).die.regs = mapSet m.die.regs a 0 ∧
      (m.readClear a).mem = m.mem := by
  unfold M.readClear
  simp only [hr, hc, hp, Bool.not_false, Bool.and_self, if_true]
  by_cases ha : a = CLK_HOLDOVER_NS_CNT
  · rw [if_pos ha]; exact ⟨rfl, rfl, rfl⟩
  · rw [if_neg ha]; exact ⟨rfl, rfl, rfl⟩

/-- A read of an address outside every window (R8, R12). -/
theorem M.controlRead_other (m : M) (wb : Weighbridge) (req : Requester) (a width : Nat) (hp : place a = .other) :
    m.controlRead wb req a width =
      if width = 8 then m.readClear a else { m with die.readData := halfOf a (m.readReg (a / 8 * 8)) } := by
  simp [M.controlRead, hp, M.siteTraffic]

/-- A disallowed access is counted, and no other register changes (R12). -/
theorem M.count_accessErr (m : M) :
    (m.count HDF_CS_ACCESS_ERR_CNT).regN HDF_CS_ACCESS_ERR_CNT = min (m.regN HDF_CS_ACCESS_ERR_CNT + 1) counterMax ∧
      ∀ a, a ∉ [HDF_CS_ACCESS_ERR_CNT] → (m.count HDF_CS_ACCESS_ERR_CNT).reg a = m.reg a := by
  refine ⟨M.regN_count _ _, fun a ha => ?_⟩
  rw [M.reg_count, if_neg (by simpa using ha)]

end Sys2Proof.Machine

namespace Sys2Proof
open Machine

/-- A 64-bit write updates each field of a plain register by its access type, and nothing else (R9, R10). -/
theorem registerWrite_byAccessType (s : State) (req : Requester) (a : Nat) (r : RegRow) (v : Word)
    (hl : s.die.live = true) (hp : plainRegister a) (hr : regRow a = some r) (hw : Memory.wf s.mem = true) :
    ∃ t, exec (.registerWrite req a 8 v) s = .next t ∧
      (∀ i, i < 64 → ((view t).reg a).getLsbD i =
        (let old := if r.rw.testBit i then v.getLsbD i else ((view s).reg a).getLsbD i
         (old && !(v.getLsbD i && r.w1c.testBit i)) || (v.getLsbD i && r.w1s.testBit i))) ∧
      keepsRegs s t [a] ∧ t.mem = s.mem ∧ t.die.readData = s.die.readData := by
  have hm : (view s).plainWrite a (writeMask a 8) v =
      (view s).setReg a (r.written ((view s).reg a) (writeMask a 8) v) := by simp [M.plainWrite, hr]
  refine ⟨_, execRegisterWrite_plain s req a v hl hp, fun i hi => ?_, fun b hb => ?_, ?_, ?_⟩
  · rw [view_put, hm, M.reg_setReg_same, RegRow.written_getLsbD r _ _ v i hi]
    simp [writeMask_64 a i hi]
  · rw [view_put, hm, M.reg_setReg_ne _ _ _ _ (by simpa using hb)]
  · rw [hm, put_mem, M.setReg_mem, view_mem s hw]
  · rw [hm]; rfl

/-- A 64-bit read of an RC counter returns and clears it (R12). -/
theorem counterReadClear_clears (s : State) (a : Nat) (r : RegRow) (hl : s.die.live = true) (hw : Memory.wf s.mem = true)
    (hp : place a = .other) (ha : a % 8 = 0) (hr : regRow a = some r) (hc : r.rc = true) :
    ∃ t, exec (.counterReadClear a) s = .next t ∧ t.die.readData = (view s).readReg a ∧ (view t).reg a = 0 ∧
      keepsRegs s t [a] ∧ t.mem = s.mem := by
  have ha8 : accessAllowed a 8 = true := by simp [accessAllowed_other a 8 hp, registerOk, ha]
  have he : exec (.counterReadClear a) s = .next (put s ((view s).readClear a)) := by
    simp [exec, execCounterReadClear, onLive_eq _ s hl, ha8, M.controlRead_other _ _ _ _ _ hp]
  obtain ⟨hd, hregs, hmem⟩ := M.readClear_counter (view s) a r hp hr hc
  have hreg : ∀ b, ((view s).readClear a).reg b = ((view s).setReg a 0).reg b := fun b => M.reg_congr hregs b
  refine ⟨_, he, hd, ?_, fun b hb => ?_, ?_⟩
  · rw [view_put, hreg, M.reg_setReg_same]
  · rw [view_put, hreg, M.reg_setReg_ne _ _ _ _ (by simpa using hb)]
  · rw [put_mem, hmem, view_mem s hw]

/-- A 32-bit read returns its half and clears nothing (R12). -/
theorem halfRead_keeps (s : State) (a : Nat) (hl : s.die.live = true) (hw : Memory.wf s.mem = true)
    (hp : place a = .other) (ha : a % 4 = 0) :
    ∃ t, exec (.controlSpaceMisalignedAccess a 4 false) s = .next t ∧
      t.die.readData = halfOf a ((view s).readReg (a / 8 * 8)) ∧ t.die.regs = s.die.regs ∧ t.mem = s.mem := by
  have ha4 : accessAllowed a 4 = true := by simp [accessAllowed_other a 4 hp, registerOk, ha]
  refine ⟨put s { view s with die.readData := halfOf a ((view s).readReg (a / 8 * 8)) }, ?_, rfl, rfl, view_mem s hw⟩
  simp [exec, execControlSpaceMisalignedAccess, onLive_eq _ s hl, ha4, M.controlRead_other _ _ _ _ _ hp]

/-- A disallowed write is counted and reaches nothing (R12). -/
theorem disallowedWrite_counted (s : State) (a width : Nat) (hl : s.die.live = true) (hw : Memory.wf s.mem = true)
    (ha : accessAllowed a width = false) :
    ∃ t, exec (.controlSpaceMisalignedAccess a width true) s = .next t ∧ t.die.readData = s.die.readData ∧
      (view t).regN HDF_CS_ACCESS_ERR_CNT = min ((view s).regN HDF_CS_ACCESS_ERR_CNT + 1) counterMax ∧
      keepsRegs s t [HDF_CS_ACCESS_ERR_CNT] ∧ t.mem = s.mem := by
  have he : exec (.controlSpaceMisalignedAccess a width true) s = .next (put s ((view s).count HDF_CS_ACCESS_ERR_CNT)) := by
    simp [exec, execControlSpaceMisalignedAccess, onLive_eq _ s hl, ha]
  obtain ⟨hc, hk⟩ := M.count_accessErr (view s)
  exact ⟨_, he, rfl, by rw [view_put, hc], fun b hb => by rw [view_put, hk b hb], view_mem s hw⟩

/-- A disallowed read is counted, gives zero and reaches nothing (R12). -/
theorem disallowedRead_counted (s : State) (a width : Nat) (hl : s.die.live = true) (hw : Memory.wf s.mem = true)
    (ha : accessAllowed a width = false) :
    ∃ t, exec (.controlSpaceMisalignedAccess a width false) s = .next t ∧ t.die.readData = 0 ∧
      (view t).regN HDF_CS_ACCESS_ERR_CNT = min ((view s).regN HDF_CS_ACCESS_ERR_CNT + 1) counterMax ∧
      keepsRegs s t [HDF_CS_ACCESS_ERR_CNT] ∧ t.mem = s.mem := by
  have he : exec (.controlSpaceMisalignedAccess a width false) s = .next (put s (view s).badAccess) := by
    simp [exec, execControlSpaceMisalignedAccess, onLive_eq _ s hl, ha]
  obtain ⟨hc, hk⟩ := M.count_accessErr (view s)
  exact ⟨_, he, rfl, by rw [view_put]; exact hc, fun b hb => by rw [view_put]; exact hk b hb, view_mem s hw⟩

/-- A write to an address that no table assigns changes nothing (R8). -/
theorem unassignedWrite_noop (s : State) (a : Nat) (req : Requester) (v : Word) (hl : s.die.live = true)
    (hw : Memory.wf s.mem = true) (hp : plainRegister a) (hr : regRow a = none) :
    exec (.registerWrite req a 8 v) s = .next s := by
  refine (execRegisterWrite_plain s req a v hl hp).trans ?_
  simp [M.plainWrite, hr, put_view s hw]

/-- Settles O24, access by access: the write by access type, the reads of both widths, the disallowed accesses and the address
without a register. -/
theorem registersByAccessType : Obligations.RegistersByAccessType :=
  ⟨fun s req a r v hl hp hr hw => registerWrite_byAccessType s req a r v hl hp hr hw,
    fun s a r hl hw => ⟨fun hp ha hr hc => counterReadClear_clears s a r hl hw hp ha hr hc,
      fun hp ha => halfRead_keeps s a hl hw hp ha,
      fun width ha => ⟨disallowedWrite_counted s a width hl hw ha, disallowedRead_counted s a width hl hw ha⟩,
      fun hp hr req v => unassignedWrite_noop s a req v hl hw hp hr⟩⟩

end Sys2Proof

/-! ## Mailbox commands -/

namespace Sys2Proof.Machine

/-! ### Errors of state memory leave the rings alone -/

@[simp] theorem M.updSeam_fmn (m : M) (s : Nat) (f : Seam → Seam) : (m.updSeam s f).die.fmn = m.die.fmn := rfl
@[simp] theorem M.write_fmn (m : M) (a : Nat) (bs : Bytes) : (m.write a bs).die.fmn = m.die.fmn := rfl
@[simp] theorem M.report_fmn (m : M) (cls block inst memory bank row detail : Nat) :
    (m.report cls block inst memory bank row detail).die.fmn = m.die.fmn := rfl
@[simp] theorem M.errorClass_fmn (m : M) (cls block inst detail : Nat) :
    (m.errorClass cls block inst detail).die.fmn = m.die.fmn := by
  simp only [M.errorClass]; split <;> simp
@[simp] theorem M.stepErrorReported_fmn (m : M) : m.stepErrorReported.die.fmn = m.die.fmn := rfl
@[simp] theorem M.markFrame_fmn (m : M) (s ch f : Nat) : (m.markFrame s ch f).die.fmn = m.die.fmn := rfl
@[simp] theorem M.frameCorrected_fmn (m : M) (s ch f page : Nat) :
    (m.frameCorrected s ch f page).die.fmn = m.die.fmn := by
  unfold M.frameCorrected; dsimp only; split
  · rw [M.markFrame_fmn, M.updSeam_fmn, M.errorClass_fmn, M.count_fmn]
  · rw [M.updSeam_fmn, M.errorClass_fmn, M.count_fmn]
@[simp] theorem M.frameError_fmn (m : M) (s ch f e page source : Nat) :
    (m.frameError s ch f e page source).die.fmn = m.die.fmn := by
  simp only [M.frameError]; split <;> simp
@[simp] theorem M.seamReport_fmn (m : M) (cls s p : Nat) : (m.seamReport cls s p).die.fmn = m.die.fmn := by
  simp [M.seamReport]
@[simp] theorem M.setTally_fmn (m : M) (slot off n v : Nat) : (m.setTally slot off n v).die.fmn = m.die.fmn := rfl
@[simp] theorem M.faultPending_fmn (m : M) (slot : Nat) : (m.faultPending slot).die.fmn = m.die.fmn := by
  simp only [M.faultPending]; split <;> simp [M.setTFlag]
@[simp] theorem M.poolError_fmn (m : M) (s p source : Nat) : (m.poolError s p source).die.fmn = m.die.fmn := by
  simp only [M.poolError]
  split
  · simp
  · split <;> simp
@[simp] theorem M.tableError_rings (m : M) (s p a source : Nat) :
    (m.tableError s p a source).die.fmn.rings = m.die.fmn.rings := by
  simp only [M.tableError]
  repeat' split
  all_goals simp
@[simp] theorem M.burstError_rings (m : M) (a source : Nat) : (m.burstError a source).die.fmn.rings = m.die.fmn.rings := by
  simp only [M.burstError]
  repeat' split
  all_goals simp
@[simp] theorem M.noteBurst_rings (m : M) (source : Nat) (b : Nat × Nat) :
    (m.noteBurst source b).die.fmn.rings = m.die.fmn.rings := by
  simp only [M.noteBurst]; split <;> simp

/-- What every step of a fold keeps, the fold keeps. -/
theorem foldl_keeps {α β γ : Type} (g : α → γ) (f : α → β → α) (h : ∀ m b, g (f m b) = g m) (l : List β) (m : α) :
    g (l.foldl f m) = g m := by
  induction l generalizing m with
  | nil => rfl
  | cons b l ih => rw [List.foldl_cons, ih, h]

@[simp] theorem M.noteBursts_rings (m : M) (a n source : Nat) :
    (m.noteBursts a n source).die.fmn.rings = m.die.fmn.rings :=
  foldl_keeps (·.die.fmn.rings) _ (fun m b => M.noteBurst_rings m source b) _ _
@[simp] theorem M.noteCarve_rings (m : M) (a n : Nat) : (m.noteCarve a n).die.fmn.rings = m.die.fmn.rings :=
  foldl_keeps (·.die.fmn.rings) _ (fun m _ => M.noteBursts_rings m _ _ _) _ _
@[simp] theorem M.freshBurst_rings (m : M) (b : Nat × Nat) : (m.freshBurst b).die.fmn.rings = m.die.fmn.rings := by
  simp only [M.freshBurst]; split <;> rfl
@[simp] theorem M.mergeBurst_rings (m : M) (a n source : Nat) (b : Nat × Nat) :
    (m.mergeBurst a n source b).die.fmn.rings = m.die.fmn.rings := by
  simp only [M.mergeBurst]; split <;> simp
@[simp] theorem M.stateWrite_rings (m : M) (a : Nat) (bs : Bytes) (source : Nat) :
    (m.stateWrite a bs source).die.fmn.rings = m.die.fmn.rings :=
  foldl_keeps (·.die.fmn.rings) _ (fun m b => M.mergeBurst_rings m _ _ _ b) _ _
@[simp] theorem M.carveWrite_rings (m : M) (a : Nat) (bs : Bytes) : (m.carveWrite a bs).die.fmn.rings = m.die.fmn.rings :=
  foldl_keeps (·.die.fmn.rings) _ (fun m _ => M.stateWrite_rings m _ _ _) _ _

/-! ### Sparse maps -/

@[simp] theorem mapGet_mapDel_same {α : Type} (m : NMap α) (k : Nat) : mapGet (mapDel m k) k = none := by
  have h := lookup_filter m (fun x => x != k) k
  simpa [mapGet, mapDel] using h

theorem mapGet_mapDel_ne {α : Type} (m : NMap α) (k j : Nat) (h : j ≠ k) : mapGet (mapDel m k) j = mapGet m j := by
  have h' := lookup_filter m (fun x => x != k) j
  simpa [mapGet, mapDel, h] using h'

/-! ### Little-endian numbers -/

theorem ofBytes_lt (bs : Bytes) : ofBytes bs < 256 ^ bs.length := by
  induction bs with
  | nil => simp [ofBytes]
  | cons b bs ih =>
    have := b.isLt
    simp only [ofBytes, List.length_cons, pow_succ]
    omega

/-- A number read back from where it was written. -/
theorem M.readN_writeN_same (m : M) (a n v : Nat) : (m.writeN a n v).readN a n = v % 256 ^ n := by
  have h := CMem.read_write_same m.mem a (toBytes n v)
  rw [toBytes_length] at h
  rw [← ofBytes_toBytes]
  exact congrArg ofBytes h

/-- A number read apart from what was written is what it was. -/
theorem M.readN_writeN_other (m : M) (a n v b k : Nat) (h : b + k ≤ a ∨ a + n ≤ b) :
    (m.writeN a n v).readN b k = m.readN b k :=
  congrArg ofBytes (CMem.read_write_other m.mem a (toBytes n v) b k (by rw [toBytes_length]; exact h))

theorem M.readN_lt (m : M) (a n : Nat) : m.readN a n < 256 ^ n := by
  have h := ofBytes_lt (m.mem.read a n)
  rwa [CMem.read_length] at h

/-! ### The end of a mailbox command (R524) -/

@[simp] theorem M.mbComplete_fmn (m : M) (mb code : Nat) : (m.mbComplete mb code).die.fmn = m.die.fmn := rfl
@[simp] theorem M.mbComplete_pwr (m : M) (mb code : Nat) : (m.mbComplete mb code).die.pwr = m.die.pwr := rfl
@[simp] theorem M.mbComplete_sites (m : M) (mb code : Nat) : (m.mbComplete mb code).die.sites = m.die.sites := rfl

/-- A completion writes two registers. -/
theorem M.mbComplete_reg (m : M) (mb code b : Nat) (hb : b ≠ FMN_MB_BUSY) (hi : b ≠ FMN_HOST_IRQ_MB) :
    (m.mbComplete mb code).reg b = m.reg b := by
  simp [M.mbComplete, M.reg_raise, M.reg_setFld, hb, hi]

theorem M.mbComplete_fld (m : M) (mb code b hi lo : Nat) (hb : b ≠ FMN_MB_BUSY) (hq : b ≠ FMN_HOST_IRQ_MB) :
    (m.mbComplete mb code).fld b hi lo = m.fld b hi lo := by
  simp [M.fld, M.mbComplete_reg m mb code b hb hq]

/-- STATUS, BUSY and the interrupt bit of a mailbox that has completed (R524). -/
theorem M.mbComplete_completes (m : M) (mb code : Nat) (hm : mb < 64) (hc : code < 256) :
    (m.mbComplete mb code).mbArg mb 1 1 = code ∧ (m.mbComplete mb code).mbBusy mb = false ∧
      (m.mbComplete mb code).flag FMN_HOST_IRQ_MB mb = true := by
  have hne : FMN_MB_BUSY ≠ FMN_HOST_IRQ_MB := by decide
  refine ⟨?_, ?_, ?_⟩
  · have h := M.readN_writeN_same m (mailboxBase mb + 1) 1 code
    rw [pow_one, Nat.mod_eq_of_lt hc] at h
    exact h
  · simp [M.mbBusy, M.mbComplete, M.raise, M.flag_setFld, hm, hne]
  · simp [M.mbComplete, M.raise, M.flag_setFld, hm]

/-- Another mailbox's completion leaves a mailbox busy or idle as it was. -/
theorem M.mbBusy_mbComplete_ne (m : M) (mb w code : Nat) (hm : mb < 64) (hw : w ≠ mb) :
    (m.mbComplete w code).mbBusy mb = m.mbBusy mb := by
  have hne : FMN_MB_BUSY ≠ FMN_HOST_IRQ_MB := by decide
  have hr : ¬ (w ≤ mb ∧ mb ≤ w) := by omega
  simp [M.mbBusy, M.mbComplete, M.raise, M.flag_setFld, hm, hne, hr]

/-- A mailbox that holds a command is one of the 64, and busy. -/
theorem M.mbHolds_busy (m : M) (mb opcode : Nat) (h : m.mbHolds mb opcode = true) : mb < 64 ∧ m.mbBusy mb = true := by
  simp only [M.mbHolds, mailboxes, Bool.and_eq_true] at h
  obtain ⟨⟨⟨hm, hb⟩, -⟩, -⟩ := h
  exact ⟨of_decide_eq_true hm, hb⟩

end Sys2Proof.Machine

namespace Sys2Proof
open Machine

/-- A mailbox command that completes now. -/
theorem mailbox_done (s : State) (mb opcode code : Nat) (f : M → M × Option Nat) (m : M) (hl : s.die.live = true)
    (h4 : (view s).mbArg mb 4 4 = 0) (hh : (view s).mbHolds mb opcode = true) (hf : f (view s) = (m, some code)) :
    onLive (fun m => m.mailbox mb opcode f) s = .next (put s (m.mbComplete mb code)) := by
  rw [onLive_eq _ s hl]; simp [M.mailbox, hh, h4, hf]

/-- A mailbox command that waits. -/
theorem mailbox_waits (s : State) (mb opcode : Nat) (f : M → M × Option Nat) (m : M) (hl : s.die.live = true)
    (h4 : (view s).mbArg mb 4 4 = 0) (hh : (view s).mbHolds mb opcode = true) (hf : f (view s) = (m, none)) :
    onLive (fun m => m.mailbox mb opcode f) s = .next (put s m) := by
  rw [onLive_eq _ s hl]; simp [M.mailbox, hh, h4, hf]

/-- The mailbox that a completion names holds its code. -/
theorem completes_put (s : State) (m : M) (mb code : Nat) (hm : mb < 64) (hc : code < 256) :
    completes (put s (m.mbComplete mb code)) mb code := by
  unfold completes
  rw [view_put]
  exact M.mbComplete_completes m mb code hm hc

end Sys2Proof

namespace Sys2Proof.Machine

/-! ### Policy -/

/-- POLICY in range, with DRAIN asked of split models alone (R390). -/
theorem M.policy_ok (m : M) (mb : Nat) (hp : m.mbArg mb 10 1 ≤ 2) (hf : m.mbArg mb 11 1 ≤ 1)
    (hs : m.mbArg mb 10 1 = 2 → ∀ x ∈ m.die.fmn.models, x.2.split = true) :
    m.policy mb =
      ((({ m with die.fmn.age := m.mbArg mb 8 2, die.fmn.seamBudget := m.mbArg mb 16 8 } : M).setFld
        FMN_WT_CTRL 3 2 (m.mbArg mb 10 1)).setFld FMN_WT_CTRL 4 4 (m.mbArg mb 11 1), some ccOK) := by
  have h1 : ¬ (2 < m.mbArg mb 10 1 ∨ 1 < m.mbArg mb 11 1) := by omega
  have h2 : (m.mbArg mb 10 1 == 2 && m.die.fmn.models.any fun x => !x.2.split) = false := by
    simpa using hs
  unfold M.policy
  simp [h1, h2]

/-! ### Rings -/

theorem M.ring_congr {m n : M} (h : m.die.fmn.rings = n.die.fmn.rings) (r : Nat) : m.ring r = n.ring r := by
  simp [M.ring, h]

theorem M.ring_updRing_same (m : M) (r : Nat) (f : Ring → Ring) (g : Ring) (h : m.ring r = some g) :
    (m.updRing r f).ring r = some (f g) := by
  simp only [M.updRing, h]
  exact mapGet_mapSet_same _ _ _

theorem M.ring_updRing_ne (m : M) (r q : Nat) (f : Ring → Ring) (h : r ≠ q) : (m.updRing q f).ring r = m.ring r := by
  unfold M.updRing
  split
  · exact mapGet_mapSet_ne _ _ _ _ h
  · rfl

/-- Another ring's end leaves a ring open. -/
theorem M.ring_ringClosed_ne (m : M) (r q : Nat) (h : r ≠ q) : (m.ringClosed q).ring r = m.ring r := by
  unfold M.ringClosed
  split
  · split
    · split
      · exact mapGet_mapDel_ne _ _ _ h
      · rfl
    · rfl
  · rfl

/-- A ring that no RING_CLOSE waits for stays open. -/
theorem M.ringClosed_of_open (m : M) (r : Nat) (g : Ring) (h : m.ring r = some g) (hc : g.closing = none) :
    m.ringClosed r = m := by
  simp [M.ringClosed, h, hc]

@[simp] theorem M.ring_raise (m : M) (a i r : Nat) : (m.raise a i).ring r = m.ring r := rfl
@[simp] theorem M.ring_count (m : M) (a r : Nat) : (m.count a).ring r = m.ring r := rfl
@[simp] theorem M.ring_mbComplete (m : M) (mb code r : Nat) : (m.mbComplete mb code).ring r = m.ring r := rfl
@[simp] theorem M.ring_carveWrite (m : M) (a : Nat) (bs : Bytes) (r : Nat) : (m.carveWrite a bs).ring r = m.ring r :=
  M.ring_congr (M.carveWrite_rings m a bs) r
@[simp] theorem M.ring_noteCarve (m : M) (a n r : Nat) : (m.noteCarve a n).ring r = m.ring r :=
  M.ring_congr (M.noteCarve_rings m a n) r

/-- Another ring's entry completed leaves a ring as it was. -/
theorem M.ring_ringStatus_ne (m : M) (r q i code : Nat) (h : r ≠ q) : (m.ringStatus q i code).ring r = m.ring r := by
  unfold M.ringStatus
  split
  · rw [M.ring_ringClosed_ne _ _ _ h, M.ring_raise, M.ring_updRing_ne _ _ _ _ h, M.ring_carveWrite, M.ring_carveWrite]
  · rfl

@[simp] theorem M.countTurn_rings (m : M) (r : Nat) : (m.countTurn r).die.fmn.rings = m.die.fmn.rings := by
  unfold M.countTurn; dsimp only; split <;> rfl

theorem M.ring_takeEntry (m : M) (r q a : Nat) : (m.takeEntry q a).ring r = m.ring r := by
  rw [M.takeEntry, M.ring_noteCarve, M.ring_count, M.ring_congr (M.countTurn_rings m q)]

/-- The ring in turn has an entry that waits. -/
theorem M.turn_ready (m : M) (r : Nat) (h : m.turn = some r) : m.ringReady r = true := by
  simp only [M.turn] at h
  split at h
  · rename_i hc
    obtain ⟨-, hc⟩ := hc
    injection h with h; exact h ▸ hc
  · exact List.find?_some h

/-- A ring with no entry waiting is never in turn. -/
theorem M.turn_ne_of_empty (m : M) (r q : Nat) (g : Ring) (h : m.ring r = some g) (hw : g.waiting = 0)
    (hq : m.turn = some q) : r ≠ q := by
  rintro rfl
  have := M.turn_ready m r hq
  simp [M.ringReady, h, hw] at this

/-- Entries dropped from other rings leave a ring with no entry waiting as it was. -/
theorem M.ring_dropEntries (n : Nat) (m : M) (r : Nat) (g : Ring) (h : m.ring r = some g) (hw : g.waiting = 0) :
    (M.dropEntries n m).ring r = some g := by
  induction n generalizing m with
  | zero => exact h
  | succ n ih =>
    rw [M.dropEntries]
    split
    · rename_i q gq hq
      have hne : r ≠ q := by
        obtain ⟨q', hq', hg⟩ := Option.bind_eq_some_iff.mp hq
        obtain ⟨x, -, hx⟩ := Option.map_eq_some_iff.mp hg
        injection hx with hx _
        exact M.turn_ne_of_empty m r q g h hw (hx ▸ hq')
      dsimp only
      split
      · exact h
      · exact ih _ (by rw [M.ring_ringStatus_ne _ _ _ _ _ hne, M.ring_takeEntry, h])
    · exact h

/-- A read of a producer index that stands at the consumer's finds nothing: the ring stays as it is, but for the index read. -/
theorem M.ring_readProducer_caught (m : M) (r : Nat) (g : Ring) (h : m.ring r = some g) (hs : g.stopped = false)
    (hc : g.closing = none) (hp : m.carveN g.base 4 = g.consumer) :
    (m.readProducer r).ring r = some { g with producer := g.consumer } := by
  have h0 : (g.consumer + 2 ^ 32 - g.consumer) % 2 ^ 32 = 0 := by omega
  have hring : ((m.noteCarve g.base 4).updRing r fun x => { x with producer := g.consumer }).ring r =
      some { g with producer := g.consumer } :=
    M.ring_updRing_same _ _ _ g ((M.ring_noteCarve m g.base 4 r).trans h)
  have hdrop : ((m.noteCarve g.base 4).updRing r fun x => { x with producer := g.consumer }).dropUnknown.ring r =
      some { g with producer := g.consumer } := M.ring_dropEntries _ _ r _ hring h0
  have hn : ¬ 2 ^ g.k < (g.consumer + 2 ^ 32 - g.consumer) % 2 ^ 32 := by rw [h0]; exact Nat.not_lt_zero _
  simp only [M.readProducer, h, hs, hp, hn, if_false, Bool.false_eq_true]
  rw [M.ringClosed_of_open _ r _ hdrop hc, hdrop, hs]

/-- RING_OPEN in range, of a ring whose indexes agree. -/
theorem M.ringOpen_ok (m : M) (mb : Nat) (hr : m.mbArg mb 8 1 < 64) (hk : 6 ≤ m.mbArg mb 9 1) (hk' : m.mbArg mb 9 1 ≤ 12)
    (hb : m.mbArg mb 16 8 % 64 = 0) (hn : m.ring (m.mbArg mb 8 1) = none)
    (hi : inCarve (m.mbArg mb 16 8) (64 + 128 * 2 ^ m.mbArg mb 9 1) = true)
    (he : m.carveN (m.mbArg mb 16 8) 4 = m.carveN (m.mbArg mb 16 8 + 4) 4) :
    ∃ m' g, m.ringOpen mb = (m', some ccOK) ∧ m'.ring (m.mbArg mb 8 1) = some g ∧ g.base = m.mbArg mb 16 8 ∧
      g.k = m.mbArg mb 9 1 ∧ g.consumer = m.carveN (m.mbArg mb 16 8 + 4) 4 ∧ g.stopped = false := by
  have h1 : ¬ (63 < m.mbArg mb 8 1 ∨ m.mbArg mb 9 1 < 6 ∨ 12 < m.mbArg mb 9 1 ∨ m.mbArg mb 16 8 % 64 ≠ 0) := by omega
  unfold M.ringOpen
  simp only [h1, hn, hi, if_false, Option.isSome_none, Bool.false_eq_true, Bool.not_true]
  refine ⟨_, _, rfl, M.ring_readProducer_caught _ _ _ (mapGet_mapSet_same _ _ _) rfl rfl he, rfl, rfl, rfl, rfl⟩

/-- RING_CLOSE of a ring that is stopped, or whose entries are all taken, closes it at once (R528, log entry 92). -/
theorem M.ringClose_ok (m : M) (mb : Nat) (g : Ring) (hg : m.ring (m.mbArg mb 8 1) = some g) (hc : g.closing = none)
    (hd : g.stopped = true ∨ m.carveN g.base 4 = g.consumer) :
    ∃ m', m.ringClose mb = (m', some ccOK) ∧ m'.ring (m.mbArg mb 8 1) = none := by
  have hall : ((m.readProducer (m.mbArg mb 8 1)).ring (m.mbArg mb 8 1)).all (fun g => g.stopped || g.waiting == 0) = true := by
    cases hs : g.stopped with
    | true => simp [M.readProducer, hg, hs]
    | false =>
      rw [M.ring_readProducer_caught m _ g hg hs hc (hd.resolve_left (by simp [hs]))]
      simp [Ring.waiting]
  unfold M.ringClose
  simp only [hg, hc, hall, Option.isSome_none, Bool.false_eq_true, if_false, if_true]
  exact ⟨_, rfl, mapGet_mapDel_same _ _⟩

/-! ### Host windows (R537) -/

/-- Between steps a window's mapping takes effect at once. -/
theorem M.mapWindow_now (m : M) (w : Nat) (x : Option HostWindow) (hs : m.die.step = none)
    (hn : m.die.fmn.nextWindows = []) :
    (m.mapWindow w x).die.fmn.windows = x.elim (mapDel m.die.fmn.windows w) fun y => mapSet m.die.fmn.windows w y := by
  cases x <;> simp [M.mapWindow, M.inStep, hs, hn, mapSet, M.windowBoundary]

/-- During a step a window's mapping waits for the boundary. -/
theorem M.mapWindow_waits (m : M) (w : Nat) (x : Option HostWindow) (hs : m.die.step ≠ none) :
    (m.mapWindow w x).die.fmn.windows = m.die.fmn.windows ∧
      mapGet (m.mapWindow w x).die.fmn.nextWindows w = some x := by
  have hi : m.inStep = true := Option.isSome_iff_ne_none.mpr hs
  have he : m.mapWindow w x = { m with die.fmn.nextWindows := mapSet m.die.fmn.nextWindows w x } := if_pos hi
  rw [he]
  exact ⟨rfl, mapGet_mapSet_same _ _ _⟩

/-- The mapping that WINDOW_GRANT names. -/
def M.grantedWindow (m : M) (mb : Nat) : HostWindow :=
  { dieReads := (m.mbArg mb 9 1).testBit 0, dieWrites := (m.mbArg mb 9 1).testBit 1, base := m.mbArg mb 16 8,
    size := m.mbArg mb 24 8 }

theorem M.windowGrant_ok (m : M) (mb : Nat) (hw : windowNumber (m.mbArg mb 8 1) = true) (hd : m.mbArg mb 9 1 ≤ 3)
    (hi : inCarve (m.mbArg mb 16 8) (m.mbArg mb 24 8) = true) :
    m.windowGrant mb = (m.mapWindow (m.mbArg mb 8 1) (some (m.grantedWindow mb)), some ccOK) := by
  have h : ¬ 3 < m.mbArg mb 9 1 := by omega
  simp [M.windowGrant, hw, h, hi, M.grantedWindow]

theorem M.windowRevoke_ok (m : M) (mb : Nat) (hw : windowNumber (m.mbArg mb 8 1) = true)
    (hg : m.windowGranted (m.mbArg mb 8 1) = true) :
    m.windowRevoke mb = (m.mapWindow (m.mbArg mb 8 1) none, some ccOK) := by
  simp [M.windowRevoke, hw, hg]

/-! ### RUN (R538) -/

/-- What RUN writes of the group: the module's mode, and at a coordinator the root bits of the two barriers. -/
def M.groupMode (m : M) (flags cb fb : Nat) : M :=
  let m := m.writeGroup (flags.testBit 0)
  if flags.testBit 1 then (m.setFld (barReg cb) 62 62 1).setFld (barReg fb) 62 62 1 else m

theorem M.groupMode_composed (m : M) (flags cb fb : Nat) :
    (m.groupMode flags cb fb).die.fmn.composed = m.die.fmn.composed := by
  simp only [M.groupMode, M.writeGroup]
  repeat' split
  all_goals rfl

/-- Between steps CMT_CTRL.GROUP is bit 0 of FLAGS (Table 8.17). -/
theorem M.groupMode_group (m : M) (flags cb fb : Nat) (hs : m.die.step = none) (hc : cb < 256) (hf : fb < 256) :
    (m.groupMode flags cb fb).fld CMT_CTRL 0 0 = flags % 2 := by
  have hw : (m.writeGroup (flags.testBit 0)).fld CMT_CTRL 0 0 = flags % 2 := by
    have hb : bit (flags.testBit 0) % 2 = flags % 2 := by
      rcases Nat.mod_two_eq_zero_or_one flags with h | h <;> simp [bit, h]
    simp only [M.writeGroup, M.inStep, hs, Option.isSome_none, Bool.false_eq_true, if_false]
    rw [M.fld_setFld_same _ _ _ _ _ (by decide) (by decide)]
    exact hb
  have hcb : CMT_CTRL ≠ barReg cb := by simp only [barReg, CMT_CTRL, FTC_BAR]; omega
  have hfb : CMT_CTRL ≠ barReg fb := by simp only [barReg, CMT_CTRL, FTC_BAR]; omega
  unfold M.groupMode
  dsimp only
  split
  · rw [M.fld_setFld_ne _ _ _ _ _ _ _ _ hfb, M.fld_setFld_ne _ _ _ _ _ _ _ _ hcb, hw]
  · exact hw

theorem M.groupMode_mem (m : M) (flags cb fb : Nat) : (m.groupMode flags cb fb).mem = m.mem := by
  simp only [M.groupMode, M.writeGroup]
  repeat' split
  all_goals rfl

/-- The cadence that RUN names. -/
def M.cadence (m : M) (mb : Nat) : Run :=
  { next := (m.groupMode (m.mbArg mb 8 1) (m.mbArg mb 9 1) (m.mbArg mb 10 1)).mbArg mb 16 8, period := m.mbArg mb 24 8,
    group := (m.mbArg mb 8 1).testBit 0, coord := (m.mbArg mb 8 1).testBit 1, commitBar := m.mbArg mb 9 1,
    flipBar := m.mbArg mb 10 1, heldCounted := false }

/-- The module with RUN's cadence and group mode. -/
def M.withCadence (m : M) (mb : Nat) : M :=
  { m.groupMode (m.mbArg mb 8 1) (m.mbArg mb 9 1) (m.mbArg mb 10 1) with die.fmn.run := some (m.cadence mb) }

theorem M.cadence_next (m : M) (mb : Nat) : (m.cadence mb).next = m.mbArg mb 16 8 := by
  simp only [M.cadence, M.mbArg, M.readN, M.groupMode_mem]

theorem M.withCadence_group (m : M) (mb : Nat) (hs : m.die.step = none) :
    (m.withCadence mb).fld CMT_CTRL 0 0 = m.mbArg mb 8 1 % 2 := by
  have h1 : m.mbArg mb 9 1 < 256 := M.readN_lt _ _ 1
  have h2 : m.mbArg mb 10 1 < 256 := M.readN_lt _ _ 1
  rw [← M.groupMode_group m _ _ _ hs h1 h2]
  rfl

/-- RUN of a loaded module: the cadence it sets, and between steps the mode of the group. -/
theorem M.run_ok (m : M) (mb : Nat) (hf : m.mbArg mb 8 1 ≤ 3) (hb : m.loadBusy = false) (hm : m.die.fmn.models ≠ [])
    (hp : 0 < m.mbArg mb 24 8 ∨ m.die.fmn.composed = none) :
    ∃ m' r, m.run mb = (m', some ccOK) ∧ m'.die.fmn.run = some r ∧ r.next = m.mbArg mb 16 8 ∧
      r.period = m.mbArg mb 24 8 ∧ (m.die.step = none → m'.fld CMT_CTRL 0 0 = m.mbArg mb 8 1 % 2) := by
  have h3 : ¬ 3 < m.mbArg mb 8 1 := by omega
  have hgo (m' : M) (hc : m'.die.fmn.composed = m.die.fmn.composed) :
      (if m.mbArg mb 24 8 = 0 then m'.stopRun else m') = m' := by
    split
    · rename_i h0
      simp [M.stopRun, hc, hp.resolve_left (by omega)]
    · rfl
  have he : m.run mb = (if m.mbArg mb 24 8 = 0 then (m.withCadence mb).stopRun else m.withCadence mb, some ccOK) := by
    unfold M.run
    rw [if_neg h3, if_neg (by simp [hb]), if_neg (by simp [hm])]
    rfl
  rw [hgo (m.withCadence mb) (M.groupMode_composed m _ _ _)] at he
  exact ⟨_, m.cadence mb, he, rfl, m.cadence_next mb, rfl, fun hs => M.withCadence_group m mb hs⟩

/-! ### FABRIC_CONFIG (R534) -/

/-- One record of TYPE 4 names a module's role (Table 14.6). -/
theorem M.fabricConfig_role (m : M) (mb : Nat) (hn : m.mbArg mb 24 4 = 16) (hb : m.loadBusy = false)
    (hi : inCarve (m.mbArg mb 16 8) 16 = true)
    (ht : byteAt (m.stripedRead carveAddr (m.mbArg mb 16 8) 16 2).1 0 = 4) :
    ∃ m', m.fabricConfig mb = (m', some ccOK) ∧
      mapGet m'.die.fmn.roles (numAt (m.stripedRead carveAddr (m.mbArg mb 16 8) 16 2).1 2 2) =
        some (numAt (m.stripedRead carveAddr (m.mbArg mb 16 8) 16 2).1 4 2) := by
  generalize hr : m.stripedRead carveAddr (m.mbArg mb 16 8) 16 2 = x at ht ⊢
  obtain ⟨b, m'⟩ := x
  simp only at ht ⊢
  have h0 : byteAt (b.take 16) 0 = 4 := by rw [← ht]; cases b <;> rfl
  have h2 : numAt (b.take 16) 2 2 = numAt b 2 2 := by simp [numAt, slice, List.drop_take, List.take_take]
  have h4 : numAt (b.take 16) 4 2 = numAt b 4 2 := by simp [numAt, slice, List.drop_take, List.take_take]
  refine ⟨{ m' with die.fmn.roles := mapSet m'.die.fmn.roles (numAt b 2 2) (numAt b 4 2) }, ?_, mapGet_mapSet_same _ _ _⟩
  simp [M.fabricConfig, hn, hb, hi, hr, M.fabricRecords, M.fabricRecord, h0, h2, h4]

/-! ### TIME_MODE (R462, R468) -/

@[simp] theorem M.setParent_ftcCtrl (m : M) (p : Nat) (a : Bool) : (m.setParent p a).reg FTC_CTRL = m.reg FTC_CTRL := by
  simp [M.setParent, M.reg_setFld]
theorem M.stage_reg (m : M) (n b : Nat) (h : b ≠ HDF_STATUS) : (m.stage n).reg b = m.reg b := by
  unfold M.stage
  dsimp only
  split
  · rw [M.reg_setFld, if_neg h]
  · rfl
@[simp] theorem M.setServoState_ftcCtrl (m : M) (v : Nat) : (m.setServoState v).reg FTC_CTRL = m.reg FTC_CTRL := by
  have hm : (m.setFld FTC_STATUS 3 0 v).reg FTC_CTRL = m.reg FTC_CTRL := by simp [M.reg_setFld]
  unfold M.setServoState
  dsimp only
  split
  · exact (M.stage_reg _ 7 FTC_CTRL (by decide)).trans hm
  · exact hm
@[simp] theorem M.updServo_ftcCtrl (m : M) (f : Servo → Servo) : (m.updServo f).reg FTC_CTRL = m.reg FTC_CTRL := rfl
@[simp] theorem M.acquireTime_ftcCtrl (m : M) : m.acquireTime.reg FTC_CTRL = m.reg FTC_CTRL := by
  simp [M.acquireTime]
@[simp] theorem M.freeTime_ftcCtrl (m : M) : m.freeTime.reg FTC_CTRL = m.reg FTC_CTRL := by
  simp [M.freeTime, M.reg_setFld]
@[simp] theorem M.takeEnable_ftcCtrl (m : M) : m.takeEnable.reg FTC_CTRL = m.reg FTC_CTRL := by
  unfold M.takeEnable; split <;> simp

/-- MODE and PARENT taken: of FTC_CTRL those two fields alone. -/
theorem M.takeTimeMode_ftcCtrl (m : M) (mode parent : Nat) :
    (m.takeTimeMode mode parent).reg FTC_CTRL = ((m.setFld FTC_CTRL 5 4 mode).setFld FTC_CTRL 11 8 parent).reg FTC_CTRL := by
  simp only [M.takeTimeMode]
  repeat' split
  all_goals simp [M.reg_setFld]

/-- The word that TIME_MODE writes has each argument in its field. -/
theorem timeModeWord_bits (en mode parent alt : Nat) (b : Bool) (he : en < 2) (hm : mode ≤ 2) (hp : parent ≤ 15)
    (ha : alt ≤ 15) :
    let w := en + mode * 16 + bit false * 64 + bit b * 128 + parent * 256 + alt * 4096
    w % 2 = en ∧ bits w 5 4 = mode ∧ bits w 11 8 = parent ∧ bits w 15 12 = alt ∧ w.testBit 6 = false := by
  have hb : bit b < 2 := by cases b <;> decide
  simp only [bits, Nat.shiftRight_eq_div_pow, Nat.testBit_eq_decide_div_mod_eq, decide_eq_false_iff_not]
  simp only [show bit false = 0 from rfl]
  omega

/-- The fields of FTC_CTRL that act at once, written (R468). -/
def M.ftcCtrlNow (m : M) (w : Nat) : M :=
  ((m.setFld FTC_CTRL 0 0 w).setFld FTC_CTRL 7 7 (bits w 7 7)).setFld FTC_CTRL 15 12 (bits w 15 12)

theorem bits_lt (n hi lo : Nat) : bits n hi lo < 2 ^ (hi + 1 - lo) := Nat.mod_lt _ (Nat.two_pow_pos _)

theorem M.ftcCtrlNow_fields (m : M) (w : Nat) :
    (m.ftcCtrlNow w).fld FTC_CTRL 15 12 = bits w 15 12 ∧ (m.ftcCtrlNow w).fld FTC_CTRL 0 0 = w % 2 := by
  have h : bits w 15 12 < 16 := bits_lt w 15 12
  simp [M.ftcCtrlNow, M.fld_setFld, h]

/-- FTC_CTRL after a write between steps, nothing latched and no REBASE asked: MODE and PARENT are taken where they change
(R468). -/
theorem M.writeFtcCtrl_reg (m : M) (w : Nat) (hs : m.die.step = none) (hr : w.testBit 6 = false) :
    (m.writeFtcCtrl w).reg FTC_CTRL =
      if bits w 5 4 = (m.ftcCtrlNow w).fld FTC_CTRL 5 4 ∧ bits w 11 8 = (m.ftcCtrlNow w).fld FTC_CTRL 11 8 ∧
          m.die.servo.latched = none then (m.ftcCtrlNow w).reg FTC_CTRL
      else (((m.ftcCtrlNow w).setFld FTC_CTRL 5 4 (bits w 5 4)).setFld FTC_CTRL 11 8 (bits w 11 8)).reg FTC_CTRL := by
  have hi : (m.ftcCtrlNow w).inStep = false := by simp [M.inStep, M.ftcCtrlNow, hs]
  have hl : m.die.servo.latched = (m.ftcCtrlNow w).die.servo.latched := rfl
  unfold M.writeFtcCtrl
  simp only [hr, Bool.false_eq_true, if_false, M.takeEnable_ftcCtrl, ← M.ftcCtrlNow.eq_1, hi, hl]
  split
  · rfl
  · rw [M.takeTimeMode_ftcCtrl]

/-- The four fields of FTC_CTRL after such a write. -/
theorem M.writeFtcCtrl_fields (m : M) (w : Nat) (hs : m.die.step = none) (hr : w.testBit 6 = false) :
    (m.writeFtcCtrl w).fld FTC_CTRL 5 4 = bits w 5 4 ∧ (m.writeFtcCtrl w).fld FTC_CTRL 11 8 = bits w 11 8 ∧
      (m.writeFtcCtrl w).fld FTC_CTRL 15 12 = bits w 15 12 ∧ (m.writeFtcCtrl w).fld FTC_CTRL 0 0 = w % 2 := by
  obtain ⟨hnowAlt, hnowEn⟩ := M.ftcCtrlNow_fields m w
  have hreg := M.writeFtcCtrl_reg m w hs hr
  split at hreg
  case isTrue hc =>
    obtain ⟨hm, hp, -⟩ := hc
    simp only [M.fld] at hm hp hnowAlt hnowEn ⊢
    rw [hreg]
    exact ⟨hm.symm, hp.symm, hnowAlt, hnowEn⟩
  case isFalse =>
    have h5 : bits w 5 4 < 4 := bits_lt w 5 4
    have h11 : bits w 11 8 < 16 := bits_lt w 11 8
    have hf (hi lo : Nat) : (m.writeFtcCtrl w).fld FTC_CTRL hi lo =
        (((m.ftcCtrlNow w).setFld FTC_CTRL 5 4 (bits w 5 4)).setFld FTC_CTRL 11 8 (bits w 11 8)).fld FTC_CTRL hi lo := by
      simp only [M.fld, hreg]
    simp only [hf]
    simp [M.fld_setFld, hnowAlt, hnowEn, h5, h11]

theorem M.timeMode_ok (m : M) (mb : Nat) (hm : m.mbArg mb 8 1 ≤ 2) (hp : m.mbArg mb 9 1 ≤ 15) (ha : m.mbArg mb 10 1 ≤ 15)
    (hf : m.mbArg mb 11 1 ≤ 1) (hs : m.die.step = none) :
    ∃ m', m.timeModeCmd mb = (m', some ccOK) ∧ m'.fld FTC_CTRL 5 4 = m.mbArg mb 8 1 ∧
      m'.fld FTC_CTRL 11 8 = m.mbArg mb 9 1 ∧ m'.fld FTC_CTRL 15 12 = m.mbArg mb 10 1 ∧
      m'.fld FTC_CTRL 0 0 = m.fld FTC_CTRL 0 0 := by
  have hno : ¬ (2 < m.mbArg mb 8 1 ∨ 15 < m.mbArg mb 9 1 ∨ 15 < m.mbArg mb 10 1 ∨ 3 < m.mbArg mb 11 1) := by omega
  have h1 : (m.mbArg mb 11 1).testBit 1 = false := Nat.testBit_lt_two_pow (by omega)
  have hen : m.fld FTC_CTRL 0 0 < 2 := by simp only [M.fld, Machine.fld, bits]; omega
  obtain ⟨w0, wm, wp, wa, w6⟩ := timeModeWord_bits (m.fld FTC_CTRL 0 0) (m.mbArg mb 8 1) (m.mbArg mb 9 1) (m.mbArg mb 10 1)
    ((m.mbArg mb 11 1).testBit 0) hen hm hp ha
  obtain ⟨fm, fp, fa, f0⟩ := M.writeFtcCtrl_fields m _ hs w6
  refine ⟨_, ?_, fm.trans wm, fp.trans wp, fa.trans wa, f0.trans w0⟩
  unfold M.timeModeCmd
  simp [hno, h1]

/-! ### CLOCK_STEP (R576, R577) -/

/-- The request that CLOCK_STEP for all regions makes. -/
def M.wholeStep (m : M) (mb : Nat) : StepRequest := { step := m.mbArg mb 8 1, mask := 255, mailbox := some mb }

/-- CLOCK_STEP for all regions within the grade, with no request before it: it waits for its boundary. -/
theorem M.clockStep_first (m : M) (mb : Nat) (h5 : m.mbArg mb 8 1 ≤ 5) (ht : Config.topStep ≤ m.mbArg mb 8 1)
    (hm : m.mbArg mb 9 2 = 255) (hq : m.die.pwr.stepPending = none) :
    m.clockStep mb =
      ((m.setFld CLK_CTRL 2 0 (m.mbArg mb 8 1)).updPwr fun p => { p with stepPending := some (m.wholeStep mb) }, none) := by
  have h1 : ¬ 5 < m.mbArg mb 8 1 := by omega
  have h2 : ¬ m.mbArg mb 8 1 < Config.topStep := by omega
  simp [M.clockStep, h1, h2, hm, M.wholeStep, M.askStep, hq]

/-- The request latched behind the one that waits for its boundary (R514). -/
def M.latchedStep (m : M) (mb : Nat) : M :=
  ((m.setFld CLK_CTRL 2 0 (m.mbArg mb 8 1)).latched true).updPwr fun p => { p with stepLatched := some (m.wholeStep mb) }

/-- CLOCK_STEP for all regions behind a pending request takes the place of the latched one. -/
theorem M.clockStep_behind (m : M) (mb : Nat) (q old : StepRequest) (h5 : m.mbArg mb 8 1 ≤ 5)
    (ht : Config.topStep ≤ m.mbArg mb 8 1) (hm : m.mbArg mb 9 2 = 255) (hq : m.die.pwr.stepPending = some q)
    (ho : m.die.pwr.stepLatched = some old) :
    m.clockStep mb =
      (old.mailbox.elim (m.latchedStep mb) fun w => (m.latchedStep mb).mbComplete w ccSUPERSEDED, none) := by
  have h1 : ¬ 5 < m.mbArg mb 8 1 := by omega
  have h2 : ¬ m.mbArg mb 8 1 < Config.topStep := by omega
  cases hb : old.mailbox <;>
    simp [M.clockStep, h1, h2, hm, M.wholeStep, M.askStep, hq, ho, hb, M.latchedStep]

theorem M.clockStep_refused (m : M) (mb : Nat) (h5 : m.mbArg mb 8 1 ≤ 5) (hm : m.mbArg mb 9 2 < 2 ^ 15)
    (h : m.mbArg mb 8 1 < Config.topStep ∨ 256 ≤ m.mbArg mb 9 2) : m.clockStep mb = (m, some ccREFUSED) := by
  have h1 : ¬ (5 < m.mbArg mb 8 1 ∨ 2 ^ 15 ≤ m.mbArg mb 9 2) := by omega
  have h2 : 256 ≤ m.mbArg mb 9 2 ∨ m.mbArg mb 8 1 < Config.topStep ∨
      (!m.die.fmn.models.isEmpty ∧ m.mbArg mb 9 2 ≠ 255) := by
    rcases h with h | h
    · exact .inr (.inl h)
    · exact .inl h
  unfold M.clockStep
  simp only [h1, h2, if_true, if_false]

/-! ### UNIT (R511, R514, R525, R539) -/

@[simp] theorem M.recordRepair_fmn (m : M) (r : FieldRepair) : (m.recordRepair r).die.fmn = m.die.fmn := by
  simp [M.recordRepair]

/-- A site's retirement is recorded at once (R511). -/
theorem M.unitSite_ok (m : M) (mb : Nat) (ho : m.mbArg mb 8 1 = 1) (hk : m.mbArg mb 9 1 = 1) (hs : m.mbArg mb 10 2 < 136)
    (hu : m.rowSpareUsed (m.mbArg mb 10 2 / 17) = false) (hp : m.siteSpare (m.mbArg mb 10 2) = false) :
    ∃ m', m.unit mb = (m', some ccOK) ∧ m'.die.fmn.siteRetired = true := by
  have h : ¬ 136 ≤ m.mbArg mb 10 2 := by omega
  refine ⟨{ m.recordRepair { kind := repairSite, site := m.mbArg mb 10 2, core := 0, memory := 0, bank := 0, row := 0 } with
    die.fmn.siteRetired := true }, ?_, rfl⟩
  simp [M.unit, ho, hk, M.unitSite, h, M.retireSite, hp, hu]

/-- The end of the one UNIT command that waits. -/
theorem M.unitEnd_single (m : M) (w n code : Nat) (latched : Bool) (h : m.die.fmn.unitWaits = [(w, n, latched)]) :
    m.unitEnd n latched code = { m.mbComplete w code with die.fmn.unitWaits := [] } := by
  simp [M.unitEnd, h]

/-- A site's router is function 16 × site + 5 (log entry 55). -/
theorem M.functionBusy_router (m : M) (site : Nat) :
    m.functionBusy (fnRouter site) = (m.site site).routerPending.isSome := by
  have h5 : fnRouter site % 16 = 5 := by simp only [fnRouter]; omega
  have hu : fnUnit (fnRouter site) = site := by simp only [fnUnit, fnRouter]; omega
  simp only [M.functionBusy, h5, hu]

/-- A router request behind a pending and a latched one takes the latched one's place, whose UNIT command completes with
SUPERSEDED (R43, R514). -/
theorem M.unitRouter_supersedes (m : M) (mb op site old : Nat) (hs : site < 136)
    (hp : (m.site site).routerPending.isSome = true) (hl : (m.site site).routerLatched.isSome = true)
    (hw : m.die.fmn.unitWaits = [(old, fnRouter site, true)]) :
    m.unitRouter mb op site =
      ((({ (m.latched true).mbComplete old ccSUPERSEDED with die.fmn.unitWaits := [] } : M).updSite site
        fun s => { s with routerLatched := some (op + 1) }).unitWait mb (fnRouter site) true, none) := by
  have h : ¬ 136 ≤ site := by omega
  have hb := M.functionBusy_router m site
  have he := M.unitEnd_single (m.latched true) old (fnRouter site) ccSUPERSEDED true hw
  simp only [M.unitRouter, h, if_false, hb, hp, Bool.not_true, Bool.false_and, Bool.false_eq_true, M.unitRequest, if_true,
    M.askRouter, hl, M.latchBehind, he]

@[simp] theorem M.switchRouter_fmn (m : M) (site v : Nat) : (m.switchRouter site v).die.fmn = m.die.fmn := by
  unfold M.switchRouter; split <;> simp
@[simp] theorem M.switchRouter_site (m : M) (site v t : Nat) : (m.switchRouter site v).site t = m.site t := by
  unfold M.switchRouter; split
  · rfl
  · simp [M.site, M.recordRepair]

/-- A router request carried out changes no UNIT command's wait and no request of the site's. -/
theorem M.routerOp_keeps (m : M) (site op : Nat) :
    (m.routerOp site op).2.die.fmn = m.die.fmn ∧
      ((m.routerOp site op).2.site site).routerPending = (m.site site).routerPending ∧
      ((m.routerOp site op).2.site site).routerLatched = (m.site site).routerLatched := by
  unfold M.routerOp
  dsimp only
  repeat' split
  all_goals simp

/-- The end of a router's transition with nothing latched behind it: the UNIT command that waits completes (R515, R525). -/
theorem M.runRouter_done (m : M) (site op w : Nat) (hp : (m.site site).routerPending = some op)
    (hl : (m.site site).routerLatched = none) (hw : m.die.fmn.unitWaits = [(w, fnRouter site, false)]) :
    m.runRouter site =
      { (((m.routerOp site op).2.updSite site fun s => { s with routerPending := none }).mbComplete w (m.routerOp site op).1)
        with die.fmn.unitWaits := [] } := by
  obtain ⟨hfmn, -, hlat⟩ := M.routerOp_keeps m site op
  have he := M.unitEnd_single ((m.routerOp site op).2.updSite site fun s => { s with routerPending := none }) w
    (fnRouter site) (m.routerOp site op).1 false (by simp [hfmn, hw])
  have hn : (({ (((m.routerOp site op).2.updSite site fun s => { s with routerPending := none }).mbComplete w
      (m.routerOp site op).1) with die.fmn.unitWaits := [] } : M).site site).routerLatched = none := by
    have hsite := M.site_updSite_same (m.routerOp site op).2 site fun s => { s with routerPending := none }
    exact (congrArg Site.routerLatched hsite).trans (hlat.trans hl)
  unfold M.runRouter
  simp only [hp, M.unitDone, he, hn]

/-- A latched request counts in two registers alone (R514). -/
theorem M.latched_reg (m : M) (r : Bool) (b : Nat) (hl : b ≠ FMN_TRANSITION_LATCH_CNT)
    (hs : b ≠ FMN_TRANSITION_SUPERSEDE_CNT) : (m.latched r).reg b = m.reg b := by
  cases r <;> simp [M.latched, M.reg_count, hl, hs]

theorem M.mbBusy_latched (m : M) (r : Bool) (mb : Nat) : (m.latched r).mbBusy mb = m.mbBusy mb := by
  simp only [M.mbBusy, M.flag, M.latched_reg m r FMN_MB_BUSY (by decide) (by decide)]

theorem M.mbBusy_setFld_ne (m : M) (a hi lo v mb : Nat) (h : FMN_MB_BUSY ≠ a) :
    (m.setFld a hi lo v).mbBusy mb = m.mbBusy mb := by
  simp only [M.mbBusy, M.flag, M.reg_setFld, if_neg h]

/-- The latched CLOCK_STEP keeps every mailbox's busy bit. -/
theorem M.mbBusy_latchedStep (m : M) (mb w : Nat) : (m.latchedStep mb).mbBusy w = m.mbBusy w :=
  (M.mbBusy_latched _ true w).trans (M.mbBusy_setFld_ne m _ _ _ _ _ (by decide))

/-- A router request answers with a code of one byte. -/
theorem M.routerOp_code (m : M) (site op : Nat) : (m.routerOp site op).1 < 256 := by
  unfold M.routerOp
  dsimp only
  repeat' split
  all_goals simp only [ccOK, ccSTATE]; decide

/-- The boundary of a step runs the router request that waits (log entry 55). -/
theorem M.transitionEnd_router (m : M) (site : Nat) (hs : m.die.step = none) :
    m.transitionEnd (fnRouter site) = m.runRouter site := by
  have h5 : fnRouter site % 16 = 5 := by simp only [fnRouter]; omega
  have hu : fnUnit (fnRouter site) = site := by simp only [fnUnit, fnRouter]; omega
  simp [M.transitionEnd, M.runLatched, h5, hu, M.inStep, hs]

/-- A UNIT command for a router (R511). -/
theorem M.unit_router (m : M) (mb : Nat) (ho : m.mbArg mb 8 1 = 1 ∨ m.mbArg mb 8 1 = 2) (hk : m.mbArg mb 9 1 = 3) :
    m.unit mb = m.unitRouter mb (m.mbArg mb 8 1) (m.mbArg mb 10 2) := by
  have h : ¬ (m.mbArg mb 8 1 ≠ 1 ∧ m.mbArg mb 8 1 ≠ 2) := by omega
  simp only [M.unit, h, if_false, hk]

end Sys2Proof.Machine

namespace Sys2Proof
open Machine

/-- CLOCK_STEP for all regions with nothing requested before it (R577). -/
theorem clockStep_requests (s : State) (mb : Nat) (hl : s.die.live = true) (h4 : (view s).mbArg mb 4 4 = 0)
    (hh : (view s).mbHolds mb 0x2E = true) (h5 : (view s).mbArg mb 8 1 ≤ 5)
    (ht : Config.topStep ≤ (view s).mbArg mb 8 1) (hm : (view s).mbArg mb 9 2 = 255) (hq : s.die.pwr.stepPending = none) :
    ∃ t, exec (.clockStep mb) s = .next t ∧ (view t).fld CLK_CTRL 2 0 = (view s).mbArg mb 8 1 ∧
      t.die.pwr.stepPending = some { step := (view s).mbArg mb 8 1, mask := 255, mailbox := some mb } ∧
      (view t).mbBusy mb = true ∧ keepsRegs s t [CLK_CTRL] := by
  obtain ⟨-, hbusy⟩ := M.mbHolds_busy _ _ _ hh
  refine ⟨_, mailbox_waits s mb 0x2E (M.clockStep · mb) _ hl h4 hh (M.clockStep_first (view s) mb h5 ht hm hq),
    ?_, rfl, ?_, fun a ha => ?_⟩ <;> rw [view_put]
  · refine (M.fld_setFld_same _ _ _ _ _ (by decide) (by decide)).trans (Nat.mod_eq_of_lt ?_)
    omega
  · exact (M.mbBusy_setFld_ne (view s) _ _ _ _ _ (by decide)).trans hbusy
  · exact (M.reg_setFld (view s) _ _ _ _ _).trans (if_neg (by simpa using ha))

/-- CLOCK_STEP behind a pending and a latched request (R514). -/
theorem clockStep_latches (s : State) (mb : Nat) (q old : StepRequest) (hl : s.die.live = true)
    (h4 : (view s).mbArg mb 4 4 = 0) (hh : (view s).mbHolds mb 0x2E = true) (h5 : (view s).mbArg mb 8 1 ≤ 5)
    (ht : Config.topStep ≤ (view s).mbArg mb 8 1) (hm : (view s).mbArg mb 9 2 = 255)
    (hq : s.die.pwr.stepPending = some q) (ho : s.die.pwr.stepLatched = some old) (hne : old.mailbox ≠ some mb) :
    ∃ t, exec (.clockStep mb) s = .next t ∧ t.die.pwr.stepPending = some q ∧
      t.die.pwr.stepLatched = some { step := (view s).mbArg mb 8 1, mask := 255, mailbox := some mb } ∧
      (view t).mbBusy mb = true ∧ ∀ w, old.mailbox = some w → w < 64 → completes t w ccSUPERSEDED := by
  obtain ⟨hmb, hbusy⟩ := M.mbHolds_busy _ _ _ hh
  have hkept : ((view s).latchedStep mb).mbBusy mb = true := (M.mbBusy_latchedStep _ _ _).trans hbusy
  have hpend : ((view s).latchedStep mb).die.pwr.stepPending = some q :=
    hq
  have he := mailbox_waits s mb 0x2E (M.clockStep · mb) _ hl h4 hh (M.clockStep_behind (view s) mb q old h5 ht hm hq ho)
  cases hw : old.mailbox with
  | none =>
    rw [hw] at he
    exact ⟨_, he, hpend, rfl, by rw [view_put]; exact hkept, by simp⟩
  | some w =>
    rw [hw] at he hne
    refine ⟨_, he, hpend, rfl, ?_, ?_⟩
    · rw [view_put]
      exact (M.mbBusy_mbComplete_ne _ mb w _ hmb (by simpa using hne)).trans hkept
    · intro w' hw' hlt
      obtain rfl : w = w' := by simpa using hw'
      exact completes_put s _ w _ hlt (by decide)

/-- UNIT for a router with one request pending and another latched (R43, R514). -/
theorem unit_supersedes (s : State) (mb old : Nat) (hl : s.die.live = true) (h4 : (view s).mbArg mb 4 4 = 0)
    (hh : (view s).mbHolds mb 0x2D = true) (ho : (view s).mbArg mb 8 1 = 1 ∨ (view s).mbArg mb 8 1 = 2)
    (hk : (view s).mbArg mb 9 1 = 3) (hs : (view s).mbArg mb 10 2 < 136)
    (hp : ((view s).site ((view s).mbArg mb 10 2)).routerPending.isSome = true)
    (hla : ((view s).site ((view s).mbArg mb 10 2)).routerLatched.isSome = true)
    (hw : s.die.fmn.unitWaits = [(old, fnRouter ((view s).mbArg mb 10 2), true)]) (hlt : old < 64) (hne : old ≠ mb) :
    ∃ t, exec (.unitCmd mb) s = .next t ∧ completes t old ccSUPERSEDED ∧ (view t).mbBusy mb = true ∧
      t.die.fmn.unitWaits = [(mb, fnRouter ((view s).mbArg mb 10 2), true)] := by
  obtain ⟨hmb, hbusy⟩ := M.mbHolds_busy _ _ _ hh
  have he := (M.unit_router (view s) mb ho hk).trans (M.unitRouter_supersedes (view s) mb _ _ old hs hp hla hw)
  refine ⟨_, mailbox_waits s mb 0x2D (M.unit · mb) _ hl h4 hh he, ?_, ?_, rfl⟩
  · exact completes_put s ((view s).latched true) old ccSUPERSEDED hlt (by decide)
  · rw [view_put]
    exact (M.mbBusy_mbComplete_ne ((view s).latched true) mb old _ hmb hne).trans
      ((M.mbBusy_latched _ _ _).trans hbusy)

/-- The end of a router's transition (R515, R525). -/
theorem transitionComplete_router (s : State) (site op waiting : Nat) (hl : s.die.live = true) (hs : s.die.step = none)
    (hp : ((view s).site site).routerPending = some op) (hla : ((view s).site site).routerLatched = none)
    (hlt : waiting < 64) (hw : s.die.fmn.unitWaits = [(waiting, fnRouter site, false)]) :
    ∃ t, exec (.transitionComplete (fnRouter site)) s = .next t ∧
      completes t waiting ((view s).routerOp site op).1 ∧ t.die.fmn.unitWaits = [] ∧
      ((view t).site site).routerPending = none := by
  have hd := M.runRouter_done (view s) site op waiting hp hla hw
  have he := onLive_eq (M.transitionEnd · (fnRouter site)) s hl
  rw [M.transitionEnd_router (view s) site hs, hd] at he
  refine ⟨_, he, ?_, rfl, ?_⟩
  · exact completes_put s (((view s).routerOp site op).2.updSite site fun x => { x with routerPending := none }) waiting _
      hlt (M.routerOp_code _ _ _)
  · rw [view_put]
    have hsite := M.site_updSite_same ((view s).routerOp site op).2 site fun x => { x with routerPending := none }
    exact (congrArg Site.routerPending hsite :)

/-- WINDOW_REVOKE of a window whose mapping waits for nothing. -/
theorem windowGranted_of_mapped (m : M) (w : Nat) (x : HostWindow) (h : mapGet m.die.fmn.windows w = some x)
    (hn : m.die.fmn.nextWindows = []) : m.windowGranted w = true := by
  have hnext : mapGet m.die.fmn.nextWindows w = none := by rw [hn]; rfl
  simp only [M.windowGranted, hnext, h, Option.isSome_some]

/-- Settles O26: each command's mailbox rule gives the state it completes in, and the command's own lemma what it set. -/
theorem mailboxCommandsTakeEffect : Obligations.MailboxCommandsTakeEffect := by
  unfold Obligations.MailboxCommandsTakeEffect
  have hok : ccOK < 256 := by decide
  refine ⟨fun s mb hl h4 => ⟨?_, ?_, ?_, ?_, ?_, ?_, ?_, ?_, ?_, ?_⟩, fun s mb hl h4 => ⟨?_, ?_, ?_, ?_, ?_⟩⟩
  case refine_1 =>
    intro hh hp hf hs
    obtain ⟨hmb, -⟩ := M.mbHolds_busy _ _ _ hh
    refine ⟨_, mailbox_done s mb 0x26 ccOK (M.policy · mb) _ hl h4 hh (M.policy_ok (view s) mb hp hf hs),
      completes_put s _ mb ccOK hmb hok, rfl, rfl, ?_, ?_⟩ <;>
      rw [view_put, M.mbComplete_fld _ _ _ _ _ _ (by decide) (by decide)]
    · simpa [M.fld_setFld] using Nat.mod_eq_of_lt (show _ < 4 by omega)
    · rw [M.fld_setFld_same _ _ _ _ _ (by decide) (by decide)]
      exact Nat.mod_eq_of_lt (by omega)
  case refine_2 =>
    intro hh hr hk hk' hb hn hi he
    obtain ⟨hmb, -⟩ := M.mbHolds_busy _ _ _ hh
    obtain ⟨m', g, hm, hg, hbase, hgk, hcons, hstop⟩ := M.ringOpen_ok (view s) mb hr hk hk' hb hn hi he
    exact ⟨_, g, mailbox_done s mb 0x27 ccOK (M.ringOpen · mb) m' hl h4 hh hm, completes_put s m' mb ccOK hmb hok,
      by rwa [view_put, M.ring_mbComplete], hbase, hgk, hcons, hstop⟩
  case refine_3 =>
    intro g hh hg hc hd
    obtain ⟨hmb, -⟩ := M.mbHolds_busy _ _ _ hh
    obtain ⟨m', hm, hnone⟩ := M.ringClose_ok (view s) mb g hg hc hd
    exact ⟨_, mailbox_done s mb 0x28 ccOK (M.ringClose · mb) m' hl h4 hh hm, completes_put s m' mb ccOK hmb hok,
      by rwa [view_put, M.ring_mbComplete]⟩
  case refine_4 =>
    intro hh hw hd hi hs
    obtain ⟨hmb, -⟩ := M.mbHolds_busy _ _ _ hh
    obtain ⟨hnow, hnext⟩ := M.mapWindow_waits (view s) ((view s).mbArg mb 8 1) (some ((view s).grantedWindow mb)) hs
    exact ⟨_, mailbox_done s mb 0x29 ccOK (M.windowGrant · mb) _ hl h4 hh (M.windowGrant_ok (view s) mb hw hd hi),
      completes_put s _ mb ccOK hmb hok, hnow, hnext⟩
  case refine_5 =>
    intro hh hw hg hs
    obtain ⟨hmb, -⟩ := M.mbHolds_busy _ _ _ hh
    obtain ⟨hnow, hnext⟩ := M.mapWindow_waits (view s) ((view s).mbArg mb 8 1) none hs
    exact ⟨_, mailbox_done s mb 0x2A ccOK (M.windowRevoke · mb) _ hl h4 hh (M.windowRevoke_ok (view s) mb hw hg),
      completes_put s _ mb ccOK hmb hok, hnow, hnext⟩
  case refine_6 =>
    intro hh hw hd hi hs hn
    obtain ⟨hmb, -⟩ := M.mbHolds_busy _ _ _ hh
    have hnow := M.mapWindow_now (view s) ((view s).mbArg mb 8 1) (some ((view s).grantedWindow mb)) hs hn
    exact ⟨_, mailbox_done s mb 0x29 ccOK (M.windowGrant · mb) _ hl h4 hh (M.windowGrant_ok (view s) mb hw hd hi),
      completes_put s _ mb ccOK hmb hok, (congrArg (mapGet · _) hnow).trans (mapGet_mapSet_same _ _ _)⟩
  case refine_7 =>
    intro x hh hw hx hs hn
    obtain ⟨hmb, -⟩ := M.mbHolds_busy _ _ _ hh
    have hg := windowGranted_of_mapped (view s) _ x hx hn
    have hnow := M.mapWindow_now (view s) ((view s).mbArg mb 8 1) none hs hn
    exact ⟨_, mailbox_done s mb 0x2A ccOK (M.windowRevoke · mb) _ hl h4 hh (M.windowRevoke_ok (view s) mb hw hg),
      completes_put s _ mb ccOK hmb hok, (congrArg (mapGet · _) hnow).trans (mapGet_mapDel_same _ _)⟩
  case refine_8 =>
    intro hh hf hb hm hp
    obtain ⟨hmb, -⟩ := M.mbHolds_busy _ _ _ hh
    obtain ⟨m', r, he, hr, hnext, hper, hgroup⟩ := M.run_ok (view s) mb hf hb hm hp
    refine ⟨_, r, mailbox_done s mb 0x2B ccOK (M.run · mb) m' hl h4 hh he, completes_put s m' mb ccOK hmb hok, hr, hnext,
      hper, fun hs => ?_⟩
    rw [view_put, M.mbComplete_fld _ _ _ _ _ _ (by decide) (by decide), hgroup hs]
  case refine_9 =>
    intro hh hm hp ha hf hs _
    obtain ⟨hmb, -⟩ := M.mbHolds_busy _ _ _ hh
    obtain ⟨m', he, hmode, hpar, halt, hen⟩ := M.timeMode_ok (view s) mb hm hp ha hf hs
    have hfld (hi lo : Nat) : (view (put s (m'.mbComplete mb ccOK))).fld FTC_CTRL hi lo = m'.fld FTC_CTRL hi lo := by
      rw [view_put, M.mbComplete_fld _ _ _ _ _ _ (by decide) (by decide)]
    exact ⟨_, mailbox_done s mb 0x2F ccOK (M.timeModeCmd · mb) m' hl h4 hh he, completes_put s m' mb ccOK hmb hok,
      (hfld 5 4).trans hmode, (hfld 11 8).trans hpar, (hfld 15 12).trans halt, (hfld 0 0).trans hen⟩
  case refine_10 =>
    rintro b hh hn hb hi rfl ht
    obtain ⟨hmb, -⟩ := M.mbHolds_busy _ _ _ hh
    obtain ⟨m', he, hrole⟩ := M.fabricConfig_role (view s) mb hn hb hi ht
    exact ⟨_, mailbox_done s mb 0x2C ccOK (M.fabricConfig · mb) m' hl h4 hh he, completes_put s m' mb ccOK hmb hok, hrole⟩
  case refine_11 =>
    intro hh h5 ht hm
    exact ⟨clockStep_requests s mb hl h4 hh h5 ht hm,
      fun q old hq ho hne => clockStep_latches s mb q old hl h4 hh h5 ht hm hq ho hne⟩
  case refine_12 =>
    intro hh h5 hm h
    exact mailbox_done s mb 0x2E ccREFUSED (M.clockStep · mb) _ hl h4 hh (M.clockStep_refused (view s) mb h5 hm h)
  case refine_13 =>
    intro hh ho hk hs hu hp
    obtain ⟨hmb, -⟩ := M.mbHolds_busy _ _ _ hh
    obtain ⟨m', he, hret⟩ := M.unitSite_ok (view s) mb ho hk hs hu hp
    exact ⟨_, mailbox_done s mb 0x2D ccOK (M.unit · mb) m' hl h4 hh he, completes_put s m' mb ccOK hmb hok, hret⟩
  case refine_14 =>
    intro old hh ho hk hs hp hla hw hlt hne
    exact unit_supersedes s mb old hl h4 hh ho hk hs hp hla hw hlt hne
  case refine_15 =>
    intro site op waiting hs hp hla hlt hw
    exact transitionComplete_router s site op waiting hl hs hp hla hlt hw

end Sys2Proof

/-! ## Control-space accesses to the memories of a core -/

namespace Sys2Proof.Machine

/-! ### On the way over the Shaft (R233) -/

/-- What an access on its way over the Shaft leaves of the module. -/
def M.arrivesAs (v m : M) : Prop :=
  m.mem = v.mem ∧ m.die.cores = v.die.cores ∧ m.die.sites = v.die.sites ∧ m.die.step = v.die.step ∧
    m.die.ecc = v.die.ecc ∧ sameButPorts v m []

/-- The counter of an elastic wait is one of the port counters. -/
theorem portCounter_waitCounter (u : PortUse) : portCounter (waitCounter u) := by
  unfold waitCounter
  split
  · exact ⟨portRouter u.place, by simp⟩
  · split
    · exact ⟨u.core, by simp⟩
    · split
      · exact ⟨u.core / 17, by simp⟩
      · exact ⟨u.core, by simp⟩

@[simp] theorem M.noteUse_mem (m : M) (u : PortUse) : (m.noteUse u).mem = m.mem := rfl
@[simp] theorem M.noteUse_cores (m : M) (u : PortUse) : (m.noteUse u).die.cores = m.die.cores := rfl
@[simp] theorem M.noteUse_sites (m : M) (u : PortUse) : (m.noteUse u).die.sites = m.die.sites := rfl
@[simp] theorem M.noteUse_step (m : M) (u : PortUse) : (m.noteUse u).die.step = m.die.step := rfl
@[simp] theorem M.noteUse_ecc (m : M) (u : PortUse) : (m.noteUse u).die.ecc = m.die.ecc := rfl

/-- One link taken and its wait counted. -/
theorem M.arrivesAs_link (v m : M) (u u' : PortUse) (k : Nat) (h : v.arrivesAs m) :
    v.arrivesAs ((m.noteUse u).countBy (waitCounter u') k) := by
  obtain ⟨hmem, hcores, hsites, hstep, hecc, hregs⟩ := h
  refine ⟨by simpa using hmem, by simpa using hcores, by simpa using hsites, by simpa using hstep, by simpa using hecc,
    fun a ha hp => ?_⟩
  have hne : a ≠ waitCounter u' := fun e => hp (e ▸ portCounter_waitCounter u')
  rw [M.reg_countBy, if_neg hne]
  exact hregs a ha hp

theorem M.arrivesAs_elasticPath (m : M) (c way : Nat) : m.arrivesAs (m.elasticPath c way) := by
  have hstart : m.arrivesAs m := ⟨rfl, rfl, rfl, rfl, rfl, fun _ _ _ => rfl⟩
  unfold M.elasticPath
  split
  · exact hstart
  · refine List.foldlRecOn (motive := fun x : Nat × M => m.arrivesAs x.2) _ _ hstart fun x hx y _ => ?_
    exact M.arrivesAs_link m x.2 _ _ _ hx

/-- Outside a step nothing waits on the way (R233). -/
theorem M.elasticPath_rest (m : M) (c way : Nat) (h : m.die.step = none) : m.elasticPath c way = m := by
  simp [M.elasticPath, h]

/-! ### Reads and writes where no codeword holds an error -/

theorem M.flipsIn_nil (m : M) (mem a n : Nat) (h : m.die.ecc = []) : m.flipsIn mem a n = [] := by
  simp [M.flipsIn, h]

theorem M.csServe_read (m : M) (c mem : Nat) (a : CsAccess) (hw : a.write = false) (h : m.die.ecc = []) :
    m.csServe c mem a = { m with die.readData := m.readN (memAddr c mem a.offset) a.width } := by
  simp [M.csServe, hw, M.readMem, M.flipsIn_nil m _ _ _ h, M.readN, M.read]

/-- No injection is armed: the granule is stored as written. -/
theorem M.inject_off (m : M) (c mem off : Nat) (h : m.flag (injectReg c mem) 0 = false) : m.inject c mem off = m := by
  simp [M.inject, h]

/-- A write outside Lode, or while Assay checks no unit (R378). -/
theorem M.csServe_write (m : M) (c mem : Nat) (a : CsAccess) (hw : a.write = true) (hd : a.data ≠ []) (h : m.die.ecc = [])
    (hassay : mem ≠ 0 ∨ m.die.fmn.assay.unit = none) (hi : m.flag (injectReg c mem) 0 = false) :
    m.csServe c mem a = m.write (memAddr c mem a.offset) a.data := by
  have ha : (if mem = 0 then m.assayWrite c a.offset a.data.length else m) = m := by
    rcases hassay with h0 | hu
    · exact if_neg h0
    · simp [M.assayWrite, hu]
  simp only [M.csServe, hw, if_true, M.writeMem, List.isEmpty_iff, hd, if_false, ha, M.flipsIn_nil m _ _ _ h, List.foldl_nil]
  exact M.inject_off _ _ _ _ hi

/-! ### Where an access goes -/

/-- The access that a control-space request makes of a core's memory. -/
def csAccess (req : Requester) (off width : Nat) (write : Bool) (value : Word) : CsAccess :=
  { requester := req, offset := off, width, write, data := if write then toBytes width value.toNat else [] }

theorem csAccess_data (req : Requester) (off width addr : Nat) (value : Word) (h : accessOk width addr = true) :
    (csAccess req off width true value).data ≠ [] := by
  intro h0
  have hlen : (toBytes width value.toNat).length = 0 := congrArg List.length h0
  rw [toBytes_length] at hlen
  simp [accessOk, hlen] at h

/-- A request of the right width and alignment at a memory it may reach. -/
theorem M.csLocal_permitted (m : M) (req : Requester) (c addr width mem off : Nat) (w : Bool) (value : Word)
    (hs : (m.core c).st ≠ .retired) (ha : accessOk width addr = true) (hl : localMemory addr = some (mem, off))
    (hp : accessPermitted req mem w = true) :
    m.csLocal req c addr width w value = m.csMemory c mem (csAccess req off width w value) := by
  simp [M.csLocal, hs, ha, hl, hp, csAccess]

/-- A request that Table 5.9 does not allow (R222). -/
theorem M.csLocal_denied (m : M) (req : Requester) (c addr width mem off : Nat) (w : Bool) (value : Word)
    (hs : (m.core c).st ≠ .retired) (ha : accessOk width addr = true) (hl : localMemory addr = some (mem, off))
    (hp : accessPermitted req mem w = false) :
    m.csLocal req c addr width w value = (m.violation c (requesterCode req) w 0 0 0 addr).zeroRead w := by
  simp [M.csLocal, hs, ha, hl, hp]

/-- A request at an address that Table 5.1 does not assign (R195). -/
theorem M.csLocal_unassigned (m : M) (req : Requester) (c addr width : Nat) (w : Bool) (value : Word)
    (hs : (m.core c).st ≠ .retired) (ha : accessOk width addr = true) (hl : localMemory addr = none) :
    m.csLocal req c addr width w value = (m.violation c (requesterCode req) w 0 0 0 addr).zeroRead w := by
  simp [M.csLocal, hs, ha, hl]

/-- The memory behind an access that its unit's rest lets in at once (R214). -/
theorem M.csMemory_rests (m : M) (c mem : Nat) (a : CsAccess) (h0 : mem ≠ 0) (h5 : mem ≠ 5)
    (hr : unitRests m c mem = true) : m.csMemory c mem a = m.csServe c mem a := by
  have hr' : (if mem = 7 then m.siteResting (c / 17) else m.resting c) = true := hr
  simp [M.csMemory, h0, h5, hr']

theorem M.csMemory_waits (m : M) (c mem : Nat) (a : CsAccess) (h0 : mem ≠ 0) (h5 : mem ≠ 5)
    (hr : unitRests m c mem = false) :
    m.csMemory c mem a = (m.count (coreReg c CORE_CS_DEFER_CNT)).csDefer c mem a := by
  have hr' : (if mem = 7 then m.siteResting (c / 17) else m.resting c) = false := hr
  simp [M.csMemory, h0, h5, hr']

/-- A read of a parameter register or of a memory at rest is served at once (R66, R214). -/
theorem M.csMemory_read (m : M) (c mem : Nat) (a : CsAccess) (hw : a.write = false) (h0 : mem ≠ 0)
    (hr : mem = 5 ∨ unitRests m c mem = true) : m.csMemory c mem a = m.csServe c mem a := by
  by_cases h5 : mem = 5
  · simp [M.csMemory, h5, hw]
  · exact M.csMemory_rests m c mem a h0 h5 (hr.resolve_left h5)

/-- Lode outside a step, and during one (R213). -/
theorem M.csMemory_lode (m : M) (c : Nat) (a : CsAccess) :
    m.csMemory c 0 a = if m.inStep then m.csDefer c 0 a else m.csServe c 0 a := by
  simp [M.csMemory]

/-- Lode's offsets end with Lode (Table 5.1). -/
theorem localMemory_lode (off : Nat) (h : localMemory off = some (0, off)) : off < 0x200000 := by
  by_contra hge
  simp only [localMemory, List.findSome?] at h
  repeat' split at h
  all_goals simp_all [memLocal, memSize]

/-! ### What waiting and violating leave -/

@[simp] theorem M.csDefer_mem (m : M) (c mem : Nat) (a : CsAccess) : (m.csDefer c mem a).mem = m.mem := by
  unfold M.csDefer; split <;> rfl
@[simp] theorem M.csDefer_regs (m : M) (c mem : Nat) (a : CsAccess) : (m.csDefer c mem a).die.regs = m.die.regs := by
  unfold M.csDefer; split <;> rfl
@[simp] theorem M.csDefer_readData (m : M) (c mem : Nat) (a : CsAccess) :
    (m.csDefer c mem a).die.readData = m.die.readData := by
  unfold M.csDefer; split <;> rfl
@[simp] theorem M.csDefer_reg (m : M) (c mem : Nat) (a : CsAccess) (b : Nat) : (m.csDefer c mem a).reg b = m.reg b := by
  unfold M.csDefer; split <;> rfl

/-- A waiting access stands behind those that wait for the same memory (R214). -/
theorem M.csDefer_csWait (m : M) (c mem : Nat) (a : CsAccess) (h7 : mem ≠ 7) :
    mapGetD ((m.csDefer c mem a).core c).csWait mem [] = mapGetD (m.core c).csWait mem [] ++ [a] := by
  rw [M.csDefer, if_neg h7, M.core_updCore_same]
  exact mapGetD_mapSet_same _ _ _ _

/-- A violation is counted, and memory and the data of the last read stay (R224). -/
theorem M.violation_keeps (m : M) (c req : Nat) (w : Bool) (space tag pc addr : Nat) :
    (m.violation c req w space tag pc addr).mem = m.mem ∧
      (m.violation c req w space tag pc addr).die.readData = m.die.readData := by
  simp only [M.violation]
  split <;> simp

theorem M.violation_count (m : M) (c req : Nat) (w : Bool) (space tag pc addr : Nat) :
    (m.violation c req w space tag pc addr).regN (coreReg c CORE_VIOL_CNT) =
      min (m.regN (coreReg c CORE_VIOL_CNT) + 1) counterMax := by
  have h0 : coreReg c CORE_VIOL_CNT ≠ coreReg c CORE_VIOL_CAP0 := by simp only [coreReg, CORE_VIOL_CNT, CORE_VIOL_CAP0]; omega
  have h1 : coreReg c CORE_VIOL_CNT ≠ coreReg c CORE_VIOL_CAP1 := by simp only [coreReg, CORE_VIOL_CNT, CORE_VIOL_CAP1]; omega
  rw [← M.regN_count]
  simp only [M.violation]
  split
  · rfl
  · simp [M.regN, M.reg_setReg, h0, h1]

/-- A violation that reads zero and writes nothing (R224). -/
theorem M.violation_zeroRead (m : M) (c req : Nat) (w : Bool) (space tag pc addr : Nat) :
    ((m.violation c req w space tag pc addr).zeroRead w).mem = m.mem ∧
      ((m.violation c req w space tag pc addr).zeroRead w).regN (coreReg c CORE_VIOL_CNT) =
        min (m.regN (coreReg c CORE_VIOL_CNT) + 1) counterMax ∧
      ((m.violation c req w space tag pc addr).zeroRead w).die.readData = if w then m.die.readData else 0 := by
  obtain ⟨hmem, hdata⟩ := M.violation_keeps m c req w space tag pc addr
  have hcnt := M.violation_count m c req w space tag pc addr
  cases w
  · exact ⟨hmem, hcnt, rfl⟩
  · exact ⟨hmem, hcnt, hdata⟩

end Sys2Proof.Machine

namespace Sys2Proof
open Machine

/-- An access to a core of a die that runs. -/
theorem csMemoryAccess_runs (s : State) (req : Requester) (c addr width : Nat) (w : Bool) (value : Word)
    (hl : s.die.live = true) {m : M} (h : (overShaft s c).csLocal req c addr width w value = m) :
    runs (.csMemoryAccess req c addr width w value) s m := by
  subst h
  exact onLive_eq (fun m => (m.elasticPath c 34).csLocal req c addr width w value) s hl

/-- An access to Lode at its own offset. -/
theorem csLodeAccess_runs (s : State) (req : Requester) (c off width : Nat) (w : Bool) (value : Word)
    (hl : s.die.live = true) (ho : localMemory off = some (0, off)) {m : M}
    (h : (overShaft s c).csLocal req c off width w value = m) : runs (.csLodeAccess req c off width w value) s m := by
  subst h
  refine (onLive_eq (fun m => (m.elasticPath c 34).csLocal req c (off % 0x200000) width w value) s hl).trans ?_
  simp only [Nat.mod_eq_of_lt (localMemory_lode off ho)]
  rfl

/-- Settles O40: the way over the Shaft link by link, then the arm of `M.csLocal` that each request takes. -/
theorem coreMemoryAccesses : Obligations.CoreMemoryAccesses := by
  unfold Obligations.CoreMemoryAccesses
  refine ⟨fun s c => ?_, fun s req c addr width mem off value hl _ hecc hst hok hloc => ?_,
    fun s req c addr width w value hl _ => ?_⟩
  case refine_1 =>
    obtain ⟨hmem, hcores, hsites, hstep, -, hregs⟩ := M.arrivesAs_elasticPath (view s) c 34
    exact ⟨hmem, hcores, hsites, hstep, hregs, fun h => M.elasticPath_rest (view s) c 34 h⟩
  case refine_2 =>
    obtain ⟨-, hcores, -, hstep, hecc', -⟩ := M.arrivesAs_elasticPath (view s) c 34
    have hv : (overShaft s c).die.ecc = [] := hecc'.trans hecc
    have hvst : ((overShaft s c).core c).st ≠ .retired := by
      rwa [M.core, show (overShaft s c).die.cores = (view s).die.cores from hcores]
    have hread : accessPermitted req mem false = true := rfl
    have hdata := csAccess_data req off width addr value hok
    have hinStep : (overShaft s c).inStep = s.die.step.isSome := congrArg Option.isSome hstep
    have hpermitted (w : Bool) (hp : accessPermitted req mem w = true) :=
      M.csLocal_permitted (overShaft s c) req c addr width mem off w value hvst hok hloc hp
    refine ⟨?_, ?_, ?_, ?_, ?_, ?_, ?_⟩
    case refine_1 =>
      intro hp h0 h5 hr hi
      refine csMemoryAccess_runs s req c addr width true value hl ?_
      rw [hpermitted true hp, M.csMemory_rests _ _ _ _ h0 h5 hr]
      exact M.csServe_write _ _ _ _ rfl hdata hv (.inl h0) hi
    case refine_2 =>
      intro h0 hr
      refine csMemoryAccess_runs s req c addr width false value hl ?_
      rw [hpermitted false hread, M.csMemory_read _ _ _ _ rfl h0 hr]
      exact M.csServe_read _ _ _ _ rfl hv
    case refine_3 =>
      intro w hp h0 h5 hr
      refine ⟨_, csMemoryAccess_runs s req c addr width w value hl rfl, ?_⟩
      rw [hpermitted w hp, M.csMemory_waits _ _ _ _ h0 h5 hr]
      refine ⟨M.csDefer_mem _ _ _ _, fun a ha => ?_, ?_, M.csDefer_readData _ _ _ _, fun h7 => M.csDefer_csWait _ _ _ _ h7⟩
      · rw [M.csDefer_reg, M.reg_count, if_neg (by simpa using ha)]
      · rw [M.regN, M.csDefer_reg]
        exact M.regN_count _ _
    case refine_4 =>
      intro w hp
      refine ⟨_, csMemoryAccess_runs s req c addr width w value hl rfl, ?_⟩
      rw [M.csLocal_denied _ _ _ _ _ _ _ _ _ hvst hok hloc hp]
      exact M.violation_zeroRead _ _ _ _ _ _ _ _
    case refine_5 =>
      rintro rfl rfl hs w hp
      refine ⟨_, csLodeAccess_runs s req c addr width w value hl hloc rfl, ?_⟩
      rw [hpermitted w hp, M.csMemory_lode, if_pos (by rw [hinStep, Option.isSome_iff_ne_none]; exact hs)]
      exact ⟨M.csDefer_mem _ _ _ _, M.csDefer_regs _ _ _ _, M.csDefer_readData _ _ _ _,
        M.csDefer_csWait _ _ _ _ (by decide)⟩
    case refine_6 =>
      rintro rfl rfl hs ha hp hi
      refine csLodeAccess_runs s req c addr width true value hl hloc ?_
      have hassay : (overShaft s c).die.fmn.assay.unit = none := by
        rwa [overShaft, M.elasticPath_rest (view s) c 34 hs]
      rw [hpermitted true hp, M.csMemory_lode, if_neg (by simp [hinStep, hs])]
      exact M.csServe_write _ _ _ _ rfl hdata hv (.inr hassay) hi
    case refine_7 =>
      rintro rfl rfl hs
      refine csLodeAccess_runs s req c addr width false value hl hloc ?_
      rw [hpermitted false hread, M.csMemory_lode, if_neg (by simp [hinStep, hs])]
      exact M.csServe_read _ _ _ _ rfl hv
  case refine_3 =>
    refine ⟨fun hret => ?_, fun hst hok => ?_, fun hst hok hloc => ?_⟩
    · refine csMemoryAccess_runs s req c addr width w value hl ?_
      rw [M.csLocal, if_pos hret]
      rfl
    · refine csMemoryAccess_runs s req c addr width w value hl ?_
      rw [M.csLocal, if_neg hst, if_pos (by simp [hok])]
      rfl
    · refine ⟨_, csMemoryAccess_runs s req c addr width w value hl rfl, ?_⟩
      rw [M.csLocal_unassigned _ _ _ _ _ _ _ hst hok hloc]
      exact M.violation_zeroRead _ _ _ _ _ _ _ _

end Sys2Proof

/-! ## The Tally and parking -/

namespace Sys2Proof.Machine

/-! ### Where state memory and the Tally lie -/

/-- The registers of the Tally's block. -/
def tallyBlock (a : Nat) : Prop := 0x230000000000 ≤ a ∧ a < 0x230000010000

theorem not_tallyBlock {a : Nat} (h : 0x230000010000 ≤ a) : ¬ tallyBlock a := fun ha => absurd ha.2 (Nat.not_lt.mpr h)

theorem le_pageAddr (s p : Nat) : 0x240000000000 ≤ pageAddr s p := by
  simp only [pageAddr, stackBase]; omega

theorem le_ledgerAddr (s p : Nat) : 0x240000000000 ≤ ledgerAddr s p :=
  (le_pageAddr s ledgerPage).trans (Nat.le_add_right _ _)

theorem M.le_blockAddr (m : M) (s i : Nat) : 0x240000000000 ≤ m.blockAddr s i :=
  (le_pageAddr s _).trans (Nat.le_add_right _ _)

theorem le_carveAddr (a : Nat) : 0x240000000000 ≤ carveAddr a := (le_pageAddr _ _).trans (Nat.le_add_right _ _)

/-- A stack's registers stand below the Tally's. -/
theorem seamReg_not_tallyBlock (s off : Nat) (hs : s < seamStacks) (ho : off < 0x1000000) :
    ¬ tallyBlock (seamReg s off) := by
  simp only [seamStacks] at hs
  simp only [tallyBlock, seamReg]; omega

/-- Bytes of an entry lie below state memory and the mailboxes. -/
theorem tallyBase_lt (slot : Nat) (h : slot < tallySlots) : tallyBase slot + 64 ≤ 0x240000000000 := by
  simp only [tallySlots] at h
  simp only [tallyBase]; omega

/-! ### State memory without errors -/

theorem M.noteBursts_clean (m : M) (a n source : Nat) (h : m.die.bursts = []) : m.noteBursts a n source = m := by
  simp [M.noteBursts, M.burstsIn, h]

theorem M.stateWrite_clean (m : M) (a : Nat) (bs : Bytes) (source : Nat) (h : m.die.bursts = []) :
    m.stateWrite a bs source = m.write a bs := by
  simp [M.stateWrite, M.burstsIn, h]

theorem M.noteChain_clean (m : M) (s root layer source : Nat) (h : m.die.bursts = []) :
    m.noteChain s root layer source = m := by
  simp only [M.noteChain, M.noteBursts_clean m _ _ _ h]
  exact List.foldlRecOn (motive := fun x => x = m) _ _ rfl fun x hx b _ => by rw [hx]; exact M.noteBursts_clean m _ _ _ h

/-! ### Work on pages and table blocks leaves the Tally alone -/

/-- What work on pages and table blocks leaves of the module: the bytes below `top`, which is no higher than the mailboxes and
state memory, time, parking and shipments, and, where every stack it names exists (`real`), the Tally's registers. -/
structure M.WorksPages (real : Prop) (top : Nat) (v m : M) : Prop where
  bursts : m.die.bursts = []
  top_le : top ≤ 0x240000000000
  bytes : ∀ a, a < top → m.mem.byte a = v.mem.byte a
  regs : real → ∀ a, tallyBlock a → m.reg a = v.reg a
  ft : m.die.ft = v.die.ft
  parkJobs : m.die.parkJobs = v.die.parkJobs
  parked : m.die.parked = v.die.parked
  shipsIn : m.die.fmn.shipsIn = v.die.fmn.shipsIn
  shipsOut : m.die.fmn.shipsOut = v.die.fmn.shipsOut

section
variable {real : Prop} {top : Nat} {v m : M}

theorem M.WorksPages.refl (h : v.die.bursts = []) (ht : top ≤ 0x240000000000) : WorksPages real top v v :=
  ⟨h, ht, fun _ _ => rfl, fun _ _ _ => rfl, rfl, rfl, rfl, rfl, rfl⟩

/-- Every step of a fold that is such work makes the fold such work. -/
theorem M.WorksPages.foldl {β : Type} {l : List β} {f : M → β → M} (h : WorksPages real top v m)
    (hf : ∀ x, WorksPages real top v x → ∀ b ∈ l, WorksPages real top v (f x b)) : WorksPages real top v (l.foldl f m) :=
  List.foldlRecOn (motive := WorksPages real top v) l f h hf

theorem M.WorksPages.write (h : WorksPages real top v m) (a : Nat) (bs : Bytes) (ha : top ≤ a) :
    WorksPages real top v (m.write a bs) :=
  { h with bytes := fun b hb => (CMem.byte_write m.mem a bs b).trans ((if_neg (by omega)).trans (h.bytes b hb)) }

theorem M.WorksPages.clearMem (h : WorksPages real top v m) (a n : Nat) (ha : 0x240000000000 ≤ a) :
    WorksPages real top v (m.clearMem a n) :=
  { h with
    bytes := fun b hb => (CMem.byte_clear m.mem a n b).trans ((if_neg (by have := h.top_le; omega)).trans (h.bytes b hb)) }

theorem M.WorksPages.setReg (h : WorksPages real top v m) (a : Nat) (w : Word) (ha : real → ¬ tallyBlock a) :
    WorksPages real top v (m.setReg a w) :=
  { h with
    regs := fun hr b hb => by
      rw [M.reg_setReg, if_neg fun e : b = a => ha hr (e ▸ hb)]
      exact h.regs hr b hb }

theorem M.WorksPages.setFld (h : WorksPages real top v m) (a hi lo x : Nat) (ha : real → ¬ tallyBlock a) :
    WorksPages real top v (m.setFld a hi lo x) := h.setReg _ _ ha

theorem M.WorksPages.raise (h : WorksPages real top v m) (a i : Nat) (ha : real → ¬ tallyBlock a) :
    WorksPages real top v (m.raise a i) := h.setFld _ _ _ _ ha

theorem M.WorksPages.countBy (h : WorksPages real top v m) (a k : Nat) (ha : real → ¬ tallyBlock a) :
    WorksPages real top v (m.countBy a k) := by
  unfold M.countBy
  split
  · exact h
  · exact h.setReg _ _ ha

theorem M.WorksPages.count (h : WorksPages real top v m) (a : Nat) (ha : real → ¬ tallyBlock a) :
    WorksPages real top v (m.count a) := h.countBy a 1 ha

theorem M.WorksPages.updSeam (h : WorksPages real top v m) (s : Nat) (f : Seam → Seam) :
    WorksPages real top v (m.updSeam s f) :=
  { h with }

theorem M.WorksPages.updHdf (h : WorksPages real top v m) (f : Headframe → Headframe) :
    WorksPages real top v (m.updHdf f) :=
  { h with }

theorem M.WorksPages.stateWrite (h : WorksPages real top v m) (a : Nat) (bs : Bytes) (source : Nat)
    (ha : 0x240000000000 ≤ a) :
    WorksPages real top v (m.stateWrite a bs source) := by
  rw [M.stateWrite_clean m a bs source h.bursts]
  exact h.write a bs (h.top_le.trans ha)

theorem M.WorksPages.noteChain (h : WorksPages real top v m) (s root layer source : Nat) :
    WorksPages real top v (m.noteChain s root layer source) := by
  rw [M.noteChain_clean m s root layer source h.bursts]
  exact h

theorem M.WorksPages.freeBlock (h : WorksPages real top v m) (s b : Nat) : WorksPages real top v (m.freeBlock s b) :=
  h.updSeam s _

/-- A page's repair record is written, or waits behind the request that runs (R550). -/
theorem M.WorksPages.repairRecord (h : WorksPages real top v m) (r : FieldRepair) :
    WorksPages real top v (m.flash (.fieldRepair r)) := by
  unfold M.flash
  split
  · exact { h with }
  · exact { h with }

theorem M.WorksPages.lowCheck (h : WorksPages real top v m) (s : Nat) : WorksPages real top v (m.lowCheck s) := by
  simp only [M.lowCheck]
  split
  · split
    · exact h.updSeam s _
    · exact h
  · split
    · exact (h.updSeam s _).raise _ _ fun _ => not_tallyBlock (by decide)
    · exact h

/-! ### Freed pages -/

theorem M.WorksPages.withdrawPage (h : WorksPages real top v m) (s p : Nat) (hs : real → s < seamStacks) :
    WorksPages real top v (m.withdrawPage s p) :=
  ((((h.stateWrite _ _ _ (le_ledgerAddr s p)).count _ fun hr => seamReg_not_tallyBlock s _ (hs hr) (by decide)).lowCheck
    s).repairRecord _)

theorem M.WorksPages.retirePage (h : WorksPages real top v m) (s p : Nat) (hs : real → s < seamStacks) :
    WorksPages real top v (m.retirePage s p) := by
  unfold M.retirePage
  split
  · rename_i ch f _ _
    have hmap := h.updSeam s fun x => { x with remap := mapSet x.remap p (channelFrames * ch + f), reserveNext := f }
    have hclear := (hmap.repairRecord
      { kind := repairPage, site := s, core := 1, memory := ch, bank := f, row := p }).clearMem
        (pageAddr s p) pageSize (le_pageAddr s p)
    refine M.WorksPages.count ?_ _ fun hr => seamReg_not_tallyBlock s _ (hs hr) (by decide)
    exact { hclear with bursts := congrArg (List.filter _) hclear.bursts }
  · exact h.withdrawPage s p hs

theorem M.WorksPages.freePage (h : WorksPages real top v m) (s p : Nat) (hs : real → s < seamStacks) :
    WorksPages real top v (m.freePage s p) := by
  have hw := h.stateWrite (ledgerAddr s p) (toBytes 8 0) 1 (le_ledgerAddr s p)
  unfold M.freePage
  split
  · exact h
  · dsimp only
    split
    · exact (hw.retirePage s p hs).lowCheck s
    · exact hw.lowCheck s

theorem M.WorksPages.storeChain (h : WorksPages real top v m) (s root layer : Nat) (blocks : List Nat) (es : List Leaf) :
    WorksPages real top v (m.storeChain s root layer blocks es) := by
  simp only [M.storeChain]
  refine M.WorksPages.stateWrite ?_ _ _ _
    (((M.le_blockAddr _ s root).trans (Nat.le_add_right _ _)).trans (Nat.le_add_right _ _))
  refine M.WorksPages.foldl ?_ fun x hx b _ => hx.freeBlock s b
  exact h.foldl fun x hx i _ => hx.stateWrite _ _ _ (M.le_blockAddr _ _ _)

/-- The pages of a layer freed from some entry on, and the chain cut there (R286). -/
theorem M.WorksPages.cutLayer (h : WorksPages real top v m) (slot s root layer : Nat) (keep : Nat → Bool)
    (counter : Option Nat)
    (hs : real → s < seamStacks) (hc : ∀ r ∈ counter, r < 0x1000000) :
    WorksPages real top v (m.cutLayer slot s root layer keep counter) := by
  unfold M.cutLayer
  dsimp only
  split
  · exact h.noteChain _ _ _ _
  · refine M.WorksPages.storeChain ?_ _ _ _ _ _
    refine (h.noteChain _ _ _ _).foldl fun x hx e _ => ?_
    split
    · exact hx
    · cases counter with
      | none => exact hx.freePage s _ hs
      | some r => exact (hx.freePage s _ hs).count _ fun hr => seamReg_not_tallyBlock s r (hs hr) (hc r rfl)

theorem M.WorksPages.cutPages (h : WorksPages real top v m) (slot : Nat) (keep : Nat → Nat → Bool) (counter : Option Nat)
    (hc : ∀ r ∈ counter, r < 0x1000000) : WorksPages real top v (m.cutPages slot keep counter) := by
  unfold M.cutPages
  split
  · exact h
  · refine h.foldl fun x hx s hs => ?_
    exact hx.foldl fun y hy l _ => hy.cutLayer slot s _ l _ _ (fun _ => List.mem_range.mp hs) hc

/-- Everything the ledgers and the block owners give a slot, freed (R314). -/
theorem M.WorksPages.freeBySlot (h : WorksPages real top v m) (slot : Nat) : WorksPages real top v (m.freeBySlot slot) := by
  unfold M.freeBySlot
  refine h.foldl fun x hx s hs => ?_
  refine M.WorksPages.foldl ?_ fun y hy b _ => hy.freeBlock s b
  exact hx.foldl fun y hy p _ => hy.freePage s p fun _ => List.mem_range.mp hs

end

/-! ### Fields of an entry (Table 8.1) -/

theorem M.tally_setTally_same (m : M) (slot off n v : Nat) : (m.setTally slot off n v).tally slot off n = v % 256 ^ n :=
  M.readN_writeN_same m _ n v

theorem M.tally_setTally_other (m : M) (slot off n v off' n' : Nat) (h : off' + n' ≤ off ∨ off + n ≤ off') :
    (m.setTally slot off n v).tally slot off' n' = m.tally slot off' n' :=
  M.readN_writeN_other m _ n v _ n' (by omega)

/-- The state written is the state read (Table 8.2). -/
theorem M.tState_setTState (m : M) (slot st : Nat) (h : st < 16) : (m.setTState slot st).tState slot = st := by
  have hb : m.tally slot 0 1 < 256 := M.readN_lt _ _ 1
  rw [M.tState, M.setTState, M.tally_setTally_same]
  omega

/-- A state written leaves every field behind the first byte. -/
theorem M.tally_setTState (m : M) (slot st off n : Nat) (h : 1 ≤ off) :
    (m.setTState slot st).tally slot off n = m.tally slot off n :=
  M.tally_setTally_other m slot 0 1 _ off n (.inr h)

section
variable {real : Prop} {top : Nat} {v m : M}

/-- The bytes of a field below `top` are kept. -/
theorem M.WorksPages.tally (h : WorksPages real top v m) (slot off n : Nat) (ht : tallyBase slot + (off + n) ≤ top) :
    m.tally slot off n = v.tally slot off n := by
  refine congrArg ofBytes ?_
  rw [CMem.read_eq, CMem.read_eq]
  refine List.map_congr_left fun i hi => h.bytes _ ?_
  have := List.mem_range.mp hi
  omega

theorem M.WorksPages.tState (h : WorksPages real top v m) (slot : Nat) (ht : tallyBase slot + 1 ≤ top) :
    m.tState slot = v.tState slot := congrArg (· % 16) (h.tally slot 0 1 ht)

/-! ### Records and ring entries in the carve-out -/

theorem M.WorksPages.carveWrite (h : WorksPages real top v m) (a : Nat) (bs : Bytes) :
    WorksPages real top v (m.carveWrite a bs) :=
  h.foldl fun _ hx _ _ => hx.stateWrite _ _ _ (le_carveAddr _)

theorem M.carveRead_clean (m : M) (a n : Nat) (h : m.die.bursts = []) : (m.carveRead a n).2 = m := by
  refine List.foldlRecOn (motive := fun x : Bytes × M => x.2 = m) (stripes a n) _ rfl fun x hx b _ => ?_
  obtain ⟨bs, x⟩ := x
  subst hx
  exact M.noteBursts_clean _ _ _ _ h

theorem M.WorksPages.spend (h : WorksPages real top v m) : WorksPages real top v m.spend := { h with }

/-- A field written at or above `top`. -/
theorem M.WorksPages.setTally (h : WorksPages real top v m) (slot off n x : Nat) (ht : top ≤ tallyBase slot + off) :
    WorksPages real top v (m.setTally slot off n x) := h.write _ _ ht

theorem M.WorksPages.setTFlag (h : WorksPages real top v m) (slot i : Nat) (b : Bool) (ht : top ≤ tallyBase slot + oFLAGS) :
    WorksPages real top v (m.setTFlag slot i b) := h.setTally _ _ _ _ ht

theorem M.WorksPages.putRecord (h : WorksPages real top v m) (slot state step pos : Nat) (tokens : List Nat) (ft : Nat)
    (ht : top ≤ tallyBase slot + oFLAGS) : WorksPages real top v (m.putRecord slot state step pos tokens ft) := by
  have hw (seq : Nat) (r : Bytes) : WorksPages real top v ((m.carveWrite (m.ringAddr slot seq) r).setTally slot oOUT_PROD 4 seq) :=
    (h.carveWrite _ r).setTally slot oOUT_PROD 4 seq (ht.trans (Nat.add_le_add_left (by decide) _))
  unfold M.putRecord
  dsimp only
  split
  · exact (hw _ _).setTFlag slot _ _ ht
  · exact hw _ _

/-- A state record, posted or waiting, reaches of its slot's entry FLAGS and OUT_PROD alone (R322, R326). -/
theorem M.WorksPages.postEvent (h : WorksPages real top v m) (slot : Nat) (ht : top ≤ tallyBase slot + oFLAGS) :
    WorksPages real top v (m.postEvent slot) := by
  have hu : (m.unread slot).2 = m := M.carveRead_clean m (m.consAddr slot) 4 h.bursts
  unfold M.postEvent M.postState
  simp only [hu]
  split
  · exact { (h.count CMT_EVENT_DEFER_CNT fun _ => not_tallyBlock (by decide)).setTFlag slot fEVENT true ht with }
  · exact (h.spend).putRecord _ _ _ _ _ _ ht

theorem M.WorksPages.updRing (h : WorksPages real top v m) (r : Nat) (f : Ring → Ring) :
    WorksPages real top v (m.updRing r f) := by
  unfold M.updRing
  split
  · exact { h with }
  · exact h

theorem M.WorksPages.mbComplete (h : WorksPages real top v m) (mb code : Nat) :
    WorksPages real top v (m.mbComplete mb code) := by
  have hmb : 0x240000000000 ≤ mailboxBase mb + 1 := by simp only [mailboxBase]; omega
  exact ((h.write (mailboxBase mb + 1) _ (h.top_le.trans hmb)).setFld _ _ _ _ fun _ => not_tallyBlock (by decide)).raise
    _ _ fun _ => not_tallyBlock (by decide)

theorem M.WorksPages.ringClosed (h : WorksPages real top v m) (r : Nat) : WorksPages real top v (m.ringClosed r) := by
  have hdel : WorksPages real top v { m with die.fmn.rings := mapDel m.die.fmn.rings r } := { h with }
  unfold M.ringClosed
  split
  · split
    · split
      · exact hdel.mbComplete _ _
      · exact h
    · exact h
  · exact h

/-- A ring entry's completion (R528). -/
theorem M.WorksPages.ringStatus (h : WorksPages real top v m) (r i code : Nat) :
    WorksPages real top v (m.ringStatus r i code) := by
  unfold M.ringStatus
  split
  · exact ((((h.carveWrite _ _).carveWrite _ _).updRing _ _).raise _ _ fun _ => not_tallyBlock (by decide)).ringClosed r
  · exact h

/-! ### Freed requests -/

/-- A request's pages and table blocks freed: its entry's root is gone, every other field stays (R316). -/
theorem M.freeRequest_clean (m : M) (slot : Nat) (counter : Option Nat) (hb : m.die.bursts = [])
    (hc : ∀ r ∈ counter, r < 0x1000000) :
    ∃ x, WorksPages True 0x240000000000 m x ∧
      m.freeRequest slot counter = if (m.rootOf slot).isSome then x.setTally slot oROOT 4 noPage else x := by
  have hm : WorksPages True 0x240000000000 m m := M.WorksPages.refl hb le_rfl
  cases hr : m.rootOf slot with
  | none => exact ⟨m, hm, by simp [M.freeRequest, hr]⟩
  | some root =>
    refine ⟨(List.range seamStacks).foldl (fun m s => m.freeBlock s root) (m.cutPages slot (fun _ _ => false) counter),
      (hm.cutPages slot _ counter hc).foldl fun x hx s _ => hx.freeBlock s root, ?_⟩
    simp [M.freeRequest, hr]

/-! ### Parked pages -/

theorem M.WorksPages.stateRead (h : WorksPages real top v m) (a n source : Nat) :
    WorksPages real top v (m.stateRead a n source).2 := by
  rw [M.stateRead, M.noteBursts_clean m a n source h.bursts]
  exact h

/-- A layer's pages parked (R305). -/
theorem M.WorksPages.parkLayer (h : WorksPages False top v m) (root : Nat) (g : Geometry) (x : ParkLayer) :
    WorksPages False top v (m.parkLayer root g x) := by
  unfold M.parkLayer
  dsimp only
  refine M.WorksPages.foldl ?_ fun y hy e _ => (hy.freePage _ _ False.elim).count _ False.elim
  refine M.WorksPages.storeChain ?_ _ _ _ _ _
  refine M.WorksPages.foldl ?_ fun y hy p _ => hy.stateWrite _ _ _ (le_pageAddr _ _)
  exact List.foldlRecOn (motive := fun y : Bytes × M => WorksPages False top v y.2) _ _ (h.noteChain _ _ _ _)
    fun y hy e _ => hy.stateRead _ _ _

theorem M.WorksPages.resumeOne (h : WorksPages False top v m) (g : Geometry) (s page index len : Nat) (unit scale : Bytes) :
    WorksPages False top v (m.resumeOne g s page index len unit scale) :=
  (h.stateWrite _ _ _ (le_pageAddr s page)).countBy _ _ False.elim

/-- A layer's pages rebuilt (R307). -/
theorem M.WorksPages.resumeLayer (h : WorksPages False top v m) (root len : Nat) (g : Geometry) (x : ParkLayer) :
    WorksPages False top v (m.resumeLayer root len g x) := by
  unfold M.resumeLayer
  dsimp only
  refine M.WorksPages.foldl ?_ fun y hy e _ => hy.freePage _ _ False.elim
  refine M.WorksPages.storeChain ?_ _ _ _ _ _
  refine M.WorksPages.foldl ?_ fun y hy p _ => hy.resumeOne _ _ _ _ _ _ _
  exact List.foldlRecOn (motive := fun y : Bytes × M => WorksPages False top v y.2) _ _ (h.noteChain _ _ _ _)
    fun y hy e _ => hy.stateRead _ _ _

/-- PARKED marked in the root blocks, or cleared (R305). -/
theorem M.WorksPages.setParked (h : WorksPages real top v m) (root : Nat) (b : Bool) :
    WorksPages real top v (m.setParked root b) := by
  refine h.foldl fun x hx s _ => ?_
  dsimp only
  split
  · exact hx
  · exact hx.stateWrite _ _ _ (M.le_blockAddr _ _ _)

end

/-! ### Writes of an entry by firmware (R313, R314) -/

/-- An error reported to the Foreman touches its own registers alone (R518). -/
theorem M.errorClass_regN (m : M) (cls block inst detail b : Nat) (h : b < FMN_ERR_FIRST0) :
    (m.errorClass cls block inst detail).regN b = m.regN b := by
  have h0 : b ≠ FMN_ERR_FIRST0 := h.ne
  have h1 : b ≠ FMN_ERR_FIRST1 := (h.trans (by decide)).ne
  have h2 : b ≠ FMN_ERR_FIRST2 := (h.trans (by decide)).ne
  have hc : b ≠ FMN_ERR_CLASS_CNT + 8 * cls := (h.trans_le (Nat.le_add_right_of_le (by decide))).ne
  unfold M.errorClass
  dsimp only
  split
  · simp only [M.regN, M.reg_setReg, M.reg_count, if_neg h0, if_neg h1, if_neg h2, if_neg hc]
  · simp only [M.regN, M.reg_count, if_neg hc]

theorem M.errorClass_mem (m : M) (cls block inst detail : Nat) : (m.errorClass cls block inst detail).mem = m.mem := by
  unfold M.errorClass; dsimp only; split <;> rfl

theorem M.errorClass_bursts (m : M) (cls block inst detail : Nat) :
    (m.errorClass cls block inst detail).die.bursts = m.die.bursts := by
  unfold M.errorClass; dsimp only; split <;> rfl

theorem M.errorClass_parkJobs (m : M) (cls block inst detail : Nat) :
    (m.errorClass cls block inst detail).die.parkJobs = m.die.parkJobs := by
  unfold M.errorClass; dsimp only; split <;> rfl

theorem M.errorClass_ecc (m : M) (cls block inst detail : Nat) :
    (m.errorClass cls block inst detail).die.ecc = m.die.ecc := by
  unfold M.errorClass; dsimp only; split <;> rfl

/-- No codeword of the Tally in error: an access of an entry meets none. -/
theorem M.tallyMeet_clean (m : M) (slot off width : Nat) (h : m.die.ecc = []) : m.tallyMeet slot off width = m := by
  simp [M.tallyMeet, M.flipsIn, h]

/-- A corrected codeword in the entry's granule: counted, reported, and stored afresh (R314). -/
theorem M.tallyMeet_corrected (m : M) (slot off width a mask x y z : Nat) (he : m.die.ecc = [(a, mask)])
    (h1 : a < tallyBase slot + off + width) (h2 : tallyBase slot + off < a + granuleSize 8)
    (hj : eccJudge 8 a mask = .corrected x y z) :
    m.tallyMeet slot off width = (({ m with die.ecc := mapDel m.die.ecc a } : M).count TALLY_CE_CNT).errorClass 1 3 0 slot := by
  have hf : m.flipsIn 8 (tallyBase slot + off) width = [(a, mask)] := by simp [M.flipsIn, he, h1, h2]
  simp only [M.tallyMeet, hf, List.foldl_cons, List.foldl_nil, hj]

/-- A write of the right width and alignment inside the Tally (R12, R313). -/
theorem M.tallyWrite_inside (m : M) (slot off width : Nat) (value : Word) (same : Bool) (hs : slot < tallySlots)
    (ho : off < 64)
    (hw : width = 8 ∨ width = 4) (ha : off % width = 0) :
    m.tallyWrite slot off width value same =
      let x := (m.tallyMeet slot off width).writeMasked tallyMask (tallyBase slot + off) (toBytes width value.toNat)
      if same then x.count TALLY_FW_WR_DEFER_CNT else x := by
  have hok : (!((width == 8 || width == 4) && off % width == 0)) = false := by rcases hw with rfl | rfl <;> simp [ha]
  have hin : ¬ (tallySlots ≤ slot ∨ 64 ≤ off) := by omega
  simp only [M.tallyWrite, hok, Bool.false_eq_true, if_false, if_neg hin]

theorem M.tallyWrite_bad (m : M) (slot off width : Nat) (value : Word) (same : Bool)
    (h : (width ≠ 8 ∧ width ≠ 4) ∨ off % width ≠ 0) : m.tallyWrite slot off width value same = m.badAccess := by
  have hbad : (!((width == 8 || width == 4) && off % width == 0)) = true := by
    rcases h with ⟨h8, h4⟩ | ha
    · simp [h8, h4]
    · simp [ha]
  simp only [M.tallyWrite, hbad, if_true]

/-- The corrected error counted and gone, and the bytes of the write as without it. -/
theorem M.tallyWrite_corrected (m : M) (slot off width a mask x y z : Nat) (value : Word) (same : Bool)
    (hs : slot < tallySlots)
    (ho : off < 64) (hw : width = 8 ∨ width = 4) (ha : off % width = 0) (he : m.die.ecc = [(a, mask)])
    (h1 : a < tallyBase slot + off + width) (h2 : tallyBase slot + off < a + granuleSize 8)
    (hj : eccJudge 8 a mask = .corrected x y z) :
    (m.tallyWrite slot off width value same).die.ecc = [] ∧ counted m (m.tallyWrite slot off width value same) TALLY_CE_CNT ∧
      (m.tallyWrite slot off width value same).mem =
        (m.writeMasked tallyMask (tallyBase slot + off) (toBytes width value.toNat)).mem := by
  rw [M.tallyWrite_inside m slot off width value same hs ho hw ha,
    M.tallyMeet_corrected m slot off width a mask x y z he h1 h2 hj]
  have hecc : mapDel m.die.ecc a = [] := by simp [he, mapDel]
  generalize hx : (({ m with die.ecc := mapDel m.die.ecc a } : M).count TALLY_CE_CNT).errorClass 1 3 0 slot = w
  have hwecc : w.die.ecc = [] := by rw [← hx, M.errorClass_ecc]; exact hecc
  have hwmem : w.mem = m.mem := by rw [← hx, M.errorClass_mem]; rfl
  have hwcnt : counted m w TALLY_CE_CNT := by
    rw [counted, ← hx, M.errorClass_regN _ _ _ _ _ _ (by decide)]
    exact M.regN_count _ _
  have hmem : (w.writeMasked tallyMask (tallyBase slot + off) (toBytes width value.toNat)).mem =
      (m.writeMasked tallyMask (tallyBase slot + off) (toBytes width value.toNat)).mem := by
    simp only [M.writeMasked, M.write, hwmem]
  cases same with
  | false => exact ⟨hwecc, hwcnt, hmem⟩
  | true =>
    refine ⟨hwecc, ?_, hmem⟩
    have hne : TALLY_CE_CNT ≠ TALLY_FW_WR_DEFER_CNT := by decide
    refine Eq.trans (congrArg BitVec.toNat ?_) hwcnt
    exact (M.reg_count _ _ _).trans (if_neg hne)

/-! ### An uncorrectable error in an entry (R314) -/

theorem M.dropJob_none (m : M) (slot : Nat) (h : mapGet m.die.parkJobs slot = none) : m.dropJob slot = m := by
  simp [M.dropJob, h]

/-- The module `w` in which a slot's pages have been freed, its entry faulted; parking and shipments are `m`'s without the
slot's. -/
def M.faulted (m w : M) (slot : Nat) : M :=
  (({ w with
      die.parked := mapDel m.die.parked slot
      die.fmn.shipsIn := mapDel m.die.fmn.shipsIn slot, die.fmn.shipsOut := mapDel m.die.fmn.shipsOut slot } : M).setTally
    slot oROOT 4 noPage).setTState slot tFAULTED

/-- The error counted and reported (R314). -/
def M.tallyUeNoted (m : M) (slot : Nat) : M := (m.count TALLY_UE_CNT).errorClass 9 3 0 slot

@[simp] theorem M.setTally_die (m : M) (slot off n v : Nat) : (m.setTally slot off n v).die = m.die := rfl
@[simp] theorem M.setTState_die (m : M) (slot st : Nat) : (m.setTState slot st).die = m.die := rfl

/-- Where no park or resume runs, the slot's pages are freed, its entry is faulted, and its state record is posted. -/
theorem M.tallyError_eq (m : M) (slot : Nat) (hs : slot < tallySlots) (hj : mapGet m.die.parkJobs slot = none) :
    m.tallyError slot =
      ((m.tallyUeNoted slot).faulted ((m.tallyUeNoted slot).freeBySlot slot) slot).postEvent slot := by
  have hd : (m.tallyUeNoted slot).dropJob slot = m.tallyUeNoted slot :=
    M.dropJob_none _ slot ((congrArg (mapGet · slot) (M.errorClass_parkJobs _ _ _ _ _)).trans hj)
  rw [M.tallyError, if_neg (Nat.not_le.mpr hs), ← M.tallyUeNoted.eq_1]
  simp only [hd, M.faulted]

/-- The faulted entry and what its record leaves of it. -/
theorem M.faulted_postEvent (m w : M) (slot : Nat) (hs : slot < tallySlots) (hb : w.die.bursts = []) :
    let t := (m.faulted w slot).postEvent slot
    t.tState slot = tFAULTED ∧ t.tRoot slot = noPage ∧ t.reg TALLY_UE_CNT = w.reg TALLY_UE_CNT ∧
      mapGet t.die.parked slot = none ∧ mapGet t.die.fmn.shipsIn slot = none ∧ mapGet t.die.fmn.shipsOut slot = none := by
  have htop : tallyBase slot + 12 ≤ 0x240000000000 := by have := tallyBase_lt slot hs; omega
  have hbelow (k : Nat) (hk : k ≤ 12) : tallyBase slot + k ≤ tallyBase slot + 12 := Nat.add_le_add_left hk _
  have hpost : WorksPages True (tallyBase slot + 12) (m.faulted w slot) ((m.faulted w slot).postEvent slot) :=
    (M.WorksPages.refl (v := m.faulted w slot) hb htop).postEvent slot (Nat.add_le_add_left (by decide) _)
  refine ⟨?_, ?_, hpost.regs trivial TALLY_UE_CNT ⟨by decide, by decide⟩, ?_, ?_, ?_⟩
  · rw [hpost.tState slot (hbelow 1 (by decide))]
    exact M.tState_setTState _ _ _ (by decide)
  · rw [M.tRoot, hpost.tally slot oROOT 4 (hbelow _ le_rfl), M.faulted, M.tally_setTState _ _ _ _ _ (by decide),
      M.tally_setTally_same]
    exact Nat.mod_eq_of_lt (by decide)
  · exact (congrArg (mapGet · slot) hpost.parked).trans (mapGet_mapDel_same _ _)
  · exact (congrArg (mapGet · slot) hpost.shipsIn).trans (mapGet_mapDel_same _ _)
  · exact (congrArg (mapGet · slot) hpost.shipsOut).trans (mapGet_mapDel_same _ _)

theorem M.tallyError_faults (m : M) (slot : Nat) (hs : slot < tallySlots) (hb : m.die.bursts = [])
    (hj : mapGet m.die.parkJobs slot = none) :
    (m.tallyError slot).tState slot = tFAULTED ∧ (m.tallyError slot).tRoot slot = noPage ∧
      counted m (m.tallyError slot) TALLY_UE_CNT ∧ mapGet (m.tallyError slot).die.parked slot = none ∧
      mapGet (m.tallyError slot).die.fmn.shipsIn slot = none ∧ mapGet (m.tallyError slot).die.fmn.shipsOut slot = none := by
  rw [M.tallyError_eq m slot hs hj]
  have hnb : (m.tallyUeNoted slot).die.bursts = [] := (M.errorClass_bursts (m.count TALLY_UE_CNT) 9 3 0 slot).trans hb
  have hfree : WorksPages True 0x240000000000 _ _ := (M.WorksPages.refl hnb le_rfl).freeBySlot slot
  obtain ⟨hst, hroot, hreg, hparked, hin, hout⟩ := M.faulted_postEvent (m.tallyUeNoted slot) _ slot hs hfree.bursts
  refine ⟨hst, hroot, ?_, hparked, hin, hout⟩
  have hcnt := M.errorClass_regN (m.count TALLY_UE_CNT) 9 3 0 slot TALLY_UE_CNT (by decide)
  rw [M.regN_count] at hcnt
  refine Eq.trans (congrArg BitVec.toNat ?_) hcnt
  exact hreg.trans (hfree.regs trivial TALLY_UE_CNT ⟨by decide, by decide⟩)

/-! ### Parking, resume and expiry (R305 to R308) -/

/-- A state written into an entry and a ring entry completed: the entry's state, and its other fields kept. -/
theorem M.setTState_ringStatus (m x : M) (slot st r i code : Nat) (hs : slot < tallySlots) (hst : st < 16)
    (hb : m.die.bursts = []) (hx : x.mem = (m.setTState slot st).mem) (hxb : x.die.bursts = m.die.bursts) :
    (x.ringStatus r i code).tState slot = st ∧ (x.ringStatus r i code).tLen slot = m.tLen slot ∧
      (x.ringStatus r i code).die.parkJobs = x.die.parkJobs ∧ (x.ringStatus r i code).die.parked = x.die.parked := by
  have htop := tallyBase_lt slot hs
  have hring : WorksPages True 0x240000000000 x (x.ringStatus r i code) :=
    (M.WorksPages.refl (hxb.trans hb) le_rfl).ringStatus r i code
  have htally (off n : Nat) : x.tally slot off n = (m.setTState slot st).tally slot off n := by
    simp only [M.tally, M.readN, hx]
  refine ⟨?_, ?_, hring.parkJobs, hring.parked⟩
  · rw [hring.tState slot (by omega), M.tState, htally]
    exact M.tState_setTState m slot st hst
  · rw [M.tLen, hring.tally slot oLEN 4 (by simp only [oLEN]; omega), htally]
    exact M.tally_setTState m slot st _ _ (by decide)

/-- The module with a park's units stored on every stack and the request marked (R305). -/
def M.unitsParked (m : M) (slot : Nat) (j : ParkJob) : M :=
  (j.layers.foldl (fun x l => x.parkLayer (m.tRoot slot / 32) (geometryOf (m.requestWord slot)) l) m).setParked
    (m.tRoot slot / 32) true

/-- The module with a resume's pages rebuilt on every stack and the mark cleared (R307). -/
def M.pagesResumed (m : M) (slot : Nat) (j : ParkJob) : M :=
  (j.layers.foldl (fun x l => x.resumeLayer (m.tRoot slot / 32) (m.tLen slot) (geometryOf (m.requestWord slot)) l) m).setParked
    (m.tRoot slot / 32) false

/-- What is kept of a request as it becomes PARKED (R308). -/
def M.parkedRecord (m : M) (slot : Nat) (j : ParkJob) : Parked :=
  { expiry := if m.tally slot oTTL 4 = 0 then none else some (m.die.ft + 1000000 * m.tally slot oTTL 4)
    layers := j.layers.map fun x => { x with pages := [], blocks := [] } }

theorem M.worksPages_unitsParked (m : M) (slot : Nat) (j : ParkJob) (hb : m.die.bursts = []) :
    WorksPages False 0x240000000000 m (m.unitsParked slot j) :=
  ((M.WorksPages.refl hb le_rfl).foldl fun _ hx _ _ => hx.parkLayer _ _ _).setParked _ _

theorem M.worksPages_pagesResumed (m : M) (slot : Nat) (j : ParkJob) (hb : m.die.bursts = []) :
    WorksPages False 0x240000000000 m (m.pagesResumed slot j) :=
  ((M.WorksPages.refl hb le_rfl).foldl fun _ hx _ _ => hx.resumeLayer _ _ _ _).setParked _ _

theorem M.parkDone_eq (m : M) (slot : Nat) (j : ParkJob) (hj : mapGet m.die.parkJobs slot = some j)
    (hp : j.resume = false) :
    m.parkDone slot =
      M.ringStatus { (m.unitsParked slot j).setTState slot tPARKED with
        die.parkJobs := mapDel (m.unitsParked slot j).die.parkJobs slot
        die.parked := mapSet (m.unitsParked slot j).die.parked slot ((m.unitsParked slot j).parkedRecord slot j) }
        j.ring j.entry ccOK := by
  unfold M.parkDone
  rw [hj]
  exact if_neg (by simp [hp])

theorem M.resumeDone_eq (m : M) (slot : Nat) (j : ParkJob) (hj : mapGet m.die.parkJobs slot = some j)
    (hp : j.resume = true) :
    m.resumeDone slot =
      M.ringStatus { (m.pagesResumed slot j).setTState slot tDECODE with
        die.parkJobs := mapDel (m.pagesResumed slot j).die.parkJobs slot
        die.parked := mapDel (m.pagesResumed slot j).die.parked slot } j.ring j.entry ccOK := by
  unfold M.resumeDone
  rw [hj]
  exact if_pos hp

/-- A park or resume that is done: the entry in its new state, the job gone, and of the parked requests what is given. -/
theorem M.jobDone (m x : M) (slot st : Nat) (j : ParkJob) (parked : NMap Parked) (hs : slot < tallySlots) (hst : st < 16)
    (hx : WorksPages False 0x240000000000 m x) :
    let t := M.ringStatus { x.setTState slot st with die.parkJobs := mapDel x.die.parkJobs slot, die.parked := parked }
      j.ring j.entry ccOK
    t.tState slot = st ∧ t.tLen slot = m.tLen slot ∧ mapGet t.die.parkJobs slot = none ∧ t.die.parked = parked := by
  have htop := tallyBase_lt slot hs
  obtain ⟨hstate, hlen, hjobs, hparked⟩ := M.setTState_ringStatus x
    { x.setTState slot st with die.parkJobs := mapDel x.die.parkJobs slot, die.parked := parked } slot st j.ring j.entry ccOK
    hs hst hx.bursts rfl rfl
  refine ⟨hstate, hlen.trans (hx.tally slot oLEN 4 (by simp only [oLEN]; omega)), ?_, hparked⟩
  exact (congrArg (mapGet · slot) hjobs).trans (mapGet_mapDel_same _ _)

/-- The last stack of a park (R305, R308). -/
theorem M.parkDone_parks (m : M) (slot : Nat) (j : ParkJob) (hs : slot < tallySlots) (hb : m.die.bursts = [])
    (hj : mapGet m.die.parkJobs slot = some j) (hp : j.resume = false) :
    (m.parkDone slot).tState slot = tPARKED ∧ (m.parkDone slot).tLen slot = m.tLen slot ∧
      mapGet (m.parkDone slot).die.parkJobs slot = none ∧
      mapGet (m.parkDone slot).die.parked slot = some (m.parkedRecord slot j) := by
  have hx := M.worksPages_unitsParked m slot j hb
  have htop := tallyBase_lt slot hs
  have hrec : (m.unitsParked slot j).parkedRecord slot j = m.parkedRecord slot j := by
    rw [M.parkedRecord, hx.tally slot oTTL 4 (by simp only [oTTL]; omega), hx.ft]
    rfl
  rw [M.parkDone_eq m slot j hj hp, hrec]
  obtain ⟨hstate, hlen, hjobs, hparked⟩ := M.jobDone m (m.unitsParked slot j) slot tPARKED j
    (mapSet (m.unitsParked slot j).die.parked slot (m.parkedRecord slot j)) hs (by decide) hx
  exact ⟨hstate, hlen, hjobs, (congrArg (mapGet · slot) hparked).trans (mapGet_mapSet_same _ _ _)⟩

/-- The last stack of a resume (R307). -/
theorem M.resumeDone_resumes (m : M) (slot : Nat) (j : ParkJob) (hs : slot < tallySlots) (hb : m.die.bursts = [])
    (hj : mapGet m.die.parkJobs slot = some j) (hp : j.resume = true) :
    (m.resumeDone slot).tState slot = tDECODE ∧ (m.resumeDone slot).tLen slot = m.tLen slot ∧
      mapGet (m.resumeDone slot).die.parkJobs slot = none ∧ mapGet (m.resumeDone slot).die.parked slot = none := by
  rw [M.resumeDone_eq m slot j hj hp]
  obtain ⟨hstate, hlen, hjobs, hparked⟩ := M.jobDone m (m.pagesResumed slot j) slot tDECODE j
    (mapDel (m.pagesResumed slot j).die.parked slot) hs (by decide) (M.worksPages_pagesResumed m slot j hb)
  exact ⟨hstate, hlen, hjobs, (congrArg (mapGet · slot) hparked).trans (mapGet_mapDel_same _ _)⟩

/-- The entry of a PARKED request that expires, `w` being the module in which the request is freed (R308). -/
def M.expired (w : M) (slot : Nat) : M :=
  { (w.setTState slot tEXPIRED).count TALLY_EXPIRED_CNT with die.parked := mapDel w.die.parked slot }

theorem M.parkedExpired_eq (m : M) (slot t : Nat) (p : Parked) (hp : mapGet m.die.parked slot = some p)
    (ht : p.expiry = some t) (hst : m.tState slot = tPARKED) :
    m.parkedExpired slot = ((m.reach t).freeRequest slot (some SEAM_EXPIRE_PAGE_CNT)).expired slot := by
  simp only [M.parkedExpired, hp, ht, hst, if_true, M.expired, M.setTState_die]

/-- The Tally's visit at or after the expiry time of a PARKED request (R308). -/
theorem M.parkedExpired_expires (m : M) (slot t : Nat) (p : Parked) (hb : m.die.bursts = [])
    (hp : mapGet m.die.parked slot = some p) (ht : p.expiry = some t) (hst : m.tState slot = tPARKED) :
    (m.parkedExpired slot).tState slot = tEXPIRED ∧ counted m (m.parkedExpired slot) TALLY_EXPIRED_CNT ∧
      mapGet (m.parkedExpired slot).die.parked slot = none ∧ (m.parkedExpired slot).die.ft = max m.die.ft t ∧
      ((m.rootOf slot).isSome → (m.parkedExpired slot).tRoot slot = noPage) := by
  obtain ⟨x, hx, hfree⟩ := M.freeRequest_clean (m.reach t) slot (some SEAM_EXPIRE_PAGE_CNT) hb
    fun r hr => Option.some.inj hr ▸ (by decide : SEAM_EXPIRE_PAGE_CNT < 0x1000000)
  rw [M.parkedExpired_eq m slot t p hp ht hst]
  generalize hw : (m.reach t).freeRequest slot (some SEAM_EXPIRE_PAGE_CNT) = w at hfree
  have hdie : w.die = x.die := by rw [hfree]; split <;> rfl
  refine ⟨M.tState_setTState w slot _ (by decide), ?_, mapGet_mapDel_same _ _, ?_, fun hroot => ?_⟩
  · have hreg : w.regN TALLY_EXPIRED_CNT = m.regN TALLY_EXPIRED_CNT := by
      have h : x.reg TALLY_EXPIRED_CNT = m.reg TALLY_EXPIRED_CNT := hx.regs trivial TALLY_EXPIRED_CNT ⟨by decide, by decide⟩
      simpa only [M.regN, M.reg, hdie] using congrArg BitVec.toNat h
    rw [counted, ← hreg]
    exact M.regN_count (w.setTState slot tEXPIRED) TALLY_EXPIRED_CNT
  · exact (congrArg Die.ft hdie).trans hx.ft
  · have hroot' : ((m.reach t).rootOf slot).isSome = true := hroot
    rw [if_pos hroot'] at hfree
    refine (M.tally_setTState w slot tEXPIRED oROOT 4 (by decide)).trans ?_
    rw [hfree, M.tally_setTally_same]
    exact Nat.mod_eq_of_lt (by decide)

end Sys2Proof.Machine

namespace Sys2Proof
open Machine

/-- Settles O50: each command's lemma on the module, put back into the state. -/
theorem tallyAndParking : Obligations.TallyAndParking := by
  unfold Obligations.TallyAndParking
  intro s slot hl hb
  have hwrite (off width : Nat) (value : Word) (same : Bool) :
      runs (.tallyEntryWrite slot off width value same) s ((view s).tallyWrite slot off width value same) :=
    onLive_eq (M.tallyWrite · slot off width value same) s hl
  have hue : runs (.tallyUe slot) s ((view s).tallyError slot) := onLive_eq (M.tallyError · slot) s hl
  have hpark : runs (.parkComplete slot) s ((view s).parkDone slot) := onLive_eq (M.parkDone · slot) s hl
  have hresume : runs (.resumeComplete slot) s ((view s).resumeDone slot) := onLive_eq (M.resumeDone · slot) s hl
  have hexpiry : runs (.parkedExpiry slot) s ((view s).parkedExpired slot) := onLive_eq (M.parkedExpired · slot) s hl
  refine ⟨fun off width value same hs ho hw ha => ⟨fun he => ?_, fun a mask x y z he h1 h2 hj => ?_⟩,
    fun off width value same h => ?_, fun hs hj => ?_, fun hs => ?_, fun hs j hj => ⟨?_, ?_, ?_, ?_⟩,
    fun p t hs hp ht => ⟨fun hst => ?_, fun hst => ?_⟩⟩
  case refine_1 =>
    have h := hwrite off width value same
    rwa [M.tallyWrite_inside _ slot off width value same hs ho hw ha, M.tallyMeet_clean _ slot off width he] at h
  case refine_2 =>
    exact ⟨_, hwrite off width value same,
      M.tallyWrite_corrected (view s) slot off width a mask x y z value same hs ho hw ha he h1 h2 hj⟩
  case refine_3 =>
    refine ⟨_, hwrite off width value same, ?_⟩
    rw [M.tallyWrite_bad _ slot off width value same h]
    exact ⟨rfl, M.regN_count _ _⟩
  case refine_4 =>
    exact ⟨_, hue, M.tallyError_faults (view s) slot hs hb hj⟩
  case refine_5 =>
    rwa [M.tallyError, if_pos hs] at hue
  case refine_6 =>
    intro hp
    obtain ⟨hstate, hlen, hjobs, hparked⟩ := M.parkDone_parks (view s) slot j hs hb hj hp
    exact ⟨_, _, hpark, hstate, hlen, hjobs, hparked, rfl, by simp [M.parkedRecord]⟩
  case refine_7 =>
    intro hp
    have hkeep : (view s).parkDone slot = view s := by
      unfold M.parkDone
      rw [show mapGet (view s).die.parkJobs slot = some j from hj]
      exact if_pos hp
    rwa [hkeep] at hpark
  case refine_8 =>
    intro hp
    exact ⟨_, hresume, M.resumeDone_resumes (view s) slot j hs hb hj hp⟩
  case refine_9 =>
    intro hp
    have hkeep : (view s).resumeDone slot = view s := by
      unfold M.resumeDone
      rw [show mapGet (view s).die.parkJobs slot = some j from hj]
      exact if_neg (by simp [hp])
    rwa [hkeep] at hresume
  case refine_10 =>
    obtain ⟨hstate, hcnt, hparked, hft, hroot⟩ := M.parkedExpired_expires (view s) slot t p hb hp ht hst
    exact ⟨_, hexpiry, hstate, hcnt, hparked, hft, fun root h => hroot (Option.isSome_of_eq_some h)⟩
  case refine_11 =>
    have hkeep : (view s).parkedExpired slot = view s := by
      unfold M.parkedExpired
      rw [show mapGet (view s).die.parked slot = some p from hp]
      simp only [ht]
      exact if_neg hst
    rwa [hkeep] at hexpiry

end Sys2Proof

/-! ## A change of frequency step (R576 to R579, R587) -/

namespace Sys2Proof.Machine

/-! ### The boundary before the change -/

/-- With no ceiling and no failed region waiting for it, a boundary brings in the spread alone. -/
theorem M.boundary_quiet (m : M) (hc : m.die.pwr.nextCeiling = []) (hf : m.die.pwr.regionFail = []) :
    m.boundaryCeilings.boundaryRegions = m := by
  have h1 : m.boundaryCeilings = m := by
    simp only [M.boundaryCeilings, hc, List.foldl_nil, M.updPwr]
    rw [← hc]
  rw [h1]
  simp only [M.boundaryRegions, hf, List.foldl_nil, List.isEmpty_nil, if_true, M.updPwr]
  rw [← hf]

/-- The spread in effect behind a boundary; nothing else of the power state changes (R587). -/
theorem M.boundarySsc_pwr (m : M) :
    m.boundarySsc.die.pwr = { m.die.pwr with sscInEffect := sscClamped (m.reg CLK_SSC) } := by
  simp only [M.boundarySsc]
  split
  case isTrue h => rw [← h]
  case isFalse => rfl

@[simp] theorem M.boundarySsc_regs (m : M) : m.boundarySsc.die.regs = m.die.regs := by
  simp only [M.boundarySsc]; split <;> rfl
@[simp] theorem M.boundarySsc_ft (m : M) : m.boundarySsc.die.ft = m.die.ft := by
  simp only [M.boundarySsc]; split <;> rfl
@[simp] theorem M.boundarySsc_step (m : M) : m.boundarySsc.die.step = m.die.step := by
  simp only [M.boundarySsc]; split <;> rfl

/-- The compute regions have stopped and start again: no fence stands, and every copy of fabric time is to be reloaded. -/
def M.regionsRestart (m : M) : Prop := m.die.fences = [] ∧ ∀ r, r < 8 → r ∈ m.die.servo.staleCopies

@[simp] theorem M.regionsStop_pwr (m : M) : m.regionsStop.die.pwr = m.die.pwr := rfl
@[simp] theorem M.regionsStop_ft (m : M) : m.regionsStop.die.ft = m.die.ft := rfl
@[simp] theorem M.regionsStop_reg (m : M) (b : Nat) : m.regionsStop.reg b = m.reg b := rfl

theorem M.regionsRestart_regionsStop (m : M) : m.regionsStop.regionsRestart :=
  ⟨rfl, fun _ hr => List.mem_append_left _ (List.mem_range.mpr hr)⟩

/-- A spread that changes stops the regions (R587). -/
theorem M.regionsRestart_boundarySsc (m : M) (h : m.die.pwr.sscInEffect ≠ sscClamped (m.reg CLK_SSC)) :
    m.boundarySsc.regionsRestart := by
  simp only [M.boundarySsc, if_neg h]
  exact M.regionsRestart_regionsStop _

/-! ### Steps and targets -/

/-- The spread has no part in the steps asked for. -/
theorem M.regionStep_boundarySsc (m : M) (r : Nat) : m.boundarySsc.regionStep r = m.regionStep r :=
  M.fld_congr m.boundarySsc_regs _ _ _

theorem M.regionTarget_boundarySsc (m : M) (r : Nat) : m.boundarySsc.regionTarget r = m.regionTarget r := by
  simp only [M.regionTarget, M.regionAsked, M.boundarySsc_pwr, M.fld_congr m.boundarySsc_regs]

theorem M.targetStep_boundarySsc (m : M) : m.boundarySsc.targetStep = m.targetStep := by
  simp only [M.targetStep, M.askedStep, M.boundarySsc_pwr, M.fld_congr m.boundarySsc_regs]

theorem M.fld_lt (m : M) (a hi lo : Nat) : m.fld a hi lo < 2 ^ (hi + 1 - lo) := bits_lt _ _ _

/-- The slowest of a step and the ceilings is one that the three bits of a report hold (Tables 16.3, 16.7). -/
theorem M.slowest_lt (m : M) (v : Nat) (hv : v < 8) :
    (List.range 4).foldl (fun v i => max v (m.fld CLK_STATUS (ceilingLo i + 2) (ceilingLo i))) v < 8 := by
  refine List.foldlRecOn (motive := (· < 8)) _ _ hv fun w hw i _ => max_lt hw ?_
  have h := m.fld_lt CLK_STATUS (ceilingLo i + 2) (ceilingLo i)
  rwa [show ceilingLo i + 2 + 1 - ceilingLo i = 3 by omega] at h

theorem M.regionTarget_lt (m : M) (r : Nat) : m.regionTarget r < 8 := m.slowest_lt _ (by omega)
theorem M.targetStep_lt (m : M) : m.targetStep < 8 := m.slowest_lt _ (by omega)

/-- Every compute region runs the step asked of it. -/
def M.stepsMet (m : M) : Prop := ∀ r, r < 8 → m.regionStep r = m.regionTarget r

theorem M.stepsMet_iff (m : M) :
    (List.range 8).all (fun r => m.regionStep r == m.regionTarget r) = true ↔ m.stepsMet := by
  simp only [M.stepsMet, List.all_eq_true, List.mem_range, beq_iff_eq]

/-- Some region would step up: the step asked of it is faster than the one it runs. -/
def M.stepsUp (m : M) : Prop := ∃ r, r < 8 ∧ m.regionTarget r < m.regionStep r

theorem M.stepsUp_iff (m : M) :
    (List.range 8).any (fun r => decide (m.regionTarget r < m.regionStep r)) = true ↔ m.stepsUp := by
  simp only [M.stepsUp, List.any_eq_true, List.mem_range, decide_eq_true_eq]

theorem M.not_stepsMet_of_stepsUp (m : M) (h : m.stepsUp) : ¬ m.stepsMet := fun hm =>
  let ⟨r, hr, hlt⟩ := h
  hlt.ne' (hm r hr)

/-! ### The regions set to their steps -/

/-- A region set to a step, with the PLL that gives it (Table 16.3). -/
def M.setStep (target : Nat → Nat) (m : M) (r : Nat) : M :=
  (m.setFld (CLK_REGION_STATUS + 8 * r) 10 8 (target r)).setFld (CLK_REGION_STATUS + 8 * r) 7 6 (stepSource (target r))

/-- Each of some regions set to its step. -/
def M.setSteps (target : Nat → Nat) (l : List Nat) (m : M) : M := l.foldl (M.setStep target) m

@[simp] theorem M.setSteps_pwr (t : Nat → Nat) (l : List Nat) (m : M) : (m.setSteps t l).die.pwr = m.die.pwr :=
  foldl_keeps (·.die.pwr) (M.setStep t) (fun _ _ => rfl) l m
@[simp] theorem M.setSteps_ft (t : Nat → Nat) (l : List Nat) (m : M) : (m.setSteps t l).die.ft = m.die.ft :=
  foldl_keeps (·.die.ft) (M.setStep t) (fun _ _ => rfl) l m

/-- Only the regions' own registers are written. -/
theorem M.setSteps_reg (t : Nat → Nat) (l : List Nat) (m : M) (b : Nat) (h : ∀ r, b ≠ CLK_REGION_STATUS + 8 * r) :
    (m.setSteps t l).reg b = m.reg b :=
  foldl_keeps (·.reg b) (M.setStep t) (fun d r => by simp only [M.setStep, M.reg_setFld, if_neg (h r)]) l m

/-- The step of a region after one region was set. -/
theorem M.regionStep_setStep (m : M) (t : Nat → Nat) (q r : Nat) (ht : t q < 8) :
    (m.setStep t q).regionStep r = if r = q then t r else m.regionStep r := by
  by_cases hr : r = q
  · subst hr
    rw [if_pos rfl, M.regionStep, M.setStep, M.fld, M.reg_setFld, if_pos rfl,
      Machine.fld_setFld_other _ _ _ _ _ _ (by decide) (by decide) (by decide)]
    exact (M.fld_setFld_same _ _ _ _ _ (by decide) (by decide)).trans (Nat.mod_eq_of_lt ht)
  · have hne : CLK_REGION_STATUS + 8 * r ≠ CLK_REGION_STATUS + 8 * q := by omega
    simp only [M.regionStep, M.setStep, if_neg hr, M.fld_setFld_ne _ _ _ _ _ _ _ _ hne]

/-- A region of the list runs its step, another one the step it ran. -/
theorem M.regionStep_setSteps (t : Nat → Nat) (ht : ∀ r, t r < 8) (l : List Nat) (m : M) (r : Nat) :
    (m.setSteps t l).regionStep r = if r ∈ l then t r else m.regionStep r := by
  induction l generalizing m with
  | nil => rfl
  | cons q l ih =>
    rw [M.setSteps, List.foldl_cons, ← M.setSteps, ih, M.regionStep_setStep _ _ _ _ (ht q)]
    simp only [List.mem_cons]
    split_ifs <;> tauto

/-! ### The end of a request -/

/-- With none latched behind it, the request that waited is over: its mailbox is the second result (R515). -/
theorem M.stepSettled_last (m : M) (hl : m.die.pwr.stepLatched = none) :
    ∃ p, m.stepSettled = (m.updPwr fun _ => p, m.die.pwr.stepPending.bind (·.mailbox)) ∧
      p.stepPending = none ∧ p.sscInEffect = m.die.pwr.sscInEffect := by
  unfold M.stepSettled
  cases h : m.die.pwr.stepPending with
  | none => exact ⟨m.die.pwr, rfl, h, rfl⟩
  | some q => exact ⟨_, rfl, hl, rfl⟩

@[simp] theorem stepAnswered_pwr (x : M × Option Nat) : (stepAnswered x).die.pwr = x.1.die.pwr := by
  obtain ⟨m, _ | mb⟩ := x <;> rfl
@[simp] theorem stepAnswered_ft (x : M × Option Nat) : (stepAnswered x).die.ft = x.1.die.ft := by
  obtain ⟨m, _ | mb⟩ := x <;> rfl

/-- The answer to a CLOCK_STEP restarts nothing and stops nothing. -/
theorem M.regionsRestart_stepAnswered (x : M × Option Nat) (h : x.1.regionsRestart) : (stepAnswered x).regionsRestart := by
  obtain ⟨m, _ | mb⟩ := x <;> exact h

/-- The answer to a CLOCK_STEP writes two registers of the mailboxes. -/
theorem stepAnswered_reg (x : M × Option Nat) (b : Nat) (hb : b ≠ FMN_MB_BUSY) (hi : b ≠ FMN_HOST_IRQ_MB) :
    (stepAnswered x).reg b = x.1.reg b := by
  obtain ⟨m, _ | mb⟩ := x
  · rfl
  · exact M.mbComplete_reg m mb ccOK b hb hi

theorem stepAnswered_fld (x : M × Option Nat) (b hi lo : Nat) (hb : b ≠ FMN_MB_BUSY) (hq : b ≠ FMN_HOST_IRQ_MB) :
    (stepAnswered x).fld b hi lo = x.1.fld b hi lo := by
  simp only [M.fld, stepAnswered_reg x b hb hq]

/-! ### What the change does -/

section

/-- The report of the step in effect, behind a boundary (Table 16.7). -/
def M.stepReported (m : M) : M := m.boundarySsc.setFld CLK_STATUS 31 29 m.targetStep

/-- The change of step carried out. -/
def M.stepsChanged (m : M) : M :=
  (((m.stepReported).setSteps m.regionTarget (List.range 8)).count CLK_STEP_CHANGE_CNT).regionsStop

theorem M.stepsChanged_pwr (m : M) : m.stepsChanged.die.pwr = m.boundarySsc.die.pwr := by
  rw [M.stepsChanged, M.regionsStop_pwr, M.count_pwr, M.setSteps_pwr, M.stepReported, M.setFld_pwr]

/-- A state whose boundary holds nothing but a change of step or of spread. -/
structure M.StepBoundary (m : M) : Prop where
  step : m.die.step = none
  ceilings : m.die.pwr.nextCeiling = []
  regions : m.die.pwr.regionFail = []
  latched : m.die.pwr.stepLatched = none

variable {m : M}

/-- Once the request is settled, nothing is left for the second turn (R515). -/
theorem M.StepBoundary.settle (h : m.StepBoundary) {ready : Bool} {n : M} (hn : n.die.pwr = m.boundarySsc.die.pwr)
    (hc : m.stepChange ready = n.stepSettled) :
    ∃ p, m.stepChangeDone ready = stepAnswered (n.updPwr fun _ => p, m.die.pwr.stepPending.bind (·.mailbox)) ∧
      p.stepPending = none ∧ p.sscInEffect = sscClamped (m.reg CLK_SSC) := by
  have hpwr := hn.trans m.boundarySsc_pwr
  obtain ⟨p, hs, hp, hssc⟩ := n.stepSettled_last (by rw [hpwr]; exact h.latched)
  rw [hpwr] at hs hssc
  refine ⟨p, ?_, hp, hssc⟩
  rw [M.stepChangeDone, hc, hs]
  simp [hp]

/-- The change of step as the steps run and asked for before the boundary decide it. -/
theorem M.StepBoundary.stepChange_eq (h : m.StepBoundary) (ready : Bool) :
    m.stepChange ready =
      if (List.range 8).all (fun r => m.regionStep r == m.regionTarget r) then m.stepReported.stepSettled
      else if (List.range 8).any (fun r => decide (m.regionTarget r < m.regionStep r)) && !ready then
        (m.boundarySsc.count CLK_STEP_DEFER_CNT, none)
      else m.stepsChanged.stepSettled := by
  simp only [M.stepChange, M.inStep, h.step, M.boundary_quiet m h.ceilings h.regions, M.regionStep_boundarySsc,
    M.regionTarget_boundarySsc, M.targetStep_boundarySsc]
  rfl

/-- Every region at its step: the report alone is brought up to date. -/
theorem M.StepBoundary.same (h : m.StepBoundary) (ready : Bool) (hm : m.stepsMet) :
    ∃ p, m.stepChangeDone ready =
        stepAnswered (m.stepReported.updPwr fun _ => p, m.die.pwr.stepPending.bind (·.mailbox)) ∧
      p.stepPending = none ∧ p.sscInEffect = sscClamped (m.reg CLK_SSC) :=
  h.settle (n := m.stepReported) rfl (by rw [h.stepChange_eq, if_pos (m.stepsMet_iff.mpr hm)])

/-- Regions away from their steps, none of which has to wait for its rails: the change is carried out (R578). -/
theorem M.StepBoundary.changes (h : m.StepBoundary) (ready : Bool) (hm : ¬ m.stepsMet) (hr : ready = true ∨ ¬ m.stepsUp) :
    ∃ p, m.stepChangeDone ready =
        stepAnswered (m.stepsChanged.updPwr fun _ => p, m.die.pwr.stepPending.bind (·.mailbox)) ∧
      p.stepPending = none ∧ p.sscInEffect = sscClamped (m.reg CLK_SSC) := by
  refine h.settle (n := m.stepsChanged) m.stepsChanged_pwr ?_
  have hup : ¬ (((List.range 8).any fun r => decide (m.regionTarget r < m.regionStep r)) && !ready) = true := by
    rw [Bool.and_eq_true, m.stepsUp_iff]
    rcases hr with rfl | hr
    · simp
    · exact fun h => hr h.1
  rw [h.stepChange_eq, if_neg (mt m.stepsMet_iff.mp hm), if_neg hup]

/-- A step up before the rails are in regulation is deferred (R579). -/
theorem M.StepBoundary.defers (h : m.StepBoundary) (hu : m.stepsUp) :
    m.stepChangeDone false = m.boundarySsc.count CLK_STEP_DEFER_CNT := by
  have hm := m.not_stepsMet_of_stepsUp hu
  have hc : m.stepChange false = (m.boundarySsc.count CLK_STEP_DEFER_CNT, none) := by
    rw [h.stepChange_eq, if_neg (mt m.stepsMet_iff.mp hm), m.stepsUp_iff.mpr hu]
    rfl
  have hfar : ¬ (m.boundarySsc.count CLK_STEP_DEFER_CNT).stepsMet := fun hn => hm fun r hr => by
    have hne : CLK_REGION_STATUS + 8 * r ≠ CLK_STEP_DEFER_CNT := by
      simp only [CLK_REGION_STATUS, CLK_STEP_DEFER_CNT]; omega
    have hs : CLK_STATUS ≠ CLK_STEP_DEFER_CNT := by decide
    have hmet := hn r hr
    rw [← M.regionStep_boundarySsc, ← M.regionTarget_boundarySsc]
    simpa [M.regionStep, M.regionTarget, M.regionAsked, hne, hs] using hmet
  rw [M.stepChangeDone, hc]
  simp only [stepAnswered, Bool.eq_false_iff.mpr (mt (M.stepsMet_iff _).mp hfar), Bool.and_false]
  rfl

end

/-! ### The registers of a change -/

theorem M.stepReported_ft (m : M) : m.stepReported.die.ft = m.die.ft := m.boundarySsc_ft

theorem M.stepsChanged_restart (m : M) : m.stepsChanged.regionsRestart := M.regionsRestart_regionsStop _

/-- Requests and ceilings have no part in the restart. -/
theorem M.regionsRestart_withPwr {m : M} (p : Power) (h : m.regionsRestart) :
    (m.updPwr fun _ => p).regionsRestart := h

theorem M.stepsChanged_ft (m : M) : m.stepsChanged.die.ft = m.die.ft := by
  rw [M.stepsChanged, M.regionsStop_ft, M.count_ft, M.setSteps_ft, M.stepReported_ft]

/-- The report shows the step in effect (R578). -/
theorem M.stepReported_fld (m : M) : m.stepReported.fld CLK_STATUS 31 29 = m.targetStep :=
  (M.fld_setFld_same _ _ _ _ _ (by decide) (by decide)).trans (Nat.mod_eq_of_lt m.targetStep_lt)

theorem M.stepReported_reg (m : M) (a : Nat) (h : a ≠ CLK_STATUS) : m.stepReported.reg a = m.reg a := by
  rw [M.stepReported, M.reg_setFld, if_neg h, M.reg_congr m.boundarySsc_regs]

/-- A register that is neither a region's nor the count of changes reads as the report left it. -/
theorem M.stepsChanged_reg (m : M) (a : Nat) (hr : ∀ r, a ≠ CLK_REGION_STATUS + 8 * r) (hc : a ≠ CLK_STEP_CHANGE_CNT) :
    m.stepsChanged.reg a = m.stepReported.reg a := by
  rw [M.stepsChanged, M.regionsStop_reg, M.reg_count, if_neg hc, M.setSteps_reg _ _ _ _ hr]

theorem regionStatus_ne (a : Nat) (h : a < CLK_REGION_STATUS) (r : Nat) : a ≠ CLK_REGION_STATUS + 8 * r := by omega

theorem M.stepsChanged_fld (m : M) : m.stepsChanged.fld CLK_STATUS 31 29 = m.targetStep := by
  rw [← m.stepReported_fld, M.fld, M.stepsChanged_reg _ _ (regionStatus_ne _ (by decide)) (by decide), ← M.fld]

/-- One change is counted, however many regions take part in it. -/
theorem M.stepsChanged_count (m : M) :
    m.stepsChanged.regN CLK_STEP_CHANGE_CNT = min (m.regN CLK_STEP_CHANGE_CNT + 1) counterMax := by
  have h : (m.stepReported.setSteps m.regionTarget (List.range 8)).reg CLK_STEP_CHANGE_CNT = m.reg CLK_STEP_CHANGE_CNT := by
    rw [M.setSteps_reg _ _ _ _ (regionStatus_ne _ (by decide)), M.stepReported_reg _ _ (by decide)]
  rw [M.regN, M.stepsChanged, M.regionsStop_reg, M.reg_count, if_pos rfl, satAdd_toNat, h, M.regN]

/-- Each compute region runs the step that was asked of it. -/
theorem M.stepsChanged_regionStep (m : M) (r : Nat) (hr : r < 8) : m.stepsChanged.regionStep r = m.regionTarget r := by
  have h : m.stepsChanged.regionStep r = (m.stepReported.setSteps m.regionTarget (List.range 8)).regionStep r := by
    have hne : CLK_REGION_STATUS + 8 * r ≠ CLK_STEP_CHANGE_CNT := by
      simp only [CLK_REGION_STATUS, CLK_STEP_CHANGE_CNT]; omega
    rw [M.regionStep, M.fld, M.stepsChanged, M.regionsStop_reg, M.reg_count, if_neg hne, ← M.fld, ← M.regionStep]
  rw [h, M.regionStep_setSteps _ m.regionTarget_lt, if_pos (List.mem_range.mpr hr)]

/-- The CLOCK_STEP that was asked for is answered: its mailbox is no longer busy (R525). -/
theorem mbBusy_stepAnswered (m : M) (mb : Nat) (h : mb < 64) : (stepAnswered (m, some mb)).mbBusy mb = false := by
  obtain ⟨-, hbusy, -⟩ := M.mbComplete_completes m mb ccOK h (by decide)
  exact hbusy

/-- Whatever a boundary finds of the steps: time stands, the spread is in effect, and a new one has stopped the regions. -/
theorem M.StepBoundary.spread {m : M} (h : m.StepBoundary) (ready : Bool) :
    (m.stepChangeDone ready).die.ft = m.die.ft ∧
    (m.stepChangeDone ready).die.pwr.sscInEffect = sscClamped (m.reg CLK_SSC) ∧
    (m.die.pwr.sscInEffect ≠ sscClamped (m.reg CLK_SSC) → (m.stepChangeDone ready).regionsRestart) := by
  by_cases hm : m.stepsMet
  · obtain ⟨p, hp, -, hssc⟩ := h.same ready hm
    rw [hp]
    refine ⟨?_, ?_, fun hne => ?_⟩
    · rw [stepAnswered_ft, M.updPwr_ft, M.stepReported_ft]
    · rw [stepAnswered_pwr]; exact hssc
    · exact M.regionsRestart_stepAnswered _ (M.regionsRestart_withPwr p (m.regionsRestart_boundarySsc hne))
  by_cases hr : ready = true ∨ ¬ m.stepsUp
  · obtain ⟨p, hp, -, hssc⟩ := h.changes ready hm hr
    rw [hp]
    refine ⟨?_, ?_, fun _ => ?_⟩
    · rw [stepAnswered_ft, M.updPwr_ft, M.stepsChanged_ft]
    · rw [stepAnswered_pwr]; exact hssc
    · exact M.regionsRestart_stepAnswered _ (M.regionsRestart_withPwr p m.stepsChanged_restart)
  · obtain ⟨hready, hup⟩ := not_or.mp hr
    rw [Bool.eq_false_iff.mpr hready, h.defers (not_not.mp hup)]
    refine ⟨?_, ?_, fun hne => ?_⟩
    · rw [M.count_ft, M.boundarySsc_ft]
    · rw [M.count_pwr, M.boundarySsc_pwr]
    · have hstop := m.regionsRestart_boundarySsc hne
      rwa [M.regionsRestart, M.count_fences, M.count_servo]

end Sys2Proof.Machine

namespace Sys2Proof
open Machine

/-- Settles O16: a boundary with the steps met, with a change to carry out, and with one to defer. -/
theorem frequencyStepChanges : Obligations.FrequencyStepChanges := by
  unfold Obligations.FrequencyStepChanges
  intro s hl hstep hceil hfail hlatched
  have hb : (view s).StepBoundary := ⟨hstep, hceil, hfail, hlatched⟩
  have hrun (ready : Bool) : exec (.frequencyStepChange ready) s = .next (put s ((view s).stepChangeDone ready)) :=
    onLive_eq (M.stepChangeDone · ready) s hl
  refine ⟨fun ready => ?_, fun ready hr hne => ?_, fun r hr hlt => ?_, fun ready hm => ?_⟩
  · obtain ⟨hft, hssc, hstop⟩ := hb.spread ready
    exact ⟨_, hrun ready, hft, hssc, hstop⟩
  · obtain ⟨r, hr8, hr'⟩ := hne
    have hup : ready = true ∨ ¬ (view s).stepsUp := hr.imp_right fun hle ⟨q, hq, hlt⟩ => absurd (hle q hq) (not_le.mpr hlt)
    obtain ⟨p, hp, hpend, -⟩ := hb.changes ready (fun hm => hr' (hm r hr8)) hup
    refine ⟨_, hrun ready, ?_⟩
    rw [view_put, put_die, hp]
    refine ⟨fun q hq => ?_, ?_, ?_, ?_, ?_, ?_⟩
    · have hmb : CLK_REGION_STATUS + 8 * q ≠ FMN_MB_BUSY := by simp only [CLK_REGION_STATUS, FMN_MB_BUSY]; omega
      have hirq : CLK_REGION_STATUS + 8 * q ≠ FMN_HOST_IRQ_MB := by simp only [CLK_REGION_STATUS, FMN_HOST_IRQ_MB]; omega
      rw [M.regionStep, stepAnswered_fld _ _ _ _ hmb hirq, M.fld_updPwr, ← M.regionStep, M.stepsChanged_regionStep _ _ hq]
    · rw [stepAnswered_fld _ _ _ _ (by decide) (by decide), M.fld_updPwr, M.stepsChanged_fld]
    · rw [M.regN, stepAnswered_reg _ _ (by decide) (by decide), M.reg_updPwr, ← M.regN, M.stepsChanged_count]
    · rw [stepAnswered_pwr]; exact hpend
    · rw [stepAnswered_ft, M.updPwr_ft, M.stepsChanged_ft]; rfl
    · obtain ⟨hfences, hstale⟩ := M.regionsRestart_stepAnswered
        ((view s).stepsChanged.updPwr fun _ => p, (view s).die.pwr.stepPending.bind (·.mailbox))
        (M.regionsRestart_withPwr p (view s).stepsChanged_restart)
      refine ⟨hfences, hstale, fun q mb hq hmb h64 => ?_⟩
      rw [show (view s).die.pwr.stepPending.bind (·.mailbox) = some mb by rw [view_die, hq]; exact hmb]
      exact mbBusy_stepAnswered _ mb h64
  · refine ⟨_, hrun false, ?_⟩
    rw [hb.defers ⟨r, hr, hlt⟩]
    refine ⟨?_, ?_, fun a ha => ?_⟩
    · rw [view_put, M.regN_count, M.regN, M.reg_congr (view s).boundarySsc_regs]; rfl
    · rw [put_die, M.count_pwr, M.boundarySsc_pwr]; rfl
    · rw [view_put, M.reg_count, if_neg (by simpa using ha), M.reg_congr (view s).boundarySsc_regs]
  · obtain ⟨p, hp, hpend, -⟩ := hb.same ready hm
    refine ⟨_, hrun ready, ?_⟩
    rw [hp]
    refine ⟨?_, ?_, ?_, fun hnone a ha => ?_⟩
    · rw [view_put]
      rw [stepAnswered_fld _ _ _ _ (by decide) (by decide), M.fld_updPwr, M.stepReported_fld]
    · rw [put_die, stepAnswered_pwr]; exact hpend
    · rw [put_die, stepAnswered_ft, M.updPwr_ft, M.stepReported_ft]; rfl
    · rw [view_put, show (view s).die.pwr.stepPending.bind (·.mailbox) = none from hnone]
      rw [stepAnswered, M.reg_updPwr, M.stepReported_reg _ _ (by simpa using ha)]

end Sys2Proof

/-! ## Lock judgments and droop (R40, R244, R544, R545, R575, R590, R591) -/

namespace Sys2Proof.Machine

/-! ### The nominal count (R544, R587) -/

theorem M.nominalCount_le (m : M) (pll spread : Nat) : m.nominalCount pll spread ≤ pllCount pll := by
  simp only [M.nominalCount]; split <;> omega

theorem M.pllCount_le (m : M) (pll spread : Nat) :
    pllCount pll ≤ m.nominalCount pll spread + pllCount pll * Machine.fld m.die.pwr.sscInEffect 7 4 / 2000 := by
  simp only [M.nominalCount]; split <;> omega

theorem M.nominalCount_unspread (m : M) (pll spread : Nat) (h : m.spreads pll = false) :
    m.nominalCount pll spread = pllCount pll := by
  simp [M.nominalCount, h]

/-! ### A judgment (R544, R545, R575) -/

@[simp] theorem M.startRegion_pwr (m : M) (pll : Nat) : (m.startRegion pll).die.pwr = m.die.pwr := by
  simp only [M.startRegion]
  split
  · rfl
  · repeat' split
    all_goals rfl

/-- The PLL taken as locked. -/
def M.pllPassed (m : M) (pll : Nat) : M :=
  m.updPwr fun p => { p with
    pllLocked := mapSet p.pllLocked pll true, pllFails := mapSet p.pllFails pll 0, pllHoldover := mapSet p.pllHoldover pll false }

/-- A count within ±200 ppm, one part in 5,000, of the nominal one. -/
theorem M.lockJudgment_locks (m : M) (pll count spread : Nat)
    (hle : count ≤ m.nominalCount pll spread + m.nominalCount pll spread / 5000)
    (hge : m.nominalCount pll spread ≤ count + m.nominalCount pll spread / 5000) :
    m.lockJudgment pll count spread = (m.pllPassed pll).startRegion pll := by
  simp only [M.lockJudgment]
  rw [if_pos (by split <;> omega)]
  rfl

/-- A count beyond them, of either sign, is what the judgment takes as a failure. -/
theorem M.not_within_of_unlocked (m : M) (pll count spread : Nat) (h : unlocked m pll count spread) :
    ¬ (if count < m.nominalCount pll spread then m.nominalCount pll spread - count
      else count - m.nominalCount pll spread) * 1000000 ≤ 200 * m.nominalCount pll spread := by
  simp only [unlocked] at h
  split <;> omega

/-- A locked PLL fails while its reference is good: it goes into a holdover of its own (R575). -/
theorem M.lockJudgment_holdover (m : M) (pll count spread : Nat) (h : unlocked m pll count spread)
    (hl : mapGetD m.die.pwr.pllLocked pll false = true) (hh : mapGetD m.die.pwr.pllHoldover pll false = false)
    (hr : m.flag CLK_STATUS 2 = false) :
    m.lockJudgment pll count spread = (m.updPwr fun p => { p with
      pllHoldover := mapSet p.pllHoldover pll true, pllFails := mapSet p.pllFails pll 1 }).count CLK_PLL_UNLOCK_CNT := by
  simp only [M.lockJudgment, if_neg (m.not_within_of_unlocked pll count spread h), hl, hh, hr, if_true, Bool.false_eq_true,
    if_false]

/-- One more window failed in a row. -/
def M.pllFailed (m : M) (pll : Nat) : M :=
  m.updPwr fun p => { p with pllFails := mapSet p.pllFails pll lockWindows }

/-- The sixteenth failure of the Headframe PLL (R545). -/
theorem M.lockJudgment_headframe (m : M) (count spread : Nat) (h : unlocked m headframePll count spread)
    (hl : mapGetD m.die.pwr.pllLocked headframePll false = false) (hf : mapGetD m.die.pwr.pllFails headframePll 0 = 15) :
    m.lockJudgment headframePll count spread =
      (m.pllFailed headframePll).updPwr fun p => { p with released := false, pllDead := true } := by
  simp only [M.lockJudgment, if_neg (m.not_within_of_unlocked _ count spread h), hl, hf, if_true, Bool.false_eq_true,
    if_false, lockWindows, M.pllFailed]

/-- The sixteenth failure of a region's PLL (R545, R575). -/
theorem M.lockJudgment_region (m : M) (pll r count spread : Nat) (h : unlocked m pll count spread) (hr : pllRegion pll = some r)
    (hl : mapGetD m.die.pwr.pllLocked pll false = false) (hf : mapGetD m.die.pwr.pllFails pll 0 = 15) :
    m.lockJudgment pll count spread =
      (((m.pllFailed pll).logEvent 3).updHdf fun h => { h with loadsRefused := true }).setFld
        (CLK_REGION_STATUS + 8 * r) 1 0 3 := by
  have hne : pll ≠ headframePll := by
    rintro rfl
    simp [pllRegion, headframePll] at hr
  simp only [M.lockJudgment, if_neg (m.not_within_of_unlocked _ count spread h), hl, hf, if_true, Bool.false_eq_true,
    if_false, lockWindows, M.pllFailed, hne, hr]

/-! ### A holdover that has not ended (R575) -/

/-- Between steps a region that is to fail fails at once, and loads are refused. -/
theorem M.regionPllFailed_now (m : M) (pll r : Nat) (hs : m.die.step = none) (hf : m.die.pwr.regionFail = [])
    (hh : mapGetD m.die.pwr.pllHoldover pll false = true) (hw : 16 < mapGetD m.die.pwr.pllFails pll 0)
    (hr : pllRegion pll = some r) :
    (m.regionPllFailed pll).fld (CLK_REGION_STATUS + 8 * r) 1 0 = 3 ∧ (m.regionPllFailed pll).die.hdf.loadsRefused = true := by
  have h : m.regionPllFailed pll = ((m.logEvent 3).updPwr fun p => { p with regionFail := p.regionFail ++ [r] }).boundaryRegions := by
    simp [M.regionPllFailed, hh, lockWindows, hw, hr, M.inStep, hs]
  have hfail : ((m.logEvent 3).updPwr fun p => { p with regionFail := p.regionFail ++ [r] }).die.pwr.regionFail = [r] := by
    simp [M.updPwr, hf]
  rw [h]
  simp only [M.boundaryRegions, hfail, List.foldl_cons, List.foldl_nil, List.isEmpty_cons, Bool.false_eq_true, if_false,
    M.fld_updPwr, M.fld_updHdf, M.updPwr_hdf]
  exact ⟨M.fld_setFld_same _ _ _ _ _ (by decide) (by decide), rfl⟩

/-! ### Stretches and lag tokens (R40, R243, R244, R590) -/

/-- A stretch is counted in its region, and no other register changes. -/
theorem M.stretch_counts (m : M) (region eighths : Nat) :
    (m.stretch region eighths).regN (CLK_REGION_STRETCH_CNT + 8 * region) =
        min (m.regN (CLK_REGION_STRETCH_CNT + 8 * region) + 1) counterMax ∧
      ∀ a, a ∉ [CLK_REGION_STRETCH_CNT + 8 * region] → (m.stretch region eighths).reg a = m.reg a := by
  refine ⟨M.regN_count _ _, fun a ha => ?_⟩
  rw [M.stretch, M.reg_updPwr, M.reg_count, if_neg (by simpa using ha)]

@[simp] theorem M.stretch_mem (m : M) (region eighths : Nat) : (m.stretch region eighths).mem = m.mem := by
  simp [M.stretch]

/-- The power state behind a stretch. -/
theorem M.stretch_pwr (m : M) (region eighths : Nat) :
    (m.stretch region eighths).die.pwr = { m.die.pwr with stretched := mapSet m.die.pwr.stretched region eighths } := by
  simp [M.stretch, M.updPwr]

/-- Lag tokens sent to some regions, but for the one that sends them. -/
def sendLag (region eighths : Nat) (l : List Nat) (t : NMap (List Nat)) : NMap (List Nat) :=
  l.foldl (fun t r => if r = region then t else mapUpd t r [] (· ++ [eighths])) t

/-- Each region that is sent a token has it behind those it owes already. -/
theorem mapGetD_sendLag (region eighths : Nat) (l : List Nat) (hl : l.Nodup) (t : NMap (List Nat)) (q : Nat) :
    mapGetD (sendLag region eighths l t) q [] = mapGetD t q [] ++ if q ∈ l ∧ q ≠ region then [eighths] else [] := by
  induction l generalizing t with
  | nil => simp [sendLag]
  | cons r l ih =>
    obtain ⟨hr, hl⟩ := List.nodup_cons.mp hl
    rw [sendLag, List.foldl_cons, ← sendLag, ih hl]
    by_cases hreg : r = region
    · by_cases hq : q = r
      · simp [hreg, hq.trans hreg]
      · simp [hreg, hreg ▸ hq]
    · by_cases hq : q = r
      · simp [hq, hr, hreg, mapUpd]
      · simp [hq, hreg, mapUpd, mapGetD_mapSet_ne _ _ _ _ _ hq]

/-- The droop detector does not fire within its threshold (R590). -/
theorem M.droopFire_within (m : M) (region mv : Nat) (h : mv ≤ m.droopThreshold) : m.droopFire region mv = m :=
  if_neg (Nat.not_lt.mpr h)

/-- Beyond the threshold the region stretches, and a compute region sends its lag tokens (R243, R590). -/
theorem M.droopFire_beyond (m : M) (region mv : Nat) (h : m.droopThreshold < mv) :
    ∃ f : Power → Power, m.droopFire region mv = (m.stretch region (droopEighths mv)).updPwr f ∧
      ∀ p, (f p).stretched = p.stretched ∧
        (f p).lagTokens = if region < 8 then sendLag region (droopEighths mv) (List.range 8) p.lagTokens else p.lagTokens := by
  simp only [M.droopFire, if_pos h]
  by_cases h8 : region < 8
  · simp only [if_pos h8]
    exact ⟨_, rfl, fun _ => ⟨rfl, rfl⟩⟩
  · simp only [if_neg h8]
    exact ⟨id, rfl, fun _ => ⟨rfl, rfl⟩⟩

theorem droopEighths_bounds (mv : Nat) : 1 ≤ droopEighths mv ∧ droopEighths mv ≤ 4 := by
  have := (Config.droopStretch mv).isLt
  simp only [droopEighths]; omega

/-- A region mirrors the oldest stretch that it owes (R244). -/
theorem M.lagMirror_owed (m : M) (region amount : Nat) (rest : List Nat)
    (h : mapGetD m.die.pwr.lagTokens region [] = amount :: rest) :
    m.lagMirror region =
      (m.stretch region amount).updPwr fun p => { p with lagTokens := mapSet p.lagTokens region rest } := by
  rw [M.lagMirror, h]

/-! ### The droop ceiling (R591) -/

/-- A message to a neighbor advances the counters of messages alone. -/
theorem M.sendOn_reg (m : M) (p type : Nat) (ts body : Bytes) (a : Nat) (ht : a ≠ RYS_XPT_MSG_TX_CNT)
    (hn : a ≠ RYS_XPT_NO_ROUTE_CNT) : (m.sendOn p type ts body).reg a = m.reg a := by
  have hc : (m.spend.count RYS_XPT_MSG_TX_CNT).reg a = m.reg a := by rw [M.reg_count, if_neg ht, M.reg_spend]
  simp only [M.sendOn]
  split
  · exact hc
  · rw [M.reg_count, if_neg hn, hc]

/-- Raising the ceilings to the group writes no other register (R597). -/
theorem M.raisingCeilings_reg (m : M) (f : M → M) (a : Nat) (ht : a ≠ RYS_XPT_MSG_TX_CNT) (hn : a ≠ RYS_XPT_NO_ROUTE_CNT) :
    (m.raisingCeilings f).reg a = (f m).reg a := by
  simp only [M.raisingCeilings]
  split
  · simp only [M.ceilingsReceive]
    repeat' split
    · rfl
    · rfl
    · exact M.sendOn_reg _ _ _ _ _ a ht hn
  · rfl

/-- A ceiling with none waiting for its boundary is the one in effect. -/
theorem M.ceiling_inEffect (m : M) (i : Nat) (h : m.die.pwr.nextCeiling = []) :
    m.ceiling i = m.fld CLK_STATUS (ceilingLo i + 2) (ceilingLo i) := by
  rw [M.ceiling, h]; rfl

theorem M.putCeiling_reg (m : M) (i v a : Nat) (hc : a ≠ CLK_STATUS) (hp : a ≠ PWR_STATUS) :
    (m.putCeiling i v).reg a = m.reg a := by
  simp only [M.putCeiling, M.reg_setFld, if_neg hc, if_neg hp]

theorem M.putCeiling_fld (m : M) (i v : Nat) (hi : i < 4) (hv : v < 8) :
    (m.putCeiling i v).fld CLK_STATUS (ceilingLo i + 2) (ceilingLo i) = v := by
  have hne : CLK_STATUS ≠ PWR_STATUS := by decide
  simp only [M.putCeiling, M.fld_setFld_ne _ _ _ _ _ _ _ _ hne]
  rw [M.fld_setFld_same _ _ _ _ _ (by simp only [ceilingLo]; omega) (by omega),
    show ceilingLo i + 2 + 1 - ceilingLo i = 3 by omega]
  exact Nat.mod_eq_of_lt hv

/-- The window of a region that has closed, with this many over the limit in a row. -/
def M.windowClosed (m : M) (region runs : Nat) : M :=
  m.updPwr fun p => { p with
    droopFirings := mapSet p.droopFirings region 0, droopRuns := mapSet p.droopRuns region (runs % 10) }

/-- The droop ceiling dropped by one step, counted and dated. -/
def M.droopDropped (m : M) (v : Nat) : M := (m.putCeiling 3 (v + 1)).count PWR_DROOP_STEPDOWN_CNT

/-- The tenth window over the limit in a row drops the droop ceiling by one step. -/
theorem M.droopWindow_tenth (m : M) (region : Nat) (hs : m.die.step = none) (hc : m.die.pwr.nextCeiling = [])
    (h5 : m.fld CLK_STATUS 19 17 < 5) (hover : m.fld CLK_CTRL 23 16 < mapGetD m.die.pwr.droopFirings region 0)
    (h9 : mapGetD m.die.pwr.droopRuns region 0 = 9) :
    ∃ f, m.droopWindow region = ((m.windowClosed region 10).droopDropped (m.fld CLK_STATUS 19 17)).updPwr f := by
  have hceil : (m.windowClosed region 10).ceiling 3 = m.fld CLK_STATUS 19 17 := M.ceiling_inEffect _ 3 hc
  have hslow : slower (m.fld CLK_STATUS 19 17) = m.fld CLK_STATUS 19 17 + 1 := by simp only [slower]; omega
  have hstep : (m.windowClosed region 10).inStep = false := congrArg Option.isSome hs
  have hd : (if (m.windowClosed region 10).ceiling 3 < 5 then
      ((m.windowClosed region 10).setCeiling 3 (slower ((m.windowClosed region 10).ceiling 3))).count PWR_DROOP_STEPDOWN_CNT
      else m.windowClosed region 10) = (m.windowClosed region 10).droopDropped (m.fld CLK_STATUS 19 17) := by
    rw [hceil, if_pos h5, hslow, M.setCeiling, hstep]
    rfl
  rw [← hd]
  simp only [M.droopWindow, if_pos hover, h9, if_true]
  exact ⟨_, rfl⟩

theorem M.droopDropped_fld (m : M) (v : Nat) (hv : v < 5) : (m.droopDropped v).fld CLK_STATUS 19 17 = v + 1 := by
  rw [M.droopDropped, M.fld_count_ne _ _ _ _ _ (by decide)]
  exact m.putCeiling_fld 3 _ (by decide) (by omega)

theorem M.droopDropped_count (m : M) (v : Nat) :
    (m.droopDropped v).regN PWR_DROOP_STEPDOWN_CNT = min (m.regN PWR_DROOP_STEPDOWN_CNT + 1) counterMax := by
  rw [M.droopDropped, M.regN_count, M.regN, M.putCeiling_reg _ _ _ _ (by decide) (by decide), M.regN]

end Sys2Proof.Machine

namespace Sys2Proof
open Machine

/-- A region's rail falls beyond the threshold. -/
theorem droopFire_effect (s : State) (hl : s.die.live = true) (hw : Memory.wf s.mem = true) (region mv : Nat)
    (h : (view s).droopThreshold < mv) :
    ∃ t eighths, exec (.droopFire region mv) s = .next t ∧ 1 ≤ eighths ∧ eighths ≤ 4 ∧
      (view t).regN (CLK_REGION_STRETCH_CNT + 8 * region) =
        min ((view s).regN (CLK_REGION_STRETCH_CNT + 8 * region) + 1) counterMax ∧
      mapGet t.die.pwr.stretched region = some eighths ∧
      (∀ q, q < 8 → mapGetD t.die.pwr.lagTokens q [] = mapGetD s.die.pwr.lagTokens q [] ++
        if region < 8 ∧ q ≠ region then [eighths] else []) ∧
      keepsRegs s t [CLK_REGION_STRETCH_CNT + 8 * region] ∧ t.mem = s.mem := by
  obtain ⟨f, hf, hpwr⟩ := (view s).droopFire_beyond region mv h
  obtain ⟨hstretched, htokens⟩ := hpwr ((view s).stretch region (droopEighths mv)).die.pwr
  obtain ⟨hone, hfour⟩ := droopEighths_bounds mv
  obtain ⟨hcount, hregs⟩ := (view s).stretch_counts region (droopEighths mv)
  refine ⟨_, droopEighths mv, onLive_eq (M.droopFire · region mv) s hl, hone, hfour, ?_⟩
  rw [hf]
  refine ⟨?_, ?_, fun q hq => ?_, fun a ha => ?_, ?_⟩
  · rw [view_put, M.regN, M.reg_updPwr, ← M.regN, hcount]
  · refine (congrArg (mapGet · region) hstretched).trans ?_
    rw [M.stretch_pwr]
    exact mapGet_mapSet_same _ _ _
  · refine (congrArg (mapGetD · q []) htokens).trans ?_
    rw [M.stretch_pwr]
    by_cases h8 : region < 8
    · rw [if_pos h8, mapGetD_sendLag _ _ _ List.nodup_range]
      simp [h8, hq]
    · simp [h8]
  · rw [view_put, M.reg_updPwr, hregs a ha]
  · rw [put_mem, M.updPwr_mem, M.stretch_mem, view_mem s hw]

/-- A region mirrors a stretch that it owes. -/
theorem lagTokenMirror_effect (s : State) (hl : s.die.live = true) (hw : Memory.wf s.mem = true) (region amount : Nat)
    (rest : List Nat) (h : mapGetD s.die.pwr.lagTokens region [] = amount :: rest) :
    ∃ t, exec (.lagTokenMirror region) s = .next t ∧
      mapGetD t.die.pwr.lagTokens region [] = rest ∧ mapGet t.die.pwr.stretched region = some amount ∧
      (view t).regN (CLK_REGION_STRETCH_CNT + 8 * region) =
        min ((view s).regN (CLK_REGION_STRETCH_CNT + 8 * region) + 1) counterMax ∧
      keepsRegs s t [CLK_REGION_STRETCH_CNT + 8 * region] ∧ t.mem = s.mem := by
  obtain ⟨hcount, hregs⟩ := (view s).stretch_counts region amount
  refine ⟨_, onLive_eq (M.lagMirror · region) s hl, ?_⟩
  rw [M.lagMirror_owed _ region amount rest h]
  refine ⟨mapGetD_mapSet_same _ _ _ _, ?_, ?_, fun a ha => ?_, ?_⟩
  · rw [put_die, M.updPwr, M.stretch_pwr]
    exact mapGet_mapSet_same _ _ _
  · rw [view_put, M.regN, M.reg_updPwr, ← M.regN, hcount]
  · rw [view_put, M.reg_updPwr, hregs a ha]
  · rw [put_mem, M.updPwr_mem, M.stretch_mem, view_mem s hw]

/-- Settles O18: the judgment's branch for each verdict, then the droop detector, the mirror and the window by their lemmas. -/
theorem pllsAndDroop : Obligations.PllsAndDroop := by
  unfold Obligations.PllsAndDroop
  intro s hm
  have hjudge (pll count spread : Nat) :
      exec (.pllLockJudgment pll count spread) s = .next (put s ((view s).lockJudgment pll count spread)) :=
    onManaged_eq (M.lockJudgment · pll count spread) s hm
  refine ⟨fun pll spread => ⟨M.nominalCount_le _ _ _, M.pllCount_le _ _ _, M.nominalCount_unspread _ _ _⟩,
    fun pll count spread hle hge => ?_, fun pll count spread hu hlock hhold href => ?_,
    fun count spread hu hlock hfails => ?_, fun pll r count spread hu hr hlock hfails => ?_,
    fun pll r hs hf hh hw hr => ?_, fun hl hwf => ⟨fun region mv h => ?_, fun region mv h _ => ?_,
      fun region amount rest h => ?_, fun region hs hc h5 hover h9 => ?_⟩⟩
  case refine_1 =>
    refine ⟨_, hjudge pll count spread, ?_⟩
    rw [put_die, M.lockJudgment_locks _ _ _ _ hle hge, M.startRegion_pwr]
    simp [M.pllPassed, M.updPwr]
  case refine_2 =>
    refine ⟨_, hjudge pll count spread, ?_⟩
    rw [put_die, view_put, M.lockJudgment_holdover _ _ _ _ hu hlock hhold href, M.count_pwr, M.regN_count]
    exact ⟨mapGet_mapSet_same _ _ _, rfl⟩
  case refine_3 =>
    refine ⟨_, hjudge headframePll count spread, ?_⟩
    rw [put_die, M.lockJudgment_headframe _ _ _ hu hlock hfails]
    simp [Die.managed, M.updPwr]
  case refine_4 =>
    refine ⟨_, hjudge pll count spread, ?_⟩
    rw [view_put, put_die, M.lockJudgment_region _ _ r _ _ hu hr hlock hfails]
    exact ⟨M.fld_setFld_same _ _ _ _ _ (by decide) (by decide), rfl⟩
  case refine_5 =>
    refine ⟨_, onManaged_eq (M.regionPllFailed · pll) s hm, ?_⟩
    rw [view_put]
    exact (view s).regionPllFailed_now pll r hs hf hh hw hr
  case refine_6 =>
    refine (onLive_eq (M.droopFire · region mv) s hl).trans ?_
    rw [M.droopFire_within _ _ _ h, put_view s hwf]
  case refine_7 => exact droopFire_effect s hl hwf region mv h
  case refine_8 => exact lagTokenMirror_effect s hl hwf region amount rest h
  case refine_9 =>
    refine ⟨_, onLive_eq (M.raisingCeilings · (M.droopWindow · region)) s hl, ?_⟩
    obtain ⟨f, hf⟩ := (view s).droopWindow_tenth region hs hc h5 hover h9
    rw [view_put, M.fld, M.regN, M.raisingCeilings_reg _ _ _ (by decide) (by decide),
      M.raisingCeilings_reg _ _ _ (by decide) (by decide), hf, M.reg_updPwr, M.reg_updPwr, ← M.fld, ← M.regN]
    exact ⟨M.droopDropped_fld _ _ h5, M.droopDropped_count _ _⟩

end Sys2Proof

/-! ## Fences (R36, R86 to R89, R250, R251, R254, R262, R593) -/

namespace Sys2Proof.Machine

/-! ### Arrivals -/

/-- The first arrival at a fence, of a member of the group (R250 to R252). -/
theorem M.arrive_first (m : M) (c f cycle e : Nat) (he : (m.core c).entry = some e) (hc : (m.members e).contains c = true)
    (hf : ∀ x ∈ m.die.fences, x.id ≠ f) :
    m.arrive c f cycle = { m with die.fences := m.die.fences ++
      [{ id := f, entry := e, arrived := [c], lastCycle := cycle, withheld := m.flag PWR_STATUS 8 }] } := by
  have hnone : m.die.fences.find? (fun x => x.id = f) = none := by simpa using hf
  simp only [M.arrive, he, hc, hnone, Bool.not_true, Bool.false_eq_true, if_false]

/-- Every arrival of a core taken as in effect. -/
def M.arrivalsEffective (m : M) (c : Nat) : M :=
  m.updCore c fun k => { k with
    older := k.older.map fun a => { a with effective := true }
    arrival := k.arrival.map fun a => { a with effective := true } }

theorem M.arrivalsEffective_arrival (m : M) (c : Nat) (a : Arrival) (ha : (m.core c).arrival = some a) :
    ((m.arrivalsEffective c).core c).arrival = some { a with effective := true } := by
  rw [M.arrivalsEffective, M.core_updCore_same, ha]
  rfl

/-- The one arrival of a drained core, the first at its fence, takes effect there in the core's cycle (R86, R250). -/
theorem M.arrivalDrained_first (m : M) (c : Nat) (a : Arrival) (e : Nat) (hst : (m.core c).st = .running)
    (hd : (m.core c).drained = true) (ha : (m.core c).arrival = some a) (he : a.effective = false)
    (ho : (m.core c).older = []) (hentry : (m.core c).entry = some e) (hc : (m.members e).contains c = true)
    (hf : ∀ x ∈ m.die.fences, x.id ≠ a.fence) :
    m.arrivalDrained c = { m.arrivalsEffective c with die.fences := m.die.fences ++
      [{ id := a.fence, entry := e, arrived := [c], lastCycle := (m.core c).cycle, withheld := m.flag PWR_STATUS 8 }] } := by
  have hdue : m.arrivalDrained c = (m.arrivalsEffective c).arrive c a.fence (m.core c).cycle := by
    simp [M.arrivalDrained, M.arrivalsEffective, hst, hd, ha, ho, he]
  have hentry' : ((m.arrivalsEffective c).core c).entry = some e := by
    rw [M.arrivalsEffective, M.core_updCore_same]; exact hentry
  rw [hdue, (m.arrivalsEffective c).arrive_first c a.fence _ e hentry' hc hf]
  rfl

theorem M.arrivalDrained_notDrained (m : M) (c : Nat) (hd : (m.core c).drained = false) : m.arrivalDrained c = m := by
  simp [M.arrivalDrained, hd]

/-! ### Accesses that wait for a core's rest -/

/-- No access waits at a core or a site. -/
structure M.NothingWaits (m : M) : Prop where
  cores : ∀ c, (m.core c).csWait = []
  sites : ∀ t, (m.site t).csWait = []

/-- A map's value is one that it lists, or the default. -/
theorem mapGetD_mem {α : Type} (m : NMap α) (k : Nat) (d : α) : mapGetD m k d = d ∨ (k, mapGetD m k d) ∈ m := by
  rw [mapGetD_eq]
  cases h : mapGet m k with
  | none => exact .inl rfl
  | some v =>
    obtain ⟨l, r, hm, -⟩ := List.lookup_eq_some_iff.mp h
    exact .inr (by rw [hm]; simp)

theorem M.nothingWaits_of_noneWaits (m : M) (h : noneWaits m) : m.NothingWaits where
  cores c := by
    rcases mapGetD_mem m.die.cores c Core.fresh with hd | hm
    · rw [M.core, hd]; rfl
    · exact h.1 _ hm
  sites t := by
    rcases mapGetD_mem m.die.sites t Site.fresh with hd | hm
    · rw [M.site, hd]; rfl
    · exact h.2 _ hm

/-! ### What releasing members leaves -/

/-- The counter of the cycles that a core waited at fences. -/
def fenceWaitReg (c : Nat) : Nat := coreReg c CORE_FENCE_WAIT_CYCLE_CNT

/-- What the release of some cores leaves of the module. -/
structure M.Releases (l : List Nat) (v m : M) : Prop where
  waits : m.NothingWaits
  step : m.die.step = v.die.step
  fences : m.die.fences = v.die.fences
  mem : m.mem = v.mem
  regs : sameRegs v m (l.map fenceWaitReg)
  cores : ∀ c, c ∉ l → m.core c = v.core c

variable {l : List Nat} {v m : M}

theorem M.Releases.refl (h : v.NothingWaits) : Releases l v v :=
  ⟨h, rfl, rfl, rfl, fun _ _ => rfl, fun _ _ => rfl⟩

/-- A core of the list changed, with nothing that waits there. -/
theorem M.Releases.updCore (h : Releases l v m) (c : Nat) (f : Core → Core) (hc : c ∈ l)
    (hf : (f (m.core c)).csWait = (m.core c).csWait) : Releases l v (m.updCore c f) where
  waits := {
    cores d := by
      by_cases hd : d = c
      · rw [hd, M.core_updCore_same, hf, h.waits.cores]
      · rw [M.core_updCore_ne _ _ _ _ hd, h.waits.cores]
    sites := h.waits.sites }
  step := h.step
  fences := h.fences
  mem := h.mem
  regs := h.regs
  cores d hd := by
    have hne : d ≠ c := fun e => hd (by rwa [e])
    rw [M.core_updCore_ne _ _ _ _ hne, h.cores d hd]

/-- The accesses that wait at a core taken off, where none waits: the core reads as before. -/
theorem M.Releases.clearCore (h : Releases l v m) (c : Nat) (p : Nat × List CsAccess → Bool) :
    Releases l v (m.updCore c fun k => { k with csWait := k.csWait.filter p }) ∧
      ∀ d, (m.updCore c fun k => { k with csWait := k.csWait.filter p }).core d = m.core d := by
  have hcore (d : Nat) : (m.updCore c fun k => { k with csWait := k.csWait.filter p }).core d = m.core d := by
    by_cases hd : d = c
    · rw [hd, M.core_updCore_same, h.waits.cores, List.filter_nil, ← h.waits.cores c]
    · rw [M.core_updCore_ne _ _ _ _ hd]
  exact ⟨⟨⟨fun d => by rw [hcore, h.waits.cores], h.waits.sites⟩, h.step, h.fences, h.mem, h.regs,
    fun d hd => by rw [hcore, h.cores d hd]⟩, hcore⟩

/-- The accesses that wait at a site taken off. -/
theorem M.Releases.clearSite (h : Releases l v m) (t : Nat) :
    Releases l v (m.updSite t fun x => { x with csWait := [] }) where
  waits := {
    cores := h.waits.cores
    sites u := by
      by_cases hu : u = t
      · rw [hu, M.site_updSite_same]
      · rw [M.site_updSite_ne _ _ _ _ hu, h.waits.sites] }
  step := h.step
  fences := h.fences
  mem := h.mem
  regs := h.regs
  cores := h.cores

/-- With nothing that waits, a core's rest serves nothing (R214). -/
theorem M.Releases.serveDeferred (h : Releases l v m) (c : Nat) :
    Releases l v (m.serveDeferred c) ∧ ∀ d, (m.serveDeferred c).core d = m.core d := by
  have hsite (n : M) (hn : Releases l v n) (hd : ∀ d, n.core d = m.core d) :
      let n' := if n.siteResting (c / 17) then
        ((n.site (c / 17)).csWait.foldl (fun m a => m.csServe (17 * (c / 17)) 7 a)
          (n.updSite (c / 17) fun x => { x with csWait := [] })) else n
      Releases l v n' ∧ ∀ d, n'.core d = m.core d := by
    dsimp only
    split
    · rw [hn.waits.sites, List.foldl_nil]
      exact ⟨hn.clearSite _, hd⟩
    · exact ⟨hn, hd⟩
  simp only [M.serveDeferred, h.waits.cores c, List.filter_nil, List.foldl_nil]
  by_cases hr : m.resting c = true
  · simp only [if_pos hr]
    obtain ⟨hn, hd⟩ := h.clearCore c fun p => p.1 == 0
    exact hsite _ hn hd
  · simp only [if_neg hr]
    exact hsite m h fun _ => rfl

/-- A wait counted at a core of the list. -/
theorem M.Releases.countBy (h : Releases l v m) (c k : Nat) (hc : c ∈ l) :
    Releases l v (m.countBy (fenceWaitReg c) k) ∧ ∀ d, (m.countBy (fenceWaitReg c) k).core d = m.core d := by
  have hcore (d : Nat) : (m.countBy (fenceWaitReg c) k).core d = m.core d := by
    rw [M.core, M.countBy_cores, ← M.core]
  have hsite (t : Nat) : (m.countBy (fenceWaitReg c) k).site t = m.site t := by
    rw [M.site, M.countBy_sites, ← M.site]
  refine ⟨⟨⟨fun d => by rw [hcore, h.waits.cores], fun t => by rw [hsite, h.waits.sites]⟩, ?_, ?_, ?_, fun a ha => ?_,
    fun d hd => by rw [hcore, h.cores d hd]⟩, hcore⟩
  · rw [M.countBy_step, h.step]
  · rw [M.countBy_fences, h.fences]
  · rw [M.countBy_mem, h.mem]
  · have hne : a ≠ fenceWaitReg c := fun e => ha (e ▸ List.mem_map_of_mem hc)
    rw [M.reg_countBy, if_neg hne, h.regs a ha]

/-! ### The release of one member (R58, R87 to R89) -/

/-- The core behind its release: an ending arrival halts it. -/
def Core.released (st : CoreSt) (f cyc : Nat) (k : Core) : Core :=
  if k.endsAt f then Core.halt st (k.release f cyc) else k.release f cyc

/-- No register of a core that a program reads is the counter of its waits. -/
theorem M.Releases.restSt (h : Releases l v m) (c : Nat) : m.restSt c = v.restSt c := by
  have hne : coreReg c CORE_CTRL ∉ l.map fenceWaitReg := by
    intro hm
    obtain ⟨d, -, hd⟩ := List.mem_map.mp hm
    simp only [fenceWaitReg, coreReg, coreBase, CORE_CTRL, CORE_FENCE_WAIT_CYCLE_CNT] at hd
    omega
  rw [M.restSt, M.restSt, M.flag, M.flag, h.regs _ hne]

theorem M.Releases.releaseCore (h : Releases l v m) (f cyc c : Nat) (hc : c ∈ l) :
    Releases l v (m.releaseCore f cyc c) ∧
      (m.releaseCore f cyc c).core c = Core.released (v.restSt c) f cyc (m.core c) ∧
      ∀ d, d ≠ c → (m.releaseCore f cyc c).core d = m.core d := by
  have hwait : ∃ n, m.releaseCore f cyc c =
        (if (m.core c).endsAt f then (n.updCore c fun k => Core.halt (n.restSt c) (k.release f cyc)).serveDeferred c
          else n.updCore c (Core.release f cyc)) ∧ Releases l v n ∧ ∀ d, n.core d = m.core d := by
    simp only [M.releaseCore]
    by_cases hb : (m.core c).blockedAt f = true
    · simp only [if_pos hb]
      obtain ⟨hn, hd⟩ := h.countBy c (cyc - (m.core c).cycle) hc
      exact ⟨_, rfl, hn, hd⟩
    · simp only [if_neg hb]
      exact ⟨m, rfl, h, fun _ => rfl⟩
  obtain ⟨n, hr, hn, hd⟩ := hwait
  rw [hr, Core.released]
  split
  · obtain ⟨hs, hcore⟩ := (hn.updCore c (fun k => Core.halt (n.restSt c) (k.release f cyc)) hc rfl).serveDeferred c
    refine ⟨hs, ?_, fun d hne => ?_⟩
    · rw [hcore, M.core_updCore_same, hd, hn.restSt]
    · rw [hcore, M.core_updCore_ne _ _ _ _ hne, hd]
  · refine ⟨hn.updCore c _ hc rfl, ?_, fun d hne => ?_⟩
    · rw [M.core_updCore_same, hd]
    · rw [M.core_updCore_ne _ _ _ _ hne, hd]

/-- A core that was released at a fence has no arrival left there. -/
theorem Core.arrival_release (f cyc : Nat) (k : Core) : (k.release f cyc).arrival.map (·.fence) ≠ some f := by
  simp only [Core.release]
  split
  · exact nofun
  · rename_i hl
    simpa using hl

theorem Core.older_release (f cyc : Nat) (k : Core) : ∀ a ∈ (k.release f cyc).older, a.fence ≠ f := fun a ha => by
  simpa using (List.mem_filter.mp ha).2

/-- Neither is left when the core has halted as well. -/
theorem Core.released_clear (st : CoreSt) (f cyc : Nat) (k : Core) :
    (k.released st f cyc).arrival.map (·.fence) ≠ some f ∧ ∀ a ∈ (k.released st f cyc).older, a.fence ≠ f := by
  rw [Core.released]
  split <;> exact ⟨k.arrival_release f cyc, k.older_release f cyc⟩

/-- A core without an arrival at the fence neither ends there nor is changed by its release, but for its phase. -/
theorem Core.endsAt_of_clear (f : Nat) (k : Core) (hl : k.arrival.map (·.fence) ≠ some f) (ho : ∀ a ∈ k.older, a.fence ≠ f) :
    k.endsAt f = false := by
  rw [Core.endsAt, List.any_eq_false]
  intro a ha
  have hne : a.fence ≠ f := by
    rcases List.mem_append.mp ha with ha | ha
    · exact ho a ha
    · exact fun e => hl (by rw [Option.mem_toList.mp ha, Option.map_some, e])
  simp [hne]

theorem Core.release_of_clear (f cyc : Nat) (k : Core) (hl : k.arrival.map (·.fence) ≠ some f)
    (ho : ∀ a ∈ k.older, a.fence ≠ f) : k.release f cyc = { k with phaseBase := cyc, slotAt := 0 } := by
  have hold : k.older.filter (fun a => a.fence != f) = k.older :=
    List.filter_eq_self.mpr fun a ha => by simpa using ho a ha
  have hblocked : k.blockedAt f = false := by
    cases ha : k.arrival with
    | none => simp [Core.blockedAt, ha]
    | some a =>
      have hne : a.fence ≠ f := fun e => hl (by rw [ha, Option.map_some, e])
      simp [Core.blockedAt, ha, hne]
  have hlate : (k.arrival.map (·.fence) == some f) = false := by simpa using hl
  simp only [Core.release, hold, hblocked, hlate, Bool.false_eq_true, if_false]

/-- A second release at the same fence finds nothing to do. -/
theorem Core.released_released (st st' : CoreSt) (f cyc : Nat) (k : Core) :
    (k.released st f cyc).released st' f cyc = k.released st f cyc := by
  obtain ⟨hl, ho⟩ := k.released_clear st f cyc
  rw [Core.released, Core.endsAt_of_clear f _ hl ho, if_neg Bool.false_ne_true, Core.release_of_clear f cyc _ hl ho, Core.released]
  split <;> rfl

/-! ### The release of all members (R254) -/

/-- All members of a list released. -/
def M.releaseMembers (f cyc : Nat) (l : List Nat) (m : M) : M := l.foldl (fun m c => m.releaseCore f cyc c) m

theorem M.Releases.releaseMembers (h : Releases l v m) (f cyc : Nat) (l' : List Nat) (hl : ∀ c ∈ l', c ∈ l) :
    Releases l v (m.releaseMembers f cyc l') :=
  List.foldlRecOn l' _ h fun _ hn c hc => (hn.releaseCore f cyc c (hl c hc)).1

/-- Each member is released, however often the list names it. -/
theorem M.core_releaseMembers (f cyc : Nat) (l : List Nat) (m : M) (h : m.NothingWaits) (c : Nat) (hc : c ∈ l) :
    (m.releaseMembers f cyc l).core c = (m.core c).released (m.restSt c) f cyc := by
  induction l generalizing m with
  | nil => exact absurd hc List.not_mem_nil
  | cons d l ih =>
    obtain ⟨hr, hd, hother⟩ := (Releases.refl (l := d :: l) h).releaseCore f cyc d List.mem_cons_self
    rw [M.releaseMembers, List.foldl_cons, ← M.releaseMembers]
    by_cases hl : c ∈ l
    · rw [ih _ hr.waits hl]
      by_cases hcd : c = d
      · rw [hcd, hd, Core.released_released]
      · rw [hother c hcd, hr.restSt]
    · have hcd : c = d := (List.mem_cons.mp hc).resolve_right hl
      rw [((Releases.refl (l := l) hr.waits).releaseMembers f cyc l fun _ => id).cores c hl, hcd, hd]

/-! ### The end of an entry (R262) -/

/-- The comparison with BUDGET writes two registers. -/
theorem M.budgetCheck_reg (m : M) (i cyc a : Nat) (hc : a ≠ FMN_SEQ_BUDGET_OVR_CNT) (hp : a ≠ FMN_SEQ_BUDGET_OVR_CAP) :
    (m.budgetCheck i cyc).reg a = m.reg a := by
  simp only [M.budgetCheck]
  split
  · split
    · rw [M.reg_count, if_neg hc]
    · rw [M.reg_setReg, if_neg hp, M.reg_count, if_neg hc]
  · rfl

/-- An interval beyond BUDGET is counted, another one is not. -/
theorem M.budgetCheck_count (m : M) (i cyc : Nat) :
    (m.budgetCheck i cyc).reg FMN_SEQ_BUDGET_OVR_CNT =
      if (m.entry i).budget < cyc then satAdd (m.reg FMN_SEQ_BUDGET_OVR_CNT) 1 else m.reg FMN_SEQ_BUDGET_OVR_CNT := by
  have hne : FMN_SEQ_BUDGET_OVR_CNT ≠ FMN_SEQ_BUDGET_OVR_CAP := by decide
  simp only [M.budgetCheck]
  split
  · split
    · rw [M.reg_count, if_pos rfl]
    · rw [M.reg_setReg, if_neg hne, M.reg_count, if_pos rfl]
  · rfl

@[simp] theorem M.budgetCheck_step (m : M) (i cyc : Nat) : (m.budgetCheck i cyc).die.step = m.die.step := by
  simp only [M.budgetCheck]; repeat' split
  all_goals simp
@[simp] theorem M.budgetCheck_cores (m : M) (i cyc : Nat) : (m.budgetCheck i cyc).die.cores = m.die.cores := by
  simp only [M.budgetCheck]; repeat' split
  all_goals simp
@[simp] theorem M.budgetCheck_mem (m : M) (i cyc : Nat) : (m.budgetCheck i cyc).mem = m.mem := by
  simp only [M.budgetCheck]; repeat' split
  all_goals simp

@[simp] theorem M.showRunning_step (m : M) : m.showRunning.die.step = m.die.step := by
  simp only [M.showRunning]; split <;> rfl
@[simp] theorem M.showRunning_cores (m : M) : m.showRunning.die.cores = m.die.cores := by
  simp only [M.showRunning]; split <;> rfl
@[simp] theorem M.showRunning_mem (m : M) : m.showRunning.mem = m.mem := by
  simp only [M.showRunning]; split <;> rfl
theorem M.showRunning_reg (m : M) (a : Nat) (h : a ≠ FMN_SEQ_STATUS) : m.showRunning.reg a = m.reg a := by
  simp only [M.showRunning]; split <;> rw [M.reg_setFld, if_neg h]

/-- The step, with an entry of it released. -/
def Step.withReleased (i cycles : Nat) (s : Step) : Step :=
  { s with entries := mapSet s.entries i .released, cycles := max s.cycles cycles }

/-- An entry's end releases it, compares its interval with BUDGET, and leaves cores and memory. -/
theorem M.endEntry_effect (m : M) (i cyc : Nat) (t : Step) (ht : m.die.step = some t) :
    (m.endEntry i cyc).die.step = some (t.withReleased i (mapGetD t.started i 0 + cyc + t.heldCycles i)) ∧
      (m.endEntry i cyc).die.cores = m.die.cores ∧ (m.endEntry i cyc).mem = m.mem ∧
      (m.endEntry i cyc).reg FMN_SEQ_BUDGET_OVR_CNT =
        (m.budgetCheck i (cyc + t.heldCycles i)).reg FMN_SEQ_BUDGET_OVR_CNT := by
  have hs : FMN_SEQ_BUDGET_OVR_CNT ≠ FMN_SEQ_STATUS := by decide
  have hc : FMN_SEQ_BUDGET_OVR_CNT ≠ FMN_SEQ_LAST_STEP_CYCLES := by decide
  simp only [M.endEntry, ht, Option.map_some, Option.getD_some, M.showRunning_step, M.showRunning_cores, M.showRunning_mem,
    M.showRunning_reg _ _ hs]
  split
  · simp only [M.setReg_step, M.setReg_cores, M.setReg_mem, M.reg_setReg, if_neg hc]
    refine ⟨?_, ?_, ?_, rfl⟩ <;> simp [ht, Step.withReleased]
  · refine ⟨?_, ?_, ?_, rfl⟩ <;> simp [ht, Step.withReleased]

/-! ### Entries that wait for a fence -/

/-- A fence that no waiting entry names starts none. -/
theorem M.startWaiting_none (m : M) (f at_ : Nat)
    (h : ∀ t, m.die.step = some t → ∀ p ∈ t.entries, p.2 = .waiting → (m.entry p.1).startFence ≠ f) :
    m.startWaiting f at_ = m := by
  rw [M.startWaiting]
  cases ht : m.die.step with
  | none => rfl
  | some t =>
    have hnil : (t.entries.filter fun p => p.2 == .waiting && (m.entry p.1).startFence == f) = [] :=
      List.filter_eq_nil_iff.mpr fun p hp => by simpa using h t ht p hp
    simp only [hnil, List.foldl_nil]

/-- A step-table entry stands in memory. -/
theorem M.entry_congr {m n : M} (h : m.mem = n.mem) (i : Nat) : m.entry i = n.entry i := by
  simp only [M.entry, M.entryWord, M.readN, h]

theorem mem_mapSet {α : Type} (m : NMap α) (k : Nat) (v : α) (p : Nat × α) (h : p ∈ mapSet m k v) : p ∈ m ∨ p = (k, v) := by
  simp only [mapSet, List.mem_append, List.mem_cons, List.mem_filter] at h
  tauto

/-- An entry that still waits behind a release waited before it. -/
theorem Step.waiting_of_withReleased (i cycles : Nat) (t : Step) (p : Nat × EntryPhase)
    (hp : p ∈ (t.withReleased i cycles).entries) (hw : p.2 = .waiting) : p ∈ t.entries := by
  rcases mem_mapSet _ _ _ _ hp with h | h
  · exact h
  · rw [h] at hw; exact absurd hw nofun

/-! ### The release of a fence (R36, R251, R254) -/

/-- What holds a fence back: an emergency hold, a member that has not arrived, or a hold cycle of the group. -/
theorem M.fenceRelease_held (m : M) (x : Fence) (hx : m.die.fences.find? (fun y => y.id = x.id) = some x)
    (h : (∃ c ∈ m.members x.entry, c ∉ x.arrived) ∨ x.withheld = true ∨ ∃ c ∈ m.members x.entry, m.groupHeld c = true) :
    m.fenceRelease x.id = m := by
  have hheld : (x.withheld || !(m.members x.entry).all x.arrived.contains || (m.members x.entry).any m.groupHeld) = true := by
    rcases h with ⟨c, hc, ha⟩ | hw | ⟨c, hc, hg⟩
    · have hall : (m.members x.entry).all x.arrived.contains = false :=
        List.all_eq_false.mpr ⟨c, hc, by simpa using ha⟩
      simp [hall]
    · simp [hw]
    · have hany : (m.members x.entry).any m.groupHeld = true := List.any_eq_true.mpr ⟨c, hc, hg⟩
      simp [hany]
  rw [M.fenceRelease, hx]
  cases m.die.step with
  | none => rfl
  | some t => exact if_pos hheld

/-- The fence's own state taken from the fence unit. -/
def M.withoutFence (m : M) (f : Nat) : M := { m with die.fences := m.die.fences.filter fun y => y.id != f }

theorem M.NothingWaits.withoutFence (h : m.NothingWaits) (f : Nat) : (m.withoutFence f).NothingWaits := ⟨h.cores, h.sites⟩

/-- The members of a fence released. -/
def M.membersReleased (m : M) (x : Fence) (cyc : Nat) : M :=
  (m.withoutFence x.id).releaseMembers x.id cyc (m.members x.entry)

/-- The members of a fence released, and the entry ended where the fence is its END_FENCE (R254, R262). -/
def M.fencePassed (m : M) (x : Fence) (cyc : Nat) : M :=
  if (m.entry x.entry).endFence = x.id && (m.members x.entry).all fun c => (m.core c).endsAt x.id then
    (m.membersReleased x cyc).endEntry x.entry cyc
  else m.membersReleased x cyc

/-- A fence of the running step that nothing holds back and no waiting entry names. -/
structure M.FenceReady (m : M) (x : Fence) (t : Step) : Prop where
  waits : m.NothingWaits
  found : m.die.fences.find? (fun y => y.id = x.id) = some x
  step : m.die.step = some t
  idle : ∀ p ∈ t.entries, p.2 = .waiting → (m.entry p.1).startFence ≠ x.id
  free : x.withheld = false
  runs : ∀ c ∈ m.members x.entry, m.groupHeld c = false
  arrived : ∀ c ∈ m.members x.entry, c ∈ x.arrived

variable {x : Fence} {t : Step}

/-- It releases, and then the entries that wait for it start. -/
theorem M.FenceReady.fenceRelease_eq (h : m.FenceReady x t) {cyc : Nat} (hcyc : x.lastCycle + Config.fenceLatency = cyc) :
    m.fenceRelease x.id = (m.fencePassed x cyc).startWaiting x.id
      (mapGetD t.started x.entry 0 + cyc + (((m.fencePassed x cyc).die.step.map fun s => s.heldCycles x.entry).getD 0)) := by
  have hall : (m.members x.entry).all x.arrived.contains = true :=
    List.all_eq_true.mpr fun c hc => by simpa using h.arrived c hc
  have hany : (m.members x.entry).any m.groupHeld = false := List.any_eq_false.mpr fun c hc => by simp [h.runs c hc]
  simp only [M.fenceRelease, M.fencePassed, M.membersReleased, M.releaseMembers, M.withoutFence, h.found, h.step, h.free, hall,
    hany, hcyc, Bool.not_true, Bool.or_self, Bool.false_eq_true, if_false]

theorem M.FenceReady.releases (h : m.FenceReady x t) (cyc : Nat) :
    Releases (m.members x.entry) (m.withoutFence x.id) (m.membersReleased x cyc) :=
  (Releases.refl (h.waits.withoutFence x.id)).releaseMembers x.id cyc _ fun _ => id

theorem M.FenceReady.core (h : m.FenceReady x t) (cyc c : Nat) (hc : c ∈ m.members x.entry) :
    (m.membersReleased x cyc).core c = (m.core c).released (m.restSt c) x.id cyc :=
  M.core_releaseMembers _ _ _ _ (h.waits.withoutFence x.id) c hc

/-- Where some member goes on, the release is all that happens. -/
theorem M.FenceReady.passes (h : m.FenceReady x t) {cyc : Nat} (hcyc : x.lastCycle + Config.fenceLatency = cyc)
    (hgo : ∃ c ∈ m.members x.entry, (m.core c).endsAt x.id = false) : m.fenceRelease x.id = m.membersReleased x cyc := by
  obtain ⟨c, hc, hends⟩ := hgo
  have hall : ((m.members x.entry).all fun c => (m.core c).endsAt x.id) = false :=
    List.all_eq_false.mpr ⟨c, hc, by simp [hends]⟩
  have hpass : m.fencePassed x cyc = m.membersReleased x cyc := by
    rw [M.fencePassed, hall, Bool.and_false, if_neg Bool.false_ne_true]
  rw [h.fenceRelease_eq hcyc, hpass]
  refine M.startWaiting_none _ _ _ fun u hu p hp hwait => ?_
  have hut : t = u := Option.some.inj (h.step.symm.trans ((h.releases cyc).step.symm.trans hu))
  rw [M.entry_congr (h.releases cyc).mem]
  exact h.idle p (hut ▸ hp) hwait

/-- Where every member ends its part at the entry's END_FENCE, the entry ends. -/
theorem M.FenceReady.ends (h : m.FenceReady x t) {cyc : Nat} (hcyc : x.lastCycle + Config.fenceLatency = cyc)
    (hall : ∀ c ∈ m.members x.entry, (m.core c).endsAt x.id = true) (hend : (m.entry x.entry).endFence = x.id) :
    m.fenceRelease x.id = (m.membersReleased x cyc).endEntry x.entry cyc := by
  have hall' : ((m.members x.entry).all fun c => (m.core c).endsAt x.id) = true := List.all_eq_true.mpr hall
  have hpass : m.fencePassed x cyc = (m.membersReleased x cyc).endEntry x.entry cyc := by
    rw [M.fencePassed, hall', decide_eq_true hend, Bool.and_self, if_pos rfl]
  have hstep := (h.releases cyc).step.trans h.step
  obtain ⟨hy, -, hmem, -⟩ := (m.membersReleased x cyc).endEntry_effect x.entry cyc t hstep
  rw [h.fenceRelease_eq hcyc, hpass]
  refine M.startWaiting_none _ _ _ fun u hu p hp hwait => ?_
  rw [M.entry_congr (hmem.trans (h.releases cyc).mem)]
  rw [← Option.some.inj (hy.symm.trans hu)] at hp
  exact h.idle p (Step.waiting_of_withReleased _ _ t p hp hwait) hwait

/-- The interval that is compared with BUDGET: the release's cycle and the hold cycles of the group (log entry 82). -/
theorem M.FenceReady.budget (h : m.FenceReady x t) (cyc : Nat) :
    ((m.membersReleased x cyc).endEntry x.entry cyc).reg FMN_SEQ_BUDGET_OVR_CNT =
      if (m.entry x.entry).budget < cyc + t.heldCycles x.entry then satAdd (m.reg FMN_SEQ_BUDGET_OVR_CNT) 1
      else m.reg FMN_SEQ_BUDGET_OVR_CNT := by
  have hne : FMN_SEQ_BUDGET_OVR_CNT ∉ (m.members x.entry).map fenceWaitReg := by
    intro hm
    obtain ⟨c, -, hc⟩ := List.mem_map.mp hm
    simp only [fenceWaitReg, coreReg, coreBase, FMN_SEQ_BUDGET_OVR_CNT, CORE_FENCE_WAIT_CYCLE_CNT] at hc
    omega
  have hreg : (m.membersReleased x cyc).reg FMN_SEQ_BUDGET_OVR_CNT = m.reg FMN_SEQ_BUDGET_OVR_CNT :=
    (h.releases cyc).regs _ hne
  obtain ⟨-, -, -, hcount⟩ := (m.membersReleased x cyc).endEntry_effect x.entry cyc t ((h.releases cyc).step.trans h.step)
  rw [hcount, M.budgetCheck_count, hreg, M.entry_congr (h.releases cyc).mem]
  rfl

end Sys2Proof.Machine

namespace Sys2Proof
open Machine

/-- Settles O32: arrivals by the fence unit's rule, and a release by whether its members go on or end their entry. -/
theorem fencesRelease : Obligations.FencesRelease := by
  unfold Obligations.FencesRelease
  intro s hl hq v
  have hwaits : v.NothingWaits := M.nothingWaits_of_noneWaits v hq
  have hdrained (c : Nat) : runs (.fenceArrivalDrained c) s (v.arrivalDrained c) := onLive_eq (M.arrivalDrained · c) s hl
  have hrelease (f : Nat) : runs (.fenceRelease f) s (v.fenceRelease f) := onLive_eq (M.fenceRelease · f) s hl
  refine ⟨fun c a e hst hd ha he ho hentry hmem hf => ?_, fun c hd => ?_, fun x t members cyc hx ht hmembers hcyc hidle => ?_⟩
  · refine ⟨_, hdrained c, ?_⟩
    rw [v.arrivalDrained_first c a e hst hd ha he ho hentry hmem hf]
    exact ⟨v.arrivalsEffective_arrival c a ha, rfl, rfl, rfl⟩
  · have h := hdrained c
    rwa [M.arrivalDrained_notDrained v c hd] at h
  · subst hmembers
    refine ⟨fun hheld => ?_, fun hw hne hg ha => ?_, fun hw _ hg ha hend => ?_⟩
    · have h := hrelease x.id
      rwa [v.fenceRelease_held x hx hheld] at h
    · have hready : v.FenceReady x t := ⟨hwaits, hx, ht, hidle, hw, hg, fun c hc => (ha c hc).1⟩
      obtain ⟨c, hc⟩ := List.exists_mem_of_ne_nil _ hne
      have hrel := hready.releases cyc
      refine ⟨_, hrelease x.id, ?_⟩
      rw [hready.passes hcyc ⟨c, hc, (ha c hc).2⟩]
      refine ⟨hrel.fences, fun c hc => ?_, hrel.cores, hrel.step, hrel.regs, hrel.mem⟩
      rw [hready.core cyc c hc, Core.released, (ha c hc).2, if_neg Bool.false_ne_true]
    · have hready : v.FenceReady x t := ⟨hwaits, hx, ht, hidle, hw, hg, fun c hc => (ha c hc).1⟩
      have hrel := hready.releases cyc
      obtain ⟨hstep, hcores, hmem, -⟩ := (v.membersReleased x cyc).endEntry_effect x.entry cyc t (hrel.step.trans ht)
      refine ⟨_, t.withReleased x.entry (mapGetD t.started x.entry 0 + cyc + t.heldCycles x.entry), hrelease x.id, ?_⟩
      rw [hready.ends hcyc (fun c hc => (ha c hc).2) hend]
      refine ⟨hstep, mapGet_mapSet_same _ _ _, fun c hc => ?_, hmem.trans hrel.mem, fun hlt => ?_, fun hle => ?_⟩
      · rw [M.core, hcores, ← M.core, hready.core cyc c hc, Core.released, if_pos (ha c hc).2]
        exact ⟨rfl, rfl⟩
      · rw [M.regN, hready.budget, if_pos hlt, satAdd_toNat, M.regN]
      · rw [hready.budget, if_neg (not_lt.mpr hle)]

end Sys2Proof

/-! ## Core spares and row repairs (R43, R219, R508 to R510, R512, R513, R515) -/

namespace Sys2Proof.Machine

/-! ### What the table-load entry leaves alone (R506, R508) -/

/-- A register that neither a core's memories nor the Foreman's errors and sequencer write. -/
structure OutsideTables (a : Nat) : Prop where
  core : ∀ d off, off < 0x1000000 → a ≠ coreReg d off
  errors : a < FMN_ERR_FIRST0 ∨ FMN_ERR_CLASS_CNT + 8 * 16 ≤ a
  sequencer : a ≠ FMN_SEQ_STATUS

theorem outsideTables_cluReg (site off : Nat) (hs : site < 136) (ho : off < 0x1000000) : OutsideTables (cluReg site off) where
  core d off' h := by simp only [cluReg, coreReg, coreBase]; omega
  errors := by simp only [cluReg, FMN_ERR_FIRST0]; omega
  sequencer := by simp only [cluReg, FMN_SEQ_STATUS]; omega

theorem outsideTables_spareCount : OutsideTables FMN_CORE_SPARE_CNT where
  core d off h := by simp only [coreReg, coreBase, FMN_CORE_SPARE_CNT]; omega
  errors := by decide
  sequencer := by decide

/-- The work of a table-load entry on other cores: a RETIRED core stays so, and registers outside keep their values. -/
structure M.TableWork (c : Nat) (v m : M) : Prop where
  retired : (m.core c).st = .retired
  regs : ∀ a, OutsideTables a → m.reg a = v.reg a

variable {c : Nat} {v m : M}

theorem M.TableWork.setReg (h : TableWork c v m) (a : Nat) (w : Word) (ha : ¬ OutsideTables a) :
    TableWork c v (m.setReg a w) where
  retired := h.retired
  regs b hb := by
    have hne : b ≠ a := fun e => ha (e ▸ hb)
    rw [M.reg_setReg, if_neg hne, h.regs b hb]

/-- The rest of the state has no part in it. -/
theorem M.TableWork.congr {n : M} (h : TableWork c v m) (hc : n.die.cores = m.die.cores) (hr : n.die.regs = m.die.regs) :
    TableWork c v n where
  retired := by rw [M.core, hc, ← M.core, h.retired]
  regs a ha := by rw [M.reg_congr hr, h.regs a ha]

theorem M.TableWork.setFld (h : TableWork c v m) (a hi lo x : Nat) (ha : ¬ OutsideTables a) :
    TableWork c v (m.setFld a hi lo x) := h.setReg a _ ha

theorem M.TableWork.count (h : TableWork c v m) (a : Nat) (ha : ¬ OutsideTables a) : TableWork c v (m.count a) := by
  rw [M.count, M.countBy, if_neg Nat.one_ne_zero]
  exact h.setReg a _ ha

theorem M.TableWork.updCore (h : TableWork c v m) (d : Nat) (f : Core → Core) (hf : d = c → (f (m.core c)).st = .retired) :
    TableWork c v (m.updCore d f) where
  retired := by
    by_cases hd : c = d
    · rw [← hd, M.core_updCore_same]; exact hf hd.symm
    · rw [M.core_updCore_ne _ _ _ _ hd, h.retired]
  regs := h.regs

theorem M.TableWork.foldl {β : Type} {l : List β} {f : M → β → M} (h : TableWork c v m)
    (hf : ∀ n b, TableWork c v n → TableWork c v (f n b)) : TableWork c v (l.foldl f m) :=
  List.foldlRecOn l f h fun n hn b _ => hf n b hn

theorem not_outside_coreReg (d off : Nat) (h : off < 0x1000000) : ¬ OutsideTables (coreReg d off) := fun ho =>
  ho.core d off h rfl

theorem not_outside_error (a : Nat) (h : FMN_ERR_FIRST0 ≤ a) (h' : a < FMN_ERR_CLASS_CNT + 8 * 16) : ¬ OutsideTables a :=
  fun ho => ho.errors.elim (fun hlt => absurd h (not_le.mpr hlt)) fun hle => absurd h' (not_lt.mpr hle)

theorem M.TableWork.errorClass (h : TableWork c v m) (cls block inst detail : Nat) (hc : cls < 16) :
    TableWork c v (m.errorClass cls block inst detail) := by
  have hcls : ¬ OutsideTables (FMN_ERR_CLASS_CNT + 8 * cls) :=
    not_outside_error _ (by simp only [FMN_ERR_FIRST0, FMN_ERR_CLASS_CNT]; omega) (by omega)
  have hx := h.count _ hcls
  unfold M.errorClass
  dsimp only
  split
  · exact ((hx.setReg _ _ (not_outside_error _ (by decide) (by decide))).setReg _ _
      (not_outside_error _ (by decide) (by decide))).setReg _ _ (not_outside_error _ (by decide) (by decide))
  · exact hx

/-- A parameter register's codeword: its errors are counted and captured in its core's registers. -/
theorem M.TableWork.captureEcc (h : TableWork c v m) (ue : Bool) (d off source bit0 bit1 mask : Nat) :
    TableWork c v (m.captureEcc ue d 5 off source bit0 bit1 mask) := by
  have h0 : ¬ OutsideTables (eccCapture ue d 5) := by cases ue <;> exact not_outside_coreReg _ _ (by decide)
  have h8 : ¬ OutsideTables (eccCapture ue d 5 + 8) := by
    cases ue <;> exact fun ho => ho.core d _ (by decide : _ + 8 < _) (Nat.add_assoc _ _ _)
  simp only [M.captureEcc]
  split
  · exact h
  · exact (h.setReg _ _ h0).setReg _ _ h8

theorem M.TableWork.queueWriteBack (h : TableWork c v m) (d off : Nat) : TableWork c v (m.queueWriteBack d 5 off) := by
  simp only [M.queueWriteBack, if_neg (show ¬ 5 = 7 by decide)]
  split
  · exact h.count _ (not_outside_coreReg _ _ (by decide))
  · exact h.updCore d _ fun _ => h.retired

theorem ueClass_lt (mem : Nat) (b : Bool) : ueClass mem b < 16 := by
  simp only [ueClass]; repeat' split
  all_goals decide

theorem M.TableWork.eccAct (h : TableWork c v m) (d off source mask : Nat) : TableWork c v (m.eccAct d 5 off source mask) := by
  have hcount (ue : Bool) : TableWork c v (m.count (eccCounter ue d 5)) :=
    h.count _ (by cases ue <;> exact not_outside_coreReg _ _ (by decide))
  simp only [M.eccAct]
  split
  · exact h
  · exact h
  · rename_i b0 b1 _ _
    have hx := ((hcount false).errorClass 1 (eccBlock 5) (eccInstance d 5) off (by decide)).captureEcc false d off
      source b0 b1 mask
    simp only [M.correctable]
    split
    · exact hx
    · exact hx.queueWriteBack d off
  · have hx := ((hcount true).captureEcc true d off source 0xFF 0xFF mask).errorClass (ueClass 5 (m.unitInUse d 5)) (eccBlock 5)
      (eccInstance d 5) off (ueClass_lt _ _)
    simp only [M.uncorrectable]
    split <;> exact hx.congr rfl rfl

theorem M.TableWork.readMem (h : TableWork c v m) (d off n source : Nat) : TableWork c v (m.readMem d 5 off n source).2 := by
  simp only [M.readMem]
  split
  · exact h
  · exact h.foldl fun _ _ hn => hn.eccAct _ _ _ _

theorem M.TableWork.mergeCodeword (h : TableWork c v m) (d a n : Nat) (p : Nat × Nat) :
    TableWork c v (m.mergeCodeword d 5 a n p) := by
  simp only [M.mergeCodeword]
  split
  · exact h.congr rfl rfl
  · exact (h.eccAct d (p.1 - memAddr d 5 0) 3 p.2).congr rfl rfl

theorem M.TableWork.inject (h : TableWork c v m) (d off : Nat) : TableWork c v (m.inject d 5 off) := by
  simp only [M.inject]
  split
  · exact (h.setFld (injectReg d 5) 0 0 0 (not_outside_coreReg _ _ (by decide))).congr rfl rfl
  · exact h

theorem M.TableWork.setParam (h : TableWork c v m) (d i x : Nat) : TableWork c v (m.setParam d i x) := by
  simp only [M.setParam, M.writeMem, if_neg (show ¬ 5 = 0 by decide)]
  split
  · exact h
  · have hx : TableWork c v ((m.flipsIn 5 (memAddr d 5 (8 * i)) (toBytes 8 x).length).foldl
        (fun m p => m.mergeCodeword d 5 (memAddr d 5 (8 * i)) (toBytes 8 x).length p) m) :=
      h.foldl fun _ _ hn => hn.mergeCodeword _ _ _ _
    refine M.TableWork.inject ?_ d _
    exact hx.congr rfl rfl

theorem M.TableWork.applyPatches (h : TableWork c v m) (e : TableEntry) : TableWork c v (m.applyPatches e) := by
  refine h.foldl fun n k hn => ?_
  simp only [M.applyPatch]
  split
  · refine hn.foldl fun n i hn => ?_
    split
    · exact hn.setParam _ _ _
    · exact hn
  · exact hn

/-- Only an IDLE core starts, which the RETIRED one is not (R641). -/
theorem M.TableWork.startCore (h : TableWork c v m) (d entry pc : Nat) : TableWork c v (m.startCore d entry pc) := by
  simp only [M.startCore]
  split
  case isTrue hidle =>
    have hne : d ≠ c := fun e => by
      rw [e, h.retired] at hidle
      exact absurd hidle nofun
    have hb := h.updCore d (Core.begin entry pc) fun e => absurd e hne
    have hr : TableWork c v ((m.updCore d (Core.begin entry pc)).readParams d 0 1).2 := hb.readMem _ _ _ _
    exact hr.setReg _ _ (not_outside_coreReg _ _ (by decide))
  case isFalse => exact h

theorem M.TableWork.startEntry (h : TableWork c v m) (at_ i : Nat) : TableWork c v (m.startEntry at_ i) := by
  have hx : TableWork c v ((m.members i).foldl (fun n d => n.startCore d i (m.entry i).pc) m) :=
    h.foldl fun _ _ hn => hn.startCore _ _ _
  have hseq : ¬ OutsideTables FMN_SEQ_STATUS := fun ho => ho.sequencer rfl
  have hy : ∀ n, TableWork c v n → TableWork c v n.showRunning := fun n hn => by
    simp only [M.showRunning]
    split <;> exact hn.setFld _ _ _ _ hseq
  exact hy _ (hx.congr rfl rfl)

/-- With no load that waits for it, the run of the table-load entry leaves RETIRED cores and registers outside alone. -/
theorem M.TableWork.startTables (h : TableWork c v m) (hl : m.die.fmn.tableLoad = none) : TableWork c v m.startTables := by
  have hdone : m.tablesDone = m := by rw [M.tablesDone, hl]
  have hseq : ¬ OutsideTables FMN_SEQ_STATUS := fun ho => ho.sequencer rfl
  simp only [M.startTables]
  split
  · exact h
  · split
    · rename_i x _ _ _
      have hp := h.applyPatches (m.entry (Config.tableLoadEntry (ofBytes x.programDigest)).val)
      refine M.TableWork.startEntry (M.TableWork.setFld ?_ _ _ _ _ hseq) _ _
      exact hp.congr rfl rfl
    · rw [hdone]; exact h

/-- Without a waiting core, and without a model, no table-load entry runs. -/
theorem M.startTables_none (m : M) (hl : m.die.fmn.tableLoad = none)
    (h : m.die.fmn.tableCores = [] ∨ m.die.fmn.models = []) : m.startTables = m := by
  have hdone : m.tablesDone = m := by rw [M.tablesDone, hl]
  simp only [M.startTables]
  split
  · rfl
  · rcases h with h | h
    · simp only [h, List.filter_nil]; exact hdone
    · split
      · rename_i hm; rw [h] at hm; exact absurd hm nofun
      · exact hdone

end Sys2Proof.Machine

namespace Sys2Proof.Machine

/-! ### UNIT commands that wait -/

/-- With no UNIT command that waits, the end of a transition answers none. -/
theorem M.unitDone_none (m : M) (n code : Nat) (h : m.die.fmn.unitWaits = []) : m.unitDone n code = m := by
  simp only [M.unitDone, M.unitEnd, h, List.filter_nil, List.foldl_nil]
  rw [← h]

/-! ### The record of a repair (R507) -/

/-- A field-repair record touches Headframe's state alone: no register changes. -/
@[simp] theorem M.recordRepair_regs (m : M) (r : FieldRepair) : (m.recordRepair r).die.regs = m.die.regs := by
  simp only [M.recordRepair, M.flash, flashRank]
  split
  · rfl
  · simp [M.updHdf]

@[simp] theorem M.recordRepair_mem (m : M) (r : FieldRepair) : (m.recordRepair r).mem = m.mem := M.flash_mem _ _
@[simp] theorem M.recordRepair_cores (m : M) (r : FieldRepair) : (m.recordRepair r).die.cores = m.die.cores := M.flash_cores _ _
@[simp] theorem M.recordRepair_sites (m : M) (r : FieldRepair) : (m.recordRepair r).die.sites = m.die.sites := M.flash_sites _ _

/-! ### Registers of a site (Table 13.12) -/

theorem cluReg_ne (site off off' : Nat) (h : off ≠ off') : cluReg site off ≠ cluReg site off' := by
  simp only [cluReg]; omega

/-- A core is its site's physical core. -/
theorem siteCore_eq (c : Nat) : 17 * (c / 17) + c % 17 = c := Nat.div_add_mod c 17

/-- The virtual core map stands in two registers. -/
theorem M.physical_congr {m n : M} (site : Nat) (h : m.reg (cluReg site CLU_VCORE_MAP) = n.reg (cluReg site CLU_VCORE_MAP))
    (h' : m.reg (cluReg site CLU_VCORE_MAP_HI) = n.reg (cluReg site CLU_VCORE_MAP_HI)) (v : Nat) :
    m.physical site v = n.physical site v := by
  simp only [M.physical, M.fld, h, h']

/-- The registers of a site's map and spares, as two states agree on them. -/
structure M.SameSpares (site : Nat) (v m : M) : Prop where
  status : m.reg (cluReg site CLU_SPARE_STATUS) = v.reg (cluReg site CLU_SPARE_STATUS)
  map : m.reg (cluReg site CLU_VCORE_MAP) = v.reg (cluReg site CLU_VCORE_MAP)
  mapHi : m.reg (cluReg site CLU_VCORE_MAP_HI) = v.reg (cluReg site CLU_VCORE_MAP_HI)
  count : m.reg FMN_CORE_SPARE_CNT = v.reg FMN_CORE_SPARE_CNT

variable {site : Nat} {v m n : M}

theorem M.SameSpares.fld (h : SameSpares site v m) (hi lo : Nat) :
    m.fld (cluReg site CLU_SPARE_STATUS) hi lo = v.fld (cluReg site CLU_SPARE_STATUS) hi lo := by
  rw [M.fld, h.status, ← M.fld]

theorem M.SameSpares.flag (h : SameSpares site v m) (i : Nat) :
    m.flag (cluReg site CLU_SPARE_STATUS) i = v.flag (cluReg site CLU_SPARE_STATUS) i := by
  rw [M.flag, h.status, ← M.flag]

theorem M.SameSpares.physical (h : SameSpares site v m) (i : Nat) : m.physical site i = v.physical site i :=
  M.physical_congr site h.map h.mapHi i

theorem M.SameSpares.regN (h : SameSpares site v m) : m.regN FMN_CORE_SPARE_CNT = v.regN FMN_CORE_SPARE_CNT := by
  rw [M.regN, h.count, ← M.regN]

theorem M.SameSpares.virtualOf (h : SameSpares site v m) (p : Nat) (hp : p < 17) :
    m.virtualOf (17 * site + p) = v.virtualOf (17 * site + p) := by
  have hs : (17 * site + p) / 17 = site := by omega
  simp only [M.virtualOf, hs, h.physical]

theorem M.SameSpares.trans {u : M} (h : SameSpares site u v) (h' : SameSpares site v m) : SameSpares site u m :=
  ⟨h'.status.trans h.status, h'.map.trans h.map, h'.mapHi.trans h.mapHi, h'.count.trans h.count⟩

theorem M.sameSpares_updSite (m : M) (site t : Nat) (f : Site → Site) : SameSpares site m (m.updSite t f) :=
  ⟨rfl, rfl, rfl, rfl⟩

/-- The command register of the spares is none of them. -/
theorem M.sameSpares_setCommand (m : M) (site hi lo x : Nat) (hs : site < 136) :
    SameSpares site m (m.setFld (cluReg site CLU_SPARE_CMD) hi lo x) where
  status := by rw [M.reg_setFld, if_neg (cluReg_ne _ _ _ (by decide))]
  map := by rw [M.reg_setFld, if_neg (cluReg_ne _ _ _ (by decide))]
  mapHi := by rw [M.reg_setFld, if_neg (cluReg_ne _ _ _ (by decide))]
  count := by
    have hne : FMN_CORE_SPARE_CNT ≠ cluReg site CLU_SPARE_CMD := by
      simp only [FMN_CORE_SPARE_CNT, cluReg, CLU_SPARE_CMD]; omega
    rw [M.reg_setFld, if_neg hne]

/-! ### A write of CLU_SPARE_CMD (R509, R514) -/

/-- A transition asked for and pending. -/
def M.spareAsked (m : M) (site op p : Nat) : M :=
  (((m.setFld (cluReg site CLU_SPARE_CMD) 9 8 op).setFld (cluReg site CLU_SPARE_CMD) 4 0 p).updSite site fun s =>
    { s with sparePending := some (op, p) }).setFld (cluReg site CLU_SPARE_CMD) 63 63 1

theorem M.sameSpares_spareAsked (m : M) (site op p : Nat) (hs : site < 136) : SameSpares site m (m.spareAsked site op p) :=
  (((m.sameSpares_setCommand site 9 8 op hs).trans (M.sameSpares_setCommand _ site 4 0 p hs)).trans
    (M.sameSpares_updSite _ site site _)).trans (M.sameSpares_setCommand _ site 63 63 1 hs)

theorem M.spareAsked_site (m : M) (site op p : Nat) :
    (m.spareAsked site op p).site site = { m.site site with sparePending := some (op, p) } := by
  rw [M.spareAsked, M.site, M.setFld_sites, ← M.site, M.site_updSite_same]
  rfl

theorem M.spareCommand_eq (m : M) (site op p : Nat) (hop : op = 1 ∨ op = 2) (hp : p < 17)
    (hpend : (m.site site).sparePending = none) :
    m.spareCommand site op p =
      if m.inStep then m.spareAsked site op p else ((m.spareAsked site op p).runSpare site).startTables := by
  have hvalid : ¬ ((op ≠ 1 ∧ op ≠ 2) ∨ 16 < p) := by omega
  have hnone : ((((m.setFld (cluReg site CLU_SPARE_CMD) 9 8 op).setFld (cluReg site CLU_SPARE_CMD) 4 0 p)).site
      site).sparePending.isSome = false := congrArg Option.isSome hpend
  simp only [M.spareCommand, if_neg hvalid, hnone, Bool.false_eq_true, if_false]
  rfl

/-- The pending transition over: its mark in the command register goes. -/
def M.spareOver (m : M) (site : Nat) : M :=
  (m.updSite site fun s => { s with sparePending := none }).setFld (cluReg site CLU_SPARE_CMD) 63 63 0

theorem M.sameSpares_spareOver (m : M) (site : Nat) (hs : site < 136) : SameSpares site m (m.spareOver site) :=
  (M.sameSpares_updSite _ site site _).trans (M.sameSpares_setCommand _ site 63 63 0 hs)

theorem M.spareOver_flag (m : M) (site : Nat) : (m.spareOver site).flag (cluReg site CLU_SPARE_CMD) 63 = false := by
  simp [M.spareOver, M.flag_setFld]

/-- A pending transition alone is carried out. -/
theorem M.runSpare_single (m : M) (site op p : Nat) (n : M) (hpend : (m.site site).sparePending = some (op, p))
    (hn : (m.spareOp site op p).2 = n) (hsites : n.die.sites = m.die.sites) (hwaits : n.die.fmn.unitWaits = [])
    (hlatch : (m.site site).spareLatched = none) : m.runSpare site = n.spareOver site := by
  have hl : ((n.updSite site fun s => { s with sparePending := none }).site site).spareLatched = none := by
    rw [M.site_updSite_same, M.site, hsites, ← M.site]; exact hlatch
  have hu : (n.updSite site fun s => { s with sparePending := none }).unitDone (fnSpare site) (m.spareOp site op p).1 =
      n.updSite site fun s => { s with sparePending := none } := M.unitDone_none _ _ _ hwaits
  simp only [M.runSpare, hpend, hn, hu, hl]
  rfl

/-! ### A retirement (R508, R509) -/

theorem M.retireCore_noSpare (m : M) (site p : Nat) (h : m.siteSpareCore site = 0x1F) :
    m.retireCore site p = m.spareResult site 2 := by
  simp only [M.retireCore, if_pos h]

theorem M.retireCore_again (m : M) (site p : Nat) (h : m.siteSpareCore site ≠ 0x1F) (hr : m.isRetired site p = true) :
    m.retireCore site p = m.spareResult site 1 := by
  simp only [M.retireCore, if_neg h, if_pos hr]

/-- The virtual core of a retiring core, moved to the spare, which then waits for the table-load entry. -/
def M.vcoreMoved (m : M) (site p : Nat) : M :=
  if m.virtualOf (17 * site + p) < 16 then
    ((m.setVcore site (m.virtualOf (17 * site + p)) (m.siteSpareCore site)).count FMN_CORE_SPARE_CNT).waitTables
      (17 * site + m.siteSpareCore site)
  else m

/-- STATUS of a site's spares: whether core `p` is RETIRED, the spare, and the result (Table 13.12). -/
def M.setSpareStatus (m : M) (site p x q r : Nat) : M :=
  ((m.setFld (cluReg site CLU_SPARE_STATUS) (9 + p) (9 + p) x).setFld (cluReg site CLU_SPARE_STATUS) 8 4 q).spareResult site r

theorem M.setSpareStatus_fields (m : M) (site p x q r : Nat) (hp : p < 17) (hq : q < 32) (hr : r < 16) :
    (m.setSpareStatus site p x q r).fld (cluReg site CLU_SPARE_STATUS) 8 4 = q ∧
      (m.setSpareStatus site p x q r).fld (cluReg site CLU_SPARE_STATUS) 3 0 = r ∧
      (m.setSpareStatus site p x q r).flag (cluReg site CLU_SPARE_STATUS) (9 + p) = x.testBit 0 := by
  have h4 : ¬ 9 + p ≤ 8 := by omega
  have h0 : ¬ 9 + p ≤ 3 := by omega
  refine ⟨?_, ?_, ?_⟩
  · rw [M.setSpareStatus, M.spareResult, M.fld_setFld _ _ _ _ _ _ _ _ (by decide) (by decide) (by decide) (by decide),
      if_pos rfl, if_neg (by decide)]
    exact (M.fld_setFld_same _ _ _ _ _ (by decide) (by decide)).trans (Nat.mod_eq_of_lt hq)
  · exact (M.fld_setFld_same _ _ _ _ _ (by decide) (by decide)).trans (Nat.mod_eq_of_lt hr)
  · simp [M.setSpareStatus, M.spareResult, M.flag_setFld, show 9 + p < 64 by omega, h4, h0]

theorem M.setSpareStatus_reg (m : M) (site p x q r a : Nat) (h : a ≠ cluReg site CLU_SPARE_STATUS) :
    (m.setSpareStatus site p x q r).reg a = m.reg a := by
  simp only [M.setSpareStatus, M.spareResult, M.reg_setFld, if_neg h]

/-- Core `p` retires (R508). -/
theorem M.retireCore_retires (m : M) (site p : Nat) (h : m.siteSpareCore site ≠ 0x1F) (hr : m.isRetired site p = false) :
    m.retireCore site p =
      (((m.vcoreMoved site p).setSpareStatus site p 1 0x1F 1).updCore (17 * site + p) (Core.stopped .retired)).recordRepair
        { kind := repairCore, site, core := p, memory := m.siteSpareCore site, bank := 0, row := 0 } := by
  simp only [M.retireCore, if_neg h, hr, Bool.false_eq_true, if_false]
  rfl

@[simp] theorem M.waitTables_regs (m : M) (c : Nat) : (m.waitTables c).die.regs = m.die.regs := by
  simp only [M.waitTables]; split <;> rfl

theorem M.physical_setVcore (m : M) (site v q : Nat) (hv : v < 16) (hq : q < 32) :
    (m.setVcore site v q).physical site v = q := by
  have hw : 5 * v + 4 + 1 - 5 * v = 5 := by omega
  have hw' : 5 * (v - 12) + 4 + 1 - 5 * (v - 12) = 5 := by omega
  by_cases h : v < 12
  · simp only [M.physical, M.setVcore, if_pos h]
    rw [M.fld_setFld_same _ _ _ _ _ (by omega) (by omega), hw]
    exact Nat.mod_eq_of_lt hq
  · simp only [M.physical, M.setVcore, if_neg h]
    rw [M.fld_setFld_same _ _ _ _ _ (by omega) (by omega), hw']
    exact Nat.mod_eq_of_lt hq

theorem M.setVcore_reg (m : M) (site v q a : Nat) (h : a ≠ cluReg site CLU_VCORE_MAP) (h' : a ≠ cluReg site CLU_VCORE_MAP_HI) :
    (m.setVcore site v q).reg a = m.reg a := by
  simp only [M.setVcore]
  split
  · rw [M.reg_setFld, if_neg h]
  · rw [M.reg_setFld, if_neg h']

theorem spareCount_ne_cluReg (site off : Nat) (ho : off < 0x1000000) :
    FMN_CORE_SPARE_CNT ≠ cluReg site off := by
  simp only [FMN_CORE_SPARE_CNT, cluReg]; omega

theorem M.siteSpareCore_lt (m : M) (site : Nat) : m.siteSpareCore site < 32 := M.fld_lt _ _ _ _

/-- The map reads the spare where it read the core, and one retirement is counted. -/
theorem M.vcoreMoved_moves (m : M) (site p : Nat) (hv : m.virtualOf (17 * site + p) < 16) :
    (m.vcoreMoved site p).physical site (m.virtualOf (17 * site + p)) = m.siteSpareCore site ∧
      (m.vcoreMoved site p).regN FMN_CORE_SPARE_CNT = min (m.regN FMN_CORE_SPARE_CNT + 1) counterMax := by
  have hmap := spareCount_ne_cluReg site CLU_VCORE_MAP (by decide)
  have hhi := spareCount_ne_cluReg site CLU_VCORE_MAP_HI (by decide)
  rw [M.vcoreMoved, if_pos hv]
  refine ⟨?_, ?_⟩
  · refine Eq.trans (M.physical_congr site ?_ ?_ _) (m.physical_setVcore site _ _ hv (m.siteSpareCore_lt site))
    · rw [M.reg_congr (M.waitTables_regs _ _), M.reg_count, if_neg hmap.symm]
    · rw [M.reg_congr (M.waitTables_regs _ _), M.reg_count, if_neg hhi.symm]
  · rw [M.regN, M.reg_congr (M.waitTables_regs _ _), ← M.regN, M.regN_count, M.regN, M.setVcore_reg _ _ _ _ _ hmap hhi, M.regN]

@[simp] theorem M.setVcore_mem (m : M) (site v q : Nat) : (m.setVcore site v q).mem = m.mem := by
  simp only [M.setVcore]; split <;> rfl
@[simp] theorem M.setVcore_sites (m : M) (site v q : Nat) : (m.setVcore site v q).die.sites = m.die.sites := by
  simp only [M.setVcore]; split <;> rfl
@[simp] theorem M.setVcore_fmn (m : M) (site v q : Nat) : (m.setVcore site v q).die.fmn = m.die.fmn := by
  simp only [M.setVcore]; split <;> rfl

@[simp] theorem M.waitTables_mem (m : M) (c : Nat) : (m.waitTables c).mem = m.mem := by
  simp only [M.waitTables]; split <;> rfl
@[simp] theorem M.waitTables_sites (m : M) (c : Nat) : (m.waitTables c).die.sites = m.die.sites := by
  simp only [M.waitTables]; split <;> rfl
@[simp] theorem M.waitTables_unitWaits (m : M) (c : Nat) : (m.waitTables c).die.fmn.unitWaits = m.die.fmn.unitWaits := by
  simp only [M.waitTables]; split <;> rfl
@[simp] theorem M.waitTables_tableLoad (m : M) (c : Nat) : (m.waitTables c).die.fmn.tableLoad = m.die.fmn.tableLoad := by
  simp only [M.waitTables]; split <;> rfl
@[simp] theorem M.waitTables_models (m : M) (c : Nat) : (m.waitTables c).die.fmn.models = m.die.fmn.models := by
  simp only [M.waitTables]; split <;> rfl

/-- Moving a virtual core leaves memory, the sites, and of the Foreman's state all but the cores that wait. -/
theorem M.vcoreMoved_keeps (m : M) (site p : Nat) :
    (m.vcoreMoved site p).mem = m.mem ∧ (m.vcoreMoved site p).die.sites = m.die.sites ∧
      (m.vcoreMoved site p).die.fmn.unitWaits = m.die.fmn.unitWaits ∧
      (m.vcoreMoved site p).die.fmn.tableLoad = m.die.fmn.tableLoad ∧
      (m.vcoreMoved site p).die.fmn.models = m.die.fmn.models := by
  rw [M.vcoreMoved]
  split
  · refine ⟨?_, ?_, ?_, ?_, ?_⟩
    · rw [M.waitTables_mem, M.count_mem, M.setVcore_mem]
    · rw [M.waitTables_sites, M.count_sites, M.setVcore_sites]
    · rw [M.waitTables_unitWaits, M.count_fmn, M.setVcore_fmn]
    · rw [M.waitTables_tableLoad, M.count_fmn, M.setVcore_fmn]
    · rw [M.waitTables_models, M.count_fmn, M.setVcore_fmn]
  · exact ⟨rfl, rfl, rfl, rfl, rfl⟩

/-! ### A return (R44, R510) -/

theorem M.returnCore_refused (m : M) (site p : Nat) (h : m.isRetired site p = false) :
    m.returnCore site p = m.spareResult site 4 := by
  simp [M.returnCore, h]

/-- Core `p` comes back as the spare. -/
theorem M.returnCore_returns (m : M) (site p : Nat) (h : m.siteSpareCore site = 0x1F) (hr : m.isRetired site p = true) :
    m.returnCore site p = (m.setSpareStatus site p 0 p 1).updCore (17 * site + p)
      (Core.stopped ((m.setSpareStatus site p 0 p 1).restSt (17 * site + p))) := by
  simp only [M.returnCore, hr, h, Bool.not_true, Bool.false_eq_true, ne_eq, not_true_eq_false, if_false]
  rfl

/-- The site's registers have no part in a core's HALT. -/
theorem M.restSt_congr {m n : M} (c : Nat) (h : m.reg (coreReg c CORE_CTRL) = n.reg (coreReg c CORE_CTRL)) :
    m.restSt c = n.restSt c := by
  rw [M.restSt, M.restSt, M.flag, M.flag, h]

theorem coreReg_ne_cluReg (c site off off' : Nat) (ho : off < 0x1000000) (ho' : off' < 0x1000000) :
    coreReg c off ≠ cluReg site off' := by
  simp only [coreReg, coreBase, cluReg]; omega

theorem M.spareResult_fields (m : M) (site r : Nat) (hr : r < 16) :
    (m.spareResult site r).fld (cluReg site CLU_SPARE_STATUS) 3 0 = r ∧
      (m.spareResult site r).fld (cluReg site CLU_SPARE_STATUS) 8 4 = m.fld (cluReg site CLU_SPARE_STATUS) 8 4 := by
  refine ⟨(M.fld_setFld_same _ _ _ _ _ (by decide) (by decide)).trans (Nat.mod_eq_of_lt hr), ?_⟩
  rw [M.spareResult, M.fld_setFld _ _ _ _ _ _ _ _ (by decide) (by decide) (by decide) (by decide), if_pos rfl, if_neg (by decide)]

/-! ### A transition between steps -/

/-- Between steps, with nothing that waits for a transition of a site's cores. -/
structure M.SparesIdle (m : M) (site : Nat) : Prop where
  step : m.die.step = none
  tableLoad : m.die.fmn.tableLoad = none
  unitWaits : m.die.fmn.unitWaits = []
  pending : (m.site site).sparePending = none
  latched : (m.site site).spareLatched = none

/-- The transition is carried out at once, and then the table-load entry runs. -/
theorem M.SparesIdle.command (h : m.SparesIdle site) (op p : Nat) (hop : op = 1 ∨ op = 2) (hp : p < 17)
    (hn : ((m.spareAsked site op p).spareOp site op p).2 = n) (hsites : n.die.sites = (m.spareAsked site op p).die.sites)
    (hwaits : n.die.fmn.unitWaits = []) : m.spareCommand site op p = (n.spareOver site).startTables := by
  have hstep : m.inStep = false := congrArg Option.isSome h.step
  have hsite := m.spareAsked_site site op p
  rw [m.spareCommand_eq site op p hop hp h.pending, hstep, if_neg Bool.false_ne_true,
    (m.spareAsked site op p).runSpare_single site op p n (by rw [hsite]) hn hsites hwaits (by rw [hsite]; exact h.latched)]

/-- A transition that gives no core work. -/
theorem M.SparesIdle.command_idle (h : m.SparesIdle site) (hc : m.die.fmn.tableCores = []) (op p : Nat)
    (hop : op = 1 ∨ op = 2) (hp : p < 17) (hn : ((m.spareAsked site op p).spareOp site op p).2 = n)
    (hsites : n.die.sites = (m.spareAsked site op p).die.sites) (hfmn : n.die.fmn = m.die.fmn) :
    m.spareCommand site op p = n.spareOver site := by
  have hload : (n.spareOver site).die.fmn.tableLoad = none := (congrArg Foreman.tableLoad hfmn).trans h.tableLoad
  have hcores : (n.spareOver site).die.fmn.tableCores = [] := (congrArg Foreman.tableCores hfmn).trans hc
  rw [h.command op p hop hp hn hsites ((congrArg Foreman.unitWaits hfmn).trans h.unitWaits),
    M.startTables_none _ hload (.inl hcores)]

end Sys2Proof.Machine

namespace Sys2Proof.Machine

/-! ### What a transition leaves -/

variable {site p : Nat} {v m n : M}

/-- What the retirement of core `p` leaves in a state `m` that was `v`. -/
structure M.Retires (site p : Nat) (v m : M) : Prop where
  st : (m.core (17 * site + p)).st = .retired
  spare : m.fld (cluReg site CLU_SPARE_STATUS) 8 4 = 0x1F
  result : m.fld (cluReg site CLU_SPARE_STATUS) 3 0 = 1
  mark : m.flag (cluReg site CLU_SPARE_STATUS) (9 + p) = true
  regs : ∀ a, a ≠ cluReg site CLU_SPARE_STATUS → m.reg a = (v.vcoreMoved site p).reg a
  mem : m.mem = v.mem
  sites : m.die.sites = v.die.sites
  fmn : m.die.fmn = (v.vcoreMoved site p).die.fmn

theorem M.retires_retireCore (v : M) (h : v.siteSpareCore site ≠ 0x1F) (hr : v.isRetired site p = false) (hp : p < 17) :
    M.Retires site p v (v.retireCore site p) := by
  obtain ⟨hmem, hsites, -⟩ := v.vcoreMoved_keeps site p
  obtain ⟨hspare, hresult, hmark⟩ := (v.vcoreMoved site p).setSpareStatus_fields site p 1 0x1F 1 hp (by decide) (by decide)
  rw [v.retireCore_retires site p h hr]
  constructor
  case st => rw [M.core, M.recordRepair_cores, ← M.core, M.core_updCore_same]; rfl
  case spare => rw [M.fld_congr (M.recordRepair_regs _ _), M.fld_congr (M.updCore_regs _ _ _), hspare]
  case result => rw [M.fld_congr (M.recordRepair_regs _ _), M.fld_congr (M.updCore_regs _ _ _), hresult]
  case mark =>
    rw [M.flag_congr (M.recordRepair_regs _ _), M.flag_congr (M.updCore_regs _ _ _), hmark]
    decide
  case regs =>
    intro a ha
    rw [M.reg_congr (M.recordRepair_regs _ _), M.reg_updCore, M.setSpareStatus_reg _ _ _ _ _ _ _ ha]
  case mem => rw [M.recordRepair_mem, M.updCore_mem]; exact hmem
  case sites => rw [M.recordRepair_sites, M.updCore_sites]; exact hsites
  case fmn => rw [M.recordRepair_fmn, M.updCore_fmn]; rfl

/-- What a retirement with a free spare leaves once the table-load entry has run. -/
structure M.SpareTook (site p : Nat) (v m : M) : Prop where
  st : (m.core (17 * site + p)).st = .retired
  spare : m.fld (cluReg site CLU_SPARE_STATUS) 8 4 = 0x1F
  mark : m.flag (cluReg site CLU_SPARE_STATUS) (9 + p) = true
  result : m.fld (cluReg site CLU_SPARE_STATUS) 3 0 = 1
  ended : m.flag (cluReg site CLU_SPARE_CMD) 63 = false
  mem : v.die.fmn.models = [] → m.mem = v.mem
  moved : v.virtualOf (17 * site + p) < 16 →
    m.physical site (v.virtualOf (17 * site + p)) = v.fld (cluReg site CLU_SPARE_STATUS) 8 4 ∧
      m.regN FMN_CORE_SPARE_CNT = min (v.regN FMN_CORE_SPARE_CNT + 1) counterMax

theorem M.fld_eq_of_reg {m n : M} {a : Nat} (h : m.reg a = n.reg a) (hi lo : Nat) : m.fld a hi lo = n.fld a hi lo := by
  rw [M.fld, h, ← M.fld]

theorem M.flag_eq_of_reg {m n : M} {a : Nat} (h : m.reg a = n.reg a) (i : Nat) : m.flag a i = n.flag a i := by
  rw [M.flag, h, ← M.flag]

/-- The table-load entry does not undo a retirement. -/
theorem M.Retires.startTables {w : M} (h : M.Retires site p w n) (hw : SameSpares site v w) (hmem : w.mem = v.mem)
    (hfmn : w.die.fmn = v.die.fmn) (hl : v.die.fmn.tableLoad = none) (hs : site < 136) (hp : p < 17) :
    M.SpareTook site p v (n.spareOver site).startTables := by
  obtain ⟨-, -, -, hload, hmodels⟩ := w.vcoreMoved_keeps site p
  have hn : SameSpares site n (n.spareOver site) := n.sameSpares_spareOver site hs
  have hidle : (n.spareOver site).die.fmn.tableLoad = none := by
    calc (n.spareOver site).die.fmn.tableLoad = n.die.fmn.tableLoad := rfl
      _ = none := by rw [h.fmn, hload, hfmn, hl]
  have htables : M.TableWork (17 * site + p) (n.spareOver site) (n.spareOver site).startTables :=
    M.TableWork.startTables ⟨h.st, fun _ _ => rfl⟩ hidle
  have hclu (off : Nat) (ho : off < 0x1000000) := htables.regs _ (outsideTables_cluReg site off hs ho)
  have hmap : (n.spareOver site).startTables.reg (cluReg site CLU_VCORE_MAP) =
      (w.vcoreMoved site p).reg (cluReg site CLU_VCORE_MAP) := by
    rw [hclu _ (by decide), hn.map, h.regs _ (cluReg_ne site _ _ (by decide))]
  have hmapHi : (n.spareOver site).startTables.reg (cluReg site CLU_VCORE_MAP_HI) =
      (w.vcoreMoved site p).reg (cluReg site CLU_VCORE_MAP_HI) := by
    rw [hclu _ (by decide), hn.mapHi, h.regs _ (cluReg_ne site _ _ (by decide))]
  have hcount : (n.spareOver site).startTables.reg FMN_CORE_SPARE_CNT = (w.vcoreMoved site p).reg FMN_CORE_SPARE_CNT := by
    rw [htables.regs _ outsideTables_spareCount, hn.count, h.regs _ (spareCount_ne_cluReg site _ (by decide))]
  have hstatus : (n.spareOver site).startTables.reg (cluReg site CLU_SPARE_STATUS) = n.reg (cluReg site CLU_SPARE_STATUS) :=
    (hclu _ (by decide)).trans hn.status
  constructor
  case st => exact htables.retired
  case spare => rw [M.fld_eq_of_reg hstatus, h.spare]
  case mark => rw [M.flag_eq_of_reg hstatus, h.mark]
  case result => rw [M.fld_eq_of_reg hstatus, h.result]
  case ended => rw [M.flag_eq_of_reg (hclu CLU_SPARE_CMD (by decide)), M.spareOver_flag]
  case mem =>
    intro hnone
    have hno : (n.spareOver site).die.fmn.models = [] := by
      calc (n.spareOver site).die.fmn.models = n.die.fmn.models := rfl
        _ = [] := by rw [h.fmn, hmodels, hfmn, hnone]
    calc (n.spareOver site).startTables.mem = (n.spareOver site).mem := by rw [M.startTables_none _ hidle (.inr hno)]
      _ = n.mem := rfl
      _ = v.mem := by rw [h.mem, hmem]
  case moved =>
    intro hv
    rw [← hw.virtualOf p hp] at hv ⊢
    obtain ⟨hphys, hcnt⟩ := w.vcoreMoved_moves site p hv
    refine ⟨?_, ?_⟩
    · rw [M.physical_congr site hmap hmapHi, hphys, ← hw.fld]
      rfl
    · rw [M.regN, hcount, ← M.regN, hcnt, hw.regN]

theorem M.spareResult_sites (m : M) (site r : Nat) : (m.spareResult site r).die.sites = m.die.sites := rfl
theorem M.spareResult_fmn (m : M) (site r : Nat) : (m.spareResult site r).die.fmn = m.die.fmn := rfl
theorem M.spareResult_cores (m : M) (site r : Nat) : (m.spareResult site r).die.cores = m.die.cores := rfl
theorem M.spareResult_mem (m : M) (site r : Nat) : (m.spareResult site r).mem = m.mem := rfl
theorem M.spareOver_cores (m : M) (site : Nat) : (m.spareOver site).die.cores = m.die.cores := rfl
theorem M.spareOver_mem (m : M) (site : Nat) : (m.spareOver site).mem = m.mem := rfl
theorem M.setSpareStatus_sites (m : M) (site p x q r : Nat) : (m.setSpareStatus site p x q r).die.sites = m.die.sites := rfl
theorem M.setSpareStatus_fmn (m : M) (site p x q r : Nat) : (m.setSpareStatus site p x q r).die.fmn = m.die.fmn := rfl
theorem M.setSpareStatus_mem (m : M) (site p x q r : Nat) : (m.setSpareStatus site p x q r).mem = m.mem := rfl

theorem M.spareAsked_fmn (m : M) (site op p : Nat) : (m.spareAsked site op p).die.fmn = m.die.fmn := rfl
theorem M.spareAsked_cores (m : M) (site op p : Nat) : (m.spareAsked site op p).die.cores = m.die.cores := rfl
theorem M.spareAsked_mem (m : M) (site op p : Nat) : (m.spareAsked site op p).mem = m.mem := rfl

/-- A core retires at once, and the site's spare takes its virtual core (R508). -/
theorem M.SparesIdle.spareTook (h : v.SparesIdle site) (hs : site < 136) (hp : p < 17)
    (hspare : v.fld (cluReg site CLU_SPARE_STATUS) 8 4 ≠ 0x1F)
    (hr : v.flag (cluReg site CLU_SPARE_STATUS) (9 + p) = false) : M.SpareTook site p v (v.spareCommand site 1 p) := by
  have hw := v.sameSpares_spareAsked site 1 p hs
  have hret : M.Retires site p (v.spareAsked site 1 p) ((v.spareAsked site 1 p).retireCore site p) :=
    M.retires_retireCore _ (by rwa [M.siteSpareCore, hw.fld]) (by rwa [M.isRetired, hw.flag]) hp
  obtain ⟨-, -, hwaits, -⟩ := (v.spareAsked site 1 p).vcoreMoved_keeps site p
  have hnone : ((v.spareAsked site 1 p).retireCore site p).die.fmn.unitWaits = [] := by
    rw [hret.fmn, hwaits, M.spareAsked_fmn, h.unitWaits]
  rw [h.command 1 p (.inl rfl) hp rfl hret.sites hnone]
  exact hret.startTables hw (v.spareAsked_mem site 1 p) (v.spareAsked_fmn site 1 p) h.tableLoad hs hp

/-- A request that ends with result `r` and moves no core. -/
structure M.SpareAnswered (site r : Nat) (v m : M) : Prop where
  result : m.fld (cluReg site CLU_SPARE_STATUS) 3 0 = r
  spare : m.fld (cluReg site CLU_SPARE_STATUS) 8 4 = v.fld (cluReg site CLU_SPARE_STATUS) 8 4
  cores : m.die.cores = v.die.cores
  mem : m.mem = v.mem

theorem M.SparesIdle.answered {r op : Nat} (h : v.SparesIdle site) (hc : v.die.fmn.tableCores = []) (hs : site < 136)
    (hp : p < 17) (hop : op = 1 ∨ op = 2) (hr : r < 16)
    (hn : ((v.spareAsked site op p).spareOp site op p).2 = (v.spareAsked site op p).spareResult site r) :
    M.SpareAnswered site r v (v.spareCommand site op p) := by
  have hw := v.sameSpares_spareAsked site op p hs
  obtain ⟨hresult, hspare⟩ := (v.spareAsked site op p).spareResult_fields site r hr
  have hover := ((v.spareAsked site op p).spareResult site r).sameSpares_spareOver site hs
  rw [h.command_idle hc op p hop hp hn (M.spareResult_sites _ _ _) (by rw [M.spareResult_fmn, M.spareAsked_fmn])]
  constructor
  case result => rw [hover.fld, hresult]
  case spare => rw [hover.fld, hspare, hw.fld]
  case cores => rw [M.spareOver_cores, M.spareResult_cores, M.spareAsked_cores]
  case mem => rw [M.spareOver_mem, M.spareResult_mem, M.spareAsked_mem]

/-- What a return leaves (R44, R510). -/
structure M.SpareReturned (site p : Nat) (v m : M) : Prop where
  spare : m.fld (cluReg site CLU_SPARE_STATUS) 8 4 = p
  mark : m.flag (cluReg site CLU_SPARE_STATUS) (9 + p) = false
  result : m.fld (cluReg site CLU_SPARE_STATUS) 3 0 = 1
  st : (m.core (17 * site + p)).st = v.restSt (17 * site + p)
  mem : m.mem = v.mem

theorem M.spareAsked_reg (m : M) (site op p a : Nat) (h : a ≠ cluReg site CLU_SPARE_CMD) :
    (m.spareAsked site op p).reg a = m.reg a := by
  simp only [M.spareAsked, M.reg_setFld, M.reg_updSite, if_neg h]

theorem M.SparesIdle.spareReturned (h : v.SparesIdle site) (hc : v.die.fmn.tableCores = []) (hs : site < 136) (hp : p < 17)
    (hspare : v.fld (cluReg site CLU_SPARE_STATUS) 8 4 = 0x1F)
    (hr : v.flag (cluReg site CLU_SPARE_STATUS) (9 + p) = true) : M.SpareReturned site p v (v.spareCommand site 2 p) := by
  have hw := v.sameSpares_spareAsked site 2 p hs
  have hn : ((v.spareAsked site 2 p).spareOp site 2 p).2 =
      ((v.spareAsked site 2 p).setSpareStatus site p 0 p 1).updCore (17 * site + p)
        (Core.stopped (((v.spareAsked site 2 p).setSpareStatus site p 0 p 1).restSt (17 * site + p))) :=
    M.returnCore_returns _ _ _ (by rwa [M.siteSpareCore, hw.fld]) (by rwa [M.isRetired, hw.flag])
  have hrest : ((v.spareAsked site 2 p).setSpareStatus site p 0 p 1).restSt (17 * site + p) = v.restSt (17 * site + p) := by
    refine M.restSt_congr _ ?_
    rw [M.setSpareStatus_reg _ _ _ _ _ _ _ (coreReg_ne_cluReg _ _ _ _ (by decide) (by decide)),
      M.spareAsked_reg _ _ _ _ _ (coreReg_ne_cluReg _ _ _ _ (by decide) (by decide))]
  obtain ⟨h4, h0, h9⟩ := (v.spareAsked site 2 p).setSpareStatus_fields site p 0 p 1 hp (by omega) (by decide)
  rw [h.command_idle hc 2 p (.inr rfl) hp hn (by rw [M.updCore_sites, M.setSpareStatus_sites])
    (by rw [M.updCore_fmn, M.setSpareStatus_fmn, M.spareAsked_fmn]), hrest]
  have hover := (((v.spareAsked site 2 p).setSpareStatus site p 0 p 1).updCore (17 * site + p)
    (Core.stopped (v.restSt (17 * site + p)))).sameSpares_spareOver site hs
  constructor
  case spare => rw [hover.fld, M.fld_congr (M.updCore_regs _ _ _), h4]
  case mark =>
    rw [hover.flag, M.flag_congr (M.updCore_regs _ _ _), h9]
    decide
  case result => rw [hover.fld, M.fld_congr (M.updCore_regs _ _ _), h0]
  case st =>
    rw [M.core, M.spareOver_cores, ← M.core, M.core_updCore_same]
    rfl
  case mem => rw [M.spareOver_mem, M.updCore_mem, M.setSpareStatus_mem, M.spareAsked_mem]

end Sys2Proof.Machine

namespace Sys2Proof.Machine

/-! ### Row repairs of a core (R219, R512, R513) -/

/-- A core's repair asked for and pending. -/
def M.rowsAsked (m : M) (c mem bank row : Nat) : M :=
  ((((m.setFld (rowRepairReg c false) 27 24 mem).setFld (rowRepairReg c false) 20 16 bank).setFld (rowRepairReg c false) 11 0
    row).updCore c fun k => { k with repairPending := some (mem, bank, row) }).setFld (rowRepairReg c false) 63 63 1

/-- The pending repair over. -/
def M.rowsOver (m : M) (c : Nat) : M :=
  (m.updCore c fun k => { k with repairPending := none }).setFld (rowRepairReg c false) 63 63 0

theorem M.rowsAsked_mem (m : M) (c mem bank row : Nat) : (m.rowsAsked c mem bank row).mem = m.mem := rfl
theorem M.rowsAsked_fmn (m : M) (c mem bank row : Nat) : (m.rowsAsked c mem bank row).die.fmn = m.die.fmn := rfl
theorem M.rowsAsked_ecc (m : M) (c mem bank row : Nat) : (m.rowsAsked c mem bank row).die.ecc = m.die.ecc := rfl

theorem M.rowsAsked_core (m : M) (c mem bank row : Nat) :
    (m.rowsAsked c mem bank row).core c = { m.core c with repairPending := some (mem, bank, row) } := by
  rw [M.rowsAsked, M.core, M.setFld_cores, ← M.core, M.core_updCore_same]
  rfl

theorem M.rowsAsked_reg (m : M) (c mem bank row a : Nat) (h : a ≠ rowRepairReg c false) :
    (m.rowsAsked c mem bank row).reg a = m.reg a := by
  simp only [M.rowsAsked, M.reg_setFld, M.reg_updCore, if_neg h]

theorem M.rowsOver_mem (m : M) (c : Nat) : (m.rowsOver c).mem = m.mem := rfl

theorem M.rowsOver_core (m : M) (c : Nat) : (m.rowsOver c).core c = { m.core c with repairPending := none } := by
  rw [M.rowsOver, M.core, M.setFld_cores, ← M.core, M.core_updCore_same]

theorem M.rowsOver_reg (m : M) (c a : Nat) (h : a ≠ rowRepairReg c false) : (m.rowsOver c).reg a = m.reg a := by
  simp only [M.rowsOver, M.reg_setFld, M.reg_updCore, if_neg h]

variable {c mem bank row : Nat} {v m n : M}

/-- Between steps, with nothing that waits for a row repair of a core. -/
structure M.RowsIdle (m : M) (c : Nat) : Prop where
  step : m.die.step = none
  unitWaits : m.die.fmn.unitWaits = []
  pending : (m.core c).repairPending = none
  latched : (m.core c).repairLatched = none

/-- A write of a core's repair register that asks for the repair of a row of one of its memories (Table 13.11). -/
structure RowRequest (value : Word) (mem bank row : Nat) : Prop where
  go : value.getLsbD 28 = true
  lt : mem < 7
  memIs : Machine.fld value 27 24 = mem
  bankIs : Machine.fld value 20 16 = bank
  rowIs : Machine.fld value 11 0 = row

/-- A pending repair alone is carried out. -/
theorem M.runCoreRepair_single (m : M) (hpend : (m.core c).repairPending = some (mem, bank, row))
    (hlatch : ((m.repairRowNow c mem bank row).core c).repairLatched = none)
    (hwaits : (m.repairRowNow c mem bank row).die.fmn.unitWaits = []) :
    m.runCoreRepair c = (m.repairRowNow c mem bank row).rowsOver c := by
  have hl : (((m.repairOp c mem bank row).2.updCore c fun k => { k with repairPending := none }).core c).repairLatched =
      none := by
    rw [M.core_updCore_same]; exact hlatch
  have hu (code : Nat) : ((m.repairOp c mem bank row).2.updCore c fun k => { k with repairPending := none }).unitDone (fnRows c)
      code = (m.repairOp c mem bank row).2.updCore c fun k => { k with repairPending := none } := M.unitDone_none _ _ _ hwaits
  simp only [M.runCoreRepair, hpend, hu, hl]
  rfl

/-- GO with nothing pending carries the repair out at once. -/
theorem M.RowsIdle.rowRepair (h : v.RowsIdle c) {value : Word} (hq : RowRequest value mem bank row)
    (hlatch : (((v.rowsAsked c mem bank row).repairRowNow c mem bank row).core c).repairLatched = none)
    (hwaits : ((v.rowsAsked c mem bank row).repairRowNow c mem bank row).die.fmn.unitWaits = []) :
    v.rowRepair c false value = ((v.rowsAsked c mem bank row).repairRowNow c mem bank row).rowsOver c := by
  have hne : (mem == 7) = false := beq_eq_false_iff_ne.mpr (Nat.ne_of_lt hq.lt)
  have hnone : ((((v.setFld (rowRepairReg c false) 27 24 mem).setFld (rowRepairReg c false) 20 16 bank).setFld
      (rowRepairReg c false) 11 0 row).core c).repairPending.isSome = false := congrArg Option.isSome h.pending
  have hstep : (v.rowsAsked c mem bank row).inStep = false := congrArg Option.isSome h.step
  have hpend : ((v.rowsAsked c mem bank row).core c).repairPending = some (mem, bank, row) := by rw [M.rowsAsked_core]
  have hask : v.rowRepair c false value =
      if (v.rowsAsked c mem bank row).inStep then v.rowsAsked c mem bank row
      else (v.rowsAsked c mem bank row).runCoreRepair c := by
    simp only [M.rowRepair, M.askCoreRepair, hq.memIs, hq.bankIs, hq.rowIs, hq.go, hne, hnone, Bool.and_false,
      Bool.not_true, Bool.false_eq_true, if_false]
    rfl
  rw [hask, hstep, if_neg Bool.false_ne_true, (v.rowsAsked c mem bank row).runCoreRepair_single hpend hlatch hwaits]

/-- Without an error in the row, its contents move as they stand. -/
theorem M.writeBackRow_clean (m : M) (c mem off : Nat) (h : m.die.ecc = []) : m.writeBackRow c mem off = m := by
  simp only [M.writeBackRow, M.flipsIn_nil m _ _ _ h, List.foldl_nil]

/-- The spare rows of a core's bank in use are told by its own repairs. -/
theorem M.repairsIn_congr {m n : M} (hlt : mem < 7) (h : (m.core c).repaired = (n.core c).repaired) (bank : Nat) :
    m.repairsIn c mem bank = n.repairsIn c mem bank := by
  simp only [M.repairsIn, if_neg (Nat.ne_of_lt hlt), h]

theorem M.repairRowNow_outside (m : M) (h : bankCount mem ≤ bank ∨ bankRows mem bank ≤ row) (hlt : mem < 7) :
    m.repairRowNow c mem bank row = m.setFld (coreReg c CORE_ROW_REPAIR_STATUS) 3 0 3 := by
  have hne : (mem == 7) = false := beq_eq_false_iff_ne.mpr (Nat.ne_of_lt hlt)
  have hout : (decide (mem ≤ 7) && decide (bank < bankCount mem) && decide (row < bankRows mem bank)) = false := by
    simp only [Bool.and_eq_false_iff, decide_eq_false_iff_not]; omega
  rw [M.repairRowNow, hout, hne]
  rfl

theorem bank_inside (hlt : mem < 7) (hb : bank < bankCount mem) (hr : row < bankRows mem bank) :
    (decide (mem ≤ 7) && decide (bank < bankCount mem) && decide (row < bankRows mem bank)) = true := by
  simp only [Bool.and_eq_true, decide_eq_true_eq]; omega

theorem M.repairRowNow_noSpare (m : M) (hlt : mem < 7) (hb : bank < bankCount mem) (hr : row < bankRows mem bank)
    (h : spareRows mem ≤ m.repairsIn c mem bank) :
    m.repairRowNow c mem bank row =
      (m.setFld (coreReg c CORE_ROW_REPAIR_STATUS) 3 0 2).setFld (coreReg c CORE_ROW_REPAIR_STATUS) 15 8 0 := by
  have hne : (mem == 7) = false := beq_eq_false_iff_ne.mpr (Nat.ne_of_lt hlt)
  simp only [M.repairRowNow, bank_inside hlt hb hr, hne, if_pos h, Bool.not_true, Bool.false_eq_true, if_false]
  rfl

/-- The answer of a repair carried out, with the spare rows left, and the count of repairs. -/
def M.rowAnswered (m : M) (c left : Nat) : M :=
  ((m.setFld (coreReg c CORE_ROW_REPAIR_STATUS) 3 0 1).setFld (coreReg c CORE_ROW_REPAIR_STATUS) 15 8 left).count
    FMN_ROW_REPAIR_CNT

theorem M.repairRowNow_repairs (m : M) (hlt : mem < 7) (hb : bank < bankCount mem) (hr : row < bankRows mem bank)
    (h : m.repairsIn c mem bank < spareRows mem) (hecc : m.die.ecc = []) :
    m.repairRowNow c mem bank row =
      ((m.updCore c fun k => { k with repaired := k.repaired ++ [(mem, bank, row)] }).rowAnswered c
        (spareRows mem - m.repairsIn c mem bank - 1)).recordRepair
          { kind := repairRow, site := c / 17, core := c % 17, memory := mem, bank, row } := by
  have hne : (mem == 7) = false := beq_eq_false_iff_ne.mpr (Nat.ne_of_lt hlt)
  simp only [M.repairRowNow, bank_inside hlt hb hr, hne, if_neg (not_le.mpr h), M.writeBackRow_clean m _ _ _ hecc, Bool.not_true,
    Bool.false_eq_true, if_false]
  rfl

theorem rowRepairStatus_ne (c : Nat) : coreReg c CORE_ROW_REPAIR_STATUS ≠ rowRepairReg c false :=
  Nat.add_left_cancel.mt (by decide)

theorem rowRepairCount_ne_coreReg (c off : Nat) (h : off < 0x1000000) : FMN_ROW_REPAIR_CNT ≠ coreReg c off := by
  simp only [FMN_ROW_REPAIR_CNT, coreReg, coreBase]; omega

/-- A request that ends with result `r` and repairs no row. -/
structure M.RowRefused (c r : Nat) (v m : M) : Prop where
  result : m.fld (coreReg c CORE_ROW_REPAIR_STATUS) 3 0 = r
  repaired : (m.core c).repaired = (v.core c).repaired
  mem : m.mem = v.mem

/-- Writes of the status register alone, and the request's end. -/
theorem M.rowRefused_rowsOver {r : Nat} (hr : n.fld (coreReg c CORE_ROW_REPAIR_STATUS) 3 0 = r)
    (hcores : n.die.cores = (v.rowsAsked c mem bank row).die.cores) (hmem : n.mem = v.mem) :
    M.RowRefused c r v (n.rowsOver c) where
  result := by rw [M.fld_eq_of_reg (n.rowsOver_reg c _ (rowRepairStatus_ne c)), hr]
  repaired := by
    have hcore : n.core c = (v.rowsAsked c mem bank row).core c := by rw [M.core, hcores, ← M.core]
    rw [M.rowsOver_core, hcore, M.rowsAsked_core]
  mem := by rw [M.rowsOver_mem, hmem]

/-- What a repair carried out leaves (R512). -/
structure M.RowRepaired (c mem bank row : Nat) (v m : M) : Prop where
  result : m.fld (coreReg c CORE_ROW_REPAIR_STATUS) 3 0 = 1
  left : m.fld (coreReg c CORE_ROW_REPAIR_STATUS) 15 8 = spareRows mem - v.repairsIn c mem bank - 1
  repaired : (m.core c).repaired = (v.core c).repaired ++ [(mem, bank, row)]
  mem : m.mem = v.mem
  count : m.regN FMN_ROW_REPAIR_CNT = min (v.regN FMN_ROW_REPAIR_CNT + 1) counterMax

theorem spareRows_le (mem : Nat) : spareRows mem ≤ 8 := by
  rw [spareRows]; split
  · exact le_rfl
  · split <;> decide

theorem M.rowAnswered_fields (m : M) (c left : Nat) (h : left < 256) :
    (m.rowAnswered c left).fld (coreReg c CORE_ROW_REPAIR_STATUS) 3 0 = 1 ∧
      (m.rowAnswered c left).fld (coreReg c CORE_ROW_REPAIR_STATUS) 15 8 = left := by
  have hreg : (m.rowAnswered c left).reg (coreReg c CORE_ROW_REPAIR_STATUS) =
      ((m.setFld (coreReg c CORE_ROW_REPAIR_STATUS) 3 0 1).setFld (coreReg c CORE_ROW_REPAIR_STATUS) 15 8 left).reg
        (coreReg c CORE_ROW_REPAIR_STATUS) := by
    rw [M.rowAnswered, M.reg_count, if_neg (rowRepairCount_ne_coreReg c _ (by decide)).symm]
  refine ⟨?_, ?_⟩
  · rw [M.fld_eq_of_reg hreg, M.fld_setFld _ _ _ _ _ _ _ _ (by decide) (by decide) (by decide) (by decide), if_pos rfl,
      if_neg (by decide)]
    exact M.fld_setFld_same _ _ _ _ _ (by decide) (by decide)
  · rw [M.fld_eq_of_reg hreg]
    exact (M.fld_setFld_same _ _ _ _ _ (by decide) (by decide)).trans (Nat.mod_eq_of_lt h)

theorem M.rowAnswered_count (m : M) (c left : Nat) :
    (m.rowAnswered c left).regN FMN_ROW_REPAIR_CNT = min (m.regN FMN_ROW_REPAIR_CNT + 1) counterMax := by
  have hne := rowRepairCount_ne_coreReg c CORE_ROW_REPAIR_STATUS (by decide)
  rw [M.rowAnswered, M.regN_count, M.regN, M.reg_setFld, if_neg hne, M.reg_setFld, if_neg hne, ← M.regN]

theorem M.rowAnswered_cores (m : M) (c left : Nat) : (m.rowAnswered c left).die.cores = m.die.cores := rfl
theorem M.rowAnswered_mem (m : M) (c left : Nat) : (m.rowAnswered c left).mem = m.mem := rfl
theorem M.rowAnswered_fmn (m : M) (c left : Nat) : (m.rowAnswered c left).die.fmn = m.die.fmn := rfl

/-- A repair that changes the status register alone ends with that register's result. -/
theorem M.RowsIdle.refused {r : Nat} (h : v.RowsIdle c) {value : Word} (hq : RowRequest value mem bank row)
    (hcores : ((v.rowsAsked c mem bank row).repairRowNow c mem bank row).die.cores = (v.rowsAsked c mem bank row).die.cores)
    (hfmn : ((v.rowsAsked c mem bank row).repairRowNow c mem bank row).die.fmn = v.die.fmn)
    (hmem : ((v.rowsAsked c mem bank row).repairRowNow c mem bank row).mem = v.mem)
    (hr : ((v.rowsAsked c mem bank row).repairRowNow c mem bank row).fld (coreReg c CORE_ROW_REPAIR_STATUS) 3 0 = r) :
    M.RowRefused c r v (v.rowRepair c false value) := by
  have hlatch : (((v.rowsAsked c mem bank row).repairRowNow c mem bank row).core c).repairLatched = none := by
    rw [M.core, hcores, ← M.core, M.rowsAsked_core, h.latched]
  rw [h.rowRepair hq hlatch (by rw [hfmn, h.unitWaits])]
  exact M.rowRefused_rowsOver hr hcores hmem

/-- A named row outside its bank, or of a bank outside its memory, is none to repair (R513). -/
theorem M.RowsIdle.outside (h : v.RowsIdle c) {value : Word} (hq : RowRequest value mem bank row)
    (hout : bankCount mem ≤ bank ∨ bankRows mem bank ≤ row) : M.RowRefused c 3 v (v.rowRepair c false value) := by
  have hnow := (v.rowsAsked c mem bank row).repairRowNow_outside (c := c) hout hq.lt
  refine h.refused hq ?_ ?_ ?_ ?_
  · rw [hnow, M.setFld_cores]
  · rw [hnow, M.setFld_fmn, M.rowsAsked_fmn]
  · rw [hnow, M.setFld_mem, M.rowsAsked_mem]
  · rw [hnow]; exact M.fld_setFld_same _ _ _ _ _ (by decide) (by decide)

/-- The spare rows in use are those before the request. -/
theorem M.rowsAsked_repairsIn (v : M) (hlt : mem < 7) :
    (v.rowsAsked c mem bank row).repairsIn c mem bank = v.repairsIn c mem bank :=
  M.repairsIn_congr hlt (by rw [M.rowsAsked_core]) bank

/-- A bank without a spare row left (R513). -/
theorem M.RowsIdle.noSpare (h : v.RowsIdle c) {value : Word} (hq : RowRequest value mem bank row)
    (hbank : bank < bankCount mem) (hrow : row < bankRows mem bank) (hfull : spareRows mem ≤ v.repairsIn c mem bank) :
    M.RowRefused c 2 v (v.rowRepair c false value) := by
  have hnow := (v.rowsAsked c mem bank row).repairRowNow_noSpare (c := c) hq.lt hbank hrow (by rwa [v.rowsAsked_repairsIn hq.lt])
  refine h.refused hq ?_ ?_ ?_ ?_
  · rw [hnow, M.setFld_cores, M.setFld_cores]
  · rw [hnow, M.setFld_fmn, M.setFld_fmn, M.rowsAsked_fmn]
  · rw [hnow, M.setFld_mem, M.setFld_mem, M.rowsAsked_mem]
  · rw [hnow, M.fld_setFld _ _ _ _ _ _ _ _ (by decide) (by decide) (by decide) (by decide), if_pos rfl, if_neg (by decide)]
    exact M.fld_setFld_same _ _ _ _ _ (by decide) (by decide)

/-- A row goes to a spare row of its bank (R219, R512). -/
theorem M.RowsIdle.repairs (h : v.RowsIdle c) (hecc : v.die.ecc = []) {value : Word} (hq : RowRequest value mem bank row)
    (hbank : bank < bankCount mem) (hrow : row < bankRows mem bank) (hfree : v.repairsIn c mem bank < spareRows mem) :
    M.RowRepaired c mem bank row v (v.rowRepair c false value) := by
  have hin := v.rowsAsked_repairsIn (c := c) (bank := bank) (row := row) hq.lt
  have hnow := (v.rowsAsked c mem bank row).repairRowNow_repairs (c := c) hq.lt hbank hrow (by rwa [hin])
    (by rw [M.rowsAsked_ecc, hecc])
  rw [hin] at hnow
  have hcore : ((v.rowsAsked c mem bank row).repairRowNow c mem bank row).core c =
      { (v.rowsAsked c mem bank row).core c with repaired := (v.core c).repaired ++ [(mem, bank, row)] } := by
    rw [hnow, M.core, M.recordRepair_cores, M.rowAnswered_cores, ← M.core, M.core_updCore_same, M.rowsAsked_core]
  have hlatch : (((v.rowsAsked c mem bank row).repairRowNow c mem bank row).core c).repairLatched = none := by
    rw [hcore, M.rowsAsked_core, h.latched]
  have hwaits : ((v.rowsAsked c mem bank row).repairRowNow c mem bank row).die.fmn.unitWaits = [] := by
    rw [hnow, M.recordRepair_fmn, M.rowAnswered_fmn, M.updCore_fmn, M.rowsAsked_fmn, h.unitWaits]
  rw [h.rowRepair hq hlatch hwaits]
  obtain ⟨hresult, hleft⟩ := ((v.rowsAsked c mem bank row).updCore c fun k =>
    { k with repaired := k.repaired ++ [(mem, bank, row)] }).rowAnswered_fields c (spareRows mem - v.repairsIn c mem bank - 1)
      (by have := spareRows_le mem; omega)
  have hstatus := (((v.rowsAsked c mem bank row).repairRowNow c mem bank row).rowsOver_reg c _ (rowRepairStatus_ne c))
  have hcount := ((v.rowsAsked c mem bank row).repairRowNow c mem bank row).rowsOver_reg c FMN_ROW_REPAIR_CNT
    (rowRepairCount_ne_coreReg c _ (by decide))
  constructor
  case result => rw [M.fld_eq_of_reg hstatus, hnow, M.fld_congr (M.recordRepair_regs _ _), hresult]
  case left => rw [M.fld_eq_of_reg hstatus, hnow, M.fld_congr (M.recordRepair_regs _ _), hleft]
  case repaired => rw [M.rowsOver_core, hcore]
  case mem => rw [M.rowsOver_mem, hnow, M.recordRepair_mem, M.rowAnswered_mem, M.updCore_mem, M.rowsAsked_mem]
  case count =>
    rw [M.regN, hcount, hnow, M.reg_congr (M.recordRepair_regs _ _), ← M.regN, M.rowAnswered_count, M.regN, M.reg_updCore,
      M.rowsAsked_reg _ _ _ _ _ _ (rowRepairCount_ne_coreReg c _ (by decide)), ← M.regN]

/-- Within a step a transition waits. -/
theorem M.spareCommand_inStep (v : M) (site p : Nat) (hp : p < 17) (hstep : v.die.step ≠ none)
    (hpend : (v.site site).sparePending = none) : v.spareCommand site 1 p = v.spareAsked site 1 p := by
  have hin : v.inStep = true := Option.isSome_iff_ne_none.mpr hstep
  rw [v.spareCommand_eq site 1 p (.inl rfl) hp hpend, hin, if_pos rfl]

theorem M.spareAsked_flag (m : M) (site op p : Nat) : (m.spareAsked site op p).flag (cluReg site CLU_SPARE_CMD) 63 = true := by
  rw [M.spareAsked, M.flag_setFld _ _ _ _ _ _ _ (by decide) (by decide), if_pos rfl, if_pos ⟨le_rfl, le_rfl⟩]
  decide

end Sys2Proof.Machine

namespace Sys2Proof
open Machine

/-- Settles O42: a core's transition by its site's spare, and a row repair by the spare rows of its bank. -/
theorem sparesReplace : Obligations.SparesReplace := by
  unfold Obligations.SparesReplace
  intro s c hl hc hecc hwaits v a
  have hs : c / 17 < 136 := by omega
  have hp : c % 17 < 17 := by omega
  have hretire : runs (.coreRetire c) s (v.spareCommand (c / 17) 1 (c % 17)) :=
    onLive_eq (M.spareCommand · (c / 17) 1 (c % 17)) s hl
  have hreturn : runs (.coreReturn c) s (v.spareCommand (c / 17) 2 (c % 17)) :=
    onLive_eq (M.spareCommand · (c / 17) 2 (c % 17)) s hl
  have hrepair (value : Word) : runs (.rowRepair c false value) s (v.rowRepair c false value) :=
    onLive_eq (M.rowRepair · c false value) s hl
  refine ⟨fun hstep hcores hload hpend hlatch => ?_, fun hstep hpend => ?_,
    fun value mem bank row hstep hpend hlatch hgo hm hb hr hlt => ?_⟩
  · have hidle : v.SparesIdle (c / 17) := ⟨hstep, hload, hwaits, hpend, hlatch⟩
    have hw (op : Nat) := v.sameSpares_spareAsked (c / 17) op (c % 17) hs
    refine ⟨fun hspare hmark => ?_, fun hspare hmark => ?_, fun hspare => ?_, fun hmark hspare => ?_, fun hmark => ?_⟩
    · have took := hidle.spareTook hs hp hspare hmark
      have hst := took.st
      have hmoved := took.moved
      rw [siteCore_eq] at hst hmoved
      exact ⟨_, hretire, hst, took.spare, took.mark, took.result, took.ended, took.mem, hmoved⟩
    · have hn : ((v.spareAsked (c / 17) 1 (c % 17)).spareOp (c / 17) 1 (c % 17)).2 =
          (v.spareAsked (c / 17) 1 (c % 17)).spareResult (c / 17) 1 :=
        M.retireCore_again _ _ _ (by rwa [M.siteSpareCore, (hw 1).fld]) (by rwa [M.isRetired, (hw 1).flag])
      have answered := hidle.answered hcores hs hp (.inl rfl) (by decide) hn
      exact ⟨_, hretire, answered.result, answered.spare, answered.cores, answered.mem⟩
    · have hn : ((v.spareAsked (c / 17) 1 (c % 17)).spareOp (c / 17) 1 (c % 17)).2 =
          (v.spareAsked (c / 17) 1 (c % 17)).spareResult (c / 17) 2 :=
        M.retireCore_noSpare _ _ _ (by rwa [M.siteSpareCore, (hw 1).fld])
      have answered := hidle.answered hcores hs hp (.inl rfl) (by decide) hn
      exact ⟨_, hretire, answered.result, answered.spare.trans hspare, answered.cores, answered.mem⟩
    · have returned := hidle.spareReturned hcores hs hp hspare hmark
      have hst := returned.st
      rw [siteCore_eq] at hst
      exact ⟨_, hreturn, returned.spare, returned.mark, returned.result, hst, returned.mem⟩
    · have hn : ((v.spareAsked (c / 17) 2 (c % 17)).spareOp (c / 17) 2 (c % 17)).2 =
          (v.spareAsked (c / 17) 2 (c % 17)).spareResult (c / 17) 4 :=
        M.returnCore_refused _ _ _ (by rwa [M.isRetired, (hw 2).flag])
      have answered := hidle.answered hcores hs hp (.inr rfl) (by decide) hn
      exact ⟨_, hreturn, answered.result, answered.cores, answered.mem⟩
  · rw [v.spareCommand_inStep (c / 17) (c % 17) hp hstep hpend] at hretire
    exact ⟨_, hretire, congrArg Site.sparePending (v.spareAsked_site (c / 17) 1 (c % 17)), v.spareAsked_flag _ _ _,
      v.spareAsked_cores _ _ _, v.spareAsked_mem _ _ _⟩
  · have hidle : v.RowsIdle c := ⟨hstep, hwaits, hpend, hlatch⟩
    have hq : RowRequest value mem bank row := ⟨hgo, hlt, hm, hb, hr⟩
    refine ⟨fun hbank hrow hfree => ?_, fun hbank hrow hfull => ?_, fun hout => ?_⟩
    · have done := hidle.repairs hecc hq hbank hrow hfree
      exact ⟨_, hrepair value, done.result, done.left, done.repaired, done.mem, done.count⟩
    · have refused := hidle.noSpare hq hbank hrow hfull
      exact ⟨_, hrepair value, refused.result, refused.repaired, refused.mem⟩
    · have refused := hidle.outside hq hout
      exact ⟨_, hrepair value, refused.result, refused.repaired, refused.mem⟩

end Sys2Proof

/-! ## The fallback machine of a core (R188 to R194, Table 4.6) -/

namespace Sys2Proof.Machine

/-! ### Cores written twice -/

theorem mapSet_mapSet {α : Type} (m : NMap α) (k : Nat) (v w : α) : mapSet (mapSet m k v) k w = mapSet m k w := by
  simp only [mapSet, List.filter_append, List.filter_cons, List.filter_filter, Nat.lt_irrefl, decide_false]
  have hlo : (m.filter fun p => decide (p.1 < k) && decide (k < p.1)) = [] :=
    List.filter_eq_nil_iff.mpr fun p _ => by simp; omega
  have hhi : (m.filter fun p => decide (k < p.1) && decide (p.1 < k)) = [] :=
    List.filter_eq_nil_iff.mpr fun p _ => by simp; omega
  simp [hlo, hhi]

theorem M.setCore_setCore (m : M) (c : Nat) (k k' : Core) : (m.setCore c k).setCore c k' = m.setCore c k' := by
  simp [M.setCore, mapSet_mapSet]

theorem M.updCore_updCore (m : M) (c : Nat) (f g : Core → Core) :
    (m.updCore c f).updCore c g = m.updCore c fun k => g (f k) := by
  rw [M.updCore, M.core_updCore_same, M.updCore, M.setCore_setCore, M.updCore]

/-! ### An instruction as a row -/

/-- An instruction that no arrival token holds executes while the core's engines run (R95, R141, R245). -/
theorem fallRow_runs {s : State} {c : Nat} (h : enginesRun s c) (i : Fall) (hi : (view s).fallHeld c i = false) :
    fallRow c i s = .next (put s ((view s).fallExec c i)) := by
  obtain ⟨hlive, hrun, hheld⟩ := h
  rw [fallRow, onLive_eq _ _ hlive]
  simp [hrun, hheld, M.fallTry, hi]

/-- The fallback machine is all of its core that an instruction and the count of its cycles change, where its effect changes
no more (R191, R194). -/
theorem fallExec_updFall (v : M) (c : Nat) (i : Fall) (f : Fallback)
    (he : v.fallEffect c i = v.updFall c fun _ => f) :
    v.fallExec c i = v.setCore c { v.core c with fall := { f with cycles := f.cycles + i.cycles } } := by
  rw [M.fallExec, he, M.updFall, M.updFall, M.updCore_updCore, M.updCore]

/-- An instruction whose effect leaves fallback machine `f`, its cycles not counted. -/
theorem leavesFall_of_effect {i : Instr} {s : State} {c : Nat} {f : Fallback} (op : Fall) (h : enginesRun s c)
    (hx : exec i s = fallRow c op s) (hi : (view s).fallHeld c op = false)
    (he : (view s).fallEffect c op = (view s).updFall c fun _ => f)
    (hc : f.cycles = ((view s).core c).fall.cycles) : leavesFall i s c op.cycles f := by
  rw [leavesFall, runs, hx, fallRow_runs h op hi, fallExec_updFall _ _ _ f he, hc]
  rfl

@[simp] theorem Fallback.next_cycles (f : Fallback) : f.next.cycles = f.cycles := rfl

/-- An instruction whose effect is to write the lanes of register `vd`. -/
theorem writesLanes_of_effect {i : Instr} {s : State} {c vd : Nat} {g : Nat → F32} (op : Fall) (h : enginesRun s c)
    (hx : exec i s = fallRow c op s) (hi : (view s).fallHeld c op = false)
    (he : (view s).fallEffect c op = (view s).fallWrite c vd (lanes g)) : writesLanes i s c vd op.cycles g :=
  leavesFall_of_effect op h hx hi he rfl

end Sys2Proof.Machine

namespace Sys2Proof
open Machine

/-- Settles O38: each row runs its instruction, whose effect is to write the lanes it names. -/
theorem fallbackLanes : Obligations.FallbackLanes := by
  unfold Obligations.FallbackLanes
  intro s c vd va vb vc h f
  refine ⟨writesLanes_of_effect (.fp 1 vd va vb 0) h rfl rfl rfl, writesLanes_of_effect (.fp 2 vd va vb 0) h rfl rfl rfl,
    writesLanes_of_effect (.fp 3 vd va vb 0) h rfl rfl rfl, writesLanes_of_effect (.fp 4 vd va vb vc) h rfl rfl rfl,
    writesLanes_of_effect (.fp 5 vd va vb 0) h rfl rfl rfl, writesLanes_of_effect (.fp 6 vd va vb 0) h rfl rfl rfl,
    writesLanes_of_effect (.table 7 vd va) h rfl rfl rfl, writesLanes_of_effect (.table 8 vd va) h rfl rfl rfl,
    writesLanes_of_effect (.table 9 vd va) h rfl rfl rfl, writesLanes_of_effect (.table 0xA vd va) h rfl rfl rfl,
    writesLanes_of_effect (.sel vd va vb) h rfl rfl rfl, writesLanes_of_effect (.int 0xD vd va vb) h rfl rfl rfl,
    writesLanes_of_effect (.int 0xE vd va vb) h rfl rfl rfl, writesLanes_of_effect (.int 0xF vd va vb) h rfl rfl rfl,
    writesLanes_of_effect (.int 0x10 vd va vb) h rfl rfl rfl,
    fun n => writesLanes_of_effect (.shift false vd va n) h rfl rfl rfl,
    fun n => writesLanes_of_effect (.shift true vd va n) h rfl rfl rfl,
    writesLanes_of_effect (.convert 0 vd va) h rfl rfl rfl, writesLanes_of_effect (.convert 1 vd va) h rfl rfl rfl,
    writesLanes_of_effect (.perm vd va vb) h rfl rfl rfl, fun imm => writesLanes_of_effect (.li vd imm) h rfl rfl rfl,
    fun mode hm => writesLanes_of_effect (.red vd va mode) h rfl rfl (if_pos hm),
    fun mode hm => writesLanes_of_effect (.red vd va mode) h rfl rfl (if_neg (by omega))⟩

end Sys2Proof

/-! ## What taking ports leaves of the module (R200 to R209, R232 to R234, R245) -/

namespace Sys2Proof.Machine

/-- The die without what accesses and beats that take ports may change: counters, cycles of cores, uses and holds. -/
def Die.portless (d : Die) : Die :=
  { d with regs := [], cores := [], uses := [], step := d.step.map fun s => { s with holds := [] } }

/-- From `v` to `m` nothing has moved but ports: counters of theirs, cycles of cores, uses recorded and holds. -/
structure M.PortsMoved (v m : M) : Prop where
  mem : m.mem = v.mem
  regs : sameButPorts v m []
  cores : ∀ d, timeless (m.core d) = timeless (v.core d)
  die : m.die.portless = v.die.portless

variable {v m n : M}

theorem M.PortsMoved.refl (m : M) : M.PortsMoved m m := ⟨rfl, fun _ _ _ => rfl, fun _ => rfl, rfl⟩

theorem M.PortsMoved.trans (h : M.PortsMoved v m) (h' : M.PortsMoved m n) : M.PortsMoved v n where
  mem := h'.mem.trans h.mem
  regs a ha hp := (h'.regs a ha hp).trans (h.regs a ha hp)
  cores d := (h'.cores d).trans (h.cores d)
  die := h'.die.trans h.die

theorem M.PortsMoved.foldl {α : Type} {f : M → α → M} (hf : ∀ m a, M.PortsMoved m (f m a)) (l : List α) (m : M) :
    M.PortsMoved m (l.foldl f m) :=
  List.foldlRecOn (motive := M.PortsMoved m) l f (.refl m) fun n h a _ => h.trans (hf n a)

/-- A fold that carries a number beside the module. -/
theorem M.PortsMoved.foldl_snd {α β : Type} {f : β × M → α → β × M} (hf : ∀ x a, M.PortsMoved x.2 (f x a).2) (l : List α)
    (x : β × M) : M.PortsMoved x.2 (l.foldl f x).2 :=
  List.foldlRecOn (motive := fun y => M.PortsMoved x.2 y.2) l f (.refl x.2) fun y h a _ => h.trans (hf y a)

/-! ### Its fields -/

section
variable (h : M.PortsMoved v m)
include h

theorem M.PortsMoved.ecc : m.die.ecc = v.die.ecc := (congrArg Die.ecc h.die :)
theorem M.PortsMoved.writes : m.die.writes = v.die.writes := (congrArg Die.writes h.die :)
theorem M.PortsMoved.beats : m.die.beats = v.die.beats := (congrArg Die.beats h.die :)
theorem M.PortsMoved.fmn : m.die.fmn = v.die.fmn := (congrArg Die.fmn h.die :)

theorem M.PortsMoved.step : (m.die.step.map fun s => { s with holds := [] }) = v.die.step.map fun s => { s with holds := [] } :=
  (congrArg Die.step h.die :)

theorem M.PortsMoved.step_isNone : m.die.step.isNone = v.die.step.isNone := by
  have := congrArg Option.isNone h.step
  simpa using this

theorem M.PortsMoved.core_eq {α : Type} (g : Core → α) (hg : ∀ k, g (timeless k) = g k) (d : Nat) :
    g (m.core d) = g (v.core d) := by rw [← hg, h.cores, hg]

theorem M.PortsMoved.reg {a : Nat} (ha : ¬ portCounter a) : m.reg a = v.reg a := h.regs a (by simp) ha

theorem M.PortsMoved.flag {a i : Nat} (ha : ¬ portCounter a) : m.flag a i = v.flag a i := by rw [M.flag, h.reg ha, M.flag]

end

/-! ### The single changes -/

theorem M.portsMoved_uses (m : M) (us : List PortUse) : M.PortsMoved m { m with die.uses := us } :=
  ⟨rfl, fun _ _ _ => rfl, fun _ => rfl, rfl⟩

theorem M.portsMoved_noteUse (m : M) (u : PortUse) : M.PortsMoved m (m.noteUse u) := m.portsMoved_uses _

theorem M.portsMoved_countBy (m : M) {a : Nat} (ha : portCounter a) (k : Nat) : M.PortsMoved m (m.countBy a k) where
  mem := by simp
  regs b _ hb := by
    have hne : b ≠ a := fun e => hb (e ▸ ha)
    rw [M.reg_countBy, if_neg hne]
  cores d := by simp [M.core]
  die := by unfold M.countBy; split <;> rfl

theorem M.portsMoved_count (m : M) {a : Nat} (ha : portCounter a) : M.PortsMoved m (m.count a) := m.portsMoved_countBy ha 1

theorem M.portsMoved_cycle (m : M) (c k : Nat) : M.PortsMoved m (m.updCore c fun x => { x with cycle := x.cycle + k }) where
  mem := rfl
  regs _ _ _ := rfl
  cores d := by
    by_cases hd : d = c
    · subst hd; rw [M.core_updCore_same]; rfl
    · rw [M.core_updCore_ne _ _ _ _ hd]
  die := rfl

theorem M.portsMoved_holds (m : M) (e t : Nat) :
    M.PortsMoved m (m.updStep fun s => { s with holds := mapUpd s.holds e [] (· ++ [t]) }) where
  mem := rfl
  regs _ _ _ := rfl
  cores _ := rfl
  die := by simp [Die.portless, M.updStep, Option.map_map, Function.comp_def]

/-! ### The counters of losers, of waits and of holds -/

theorem portCounter_slip (s : Nat) : portCounter (cluReg s CLU_SLIP_CYCLE_CNT) := ⟨s, by simp⟩

theorem portCounter_scrubCollide (c : Nat) : portCounter (coreReg c CORE_SCRUB_COLLIDE_CNT) := ⟨c, by simp⟩

theorem portCounter_loserCounter (u : PortUse) : portCounter (loserCounter u) := by
  unfold loserCounter
  split
  · exact ⟨portRouter u.place, by simp⟩
  · split
    · exact ⟨u.core / 17, by simp⟩
    · exact ⟨u.core, by simp⟩

/-! ### Losing, waiting and using ports -/

theorem M.portsMoved_holdCycle (m : M) (c t : Nat) : M.PortsMoved m (m.holdCycle c t) := by
  have hcount := M.PortsMoved.foldl (fun m s => M.portsMoved_count m (portCounter_slip s)) (m.groupSitesOf c) m
  unfold M.holdCycle
  simp only
  split
  · exact hcount.trans (M.portsMoved_holds _ _ _)
  · exact hcount

theorem M.portsMoved_lose (m : M) (u : PortUse) : M.PortsMoved m (m.lose u) := by
  have hcount := m.portsMoved_count (portCounter_loserCounter u)
  unfold M.lose
  simp only
  split
  · exact hcount.trans (M.portsMoved_holdCycle _ _ _)
  · exact hcount

theorem M.portsMoved_markLost (m : M) (u : PortUse) : M.PortsMoved m (m.markLost u) :=
  (m.portsMoved_uses _).trans (M.portsMoved_lose _ _)

theorem M.portsMoved_portCheck (m : M) (u : PortUse) : M.PortsMoved m (m.portCheck u) := by
  unfold M.portCheck
  simp only
  split
  · split
    · exact M.portsMoved_markLost _ _
    · exact .refl m
  · exact .refl m

theorem M.portsMoved_giveWay (m : M) (u : PortUse) : M.PortsMoved m (m.giveWay u) := by
  refine M.PortsMoved.foldl (fun m w => ?_) _ m
  have hmove := (m.portsMoved_uses (m.die.uses.replace w
    { w with cycle := m.freeCycle w fun _ => false, departs := m.freeCycle w fun _ => false })).trans
      (M.portsMoved_countBy _ (portCounter_waitCounter w) (m.freeCycle w (fun _ => false) - w.cycle))
  simp only
  split
  · exact hmove.trans (M.portsMoved_cycle _ _ _)
  · exact hmove

theorem M.portsMoved_addUse (m : M) (u : PortUse) (slot : Bool) : M.PortsMoved m (m.addUse u slot) := by
  have hlost := (m.portsMoved_noteUse { u with lost := true }).trans (M.portsMoved_lose _ { u with lost := true })
  unfold M.addUse
  split
  · exact hlost
  · split
    · split
      · exact ((m.portsMoved_noteUse u).trans (M.portsMoved_markLost _ _)).trans (M.portsMoved_portCheck _ _)
      · exact hlost
    · exact ((m.portsMoved_noteUse u).trans (M.portsMoved_portCheck _ _)).trans (M.portsMoved_giveWay _ _)

theorem M.portsMoved_useRow (m : M) (c t mem off bytes : Nat) (write : Bool) (unit : AccessUnit) :
    M.PortsMoved m (m.useRow c t mem off bytes write unit) := by
  unfold M.useRow
  split
  · exact .refl m
  · simp only
    split
    · exact (m.portsMoved_count (portCounter_scrubCollide c)).trans (M.portsMoved_addUse _ _ _)
    · exact M.portsMoved_addUse _ _ _

theorem M.portsMoved_arbitrate (m : M) (c : Nat) (us : List RowUse) : M.PortsMoved m (m.arbitrate c us) :=
  .foldl (fun m _ => m.portsMoved_useRow _ _ _ _ _ _ _) _ m

theorem M.portsMoved_fallUse (m : M) (c : Nat) (r : Range) (off : Int) (write : Bool) :
    M.PortsMoved m (m.fallUse c r off write) := .foldl (fun m _ => m.portsMoved_useRow _ _ _ _ _ _ _) _ m

end Sys2Proof.Machine

/-! ## Reads and writes of memories without errors, and writes recorded in their cycles -/

namespace Sys2Proof.Machine

/-! ### Bytes of the working memory -/

theorem ofBytes_read_congr {m n : M} (h : m.mem = n.mem) (a k : Nat) : m.read a k = n.read a k := by rw [M.read, h, M.read]

theorem M.read_one (m : M) (x : Nat) : m.read x 1 = [m.mem.byte x] := by simp [M.read, CMem.read_eq]

/-- Bytes outside a range read as before where each of them stands as before. -/
theorem sameBytes_of_byte {v m : M} {a n : Nat} (h : ∀ x, x < a ∨ a + n ≤ x → m.mem.byte x = v.mem.byte x) :
    sameBytes v m a n := fun x hx => by rw [M.read_one, M.read_one, h x hx]

theorem memAddr_add (c mem off : Nat) : memAddr c mem off = memAddr c mem 0 + off := by
  unfold memAddr; split <;> omega

theorem slice_map_range (g : Nat → Byte) {o n k : Nat} (h : o + n ≤ k) :
    slice ((List.range k).map g) o n = (List.range n).map fun i => g (o + i) := by
  have hlen : (((List.range k).map g).drop o |>.take n).length = n := by simp; omega
  rw [slice]
  simp only [hlen, Nat.sub_self, List.replicate_zero, List.append_nil]
  apply List.ext_getElem
  · simpa using hlen
  · intro i h1 h2
    simp

/-! ### Reads of a space -/

theorem M.readMem_clean (m : M) (c mem off n source : Nat) (h : m.die.ecc = []) :
    m.readMem c mem off n source = (m.read (memAddr c mem off) n, m) := by
  simp [M.readMem, M.flipsIn_nil _ _ _ _ h]

theorem M.spaceRead_snd (m : M) (c space off n : Nat) (h : m.die.ecc = []) : (m.spaceRead c space off n).2 = m := by
  unfold M.spaceRead
  dsimp only
  split
  · rfl
  · rw [M.readMem_clean _ _ _ _ _ _ h]

/-- A byte of a space of core `c`: zero beyond its extent (R54). -/
def M.spaceByte (m : M) (c space off : Nat) : Byte :=
  if off < spaceExtent space then m.mem.byte (memAddr c (spaceMem space) off) else 0

theorem M.spaceByte_congr {m n : M} (h : m.mem = n.mem) (c space off : Nat) : m.spaceByte c space off = n.spaceByte c space off := by
  rw [M.spaceByte, h, M.spaceByte]

/-- A read of a space whose offsets are those of its memory. -/
theorem bytesIn_eq (m : M) (c space off n : Nat) (h : m.die.ecc = []) (hs : space ≠ ACC) :
    bytesIn m c space off n = (List.range n).map fun i => m.spaceByte c space (off + i) := by
  have hoff : spaceOffset (m.sterling c) space off = off := if_neg hs
  rw [bytesIn, M.spaceRead, hoff]
  dsimp only
  split
  · refine List.ext_getElem (by simp) fun i h1 h2 => ?_
    have : ¬ off + i < spaceExtent space := by omega
    simp [zeros, M.spaceByte, this]
  · rw [M.readMem_clean _ _ _ _ _ _ h]
    refine List.ext_getElem (by simp [M.read]) fun i h1 h2 => ?_
    by_cases hi : i < min n (spaceExtent space - off)
    · have : off + i < spaceExtent space := by omega
      rw [List.getElem_append_left (by simpa [M.read] using hi)]
      simp only [M.read, CMem.read_eq, List.getElem_map, List.getElem_range, M.spaceByte, if_pos this]
      rw [memAddr_add c _ off, memAddr_add c _ (off + i), Nat.add_assoc]
    · have : ¬ off + i < spaceExtent space := by simp at h2; omega
      rw [List.getElem_append_right (by simpa [M.read] using Nat.le_of_not_lt hi)]
      simp [zeros, M.spaceByte, this]

theorem bytesIn_congr {m n : M} (hm : m.mem = n.mem) (he : m.die.ecc = []) (he' : n.die.ecc = []) {space : Nat}
    (hs : space ≠ ACC) (c off k : Nat) : bytesIn m c space off k = bytesIn n c space off k := by
  rw [bytesIn_eq _ _ _ _ _ he hs, bytesIn_eq _ _ _ _ _ he' hs]
  simp only [M.spaceByte_congr hm]

/-- A part of a read is a read of the part. -/
theorem slice_bytesIn (m : M) (c space off k o n : Nat) (h : m.die.ecc = []) (hs : space ≠ ACC) (hn : o + n ≤ k) :
    slice (bytesIn m c space off k) o n = bytesIn m c space (off + o) n := by
  rw [bytesIn_eq _ _ _ _ _ h hs, bytesIn_eq _ _ _ _ _ h hs, slice_map_range _ hn]
  simp only [Nat.add_assoc]

/-! ### Writes of a space -/

theorem M.writeMem_clean (m : M) (c mem off : Nat) (bs : Bytes) (hbs : bs ≠ []) (h : m.die.ecc = [])
    (hmem : mem ≠ 0 ∨ m.die.fmn.assay.unit = none) (hi : m.flag (injectReg c mem) 0 = false) :
    m.writeMem c mem off bs = m.write (memAddr c mem off) bs := by
  simpa [M.csServe] using m.csServe_write c mem
    { requester := .foreman, offset := off, width := 0, write := true, data := bs } rfl hbs h hmem hi

theorem M.spaceWrite_clean (m : M) (c space off : Nat) (bs : Bytes) (hbs : bs ≠ []) (hs : space ≠ ACC)
    (hin : off + bs.length ≤ spaceExtent space) (h : m.die.ecc = []) (hmem : spaceMem space ≠ 0)
    (hi : m.flag (injectReg c (spaceMem space)) 0 = false) :
    m.spaceWrite c space off bs = m.write (memAddr c (spaceMem space) off) bs := by
  have hlen : 0 < bs.length := List.length_pos_of_ne_nil hbs
  have htake : bs.take (spaceExtent space - off) = bs := List.take_of_length_le (by omega)
  rw [M.spaceWrite]
  simp only [if_neg (show ¬ spaceExtent space ≤ off by omega), htake, spaceOffset, if_neg hs]
  exact m.writeMem_clean c _ off bs hbs h (.inl hmem) hi

theorem M.byte_write (m : M) (a : Nat) (bs : Bytes) (x : Nat) :
    (m.write a bs).mem.byte x = if a ≤ x ∧ x < a + bs.length then bs.getD (x - a) 0 else m.mem.byte x :=
  CMem.byte_write _ _ _ _

/-! ### Writes recorded in their cycles (R140, R205, R206) -/

theorem M.undone_nil (m : M) (w a : Nat) (bs : Bytes) (h : m.die.writes = []) : m.undone w a bs = bs := by
  simp [M.undone, h]

@[simp] theorem M.pokes_die (m : M) (bs : List (Nat × Byte)) : (m.pokes bs).die = m.die :=
  foldl_keeps (fun m : M => m.die) (fun m (p : Nat × Byte) => m.write p.1 [p.2]) (fun _ _ => rfl) bs m

theorem M.pokes_byte (m : M) (bs : List (Nat × Byte)) (x : Nat) (h : ∀ p ∈ bs, p.1 ≠ x) :
    (m.pokes bs).mem.byte x = m.mem.byte x := by
  induction bs generalizing m with
  | nil => rfl
  | cons p bs ih =>
    have hp : p.1 ≠ x := h p (by simp)
    rw [M.pokes, List.foldl_cons, ← M.pokes, ih _ fun q hq => h q (by simp [hq]), M.byte_write, if_neg]
    simp; omega

/-- What no recorded write covers is among the bytes given. -/
theorem layUnder_left (bs : List (Nat × Byte)) (ys : List TimedWrite) : ∀ p ∈ (layUnder bs ys).2, p ∈ bs := by
  induction ys generalizing bs with
  | nil => exact fun p hp => hp
  | cons y ys ih => exact fun p hp => (List.mem_filter.mp (ih _ p hp)).1

theorem addressed_mem {a : Nat} {bs : Bytes} {p : Nat × Byte} (h : p ∈ addressed a bs) : a ≤ p.1 ∧ p.1 < a + bs.length := by
  obtain ⟨⟨b, i⟩, hi, rfl⟩ := List.mem_map.mp h
  have := (List.mem_zipIdx hi).2.1
  simp only; omega

/-- What recording writes that lie in a range leaves: the record itself, and the bytes of the range. -/
structure M.Recorded (v m : M) (a n : Nat) : Prop where
  die : ∃ ws k, m.die = { v.die with writes := ws, writeNo := k }
  bytes : ∀ x, x < a ∨ a + n ≤ x → m.mem.byte x = v.mem.byte x

theorem M.Recorded.refl (m : M) (a n : Nat) : M.Recorded m m a n := ⟨⟨_, _, rfl⟩, fun _ _ => rfl⟩

theorem M.Recorded.trans {v m n : M} {a k : Nat} (h : M.Recorded v m a k) (h' : M.Recorded m n a k) : M.Recorded v n a k where
  die := by
    obtain ⟨ws, i, hd⟩ := h.die
    obtain ⟨ws', i', hd'⟩ := h'.die
    exact ⟨ws', i', by rw [hd', hd]⟩
  bytes x hx := (h'.bytes x hx).trans (h.bytes x hx)

theorem M.recorded_write (m : M) (a : Nat) (bs : Bytes) {n : Nat} (hn : bs.length ≤ n) : M.Recorded m (m.write a bs) a n where
  die := ⟨_, _, rfl⟩
  bytes x hx := by rw [M.byte_write, if_neg]; omega

theorem M.recorded_insertWrite (m : M) (x : TimedWrite) {a n : Nat} (h : ∀ p ∈ addressed x.addr x.new, a ≤ p.1 ∧ p.1 < a + n) :
    M.Recorded m (m.insertWrite x) a n where
  die := ⟨_, _, by rw [M.insertWrite]; exact M.pokes_die _ _⟩
  bytes y hy := by
    rw [M.insertWrite]
    refine M.pokes_byte _ _ y fun p hp => ?_
    have := h p (layUnder_left _ _ p hp)
    omega

/-- A granule of a write holds bytes of the write. -/
theorem TimedWrite.granules_inside (x : TimedWrite) {g : TimedWrite} (hg : g ∈ x.granules) :
    ∀ p ∈ addressed g.addr g.new, x.addr ≤ p.1 ∧ p.1 < x.addr + x.new.length := by
  obtain ⟨⟨a, n⟩, hcut, hg⟩ := List.mem_flatMap.mp hg
  obtain ⟨i, -, rfl⟩ := List.mem_map.mp hg
  have ha : x.addr ≤ a := by
    unfold cutRows at hcut
    split at hcut
    · simp at hcut
    · obtain ⟨k, -, hk⟩ := List.mem_map.mp hcut
      injection hk with h1 h2
      omega
  intro p hp
  have := addressed_mem hp
  simp only [List.length_take, List.length_drop] at this
  omega

theorem M.recorded_record (m before : M) (x : TimedWrite) : M.Recorded m (m.record before x) x.addr x.new.length := by
  unfold M.record
  split
  · exact .refl ..
  · dsimp only
    have hno : M.Recorded m { m with die.writeNo := m.die.writeNo + 1 } x.addr x.new.length := ⟨⟨_, _, rfl⟩, fun _ _ => rfl⟩
    split
    · refine hno.trans ((M.recorded_write _ x.addr (before.read x.addr x.new.length) (CMem.read_length _ _ _).le).trans ?_)
      exact List.foldlRecOn (motive := fun r => M.Recorded _ r x.addr x.new.length) _ M.insertWrite (M.Recorded.refl ..)
        fun r hr g hg => by
          have hin := TimedWrite.granules_inside _ hg
          exact hr.trans (M.recorded_insertWrite r g hin)
    · exact ⟨⟨_, _, rfl⟩, fun _ _ => rfl⟩

theorem M.recorded_noteWrite (m before : M) (c push entry t rank a n : Nat) :
    M.Recorded m (m.noteWrite before c push entry t rank a n) a n := by
  have hlen : (m.read a n).length = n := CMem.read_length _ _ _
  have hrec := m.recorded_record before
    { no := 0, core := c, push, entry, cycle := t, shown := t + 1, rank, addr := a, old := [], new := m.read a n }
  rwa [hlen] at hrec

/-- Behind an empty record a write is put last, and memory stays. -/
theorem M.noteWrite_first_mem (m before : M) (c push entry t rank a n : Nat) (h : m.die.writes = []) :
    (m.noteWrite before c push entry t rank a n).mem = m.mem := by
  rw [M.noteWrite, M.record]
  split
  · rfl
  · simp [M.overtaken, h]

section
variable {v m : M} {a n : Nat} (h : M.Recorded v m a n)
include h

theorem M.Recorded.regs : m.die.regs = v.die.regs := by obtain ⟨ws, k, hd⟩ := h.die; rw [hd]
theorem M.Recorded.cores : m.die.cores = v.die.cores := by obtain ⟨ws, k, hd⟩ := h.die; rw [hd]
theorem M.Recorded.ecc : m.die.ecc = v.die.ecc := by obtain ⟨ws, k, hd⟩ := h.die; rw [hd]

theorem M.Recorded.core (c : Nat) : m.core c = v.core c := by rw [M.core, h.cores, M.core]
theorem M.Recorded.reg (b : Nat) : m.reg b = v.reg b := M.reg_congr h.regs b

end

end Sys2Proof.Machine

/-! ## The control instructions of fallback mode (R189 to R193) -/

namespace Sys2Proof.Machine

/-! ### Registers of a core that are no port counters -/

theorem coreReg_ne {c d off off' : Nat} (ho : off < 0x1000000) (ho' : off' < 0x1000000) (h : off ≠ off') :
    coreReg c off ≠ coreReg d off' := by
  simp only [coreReg, coreBase]
  omega

theorem not_portCounter_coreReg (c : Nat) {off : Nat} (ho : off < 0x1000000)
    (h : off ∉ [CORE_BANK_COLLIDE_CNT, CORE_SCRUB_COLLIDE_CNT, CORE_CC_BANK_WAIT_CYCLE_CNT, CORE_ELASTIC_BANK_WAIT_CYCLE_CNT]) :
    ¬ portCounter (coreReg c off) := by
  simp only [List.mem_cons, List.not_mem_nil, or_false, not_or] at h
  obtain ⟨h1, h2, h3, h4⟩ := h
  rintro ⟨x, h | h | h | h | h | h | h | h | h⟩
  · exact coreReg_ne ho (by decide) h1 h
  · exact coreReg_ne ho (by decide) h2 h
  · exact coreReg_ne ho (by decide) h3 h
  · exact coreReg_ne ho (by decide) h4 h
  all_goals exact coreReg_ne_cluReg _ _ _ _ ho (by decide) h

/-- The injection register of a core's memories is its own. -/
theorem injectReg_core (c : Nat) {mem : Nat} (h : mem ≠ 7) : injectReg c mem = coreReg c CORE_ECC_INJECT := if_neg h

theorem not_portCounter_injectReg (c : Nat) {mem : Nat} (h : mem ≠ 7) : ¬ portCounter (injectReg c mem) := by
  rw [injectReg_core c h]
  exact not_portCounter_coreReg c (by decide) (by decide)

@[simp] theorem M.violation_cores (m : M) (c req : Nat) (w : Bool) (space tag pc addr : Nat) :
    (m.violation c req w space tag pc addr).die.cores = m.die.cores := by
  unfold M.violation
  simp only
  split <;> simp

/-! ### The parts of a fallback machine -/

@[simp] theorem Fallback.next_mask (f : Fallback) : f.next.mask = f.mask := rfl
@[simp] theorem Fallback.next_ac (f : Fallback) : f.next.ac = f.ac := rfl

@[simp] theorem M.core_updFall_fall (m : M) (c : Nat) (g : Fallback → Fallback) :
    ((m.updFall c g).core c).fall = g (m.core c).fall := by simp [M.updFall]

@[simp] theorem M.updFall_mem (m : M) (c : Nat) (g : Fallback → Fallback) : (m.updFall c g).mem = m.mem := rfl
@[simp] theorem M.updFall_regs (m : M) (c : Nat) (g : Fallback → Fallback) : (m.updFall c g).die.regs = m.die.regs := rfl

@[simp] theorem M.updFall_ecc (m : M) (c : Nat) (g : Fallback → Fallback) : (m.updFall c g).die.ecc = m.die.ecc := rfl

theorem sameButPorts_congr {v m n : M} {l : List Nat} (h : n.die.regs = m.die.regs) (hm : sameButPorts v m l) :
    sameButPorts v n l := fun a ha hp => (M.reg_congr h a).trans (hm a ha hp)

@[simp] theorem M.updFlight_mem (m : M) (c push : Nat) (g : Flight → Flight) : (m.updFlight c push g).mem = m.mem := rfl
@[simp] theorem M.updFlight_regs (m : M) (c push : Nat) (g : Flight → Flight) :
    (m.updFlight c push g).die.regs = m.die.regs := rfl

@[simp] theorem M.core_updFlight_fall (m : M) (c push : Nat) (g : Flight → Flight) :
    ((m.updFlight c push g).core c).fall = (m.core c).fall := by simp [M.updFlight]

/-! ### Instructions as rows -/

variable {s : State} {c : Nat}

theorem runs_fallExec {i : Instr} (op : Fall) (h : enginesRun s c) (hx : exec i s = fallRow c op s)
    (hi : (view s).fallHeld c op = false) : runs i s ((view s).fallExec c op) := by
  rw [runs, hx, fallRow_runs h op hi]

/-- An instruction that an arrival token holds waits and counts its cycle (R141). -/
theorem runs_fallHeld {i : Instr} (op : Fall) (h : enginesRun s c) (hx : exec i s = fallRow c op s)
    (hi : (view s).fallHeld c op = true) :
    runs i s (((view s).count (cluReg (c / 17) CLU_SLIP_CYCLE_CNT)).updFall c fun f => { f with cycles := f.cycles + 1 }) := by
  obtain ⟨hlive, hrun, hheld⟩ := h
  rw [runs, hx, fallRow, onLive_eq _ _ hlive]
  simp [hrun, hheld, M.fallTry, hi]

/-- What a fallback instruction leaves of its core's machine: its effect, with its cycles counted. -/
theorem fallExec_fall (op : Fall) {f : Fallback} (h : (((view s).fallEffect c op).core c).fall = f)
    (hc : f.cycles = ((view s).core c).fall.cycles) :
    (((view s).fallExec c op).core c).fall = fallAfter s c op.cycles f := by
  rw [M.fallExec, M.core_updFall_fall, h, fallAfter, hc]

/-! ### VCMP -/

theorem ofBits_testBit (l : List Bool) (i : Nat) : (maskOf.ofBits l).testBit i = l.getD i false := by
  induction l generalizing i with
  | nil => simp [maskOf.ofBits]
  | cons b l ih =>
    have hb : bit b ≤ 1 := by cases b <;> decide
    cases i with
    | zero => cases b <;> simp [maskOf.ofBits, bit, Nat.testBit_zero]
    | succ i =>
      have hhalf : (bit b + 2 * maskOf.ofBits l) / 2 = maskOf.ofBits l := by omega
      rw [maskOf.ofBits, Nat.testBit_succ, hhalf, ih, List.getD_cons_succ]

theorem maskOf_getLsbD (g : Nat → Bool) {l : Nat} (h : l < 64) : (maskOf ((List.range 64).map g)).getLsbD l = g l := by
  rw [maskOf, BitVec.getLsbD_ofNat, ofBits_testBit]
  simp [h]

/-! ### VLD -/

theorem M.fallLoad_bytes (m : M) (c : Nat) (r : Range) (off : Int) (hecc : m.die.ecc = []) (hw : m.die.writes = [])
    (hs : r.space ≠ ACC) : (m.fallLoad c r off).1 = bytesIn m c r.space (r.base + 16 * off.toNat) 256 := by
  have huse := m.portsMoved_fallUse c r off false
  have hbytes : (m.fallLoad c r off).1 = bytesIn (m.fallUse c r off false) c r.space (r.base + 16 * off.toNat) 256 := by
    unfold M.fallLoad
    simp only [M.spaceRead_snd _ _ _ _ _ (huse.ecc.trans hecc), M.undone_nil _ _ _ _ (huse.writes.trans hw)]
    split <;> rfl
  rw [hbytes, bytesIn_congr huse.mem (huse.ecc.trans hecc) hecc hs]

theorem M.fallLoad_keeps (m : M) (c : Nat) (r : Range) (off : Int) (hecc : m.die.ecc = []) :
    (m.fallLoad c r off).2.mem = m.mem ∧ sameButPorts m (m.fallLoad c r off).2 [] ∧
      ((m.fallLoad c r off).2.core c).fall = (m.core c).fall := by
  have huse := m.portsMoved_fallUse c r off false
  have hfall := huse.core_eq (·.fall) (fun _ => rfl) c
  unfold M.fallLoad
  simp only [M.spaceRead_snd _ _ _ _ _ (huse.ecc.trans hecc)]
  split
  · exact ⟨huse.mem, huse.regs, (M.core_updFlight_fall _ _ _ _).trans hfall⟩
  · exact ⟨huse.mem, huse.regs, hfall⟩

/-! ### VST -/

/-- Entry `i` of equally long strings put one behind another. -/
theorem slice_flatMap {α : Type} (g : α → Bytes) (k : Nat) (hk : ∀ a, (g a).length = k) (l : List α) (i : Nat)
    (hi : i < l.length) : slice (l.flatMap g) (k * i) k = g l[i] := by
  induction l generalizing i with
  | nil => simp at hi
  | cons a l ih =>
    cases i with
    | zero => simp [slice, hk a]
    | succ i =>
      have hdrop : (g a ++ l.flatMap g).drop (k * (i + 1)) = (l.flatMap g).drop (k * i) := by
        rw [Nat.mul_succ, Nat.add_comm, ← List.drop_drop, ← hk a, List.drop_left]
      have := ih i (by simpa using hi)
      rwa [slice, List.flatMap_cons, hdrop, List.getElem_cons_succ]

/-- The four lanes' worth of bytes that a VST stores. -/
def Fallback.stored (f : Fallback) (va : Nat) : Bytes := (lanes (f.lane va)).flatMap fun x => toBytes 4 x.toNat

theorem Fallback.stored_length (f : Fallback) (va : Nat) : (f.stored va).length = 256 := by
  simp [Fallback.stored, lanes, List.length_flatMap, Function.comp_def]

theorem Fallback.stored_lane (f : Fallback) (va l : Nat) (h : l < 64) :
    slice (f.stored va) (4 * l) 4 = toBytes 4 (f.lane va l).toNat := by
  rw [Fallback.stored, slice_flatMap _ 4 (fun _ => toBytes_length _ _) _ l (by simpa [lanes] using h)]
  simp [lanes]

theorem bytesIn_inside (m : M) (c space off n : Nat) (h : m.die.ecc = []) (hs : space ≠ ACC)
    (hin : off + n ≤ spaceExtent space) : bytesIn m c space off n = m.read (memAddr c (spaceMem space) off) n := by
  rw [bytesIn_eq _ _ _ _ _ h hs, M.read, CMem.read_eq]
  refine List.map_congr_left fun i hi => ?_
  have hi := List.mem_range.mp hi
  rw [M.spaceByte, if_pos (by omega), memAddr_add c _ (off + i), memAddr_add c _ off, Nat.add_assoc]

/-- Scratch and the operand cache, the spaces a VST may write. -/
theorem spaceMem_scratchOrOpc {space : Nat} (h : space = SCRATCH ∨ space = OPC) :
    space ≠ ACC ∧ spaceMem space ≠ 0 ∧ spaceMem space ≠ 7 := by
  rcases h with rfl | rfl <;> decide

/-- A VST inside Scratch or the operand cache: its rows take their ports, its bytes are written, and the write is
recorded. -/
theorem M.fallStore_leaves (v : M) (c : Nat) (r : Range) (off : Int) (bs : Bytes) (hb : bs.length = 256)
    (hs : r.space = SCRATCH ∨ r.space = OPC) (hin : r.base + 16 * off.toNat + 256 ≤ spaceExtent r.space)
    (hecc : v.die.ecc = []) (hi : v.flag (injectReg c 0) 0 = false) :
    sameButPorts v (v.fallStore c r off bs) [] ∧ ((v.fallStore c r off bs).core c).fall = (v.core c).fall ∧
      (v.fallStore c r off bs).die.ecc = [] ∧
      (v.die.writes = [] → (v.fallStore c r off bs).read (memAddr c (spaceMem r.space) (r.base + 16 * off.toNat)) 256 = bs) ∧
      sameBytes v (v.fallStore c r off bs) (memAddr c (spaceMem r.space) (r.base + 16 * off.toNat)) 256 := by
  obtain ⟨hacc, h0, h7⟩ := spaceMem_scratchOrOpc hs
  have huse := v.portsMoved_fallUse c r off true
  have hflag : (v.fallUse c r off true).flag (injectReg c (spaceMem r.space)) 0 = false := by
    rw [huse.flag (not_portCounter_injectReg c h7), injectReg_core c h7, ← injectReg_core c (mem := 0) (by decide), hi]
  have hwrite := (v.fallUse c r off true).spaceWrite_clean c r.space (r.base + 16 * off.toNat) bs
    (List.ne_nil_of_length_eq_add_one hb) hacc (by omega) (huse.ecc.trans hecc) h0 hflag
  have hn : insideSpace r.space (r.base + 16 * off.toNat) 256 = 256 := by unfold insideSpace; omega
  unfold M.fallStore
  simp only [hwrite, hn]
  have hrec := fun push t rank entry => M.recorded_noteWrite ((v.fallUse c r off true).write
    (memAddr c (spaceMem r.space) (r.base + 16 * off.toNat)) bs) (v.fallUse c r off true) c push entry t rank
    (memAddr c (spaceMem r.space) (r.base + 16 * off.toNat)) 256
  refine ⟨fun a ha hp => ?_, ?_, ?_, fun hw => ?_, sameBytes_of_byte fun x hx => ?_⟩
  · rw [(hrec _ _ _ _).reg a, M.reg_write, huse.reg hp]
  · rw [(hrec _ _ _ _).core]
    exact huse.core_eq (·.fall) (fun _ => rfl) c
  · rw [(hrec _ _ _ _).ecc]
    exact huse.ecc.trans hecc
  · have hempty : ((v.fallUse c r off true).write (memAddr c (spaceMem r.space) (r.base + 16 * off.toNat)) bs).die.writes = [] :=
      huse.writes.trans hw
    rw [ofBytes_read_congr (M.noteWrite_first_mem _ _ _ _ _ _ _ _ _ hempty), ← hb]
    exact CMem.read_write_same _ _ _
  · rw [(hrec _ _ _ _).bytes x hx, M.byte_write, if_neg (by omega), huse.mem]

/-! ### Loops -/

theorem M.fallJob_congr {m n : M} {c : Nat} (h : (m.core c).flights = (n.core c).flights) : m.fallJob c = n.fallJob c := by
  rw [M.fallJob, M.fallFlight, h, M.fallJob, M.fallFlight]

/-- A program that faults stops, and its SFALL reports it as it retires (R191, R192). -/
theorem M.fallFault_leaves (m : M) (c : Nat) :
    (m.fallFault c).mem = m.mem ∧ (m.fallFault c).die.regs = m.die.regs ∧ ((m.fallFault c).core c).fall.running = false ∧
      ∀ j, m.fallJob c = some j → ∃ x ∈ ((m.fallFault c).core c).flights, x.push = j.push ∧ x.fault = true := by
  have hjob : (m.updFall c fun f => { f with running := false }).fallJob c = m.fallJob c :=
    M.fallJob_congr (by simp [M.updFall])
  unfold M.fallFault
  simp only [hjob]
  cases hj : m.fallJob c with
  | none => exact ⟨rfl, rfl, by simp, by simp⟩
  | some j =>
    refine ⟨rfl, rfl, by simp, fun k hk => ?_⟩
    cases hk
    obtain ⟨f, hf, rfl⟩ := Option.map_eq_some_iff.mp hj
    have hmem : f ∈ (m.core c).flights := (List.mem_filter.mp (List.mem_of_getLast? hf)).1
    exact ⟨{ f with fault := true }, by
      simp only [M.updFlight, M.updFall, M.core_updCore_same]
      exact List.mem_map.mpr ⟨f, hmem, by simp⟩, rfl, rfl⟩

theorem M.fallEffect_loop_in (v : M) (c body select count n : Nat) (hb : 0 < body) (hl : (v.core c).fall.loops.length < 4)
    (hn : (if select = 0 then count else ((v.fallJob c).map fun j => j.d (select - 1)).getD 0) = n) :
    v.fallEffect c (.loop body select count) =
      v.updFall c fun f => if n = 0 then { f with index := f.index + body }.next
        else { f with loops := { start := f.index + 1, stop := f.index + 1 + body, left := n } :: f.loops, index := f.index + 1 } := by
  have hgo : ¬ (body = 0 ∨ 4 ≤ (v.core c).fall.loops.length) := by omega
  simp only [M.fallEffect, if_neg hgo, hn]
  split <;> rfl

theorem M.fallEffect_loop_fault (v : M) (c body select count : Nat) (h : body = 0 ∨ 4 ≤ (v.core c).fall.loops.length) :
    v.fallEffect c (.loop body select count) = v.fallFault c := if_pos h

/-- At its last instruction a loop goes back while turns are left. -/
theorem Fallback.next_back (f : Fallback) {l : FallLoop} {rest : List FallLoop} (hl : f.loops = l :: rest)
    (hi : f.index + 1 = l.stop) (ht : 1 < l.left) :
    f.next.index = l.start ∧ f.next.loops = { l with left := l.left - 1 } :: rest := by
  have : fallAdvance (f.index + 1) f.loops = (l.start, { l with left := l.left - 1 } :: rest) := by
    rw [hl, fallAdvance, if_pos hi, if_neg (by omega)]
  simp [Fallback.next, this]

/-- After its last turn it goes on past the body. -/
theorem Fallback.next_past (f : Fallback) {l : FallLoop} {rest : List FallLoop} (hl : f.loops = l :: rest)
    (hi : f.index + 1 = l.stop) (ht : l.left ≤ 1) (hrest : ∀ q ∈ rest, q.stop ≠ l.stop) :
    f.next.index = l.stop ∧ f.next.loops = rest := by
  have hout : fallAdvance l.stop rest = (l.stop, rest) := by
    cases rest with
    | nil => rfl
    | cons q rest => rw [fallAdvance, if_neg (hrest q (by simp)).symm]
  have : fallAdvance (f.index + 1) f.loops = (l.stop, rest) := by
    rw [hl, fallAdvance, if_pos hi, if_pos ht, hi, hout]
  simp [Fallback.next, this]

end Sys2Proof.Machine

namespace Sys2Proof
open Machine

variable {s : State} {c : Nat}

theorem vcmp_writesMask (h : enginesRun s c) (va vb cond : Nat) :
    ∃ mask, leavesFall (.vcmp c va vb cond) s c 1 { ((view s).core c).fall with mask }.next ∧
      (cond ≤ 5 → ∀ l, l < 64 → mask.getLsbD l =
        laneCmp cond (((view s).core c).fall.lane va l) (((view s).core c).fall.lane vb l)) ∧
      (5 < cond → mask = Config.reservedCompare cond ((List.range 64).map (((view s).core c).fall.lane va))
        ((List.range 64).map (((view s).core c).fall.lane vb))) := by
  by_cases hc : cond ≤ 5
  · refine ⟨maskOf ((List.range 64).map fun l =>
      laneCmp cond (((view s).core c).fall.lane va l) (((view s).core c).fall.lane vb l)),
      leavesFall_of_effect (.cmp va vb cond) h rfl rfl (if_pos hc) (Fallback.next_cycles _), fun _ l hl => ?_, by omega⟩
    rw [maskOf_getLsbD _ hl]
  · exact ⟨Config.reservedCompare cond ((List.range 64).map (((view s).core c).fall.lane va))
      ((List.range 64).map (((view s).core c).fall.lane vb)),
      leavesFall_of_effect (.cmp va vb cond) h rfl rfl (if_neg hc) (Fallback.next_cycles _), by omega, fun _ => rfl⟩

/-- The range of a VLD's stream, and the granule offset it reaches. -/
theorem vld_held (h : enginesRun s c) (vd : Nat) (fromB : Bool) (ac offset : Nat) (r : Range) (off : Int)
    (hr : (view s).fallRange c (if fromB then 2 else 1) = r) (ho : mapGetD ((view s).core c).fall.ac ac 0 + (offset : Int) = off)
    (hin : fallInside r off = true)
    (hheld : (view s).tokenHeld c { space := r.space, len := 16, base := r.base + 16 * off.toNat } = true) :
    ∃ m, runs (.vld c vd fromB ac offset) s m ∧ m.mem = (view s).mem ∧
      sameRegs (view s) m [cluReg (c / 17) CLU_SLIP_CYCLE_CNT] ∧ (m.core c).fall = fallAfter s c 1 ((view s).core c).fall := by
  refine ⟨_, runs_fallHeld (.load vd fromB ac offset) h rfl ?_, rfl, fun a ha => ?_, ?_⟩
  · simp [M.fallHeld, hr, ho, hin, hheld]
  · have hne : a ≠ cluReg (c / 17) CLU_SLIP_CYCLE_CNT := by simpa using ha
    rw [M.updFall, M.reg_updCore, M.reg_count, if_neg hne]
  · rw [M.core_updFall_fall]
    rfl

theorem vld_loads (h : enginesRun s c) (hecc : s.die.ecc = []) (hw : s.die.writes = []) (vd : Nat) (fromB : Bool)
    (ac offset : Nat) (r : Range) (off : Int)
    (hr : (view s).fallRange c (if fromB then 2 else 1) = r) (ho : mapGetD ((view s).core c).fall.ac ac 0 + (offset : Int) = off)
    (hin : fallInside r off = true)
    (hfree : (view s).tokenHeld c { space := r.space, len := 16, base := r.base + 16 * off.toNat } = false)
    (hs : r.space ≠ ACC) :
    ∃ m, runs (.vld c vd fromB ac offset) s m ∧ m.mem = (view s).mem ∧ sameButPorts (view s) m [] ∧
      (m.core c).fall = fallAfter s c 1 (((view s).core c).fall.setV vd ((List.range 64).map fun l =>
        BitVec.ofNat 32 (ofBytes (bytesIn (view s) c r.space (r.base + 16 * off.toNat + 4 * l) 4)))).next := by
  have heff : (view s).fallEffect c (.load vd fromB ac offset) = ((view s).fallLoad c r off).2.fallWrite c vd
      (lanes fun l => BitVec.ofNat 32 (numAt ((view s).fallLoad c r off).1 (4 * l) 4)) := by
    simp only [M.fallEffect, hr, ho, hin, if_true]
  have hlanes : (lanes fun l => BitVec.ofNat 32 (numAt ((view s).fallLoad c r off).1 (4 * l) 4)) = (List.range 64).map fun l =>
      BitVec.ofNat 32 (ofBytes (bytesIn (view s) c r.space (r.base + 16 * off.toNat + 4 * l) 4)) := by
    refine List.map_congr_left fun l hl => ?_
    have hl := List.mem_range.mp hl
    rw [numAt, M.fallLoad_bytes _ _ _ _ hecc hw hs, slice_bytesIn _ _ _ _ _ _ _ hecc hs (by omega)]
  obtain ⟨hmem, hregs, hfall⟩ := (view s).fallLoad_keeps c r off hecc
  refine ⟨_, runs_fallExec (.load vd fromB ac offset) h rfl ?_, ?_, ?_, ?_⟩
  · simp [M.fallHeld, hr, ho, hfree]
  · rw [M.fallExec, heff, M.fallWrite, M.updFall_mem, M.updFall_mem, hmem]
  · rw [M.fallExec, heff, M.fallWrite]
    exact sameButPorts_congr (by simp only [M.updFall_regs]) hregs
  · rw [hlanes] at heff
    exact fallExec_fall (.load vd fromB ac offset) (by rw [heff, M.fallWrite, M.core_updFall_fall, hfall])
      (Fallback.next_cycles _)

theorem vld_outside (h : enginesRun s c) (vd : Nat) (fromB : Bool) (ac offset : Nat) (r : Range) (off : Int)
    (hr : (view s).fallRange c (if fromB then 2 else 1) = r) (ho : mapGetD ((view s).core c).fall.ac ac 0 + (offset : Int) = off)
    (hout : fallInside r off = false) :
    ∃ m, runs (.vld c vd fromB ac offset) s m ∧ m.mem = (view s).mem ∧
      (m.core c).fall = fallAfter s c 1 (((view s).core c).fall.setV vd (List.replicate 64 0)).next ∧
      m.regN (coreReg c CORE_VIOL_CNT) = min ((view s).regN (coreReg c CORE_VIOL_CNT) + 1) counterMax := by
  have heff : (view s).fallEffect c (.load vd fromB ac offset) =
      ((view s).fallViolation c false r off).fallWrite c vd (List.replicate 64 0) := by
    simp only [M.fallEffect, hr, ho, hout, Bool.false_eq_true, if_false, lanes]
    rfl
  refine ⟨_, runs_fallExec (.load vd fromB ac offset) h rfl ?_, ?_, ?_, ?_⟩
  · simp [M.fallHeld, hr, ho, hout]
  · rw [M.fallExec, heff]; exact (M.violation_keeps _ _ _ _ _ _ _ _).1
  · exact fallExec_fall (.load vd fromB ac offset)
      (by rw [heff, M.fallWrite, M.core_updFall_fall, M.core, M.fallViolation, M.violation_cores, M.core])
      (Fallback.next_cycles _)
  · rw [M.fallExec, heff]; exact M.violation_count _ _ _ _ _ _ _ _

theorem vst_stores (h : enginesRun s c) (hecc : s.die.ecc = []) (va ac offset : Nat) (r : Range) (off : Int)
    (hr : (view s).fallRange c 3 = r) (ho : mapGetD ((view s).core c).fall.ac ac 0 + (offset : Int) = off)
    (hin : fallInside r off = true) (hs : r.space = SCRATCH ∨ r.space = OPC)
    (hext : r.base + 16 * off.toNat + 256 ≤ spaceExtent r.space) (hi : (view s).flag (injectReg c 0) 0 = false) :
    ∃ m, runs (.vst c va ac offset) s m ∧ sameButPorts (view s) m [] ∧ (m.core c).fall = fallAfter s c 1 ((view s).core c).fall.next ∧
      (s.die.writes = [] → ∀ l, l < 64 → bytesIn m c r.space (r.base + 16 * off.toNat + 4 * l) 4 =
        toBytes 4 (((view s).core c).fall.lane va l).toNat) ∧
      sameBytes (view s) m (memAddr c (spaceMem r.space) (r.base + 16 * off.toNat)) 256 := by
  obtain ⟨hacc, -, -⟩ := spaceMem_scratchOrOpc hs
  obtain ⟨hregs, hfall, hecc', hbytes, hsame⟩ := (view s).fallStore_leaves c r off (((view s).core c).fall.stored va)
    (Fallback.stored_length _ _) hs hext hecc hi
  have heff : (view s).fallEffect c (.store va ac offset) =
      ((view s).fallStore c r off (((view s).core c).fall.stored va)).updFall c Fallback.next := by
    simp only [M.fallEffect, hr, ho, hin, if_true]
    rfl
  refine ⟨_, runs_fallExec (.store va ac offset) h rfl rfl, ?_, ?_, fun hw l hl => ?_, ?_⟩
  · rw [M.fallExec, heff]
    exact sameButPorts_congr (by simp only [M.updFall_regs]) hregs
  · exact fallExec_fall (.store va ac offset) (by rw [heff, M.core_updFall_fall, hfall]) (Fallback.next_cycles _)
  · rw [M.fallExec, heff]
    rw [bytesIn_congr (n := (view s).fallStore c r off (((view s).core c).fall.stored va)) (by simp only [M.updFall_mem])
      (by simpa only [M.updFall_ecc] using hecc') hecc' hacc, ← slice_bytesIn _ _ _ _ 256 _ _ hecc' hacc (by omega), bytesIn_inside _ _ _ _ _ hecc' hacc hext, hbytes hw,
      Fallback.stored_lane _ _ _ hl]
  · rw [M.fallExec, heff]; exact hsame

theorem vst_outside (h : enginesRun s c) (va ac offset : Nat) (r : Range) (off : Int)
    (hr : (view s).fallRange c 3 = r) (ho : mapGetD ((view s).core c).fall.ac ac 0 + (offset : Int) = off)
    (hout : fallInside r off = false) :
    ∃ m, runs (.vst c va ac offset) s m ∧ m.mem = (view s).mem ∧
      (m.core c).fall = fallAfter s c 1 ((view s).core c).fall.next ∧
      m.regN (coreReg c CORE_VIOL_CNT) = min ((view s).regN (coreReg c CORE_VIOL_CNT) + 1) counterMax := by
  have heff : (view s).fallEffect c (.store va ac offset) =
      ((view s).fallViolation c true r off).updFall c Fallback.next := by
    simp only [M.fallEffect, hr, ho, hout, Bool.false_eq_true, if_false]
  refine ⟨_, runs_fallExec (.store va ac offset) h rfl rfl, ?_, ?_, ?_⟩
  · rw [M.fallExec, heff]; exact (M.violation_keeps _ _ _ _ _ _ _ _).1
  · exact fallExec_fall (.store va ac offset)
      (by rw [heff, M.core_updFall_fall, M.core, M.fallViolation, M.violation_cores, M.core]) (Fallback.next_cycles _)
  · rw [M.fallExec, heff]; exact M.violation_count _ _ _ _ _ _ _ _

theorem loop_faults (h : enginesRun s c) (body select count : Nat) (hf : body = 0 ∨ 4 ≤ ((view s).core c).fall.loops.length) :
    ∃ m, runs (.loop c body select count) s m ∧ (m.core c).fall.running = false ∧ m.mem = (view s).mem ∧
      m.die.regs = (view s).die.regs ∧
      ∀ j, (view s).fallJob c = some j → ∃ x ∈ (m.core c).flights, x.push = j.push ∧ x.fault = true := by
  obtain ⟨hmem, hregs, hstop, hflight⟩ := (view s).fallFault_leaves c
  refine ⟨_, runs_fallExec (.loop body select count) h rfl rfl, ?_, ?_, ?_, fun j hj => ?_⟩
  all_goals rw [M.fallExec, M.fallEffect_loop_fault _ _ _ _ _ hf]
  · rwa [M.core_updFall_fall]
  · exact hmem
  · exact hregs
  · rw [M.updFall, M.core_updCore_same]
    exact hflight j hj

/-- What a machine that `leavesFall` describes leaves besides. -/
theorem leavesFall.exists {i : Instr} {n : Nat} {f : Fallback} (h : leavesFall i s c n f) :
    ∃ m, runs i s m ∧ m.mem = (view s).mem ∧ m.die.regs = (view s).die.regs ∧ (m.core c).fall = fallAfter s c n f :=
  ⟨_, h, rfl, rfl, by rw [M.core_setCore_same]⟩

/-- Settles O39: each instruction by the lemma on its effect; a loop's end by the advance of the program. -/
theorem fallbackControl : Obligations.FallbackControl := by
  unfold Obligations.FallbackControl
  refine ⟨?_, fun s c l rest h hl hi => ?_⟩
  · intro s c h _ hecc v k f
    refine ⟨leavesFall_of_effect .nop h rfl rfl rfl rfl, ?vcmp, ?vld, ?vst, ?acadd, ?enters,
      fun body select count hf => loop_faults h body select count hf, leavesFall_of_effect .finish h rfl rfl rfl rfl⟩
    case vcmp =>
      intro va vb cond
      obtain ⟨mask, hleaves, hdefined, hfree⟩ := vcmp_writesMask h va vb cond
      obtain ⟨m, hm, hmem, hregs, hfall⟩ := hleaves.exists
      have hmask : (m.core c).fall.mask = mask := by rw [hfall]; rfl
      exact ⟨m, hm, hmem, hregs, by rwa [hmask], by rwa [hmask], by rw [hmask, hfall]⟩
    case vld =>
      intro vd fromB ac offset r off held
      exact ⟨vld_held h vd fromB ac offset r off rfl rfl,
        fun hin hfree hs hw => vld_loads h hecc hw vd fromB ac offset r off rfl rfl hin hfree hs,
        vld_outside h vd fromB ac offset r off rfl rfl⟩
    case vst =>
      intro va ac offset r off
      exact ⟨vst_stores h hecc va ac offset r off rfl rfl, vst_outside h va ac offset r off rfl rfl⟩
    case acadd =>
      intro ac imm
      obtain ⟨m, hm, hmem, hregs, hfall⟩ := (leavesFall_of_effect (i := .acadd c ac imm)
        (f := { f with ac := mapUpd f.ac ac 0 (· + signed imm 16) }.next) (.acadd ac imm) h rfl rfl rfl rfl).exists
      have hac : (m.core c).fall.ac = mapUpd f.ac ac 0 (· + signed imm 16) := by rw [hfall]; rfl
      exact ⟨m, hm, hmem, hregs, by rw [hac, mapUpd, mapGetD_mapSet_same],
        fun i hi => by rw [hac, mapUpd, mapGetD_mapSet_ne _ _ _ _ _ hi], by rw [hac, hfall]; rfl⟩
    case enters =>
      intro body select count hb hl n
      have heff := v.fallEffect_loop_in c body select count n hb hl rfl
      refine ⟨fun hn => leavesFall_of_effect (.loop body select count) h rfl rfl ?_ (Fallback.next_cycles _),
        fun hn => leavesFall_of_effect (.loop body select count) h rfl rfl ?_ rfl⟩
      · rw [heff]; simp only [if_pos hn]; rfl
      · rw [heff]; simp only [if_neg (show n ≠ 0 by omega)]; rfl
  · obtain ⟨m, hm, -, -, hfall⟩ := (leavesFall_of_effect (i := .vnop c) (f := ((view s).core c).fall.next) .nop h rfl rfl rfl rfl).exists
    refine ⟨fun ht => ⟨m, hm, ?_⟩, fun ht hrest => ⟨m, hm, ?_⟩⟩
    · rw [hfall]; exact Fallback.next_back _ hl hi ht
    · rw [hfall]; exact Fallback.next_past _ hl hi ht hrest

end Sys2Proof

/-! ## The command extension (R60, R72, R84 to R86, R92, R94, R250) -/

namespace Sys2Proof.Machine

/-- A row of the command extension acts while its control core can execute (R88, R245). -/
theorem ccRow_runs {s : State} {c : Nat} (h : ccCanRun s c) (f : M → M) : ccRow c f s = .next (put s (f (view s))) := by
  obtain ⟨hlive, -, hready, hheld, -⟩ := h
  rw [ccRow, onLive_eq _ _ hlive]
  simp [hready, hheld]

theorem ccCanRun_ecc {s : State} {c : Nat} (h : ccCanRun s c) : (view s).die.ecc = [] := by
  obtain ⟨-, -, -, -, hecc⟩ := h
  exact hecc

/-! ### Predicates (R60) -/

theorem M.preds_setPreds_testBit (m : M) (c v p : Nat) (hp : p < 16) :
    ((m.setPreds c v).preds c).testBit p = (v.testBit p || decide (p = 0)) := by
  have hone : Nat.testBit 1 p = decide (p = 0) := by
    rw [show (1 : Nat) = 2 ^ 0 from rfl, Nat.testBit_two_pow]
    exact decide_eq_decide.mpr eq_comm
  have hlt : v % 2 ^ 16 ||| 1 < 2 ^ 64 :=
    (Nat.or_lt_two_pow (Nat.mod_lt _ (by decide)) (by decide)).trans (by decide : 2 ^ 16 < 2 ^ 64)
  rw [M.preds, M.setPreds, M.fld, M.reg_setReg_same, Machine.fld, bits_testBit, BitVec.toNat_ofNat, Nat.mod_eq_of_lt hlt,
    Nat.zero_add, Nat.testBit_or, Nat.testBit_mod_two_pow, hone]
  simp [hp]

/-- The predicates of a mask set or cleared. -/
theorem testBit_masked (p mask : Nat) (value : Bool) (i : Nat) (hi : i < 16) :
    (if value then p ||| mask else p &&& (0xFFFF - mask % 2 ^ 16)).testBit i = if mask.testBit i then value else p.testBit i := by
  cases value
  · have hneg : (0xFFFF - mask % 2 ^ 16 : Nat) = 2 ^ 16 - (mask % 2 ^ 16 + 1) := by
      have := Nat.mod_lt mask (show 0 < 2 ^ 16 by decide)
      omega
    rw [if_neg Bool.false_ne_true, Nat.testBit_and, hneg, Nat.testBit_two_pow_sub_succ (Nat.mod_lt _ (by decide)),
      Nat.testBit_mod_two_pow]
    cases mask.testBit i <;> simp [hi]
  · rw [if_pos rfl, Nat.testBit_or]
    cases mask.testBit i <;> simp

theorem M.setPreds_keeps (m : M) (c v : Nat) :
    sameRegs m (m.setPreds c v) [coreReg c CORE_PRED] ∧ (m.setPreds c v).mem = m.mem ∧
      (m.setPreds c v).die.cores = m.die.cores :=
  ⟨fun a ha => M.reg_setReg_ne _ _ _ _ (by simpa using ha), rfl, rfl⟩

variable {s : State} {c : Nat}

theorem cpush_pushes (h : ccCanRun s c) (rs1 cmd : Nat) (ha : (((view s).core c).xr rs1).toNat % 32 = 0)
    (hin : (((view s).core c).xr rs1).toNat < 65536)
    (hcmd : cmd = (view s).readN (memAddr c 4 (((view s).core c).xr rs1).toNat) 32)
    (hroom : (((view s).core c).queueOf (cmdEngine cmd)).length < 32) :
    runs (.cpush c rs1) s ((view s).setCore c { ((view s).core c).advance 4 1 with
      queue := ((view s).core c).queue ++ [{ push := ((view s).core c).pushNo, cmd }], pushNo := ((view s).core c).pushNo + 1 }) := by
  have hoff : ¬ ((((view s).core c).xr rs1).toNat % 32 ≠ 0 ∨ isramSize ≤ (((view s).core c).xr rs1).toNat) := by
    simp only [isramSize]; omega
  have hfree : ¬ queueDepth ≤ (((view s).core c).queueOf (cmdEngine cmd)).length := by simp only [queueDepth]; omega
  have hread : ofBytes ((view s).read (memAddr c 4 (((view s).core c).xr rs1).toNat) 32) = cmd := hcmd.symm
  rw [runs, show exec (.cpush c rs1) s = execCpush c rs1 s from rfl, execCpush, ccRow_runs h, M.cpush]
  simp only [if_neg hoff, M.readMem_clean _ _ _ _ _ _ (ccCanRun_ecc h), hread, if_neg hfree]
  rfl

theorem ppatch_writes (h : ccCanRun s c) (idx : Nat) (high : Bool) (rs1 : Nat) (hi : 128 ≤ idx)
    (hflag : (view s).flag (injectReg c 5) 0 = false) :
    runs (.ppatch c idx high rs1) s (((view s).setCore c (((view s).core c).advance 4 1)).writeN
      (memAddr c 5 (8 * idx + 4 * bit high)) 4 (((view s).core c).xr rs1).toNat) := by
  rw [runs, show exec (.ppatch c idx high rs1) s = execPpatch c idx high rs1 s from rfl, execPpatch, ccRow_runs h, M.ppatch,
    if_neg (by omega)]
  dsimp only
  rw [M.writeMem_clean _ _ _ _ _ (by simp [toBytes]) (ccCanRun_ecc h) (.inl (by decide)) hflag]
  rfl

theorem pset_sets (h : ccCanRun s c) (mask : Nat) (value : Bool) : ∃ m, runs (.pset c mask value) s m ∧
    sameRegs (view s) m [coreReg c CORE_PRED] ∧
    m.die.cores = ((view s).setCore c (((view s).core c).advance 4 1)).die.cores ∧ m.mem = (view s).mem ∧
    (m.preds c).testBit 0 = true ∧
    ∀ p, 0 < p → p < 16 → (m.preds c).testBit p = if mask.testBit p then value else ((view s).preds c).testBit p := by
  refine ⟨_, ccRow_runs h (M.pset · c mask value), (M.setPreds_keeps _ _ _).1, rfl, rfl, ?_, fun p h0 hp => ?_⟩
  · refine (M.preds_setPreds_testBit _ c _ 0 (by decide)).trans ?_
    simp
  · refine (M.preds_setPreds_testBit _ c _ p hp).trans ?_
    rw [testBit_masked _ _ _ _ hp]
    simp [show p ≠ 0 by omega]

theorem psetp_sets (h : ccCanRun s c) (pred idx b : Nat) (invert : Bool) (h0 : 0 < pred) (hp : pred < 16) :
    ∃ m, runs (.psetp c pred idx b invert) s m ∧ sameRegs (view s) m [coreReg c CORE_PRED] ∧
      m.die.cores = ((view s).setCore c (((view s).core c).advance 4 1)).die.cores ∧ m.mem = (view s).mem ∧
      (m.preds c).testBit pred = (((view s).param c idx).testBit b != invert) ∧
      ∀ p, 0 < p → p < 16 → p ≠ pred → (m.preds c).testBit p = ((view s).preds c).testBit p := by
  have hmask : (0xFFFF - 2 ^ pred : Nat) = 0xFFFF - 2 ^ pred % 2 ^ 16 := by
    rw [Nat.mod_eq_of_lt (Nat.pow_lt_pow_right (by decide) hp)]
  have hrun : runs (.psetp c pred idx b invert) s (((view s).setPreds c (if ((view s).param c idx).testBit b != invert
      then (view s).preds c ||| 2 ^ pred else (view s).preds c &&& (0xFFFF - 2 ^ pred % 2 ^ 16))).updCore c (Core.advance 4 1)) := by
    rw [runs, show exec (.psetp c pred idx b invert) s = execPsetp c pred idx b invert s from rfl, execPsetp, ccRow_runs h,
      M.psetp]
    simp only [M.param, M.readMem_clean _ _ _ _ _ _ (ccCanRun_ecc h), if_neg (show pred ≠ 0 by omega), hmask]
  have hbit (p : Nat) (hp' : p < 16) := (M.preds_setPreds_testBit (view s) c (if ((view s).param c idx).testBit b != invert
      then (view s).preds c ||| 2 ^ pred else (view s).preds c &&& (0xFFFF - 2 ^ pred % 2 ^ 16)) p hp').trans
    (by rw [testBit_masked _ _ _ _ hp'])
  refine ⟨_, hrun, (M.setPreds_keeps _ _ _).1, rfl, rfl, ?_, fun p hp0 hp' hne => ?_⟩
  · refine (hbit pred hp).trans ?_
    simp [show pred ≠ 0 by omega]
  · refine (hbit p hp').trans ?_
    simp [hne.symm, show p ≠ 0 by omega]

theorem psetp_zero (h : ccCanRun s c) (idx b : Nat) (invert : Bool) :
    runs (.psetp c 0 idx b invert) s ((view s).setCore c (((view s).core c).advance 4 1)) := by
  rw [runs, show exec (.psetp c 0 idx b invert) s = execPsetp c 0 idx b invert s from rfl, execPsetp, ccRow_runs h, M.psetp]
  simp only [M.readMem_clean _ _ _ _ _ _ (ccCanRun_ecc h), if_true]
  rfl

theorem waitr_passes (h : ccCanRun s c) (space rs1 rs2 : Nat)
    (hno : ((view s).core c).regionHolds { space, len := (((view s).core c).xr rs2).toNat, base := (((view s).core c).xr rs1).toNat } = []) :
    runs (.waitr c space rs1 rs2) s ((view s).setCore c (((view s).core c).advance 4 1)) := by
  rw [runs, show exec (.waitr c space rs1 rs2) s = execWaitr c space rs1 rs2 s from rfl, execWaitr, ccRow_runs h, M.waitr]
  simp only [hno, List.isEmpty_nil, if_true]
  rfl

/-! ### Held cycles (R84, R87, R90) -/

/-- The waits of a core after a held cycle at a waiter. -/
def heldWaits (ft w : Nat) (wait : Option Bool) (waits : NMap Wait) : NMap Wait :=
  match wait with
  | none => mapDel waits w
  | some elastic =>
    match mapGet waits w with
    | some x => if x.elastic = elastic then waits else mapSet waits w { elastic, since := ft }
    | none => mapSet waits w { elastic, since := ft }

/-- A held cycle counts, and touches its core's waits alone. -/
theorem M.held_eq (m : M) (c w counter : Nat) (wait : Option Bool) :
    m.held c w counter wait = (m.count counter).updCore c fun k => { k with waits := heldWaits m.die.ft w wait k.waits } := by
  unfold M.held heldWaits
  cases wait with
  | none => rfl
  | some e =>
    simp only [M.updCore, M.count_ft]
    congr 1
    cases mapGet ((m.count counter).core c).waits w with
    | none => rfl
    | some x => simp only; split <;> rfl

theorem heldCounter_mem (c : Nat) (l : List SbEntry) (lockstep : Nat) :
    heldCounter c l lockstep ∈ [coreReg c lockstep, coreReg c CORE_ELASTIC_WAIT_CYCLE_CNT] := by
  unfold heldCounter
  split <;> simp

theorem waitr_holds (h : ccCanRun s c) (space rs1 rs2 : Nat)
    (hheld : ((view s).core c).regionHolds { space, len := (((view s).core c).xr rs2).toNat, base := (((view s).core c).xr rs1).toNat } ≠ []) :
    ∃ m, runs (.waitr c space rs1 rs2) s m ∧ (m.core c).pc = ((view s).core c).pc ∧
      (m.core c).cycle = ((view s).core c).cycle + 1 ∧ (m.core c).instret = ((view s).core c).instret ∧ m.mem = (view s).mem ∧
      sameRegs (view s) m [coreReg c CORE_SB_STALL_CYCLE_CNT, coreReg c CORE_ELASTIC_WAIT_CYCLE_CNT] := by
  have hrun : runs (.waitr c space rs1 rs2) s ((view s).waitr c space rs1 rs2) := ccRow_runs h (M.waitr · c space rs1 rs2)
  rw [M.waitr] at hrun
  simp only [List.isEmpty_iff, hheld, if_false, M.heldBy, M.held_eq, M.updCore_updCore] at hrun
  refine ⟨_, hrun, ?_, ?_, ?_, rfl, fun a ha => ?_⟩
  iterate 3 rw [M.core_updCore_same]; rfl
  have hne : a ≠ heldCounter c (((view s).core c).regionHolds
      { space, len := (((view s).core c).xr rs2).toNat, base := (((view s).core c).xr rs1).toNat }) CORE_SB_STALL_CYCLE_CNT :=
    fun e => ha (e ▸ heldCounter_mem _ _ _)
  rw [M.reg_updCore, M.reg_count, if_neg hne]

/-! ### Arrivals (R85, R86, R250) -/

/-- A core past a FARRIVE whose arrival is `a`. -/
def Core.arriving (a : Arrival) (ft : Nat) (k : Core) : Core :=
  { k.advance 4 1 with
    older := k.older ++ k.arrival.toList, arrival := some a
    waits := if a.blocking then mapSet k.waits 4 { elastic := false, since := ft } else mapDel k.waits 4 }

/-- The arrival of a FARRIVE. -/
def arrivalOf (f : Nat) (blocking ending effective : Bool) : Arrival :=
  { fence := f, blocking := blocking || ending, ending, effective }

theorem farrive_arrives (h : ccCanRun s c) (f : Nat) (blocking ending : Bool) (e : Nat)
    (he : ((view s).core c).entry = some e) (hc : ((view s).members e).contains c = true) (hf : ∀ x ∈ (view s).die.fences, x.id ≠ f) :
    runs (.farrive c f blocking false ending) s
      { (view s).updCore c (Core.arriving (arrivalOf f blocking ending true) s.die.ft) with
        die.fences := (view s).die.fences ++
          [{ id := f, entry := e, arrived := [c], lastCycle := ((view s).core c).cycle, withheld := (view s).flag PWR_STATUS 8 }] } := by
  rw [runs, show exec (.farrive c f blocking false ending) s = execFarrive c f blocking false ending s from rfl, execFarrive,
    ccRow_runs h]
  exact congrArg (fun m => Host.Outcome.next (put s m)) (M.arrive_first
    ((view s).updCore c (Core.arriving (arrivalOf f blocking ending true) s.die.ft))
    c f ((view s).core c).cycle e (by rw [M.core_updCore_same]; exact he) hc hf)

theorem farrive_waits (h : ccCanRun s c) (f : Nat) (blocking ending : Bool) (hd : ((view s).core c).drained = false) :
    runs (.farrive c f blocking true ending) s
      ((view s).updCore c (Core.arriving (arrivalOf f blocking ending false) s.die.ft)) := by
  rw [runs, show exec (.farrive c f blocking true ending) s = execFarrive c f blocking true ending s from rfl, execFarrive,
    ccRow_runs h, M.farrive]
  simp only [hd]
  rfl

end Sys2Proof.Machine

namespace Sys2Proof
open Machine

/-- Settles O28: each instruction by its lemma on the working state. -/
theorem commandExtensionRule : Obligations.CommandExtensionRule := by
  unfold Obligations.CommandExtensionRule
  intro s c h v k done
  refine ⟨cpush_pushes h, ppatch_writes h, pset_sets h, psetp_sets h, psetp_zero h, fun space rs1 rs2 hno => ?_,
    fun space rs1 rs2 x hx ho => ?_, fun f blocking ending e he hc hf => ?_, fun f blocking ending hd => ?_,
    fun rd => ccRow_runs h (M.ftrd · c rd false), fun rd => ccRow_runs h (M.ftrd · c rd true)⟩
  · exact waitr_passes h space rs1 rs2 (List.filter_eq_nil_iff.mpr fun x hx => by rw [hno x hx]; decide)
  · exact waitr_holds h space rs1 rs2 (List.ne_nil_of_mem (List.mem_filter.mpr ⟨List.mem_append_left _ hx, ho⟩))
  · refine ⟨_, farrive_arrives h f blocking ending e he hc hf, rfl, ?_⟩
    have hcore := v.core_updCore_same c
      (Core.arriving (arrivalOf f blocking ending true) s.die.ft)
    exact ⟨(congrArg Core.arrival hcore).trans rfl, (congrArg Core.older hcore).trans rfl, (congrArg Core.pc hcore).trans rfl,
      rfl, rfl⟩
  · refine ⟨_, farrive_waits h f blocking ending hd, rfl, ?_, rfl, rfl, ?_⟩ <;> rw [M.core_updCore_same] <;> rfl

end Sys2Proof

/-! ## Schedule faults (R95 to R97, Table 2.14) -/

namespace Sys2Proof.Machine

/-! ### Registers of cores and of the Foreman -/

theorem coreReg_lt {c off : Nat} (hc : c < 2312) (ho : off < 0x1000000) : coreReg c off < 0x11000000000 := by
  simp only [coreReg, coreBase]
  omega

theorem coreReg_ne_of_ge {c off a : Nat} (hc : c < 2312) (ho : off < 0x1000000) (ha : 0x11000000000 ≤ a) : coreReg c off ≠ a := by
  have := coreReg_lt hc ho
  omega

/-! ### A Foreman error class -/

theorem M.errorClass_reg (m : M) (cls block inst detail a : Nat)
    (h : a ∉ [FMN_ERR_CLASS_CNT + 8 * cls, FMN_ERR_FIRST0, FMN_ERR_FIRST1, FMN_ERR_FIRST2]) :
    (m.errorClass cls block inst detail).reg a = m.reg a := by
  simp only [List.mem_cons, List.not_mem_nil, or_false, not_or] at h
  unfold M.errorClass
  dsimp only
  split <;> simp [M.reg_setReg, M.reg_count, h]

theorem M.errorClass_cores (m : M) (cls block inst detail : Nat) :
    (m.errorClass cls block inst detail).die.cores = m.die.cores := by
  unfold M.errorClass; dsimp only; split <;> rfl

theorem M.errorClass_sites (m : M) (cls block inst detail : Nat) :
    (m.errorClass cls block inst detail).die.sites = m.die.sites := by
  unfold M.errorClass; dsimp only; split <;> rfl

theorem M.errorClass_step (m : M) (cls block inst detail : Nat) :
    (m.errorClass cls block inst detail).die.step = m.die.step := by
  unfold M.errorClass; dsimp only; split <;> rfl

/-! ### Cores as the die lists them -/

/-- A written entry is listed once under its key. -/
theorem eq_of_mem_mapSet {α : Type} {m : NMap α} {k : Nat} {v : α} {p : Nat × α} (h : p ∈ mapSet m k v) (hk : p.1 = k) :
    p = (k, v) := by
  rcases List.mem_append.mp h with h | h
  · have := (List.mem_filter.mp h).2
    simp only [decide_eq_true_eq] at this; omega
  · rcases List.mem_cons.mp h with h | h
    · exact h
    · have := (List.mem_filter.mp h).2
      simp only [decide_eq_true_eq] at this; omega

/-- No core is listed with an access that waits, and core `c` is listed as it stands. -/
structure M.ListsQuiet (c : Nat) (m : M) : Prop where
  waits : ∀ p ∈ m.die.cores, p.2.csWait = []
  own : ∀ p ∈ m.die.cores, p.1 = c → p.2 = m.core c

theorem M.listsQuiet_setCore {m : M} {c : Nat} {k : Core} (h : ∀ p ∈ m.die.cores, p.2.csWait = []) (hk : k.csWait = []) :
    (m.setCore c k).ListsQuiet c where
  waits p hp := by
    rcases mem_mapSet _ _ _ _ hp with hp | rfl
    · exact h p hp
    · exact hk
  own p hp he := by
    rw [eq_of_mem_mapSet hp he, M.core_setCore_same]

/-- Where nothing waits, serving a core's accesses leaves the list of cores, but for that core written as it stands. -/
theorem M.serveDeferred_cores {m : M} (h : m.NothingWaits) (c : Nat) :
    (m.serveDeferred c).die.cores = m.die.cores ∨ (m.serveDeferred c).die.cores = mapSet m.die.cores c (m.core c) := by
  have hwrite : ({ m.core c with csWait := (m.core c).csWait.filter fun p => p.1 == 0 } : Core) = m.core c := by
    rw [h.cores c, List.filter_nil, ← h.cores c]
  simp only [M.serveDeferred, h.cores c, List.filter_nil, List.foldl_nil]
  rw [h.cores c, List.filter_nil] at hwrite
  have hupd : (m.updCore c fun k => { k with csWait := k.csWait.filter fun p => p.1 == 0 }).die.cores =
      mapSet m.die.cores c (m.core c) := by
    simp only [M.updCore, M.setCore, h.cores c, List.filter_nil, hwrite]
  have hsites : ∀ t, ((m.updCore c fun k => { k with csWait := k.csWait.filter fun p => p.1 == 0 }).site t).csWait = [] := h.sites
  by_cases hr : m.resting c = true
  · simp only [if_pos hr, hsites, List.foldl_nil]
    split <;> exact .inr hupd
  · simp only [if_neg hr, h.sites, List.foldl_nil]
    split <;> exact .inl rfl

theorem M.ListsQuiet.serveDeferred {m : M} {c : Nat} (h : m.ListsQuiet c) (hn : m.NothingWaits) : (m.serveDeferred c).ListsQuiet c := by
  have hcore := ((M.Releases.refl (l := []) hn).serveDeferred c).2 c
  rcases M.serveDeferred_cores hn c with he | he
  · exact ⟨fun p hp => h.waits p (he ▸ hp), fun p hp hc => by rw [hcore]; exact h.own p (he ▸ hp) hc⟩
  · refine ⟨fun p hp => ?_, fun p hp hc => ?_⟩ <;> rw [he] at hp
    · rcases mem_mapSet _ _ _ _ hp with hp | rfl
      · exact h.waits p hp
      · exact hn.cores c
    · rw [eq_of_mem_mapSet hp hc, hcore]

/-- A core changed leaves every access where it waits, none, if its own does. -/
theorem noneWaits_updCore {m : M} (h : noneWaits m) (c : Nat) (f : Core → Core) (hf : (f (m.core c)).csWait = (m.core c).csWait) :
    noneWaits (m.updCore c f) :=
  ⟨fun p hp => by
    rcases mem_mapSet _ _ _ _ hp with hp | rfl
    · exact h.1 p hp
    · exact hf.trans ((m.nothingWaits_of_noneWaits h).cores c), h.2⟩

/-! ### The abort of a step (R95) -/

/-- What stopping cores other than `c` leaves. -/
structure M.Stops (c : Nat) (v m : M) : Prop where
  waits : m.NothingWaits
  regs : ∀ a, m.reg a = v.reg a
  step : m.die.step = v.die.step
  core : m.core c = v.core c

theorem M.Stops.setCore {c d : Nat} {v m : M} (h : M.Stops c v m) (k : Core) (hd : d ≠ c) (hk : k.csWait = []) :
    M.Stops c v ((m.setCore d k).serveDeferred d) := by
  have hn : (m.setCore d k).NothingWaits := {
    cores x := by
      by_cases hx : x = d
      · rw [hx, M.core_setCore_same, hk]
      · rw [M.core_setCore_ne _ _ _ _ hx, h.waits.cores]
    sites := h.waits.sites }
  obtain ⟨hrel, hcore⟩ := (M.Releases.refl (l := []) hn).serveDeferred d
  exact ⟨hrel.waits, fun a => (hrel.regs a (by simp)).trans (h.regs a), hrel.step.trans h.step,
    by rw [hcore, M.core_setCore_ne _ _ _ _ hd.symm, h.core]⟩

/-- An abort leaves a core whose engines do not run, every register but the sequencer's status, and the step in error. -/
theorem M.abortStep_leaves (m : M) (c : Nat) (hn : m.NothingWaits) (hl : m.ListsQuiet c) (hc : (m.core c).engines = false) :
    m.abortStep.core c = m.core c ∧ (∀ a, a ≠ FMN_SEQ_STATUS → m.abortStep.reg a = m.reg a) ∧
      ∀ x, m.die.step = some x → m.abortStep.die.step = some { x with error := true, schedFault := true } := by
  unfold M.abortStep
  cases hs : m.die.step with
  | none => exact ⟨rfl, fun _ _ => rfl, by simp⟩
  | some s =>
    have hstops := List.foldlRecOn (motive := M.Stops c m) m.die.cores
      (fun m p => if p.2.engines && (p.2.entry.isSome || s.cores.contains p.1) then
        (m.setCore p.1 (p.2.stopped (m.restSt p.1))).serveDeferred p.1 else m)
      ⟨hn, fun _ => rfl, rfl, rfl⟩ fun n hst p hp => by
        show M.Stops c m (if _ then _ else _)
        split
        · rename_i hgo
          have hd : p.1 ≠ c := fun e => by
            rw [hl.own p hp e, hc] at hgo
            simp at hgo
          exact hst.setCore _ hd (hl.waits p hp)
        · exact hst
    refine ⟨hstops.core, fun a ha => ?_, fun x hx => ?_⟩
    · refine (M.reg_setFld _ _ _ _ _ _).trans ?_
      rw [if_neg ha, hstops.regs]
    · cases hx; rfl

/-! ### The capture of a fault (R97) -/

/-- The registers of a core's fault capture. -/
def captureRegs (c : Nat) : List Nat :=
  [coreReg c CORE_SCHED_FAULT, coreReg c CORE_FAULT_CMD + 8 * 0, coreReg c CORE_FAULT_CMD + 8 * 1,
    coreReg c CORE_FAULT_CMD + 8 * 2, coreReg c CORE_FAULT_CMD + 8 * 3]

theorem M.captureFault_die (m : M) (c cause engine tag : Nat) (fromCc : Bool) (words : Nat) :
    ∃ regs, m.captureFault c cause engine tag fromCc words = { m with die.regs := regs } := by
  unfold M.captureFault
  split
  · exact ⟨_, rfl⟩
  · exact ⟨_, rfl⟩

theorem M.captureFault_reg (m : M) (c cause engine tag : Nat) (fromCc : Bool) (words a : Nat) (h : a ∉ captureRegs c) :
    (m.captureFault c cause engine tag fromCc words).reg a = m.reg a := by
  simp only [captureRegs, List.mem_cons, List.not_mem_nil, or_false, not_or] at h
  unfold M.captureFault
  split
  · rfl
  · rw [show List.range 4 = [0, 1, 2, 3] from rfl]
    simp only [List.foldl_cons, List.foldl_nil, M.reg_setReg, h, if_false]

/-- The word that captures a fault, field by field (Table 2.14). -/
theorem faultWord_fields (pc cause engine tag : Nat) (fromCc : Bool) (hc : cause < 16) (he : engine < 4) (ht : tag < 65536) :
    let w := BitVec.ofNat 64 (2 ^ 63 + pc % 2 ^ 16 * 2 ^ 32 + tag * 2 ^ 16 + bit fromCc * 64 + engine * 16 + cause)
    w.toNat.testBit 63 = true ∧ Machine.fld w 3 0 = cause ∧ Machine.fld w 5 4 = engine ∧ w.toNat.testBit 6 = fromCc ∧
      Machine.fld w 31 16 = tag := by
  have hb : bit fromCc ≤ 1 := by cases fromCc <;> decide
  have hw : (BitVec.ofNat 64 (2 ^ 63 + pc % 2 ^ 16 * 2 ^ 32 + tag * 2 ^ 16 + bit fromCc * 64 + engine * 16 + cause)).toNat =
      2 ^ 63 + pc % 2 ^ 16 * 2 ^ 32 + tag * 2 ^ 16 + bit fromCc * 64 + engine * 16 + cause := by
    rw [BitVec.toNat_ofNat]
    omega
  dsimp only
  simp only [Machine.fld, hw, bits, Nat.shiftRight_eq_div_pow, Nat.testBit_eq_decide_div_mod_eq]
  refine ⟨by simp; omega, by omega, by omega, ?_, by omega⟩
  cases fromCc <;> simp only [bit] <;> simp <;> omega

theorem M.captureFault_captures (m : M) (c cause engine tag : Nat) (fromCc : Bool) (words : Nat) (hc : cause < 16)
    (he : engine < 4) (ht : tag < 65536) (hv : m.flag (coreReg c CORE_SCHED_FAULT) 63 = false) :
    let n := m.captureFault c cause engine tag fromCc words
    n.flag (coreReg c CORE_SCHED_FAULT) 63 = true ∧ n.fld (coreReg c CORE_SCHED_FAULT) 3 0 = cause ∧
      n.fld (coreReg c CORE_SCHED_FAULT) 5 4 = engine ∧ n.flag (coreReg c CORE_SCHED_FAULT) 6 = fromCc ∧
      n.fld (coreReg c CORE_SCHED_FAULT) 31 16 = tag ∧
      ∀ i, i < 4 → n.regN (coreReg c CORE_FAULT_CMD + 8 * i) = cmdWord words i := by
  have hn : m.captureFault c cause engine tag fromCc words = _ := if_neg (by simp [hv])
  rw [show List.range 4 = [0, 1, 2, 3] from rfl] at hn
  simp only [List.foldl_cons, List.foldl_nil] at hn
  intro n
  have hword : n.reg (coreReg c CORE_SCHED_FAULT) = BitVec.ofNat 64
      (2 ^ 63 + (m.core c).lastPc % 2 ^ 16 * 2 ^ 32 + tag * 2 ^ 16 + bit fromCc * 64 + engine * 16 + cause) := by
    simp [n, hn, M.reg_setReg, coreReg, CORE_SCHED_FAULT, CORE_FAULT_CMD]
  obtain ⟨h63, h3, h5, h6, h31⟩ := faultWord_fields (m.core c).lastPc cause engine tag fromCc hc he ht
  refine ⟨?_, ?_, ?_, ?_, ?_, fun i hi => ?_⟩
  iterate 5 simpa only [M.flag, M.fld, hword]
  have hlt : cmdWord words i < 2 ^ 64 := (bits_lt _ _ _).trans_eq (by congr 1; omega)
  rw [M.regN, show n.reg (coreReg c CORE_FAULT_CMD + 8 * i) = BitVec.ofNat 64 (cmdWord words i) by
    simp only [n, hn, M.reg_setReg]
    interval_cases i <;> simp]
  exact Nat.mod_eq_of_lt hlt

/-! ### A schedule fault as a whole (R95 to R97) -/

/-- Core `c` as a schedule fault stops it. -/
def Core.faultStop (k : Core) : Core := { k with st := .faulted, waits := [], fall := { k.fall with running := false } }

/-- A fault of core `c` that starts at a state with `w`'s queue, scoreboard, capture, count and step is one of `w`. -/
theorem faulted_congr {v w m : M} {c cause engine tag words : Nat} {fromCc : Bool} (hq : (w.core c).queue = (v.core c).queue)
    (hs : (w.core c).scoreboard = (v.core c).scoreboard)
    (hn : w.reg (coreReg c CORE_SCHED_FAULT_CNT) = v.reg (coreReg c CORE_SCHED_FAULT_CNT))
    (hf : w.reg (coreReg c CORE_SCHED_FAULT) = v.reg (coreReg c CORE_SCHED_FAULT)) (hx : w.die.step = v.die.step)
    (h : faulted w m c cause engine tag fromCc words) : faulted v m c cause engine tag fromCc words := by
  obtain ⟨hst, hq', hs', hn', hf', hx'⟩ := h
  refine ⟨hst, hq'.trans hq, hs'.trans hs, by rw [hn', M.regN, hn, ← M.regN], fun hv => hf' ?_, fun x hvx => hx' x (hx.trans hvx)⟩
  rw [← hv, M.flag, M.flag, hf]

/-- What stands after a fault's core has stopped and the accesses that waited for it have been served: all but that core and
its capture. -/
theorem M.stopped_leaves (m : M) (c cause engine tag : Nat) (fromCc : Bool) (words : Nat) (hw : noneWaits m) :
    let n := ((m.captureFault c cause engine tag fromCc words).updCore c Core.faultStop).serveDeferred c
    n.NothingWaits ∧ n.ListsQuiet c ∧ n.core c = (m.core c).faultStop ∧ n.die.step = m.die.step ∧
      ∀ a, n.reg a = (m.captureFault c cause engine tag fromCc words).reg a := by
  obtain ⟨regs, he⟩ := m.captureFault_die c cause engine tag fromCc words
  rw [he]
  intro n
  have hk : (({ m with die.regs := regs } : M).core c).faultStop = (m.core c).faultStop := rfl
  have hcs : ((m.core c).faultStop).csWait = [] := (m.nothingWaits_of_noneWaits hw).cores c
  have hq : (({ m with die.regs := regs } : M).updCore c Core.faultStop).ListsQuiet c :=
    M.listsQuiet_setCore (m := { m with die.regs := regs }) hw.1 hcs
  have hn : (({ m with die.regs := regs } : M).updCore c Core.faultStop).NothingWaits := {
    cores x := by
      by_cases hx : x = c
      · rw [hx, M.core_updCore_same, hk, hcs]
      · rw [M.core_updCore_ne _ _ _ _ hx]
        exact (m.nothingWaits_of_noneWaits hw).cores x
    sites := (m.nothingWaits_of_noneWaits hw).sites }
  obtain ⟨hrel, hcore⟩ := (M.Releases.refl (l := []) hn).serveDeferred c
  exact ⟨hrel.waits, hq.serveDeferred hn, by rw [hcore, M.core_updCore_same, hk], hrel.step, fun a => hrel.regs a (by simp)⟩

/-- The registers that a schedule fault's report writes at the Foreman. -/
def reportRegs : List Nat := [FMN_ERR_CLASS_CNT + 8 * 12, FMN_ERR_FIRST0, FMN_ERR_FIRST1, FMN_ERR_FIRST2, FMN_SEQ_STATUS]

theorem coreReg_notMem_reportRegs {c off : Nat} (hc : c < 2312) (ho : off < 0x1000000) : coreReg c off ∉ reportRegs := by
  simp only [reportRegs, List.mem_cons, List.not_mem_nil, or_false, not_or]
  refine ⟨?_, ?_, ?_, ?_, ?_⟩ <;> exact coreReg_ne_of_ge hc ho (by decide)

/-- A schedule fault of core `c`, counted and reported as class 12 (R96). -/
def M.faultNoted (m : M) (c : Nat) : M :=
  ((m.count (coreReg c CORE_SCHED_FAULT_CNT)).errorClass 12 0 (coreInstance c) 0).report 12 0 (coreInstance c) 0 0 0 0

theorem M.faultNoted_core (m : M) (c d : Nat) : (m.faultNoted c).core d = m.core d :=
  congrArg (mapGetD · d Core.fresh) ((M.errorClass_cores _ _ _ _ _).trans rfl)

theorem M.faultNoted_step (m : M) (c : Nat) : (m.faultNoted c).die.step = m.die.step := M.errorClass_step _ _ _ _ _

theorem M.faultNoted_quiet {m : M} (c : Nat) (hn : m.NothingWaits) (hl : m.ListsQuiet c) :
    (m.faultNoted c).NothingWaits ∧ (m.faultNoted c).ListsQuiet c := by
  have hcores : (m.faultNoted c).die.cores = m.die.cores := M.errorClass_cores _ _ _ _ _
  have hsites : (m.faultNoted c).die.sites = m.die.sites := M.errorClass_sites _ _ _ _ _
  refine ⟨⟨fun x => ?_, fun t => ?_⟩, ⟨fun p hp => ?_, fun p hp he => ?_⟩⟩
  · rw [M.faultNoted_core]; exact hn.cores x
  · rw [M.site, hsites]; exact hn.sites t
  · rw [hcores] at hp; exact hl.waits p hp
  · rw [hcores] at hp; rw [M.faultNoted_core]; exact hl.own p hp he

theorem M.faultNoted_coreReg (m : M) {c off : Nat} (hc : c < 2312) (ho : off < 0x1000000) :
    (m.faultNoted c).reg (coreReg c off) = (m.count (coreReg c CORE_SCHED_FAULT_CNT)).reg (coreReg c off) := by
  have hne := coreReg_notMem_reportRegs hc ho
  simp only [reportRegs, List.mem_cons, not_or] at hne
  obtain ⟨h1, h2, h3, h4, -, -⟩ := hne
  exact M.errorClass_reg _ _ _ _ _ _ (by simp [h1, h2, h3, h4])

/-- What a schedule fault leaves, against the capture alone: the core stopped, its registers but the fault's count, and the step
in error. -/
theorem M.schedFault_leaves (m : M) (c cause engine tag : Nat) (fromCc : Bool) (words : Nat) (hc : c < 2312) (hw : noneWaits m) :
    let n := m.schedFault c cause engine tag fromCc words
    let p := m.captureFault c cause engine tag fromCc words
    n.core c = (m.core c).faultStop ∧
      (∀ off, off < 0x1000000 → n.reg (coreReg c off) = (p.count (coreReg c CORE_SCHED_FAULT_CNT)).reg (coreReg c off)) ∧
      ∀ x, m.die.step = some x → n.die.step = some { x with error := true, schedFault := true } := by
  obtain ⟨hn, hl, hcore, hstep, hregs⟩ := m.stopped_leaves c cause engine tag fromCc words hw
  intro n p
  obtain ⟨hn', hl'⟩ := M.faultNoted_quiet c hn hl
  obtain ⟨hacore, hareg, hastep⟩ := M.abortStep_leaves _ c hn' hl' (by rw [M.faultNoted_core, hcore]; rfl)
  refine ⟨?_, fun off ho => ?_, fun x hx => ?_⟩
  · exact hacore.trans ((M.faultNoted_core _ _ _).trans hcore)
  · refine (hareg _ (coreReg_ne_of_ge hc ho (by decide))).trans ?_
    rw [M.faultNoted_coreReg _ hc ho, M.reg_count, M.reg_count, hregs, hregs]
  · exact hastep x ((M.faultNoted_step _ _).trans (hstep.trans hx))

/-- A schedule fault of a core leaves what the statements name as `faulted` (R95 to R97, Table 2.14). -/
theorem schedFault_faulted (m : M) (c cause engine tag : Nat) (fromCc : Bool) (words : Nat) (hc : c < 2312)
    (hw : noneWaits m) (hcause : cause < 16) (hengine : engine < 4) (htag : tag < 65536) :
    faulted m (m.schedFault c cause engine tag fromCc words) c cause engine tag fromCc words := by
  obtain ⟨hcore, hreg, hstep⟩ := m.schedFault_leaves c cause engine tag fromCc words hc hw
  have hcapt : ∀ off, off < 0x1000000 → CORE_SCHED_FAULT_CNT ≠ off →
      (m.schedFault c cause engine tag fromCc words).reg (coreReg c off) =
        (m.captureFault c cause engine tag fromCc words).reg (coreReg c off) := by
    intro off ho hne
    rw [hreg off ho, M.reg_count, if_neg (coreReg_ne ho (by decide) hne.symm)]
  refine ⟨by rw [hcore]; rfl, by rw [hcore]; rfl, by rw [hcore]; rfl, ?_, fun hv => ?_, fun x hx => ⟨_, hstep x hx, rfl, rfl⟩⟩
  · rw [M.regN, hreg _ (by decide), ← M.regN, M.regN_count, M.regN, M.captureFault_reg, ← M.regN]
    simp [captureRegs, coreReg, CORE_SCHED_FAULT, CORE_FAULT_CMD, CORE_SCHED_FAULT_CNT]
  · obtain ⟨h63, h3, h5, h6, h31, hwords⟩ := m.captureFault_captures c cause engine tag fromCc words hcause hengine htag hv
    have hword := hcapt CORE_SCHED_FAULT (by decide) (by decide)
    refine ⟨?_, ?_, ?_, ?_, ?_, fun i hi => ?_⟩
    · rwa [M.flag, hword]
    · rwa [M.fld, hword]
    · rwa [M.fld, hword]
    · rwa [M.flag, hword]
    · rwa [M.fld, hword]
    · have hadd : coreReg c CORE_FAULT_CMD + 8 * i = coreReg c (CORE_FAULT_CMD + 8 * i) := Nat.add_assoc _ _ _
      rw [← hwords i hi, M.regN, M.regN, hadd, hcapt]
      · simp only [CORE_FAULT_CMD]; omega
      · simp only [CORE_FAULT_CMD, CORE_SCHED_FAULT_CNT]; omega

end Sys2Proof.Machine

/-! ## The control core's fetch and decoder (R94, R642, Table 2.9) -/

namespace Sys2Proof.Machine

theorem bits_eq_div_mod (n hi lo : Nat) : bits n hi lo = n / 2 ^ lo % 2 ^ (hi + 1 - lo) := by
  rw [bits, Nat.shiftRight_eq_div_pow]

theorem testBit_of_div {n i : Nat} {b : Bool} (h : n / 2 ^ i % 2 = bit b) : n.testBit i = b := by
  rw [Nat.testBit_eq_decide_div_mod_eq, h]
  cases b <;> rfl

theorem bit_le_one (b : Bool) : bit b ≤ 1 := by cases b <;> decide

/-! ### What a word of Table 2.9 decodes to -/

theorem decodeRv32_custom0 {w : Nat} (h : w % 128 = 0x0B) : decodeRv32 w = decodeCustom0 w := by
  have : bits w 6 0 = 0x0B := by rw [bits_eq_div_mod]; omega
  simp only [decodeRv32, this]

theorem decodeRv32_custom1 {w : Nat} (h : w % 128 = 0x2B) : decodeRv32 w = decodeCustom1 w := by
  have : bits w 6 0 = 0x2B := by rw [bits_eq_div_mod]; omega
  simp only [decodeRv32, this]

theorem decode_cpush {rs1 w : Nat} (hr : rs1 < 32) (hw : w = rs1 * 2 ^ 15 + 0x0B) : decodeRv32 w = some (.cpush rs1) := by
  have hf : bits w 14 12 = 0 ∧ bits w 31 20 = 0 ∧ bits w 11 7 = 0 ∧ bits w 19 15 = rs1 := by
    simp only [bits_eq_div_mod]; omega
  obtain ⟨h1, h2, h3, h4⟩ := hf
  rw [decodeRv32_custom0 (by omega)]
  simp [decodeCustom0, h1, h2, h3, h4]

theorem decode_ppatch {idx rs1 w : Nat} {high : Bool} (hi : idx < 256) (hr : rs1 < 32)
    (hw : w = idx * 2 ^ 24 + bit high * 2 ^ 20 + rs1 * 2 ^ 15 + 2 ^ 12 + 0x0B) : decodeRv32 w = some (.ppatch idx high rs1) := by
  have hb := bit_le_one high
  have hf : bits w 14 12 = 1 ∧ bits w 23 21 = 0 ∧ bits w 11 7 = 0 ∧ bits w 31 24 = idx ∧ bits w 19 15 = rs1 := by
    simp only [bits_eq_div_mod]; omega
  obtain ⟨h1, h2, h3, h4, h5⟩ := hf
  rw [decodeRv32_custom0 (by omega)]
  simp [decodeCustom0, h1, h2, h3, h4, h5, testBit_of_div (n := w) (i := 20) (b := high) (by omega)]

theorem decode_pset {mask w : Nat} {value : Bool} (hm : mask < 2 ^ 16)
    (hw : w = mask * 2 ^ 16 + bit value * 2 ^ 15 + 2 * 2 ^ 12 + 0x0B) : decodeRv32 w = some (.pset mask value) := by
  have hb := bit_le_one value
  have hf : bits w 14 12 = 2 ∧ bits w 11 7 = 0 ∧ bits w 31 16 = mask := by
    simp only [bits_eq_div_mod]; omega
  obtain ⟨h1, h2, h3⟩ := hf
  rw [decodeRv32_custom0 (by omega)]
  simp [decodeCustom0, h1, h2, h3, testBit_of_div (n := w) (i := 15) (b := value) (by omega)]

theorem decode_psetp {p idx b w : Nat} {n : Bool} (hp : p < 16) (hi : idx < 128) (hb : b < 64)
    (hw : w = idx * 2 ^ 25 + b * 2 ^ 19 + 3 * 2 ^ 12 + p * 2 ^ 8 + bit n * 2 ^ 7 + 0x0B) :
    decodeRv32 w = some (.psetp p idx b n) := by
  have hn := bit_le_one n
  have hf : bits w 14 12 = 3 ∧ bits w 18 15 = 0 ∧ bits w 11 8 = p ∧ bits w 31 25 = idx ∧ bits w 24 19 = b := by
    simp only [bits_eq_div_mod]; omega
  obtain ⟨h1, h2, h3, h4, h5⟩ := hf
  rw [decodeRv32_custom0 (by omega)]
  simp [decodeCustom0, h1, h2, h3, h4, h5, testBit_of_div (n := w) (i := 7) (b := n) (by omega)]

theorem decode_waitr {space rs1 rs2 w : Nat} (hs : space < 16) (h1 : rs1 < 32) (h2 : rs2 < 32)
    (hw : w = space * 2 ^ 28 + rs2 * 2 ^ 20 + rs1 * 2 ^ 15 + 0x2B) : decodeRv32 w = some (.waitr space rs1 rs2) := by
  have hf : bits w 14 12 = 0 ∧ bits w 27 25 = 0 ∧ bits w 11 7 = 0 ∧ bits w 31 28 = space ∧ bits w 19 15 = rs1 ∧
      bits w 24 20 = rs2 := by
    simp only [bits_eq_div_mod]; omega
  obtain ⟨h1, h2, h3, h4, h5, h6⟩ := hf
  rw [decodeRv32_custom1 (by omega)]
  simp [decodeCustom1, h1, h2, h3, h4, h5, h6]

theorem decode_farrive {f w : Nat} {b d e : Bool} (hf : f < 64)
    (hw : w = bit e * 2 ^ 28 + bit d * 2 ^ 27 + bit b * 2 ^ 26 + f * 2 ^ 20 + 2 ^ 12 + 0x2B) :
    decodeRv32 w = some (.farrive f b d e) := by
  have hb := bit_le_one b
  have hd := bit_le_one d
  have he := bit_le_one e
  have hf : bits w 14 12 = 1 ∧ bits w 31 29 = 0 ∧ bits w 19 15 = 0 ∧ bits w 11 7 = 0 ∧ bits w 25 20 = f := by
    simp only [bits_eq_div_mod]; omega
  obtain ⟨h1, h2, h3, h4, h5⟩ := hf
  rw [decodeRv32_custom1 (by omega)]
  simp [decodeCustom1, h1, h2, h3, h4, h5, testBit_of_div (n := w) (i := 26) (b := b) (by omega),
    testBit_of_div (n := w) (i := 27) (b := d) (by omega), testBit_of_div (n := w) (i := 28) (b := e) (by omega)]

theorem decode_ftrd {rd w : Nat} {high : Bool} (hr : rd < 32) (hw : w = bit high * 2 ^ 20 + 2 * 2 ^ 12 + rd * 2 ^ 7 + 0x2B) :
    decodeRv32 w = some (.ftrd rd high) := by
  have hb := bit_le_one high
  have hf : bits w 14 12 = 2 ∧ bits w 31 21 = 0 ∧ bits w 19 15 = 0 ∧ bits w 11 7 = rd := by
    simp only [bits_eq_div_mod]; omega
  obtain ⟨h1, h2, h3, h4⟩ := hf
  rw [decodeRv32_custom1 (by omega)]
  simp [decodeCustom1, h1, h2, h3, h4, testBit_of_div (n := w) (i := 20) (b := high) (by omega)]

/-- A non-negative immediate of 12 bits stands for itself. -/
theorem sext_of_lt {imm : Nat} (h : imm < 2048) : sext imm 12 = BitVec.ofNat 32 imm := by
  rw [sext, signed, Nat.mod_eq_of_lt (by omega), if_pos (by omega), BitVec.ofInt_natCast]

theorem decode_addi {rd rs1 imm w : Nat} (hd : rd < 32) (hr : rs1 < 32) (hi : imm < 2048)
    (hw : w = imm * 2 ^ 20 + rs1 * 2 ^ 15 + rd * 2 ^ 7 + 0x13) :
    decodeRv32 w = some (.aluImm 0 false rd rs1 (BitVec.ofNat 32 imm)) := by
  have hf : bits w 6 0 = 0x13 ∧ bits w 14 12 = 0 ∧ bits w 11 7 = rd ∧ bits w 19 15 = rs1 ∧ bits w 31 20 = imm := by
    simp only [bits_eq_div_mod]; omega
  obtain ⟨h1, h2, h3, h4, h5⟩ := hf
  simp [decodeRv32, h1, decodeOpImm, h2, h3, h4, h5, sext_of_lt hi]

/-! ### The fetch -/

/-- The low byte of a number read is the first byte. -/
theorem M.readN_mod (m : M) (a n : Nat) : m.readN a (n + 1) % 256 = (m.mem.byte a).toNat := by
  have hcons : m.mem.read a (n + 1) = m.mem.byte a :: (List.range n).map fun i => m.mem.byte (a + (i + 1)) := by
    simp [CMem.read_eq, List.range_succ_eq_map, Function.comp_def]
  rw [M.readN, hcons, ofBytes]
  have := (m.mem.byte a).isLt
  omega

/-- A control core that can execute runs the 32-bit word at its program counter, or faults where it spells nothing. -/
theorem M.ccInstruction_word {m : M} {c w : Nat} (hecc : m.die.ecc = []) (hready : (m.core c).ready = true)
    (hheld : m.groupHeld c = false) (hpc : (m.core c).pc + 4 ≤ 65536) (hw : m.readN (memAddr c 4 (m.core c).pc) 4 = w)
    (h3 : w % 4 = 3) :
    m.ccInstruction c = (decodeRv32 w).elim (m.malformedAt c w) (m.rvExec c 4 w) := by
  have hlow : m.readN (memAddr c 4 (m.core c).pc) 2 % 4 = 3 := by
    have h2 : m.readN (memAddr c 4 (m.core c).pc) 2 % 256 = _ := m.readN_mod _ 1
    have h4 : m.readN (memAddr c 4 (m.core c).pc) 4 % 256 = _ := m.readN_mod _ 3
    omega
  have hread : ∀ n, m.readMem c 4 (m.core c).pc n 0 = (m.read (memAddr c 4 (m.core c).pc) n, m) := fun n =>
    M.readMem_clean _ _ _ _ _ _ hecc
  have hbytes : ∀ n, ofBytes (m.read (memAddr c 4 (m.core c).pc) n) = m.readN (memAddr c 4 (m.core c).pc) n := fun n => rfl
  rw [M.ccInstruction]
  simp only [hheld, hready, hread, hbytes, hlow, hw]
  rw [if_neg (by simp), if_pos trivial, if_neg (by simp [isramSize]; omega), if_neg (by simp), if_neg (by simp [isramSize]; omega)]
  cases decodeRv32 w <;> rfl

/-! ### A malformed instruction -/

/-- A word that is no instruction faults as MALFORMED of the control core, with that word captured. -/
theorem malformedAt_faulted {m : M} {c : Nat} (word : Nat) (hc : c < 2312) (hw : noneWaits m) :
    faulted m (m.malformedAt c word) c MALFORMED 0 0 true word := by
  have hwaits := noneWaits_updCore hw c (fun k => { k with lastPc := k.pc }) rfl
  have h := schedFault_faulted (m.updCore c fun k => { k with lastPc := k.pc }) c MALFORMED 0 0 true word hc hwaits
    (by decide) (by decide) (by decide)
  refine faulted_congr ?_ ?_ ?_ ?_ ?_ h
  iterate 2 rw [M.core_updCore_same]
  all_goals rfl

/-- The instruction at the program counter, where a row of the command extension says what it does. -/
theorem controlCore_runs_row {s : State} {c w : Nat} {i : Rv} {f : M → M} (h : ccCanRun s c) (hpc : ((view s).core c).pc + 4 ≤ 65536)
    (hw : (view s).readN (memAddr c 4 ((view s).core c).pc) 4 = w) (h3 : w % 4 = 3) (hi : decodeRv32 w = some i)
    (hf : (view s).rvExec c 4 w i = f (view s)) : execControlCoreInstruction c s = ccRow c f s := by
  rw [ccRow_runs h]
  obtain ⟨hlive, -, hready, hheld, hecc⟩ := h
  rw [execControlCoreInstruction, onLive_eq _ _ hlive, M.ccInstruction_word hecc hready hheld hpc hw h3, hi]
  exact congrArg (fun n => Host.Outcome.next (put s n)) hf

end Sys2Proof.Machine

namespace Sys2Proof
open Machine

/-- Settles O29: the word at the program counter is decoded field by field, and a row of Table 2.9 is the same effect. -/
theorem controlCoreFetches : Obligations.ControlCoreFetches := by
  unfold Obligations.ControlCoreFetches
  intro s c w h hpc hw
  refine ⟨?_, ?_, ?_, ?_, ?_, ?_, ?_, ?_, ?_⟩
  · intro rs1 hr he
    exact controlCore_runs_row (f := (M.cpush · c rs1 (encCpush rs1))) h hpc hw (by omega) (decode_cpush hr he)
      (by rw [he]; rfl)
  · intro idx high rs1 hi hr he
    exact controlCore_runs_row (f := (M.ppatch · c idx high rs1 (encPpatch idx high rs1))) h hpc hw (by omega)
      (decode_ppatch hi hr he) (by rw [he]; rfl)
  · intro mask value hm he
    exact controlCore_runs_row (f := (M.pset · c mask value)) h hpc hw (by omega) (decode_pset hm he) rfl
  · intro p idx b n hp hi hb he
    exact controlCore_runs_row (f := (M.psetp · c p idx b n)) h hpc hw (by omega) (decode_psetp hp hi hb he) rfl
  · intro space rs1 rs2 hs h1 h2 he
    exact controlCore_runs_row (f := (M.waitr · c space rs1 rs2)) h hpc hw (by omega) (decode_waitr hs h1 h2 he) rfl
  · intro f b d e hf he
    exact controlCore_runs_row (f := (M.farrive · c f b d e)) h hpc hw (by omega) (decode_farrive hf he) rfl
  · intro rd high hr he
    exact controlCore_runs_row (f := (M.ftrd · c rd high)) h hpc hw (by omega) (decode_ftrd hr he) rfl
  · intro rd rs1 imm hd hr hi he
    obtain ⟨hlive, -, hready, hheld, hecc⟩ := h
    refine (onLive_eq (M.ccInstruction · c) s hlive).trans ?_
    rw [M.ccInstruction_word hecc hready hheld hpc hw (by omega), decode_addi hd hr hi he]
    rfl
  · intro h3 hnone hwaits
    obtain ⟨hlive, hc, hready, hheld, hecc⟩ := h
    refine ⟨(view s).malformedAt c w, ?_, malformedAt_faulted w hc hwaits⟩
    refine (onLive_eq (M.ccInstruction · c) s hlive).trans ?_
    rw [M.ccInstruction_word hecc hready hheld hpc hw h3, hnone]
    rfl

end Sys2Proof

/-! ## The checks at the head of a queue (R75, R76, R84) -/

namespace Sys2Proof.Machine

/-! ### The row of an engine's opcode -/

/-- An engine row evaluates the head of its queue. -/
theorem exec_engineRow {i : Instr} {c e opcode : Nat} {eng : Engine} (h : engineRow i = some (c, e, opcode, eng)) (s : State) :
    exec i s = execEngine c e opcode eng s := by
  unfold engineRow at h
  split at h <;> cases h <;> rfl

theorem runs_engineRow {i : Instr} {s : State} {c e opcode : Nat} {eng : Engine} {m : M}
    (h : engineRow i = some (c, e, opcode, eng)) (hlive : s.die.live = true) (hm : (view s).evaluate c e opcode eng = m) :
    runs i s m := by
  rw [runs, exec_engineRow h, execEngine, onLive_eq _ _ hlive, hm]

/-- The head of queue `e` is a command of engine `e`. -/
theorem cmdEngine_head {k : Core} {e : Nat} {q : Queued} (h : k.head e = some q) : cmdEngine q.cmd = e := by
  simpa using List.find?_some h

theorem cmdEngine_lt (cmd : Nat) : cmdEngine cmd < 4 := bits_lt _ _ _

theorem cmdTag_lt (cmd : Nat) : cmdTag cmd < 65536 := bits_lt _ _ _

/-- The head that no fence holds goes through the checks of R75 in their order. -/
theorem evaluate_head {s : State} {c e opcode : Nat} {o : OpSpec} {q : Queued} (h : headOf s c e o q) (ho : o.opcode = opcode)
    (eng : Engine) :
    (view s).evaluate c e opcode eng =
      if malformedWords q.cmd then (view s).cmdFault c MALFORMED q.cmd
      else if !(view s).predicate c q.cmd then ((view s).pop c e q.push).count (coreReg c CORE_PRED_SKIP_CNT)
      else (view s).checkAndIssue o q c eng := by
  obtain ⟨-, heng, hheld, hhead, hspec, hfence⟩ := h
  have hwff : (cmdWff q.cmd && ((view s).core c).arrival.isSome) = false := by
    cases hw : cmdWff q.cmd with
    | false => rfl
    | true => rw [hfence hw]; rfl
  rw [M.evaluate]
  simp [heng, hheld, hhead, hspec, ho, hwff]

/-- A schedule fault of the command at the head of queue `e`. -/
theorem cmdFault_faulted {m : M} {c e cause : Nat} {q : Queued} (hc : c < 2312) (hw : noneWaits m)
    (hhead : (m.core c).head e = some q) (hcause : cause < 16) :
    faulted m (m.cmdFault c cause q.cmd) c cause e (cmdTag q.cmd) false q.cmd := by
  rw [← cmdEngine_head hhead]
  exact schedFault_faulted m c cause _ _ false q.cmd hc hw hcause (cmdEngine_lt _) (cmdTag_lt _)

/-! ### A command skipped, and one held -/

/-- A skipped command leaves its queue and is counted; nothing else of the core changes but its waits (R76). -/
theorem M.pop_count_skips (m : M) (c e push : Nat) :
    let n := (m.pop c e push).count (coreReg c CORE_PRED_SKIP_CNT)
    (n.core c).queue = (m.core c).queue.filter (fun x => x.push != push) ∧ (n.core c).scoreboard = (m.core c).scoreboard ∧
      (n.core c).flights = (m.core c).flights ∧
      n.regN (coreReg c CORE_PRED_SKIP_CNT) = min (m.regN (coreReg c CORE_PRED_SKIP_CNT) + 1) counterMax ∧
      sameRegs m n [coreReg c CORE_PRED_SKIP_CNT] ∧ n.mem = m.mem := by
  intro n
  have hcore : n.core c = { m.core c with
      queue := (m.core c).queue.filter (fun x => x.push != push), waits := mapDel (m.core c).waits e } := by
    exact M.core_updCore_same m c fun k => { k with queue := k.queue.filter (fun q => q.push != push), waits := mapDel k.waits e }
  refine ⟨by rw [hcore], by rw [hcore], by rw [hcore], M.regN_count _ _, fun a ha => ?_, by simp [n, M.pop]⟩
  exact (M.reg_count _ _ _).trans (if_neg (by simpa using ha))

/-- A head that ranges hold changes nothing but a counter of the held cycle and its wait (R84). -/
theorem M.heldBy_holds (m : M) (c w : Nat) (l : List SbEntry) (lockstep : Nat) :
    let n := m.heldBy c w l lockstep
    (n.core c).queue = (m.core c).queue ∧ (n.core c).scoreboard = (m.core c).scoreboard ∧ n.mem = m.mem ∧
      sameRegs m n [coreReg c lockstep, coreReg c CORE_ELASTIC_WAIT_CYCLE_CNT] := by
  intro n
  have hn : n = _ := m.held_eq c w (heldCounter c l lockstep) (if l.any (·.elastic) then some true else none)
  rw [hn]
  refine ⟨by rw [M.core_updCore_same]; rfl, by rw [M.core_updCore_same]; rfl, rfl, fun a ha => ?_⟩
  have hne : a ≠ heldCounter c l lockstep := fun h => ha (h ▸ heldCounter_mem _ _ _)
  rw [M.reg_updCore, M.reg_count, if_neg hne]

/-! ### The checks of a command that runs (R53, R55, R75, R116) -/

/-- The checks past the predicate, one after another, of a command whose parameters read without a change. -/
theorem M.checkAndIssue_eq {m : M} {c : Nat} {o : OpSpec} {q : Queued} {eng : Engine} {ps : List Nat}
    (ht : tileCrossed (m.sterling c) q.cmd = false) (hps : m.readParams c (cmdPbase q.cmd) o.params = (ps, m)) :
    m.checkAndIssue o q c eng =
      if malformedParams o q.cmd ps then m.cmdFault c MALFORMED q.cmd
      else if accBeyond (m.sterling c) q.cmd then m.cmdFault c ACC_CAPACITY q.cmd
      else if !eng.shapeOk { c, push := q.push, cmd := q.cmd, ps } m then m.cmdFault c SHAPE q.cmd
      else m.issueOrHold { c, push := q.push, cmd := q.cmd, ps } eng := by
  rw [M.checkAndIssue, if_neg (by simp [ht]), hps]

/-- A command that ranges or a full scoreboard hold changes counters and waits alone (R75, R78, R80, R84). -/
theorem M.issueOrHold_holds {m : M} {j : Job} {eng : Engine}
    (h : (m.core j.c).hazards j.push j.cmd ≠ [] ∨ 48 < (m.core j.c).scoreboard.length + (cmdPresent j.push j.cmd).length) :
    let n := m.issueOrHold j eng
    (n.core j.c).queue = (m.core j.c).queue ∧ (n.core j.c).scoreboard = (m.core j.c).scoreboard ∧ n.mem = m.mem ∧
      sameRegs m n [coreReg j.c CORE_SB_STALL_CYCLE_CNT, coreReg j.c CORE_SB_FULL_CYCLE_CNT,
        coreReg j.c CORE_ELASTIC_WAIT_CYCLE_CNT] := by
  intro n
  have hheld : ∃ l lockstep, n = m.heldBy j.c (cmdEngine j.cmd) l lockstep ∧
      (lockstep = CORE_SB_STALL_CYCLE_CNT ∨ lockstep = CORE_SB_FULL_CYCLE_CNT) := by
    by_cases hz : (m.core j.c).hazards j.push j.cmd = []
    · have hfull : scoreboardSize < (m.core j.c).scoreboard.length + (cmdPresent j.push j.cmd).length :=
        h.resolve_left (not_not_intro hz)
      refine ⟨(m.core j.c).scoreboard, CORE_SB_FULL_CYCLE_CNT, ?_, .inr rfl⟩
      simp only [n, M.issueOrHold, hz, List.isEmpty_nil, Bool.not_true, Bool.false_eq_true, if_false, if_pos hfull]
    · exact ⟨_, _, if_pos (by simpa using hz), .inl rfl⟩
  obtain ⟨l, lockstep, hn, hl⟩ := hheld
  obtain ⟨hq, hs, hm, hr⟩ := m.heldBy_holds j.c (cmdEngine j.cmd) l lockstep
  rw [hn]
  refine ⟨hq, hs, hm, fun a ha => hr a ?_⟩
  rcases hl with rfl | rfl <;> simp_all

end Sys2Proof.Machine

namespace Sys2Proof
open Machine

/-- Settles O31: the evaluation of a head written as its checks one after another, each fault the model's schedule fault. -/
theorem headChecksInOrder : Obligations.HeadChecksInOrder := by
  unfold Obligations.HeadChecksInOrder
  intro i s c e opcode eng o q hrow ho h hc hw
  have heval := evaluate_head h ho eng
  obtain ⟨hlive, -, -, hhead, -, -⟩ := h
  have hfault : ∀ cause, cause < 16 → (view s).evaluate c e opcode eng = (view s).cmdFault c cause q.cmd →
      ∃ m, runs i s m ∧ faulted (view s) m c cause e (cmdTag q.cmd) false q.cmd := fun cause hcause he =>
    ⟨_, runs_engineRow hrow hlive he, cmdFault_faulted hc hw hhead hcause⟩
  refine ⟨fun hmal => ?_, fun hmal hpred => ?_, fun hmal hpred => ⟨fun htile => ?_, fun ps htile hps => ?_⟩⟩
  · exact hfault 1 (by decide) (by rw [heval, if_pos hmal])
  · rw [if_neg (by simp [hmal]), if_pos (by simp [hpred])] at heval
    exact ⟨_, runs_engineRow hrow hlive heval, M.pop_count_skips _ _ _ _⟩
  · rw [if_neg (by simp [hmal]), if_neg (by simp [hpred])] at heval
    exact hfault 1 (by decide) (by rw [heval, M.checkAndIssue, if_pos htile])
  · rw [if_neg (by simp [hmal]), if_neg (by simp [hpred]), M.checkAndIssue_eq htile hps] at heval
    refine ⟨fun hpar => ?_, fun hpar hacc => ?_, fun hpar hacc => ?_⟩
    · exact hfault 1 (by decide) (by rw [heval, if_pos hpar])
    · exact hfault 2 (by decide) (by rw [heval, if_neg (by simp [hpar]), if_pos hacc])
    · intro j
      rw [if_neg (by simp [hpar]), if_neg (by simp [hacc])] at heval
      refine ⟨fun hshape => ?_, fun hshape hholds => ?_⟩
      · exact hfault 3 (by decide) (heval.trans (if_pos (by rw [hshape]; rfl)))
      · rw [if_neg (by rw [hshape]; simp)] at heval
        exact ⟨_, runs_engineRow hrow hlive heval, M.issueOrHold_holds (j := j) hholds⟩

end Sys2Proof

/-! ## The end of commands and of waits (R58, R66, R81, R90, R95, R261) -/

namespace Sys2Proof.Machine

/-! ### A lockstep command's retirement (R81, R140, R205) -/

/-- From `v` to `m` core `c` keeps its queues and its scoreboard, and no access has begun to wait. -/
structure M.KeepsQueues (c : Nat) (v m : M) : Prop where
  waits : noneWaits v → noneWaits m
  queue : (m.core c).queue = (v.core c).queue
  scoreboard : (m.core c).scoreboard = (v.core c).scoreboard

theorem M.KeepsQueues.refl (c : Nat) (m : M) : M.KeepsQueues c m m := ⟨id, rfl, rfl⟩

theorem M.KeepsQueues.updCore {c : Nat} {v m : M} (h : M.KeepsQueues c v m) (f : Core → Core)
    (hw : (f (m.core c)).csWait = (m.core c).csWait) (hq : (f (m.core c)).queue = (m.core c).queue)
    (hs : (f (m.core c)).scoreboard = (m.core c).scoreboard) : M.KeepsQueues c v (m.updCore c f) where
  waits hv := noneWaits_updCore (h.waits hv) c f hw
  queue := by rw [M.core_updCore_same, hq, h.queue]
  scoreboard := by rw [M.core_updCore_same, hs, h.scoreboard]

/-- Bringing a flight up to date touches no queue, no scoreboard and no waiting access. -/
theorem M.settle_keepsQueues (m : M) (c : Nat) (f : Flight) : M.KeepsQueues c m (m.settle c f) := by
  have hwork : ∀ mem writes writeNo beats, M.KeepsQueues c m
      { m with mem, die.writes := writes, die.writeNo := writeNo, die.beats := beats } := fun _ _ _ _ => ⟨id, rfl, rfl⟩
  unfold M.settle
  split
  · split
    · refine M.KeepsQueues.updCore ?_ _ rfl rfl rfl
      split
      · exact (hwork _ _ _ _).updCore _ rfl rfl rfl
      · exact hwork _ _ _ _
    · exact .refl c m
  · exact .refl c m

/-- A flight whose reads nothing has overtaken is up to date. -/
theorem M.settle_current {m : M} {c : Nat} {f : Flight} (h : m.die.writes.any (m.overtakes c f) = false) : m.settle c f = m := by
  unfold M.settle
  split
  · rw [if_neg (by simp [h])]
  · rfl

/-- The retirement of a flight that has been brought up to date. -/
theorem M.commandRetire_eq {m : M} {c : Nat} {f : Flight} (heng : (m.core c).engines = true)
    (hf : (m.core c).flights.find? (fun x => x.push = f.push) = some f) (hl : cmdElastic f.cmd = false) (hh : m.groupHeld c = false) :
    m.commandRetire c f.push =
      let n := (m.settle c f).updCore c (Core.retire f.push)
      if ((((m.settle c f).core c).flights.find? fun x => x.push = f.push).map (·.fault)).getD false then n.cmdFault c SHAPE f.cmd
      else n := by
  rw [M.commandRetire]
  simp only [heng, hh, hf, hl, Bool.not_false, Bool.and_self, Bool.false_eq_true, if_false]

theorem commandRetire_held {m : M} {c push : Nat} (hh : m.groupHeld c = true) : m.commandRetire c push = m := by
  simp [M.commandRetire, hh]

/-- Retirement takes the command's ranges off the scoreboard, whether or not it faults (R81). -/
theorem M.commandRetire_leaves {m : M} {c : Nat} {f : Flight} (hc : c < 2312) (hw : noneWaits m) (heng : (m.core c).engines = true)
    (hf : (m.core c).flights.find? (fun x => x.push = f.push) = some f) (hl : cmdElastic f.cmd = false) (hh : m.groupHeld c = false) :
    ((m.commandRetire c f.push).core c).queue = (m.core c).queue ∧
      ((m.commandRetire c f.push).core c).scoreboard = (m.core c).scoreboard.filter (fun x => x.push != f.push) := by
  have hk := m.settle_keepsQueues c f
  have hw' : noneWaits ((m.settle c f).updCore c (Core.retire f.push)) := noneWaits_updCore (hk.waits hw) c _ rfl
  rw [M.commandRetire_eq heng hf hl hh]
  dsimp only
  split
  · obtain ⟨-, hq, hs, -⟩ := schedFault_faulted _ c SHAPE (cmdEngine f.cmd) (cmdTag f.cmd) false f.cmd hc hw' (by decide)
      (cmdEngine_lt _) (cmdTag_lt _)
    refine ⟨hq.trans ?_, hs.trans ?_⟩
    · rw [M.core_updCore_same, ← hk.queue]; rfl
    · rw [M.core_updCore_same, ← hk.scoreboard]; rfl
  · refine ⟨?_, ?_⟩
    · rw [M.core_updCore_same, ← hk.queue]; rfl
    · rw [M.core_updCore_same, ← hk.scoreboard]; rfl

/-- The retirement of a flight whose reads nothing has overtaken. -/
theorem M.commandRetire_current {m : M} {c : Nat} {f : Flight} (heng : (m.core c).engines = true)
    (hf : (m.core c).flights.find? (fun x => x.push = f.push) = some f) (hl : cmdElastic f.cmd = false) (hh : m.groupHeld c = false)
    (ho : m.die.writes.any (m.overtakes c f) = false) :
    m.commandRetire c f.push =
      if f.fault then (m.setCore c ((m.core c).retire f.push)).cmdFault c SHAPE f.cmd else m.setCore c ((m.core c).retire f.push) := by
  rw [M.commandRetire_eq heng hf hl hh, M.settle_current ho, hf]
  rfl

/-! ### An elastic command's completion (R58) -/

theorem M.elasticCompletion_eq {m : M} {c : Nat} {f : Flight} (heng : (m.core c).engines = true)
    (hf : (m.core c).flights.find? (fun x => x.push = f.push) = some f) (hl : cmdElastic f.cmd = true) :
    m.elasticCompletion c f.push =
      if f.owed.isEmpty then m.setCore c ((m.core c).retire f.push)
      else if takesAtIssue f.cmd then m.setCore c ((m.core c).taken f.push) else m := by
  rw [M.elasticCompletion]
  simp only [heng, hf, hl]
  rfl

/-! ### Waits past their limit (R90, R261) -/

/-- A fault that is met once fabric time has reached a limit, and with a free choice spent, is one of the state before. -/
theorem faulted_of_timer {v m w : M} {c cause engine tag words : Nat} {fromCc : Bool} (hcores : m.die.cores = v.die.cores)
    (hregs : m.die.regs = v.die.regs) (hstep : m.die.step = v.die.step) (h : faulted m w c cause engine tag fromCc words) :
    faulted v w c cause engine tag fromCc words := by
  have hcore : m.core c = v.core c := congrArg (mapGetD · c Core.fresh) hcores
  exact faulted_congr (by rw [hcore]) (by rw [hcore]) (M.reg_congr hregs _) (M.reg_congr hregs _) hstep h

theorem M.waitWatchdog_control {m : M} {c : Nat} {x : Wait} (heng : (m.core c).engines = true)
    (hx : (m.core c).oldestWait = some (4, x)) :
    m.waitWatchdog c = (m.reach (x.since + m.waitLimit c + 1)).ccFault c WAIT_WATCHDOG (m.readN (memAddr c 4 (m.core c).lastPc) 4) := by
  rw [M.waitWatchdog]
  simp only [heng, hx]
  rfl

theorem M.waitWatchdog_head {m : M} {c w : Nat} {x : Wait} {q : Queued} (heng : (m.core c).engines = true)
    (hx : (m.core c).oldestWait = some (w, x)) (hw : w < 4) (hq : (m.core c).head w = some q) :
    m.waitWatchdog c = (m.reach (x.since + m.waitLimit c + 1)).cmdFault c WAIT_WATCHDOG q.cmd := by
  rw [M.waitWatchdog]
  simp only [heng, hx, hq]
  exact if_neg (by omega)

theorem M.seqWatchdog_eq {m : M} {e c : Nat} {t : Step} {rest : List Nat} (ht : m.die.step = some t)
    (he : mapGet t.entries e = some .waiting) (hm : m.members e = c :: rest) :
    m.seqWatchdog e = ((m.reach (t.startFt + m.regN FMN_SEQ_WDOG)).spend.schedFault c WAIT_WATCHDOG (m.freeValue % 4)
      (m.freeValue / 4 % 65536) (m.freeValue.testBit 18) (m.freeValue / 2 ^ 19 % 2 ^ 256)) := by
  have hm' : (m.reach (t.startFt + m.regN FMN_SEQ_WDOG)).members e = c :: rest := hm
  rw [M.seqWatchdog, ht]
  simp only [he, if_true, hm']
  rfl

/-! ### The capture cleared (R95, R117) -/

/-- The accumulators of a core zeroed, and its engines' status with them (R117). -/
def M.accCleared (m : M) (c : Nat) : M :=
  (({ m.clearMem (memAddr c 2 0) (memSize 2) with
    die.ecc := m.die.ecc.filter fun p => decide (p.1 < memAddr c 2 0) || decide (memAddr c 2 0 + memSize 2 ≤ p.1) } : M).setFld
      (coreReg c CORE_MXE_STATUS) 39 32 0).setFld (coreReg c CORE_MXE_STATUS) 1 0 0

/-- The drain scales of a core set to 1.0 (R117). -/
def M.scalesSet (m : M) (c : Nat) : M :=
  (List.range 32).foldl (fun m i => m.setReg (coreReg c CORE_DSCALE + 8 * i) 0x3F8000003F800000) m

theorem M.clearEngines_eq (m : M) (c : Nat) :
    m.clearEngines c = ((m.accCleared c).scalesSet c).updCore c fun k => { k with tileK := [] } := rfl

theorem M.scalesSet_mem (m : M) (c : Nat) : (m.scalesSet c).mem = m.mem := by
  unfold M.scalesSet
  generalize List.range 32 = l
  refine foldl_keeps (fun m : M => m.mem) _ (fun m i => ?_) l m
  rfl

theorem M.scalesSet_cores (m : M) (c : Nat) : (m.scalesSet c).die.cores = m.die.cores := by
  unfold M.scalesSet
  generalize List.range 32 = l
  refine foldl_keeps (fun m : M => m.die.cores) _ (fun m i => ?_) l m
  rfl

theorem M.scalesSet_reg (m : M) (c : Nat) {off : Nat} (h : off < CORE_DSCALE) :
    (m.scalesSet c).reg (coreReg c off) = m.reg (coreReg c off) := by
  unfold M.scalesSet
  generalize List.range 32 = l
  refine foldl_keeps (fun m : M => m.reg (coreReg c off)) _ (fun m i => ?_) l m
  rw [M.reg_setReg, if_neg]
  simp only [coreReg]
  omega

theorem M.accCleared_reg (m : M) (c : Nat) {off : Nat} (h : off < CORE_MXE_STATUS) :
    (m.accCleared c).reg (coreReg c off) = m.reg (coreReg c off) := by
  have hne : coreReg c off ≠ coreReg c CORE_MXE_STATUS := by simp only [coreReg]; omega
  rw [M.accCleared, M.reg_setFld, if_neg hne, M.reg_setFld, if_neg hne]
  rfl

/-- The engine state of R117: zero accumulators, no K counted, no plane valid, and no register changed but the engines'. -/
theorem M.clearEngines_leaves (m : M) (c : Nat) :
    let n := m.clearEngines c
    n.core c = { m.core c with tileK := [] } ∧ n.fld (coreReg c CORE_MXE_STATUS) 1 0 = 0 ∧
      (∀ off, off < 0x10000 → n.read (memAddr c 2 off) 1 = [0]) ∧
      ∀ off, off < CORE_MXE_STATUS → n.reg (coreReg c off) = m.reg (coreReg c off) := by
  intro n
  have hn : n = _ := m.clearEngines_eq c
  rw [hn]
  refine ⟨?_, ?_, fun off ho => ?_, fun off ho => ?_⟩
  · rw [M.core_updCore_same, show ((m.accCleared c).scalesSet c).core c = m.core c from
      congrArg (mapGetD · c Core.fresh) (M.scalesSet_cores _ _)]
  · rw [M.fld, M.reg_updCore, M.scalesSet_reg _ _ (by decide), ← M.fld, M.accCleared, M.fld_setFld_same _ _ _ _ _ (by decide) (by decide)]
    rfl
  · rw [M.read_one, M.updCore_mem, M.scalesSet_mem]
    refine congrArg (· :: []) ((CMem.byte_clear m.mem _ _ _).trans (if_pos ?_))
    rw [memAddr_add c 2 off]
    exact ⟨Nat.le_add_right _ _, Nat.add_lt_add_left ho _⟩
  · rw [M.reg_updCore, M.scalesSet_reg _ _ (ho.trans (by decide)), M.accCleared_reg _ _ ho]

/-- Clearing the capture of a FAULTED core empties it and zeroes its engines (R95). -/
theorem M.clearSchedFault_leaves {m : M} {c : Nat} (hv : m.flag (coreReg c CORE_SCHED_FAULT) 63 = true) (hs : (m.core c).st = .faulted) :
    let n := m.clearSchedFault c
    n.flag (coreReg c CORE_SCHED_FAULT) 63 = false ∧ n.core c = { (m.core c).stopped (m.restSt c) with tileK := [] } ∧
      n.fld (coreReg c CORE_MXE_STATUS) 1 0 = 0 ∧ ∀ off, off < 0x10000 → n.read (memAddr c 2 off) 1 = [0] := by
  intro n
  set p := m.setFld (coreReg c CORE_SCHED_FAULT) 63 63 0 with hp
  have hcore : p.core c = m.core c := rfl
  have hrest : p.restSt c = m.restSt c := by
    rw [M.restSt, M.restSt, M.flag, M.flag, hp, M.reg_setFld, if_neg (coreReg_ne (by decide) (by decide) (by decide))]
  have hn : n = (p.updCore c (Core.stopped (p.restSt c))).clearEngines c := by
    simp only [n, M.clearSchedFault, hv, hs, ← hp, hcore]
    rfl
  obtain ⟨hc, hf, hz, hr⟩ := (p.updCore c (Core.stopped (p.restSt c))).clearEngines_leaves c
  rw [hn]
  refine ⟨?_, by rw [hc, M.core_updCore_same, hcore, hrest], hf, hz⟩
  rw [M.flag, hr _ (by decide), M.reg_updCore, ← M.flag, hp, M.flag_setFld _ _ _ _ _ _ _ (by decide) (by decide)]
  simp

theorem M.clearSchedFault_none {m : M} {c : Nat} (hv : m.flag (coreReg c CORE_SCHED_FAULT) 63 = false) : m.clearSchedFault c = m := by
  simp [M.clearSchedFault, hv]

/-! ### A firmware write of a parameter register (R66) -/

theorem localMemory_param {idx : Nat} (h : idx < 256) : localMemory (memLocal 5 + 8 * idx) = some (5, 8 * idx) := by
  simp only [localMemory, List.findSome?_cons, memLocal, memSize]
  rw [if_neg (by omega), if_neg (by omega), if_neg (by omega), if_neg (by omega), if_neg (by omega), if_pos (by omega)]
  simp only [Nat.add_sub_cancel_left]

theorem accessOk_param (idx : Nat) : accessOk 8 (memLocal 5 + 8 * idx) = true := by
  simp only [accessOk, memLocal, Bool.and_eq_true, beq_iff_eq]
  exact ⟨by decide, by omega⟩

/-- A write of a parameter register: ignored at a RETIRED core, dropped and counted during a step of the core, done otherwise. -/
theorem M.paramRegisterWrite_eq {m : M} {c idx : Nat} (value : Word) (hi : idx < 256) (hecc : m.die.ecc = [])
    (hinj : m.flag (injectReg c 5) 0 = false) :
    m.csLocal .foreman c (memLocal 5 + 8 * idx) 8 true value =
      if (m.core c).st = .retired then m
      else if (m.core c).st = .running ∨ m.inUse c = true then m.count (coreReg c CORE_PARAM_WR_DROP_CNT)
      else m.write (memAddr c 5 (8 * idx)) (toBytes 8 value.toNat) := by
  by_cases hr : (m.core c).st = .retired
  · rw [if_pos hr, M.csLocal, if_pos hr]
    rfl
  · rw [if_neg hr, M.csLocal_permitted m _ c _ 8 5 (8 * idx) true value hr (accessOk_param idx) (localMemory_param hi) rfl]
    have hserve := m.csServe_write c 5 (csAccess .foreman (8 * idx) 8 true value) rfl
      (csAccess_data _ _ _ _ value (accessOk_param idx)) hecc (.inl (by decide)) hinj
    simp only [M.csMemory, if_true, M.paramWrite, Bool.or_eq_true, decide_eq_true_eq, hserve]
    rfl

end Sys2Proof.Machine

namespace Sys2Proof
open Machine

/-- A write of a parameter register on its way over the Shaft and at its core (R66, R233). -/
theorem parameterRegisterWrite_runs {s : State} {c idx : Nat} (value : Word) (hlive : s.die.live = true) (hecc : s.die.ecc = [])
    (hi : idx < 256) (hinj : (view s).flag (injectReg c 5) 0 = false) :
    ∃ m, runs (.parameterRegisterWrite c idx value) s m ∧
      (((view s).core c).st = .running ∨ (((view s).core c).st ≠ .retired ∧ (view s).inUse c = true) → m.mem = (view s).mem ∧
        m.regN (coreReg c CORE_PARAM_WR_DROP_CNT) = min ((view s).regN (coreReg c CORE_PARAM_WR_DROP_CNT) + 1) counterMax ∧
        sameButPorts (view s) m [coreReg c CORE_PARAM_WR_DROP_CNT]) ∧
      (((view s).core c).st = .retired → m.mem = (view s).mem ∧ sameButPorts (view s) m []) ∧
      (((view s).core c).st ≠ .running → ((view s).core c).st ≠ .retired → (view s).inUse c = false →
        m.mem = ((view s).writeN (memAddr c 5 (8 * idx)) 8 value.toNat).mem ∧ sameButPorts (view s) m []) := by
  obtain ⟨hmem, hcores, -, hstep, hecc', hregs⟩ := (view s).arrivesAs_elasticPath c 34
  set p := (view s).elasticPath c 34 with hp
  have hcore : p.core c = (view s).core c := congrArg (mapGetD · c Core.fresh) hcores
  have huse : p.inUse c = (view s).inUse c := by rw [M.inUse, M.inUse, hstep]
  have hinj' : p.flag (injectReg c 5) 0 = false := by
    rw [M.flag, hregs _ (by simp) (not_portCounter_injectReg c (by decide)), ← M.flag, hinj]
  have hdrop : p.regN (coreReg c CORE_PARAM_WR_DROP_CNT) = (view s).regN (coreReg c CORE_PARAM_WR_DROP_CNT) :=
    congrArg BitVec.toNat (hregs _ (by simp) (not_portCounter_coreReg c (by decide) (by decide)))
  have heq := M.paramRegisterWrite_eq value hi (hecc'.trans hecc) hinj'
  rw [hcore, huse] at heq
  have hrun : runs (.parameterRegisterWrite c idx value) s (p.csLocal .foreman c (memLocal 5 + 8 * idx) 8 true value) :=
    onLive_eq (fun m => (m.elasticPath c 34).csLocal .foreman c (memLocal 5 + 8 * idx) 8 true value) s hlive
  rw [heq] at hrun
  refine ⟨_, hrun, fun hdropped => ?_, fun hret => ?_, fun hidle hret hfree => ?_⟩
  · have hret : ((view s).core c).st ≠ .retired := by
      rcases hdropped with h | h
      · rw [h]; decide
      · exact h.1
    have hnot : ((view s).core c).st = .running ∨ (view s).inUse c = true := hdropped.imp_right And.right
    rw [if_neg hret, if_pos hnot]
    refine ⟨hmem, by rw [M.regN_count, hdrop], fun a ha hport => ?_⟩
    rw [M.reg_count, if_neg (by simpa using ha), hregs a (by simp) hport]
  · rw [if_pos hret]
    exact ⟨hmem, hregs⟩
  · rw [if_neg hret, if_neg (by simp [hidle, hfree])]
    exact ⟨congrArg (CMem.write · _ _) hmem, hregs⟩

/-- Settles O33: each end of a command or of a wait is the model's own, its faults by `schedFault_faulted`. -/
theorem commandsAndWaitsEnd : Obligations.CommandsAndWaitsEnd := by
  unfold Obligations.CommandsAndWaitsEnd
  intro s c hlive hw hecc hc v k
  refine ⟨fun f heng hf hl => ⟨fun hh => ?_, fun hh => ⟨?_, fun ho => ⟨fun hff => ?_, fun hff => ?_⟩⟩⟩, fun f heng hf hl => ?_,
    fun x heng hx => ?_, fun w x q heng hx hw4 hq => ?_, fun e t rest ht he hm => ?_, fun hv hs => ?_, fun hv => ?_,
    fun idx value hi hinj => parameterRegisterWrite_runs value hlive hecc hi hinj⟩
  · exact (onLive_eq (M.commandRetire · c f.push) s hlive).trans (by rw [commandRetire_held hh])
  · exact ⟨_, onLive_eq (M.commandRetire · c f.push) s hlive, M.commandRetire_leaves hc hw heng hf hl hh⟩
  · exact (onLive_eq (M.commandRetire · c f.push) s hlive).trans (by rw [M.commandRetire_current heng hf hl hh ho, hff]; rfl)
  · refine ⟨_, onLive_eq (M.commandRetire · c f.push) s hlive, ?_⟩
    rw [M.commandRetire_current heng hf hl hh ho, if_pos hff]
    exact schedFault_faulted _ c SHAPE _ _ false _ hc (noneWaits_updCore hw c (Core.retire f.push) rfl) (by decide)
      (cmdEngine_lt _) (cmdTag_lt _)
  · exact (onLive_eq (M.elasticCompletion · c f.push) s hlive).trans (by rw [M.elasticCompletion_eq heng hf hl])
  · refine ⟨_, onLive_eq (M.waitWatchdog · c) s hlive, ?_⟩
    rw [M.waitWatchdog_control heng hx]
    exact faulted_of_timer (m := v.reach _) rfl rfl rfl
      (schedFault_faulted _ c WAIT_WATCHDOG 0 0 true _ hc hw (by decide) (by decide) (by decide))
  · refine ⟨_, onLive_eq (M.waitWatchdog · c) s hlive, ?_⟩
    rw [M.waitWatchdog_head heng hx hw4 hq]
    exact faulted_of_timer (m := v.reach _) rfl rfl rfl (cmdFault_faulted (m := v.reach _) hc hw hq (by decide))
  · have hrun : runs (.seqWatchdog e) s (v.seqWatchdog e) := onLive_eq (M.seqWatchdog · e) s hlive
    rw [M.seqWatchdog_eq ht he hm] at hrun
    refine ⟨_, v.freeValue % 4, v.freeValue / 4 % 65536, v.freeValue.testBit 18, v.freeValue / 2 ^ 19 % 2 ^ 256, hrun, ?_⟩
    exact faulted_of_timer (m := (v.reach _).spend) rfl rfl rfl
      (schedFault_faulted _ c WAIT_WATCHDOG _ _ _ _ hc hw (by decide) (Nat.mod_lt _ (by decide)) (Nat.mod_lt _ (by decide)))
  · obtain ⟨hf, hcore, hst, hz⟩ := M.clearSchedFault_leaves hv hs
    exact ⟨_, onLive_eq (M.clearSchedFault · c) s hlive, hf, by rw [hcore]; rfl, by rw [hcore]; rfl, by rw [hcore]; rfl,
      by rw [hcore], hst, hz⟩
  · exact (onLive_eq (M.clearSchedFault · c) s hlive).trans (by rw [M.clearSchedFault_none hv])

end Sys2Proof

/-! ## A command's issue (R75, R81, R202, R205) -/

namespace Sys2Proof.Machine

/-! ### The counter of issues -/

theorem issueReg_eq (j : Job) : issueReg j = coreReg j.c (CORE_ENG_ISSUE_CNT + 8 * cmdEngine j.cmd) := Nat.add_assoc _ _ _

theorem not_portCounter_issueReg (j : Job) : ¬ portCounter (issueReg j) := by
  have he := cmdEngine_lt j.cmd
  rw [issueReg_eq]
  refine not_portCounter_coreReg j.c (by simp only [CORE_ENG_ISSUE_CNT]; omega) ?_
  simp only [List.mem_cons, List.not_mem_nil, or_false, CORE_ENG_ISSUE_CNT, CORE_BANK_COLLIDE_CNT, CORE_SCRUB_COLLIDE_CNT,
    CORE_CC_BANK_WAIT_CYCLE_CNT, CORE_ELASTIC_BANK_WAIT_CYCLE_CNT]
  omega

/-! ### A command that leaves its queue -/

/-- A command off its queue, its issue counted, on the scoreboard and in flight, before its accesses take their ports. -/
def M.queued (m : M) (j : Job) : M :=
  ((m.pop j.c (cmdEngine j.cmd) j.push).count (coreReg j.c CORE_ENG_ISSUE_CNT + 8 * cmdEngine j.cmd)).updCore j.c fun k => { k with
    scoreboard := k.scoreboard ++ cmdEntries j.push j.cmd
    flights := k.flights ++ [{ push := j.push, cmd := j.cmd, params := j.ps, fault := false, owed := []
                               entry := m.entryOf j.c, issuedAt := m.schedCycle j.c }] }

/-- The accesses of a job at its issue. -/
def M.issueUses (m : M) (j : Job) (eng : Engine) : List RowUse := eng.uses j (m.queued j)

/-- A job at its issue, its accesses having taken their ports. -/
def M.atIssue (m : M) (j : Job) (eng : Engine) : M := (m.queued j).arbitrate j.c (m.issueUses j eng)

theorem M.core_queued (m : M) (j : Job) :
    (m.queued j).core j.c = { m.core j.c with
      queue := (m.core j.c).queue.filter fun q => q.push != j.push
      waits := mapDel (m.core j.c).waits (cmdEngine j.cmd)
      scoreboard := (m.core j.c).scoreboard ++ cmdEntries j.push j.cmd
      flights := (m.core j.c).flights ++ [{ push := j.push, cmd := j.cmd, params := j.ps, fault := false, owed := []
                                            entry := m.entryOf j.c, issuedAt := m.schedCycle j.c }] } := by
  have hpop : ((m.pop j.c (cmdEngine j.cmd) j.push).count (coreReg j.c CORE_ENG_ISSUE_CNT + 8 * cmdEngine j.cmd)).core j.c =
      { m.core j.c with
        queue := (m.core j.c).queue.filter fun q => q.push != j.push, waits := mapDel (m.core j.c).waits (cmdEngine j.cmd) } :=
    M.core_updCore_same m j.c fun k => { k with
      queue := k.queue.filter (fun q => q.push != j.push), waits := mapDel k.waits (cmdEngine j.cmd) }
  rw [M.queued, M.core_updCore_same, hpop]

theorem M.core_queued_ne (m : M) (j : Job) {d : Nat} (h : d ≠ j.c) : (m.queued j).core d = m.core d := by
  rw [M.queued, M.core_updCore_ne _ _ _ _ h]
  exact M.core_updCore_ne m j.c d (fun k => { k with
    queue := k.queue.filter (fun q => q.push != j.push), waits := mapDel k.waits (cmdEngine j.cmd) }) h

theorem M.reg_queued (m : M) (j : Job) (a : Nat) :
    (m.queued j).reg a = if a = issueReg j then satAdd (m.reg a) 1 else m.reg a := by
  rw [M.queued, M.reg_updCore, M.reg_count]
  change (if a = issueReg j then satAdd (m.reg (issueReg j)) 1 else m.reg a) = _
  by_cases h : a = issueReg j
  · rw [if_pos h, if_pos h, h]
  · rw [if_neg h, if_neg h]

/-- The statement's account of a command at issue, its accesses having taken their ports. -/
theorem M.issued_atIssue (m : M) (j : Job) (eng : Engine) : issued m (m.atIssue j eng) j := by
  have h := (m.queued j).portsMoved_arbitrate j.c (m.issueUses j eng)
  have hissue : (m.atIssue j eng).reg (issueReg j) = (m.queued j).reg (issueReg j) := h.reg (not_portCounter_issueReg j)
  refine ⟨?_, ?_, ?_, fun d hd => ?_, h.mem, h.ecc, h.writes, ?_, fun a ha hp => ?_⟩
  · refine (h.core_eq (fun k => k.queue) (fun _ => rfl) j.c).trans ?_
    rw [M.core_queued]
  · refine (h.core_eq (fun k => k.scoreboard) (fun _ => rfl) j.c).trans ?_
    rw [M.core_queued]
  · refine (h.core_eq (fun k => k.flights) (fun _ => rfl) j.c).trans ?_
    rw [M.core_queued]
  · rw [← m.core_queued_ne j hd]
    exact h.cores d
  · rw [M.regN, hissue, M.reg_queued, if_pos rfl, satAdd_toNat]
    rfl
  · rw [List.mem_singleton] at ha
    refine (h.reg hp).trans ?_
    rw [M.reg_queued, if_neg ha]

/-! ### The start of an engine's work -/

theorem M.rangeViolations_inside {m : M} {j : Job} (h : insideExtents j) : m.rangeViolations j = m := by
  have hno : ∀ i, 1 ≤ i → i ≤ 3 → ((cmdRange j.cmd i).present && decide ((cmdRange j.cmd i).space ≤ REMOTE) &&
      decide (spaceExtent (if (cmdRange j.cmd i).space = REMOTE then j.aux 19 16 else (cmdRange j.cmd i).space) <
        (cmdRange j.cmd i).base + (cmdRange j.cmd i).bytes)) = false := by
    intro i h1 h3
    rw [Bool.eq_false_iff]
    intro hviol
    simp only [Bool.and_eq_true, decide_eq_true_eq] at hviol
    obtain ⟨⟨hp, hs⟩, hext⟩ := hviol
    have := h i h1 h3 hp hs
    omega
  rw [M.rangeViolations]
  simp only [List.foldl_cons, List.foldl_nil, hno 1 (by decide) (by decide), hno 2 (by decide) (by decide),
    hno 3 (by decide) (by decide), Bool.false_eq_true, if_false]

theorem M.start_eq {m : M} {j : Job} (eng : Engine) (h : insideExtents j) :
    m.start j eng = engineWork m (m.atIssue j eng) j eng (m.issueUses j eng) := by
  have hstart : m.start j eng = (((((m.queued j).arbitrate j.c (m.issueUses j eng)).rangeViolations j).captureFirst j.c
      (m.issueUses j eng)).runTimed j eng (m.entryOf j.c) (m.schedCycle j.c) (m.issueUses j eng)).updFlight j.c j.push fun f =>
        { f with
          reads := timedReads j.c (m.schedCycle j.c) (m.issueUses j eng) ++ f.reads
          seen := (((((m.queued j).arbitrate j.c (m.issueUses j eng)).rangeViolations j).captureFirst j.c
            (m.issueUses j eng)).runTimed j eng (m.entryOf j.c) (m.schedCycle j.c) (m.issueUses j eng)).die.writeNo } := rfl
  rw [hstart, M.rangeViolations_inside h]
  rfl

/-- With no write recorded a read finds what stands. -/
theorem M.past_nil {m : M} {entry : Nat} {rs : List TimedRead} (h : m.die.writes = []) : m.past entry rs = [] := by
  simp [M.past, h]

/-- With no write recorded an engine's work is its effect, and then its writes are recorded. -/
theorem M.runTimed_fresh {m : M} {j : Job} {eng : Engine} {entry at_ : Nat} {us : List RowUse} (h : m.die.writes = []) :
    m.runTimed j eng entry at_ us = (us.filter (·.write)).foldl (fun r u =>
      r.noteWrite m j.c j.push entry (at_ + u.at_) (m.accessRank j.c u.mem u.unit) (memAddr j.c u.mem u.off) u.len) (eng.run j m) := by
  rw [M.runTimed, M.past_nil h]
  rfl

theorem M.captureFirst_clean {m : M} {c : Nat} {us : List RowUse} (h : m.die.ecc = []) : m.captureFirst c us = m := by
  rw [M.captureFirst, if_pos (by simp [h])]

/-- Outside a step no write is recorded (R205). -/
theorem M.noteWrite_outside {m : M} (before : M) (c push entry t rank a n : Nat) (h : m.die.step = none) :
    m.noteWrite before c push entry t rank a n = m := by
  rw [M.noteWrite, M.record, h]
  rfl

theorem M.runTimed_outside {m : M} {j : Job} {eng : Engine} {entry at_ : Nat} {us : List RowUse} (h : m.die.writes = [])
    (hs : (eng.run j m).die.step = none) : m.runTimed j eng entry at_ us = eng.run j m := by
  rw [M.runTimed_fresh h]
  exact List.foldlRecOn (motive := (· = eng.run j m)) _ _ rfl fun r hr u _ => by rw [hr, M.noteWrite_outside _ _ _ _ _ _ _ _ hs]

/-- The work of an engine whose accesses meet no write recorded and no codeword in error. -/
theorem engineWork_clean {v m : M} {j : Job} {eng : Engine} {us : List RowUse} (he : m.die.ecc = []) :
    engineWork v m j eng us = (m.runTimed j eng (v.entryOf j.c) (v.schedCycle j.c) us).updFlight j.c j.push fun f =>
      { f with
        reads := timedReads j.c (v.schedCycle j.c) us ++ f.reads
        seen := (m.runTimed j eng (v.entryOf j.c) (v.schedCycle j.c) us).die.writeNo } := by
  rw [engineWork, M.captureFirst_clean he]

/-! ### A head that issues -/

/-- A command whose checks pass and that nothing holds starts. -/
theorem M.issueOrHold_unheld {s : State} {j : Job} {eng : Engine} (h : unheld s j eng) :
    (view s).issueOrHold j eng = (view s).start j eng := by
  obtain ⟨hz, hroom, hhold, hta, htb⟩ := h
  rw [M.issueOrHold]
  simp only [hz, hhold, hta, htb, List.isEmpty_nil, Bool.not_true, Bool.false_eq_true, if_false, Bool.or_self]
  exact if_neg (Nat.not_lt.mpr hroom)

/-- A head that passes every check comes to the holds of its row. -/
theorem evaluate_passes {s : State} {c e opcode : Nat} {eng : Engine} {o : OpSpec} {q : Queued} {ps : List Nat}
    (h : headOf s c e o q) (ho : o.opcode = opcode) (hwords : malformedWords q.cmd = false)
    (hpred : (view s).predicate c q.cmd = true) (htile : tileCrossed ((view s).sterling c) q.cmd = false)
    (hps : (view s).readParams c (cmdPbase q.cmd) o.params = (ps, view s)) (hpar : malformedParams o q.cmd ps = false)
    (hacc : accBeyond ((view s).sterling c) q.cmd = false)
    (hshape : eng.shapeOk { c, push := q.push, cmd := q.cmd, ps } (view s) = true) :
    (view s).evaluate c e opcode eng = (view s).issueOrHold { c, push := q.push, cmd := q.cmd, ps } eng := by
  rw [evaluate_head h ho eng, if_neg (by simp [hwords]), if_neg (by simp [hpred]), M.checkAndIssue_eq htile hps,
    if_neg (by simp [hpar]), if_neg (by simp [hacc]), if_neg (by simp [hshape])]

/-- A head whose checks pass and that nothing holds: its evaluation is its start. -/
theorem evaluate_job {s : State} {j : Job} {e opcode : Nat} {eng : Engine} {o : OpSpec} (ho : o.opcode = opcode)
    (h : jobAt s j.c e o j) (hshape : eng.shapeOk j (view s) = true) (hu : unheld s j eng) (hin : insideExtents j) :
    (view s).evaluate j.c e opcode eng =
      engineWork (view s) ((view s).atIssue j eng) j eng ((view s).issueUses j eng) := by
  obtain ⟨hhead, hwords, hpred, htile, hps, hpar, hacc, -⟩ := h
  have hpass : (view s).evaluate j.c e opcode eng = (view s).issueOrHold j eng :=
    evaluate_passes hhead ho hwords hpred htile hps hpar hacc hshape
  rw [hpass, M.issueOrHold_unheld hu, M.start_eq eng hin]

end Sys2Proof.Machine

namespace Sys2Proof
open Machine

/-- Settles O30: a head that passes every check and every hold is its start, whose accesses move ports alone. -/
theorem enginesIssue : Obligations.EnginesIssue := by
  unfold Obligations.EnginesIssue
  intro i s e opcode eng o j hrow ho hjob hshape hu hin _
  have hlive : s.die.live = true := hjob.1.1
  have hissued := (view s).issued_atIssue j eng
  refine ⟨_, _, runs_engineRow hrow hlive (evaluate_job ho hjob hshape hu hin), hissued, fun hstep hwrites hecc => ?_⟩
  obtain ⟨-, -, -, -, -, he, hw, -, -⟩ := hissued
  rw [engineWork_clean (he.trans hecc), M.runTimed_outside (hw.trans hwrites) hstep]

end Sys2Proof

/-! ## What the statements about engines name as a command that issues -/

namespace Sys2Proof.Machine

/-! ### The row and the ranges of a job (Table 2.4, R55) -/

/-- The opcode-table row at the head is the row of its opcode. -/
theorem opSpec_row {e op : Nat} {o : OpSpec} (h : opSpec e op = some o) : opSpec e o.opcode = some o := by
  have hrow := List.find?_some h
  simp only [Bool.and_eq_true, beq_iff_eq] at hrow
  rw [hrow.2, h]

/-- A present range of a command whose words are well formed lies in a space its row allows, on a granule (R55). -/
theorem range_of_not_malformed {allowed : List Nat} {r : Range} (h : rangeMalformed allowed r = false) (hp : r.present = true) :
    r.space ∈ allowed ∧ r.base % 16 = 0 ∧ r.space < 9 := by
  simp only [rangeMalformed, Bool.or_eq_false_iff, decide_eq_false_iff_not, hp, Bool.true_and, Bool.not_eq_false',
    bne_eq_false_iff_eq, List.contains_iff_mem] at h
  obtain ⟨⟨h9, hin, hb⟩, -⟩ := h
  exact ⟨hin, hb, by omega⟩

/-- The three ranges of a job at the head. -/
theorem jobAt_ranges {s : State} {e : Nat} {o : OpSpec} {j : Job} (h : jobAt s j.c e o j) :
    rangeMalformed o.a j.a = false ∧ rangeMalformed o.b j.b = false ∧ rangeMalformed o.w j.w = false := by
  obtain ⟨⟨-, -, -, hhead, hspec, -⟩, hwords, -⟩ := h
  have he : cmdEngine j.cmd = e := cmdEngine_head hhead
  have hspec' : opSpec (cmdEngine j.cmd) (cmdOpcode j.cmd) = some o := he ▸ hspec
  simp only [malformedWords, hspec', Bool.or_eq_false_iff] at hwords
  obtain ⟨-, ⟨⟨⟨ha, hb⟩, hw⟩, -⟩, -⟩ := hwords
  exact ⟨ha, hb, hw⟩

theorem jobAt_spec {s : State} {e : Nat} {o : OpSpec} {j : Job} (h : jobAt s j.c e o j) : opSpec e o.opcode = some o := by
  obtain ⟨⟨-, -, -, -, hspec, -⟩, -⟩ := h
  exact opSpec_row hspec

/-- A present range of a job that is not REMOTE and no window lies inside its space (R54). -/
theorem insideExtents_range {j : Job} (h : insideExtents j) {i : Nat} (h1 : 1 ≤ i) (h3 : i ≤ 3)
    (hp : (cmdRange j.cmd i).present = true) (hs : (cmdRange j.cmd i).space < REMOTE) :
    (cmdRange j.cmd i).base + (cmdRange j.cmd i).bytes ≤ spaceExtent (cmdRange j.cmd i).space := by
  have := h i h1 h3 hp (Nat.le_of_lt hs)
  rwa [if_neg (Nat.ne_of_lt hs)] at this

theorem Range.bytes_of_absent {r : Range} (h : r.len = 0) : r.bytes = 0 := by rw [Range.bytes, h]

/-! ### The state at issue -/

/-- The state in which a job's engine works, against the one in which the job is at its head: the account of `issued`, and nothing
else of the die but registers, cores, uses and holds. -/
structure M.AtIssue (v m : M) (j : Job) : Prop where
  issued : issued v m j
  die : m.die.portless = v.die.portless

theorem M.atIssue_atIssue (m : M) (j : Job) (eng : Engine) : M.AtIssue m (m.atIssue j eng) j :=
  ⟨m.issued_atIssue j eng, ((m.queued j).portsMoved_arbitrate j.c (m.issueUses j eng)).die⟩

section
variable {v m : M} {j : Job} (h : M.AtIssue v m j)
include h

theorem M.AtIssue.mem : m.mem = v.mem := by obtain ⟨-, -, -, -, hm, -⟩ := h.issued; exact hm
theorem M.AtIssue.ecc : m.die.ecc = v.die.ecc := (congrArg Die.ecc h.die :)
theorem M.AtIssue.writes : m.die.writes = v.die.writes := (congrArg Die.writes h.die :)
theorem M.AtIssue.fmn : m.die.fmn = v.die.fmn := (congrArg Die.fmn h.die :)
theorem M.AtIssue.bursts : m.die.bursts = v.die.bursts := (congrArg Die.bursts h.die :)
theorem M.AtIssue.beats : m.die.beats = v.die.beats := (congrArg Die.beats h.die :)

theorem M.AtIssue.sameButPorts : Sys2Proof.sameButPorts v m [issueReg j] := by
  obtain ⟨-, -, -, -, -, -, -, -, hr⟩ := h.issued
  exact hr

theorem M.AtIssue.reg {a : Nat} (ha : a ≠ issueReg j) (hp : ¬ portCounter a) : m.reg a = v.reg a :=
  h.sameButPorts a (by simpa using ha) hp

theorem M.AtIssue.flag {a i : Nat} (ha : a ≠ issueReg j) (hp : ¬ portCounter a) : m.flag a i = v.flag a i := by
  rw [M.flag, h.reg ha hp, M.flag]

/-- The flight of the job stands among its core's. -/
theorem M.AtIssue.flight : ∃ f ∈ (m.core j.c).flights, f.push = j.push ∧ f.cmd = j.cmd := by
  obtain ⟨-, -, hf, -⟩ := h.issued
  exact ⟨_, by rw [hf]; exact List.mem_append_right _ (List.mem_singleton_self _), rfl, rfl⟩

end

/-- An injection register is no counter of issues. -/
theorem injectReg_ne_issueReg (c : Nat) (mem : Nat) (j : Job) : injectReg c mem ≠ issueReg j := by
  have he := cmdEngine_lt j.cmd
  rw [issueReg_eq, injectReg]
  split
  · exact (coreReg_ne_cluReg _ _ _ _ (by simp only [CORE_ENG_ISSUE_CNT]; omega) (by decide)).symm
  · refine coreReg_ne (by decide) (by simp only [CORE_ENG_ISSUE_CNT]; omega) ?_
    simp only [CORE_ENG_ISSUE_CNT, CORE_ECC_INJECT]
    omega

theorem not_portCounter_stopeInject (c : Nat) : ¬ portCounter (injectReg c 7) := by
  rw [injectReg, if_pos rfl]
  rintro ⟨x, h | h | h | h | h | h | h | h | h⟩
  iterate 4 exact coreReg_ne_cluReg _ _ _ _ (by decide) (by decide) h.symm
  all_goals
    simp only [cluReg, CLU_STOPE_ECC_INJECT, CLU_STOPE_COLLIDE_CNT, CLU_STOPE_ELASTIC_WAIT_CYCLE_CNT, SHAFT_LINK_COLLIDE_CNT,
      SHAFT_ELASTIC_WAIT_CYCLE_CNT, CLU_SLIP_CYCLE_CNT] at h
    omega

/-! ### Registers outside the cores and the sites -/

/-- A register outside the register blocks of cores and sites (R196). -/
abbrev outerReg (a : Nat) : Prop := a % 0x10000000 < 0xF000000

theorem outerReg.ne_coreReg {a : Nat} (h : outerReg a) (c : Nat) {off : Nat} (ho : off < 0x1000000) : a ≠ coreReg c off := by
  rintro rfl
  simp only [outerReg, coreReg, coreBase] at h
  omega

theorem outerReg.ne_cluReg {a : Nat} (h : outerReg a) (t : Nat) {off : Nat} (ho : off < 0x1000000) : a ≠ cluReg t off := by
  rintro rfl
  simp only [outerReg, cluReg] at h
  omega

theorem outerReg.not_portCounter {a : Nat} (h : outerReg a) : ¬ portCounter a := by
  rintro ⟨x, e | e | e | e | e | e | e | e | e⟩
  iterate 4 exact h.ne_coreReg x (by decide) e
  all_goals exact h.ne_cluReg x (by decide) e

theorem outerReg.ne_issueReg {a : Nat} (h : outerReg a) (j : Job) : a ≠ issueReg j := by
  have he := cmdEngine_lt j.cmd
  rw [issueReg_eq]
  exact h.ne_coreReg j.c (by simp only [CORE_ENG_ISSUE_CNT]; omega)

/-- A register outside the cores and the sites stands at issue as before. -/
theorem M.AtIssue.outer {v m : M} {j : Job} (h : M.AtIssue v m j) {a : Nat} (ha : outerReg a) : m.reg a = v.reg a :=
  h.reg (ha.ne_issueReg j) ha.not_portCounter

/-! ### A command that issues as the statements have it -/

/-- The run of a command that `issues`: its engine works on the state at issue, its writes are recorded after it, and its
flight keeps its reads. -/
theorem issues_runs {i : Instr} {s : State} {j : Job} {e op : Nat} {eng : Engine} (h : issues i s j)
    (hrow : engineRow i = some (j.c, e, op, eng)) :
    let m := (view s).atIssue j eng
    let us := (view s).issueUses j eng
    let r := (us.filter (·.write)).foldl (fun r u => r.noteWrite m j.c j.push ((view s).entryOf j.c) ((view s).schedCycle j.c + u.at_)
      (m.accessRank j.c u.mem u.unit) (memAddr j.c u.mem u.off) u.len) (eng.run j m)
    runs i s (r.updFlight j.c j.push fun f =>
      { f with reads := timedReads j.c ((view s).schedCycle j.c) us ++ f.reads, seen := r.die.writeNo }) := by
  obtain ⟨e', eng', o, hrow', hjob, hshape, hu, hin, -, hecc, hwrites, -⟩ := h
  rw [hrow] at hrow'
  cases hrow'
  intro m us r
  have hm := (view s).atIssue_atIssue j eng
  have hrun : runs i s (engineWork (view s) m j eng us) :=
    runs_engineRow hrow hjob.1.1 (evaluate_job rfl hjob hshape hu hin)
  rwa [engineWork_clean (hm.ecc.trans hecc), M.runTimed_fresh (hm.writes.trans hwrites)] at hrun

/-- What the statement's hypotheses on a command that issues say of its row, its ranges, its shape and its memories. -/
structure IssueFacts (s : State) (j : Job) (e op : Nat) (eng : Engine) (o : OpSpec) : Prop where
  spec : opSpec e op = some o
  a : rangeMalformed o.a j.a = false
  b : rangeMalformed o.b j.b = false
  w : rangeMalformed o.w j.w = false
  shape : eng.shapeOk j (view s) = true
  inside : insideExtents j
  ecc : (view s).die.ecc = []
  writes : (view s).die.writes = []
  inject : ∀ mem, (view s).flag (injectReg j.c mem) 0 = false

theorem issues_facts {i : Instr} {s : State} {j : Job} {e op : Nat} {eng : Engine} (h : issues i s j)
    (hrow : engineRow i = some (j.c, e, op, eng)) : ∃ o, IssueFacts s j e op eng o := by
  obtain ⟨e', eng', o, hrow', hjob, hshape, hu, hin, -, hecc, hwrites, h0, h7⟩ := h
  rw [hrow] at hrow'
  cases hrow'
  obtain ⟨ha, hb, hw⟩ := jobAt_ranges hjob
  refine ⟨o, jobAt_spec hjob, ha, hb, hw, hshape, hin, hecc, hwrites, fun mem => ?_⟩
  by_cases hm : mem = 7
  · rw [hm, h7]
  · rw [injectReg_core _ hm, ← injectReg_core j.c (show 0 ≠ 7 by decide), h0]

section
variable {s : State} {j : Job} {e op : Nat} {eng : Engine} {o : OpSpec} (h : IssueFacts s j e op eng o) {m : M}
  (hm : M.AtIssue (view s) m j)
include h hm

theorem IssueFacts.ecc_at : m.die.ecc = [] := hm.ecc.trans h.ecc
theorem IssueFacts.writes_at : m.die.writes = [] := hm.writes.trans h.writes

theorem IssueFacts.inject_at (mem : Nat) : m.flag (injectReg j.c mem) 0 = false := by
  rw [hm.flag (injectReg_ne_issueReg j.c mem j) ?_, h.inject]
  by_cases h7 : mem = 7
  · rw [h7]; exact not_portCounter_stopeInject j.c
  · exact not_portCounter_injectReg j.c h7

end

/-! ### The bytes of a range -/

theorem bytesIn_zero (m : M) (c space off : Nat) (h : m.die.ecc = []) : bytesIn m c space off 0 = [] := by
  rw [bytesIn, M.spaceRead]
  dsimp only
  split
  · rfl
  · rw [M.readMem_clean _ _ _ _ _ _ h, Nat.zero_min]
    rfl

theorem bytesIn_length (m : M) (c space off n : Nat) (h : m.die.ecc = []) : (bytesIn m c space off n).length = n := by
  rw [bytesIn, M.spaceRead]
  split
  · simp
  · dsimp only
    rw [M.readMem_clean _ _ _ _ _ _ h]
    simp [M.read]

theorem M.spaceWrite_nil (m : M) (c space off : Nat) : m.spaceWrite c space off [] = m := by
  rw [M.spaceWrite]
  split
  · rfl
  · rw [List.take_nil, M.writeMem, if_pos List.isEmpty_nil]

/-- Bytes written into a space are read back there. -/
theorem bytesIn_write (m : M) (c space off : Nat) (bs : Bytes) (h : m.die.ecc = []) (hs : space ≠ ACC)
    (hin : off + bs.length ≤ spaceExtent space) :
    bytesIn (m.write (memAddr c (spaceMem space) off) bs) c space off bs.length = bs := by
  rw [bytesIn_inside (m.write (memAddr c (spaceMem space) off) bs) c space off bs.length h hs hin]
  exact CMem.read_write_same _ _ _

end Sys2Proof.Machine

/-! ## Elastic commands at their issue (R58, R284, R294, R452, R455, R537, R650) -/

namespace Sys2Proof.Machine

/-! ### Elastic traffic takes ports alone (R204, R233) -/

theorem M.portsMoved_elasticPath (m : M) (c way : Nat) : M.PortsMoved m (m.elasticPath c way) := by
  unfold M.elasticPath
  split
  · exact .refl m
  · exact M.PortsMoved.foldl_snd (fun x a =>
      (M.portsMoved_noteUse _ _).trans (M.portsMoved_countBy _ (portCounter_waitCounter _) _)) _ (_, m)

theorem M.portsMoved_elasticRows (m : M) (c space off n : Nat) (write : Bool) :
    M.PortsMoved m (m.elasticRows c space off n write) := by
  unfold M.elasticRows
  refine M.PortsMoved.foldl_snd (fun x a => ?_) _ (_, m)
  dsimp only
  split
  · exact .refl _
  · exact (M.portsMoved_noteUse _ _).trans (M.portsMoved_countBy _ (portCounter_waitCounter _) _)

/-- Ports that move leave a command at its issue. -/
theorem M.AtIssue.moved {v m n : M} {j : Job} (h : M.AtIssue v m j) (hn : M.PortsMoved m n) : M.AtIssue v n j := by
  obtain ⟨hq, hs, hf, hd, hm, he, hw, hr, hb⟩ := h.issued
  refine ⟨⟨?_, ?_, ?_, fun d hne => (hn.cores d).trans (hd d hne), hn.mem.trans hm, hn.ecc.trans he, hn.writes.trans hw, ?_,
    fun a ha hp => (hn.reg hp).trans (hb a ha hp)⟩, hn.die.trans h.die⟩
  · exact (hn.core_eq (fun k => k.queue) (fun _ => rfl) j.c).trans hq
  · exact (hn.core_eq (fun k => k.scoreboard) (fun _ => rfl) j.c).trans hs
  · exact (hn.core_eq (fun k => k.flights) (fun _ => rfl) j.c).trans hf
  · rw [M.regN, hn.reg (not_portCounter_issueReg j), ← M.regN, hr]

/-! ### State memory whose bursts hold no error -/

theorem M.stripedRead_clean (m : M) (f : Nat → Nat) (a n source : Nat) (h : m.die.bursts = []) :
    m.stripedRead f a n source = ((stripes a n).flatMap fun q => m.read (f (a + q.1)) q.2, m) := by
  have hstate : ∀ b k, m.stateRead b k source = (m.read b k, m) := fun b k => by
    rw [M.stateRead, M.noteBursts_clean _ _ _ _ h]
    simp [M.stored, M.badBursts, M.burstsIn, h]
  have hfold : ∀ (l : List (Nat × Nat)) bs, l.foldl (fun (x : Bytes × M) q =>
      ((x.1 ++ (x.2.stateRead (f (a + q.1)) q.2 source).1, (x.2.stateRead (f (a + q.1)) q.2 source).2) : Bytes × M)) (bs, m) =
        (bs ++ l.flatMap fun q => m.read (f (a + q.1)) q.2, m) := by
    intro l
    induction l with
    | nil => intro bs; simp
    | cons q l ih => intro bs; rw [List.foldl_cons, hstate, ih]; simp
  exact (hfold _ _).trans (by rw [List.nil_append])

/-- Bytes of a striped write put into a memory, stripe by stripe. -/
def stripedStore (mem : CMem) (f : Nat → Nat) (a : Nat) (bs : Bytes) : CMem :=
  (stripes a bs.length).foldl (fun mem q => mem.write (f (a + q.1)) ((bs.drop q.1).take q.2)) mem

theorem M.stripedWrite_clean (m : M) (f : Nat → Nat) (a : Nat) (bs : Bytes) (source : Nat) (h : m.die.bursts = []) :
    m.stripedWrite f a bs source = { m with mem := stripedStore m.mem f a bs } := by
  unfold M.stripedWrite stripedStore
  generalize stripes a bs.length = l
  induction l generalizing m with
  | nil => rfl
  | cons q l ih =>
    obtain ⟨o, k⟩ := q
    simp only [List.foldl_cons, M.stateWrite_clean _ _ _ _ h]
    exact ih _ h

/-- Whole pages and the rest of them make up a length. -/
theorem sum_pages (r k : Nat) : ((List.range k).map fun i => min pageSize (r - i * pageSize)).sum = min r (k * pageSize) := by
  induction k with
  | zero => simp
  | succ k ih =>
    rw [List.range_succ, List.map_append, List.sum_append, ih]
    simp only [List.map_cons, List.map_nil, List.sum_cons, List.sum_nil, pageSize]
    omega

theorem stripes_sum (a n : Nat) : ((stripes a n).map (·.2)).sum = n := by
  unfold stripes
  split
  · rename_i h
    rw [h]
    rfl
  · have hk : n - min n (pageSize - a % pageSize) ≤
        ceilDiv (n - min n (pageSize - a % pageSize)) pageSize * pageSize := by
      simp only [ceilDiv, pageSize]
      omega
    simp only [List.map_cons, List.map_map, List.sum_cons, Function.comp_def]
    rw [sum_pages, Nat.min_eq_left hk]
    omega

theorem M.stripedRead_length (m : M) (f : Nat → Nat) (a n source : Nat) (h : m.die.bursts = []) :
    (m.stripedRead f a n source).1.length = n := by
  rw [M.stripedRead_clean _ _ _ _ _ h, List.length_flatMap]
  simpa [M.read] using stripes_sum a n

/-! ### Host windows (R537, R650) -/

theorem M.hostWindow_congr {m n : M} (hf : m.die.fmn = n.die.fmn) (hr : m.reg (seamReg 0 SEAM_REGION) = n.reg (seamReg 0 SEAM_REGION))
    (w : Nat) (write : Bool) : m.hostWindow w write = n.hostWindow w write := by
  have hbase : ∀ k, m.recordBase k = n.recordBase k := fun k => by
    rw [M.recordBase, M.recordBase, M.journalHalf, M.journalHalf, M.journalPages, M.journalPages, M.fld, M.fld, hr]
  simp only [M.hostWindow, hf, hbase]

/-- A violation is counted, and captured in the registers of its core. -/
theorem M.violation_reg (m : M) (c req : Nat) (w : Bool) (space tag pc addr a : Nat)
    (h : a ∉ [coreReg c CORE_VIOL_CNT, coreReg c CORE_VIOL_CAP0, coreReg c CORE_VIOL_CAP1]) :
    (m.violation c req w space tag pc addr).reg a = m.reg a := by
  simp only [List.mem_cons, List.not_mem_nil, or_false, not_or] at h
  obtain ⟨h1, h2, h3⟩ := h
  simp only [M.violation]
  split
  · rw [M.reg_count, if_neg h1]
  · rw [M.reg_setReg, if_neg h3, M.reg_setReg, if_neg h2, M.reg_count, if_neg h1]

theorem M.violation_die (m : M) (c req : Nat) (w : Bool) (space tag pc addr : Nat) :
    ∃ regs, (m.violation c req w space tag pc addr) = { m with die.regs := regs } := by
  unfold M.violation
  dsimp only
  split
  · exact ⟨_, rfl⟩
  · exact ⟨_, rfl⟩

/-! ### A command without scheduled accesses -/

/-- A job's flight, once the writes recorded so far are seen by it. -/
def M.seenAt (m : M) (j : Job) : M := m.updFlight j.c j.push fun f => { f with seen := m.die.writeNo }

theorem M.seenAt_mem (m : M) (j : Job) : (m.seenAt j).mem = m.mem := rfl
theorem M.seenAt_ecc (m : M) (j : Job) : (m.seenAt j).die.ecc = m.die.ecc := rfl
theorem M.seenAt_reg (m : M) (j : Job) (a : Nat) : (m.seenAt j).reg a = m.reg a := rfl
theorem M.seenAt_regN (m : M) (j : Job) (a : Nat) : (m.seenAt j).regN a = m.regN a := rfl

/-- An elastic command works on the state at its issue, and its flight keeps what its engine makes of it. -/
theorem elastic_runs {i : Instr} {s : State} {j : Job} {e op : Nat} {eng : Engine} (h : issues i s j)
    (hrow : engineRow i = some (j.c, e, op, eng)) (hu : ∀ m, eng.uses j m = []) :
    ∃ m, M.AtIssue (view s) m j ∧ ∀ n, eng.run j m = n → runs i s (n.seenAt j) := by
  have hrun := issues_runs h hrow
  have hus : (view s).issueUses j eng = [] := hu _
  rw [hus] at hrun
  exact ⟨_, (view s).atIssue_atIssue j eng, fun n hn => hn ▸ hrun⟩

/-! ### Windows that a command moves bytes through -/

/-- A range that reaches beyond a window of no size is a violation, if it is present. -/
theorem M.windowViolation_none (m : M) (j : Job) (r : Range) (write : Bool) (hr : r.present = true) :
    m.windowViolation j r write 0 = m.violation j.c 2 write HOSTWIN j.tag 0 (max r.base 0) := by
  have hlen : 0 < r.bytes := by
    simp only [Range.present, Bool.and_eq_true, bne_iff_ne] at hr
    simp only [Range.bytes]
    omega
  rw [M.windowViolation, if_neg]
  simp only [hr, Bool.not_true, Bool.false_or, decide_eq_true_eq]
  omega

theorem M.windowViolation_inside (m : M) (j : Job) (r : Range) (write : Bool) {size : Nat} (h : r.base + r.bytes ≤ size) :
    m.windowViolation j r write size = m := by
  rw [M.windowViolation, if_pos (by simp [h])]

theorem M.windowViolation_absent (m : M) (j : Job) (r : Range) (write : Bool) (size : Nat) (h : r.present = false) :
    m.windowViolation j r write size = m := by
  rw [M.windowViolation, if_pos (by simp [h])]

theorem M.windowViolation_die (m : M) (j : Job) (r : Range) (write : Bool) (size : Nat) :
    ∃ regs, m.windowViolation j r write size = { m with die.regs := regs } := by
  unfold M.windowViolation
  split
  · exact ⟨m.die.regs, rfl⟩
  · exact M.violation_die _ _ _ _ _ _ _ _

theorem M.windowViolation_inject (m : M) (j : Job) (r : Range) (write : Bool) (size mem : Nat) :
    (m.windowViolation j r write size).flag (injectReg j.c mem) 0 = m.flag (injectReg j.c mem) 0 := by
  unfold M.windowViolation
  split
  · rfl
  · rw [M.flag, M.violation_reg, ← M.flag]
    simp only [List.mem_cons, List.not_mem_nil, or_false, not_or, injectReg]
    split
    · exact ⟨(coreReg_ne_cluReg _ _ _ _ (by decide) (by decide)).symm, (coreReg_ne_cluReg _ _ _ _ (by decide) (by decide)).symm,
        (coreReg_ne_cluReg _ _ _ _ (by decide) (by decide)).symm⟩
    · exact ⟨coreReg_ne (by decide) (by decide) (by decide), coreReg_ne (by decide) (by decide) (by decide),
        coreReg_ne (by decide) (by decide) (by decide)⟩

theorem not_portCounter_viol (c : Nat) : ¬ portCounter (coreReg c CORE_VIOL_CNT) := not_portCounter_coreReg c (by decide) (by decide)

theorem viol_ne_issueReg (j : Job) : coreReg j.c CORE_VIOL_CNT ≠ issueReg j := by
  have he := cmdEngine_lt j.cmd
  rw [issueReg_eq]
  refine coreReg_ne (by decide) (by simp only [CORE_ENG_ISSUE_CNT]; omega) ?_
  simp only [CORE_VIOL_CNT, CORE_ENG_ISSUE_CNT]
  omega

/-- A violation of a window that grants nothing is counted where the range is present, and only there. -/
theorem M.windowViolation_count {v m : M} {j : Job} (hm : m.reg (coreReg j.c CORE_VIOL_CNT) = v.reg (coreReg j.c CORE_VIOL_CNT))
    (r : Range) (write : Bool) :
    (r.present = true → (m.windowViolation j r write 0).regN (coreReg j.c CORE_VIOL_CNT) =
      min (v.regN (coreReg j.c CORE_VIOL_CNT) + 1) counterMax) ∧
    (r.present = false → (m.windowViolation j r write 0).reg (coreReg j.c CORE_VIOL_CNT) = v.reg (coreReg j.c CORE_VIOL_CNT)) := by
  refine ⟨fun hp => ?_, fun hp => ?_⟩
  · rw [M.windowViolation_none _ _ _ _ hp, M.violation_count, M.regN, hm, ← M.regN]
  · rw [M.windowViolation_absent _ _ _ _ _ hp, hm]

/-! ### DHOSTRD and DHOSTWR (R537, R650) -/

theorem dhostrd_space {o : OpSpec} (h : opSpec 2 7 = some o) : o.w = [SCRATCH, STOPE] := by
  cases h
  rfl

/-- Where the bytes of a write range go: inside a space that is neither Lode nor accumulator memory. -/
structure WriteRange (j : Job) : Prop where
  notAcc : j.w.space ≠ ACC
  notLode : spaceMem j.w.space ≠ 0
  inside : j.w.base + j.w.bytes ≤ spaceExtent j.w.space

/-- Bytes brought into the write range of a command stand there; an empty range takes none. -/
theorem M.spaceWrite_range {m : M} {j : Job} {bs : Bytes} (hbs : bs.length = j.w.bytes) (hw : j.w.len ≠ 0 → WriteRange j)
    (hecc : m.die.ecc = []) (hinj : m.flag (injectReg j.c (spaceMem j.w.space)) 0 = false) :
    (m.spaceWrite j.c j.w.space j.w.base bs).die = m.die ∧
      ∀ n : M, n.mem = (m.spaceWrite j.c j.w.space j.w.base bs).mem → n.die.ecc = [] →
        bytesIn n j.c j.w.space j.w.base j.w.bytes = bs := by
  by_cases h0 : j.w.len = 0
  · have hb : j.w.bytes = 0 := Range.bytes_of_absent h0
    have hnil : bs = [] := List.length_eq_zero_iff.mp (hbs.trans hb)
    rw [hnil, M.spaceWrite_nil, hb]
    exact ⟨rfl, fun n _ he => bytesIn_zero _ _ _ _ he⟩
  · obtain ⟨hacc, hlode, hin⟩ := hw h0
    have hne : bs ≠ [] := fun e => by
      rw [e] at hbs
      simp [Range.bytes] at hbs
      omega
    rw [M.spaceWrite_clean m _ _ _ bs hne hacc (by rw [hbs]; exact hin) hecc hlode hinj, ← hbs]
    refine ⟨rfl, fun n hn he => ?_⟩
    rw [bytesIn_congr hn he hecc hacc]
    exact bytesIn_write _ _ _ _ _ hecc hacc (by rw [hbs]; exact hin)

theorem dhost_writeRange {s : State} {j : Job} {eng : Engine} {o : OpSpec} {op : Nat} (h : IssueFacts s j 2 op eng o)
    (ho : o.w = [SCRATCH, STOPE]) (hp : j.w.present = true) : WriteRange j := by
  obtain ⟨hin, -, -⟩ := range_of_not_malformed h.w hp
  rw [ho] at hin
  have hext := insideExtents_range h.inside (i := 3) (by decide) (by decide) hp
  have hs : j.w.space = SCRATCH ∨ j.w.space = STOPE := by simpa using hin
  refine ⟨?_, ?_, hext ?_⟩
  · rcases hs with e | e <;> rw [e] <;> decide
  · rcases hs with e | e <;> rw [e] <;> decide
  · show j.w.space < REMOTE
    rcases hs with e | e <;> rw [e] <;> decide

/-- The two ranges of a DHOSTRD or DHOSTWR have one length, and bytes that move lie in present ones (R640, R650). -/
theorem dhostShape_ranges {j : Job} {m : M} (h : dhostShape j m = true) :
    j.a.bytes = j.w.bytes ∧ (j.w.len ≠ 0 → j.a.present = true ∧ j.w.present = true) := by
  simp only [dhostShape, Bool.and_eq_true, beq_iff_eq, Bool.or_eq_true] at h
  obtain ⟨hlen, hp⟩ := h
  exact ⟨by rw [Range.bytes, hlen, Range.bytes], fun h0 => hp.resolve_left fun e => h0 (hlen ▸ e)⟩

/-- The end of a DHOSTRD: its window's violation, its rows' ports, and its bytes in its write range. -/
def M.windowBrought (p : M) (j : Job) (size n : Nat) (bs : Bytes) : M :=
  ((p.windowViolation j j.a false size).elasticRows j.c j.w.space j.w.base n true).spaceWrite j.c j.w.space j.w.base bs

theorem M.windowBrought_leaves {s : State} {j : Job} {eng : Engine} {o : OpSpec} {p : M} {bs : Bytes}
    (h : IssueFacts s j 2 7 eng o) (hshape : dhostShape j (view s) = true) (hp : M.AtIssue (view s) p j)
    (hbs : bs.length = j.w.bytes) (size n : Nat) :
    let r := p.windowBrought j size n bs
    r.die.ecc = [] ∧ (∀ x : M, x.mem = r.mem → x.die.ecc = [] → bytesIn x j.c j.w.space j.w.base j.w.bytes = bs) ∧
      ∀ a, ¬ portCounter a → r.reg a = (p.windowViolation j j.a false size).reg a := by
  have hports := M.portsMoved_elasticRows (p.windowViolation j j.a false size) j.c j.w.space j.w.base n true
  have hecc : (p.windowViolation j j.a false size).die.ecc = [] := by
    obtain ⟨regs, he⟩ := p.windowViolation_die j j.a false size
    rw [he]
    exact (h.ecc_at hp : p.die.ecc = [])
  have hnot : ∀ mem, ¬ portCounter (injectReg j.c mem) := fun mem => by
    by_cases h7 : mem = 7
    · rw [h7]; exact not_portCounter_stopeInject j.c
    · exact not_portCounter_injectReg j.c h7
  have hinj : ∀ mem, ((p.windowViolation j j.a false size).elasticRows j.c j.w.space j.w.base n true).flag (injectReg j.c mem) 0 =
      false := fun mem => by rw [hports.flag (hnot mem), M.windowViolation_inject, h.inject_at hp]
  obtain ⟨hdie, hbytes⟩ := M.spaceWrite_range hbs
    (fun h0 => dhost_writeRange h (dhostrd_space h.spec) ((dhostShape_ranges hshape).2 h0).2) (hports.ecc.trans hecc) (hinj _)
  refine ⟨(congrArg Die.ecc hdie).trans (hports.ecc.trans hecc), hbytes, fun a ha => ?_⟩
  exact (M.reg_congr (congrArg Die.regs hdie) a).trans (hports.reg ha)

/-- A DHOSTRD whose window is not granted brings zeros (R537, R650). -/
theorem dhostrd_refused {s : State} {j : Job} (h : issues (.dhostrd j.c) s j) (hw : (view s).hostWindow (j.aux 5 0) false = none) :
    ∃ m, runs (.dhostrd j.c) s m ∧ bytesIn m j.c j.w.space j.w.base j.w.bytes = zeros j.w.bytes ∧
      (j.a.present = true → m.regN (coreReg j.c CORE_VIOL_CNT) = min ((view s).regN (coreReg j.c CORE_VIOL_CNT) + 1) counterMax) ∧
      (j.a.present = false → m.reg (coreReg j.c CORE_VIOL_CNT) = (view s).reg (coreReg j.c CORE_VIOL_CNT)) := by
  obtain ⟨m, hm, hrun⟩ := elastic_runs h rfl fun _ => rfl
  obtain ⟨o, hf⟩ := issues_facts h rfl
  have hp := hm.moved (m.portsMoved_elasticPath j.c 32)
  have hshape : dhostShape j (view s) = true := hf.shape
  obtain ⟨hlen, -⟩ := dhostShape_ranges hshape
  have hwin : (m.elasticPath j.c 32).hostWindow (j.aux 5 0) false = none :=
    (M.hostWindow_congr hp.fmn (hp.outer (by decide)) _ _).trans hw
  have heng : dhostrdRun j m = (m.elasticPath j.c 32).windowBrought j 0 j.a.bytes (zeros j.a.bytes) := by
    rw [dhostrdRun]
    simp only [hwin]
    rfl
  obtain ⟨hecc, hbytes, hreg⟩ := M.windowBrought_leaves hf hshape hp (bs := zeros j.a.bytes) (by simp [zeros, hlen]) 0 j.a.bytes
  obtain ⟨hpres, habs⟩ := M.windowViolation_count (hp.reg (viol_ne_issueReg j) (not_portCounter_viol j.c)) j.a false
  have hviol := hreg _ (not_portCounter_viol j.c)
  refine ⟨_, hrun _ heng, ?_, fun ha => ?_, fun ha => ?_⟩
  · rw [hbytes _ (M.seenAt_mem _ _) (by rw [M.seenAt_ecc, hecc]), hlen]
  · rw [M.seenAt_regN, M.regN, hviol, ← M.regN, hpres ha]
  · rw [M.seenAt_reg, hviol, habs ha]

/-- A DHOSTRD inside a granted window brings the window's bytes (R537, R650). -/
theorem dhostrd_granted {s : State} {j : Job} {jr : Bool} {base size : Nat} (h : issues (.dhostrd j.c) s j)
    (hw : (view s).hostWindow (j.aux 5 0) false = some (jr, base, size)) (hin : j.a.base + j.a.bytes ≤ size)
    (hb : s.die.bursts = []) :
    ∃ m, runs (.dhostrd j.c) s m ∧ sameButPorts (view s) m [issueReg j] ∧
      bytesIn m j.c j.w.space j.w.base j.w.bytes = ((view s).stripedRead (windowAddr jr) (base + j.a.base) j.a.bytes 2).1 := by
  obtain ⟨m, hm, hrun⟩ := elastic_runs h rfl fun _ => rfl
  obtain ⟨o, hf⟩ := issues_facts h rfl
  have hp := hm.moved (m.portsMoved_elasticPath j.c 32)
  have hshape : dhostShape j (view s) = true := hf.shape
  obtain ⟨hlen, -⟩ := dhostShape_ranges hshape
  have hbp : (m.elasticPath j.c 32).die.bursts = [] := hp.bursts.trans hb
  have hwin : (m.elasticPath j.c 32).hostWindow (j.aux 5 0) false = some (jr, base, size) :=
    (M.hostWindow_congr hp.fmn (hp.outer (by decide)) _ _).trans hw
  have hk : withinSize size j.a.base j.a.bytes = j.a.bytes := by rw [withinSize]; omega
  have hbad : (m.elasticPath j.c 32).stripedBad (windowAddr jr) (base + j.a.base) j.a.bytes = false := by
    simp [M.stripedBad, M.badBursts, M.burstsIn, hbp]
  have hblen := (view s).stripedRead_length (windowAddr jr) (base + j.a.base) j.a.bytes 2 hb
  have hread : (m.elasticPath j.c 32).stripedRead (windowAddr jr) (base + j.a.base) j.a.bytes 2 =
      (((view s).stripedRead (windowAddr jr) (base + j.a.base) j.a.bytes 2).1, m.elasticPath j.c 32) := by
    rw [M.stripedRead_clean _ _ _ _ _ hbp, M.stripedRead_clean (view s) _ _ _ _ hb]
    simp only [ofBytes_read_congr hp.mem]
  generalize ((view s).stripedRead (windowAddr jr) (base + j.a.base) j.a.bytes 2).1 = bs at hread hblen ⊢
  have heng : dhostrdRun j m = (m.elasticPath j.c 32).windowBrought j size j.a.bytes (bs ++ zeros (j.a.bytes - j.a.bytes)) := by
    rw [dhostrdRun]
    simp only [hwin, hk, hbad, Bool.false_eq_true, if_false, hread]
    rfl
  rw [Nat.sub_self, show bs ++ zeros 0 = bs from List.append_nil _] at heng
  obtain ⟨hecc, hbytes, hreg⟩ := M.windowBrought_leaves hf hshape hp (hblen.trans hlen) size j.a.bytes
  refine ⟨_, hrun _ heng, fun a ha hport => ?_, ?_⟩
  · rw [M.seenAt_reg, hreg a hport, M.windowViolation_inside _ _ _ _ hin]
    exact hp.sameButPorts a ha hport
  · rw [hbytes _ (M.seenAt_mem _ _) (by rw [M.seenAt_ecc, hecc])]

/-- The bytes that a command takes from its read range, where memory still stands. -/
theorem bytesIn_taken {s : State} {j : Job} {e op : Nat} {eng : Engine} {o : OpSpec} {m : M} (hf : IssueFacts s j e op eng o)
    (ha : ACC ∉ o.a) (hm : m.mem = (view s).mem) (he : m.die.ecc = []) (hpres : j.a.len ≠ 0 → j.a.present = true) (off n : Nat)
    (hn : j.a.len = 0 → n = 0) : m.spaceRead j.c j.a.space off n = (bytesIn (view s) j.c j.a.space off n, m) := by
  refine Prod.ext ?_ (M.spaceRead_snd _ _ _ _ _ he)
  show bytesIn m j.c j.a.space off n = _
  by_cases h0 : j.a.len = 0
  · rw [hn h0, bytesIn_zero _ _ _ _ he, bytesIn_zero _ _ _ _ hf.ecc]
  · obtain ⟨hin, -, -⟩ := range_of_not_malformed hf.a (hpres h0)
    exact bytesIn_congr hm he hf.ecc (fun e => ha (e ▸ hin)) _ _ _

theorem dhostwr_space {o : OpSpec} (h : opSpec 2 8 = some o) : o.a = [SCRATCH, STOPE] := by
  cases h
  rfl

/-- A DHOSTWR whose window is not granted moves nothing (R537, R650). -/
theorem dhostwr_refused {s : State} {j : Job} (h : issues (.dhostwr j.c) s j) (hw : (view s).hostWindow (j.aux 5 0) true = none) :
    ∃ m, runs (.dhostwr j.c) s m ∧ m.mem = (view s).mem ∧
      (j.w.present = true → m.regN (coreReg j.c CORE_VIOL_CNT) = min ((view s).regN (coreReg j.c CORE_VIOL_CNT) + 1) counterMax) ∧
      (j.w.present = false → m.reg (coreReg j.c CORE_VIOL_CNT) = (view s).reg (coreReg j.c CORE_VIOL_CNT)) := by
  obtain ⟨m, hm, hrun⟩ := elastic_runs h rfl fun _ => rfl
  obtain ⟨o, hf⟩ := issues_facts h rfl
  have hshape : dhostShape j (view s) = true := hf.shape
  obtain ⟨hlen, hpres⟩ := dhostShape_ranges hshape
  have hp := (hm.moved (m.portsMoved_elasticPath j.c 32)).moved
    (M.portsMoved_elasticRows _ j.c j.a.space j.a.base j.a.bytes false)
  have ha0 : j.a.len = j.w.len := by simp only [Range.bytes] at hlen; omega
  have hread := bytesIn_taken hf (by rw [dhostwr_space hf.spec]; decide) hp.mem (hf.ecc_at hp) (fun h0 => (hpres (ha0 ▸ h0)).1) j.a.base j.a.bytes
    Range.bytes_of_absent
  generalize hpe : (m.elasticPath j.c 32).elasticRows j.c j.a.space j.a.base j.a.bytes false = p at hp hread
  have hwin : p.hostWindow (j.aux 5 0) true = none := (M.hostWindow_congr hp.fmn (hp.outer (by decide)) _ _).trans hw
  have heng : dhostwrRun j m = p.windowViolation j j.w true 0 := by
    rw [dhostwrRun, hpe, hread]
    simp only [hwin]
  obtain ⟨hviol, hnone⟩ := M.windowViolation_count (hp.reg (viol_ne_issueReg j) (not_portCounter_viol j.c)) j.w true
  obtain ⟨regs, hregs⟩ := p.windowViolation_die j j.w true 0
  refine ⟨_, hrun _ heng, ?_, fun ha => ?_, fun ha => ?_⟩
  · rw [M.seenAt_mem, hregs]
    exact hp.mem
  · rw [M.seenAt_regN, hviol ha]
  · rw [M.seenAt_reg, hnone ha]

/-- A DHOSTWR inside a granted window moves its bytes there (R537, R650). -/
theorem dhostwr_granted {s : State} {j : Job} {jr : Bool} {base size : Nat} (h : issues (.dhostwr j.c) s j)
    (hw : (view s).hostWindow (j.aux 5 0) true = some (jr, base, size)) (hin : j.w.base + j.w.bytes ≤ size)
    (hb : s.die.bursts = []) :
    ∃ m, runs (.dhostwr j.c) s m ∧
      m.mem = ((view s).stripedWrite (windowAddr jr) (base + j.w.base) (bytesIn (view s) j.c j.a.space j.a.base j.a.bytes) 2).mem ∧
      m.reg (coreReg j.c CORE_VIOL_CNT) = (view s).reg (coreReg j.c CORE_VIOL_CNT) := by
  obtain ⟨m, hm, hrun⟩ := elastic_runs h rfl fun _ => rfl
  obtain ⟨o, hf⟩ := issues_facts h rfl
  have hshape : dhostShape j (view s) = true := hf.shape
  obtain ⟨hlen, hpres⟩ := dhostShape_ranges hshape
  have hp := (hm.moved (m.portsMoved_elasticPath j.c 32)).moved
    (M.portsMoved_elasticRows _ j.c j.a.space j.a.base j.a.bytes false)
  have ha0 : j.a.len = j.w.len := by simp only [Range.bytes] at hlen; omega
  have hread := bytesIn_taken hf (by rw [dhostwr_space hf.spec]; decide) hp.mem (hf.ecc_at hp) (fun h0 => (hpres (ha0 ▸ h0)).1) j.a.base j.a.bytes
    Range.bytes_of_absent
  generalize hpe : (m.elasticPath j.c 32).elasticRows j.c j.a.space j.a.base j.a.bytes false = p at hp hread
  have hbl : (bytesIn (view s) j.c j.a.space j.a.base j.a.bytes).length ≤ j.w.bytes := by
    rw [bytesIn_length _ _ _ _ _ hf.ecc, hlen]
  generalize bytesIn (view s) j.c j.a.space j.a.base j.a.bytes = bs at hread hbl ⊢
  have hwin : p.hostWindow (j.aux 5 0) true = some (jr, base, size) :=
    (M.hostWindow_congr hp.fmn (hp.outer (by decide)) _ _).trans hw
  have hk : bs.take (withinSize size j.w.base j.w.bytes) = bs := List.take_of_length_le (by rw [withinSize]; omega)
  have heng : dhostwrRun j m = p.stripedWrite (windowAddr jr) (base + j.w.base) bs 2 := by
    rw [dhostwrRun, hpe, hread]
    simp only [hwin, hk]
    exact M.windowViolation_inside _ _ _ _ hin
  rw [M.stripedWrite_clean _ _ _ _ _ (hp.bursts.trans hb)] at heng
  refine ⟨_, hrun _ heng, ?_, ?_⟩
  · rw [M.seenAt_mem, M.stripedWrite_clean (view s) _ _ _ _ hb, hp.mem]
  · rw [M.seenAt_reg]
    exact hp.reg (viol_ne_issueReg j) (not_portCounter_viol j.c)

end Sys2Proof.Machine

/-! ## Messages of puts, windows and requests of state memory (R284, R294, R442 to R455) -/

namespace Sys2Proof.Machine

/-! ### The fields of a message (Tables 11.1 and 11.2) -/

theorem numAt_append_mid (a b c : Bytes) (o n : Nat) (ho : a.length = o) (hn : b.length = n) : numAt (a ++ b ++ c) o n = ofBytes b := by
  rw [numAt, slice_append_mid a b c o n ho hn]

theorem slice_all (b : Bytes) (n : Nat) (h : b.length = n) : slice b 0 n = b := by
  have := slice_append_mid [] b [] 0 n rfl h
  simpa using this

/-- What a message's header says of it. -/
theorem makeMessage_fields (type hops dest src flow : Nat) (ts body : Bytes) (ht : type < 256) (hd : dest < 65536)
    (hts : ts.length = 16) (hb : body.length < 2 ^ 32) :
    let b := makeMessage type hops dest src flow ts body
    msgType b = type ∧ msgDest b = dest ∧ msgBody b = body ∧
      ∀ o n x y z, ts = x ++ y ++ z → x.length + 12 = o → y.length = n → msgTs b o n = ofBytes y := by
  intro b
  have hlen : msgLen b = body.length := by
    have hsplit : b = (toBytes 1 type ++ toBytes 1 hops ++ toBytes 2 dest ++ toBytes 2 src ++ toBytes 2 flow) ++
        toBytes 4 body.length ++ (slice ts 0 16 ++ toBytes 4 (crc32c (toBytes 1 type ++ toBytes 1 hops ++ toBytes 2 dest ++
          toBytes 2 src ++ toBytes 2 flow ++ toBytes 4 body.length ++ slice ts 0 16)) ++ body) := by
      simp [b, makeMessage]
    rw [msgLen, hsplit, numAt_append_mid _ _ _ _ _ (by simp) (by simp), ofBytes_toBytes]
    exact Nat.mod_eq_of_lt hb
  refine ⟨?_, ?_, ?_, fun o n x y z hxyz ho hn => ?_⟩
  · simp only [b, msgType, byteAt, makeMessage, toBytes]
    simp
    omega
  · have hsplit : b = (toBytes 1 type ++ toBytes 1 hops) ++ toBytes 2 dest ++ (toBytes 2 src ++ toBytes 2 flow ++
        toBytes 4 body.length ++ slice ts 0 16 ++ toBytes 4 (crc32c (toBytes 1 type ++ toBytes 1 hops ++ toBytes 2 dest ++
          toBytes 2 src ++ toBytes 2 flow ++ toBytes 4 body.length ++ slice ts 0 16)) ++ body) := by
      simp [b, makeMessage]
    rw [msgDest, hsplit, numAt_append_mid _ _ _ _ _ (by simp) (by simp), ofBytes_toBytes]
    exact Nat.mod_eq_of_lt hd
  · rw [msgBody, hlen]
    have hsplit : b = (toBytes 1 type ++ toBytes 1 hops ++ toBytes 2 dest ++ toBytes 2 src ++ toBytes 2 flow ++
        toBytes 4 body.length ++ slice ts 0 16 ++ toBytes 4 (crc32c (toBytes 1 type ++ toBytes 1 hops ++ toBytes 2 dest ++
          toBytes 2 src ++ toBytes 2 flow ++ toBytes 4 body.length ++ slice ts 0 16))) ++ body ++ [] := by
      simp [b, makeMessage]
    rw [hsplit, slice_append_mid _ _ _ _ _ (by simp) rfl]
  · have hsplit : b = (toBytes 1 type ++ toBytes 1 hops ++ toBytes 2 dest ++ toBytes 2 src ++ toBytes 2 flow ++
        toBytes 4 body.length ++ x) ++ y ++ (z ++ toBytes 4 (crc32c (toBytes 1 type ++ toBytes 1 hops ++ toBytes 2 dest ++
          toBytes 2 src ++ toBytes 2 flow ++ toBytes 4 body.length ++ ts)) ++ body) := by
      simp only [b, makeMessage, slice_all ts 16 hts]
      simp [hxyz]
    rw [msgTs, hsplit, numAt_append_mid _ _ _ _ _ (by simp; omega) hn]

/-! ### Next hops (R446) -/

theorem M.nextHops_congr {m n : M} {dest : Nat} (hr : m.reg (RYS_ROUTE + 8 * dest) = n.reg (RYS_ROUTE + 8 * dest))
    (hp : ∀ q, q < 16 → m.reg (portReg q RYS_PORT_STATUS) = n.reg (portReg q RYS_PORT_STATUS))
    (hd : ∀ q, (m.port q).draining = (n.port q).draining) : m.nextHops dest = n.nextHops dest := by
  have htakes : ∀ q, q < 16 → m.portTakes q = n.portTakes q := fun q hq => by
    simp only [M.portTakes, M.portUp, M.pState, M.fld, hp q hq, hd]
    rfl
  have hfld : ∀ hi lo, m.fld (RYS_ROUTE + 8 * dest) hi lo = n.fld (RYS_ROUTE + 8 * dest) hi lo := fun hi lo => by
    rw [M.fld, hr, M.fld]
  have hflag : m.flag (RYS_ROUTE + 8 * dest) 31 = n.flag (RYS_ROUTE + 8 * dest) 31 := by rw [M.flag, hr, M.flag]
  unfold M.nextHops
  simp only [hfld, hflag]
  by_cases hv : n.flag (RYS_ROUTE + 8 * dest) 31 = true
  · rw [if_pos hv, if_pos hv]
    refine List.filter_congr fun q hq => htakes q ?_
    obtain ⟨i, -, rfl⟩ := List.mem_map.mp hq
    refine (bits_lt _ _ _).trans_le ?_
    rw [show 4 * i + 3 + 1 - 4 * i = 4 by omega]
    decide
  · rw [if_neg hv, if_neg hv]

/-! ### A message originated (R446, R448) -/

/-- A module whose memory, cores and routes are those of another: what sending leaves. -/
structure M.Sends (dest : Nat) (v m : M) : Prop where
  mem : m.mem = v.mem
  ecc : m.die.ecc = v.die.ecc
  cores : m.die.cores = v.die.cores
  moduleId : m.moduleId = v.moduleId
  nextHops : m.nextHops dest = v.nextHops dest

theorem M.Sends.refl (dest : Nat) (m : M) : M.Sends dest m m := ⟨rfl, rfl, rfl, rfl, rfl⟩

theorem M.Sends.trans {dest : Nat} {v m n : M} (h : M.Sends dest v m) (h' : M.Sends dest m n) : M.Sends dest v n :=
  ⟨h'.mem.trans h.mem, h'.ecc.trans h.ecc, h'.cores.trans h.cores, h'.moduleId.trans h.moduleId, h'.nextHops.trans h.nextHops⟩

/-- A message counted, its flow label chosen. -/
def M.originated (m : M) : M := m.spend.count RYS_XPT_MSG_TX_CNT

theorem M.originated_reg (m : M) {a : Nat} (h : a ≠ RYS_XPT_MSG_TX_CNT) : m.originated.reg a = m.reg a :=
  (M.reg_count _ _ _).trans (if_neg h)

theorem M.originated_sends (m : M) (dest : Nat) : M.Sends dest m m.originated where
  mem := rfl
  ecc := rfl
  cores := rfl
  moduleId := by rw [M.moduleId, M.fld, M.originated_reg _ (by decide), M.moduleId, M.fld]
  nextHops := M.nextHops_congr (m.originated_reg (by simp only [RYS_ROUTE, RYS_XPT_MSG_TX_CNT]; omega))
    (fun q _ => m.originated_reg (by simp only [portReg, RYS_PORT_STATUS, RYS_XPT_MSG_TX_CNT]; omega)) fun _ => rfl

/-- The message that a module originates next. -/
def M.nextMessage (m : M) (type dest : Nat) (ts body : Bytes) : Bytes :=
  makeMessage type m.hopLimit dest m.moduleId (m.freeValue % 65536) ts body

theorem M.sendMessage_eq (m : M) (type dest : Nat) (ts body : Bytes) :
    m.sendMessage type dest ts body =
      m.originated.routeMessage ((messageClass type).getD 0) (m.nextMessage type dest ts body) := rfl

/-- A message to the module itself is put behind those that wait there. -/
theorem M.sendMessage_own {m : M} {type dest : Nat} {ts body : Bytes} (h : dest = m.moduleId)
    (hb : msgDest (m.nextMessage type dest ts body) = dest) :
    m.sendMessage type dest ts body = { m.originated with
      die.loopback := m.die.loopback ++ [((messageClass type).getD 0, m.nextMessage type dest ts body)] } := by
  rw [M.sendMessage_eq, M.routeMessage, if_pos (by rw [hb, h, (m.originated_sends dest).moduleId])]
  rfl

theorem M.enqueue_sends (m : M) (p cls : Nat) (msg : Bytes) (dest : Nat) : M.Sends dest m (m.enqueue p cls msg) where
  mem := rfl
  ecc := rfl
  cores := rfl
  moduleId := rfl
  nextHops := by
    refine M.nextHops_congr rfl (fun _ _ => rfl) fun q => ?_
    by_cases hq : q = p
    · subst hq
      simp [M.enqueue, M.enqueueAs, M.updPort, M.port, mapGetD_mapSet_same]
    · simp [M.enqueue, M.enqueueAs, M.updPort, M.port, mapGetD_mapSet_ne, hq]

/-- A message to a module that it has a next hop to, or to itself, changes queues and counts alone. -/
theorem M.sendMessage_sends {m : M} {type dest : Nat} {ts body : Bytes} (hb : msgDest (m.nextMessage type dest ts body) = dest)
    (h : dest = m.moduleId ∨ m.nextHops dest ≠ []) : M.Sends dest m (m.sendMessage type dest ts body) := by
  have horig := m.originated_sends dest
  by_cases hown : dest = m.moduleId
  · rw [M.sendMessage_own hown hb]
    exact ⟨horig.mem, horig.ecc, horig.cores, horig.moduleId, horig.nextHops⟩
  · have hps := h.resolve_left hown
    rw [M.sendMessage_eq, M.routeMessage, if_neg (by rw [hb, horig.moduleId]; exact hown)]
    have hport : ∃ p, m.originated.routePort (m.nextMessage type dest ts body) ((messageClass type).getD 0) = some p := by
      simp only [M.routePort, hb, horig.nextHops]
      exact ⟨_, List.getElem?_eq_getElem (Nat.mod_lt _ (List.length_pos_of_ne_nil hps))⟩
    obtain ⟨p, hp⟩ := hport
    rw [hp]
    exact horig.trans (M.enqueue_sends _ _ _ _ _)

/-! ### DPUT (R452, R455) -/

/-- The type-specific fields of a PUT (Table 11.2). -/
def putFields (window attempt offset step : Nat) : Bytes :=
  toBytes 2 window ++ toBytes 1 attempt ++ zeros 1 ++ toBytes 4 offset ++ toBytes 8 step

/-- One put of a DPUT: the bytes of its part of the read range, sent. -/
def M.putOne (j : Job) (step attempt : Nat) (m : M) (o : Nat) : M :=
  let (bs, m) := m.spaceRead j.c j.a.space (j.a.base + o) (min putMax (j.a.bytes - o))
  let m : M := { m with die.ownPuts := m.die.ownPuts ++
    [{ core := j.c, push := j.push, dest := j.aux 31 16, window := j.aux 11 0, offset := j.w.base + o, step, attempt }] }
  m.sendMessage tyPUT (j.aux 31 16) (putFields (j.aux 11 0) attempt (j.w.base + o) step) bs

/-- The offsets of a DPUT's puts in its ranges. -/
def Job.putOffsets (j : Job) : List Nat := (List.range (ceilDiv j.a.bytes putMax)).map fun i => putMax * i

theorem dputRun_eq (j : Job) (m : M) :
    dputRun j m = j.putOffsets.foldl (M.putOne j m.stepId.1 m.stepId.2)
      (((m.updFlight j.c j.push fun f => { f with owed := j.putOffsets.map (j.w.base + ·) }).elasticPath j.c 33).elasticRows
        j.c j.a.space j.a.base j.a.bytes false) := rfl

/-- What the statement reads off a message to the module itself: its class, its type, its window, its offset and its body. -/
def putSeen (x : Nat × Bytes) : Nat × Nat × Nat × Nat × Bytes :=
  (x.1, msgType x.2, msgTs x.2 12 2, msgTs x.2 16 4, msgBody x.2)

theorem putFields_message (hops dest src flow window attempt offset step : Nat) (bs : Bytes) (hd : dest < 65536)
    (hw : window < 65536) (hb : bs.length < 2 ^ 32) :
    let b := makeMessage tyPUT hops dest src flow (putFields window attempt offset step) bs
    msgDest b = dest ∧ putSeen (1, b) = (1, 1, window, offset % 2 ^ 32, bs) := by
  intro b
  obtain ⟨htype, hdest, hbody, hts⟩ := makeMessage_fields tyPUT hops dest src flow (putFields window attempt offset step) bs
    (by decide) hd (by simp [putFields]) hb
  have hwin := hts 12 2 [] (toBytes 2 window) (toBytes 1 attempt ++ zeros 1 ++ toBytes 4 offset ++ toBytes 8 step)
    (by simp [putFields]) rfl (toBytes_length _ _)
  have hoff := hts 16 4 (toBytes 2 window ++ toBytes 1 attempt ++ zeros 1) (toBytes 4 offset) (toBytes 8 step)
    (by simp [putFields]) (by simp) (toBytes_length _ _)
  rw [ofBytes_toBytes] at hwin hoff
  refine ⟨hdest, ?_⟩
  simp only [putSeen, b, htype, hwin, hoff, hbody]
  rw [Nat.mod_eq_of_lt (show window < 256 ^ 2 from hw), show (256 : Nat) ^ 4 = 2 ^ 32 by decide]

/-- One put, where its bytes are known. -/
theorem M.putOne_eq {j : Job} {step attempt off : Nat} {m : M} {bs : Bytes}
    (h : m.spaceRead j.c j.a.space (j.a.base + off) (min putMax (j.a.bytes - off)) = (bs, m)) :
    ∃ n : M, M.Sends (j.aux 31 16) m n ∧ n.die.loopback = m.die.loopback ∧ M.putOne j step attempt m off =
      n.sendMessage tyPUT (j.aux 31 16) (putFields (j.aux 11 0) attempt (j.w.base + off) step) bs := by
  rw [M.putOne, h]
  dsimp only
  generalize m.die.ownPuts ++ _ = puts
  exact ⟨{ m with die.ownPuts := puts }, ⟨rfl, rfl, rfl, rfl, rfl⟩, rfl, rfl⟩

/-- A PUT of bytes, sent to this module or to one that it has a next hop to. -/
theorem M.sendPut_sends (n : M) {dest window attempt offset step : Nat} {bs : Bytes} (hdest : dest < 65536)
    (hwindow : window < 65536) (hbs : bs.length < 2 ^ 32) (hd : dest = n.moduleId ∨ n.nextHops dest ≠ []) :
    M.Sends dest n (n.sendMessage tyPUT dest (putFields window attempt offset step) bs) ∧
      (dest = n.moduleId → ∃ b, (n.sendMessage tyPUT dest (putFields window attempt offset step) bs).die.loopback =
        n.die.loopback ++ [(1, b)] ∧ putSeen (1, b) = (1, 1, window, offset % 2 ^ 32, bs)) := by
  obtain ⟨hmsg, hseen⟩ := putFields_message n.hopLimit dest n.moduleId (n.freeValue % 65536) window attempt offset step bs
    hdest hwindow hbs
  refine ⟨M.sendMessage_sends hmsg hd, fun hown => ⟨_, ?_, hseen⟩⟩
  rw [M.sendMessage_own hown hmsg]
  rfl

section
variable {s : State} {j : Job} {eng : Engine} {o : OpSpec} (hf : IssueFacts s j 2 9 eng o) (hpres : j.a.len ≠ 0 → j.a.present = true)
include hf hpres

theorem M.putOne_sends {m : M} (hm : m.mem = (view s).mem) (he : m.die.ecc = [])
    (hd : j.aux 31 16 = m.moduleId ∨ m.nextHops (j.aux 31 16) ≠ []) (step attempt off : Nat) :
    M.Sends (j.aux 31 16) m (M.putOne j step attempt m off) ∧
      (j.aux 31 16 = m.moduleId → ∃ b, (M.putOne j step attempt m off).die.loopback = m.die.loopback ++ [(1, b)] ∧
        putSeen (1, b) = (1, 1, j.aux 11 0, (j.w.base + off) % 2 ^ 32,
          bytesIn (view s) j.c j.a.space (j.a.base + off) (min putMax (j.a.bytes - off)))) := by
  have hacc : ACC ∉ o.a := by
    have hspec := hf.spec
    cases hspec
    decide
  have hread := bytesIn_taken hf hacc hm he hpres (j.a.base + off) (min putMax (j.a.bytes - off)) fun h0 => by
    rw [Range.bytes_of_absent h0, Nat.zero_sub, Nat.min_zero]
  have hlen : (bytesIn (view s) j.c j.a.space (j.a.base + off) (min putMax (j.a.bytes - off))).length < 2 ^ 32 := by
    rw [bytesIn_length _ _ _ _ _ hf.ecc, putMax]
    omega
  have hdest : j.aux 31 16 < 65536 := bits_lt _ 31 16
  have hwindow : j.aux 11 0 < 65536 := lt_of_lt_of_le (show j.aux 11 0 < 4096 from bits_lt _ 11 0) (by decide)
  obtain ⟨n, hsame, hloop, hput⟩ := M.putOne_eq (step := step) (attempt := attempt) hread
  obtain ⟨hsend, hown⟩ := M.sendPut_sends n (attempt := attempt) (offset := j.w.base + off) (step := step) hdest hwindow hlen
    (by rw [hsame.moduleId, hsame.nextHops]; exact hd)
  rw [hput, ← hloop]
  exact ⟨hsame.trans hsend, fun h => hown (h.trans hsame.moduleId.symm)⟩

/-- The puts of a DPUT one after another. -/
theorem M.puts_sends (step attempt : Nat) (l : List Nat) : ∀ m : M, m.mem = (view s).mem → m.die.ecc = [] →
    (j.aux 31 16 = m.moduleId ∨ m.nextHops (j.aux 31 16) ≠ []) →
    M.Sends (j.aux 31 16) m (l.foldl (M.putOne j step attempt) m) ∧
      (j.aux 31 16 = m.moduleId → ∃ new, (l.foldl (M.putOne j step attempt) m).die.loopback = m.die.loopback ++ new ∧
        new.map putSeen = l.map fun off => (1, 1, j.aux 11 0, (j.w.base + off) % 2 ^ 32,
          bytesIn (view s) j.c j.a.space (j.a.base + off) (min putMax (j.a.bytes - off)))) := by
  induction l with
  | nil => exact fun m _ _ _ => ⟨.refl _ m, fun _ => ⟨[], (List.append_nil _).symm, rfl⟩⟩
  | cons off l ih =>
    intro m hm he hd
    obtain ⟨hone, hloop⟩ := M.putOne_sends hf hpres hm he hd step attempt off
    rw [List.foldl_cons]
    generalize M.putOne j step attempt m off = n at hone hloop
    obtain ⟨hrest, hnew⟩ := ih n (hone.mem.trans hm) (hone.ecc.trans he) (by rw [hone.moduleId, hone.nextHops]; exact hd)
    refine ⟨hone.trans hrest, fun hown => ?_⟩
    obtain ⟨b, hb, hseen⟩ := hloop hown
    obtain ⟨new, hn, hmap⟩ := hnew (hown.trans hone.moduleId.symm)
    refine ⟨[(1, b)] ++ new, ?_, ?_⟩
    · rw [hn, hb, List.append_assoc]
    · rw [List.map_append, List.map_singleton, hseen, hmap, List.map_cons, List.singleton_append]

end

/-! ### What a command owes -/

/-- A flight brought to owe. -/
theorem owes_updated {m : M} {j : Job} {f : Flight} (hf : f ∈ (m.core j.c).flights) (hpush : f.push = j.push) (hcmd : f.cmd = j.cmd)
    (l : List Nat) : owes (m.updFlight j.c j.push fun f => { f with owed := l }) j l := by
  refine ⟨{ f with owed := l }, ?_, hpush, hcmd, rfl⟩
  rw [M.updFlight, M.core_updCore_same]
  exact List.mem_map.mpr ⟨f, hf, if_pos hpush⟩

theorem owes_updFlight {v m : M} {j : Job} (h : M.AtIssue v m j) (l : List Nat) :
    owes (m.updFlight j.c j.push fun f => { f with owed := l }) j l := by
  obtain ⟨f, hf, hpush, hcmd⟩ := h.flight
  exact owes_updated hf hpush hcmd l

theorem owes_congr {m n : M} {j : Job} {l : List Nat} (h : owes m j l) (hf : (n.core j.c).flights = (m.core j.c).flights) : owes n j l := by
  obtain ⟨f, hmem, hrest⟩ := h
  exact ⟨f, hf ▸ hmem, hrest⟩

theorem owes_seenAt {m : M} {j : Job} {l : List Nat} (h : owes m j l) : owes (m.seenAt j) j l := by
  obtain ⟨f, hf, hpush, hcmd, howed⟩ := h
  refine ⟨{ f with seen := m.die.writeNo }, ?_, hpush, hcmd, howed⟩
  rw [M.seenAt, M.updFlight, M.core_updCore_same]
  exact List.mem_map.mpr ⟨f, hf, if_pos hpush⟩

/-! ### DPUT at its issue -/

theorem dput_present {j : Job} {m : M} (h : dputShape j m = true) : j.a.len ≠ 0 → j.a.present = true := by
  simp only [dputShape, Bool.and_eq_true, beq_iff_eq, Bool.or_eq_true] at h
  exact fun h0 => (h.2.resolve_left h0).1

/-- The state in which a DPUT's puts begin. -/
def M.putsBegin (m : M) (j : Job) : M :=
  ((m.updFlight j.c j.push fun f => { f with owed := j.putOffsets.map (j.w.base + ·) }).elasticPath j.c 33).elasticRows
    j.c j.a.space j.a.base j.a.bytes false

theorem outerReg_route {dest : Nat} (h : dest < 65536) : outerReg (RYS_ROUTE + 8 * dest) := by
  simp only [outerReg, RYS_ROUTE]
  omega

theorem outerReg_port {q off : Nat} (hq : q < 16) (ho : off < 0x100000) : outerReg (portReg q off) := by
  simp only [outerReg, portReg]
  omega

/-- Before its first put a DPUT's flight owes a PUT_DONE for each put, and ports have moved. -/
theorem dput_begins {v m : M} {j : Job} (h : M.AtIssue v m j) :
    owes (m.putsBegin j) j (j.putOffsets.map (j.w.base + ·)) ∧ (m.putsBegin j).mem = v.mem ∧
      (m.putsBegin j).die.ecc = v.die.ecc ∧ (m.putsBegin j).die.loopback = v.die.loopback ∧
      (m.putsBegin j).moduleId = v.moduleId ∧ (m.putsBegin j).nextHops (j.aux 31 16) = v.nextHops (j.aux 31 16) := by
  have howes := owes_updFlight h (j.putOffsets.map (j.w.base + ·))
  have hports : M.PortsMoved (m.updFlight j.c j.push fun f => { f with owed := j.putOffsets.map (j.w.base + ·) }) (m.putsBegin j) :=
    (M.portsMoved_elasticPath _ j.c 33).trans (M.portsMoved_elasticRows _ j.c j.a.space j.a.base j.a.bytes false)
  have hreg : ∀ a, outerReg a → (m.putsBegin j).reg a = v.reg a := fun a ha =>
    (hports.reg ha.not_portCounter).trans (h.outer ha)
  have hdie : (m.putsBegin j).die.portless = v.die.portless := hports.die.trans h.die
  refine ⟨owes_congr howes (hports.core_eq (fun k => k.flights) (fun _ => rfl) j.c), hports.mem.trans h.mem,
    (congrArg Die.ecc hdie :), (congrArg Die.loopback hdie :), ?_, ?_⟩
  · rw [M.moduleId, M.fld, hreg _ (by decide), M.moduleId, M.fld]
  · refine M.nextHops_congr (hreg _ (outerReg_route (bits_lt _ 31 16))) (fun q hq => hreg _ (outerReg_port hq (by decide))) fun q => ?_
    have hp : (m.putsBegin j).die.ports = v.die.ports := (congrArg Die.ports hdie :)
    rw [M.port, hp, M.port]

/-- A DPUT to this module or to one that it has a next hop to sends its range and waits for each put (R452, R455). -/
theorem dput_runs {s : State} {j : Job} (h : issues (.dput j.c) s j)
    (hd : j.aux 31 16 = (view s).moduleId ∨ (view s).nextHops (j.aux 31 16) ≠ []) :
    ∃ m, runs (.dput j.c) s m ∧ m.mem = (view s).mem ∧ owes m j (j.putOffsets.map (j.w.base + ·)) ∧
      (j.aux 31 16 = (view s).moduleId → (m.die.loopback.drop (view s).die.loopback.length).map putSeen =
        j.putOffsets.map fun off => (1, 1, j.aux 11 0, (j.w.base + off) % 2 ^ 32,
          bytesIn (view s) j.c j.a.space (j.a.base + off) (min putMax (j.a.bytes - off)))) := by
  obtain ⟨m, hm, hrun⟩ := elastic_runs h rfl fun _ => rfl
  obtain ⟨o, hf⟩ := issues_facts h rfl
  obtain ⟨howes, hmem, hecc, hloop, hid, hhops⟩ := dput_begins hm
  have heng : dputRun j m = j.putOffsets.foldl (M.putOne j m.stepId.1 m.stepId.2) (m.putsBegin j) := dputRun_eq j m
  generalize m.putsBegin j = p at howes hmem hecc hloop hid hhops heng
  obtain ⟨hsends, hnew⟩ := M.puts_sends hf (dput_present (m := view s) hf.shape) m.stepId.1 m.stepId.2 j.putOffsets p hmem
    (hecc.trans hf.ecc) (by rw [hid, hhops]; exact hd)
  generalize j.putOffsets.foldl (M.putOne j m.stepId.1 m.stepId.2) p = r at hsends hnew heng
  refine ⟨_, hrun _ heng, (M.seenAt_mem _ _).trans (hsends.mem.trans hmem), owes_seenAt (owes_congr howes ?_), fun hown => ?_⟩
  · rw [M.core, hsends.cores, M.core]
  · obtain ⟨new, hl, hmap⟩ := hnew (hown.trans hid.symm)
    rw [show (r.seenAt j).die.loopback = (view s).die.loopback ++ new from hl.trans (by rw [hloop]), List.drop_left, hmap]

/-! ### DRECV (R452) -/

/-- The window that a DRECV with a present range binds. -/
def Job.putWindow (j : Job) (step attempt : Nat) : PutWindow :=
  { core := j.c, push := j.push, space := j.w.space, base := j.w.base, bytes := 16 * j.w.len, step, attempt,
    missing := List.range j.w.len }

/-- A DRECV for whose window no PUT came early binds its window, and waits for its puts. -/
theorem drecv_runs {s : State} {j : Job} (h : issues (.drecv j.c) s j) (he : ∀ e ∈ (view s).die.earlyPuts, e.window ≠ j.aux 11 0)
    (hp : j.w.present = true) :
    ∃ m x, runs (.drecv j.c) s m ∧ m.mem = (view s).mem ∧ owes m j [0] ∧ mapGet m.die.putWindows (j.aux 11 0) = some x ∧
      x.core = j.c ∧ x.push = j.push ∧ x.space = j.w.space ∧ x.base = j.w.base ∧ x.bytes = j.w.bytes ∧
      x.missing = List.range j.w.len ∧ sameButPorts (view s) m [issueReg j] := by
  obtain ⟨m, hm, hrun⟩ := elastic_runs h rfl fun _ => rfl
  have hlen : j.w.len ≠ 0 := fun e => by simp [Range.present, e] at hp
  have hearly : m.die.earlyPuts = (view s).die.earlyPuts := (congrArg Die.earlyPuts hm.die :)
  have hnone : (m.die.earlyPuts.filter fun e => e.window == j.aux 11 0 && !older (m.stepId.1, m.stepId.2) (putStep e.message)) = [] := by
    rw [hearly, List.filter_eq_nil_iff]
    intro e hmem
    simp [he e hmem]
  have heng : drecvRun j m = { m.updFlight j.c j.push fun f => { f with owed := [0] } with
      die.putWindows := mapSet m.die.putWindows (j.aux 11 0) (j.putWindow m.stepId.1 m.stepId.2) } := by
    rw [drecvRun]
    simp only [hp, if_true, if_neg hlen]
    exact (congrArg (fun l => List.foldl _ _ l) hnone).trans (by rw [List.foldl_nil]; rfl)
  have howes : owes (m.updFlight j.c j.push fun f => { f with owed := [0] }) j [0] := owes_updFlight hm [0]
  refine ⟨_, j.putWindow m.stepId.1 m.stepId.2, hrun _ heng, ?_, owes_seenAt (owes_congr howes rfl),
    mapGet_mapSet_same _ _ _, rfl, rfl, rfl, rfl, rfl, rfl, ?_⟩
  · exact (M.seenAt_mem _ _).trans hm.mem
  · exact hm.sameButPorts

/-! ### QATTEND and QAPPEND (R284, R294) -/

/-- A command put into one controller's queue. -/
def M.seamPut (j : Job) (m : M) (k : Nat) : M :=
  ((if seamQueueMax ≤ (m.seam k).queue.length then m.count (seamReg k SEAM_REQ_QUEUE_FULL_CYCLE_CNT) else m).elasticPath j.c k).updSeam
    k fun x => { x with queue := x.queue ++ [(j.c, j.push)] }

theorem seamRun_eq (j : Job) (m : M) :
    seamRun j m = ((List.range 32).foldl (M.seamPut j) m).updFlight j.c j.push fun f => { f with owed := List.range 32 } := rfl

theorem not_portCounter_seamFull (k : Nat) : ¬ portCounter (seamReg k SEAM_REQ_QUEUE_FULL_CYCLE_CNT) := by
  rintro ⟨x, h⟩
  simp only [seamReg, coreReg, coreBase, cluReg, SEAM_REQ_QUEUE_FULL_CYCLE_CNT, CORE_BANK_COLLIDE_CNT, CORE_SCRUB_COLLIDE_CNT,
    CORE_CC_BANK_WAIT_CYCLE_CNT, CORE_ELASTIC_BANK_WAIT_CYCLE_CNT, CLU_STOPE_COLLIDE_CNT, CLU_STOPE_ELASTIC_WAIT_CYCLE_CNT,
    SHAFT_LINK_COLLIDE_CNT, SHAFT_ELASTIC_WAIT_CYCLE_CNT, CLU_SLIP_CYCLE_CNT] at h
  omega

theorem seamFull_ne_issueReg (k : Nat) (j : Job) : seamReg k SEAM_REQ_QUEUE_FULL_CYCLE_CNT ≠ issueReg j := by
  have he := cmdEngine_lt j.cmd
  rw [issueReg_eq]
  simp only [seamReg, coreReg, coreBase, SEAM_REQ_QUEUE_FULL_CYCLE_CNT, CORE_ENG_ISSUE_CNT]
  omega

/-- A command at its issue whose request has reached the controllers below `n`. -/
structure M.SeamsPut (v m : M) (j : Job) (n : Nat) : Prop where
  mem : m.mem = v.mem
  flight : ∃ f ∈ (m.core j.c).flights, f.push = j.push ∧ f.cmd = j.cmd
  queue : ∀ k, (m.seam k).queue = (v.seam k).queue ++ if k < n then [(j.c, j.push)] else []
  full : ∀ k, m.regN (seamReg k SEAM_REQ_QUEUE_FULL_CYCLE_CNT) =
    if k < n ∧ 512 ≤ (v.seam k).queue.length then min (v.regN (seamReg k SEAM_REQ_QUEUE_FULL_CYCLE_CNT) + 1) counterMax
    else v.regN (seamReg k SEAM_REQ_QUEUE_FULL_CYCLE_CNT)

theorem M.AtIssue.seamsPut {v m : M} {j : Job} (h : M.AtIssue v m j) : M.SeamsPut v m j 0 where
  mem := h.mem
  flight := h.flight
  queue k := by
    have hs : m.die.seams = v.die.seams := (congrArg Die.seams h.die :)
    rw [M.seam, hs, ← M.seam, if_neg (Nat.not_lt_zero k), List.append_nil]
  full k := by
    rw [M.regN, h.reg (seamFull_ne_issueReg k j) (not_portCounter_seamFull k), ← M.regN]
    simp

/-- A controller's queue with the command behind it, found full or not. -/
theorem M.seamPut_regN (j : Job) (m : M) (k i : Nat) :
    (M.seamPut j m k).regN (seamReg i SEAM_REQ_QUEUE_FULL_CYCLE_CNT) =
      if i = k ∧ 512 ≤ (m.seam k).queue.length then min (m.regN (seamReg i SEAM_REQ_QUEUE_FULL_CYCLE_CNT) + 1) counterMax
      else m.regN (seamReg i SEAM_REQ_QUEUE_FULL_CYCLE_CNT) := by
  have hne : i ≠ k → seamReg i SEAM_REQ_QUEUE_FULL_CYCLE_CNT ≠ seamReg k SEAM_REQ_QUEUE_FULL_CYCLE_CNT := fun h => by
    simp only [seamReg]
    omega
  have hstep : (M.seamPut j m k).reg (seamReg i SEAM_REQ_QUEUE_FULL_CYCLE_CNT) =
      (if seamQueueMax ≤ (m.seam k).queue.length then m.count (seamReg k SEAM_REQ_QUEUE_FULL_CYCLE_CNT) else m).reg
        (seamReg i SEAM_REQ_QUEUE_FULL_CYCLE_CNT) :=
    (M.portsMoved_elasticPath _ j.c k).reg (not_portCounter_seamFull i)
  rw [M.regN, hstep, ← M.regN]
  by_cases hf : seamQueueMax ≤ (m.seam k).queue.length
  · rw [if_pos hf]
    by_cases hi : i = k
    · rw [if_pos ⟨hi, hf⟩, hi, M.regN_count]
    · rw [if_neg fun h => hi h.1, M.regN, M.reg_count, if_neg (hne hi), ← M.regN]
  · rw [if_neg hf, if_neg fun h => hf h.2]

theorem M.seamPut_queue (j : Job) (m : M) (k i : Nat) :
    ((M.seamPut j m k).seam i).queue = (m.seam i).queue ++ if i = k then [(j.c, j.push)] else [] := by
  have hseams : ∀ n : M, (n.elasticPath j.c k).die.seams = n.die.seams := fun n =>
    (congrArg Die.seams (n.portsMoved_elasticPath j.c k).die :)
  have hcount : (if seamQueueMax ≤ (m.seam k).queue.length then m.count (seamReg k SEAM_REQ_QUEUE_FULL_CYCLE_CNT) else m).die.seams =
      m.die.seams := by
    split
    · exact M.count_seams _ _
    · rfl
  rw [M.seamPut, M.seam, M.updSeam]
  dsimp only
  rw [hseams, hcount]
  by_cases hi : i = k
  · rw [hi, mapGetD_mapSet_same, if_pos rfl, M.seam, hseams, hcount, ← M.seam]
  · rw [mapGetD_mapSet_ne _ _ _ _ _ hi, if_neg hi, List.append_nil, M.seam]

theorem M.seamPut_rest (j : Job) (m : M) (k : Nat) :
    (M.seamPut j m k).mem = m.mem ∧ ((M.seamPut j m k).core j.c).flights = (m.core j.c).flights := by
  have hports := fun n : M => n.portsMoved_elasticPath j.c k
  unfold M.seamPut
  split
  · exact ⟨(hports _).mem, ((hports _).core_eq (fun c => c.flights) (fun _ => rfl) j.c)⟩
  · exact ⟨(hports _).mem, ((hports _).core_eq (fun c => c.flights) (fun _ => rfl) j.c)⟩

theorem M.SeamsPut.succ {v m : M} {j : Job} {n : Nat} (h : M.SeamsPut v m j n) : M.SeamsPut v (M.seamPut j m n) j (n + 1) := by
  obtain ⟨hmem, hflights⟩ := M.seamPut_rest j m n
  refine ⟨hmem.trans h.mem, by rw [hflights]; exact h.flight, fun k => ?_, fun k => ?_⟩
  · rw [M.seamPut_queue, h.queue, List.append_assoc]
    rcases Nat.lt_trichotomy k n with hk | hk | hk
    · rw [if_pos hk, if_neg (Nat.ne_of_lt hk), if_pos (by omega), List.append_nil]
    · rw [if_neg (by omega), if_pos hk, if_pos (by omega), List.nil_append]
    · rw [if_neg (by omega), if_neg (by omega), if_neg (by omega), List.append_nil]
  · rw [M.seamPut_regN, h.full, h.queue n, if_neg (Nat.lt_irrefl n), List.append_nil]
    rcases Nat.lt_trichotomy k n with hk | hk | hk
    · simp [hk, Nat.ne_of_lt hk, Nat.lt_succ_of_lt hk]
    · simp [hk]
    · simp [show ¬ k < n by omega, show ¬ k = n by omega, show ¬ k < n + 1 by omega]

theorem M.AtIssue.seamsPut_range {v m : M} {j : Job} (h : M.AtIssue v m j) (n : Nat) :
    M.SeamsPut v ((List.range n).foldl (M.seamPut j) m) j n := by
  induction n with
  | zero => exact h.seamsPut
  | succ n ih =>
    rw [List.range_succ, List.foldl_append]
    exact ih.succ

/-- A command of the state memory reaches every controller's queue and waits for all of them (R284, R294). -/
theorem seamCommand_runs {i : Instr} {s : State} {j : Job} {e op : Nat} {eng : Engine} (h : issues i s j)
    (hrow : engineRow i = some (j.c, e, op, eng)) (hu : ∀ m, eng.uses j m = []) (hrun : eng.run = seamRun) :
    ∃ m, runs i s m ∧ m.mem = (view s).mem ∧ owes m j (List.range 32) ∧
      ∀ k, k < 32 → (m.seam k).queue = ((view s).seam k).queue ++ [(j.c, j.push)] ∧
        m.regN (seamReg k SEAM_REQ_QUEUE_FULL_CYCLE_CNT) =
          if ((view s).seam k).queue.length < 512 then (view s).regN (seamReg k SEAM_REQ_QUEUE_FULL_CYCLE_CNT)
          else min ((view s).regN (seamReg k SEAM_REQ_QUEUE_FULL_CYCLE_CNT) + 1) counterMax := by
  obtain ⟨m, hm, hend⟩ := elastic_runs h hrow hu
  have hput := hm.seamsPut_range 32
  have heng := (congrFun (congrFun hrun j) m).trans (seamRun_eq j m)
  generalize (List.range 32).foldl (M.seamPut j) m = p at hput heng
  have howes : owes (p.updFlight j.c j.push fun f => { f with owed := List.range 32 }) j (List.range 32) := by
    obtain ⟨f, hf, hpush, hcmd⟩ := hput.flight
    exact owes_updated hf hpush hcmd _
  refine ⟨_, hend _ heng, hput.mem, owes_seenAt howes, fun k hk => ⟨?_, ?_⟩⟩
  · have := hput.queue k
    rwa [if_pos hk] at this
  · rw [M.seenAt_regN]
    refine (hput.full k).trans ?_
    by_cases hl : ((view s).seam k).queue.length < 512
    · rw [if_pos hl, if_neg (by omega)]
    · rw [if_neg hl, if_pos (by omega)]

end Sys2Proof.Machine

namespace Sys2Proof
open Machine

/-- Settles O35: a command without scheduled accesses works on the state at its issue, which has the memory, the windows and the
routes of the state before; its engine's effect there is each clause's. -/
theorem elasticCommandsStart : Obligations.ElasticCommandsStart := by
  unfold Obligations.ElasticCommandsStart
  intro s j v
  refine ⟨dhostrd_refused, fun jr base size => dhostrd_granted, dhostwr_refused, fun jr base size => dhostwr_granted,
    fun h hown => ?_, fun h hne hhops => ?_, drecv_runs, fun i hi h => ?_⟩
  · obtain ⟨m, hrun, hmem, howes, hloop⟩ := dput_runs h (.inl hown)
    have hsent := hloop hown
    simp only [Job.putOffsets, putMax, List.map_map] at howes hsent
    exact ⟨m, hrun, hmem, howes, hsent⟩
  · obtain ⟨m, hrun, hmem, howes, -⟩ := dput_runs h (.inr hhops)
    simp only [Job.putOffsets, putMax, List.map_map] at howes
    exact ⟨m, hrun, hmem, howes⟩
  · obtain rfl | rfl := hi
    · exact seamCommand_runs h rfl (fun _ => rfl) rfl
    · exact seamCommand_runs h rfl (fun _ => rfl) rfl

end Sys2Proof

/-! ## Steps that start, and a start whose entry a core's accumulators hold (R118, R260) -/

namespace Sys2Proof.Machine

/-! ### The way of a start to its first cycle (R260) -/

/-- The row STEP_START on the working state. -/
theorem stepStart_runs {s : State} (hl : s.die.live = true) : runs .stepStart s (view s).stepStart := onLive_eq M.stepStart s hl

/-- With no flip pending a start finds nothing to do about one. -/
theorem M.flipDue_none {m : M} (h : m.die.fmn.flip = none) : m.flipDue = m := by
  have hrep : m.flipReports = m := by
    rw [M.flipReports, h]
    rfl
  have hgo : m.flipGo = m := by
    unfold M.flipGo
    split
    · rename_i hf _
      rw [h] at hf
      exact absurd hf nofun
    · rfl
  rw [M.flipDue, hrep, hgo, ite_self]

theorem M.stepStart_composed {m : M} {c : Composition} (ht : m.die.step = none) (hc : m.die.fmn.composed = some c)
    (hf : m.die.fmn.flip = none) : m.stepStart = (m.reach c.start).startChecked c := by
  have hflip : (m.reach c.start).flipDue = m.reach c.start := M.flipDue_none hf
  have hcr : (m.reach c.start).die.fmn.composed = some c := hc
  have hfr : (m.reach c.start).die.fmn.flip = none := hf
  have hrec : (m.reach c.start).recomposed M.flipDue = m.reach c.start := by simp only [M.recomposed, hflip, hcr]
  have hstep : ¬ m.inStep = true := by
    rw [M.inStep, ht]
    exact Bool.false_ne_true
  simp only [M.stepStart, if_neg hstep, hc, hrec, hfr, hcr]

/-- A start that nothing holds and whose modes do not differ begins its step. -/
theorem M.startChecked_begins {m : M} {c : Composition} (h : m.startBlocked c = false) (ht : m.die.step = none)
    (hc : m.die.fmn.tableCores = []) (hl : m.die.fmn.tableLoad = none)
    (hm : (m.accBoundary.repairRecord c).modeDiffers c = false) :
    m.startChecked c = (m.accBoundary.repairRecord c).beginStep c := by
  have hfirst : m.tablesFirst c = none := by
    rw [M.tablesFirst, M.startTables_none m hl (.inl hc), M.inStep, ht]
    rfl
  rw [M.startChecked, if_neg (by rw [h]; exact Bool.false_ne_true), hfirst]
  exact if_neg (by rw [hm]; exact Bool.false_ne_true)

/-! ### A step of no valid entry -/

theorem M.stepEntries_one {m : M} {c : Composition} (h1 : c.entryCount = 1) (hv : (m.entry c.firstEntry).valid = false) :
    m.stepEntries c = [] := by
  have hl : (List.range 1).map (c.firstEntry + ·) = [c.firstEntry] := rfl
  rw [M.stepEntries, h1, hl, List.filter_cons_of_neg (by rw [hv]; exact Bool.false_ne_true), List.filter_nil]

theorem M.modeDiffers_none {m : M} {c : Composition} (h : m.stepEntries c = []) : m.modeDiffers c = false := by
  rw [M.modeDiffers, h, List.any_nil]

/-- A first attempt without patches and without a valid entry begins a step that has none. -/
theorem M.beginStep_none {m : M} {c : Composition} (ha : c.attempt = 0) (hp : c.patches = []) (he : m.stepEntries c = []) :
    (m.beginStep c).die.step.map Step.entries = some [] := by
  have hpatch : m.stepPatches c = ([], m) := by rw [M.stepPatches, if_pos ha, hp, List.map_nil]
  rw [M.beginStep, hpatch]
  dsimp only [List.foldl_nil]
  rw [M.startWaiting_none, M.setFld_step, M.setFld_step, Option.map_some, he, List.map_nil]
  intro t ht p hmem
  rw [M.setFld_step, M.setFld_step, he] at ht
  cases ht
  exact absurd hmem List.not_mem_nil

/-! ### Pending accumulator modes take effect (R117, R118) -/

theorem M.modeStatus_mem (m : M) : m.modeStatus.mem = m.mem := by
  unfold M.modeStatus
  dsimp only
  split
  · rfl
  · exact M.flash_mem _ _

theorem M.takeAccMode_mem (m : M) (c : Nat) : (m.takeAccMode c).mem = m.mem := by
  unfold M.takeAccMode
  split <;> rfl

/-- Where one core is known, and its mode is pending, the boundary zeroes its accumulators and no other byte. -/
theorem M.accBoundary_mem {m : M} {c : Nat} {k : Core} (hc : m.die.cores = [(c, k)]) (hp : m.flag (coreReg c CORE_ACC_MODE) 1 = true)
    (hk : k.st ≠ .faulted) : m.accBoundary.mem = m.mem.clear (memAddr c 2 0) (memSize 2) := by
  have hcond : (m.flag (coreReg c CORE_ACC_MODE) 1 && k.st != .faulted) = true := by simp [hp, hk]
  rw [M.accBoundary, M.modeStatus_mem, hc, List.foldl_cons, List.foldl_nil, if_pos hcond, M.clearEngines_eq, M.updCore_mem,
    M.scalesSet_mem, ← M.takeAccMode_mem m c]
  rfl

theorem ofBytes_zeros {bs : Bytes} (h : ∀ b ∈ bs, b = 0) : ofBytes bs = 0 := by
  induction bs with
  | nil => rfl
  | cons b bs ih =>
    rw [ofBytes, ih fun x hx => h x (List.mem_cons_of_mem _ hx), h b List.mem_cons_self]
    rfl

/-- A step-table entry whose first word lies in cleared bytes is not valid. -/
theorem M.entry_cleared {m : M} {mem : CMem} {a n i : Nat} (hm : m.mem = mem.clear a n) (h : a ≤ stepTableBase + 32 * i)
    (h' : stepTableBase + 32 * i + 8 ≤ a + n) : (m.entry i).valid = false := by
  have hword : m.entryWord i 0 = 0 := by
    rw [M.entryWord, M.readN, hm, CMem.read_eq]
    refine ofBytes_zeros fun b hb => ?_
    obtain ⟨o, ho, rfl⟩ := List.mem_map.mp hb
    have ho' := List.mem_range.mp ho
    rw [CMem.byte_clear, if_pos ⟨by omega, by omega⟩]
  show (m.entryWord i 0).testBit 8 = false
  rw [hword, Nat.zero_testBit]

/-- Where one core is known, its mode pending, an entry in its accumulators is not valid after the boundary before a start. -/
theorem M.entry_afterBoundary {m : M} {d i : Nat} {k : Core} (hc : m.die.cores = [(d, k)])
    (hp : m.flag (coreReg d CORE_ACC_MODE) 1 = true) (hk : k.st ≠ .faulted) (h : memAddr d 2 0 ≤ stepTableBase + 32 * i)
    (h' : stepTableBase + 32 * i + 8 ≤ memAddr d 2 0 + memSize 2) : (m.accBoundary.entry i).valid = false :=
  M.entry_cleared (M.accBoundary_mem hc hp hk) h h'

/-- A start whose one entry the boundary clears begins a step without entries. -/
theorem M.stepStart_loses {m : M} {c : Composition} (hf : m.die.fmn.flip = none) (ht : m.die.step = none)
    (hc : m.die.fmn.composed = some c) (hb : m.startBlocked c = false) (hcores : m.die.fmn.tableCores = [])
    (hl : m.die.fmn.tableLoad = none) (ha : c.attempt = 0) (hp : c.patches = []) (h1 : c.entryCount = 1)
    (he : ((m.reach c.start).accBoundary.entry c.firstEntry).valid = false) : m.stepStart.die.step.map Step.entries = some [] := by
  have hnone : ((m.reach c.start).accBoundary.repairRecord c).stepEntries c = [] := M.stepEntries_one h1 he
  rw [M.stepStart_composed ht hc hf, M.startChecked_begins (m := m.reach c.start) hb ht hcores hl (M.modeDiffers_none hnone)]
  exact M.beginStep_none ha hp hnone

/-! ### A start whose entry is lost at its boundary

The statement's composition names its first entry by any number, and its state lists cores of any number. Entry 63,488 stands
beyond the 1,024 entries of the step table, at the accumulators of a core numbered beyond the 2,312 of the module: a mode
pending there clears the entry at the boundary before the step's first cycle (R118), after it has been found valid. -/

/-- A composed step whose one entry stands at the accumulators of core 78,336. -/
def straySteps : Composition :=
  { number := 1, attempt := 0, model := 0, epoch := 0, start := 0, items := [], inputs := [], patches := [], firstEntry := 63488
    entryCount := 1, heldCounted := false, errors := [] }

/-- Core 78,336 with a mode pending and a valid entry for the step's start in its accumulators; every region runs. -/
def strayState : State :=
  { State.reset with
    mem := [(0x240000300001, 1), (0x240000300006, 0xFF)]
    die.regs := (coreReg 78336 CORE_ACC_MODE, 2) :: (List.range 12).map fun r => (CLK_REGION_STATUS + 8 * r, 1)
    die.cores := [(78336, Core.fresh)]
    die.fmn.composed := some straySteps }

theorem strayState_group : (view strayState).groupCores ((view strayState).entry 63488).group = [] := by
  have hv : (view strayState).groupVirtual ((view strayState).entry 63488).group = [] := by decide
  rw [M.groupCores, hv]
  simp

theorem strayState_blocked : (view strayState).startBlocked straySteps = false := by
  have hcores : (view strayState).stepCores straySteps = [] := by
    refine List.flatMap_eq_nil_iff.mpr fun i hi => ?_
    obtain ⟨hmem, -⟩ := List.mem_filter.mp hi
    obtain ⟨o, ho, rfl⟩ := List.mem_map.mp hmem
    obtain rfl : o = 0 := by
      have := List.mem_range.mp ho
      simp only [straySteps] at this
      omega
    exact strayState_group
  have hregions : (List.range 12).any (view strayState).regionFailed = false := by decide
  have hequal : (view strayState).regionsEqual = true := by decide
  have hpower : (view strayState).flag PWR_STATUS 8 = false := by decide
  simp only [M.startBlocked, hcores, hregions, hequal, hpower]
  rfl

theorem strayState_pending : (view strayState).flag (coreReg 78336 CORE_ACC_MODE) 1 = true := by decide

theorem strayState_cores : (view strayState).die.cores = [(78336, Core.fresh)] := rfl

theorem strayState_cleared : (((view strayState).reach 0).accBoundary.entry 63488).valid = false :=
  M.entry_afterBoundary (m := (view strayState).reach 0) strayState_cores strayState_pending (by decide) (by decide) (by decide)

theorem strayState_loses {m : M} (h : runs .stepStart strayState m) : m.die.step.map Step.entries = some [] := by
  have hrun := stepStart_runs (s := strayState) (by decide)
  have hloses := M.stepStart_loses (m := view strayState) (c := straySteps) rfl rfl rfl strayState_blocked rfl rfl rfl rfl rfl
    strayState_cleared
  generalize (view strayState).stepStart = n at hrun hloses
  have hput : put strayState m = put strayState n := Host.Outcome.next.inj (h.symm.trans hrun)
  rw [show m.die = n.die from congrArg State.die hput, hloses]

end Sys2Proof.Machine

namespace Sys2Proof
open Machine

/-- Refutes O47: the statement bounds neither a composition's first entry nor the numbers of the cores a state lists. In
`strayState` the composed step's entry 63,488 stands in the accumulators of core 78,336, whose mode is pending: the entry is valid
before the start, the step's boundary clears it (R118), and the step begins without the entry. -/
theorem not_stepsStart : ¬ Obligations.StepsStart := by
  unfold Obligations.StepsStart
  intro h
  obtain ⟨-, -, -, -, hstart, -⟩ := h strayState (by decide) rfl rfl rfl rfl
  obtain ⟨-, -, -, hbegin⟩ := hstart straySteps rfl rfl
  have hmodes := M.modeDiffers_none (M.stepEntries_one (c := straySteps) rfl strayState_cleared)
  obtain ⟨m, t, hrun, hstep, -, -, -, -, -, hent, -⟩ := hbegin strayState_blocked rfl rfl hmodes rfl rfl rfl
    (by decide) (by decide) fun k hk => by
      rw [show straySteps.firstEntry = 63488 from rfl, strayState_group] at hk
      exact absurd hk List.not_mem_nil
  have hloses := strayState_loses hrun
  rw [hstep, Option.map_some, hent] at hloses
  exact absurd hloses nofun

end Sys2Proof

/-! ## Beats at their destination (R140 to R142, R235 to R237) -/

namespace Sys2Proof.Machine

/-! ### Lists without their repetitions -/

theorem mem_eraseDups {a : Nat} : ∀ {l : List Nat}, a ∈ l.eraseDups ↔ a ∈ l
  | [] => by simp
  | b :: l => by
    have hlen : (l.filter fun c => !c == b).length < (b :: l).length := Nat.lt_succ_of_le (List.length_filter_le _ _)
    rw [List.eraseDups_cons, List.mem_cons, List.mem_cons, mem_eraseDups (l := l.filter fun c => !c == b), List.mem_filter]
    by_cases h : a = b <;> simp [h]
termination_by l => l.length
decreasing_by exact hlen

theorem nodup_eraseDups : ∀ l : List Nat, l.eraseDups.Nodup
  | [] => by simp
  | b :: l => by
    have hlen : (l.filter fun c => !c == b).length < (b :: l).length := Nat.lt_succ_of_le (List.length_filter_le _ _)
    rw [List.eraseDups_cons, List.nodup_cons, mem_eraseDups, List.mem_filter]
    exact ⟨fun h => by simp at h, nodup_eraseDups _⟩
termination_by l => l.length
decreasing_by exact hlen

/-! ### The beats in flight -/

theorem M.find_updBeat {l : List Beat} {id : Nat} {f : Beat → Beat} (hf : ∀ b, (f b).id = b.id) :
    (l.map fun b => if b.id = id then f b else b).find? (fun b => b.id = id) = (l.find? fun b => b.id = id).map f := by
  induction l with
  | nil => rfl
  | cons b l ih =>
    by_cases hb : b.id = id
    · simp [hb, hf]
    · simpa [hb] using ih

theorem M.updBeat_find {m : M} {b : Beat} {f : Beat → Beat} (hb : m.die.beats.find? (fun x => x.id = b.id) = some b)
    (hf : ∀ b, (f b).id = b.id) : (m.updBeat b.id f).die.beats.find? (fun x => x.id = b.id) = some (f b) :=
  (M.find_updBeat hf).trans (by rw [hb, Option.map_some])

/-- A beat that waits at its ejection port, or in the router, is not taken again. -/
theorem M.beatEject_again {m : M} {b : Beat} (hb : m.die.beats.find? (fun x => x.id = b.id) = some b)
    (h : b.atEject = true ∨ b.inRouter = true) : m.beatEject b.id = m := by
  have hor : (b.atEject || b.inRouter) = true := by simpa using h
  simp only [M.beatEject, hb, hor, if_true]

/-- A beat that comes takes its place in the buffer, or waits in the router while the buffer is full (R236). -/
theorem M.beatEject_comes {m : M} {b : Beat} (hb : m.die.beats.find? (fun x => x.id = b.id) = some b) (he : b.atEject = false)
    (hr : b.inRouter = false) : m.beatEject b.id = if 16 ≤ m.ejectCount (b.dest / 17) then
      (m.count (cluReg (b.dest / 17) SHAFT_EJECT_FULL_CNT)).updBeat b.id fun x => { x with inRouter := true }
    else m.updBeat b.id fun x => { x with atEject := true } := by
  have hor : (b.atEject || b.inRouter) = false := by rw [he, hr, Bool.or_false]
  simp only [M.beatEject, hb, hor, Bool.false_eq_true, if_false]
  rfl

/-! ### A beat that is late (R237) -/

theorem M.groupSitesOf_nodup (m : M) (c : Nat) : (m.groupSitesOf c).Nodup := by
  unfold M.groupSitesOf
  split
  · exact nodup_eraseDups _
  · exact List.nodup_singleton _

/-- Registers of sites at different offsets, or of different sites, are different ones. -/
theorem cluReg_ne_of {x y off off' : Nat} (h : x ≠ y ∨ off ≠ off') (ho : off < 0x1000000) (ho' : off' < 0x1000000) :
    cluReg x off ≠ cluReg y off' := by
  simp only [cluReg]
  omega

/-- One counter of each of several sites advanced, each site once. -/
theorem M.countSites_regN (off : Nat) (ho : off < 0x1000000) : ∀ (l : List Nat) (m : M), l.Nodup → ∀ x,
    (l.foldl (fun m s => m.count (cluReg s off)) m).regN (cluReg x off) =
      if x ∈ l then min (m.regN (cluReg x off) + 1) counterMax else m.regN (cluReg x off) := by
  intro l
  induction l with
  | nil => intro m _ x; rfl
  | cons s l ih =>
    intro m hl x
    obtain ⟨hs, hl⟩ := List.nodup_cons.mp hl
    rw [List.foldl_cons, ih _ hl x]
    by_cases hx : x = s
    · rw [hx, if_neg hs, if_pos List.mem_cons_self, M.regN_count]
    · have hsame : (m.count (cluReg s off)).regN (cluReg x off) = m.regN (cluReg x off) := by
        rw [M.regN, M.reg_count, if_neg (cluReg_ne_of (.inl hx) ho ho), M.regN]
      rw [hsame]
      simp [hx]

theorem M.holdCycle_slip (m : M) (c t : Nat) {x : Nat} (hx : x ∈ m.groupSitesOf c) :
    (m.holdCycle c t).regN (cluReg x CLU_SLIP_CYCLE_CNT) = min (m.regN (cluReg x CLU_SLIP_CYCLE_CNT) + 1) counterMax := by
  have hcount := M.countSites_regN CLU_SLIP_CYCLE_CNT (by decide) _ m (m.groupSitesOf_nodup c) x
  rw [if_pos hx] at hcount
  unfold M.holdCycle
  dsimp only
  split
  · exact hcount
  · exact hcount

/-- The groups of cores are read from the step, the memory and the maps of virtual cores. -/
theorem M.groupSitesOf_congr {m n : M} (hm : m.mem = n.mem) (hs : m.die.step = n.die.step) (hc : m.die.cores = n.die.cores)
    (hr : ∀ site off, off = CLU_VCORE_MAP ∨ off = CLU_VCORE_MAP_HI → m.reg (cluReg site off) = n.reg (cluReg site off)) (c : Nat) :
    m.groupSitesOf c = n.groupSitesOf c := by
  have hphys : ∀ s v, m.physical s v = n.physical s v := fun s v => by
    simp only [M.physical, M.fld, hr s _ (.inl rfl), hr s _ (.inr rfl)]
  have hentry : ∀ i, m.entry i = n.entry i := fun i => by
    simp only [M.entry, M.entryWord, M.readN, hm]
  have hcores : ∀ g, m.groupCores g = n.groupCores g := fun g => by
    simp only [M.groupCores, M.groupSites, M.groupVirtual, M.read, M.readN, hm, hphys]
  simp only [M.groupSitesOf, M.core, M.members, hc, hs, hentry, hcores]

theorem not_portCounter_lateLand (site : Nat) : ¬ portCounter (cluReg site CLU_LATE_LAND_CNT) := by
  rintro ⟨x, h⟩
  simp only [coreReg, coreBase, cluReg, CLU_LATE_LAND_CNT, CORE_BANK_COLLIDE_CNT, CORE_SCRUB_COLLIDE_CNT,
    CORE_CC_BANK_WAIT_CYCLE_CNT, CORE_ELASTIC_BANK_WAIT_CYCLE_CNT, CLU_STOPE_COLLIDE_CNT, CLU_STOPE_ELASTIC_WAIT_CYCLE_CNT,
    SHAFT_LINK_COLLIDE_CNT, SHAFT_ELASTIC_WAIT_CYCLE_CNT, CLU_SLIP_CYCLE_CNT] at h
  omega

/-- A beat that has not come by its landing cycle is late, its group holds, and the lateness is counted once (R237). -/
theorem beatLand_late {m : M} {b : Beat} (hb : m.die.beats.find? (fun x => x.id = b.id) = some b) (he : b.atEject = false) :
    let n := m.beatLand b.id
    n.mem = m.mem ∧ n.die.beats.find? (fun x => x.id = b.id) = some { b with late := true } ∧
      (∀ x ∈ m.groupSitesOf b.dest,
        n.regN (cluReg x CLU_SLIP_CYCLE_CNT) = min (m.regN (cluReg x CLU_SLIP_CYCLE_CNT) + 1) counterMax) ∧
      n.regN (cluReg (b.dest / 17) CLU_LATE_LAND_CNT) =
        min (m.regN (cluReg (b.dest / 17) CLU_LATE_LAND_CNT) + if b.late then 0 else 1) counterMax := by
  intro n
  have hn : n = _ := show m.beatLand b.id = ((if b.late then m else m.count (cluReg (b.dest / 17) CLU_LATE_LAND_CNT)).holdCycle
      b.dest b.land).updBeat b.id fun b => { b with late := true } by
    simp only [M.beatLand, hb, he, Bool.false_eq_true, if_false]
  generalize hp : (if b.late then m else m.count (cluReg (b.dest / 17) CLU_LATE_LAND_CNT)) = p at hn
  have hreg : ∀ a, a ≠ cluReg (b.dest / 17) CLU_LATE_LAND_CNT → p.reg a = m.reg a := fun a ha => by
    rw [← hp]
    split
    · rfl
    · rw [M.reg_count, if_neg ha]
  have hstep : p.die.step = m.die.step ∧ p.die.cores = m.die.cores ∧ p.mem = m.mem ∧ p.die.beats = m.die.beats := by
    rw [← hp]
    split
    · exact ⟨rfl, rfl, rfl, rfl⟩
    · exact ⟨M.count_step _ _, M.count_cores _ _, M.count_mem _ _, M.count_beats _ _⟩
  obtain ⟨hstep, hcores, hmem, hbeats⟩ := hstep
  have hmap : ∀ site off, off = CLU_VCORE_MAP ∨ off = CLU_VCORE_MAP_HI → p.reg (cluReg site off) = m.reg (cluReg site off) := by
    rintro site off (rfl | rfl)
    · exact hreg _ (cluReg_ne_of (.inr (by decide)) (by decide) (by decide))
    · exact hreg _ (cluReg_ne_of (.inr (by decide)) (by decide) (by decide))
  have hheld := p.portsMoved_holdCycle b.dest b.land
  have hslip := fun x => p.holdCycle_slip b.dest b.land (x := x)
  have hlate : (p.holdCycle b.dest b.land).reg (cluReg (b.dest / 17) CLU_LATE_LAND_CNT) = p.reg (cluReg (b.dest / 17) CLU_LATE_LAND_CNT) :=
    hheld.reg (not_portCounter_lateLand _)
  generalize p.holdCycle b.dest b.land = q at hheld hslip hlate hn
  rw [hn]
  refine ⟨hheld.mem.trans hmem, M.updBeat_find (by rw [hheld.beats, hbeats, hb]) fun _ => rfl, fun x hx => ?_, ?_⟩
  · rw [← M.groupSitesOf_congr hmem hstep hcores hmap] at hx
    refine (hslip x hx).trans ?_
    rw [M.regN, hreg _ (cluReg_ne_of (.inr (by decide)) (by decide) (by decide)), ← M.regN]
  · refine (congrArg BitVec.toNat hlate).trans ?_
    rw [← M.regN, ← hp]
    cases b.late with
    | false => exact M.regN_count m _
    | true =>
      have hle : m.regN (cluReg (b.dest / 17) CLU_LATE_LAND_CNT) ≤ counterMax := by
        have := (m.reg (cluReg (b.dest / 17) CLU_LATE_LAND_CNT)).isLt
        simp only [M.regN, counterMax]
        omega
      exact (Nat.min_eq_left hle).symm

/-! ### What stands of the beats in flight while memory is written -/

theorem M.errorClass_beats (m : M) (cls block inst detail : Nat) : (m.errorClass cls block inst detail).die.beats = m.die.beats := by
  unfold M.errorClass
  dsimp only
  split <;> simp

theorem M.captureEcc_beats (m : M) (ue : Bool) (c mem off source bit0 bit1 mask : Nat) :
    (m.captureEcc ue c mem off source bit0 bit1 mask).die.beats = m.die.beats := by
  unfold M.captureEcc
  dsimp only
  split <;> simp

theorem M.queueWriteBack_beats (m : M) (c mem off : Nat) : (m.queueWriteBack c mem off).die.beats = m.die.beats := by
  unfold M.queueWriteBack
  dsimp only
  repeat' split
  all_goals simp

theorem M.eccAct_beats (m : M) (c mem off source mask : Nat) : (m.eccAct c mem off source mask).die.beats = m.die.beats := by
  unfold M.eccAct
  split
  · rfl
  · rfl
  · unfold M.correctable
    dsimp only
    split
    · rw [M.captureEcc_beats, M.errorClass_beats, M.count_beats]
    · rw [M.queueWriteBack_beats, M.captureEcc_beats, M.errorClass_beats, M.count_beats]
  · have hbase : ((((m.count (eccCounter true c mem)).captureEcc true c mem off source 0xFF 0xFF mask).errorClass
        (ueClass mem (m.unitInUse c mem)) (eccBlock mem) (eccInstance c mem) off)).die.beats = m.die.beats := by
      rw [M.errorClass_beats, M.captureEcc_beats, M.count_beats]
    unfold M.uncorrectable
    dsimp only
    split
    · exact hbase
    · exact hbase

theorem M.mergeCodeword_beats (m : M) (c mem a n : Nat) (p : Nat × Nat) : (m.mergeCodeword c mem a n p).die.beats = m.die.beats := by
  unfold M.mergeCodeword
  dsimp only
  split
  · rfl
  · exact M.eccAct_beats _ _ _ _ _ _

theorem M.inject_beats (m : M) (c mem off : Nat) : (m.inject c mem off).die.beats = m.die.beats := by
  unfold M.inject
  dsimp only
  split <;> rfl

theorem M.assayWrite_beats (m : M) (c off n : Nat) : (m.assayWrite c off n).die.beats = m.die.beats := by
  unfold M.assayWrite
  dsimp only
  repeat' split
  all_goals rfl

theorem M.writeMem_beats (m : M) (c mem off : Nat) (bs : Bytes) : (m.writeMem c mem off bs).die.beats = m.die.beats := by
  unfold M.writeMem
  dsimp only
  split
  · rfl
  · rw [M.inject_beats]
    refine (foldl_keeps (fun m : M => m.die.beats) _ (fun m p => M.mergeCodeword_beats m c mem _ _ p) _ _).trans ?_
    split
    · exact M.assayWrite_beats _ _ _ _
    · rfl

theorem M.spaceWrite_beats (m : M) (c space off : Nat) (bs : Bytes) : (m.spaceWrite c space off bs).die.beats = m.die.beats := by
  unfold M.spaceWrite
  dsimp only
  split
  · rfl
  · exact M.writeMem_beats _ _ _ _ _

theorem M.Recorded.beats {v m : M} {a n : Nat} (h : M.Recorded v m a n) : m.die.beats = v.die.beats := by
  obtain ⟨ws, k, hd⟩ := h.die
  rw [hd]

theorem M.landGranule_beats (m : M) (b : Beat) (space : Nat) (g : Nat × Bytes) : (m.landGranule b space g).die.beats = m.die.beats :=
  (M.recorded_record _ m _).beats.trans (M.spaceWrite_beats m _ _ _ _)

/-! ### Commands in flight brought up to date -/

/-- A beat but for its data. -/
def Beat.bare (b : Beat) : Beat := { b with granules := [] }

theorem resent_bare (c push : Nat) (again : List Beat) (b : Beat) : (resent c push again b).bare = b.bare := by
  unfold resent
  split
  · split <;> rfl
  · rfl

/-- A flight brought up to date may send its beats' data anew, and no other beats. -/
theorem M.settle_beats (m : M) (c : Nat) (f : Flight) : (m.settle c f).die.beats.map Beat.bare = m.die.beats.map Beat.bare := by
  unfold M.settle
  split
  · split
    · have hmap : ∀ again : List Beat, (m.die.beats.map (resent c f.push again)).map Beat.bare = m.die.beats.map Beat.bare := fun again => by
        rw [List.map_map]
        exact List.map_congr_left fun b _ => resent_bare _ _ _ _
      dsimp only
      split <;> exact hmap _
    · rfl
  · rfl

theorem M.settleCore_beats (m : M) (c : Nat) : (m.settleCore c).die.beats.map Beat.bare = m.die.beats.map Beat.bare :=
  foldl_keeps (fun m : M => m.die.beats.map Beat.bare) _ (fun m f => m.settle_beats c f) _ m

/-! ### A landing (R140, R235, R236) -/

/-- The state in which a beat has landed, its flights not yet up to date. -/
def M.landed (m : M) (b : Beat) : M :=
  let space := if b.memory = 1 then SCRATCH else OPC
  let uses := bankAccesses (b.granules.flatMap fun g => usesOf 0 space g.1 16 true .landing)
  let m := if b.late then m else uses.foldl (fun m u => m.useRow b.dest b.land u.mem u.off u.len true .landing) m
  let m := b.granules.foldl (fun m g => m.landGranule b space g) m
  let held := if m.awaited b then (m.core b.dest).flights.foldl (fun n f => max n (tokenCycles b f)) 0 else 0
  m.countBy (cluReg (b.dest / 17) CLU_SLIP_CYCLE_CNT) held

theorem M.landBeat_eq (m : M) (b : Beat) : m.landBeat b =
    (({ m.landed b with die.beats := (m.landed b).die.beats.filter fun x => x.id != b.id } : M).settleCore b.dest).ejectNext
      (b.dest / 17) := rfl

theorem M.landed_beats (m : M) (b : Beat) : (m.landed b).die.beats = m.die.beats := by
  unfold M.landed
  dsimp only
  rw [M.countBy_beats]
  refine (foldl_keeps (fun m : M => m.die.beats) _ (fun m g => m.landGranule_beats b _ g) _ _).trans ?_
  split
  · rfl
  · exact (M.PortsMoved.foldl (fun n u => n.portsMoved_useRow _ _ _ _ _ _ _) _ m).beats

theorem find_bare {l l' : List Beat} (h : l'.map Beat.bare = l.map Beat.bare) {p : Beat → Bool} (hp : ∀ b, p b.bare = p b) {w : Beat}
    (hw : l.find? p = some w) : ∃ x, l'.find? p = some x ∧ x.bare = w.bare := by
  have hcomp : (p ∘ Beat.bare) = p := funext hp
  have hmap := congrArg (List.find? p) h
  rw [List.find?_map, List.find?_map, hcomp, hw, Option.map_some] at hmap
  exact Option.map_eq_some_iff.mp hmap

/-- A beat that waited in the router comes into the place that a landing frees. -/
theorem M.ejectNext_first {m : M} {site : Nat} {x : Beat}
    (hx : m.die.beats.find? (fun b => b.inRouter && b.dest / 17 == site) = some x) :
    { x with inRouter := false, atEject := true } ∈ (m.ejectNext site).die.beats := by
  simp only [M.ejectNext, hx]
  exact List.mem_map.mpr ⟨x, List.mem_of_find?_eq_some hx, if_pos rfl⟩

theorem M.ejectNext_ids (m : M) (site : Nat) {x : Beat} (hx : x ∈ (m.ejectNext site).die.beats) : ∃ y ∈ m.die.beats, y.id = x.id := by
  unfold M.ejectNext at hx
  split at hx
  · obtain ⟨y, hy, rfl⟩ := List.mem_map.mp hx
    refine ⟨y, hy, ?_⟩
    split <;> rfl
  · exact ⟨x, hx, rfl⟩

/-- At its landing cycle a beat is gone, and the beat that waited longest takes its place (R235, R236). -/
theorem M.landBeat_beats (m : M) (b : Beat) :
    (∀ x ∈ (m.landBeat b).die.beats, x.id ≠ b.id) ∧
      ∀ w, (m.die.beats.filter fun x => x.id != b.id).find? (fun x => x.inRouter && x.dest / 17 == b.dest / 17) = some w →
        ∃ x ∈ (m.landBeat b).die.beats, x.id = w.id ∧ x.inRouter = false ∧ x.atEject = true := by
  rw [M.landBeat_eq]
  have hbare := M.settleCore_beats ({ m.landed b with die.beats := (m.landed b).die.beats.filter fun x => x.id != b.id } : M) b.dest
  generalize M.settleCore _ _ = n at hbare ⊢
  rw [M.landed_beats] at hbare
  refine ⟨fun x hx => ?_, fun w hw => ?_⟩
  · obtain ⟨y, hy, hyx⟩ := n.ejectNext_ids _ hx
    have hmem : y.bare ∈ (m.die.beats.filter fun x => x.id != b.id).map Beat.bare := hbare ▸ List.mem_map_of_mem hy
    obtain ⟨z, hz, hzy⟩ := List.mem_map.mp hmem
    have hid : z.id = y.id := (congrArg Beat.id hzy :)
    have hne := (List.mem_filter.mp hz).2
    rw [← hyx, ← hid]
    simpa using hne
  · obtain ⟨x, hx, hxw⟩ := find_bare hbare (fun _ => rfl) hw
    exact ⟨_, M.ejectNext_first hx, (congrArg Beat.id hxw :), rfl, rfl⟩

/-! ### The granules of a landing (R140) -/

/-- The space of a beat's memory. -/
def Beat.space (b : Beat) : Nat := if b.memory = 1 then SCRATCH else OPC

/-- A granule that lands whole in the memory of its beat. -/
structure Beat.Lands (b : Beat) (g : Nat × Bytes) : Prop where
  length : g.2.length = 16
  inside : g.1 + 16 ≤ spaceExtent b.space

/-- Granules of a beat have landed: memory holds them, and the writes recorded are theirs. -/
structure M.Landing (p m : M) (b : Beat) (pre : List (Nat × Bytes)) : Prop where
  die : ∃ ws no, m.die = { p.die with writes := ws, writeNo := no }
  there : ∀ g ∈ pre, m.read (memAddr b.dest b.memory g.1) 16 = g.2
  outside : ∀ x, (∀ g ∈ pre, x < memAddr b.dest b.memory g.1 ∨ memAddr b.dest b.memory g.1 + 16 ≤ x) → m.mem.byte x = p.mem.byte x
  theirs : ∀ x ∈ m.die.writes, ∃ g ∈ pre, x.addr = memAddr b.dest b.memory g.1 ∧ x.new.length = 16
  recorded : p.die.step ≠ none → p.awaited b = false → ∀ g ∈ pre, ∃ x ∈ m.die.writes,
    x.addr = memAddr b.dest b.memory g.1 ∧ x.new = g.2 ∧ x.old = p.read x.addr 16 ∧ x.cycle = b.land ∧ x.shown = b.land + 1

theorem M.Landing.nil {m : M} (b : Beat) (h : m.die.writes = []) : M.Landing m m b [] where
  die := ⟨_, _, rfl⟩
  there _ hg := absurd hg List.not_mem_nil
  outside _ _ := rfl
  theirs x hx := by
    rw [h] at hx
    exact absurd hx List.not_mem_nil
  recorded _ _ _ hg := absurd hg List.not_mem_nil

/-- The write of a landing granule. -/
def M.landWrite (m : M) (b : Beat) (g : Nat × Bytes) : TimedWrite :=
  { no := 0, core := b.dest, push := 2 ^ 32 + b.id, entry := m.entryOf b.dest, cycle := b.land
    shown := if m.awaited b then b.issued else b.land + 1
    rank := m.accessRank b.dest b.memory .landing, addr := memAddr b.dest b.memory g.1, old := [], new := g.2 }

section
variable {p m : M} {b : Beat} {pre : List (Nat × Bytes)} {g : Nat × Bytes}

/-- Where no flip stands and no injection is armed, a granule is stored and its write recorded. -/
theorem M.landGranule_eq (hm : b.memory = 1 ∨ b.memory = 3) (he : m.die.ecc = []) (hi : m.flag (injectReg b.dest 0) 0 = false)
    (hg : b.Lands g) : m.landGranule b b.space g =
      (m.write (memAddr b.dest b.memory g.1) g.2).record m (m.landWrite b g) := by
  have hspace : spaceMem b.space = b.memory ∧ b.space ≠ ACC ∧ b.memory ≠ 0 ∧ b.memory ≠ 7 := by
    rcases hm with h | h <;> simp [Beat.space, h, spaceMem]
  obtain ⟨hmem, hacc, h0, h7⟩ := hspace
  have hne : g.2 ≠ [] := fun e => by
    have := hg.length
    rw [e] at this
    exact absurd this (by decide)
  have hinj : m.flag (injectReg b.dest b.memory) 0 = false := by
    rw [injectReg_core b.dest h7, ← injectReg_core b.dest (show 0 ≠ 7 by decide)]
    exact hi
  have hwrite : m.spaceWrite b.dest b.space g.1 g.2 = m.write (memAddr b.dest b.memory g.1) g.2 := by
    rw [M.spaceWrite_clean m b.dest b.space g.1 g.2 hne hacc (by rw [hg.length]; exact hg.inside) he (by rw [hmem]; exact h0)
      (by rw [hmem]; exact hinj), hmem]
  have hin : insideSpace b.space g.1 g.2.length = g.2.length := by
    rw [insideSpace, hg.length]
    have := hg.inside
    omega
  have hread : (m.write (memAddr b.dest b.memory g.1) g.2).read (memAddr b.dest b.memory g.1) g.2.length = g.2 :=
    CMem.read_write_same _ _ _
  rw [M.landGranule, hwrite, hin, hread]
  rfl

/-- A write that none of those recorded follows is put last, and memory stays. -/
theorem M.record_last {m : M} (before : M) {x : TimedWrite}
    (h : ∀ y ∈ m.die.writes, y.touches x.addr x.new.length = true → m.takesAfter y x = false) :
    m.record before x = if m.die.step.isNone then m else
      { m with
        die.writeNo := m.die.writeNo + 1
        die.writes := m.die.writes ++ [{ x with no := m.die.writeNo, old := before.read x.addr x.new.length }] } := by
  have hover : ({ m with die.writeNo := m.die.writeNo + 1 } : M).overtaken
      { x with no := m.die.writeNo, old := before.read x.addr x.new.length } = false := by
    refine List.any_eq_false.mpr fun y hy => ?_
    intro hc
    obtain ⟨ht, hafter⟩ := Bool.and_eq_true_iff.mp hc
    have hfalse : m.takesAfter y x = true := hafter
    rw [h y hy ht] at hfalse
    exact absurd hfalse Bool.false_ne_true
  rw [M.record]
  simp only [hover, Bool.false_eq_true, if_false]

theorem TimedWrite.touches_iff {x : TimedWrite} {a n : Nat} : x.touches a n = true ↔ x.addr < a + n ∧ a < x.addr + x.new.length := by
  simp [TimedWrite.touches]

/-- One more granule, apart from those before it, lands. -/
theorem M.Landing.snoc (h : M.Landing p m b pre) (hm : b.memory = 1 ∨ b.memory = 3) (he : p.die.ecc = [])
    (hi : p.flag (injectReg b.dest 0) 0 = false) (hg : b.Lands g) (hd : ∀ x ∈ pre, x.1 + 16 ≤ g.1 ∨ g.1 + 16 ≤ x.1) :
    M.Landing p (m.landGranule b b.space g) b (pre ++ [g]) := by
  obtain ⟨ws, no, hdie⟩ := h.die
  have hregs : m.die.regs = p.die.regs := by rw [hdie]
  have hstep : m.die.step = p.die.step := by rw [hdie]
  have hflag : ∀ a i, m.flag a i = p.flag a i := fun a i => by rw [M.flag, M.reg_congr hregs, M.flag]
  have hapart : ∀ x ∈ pre, memAddr b.dest b.memory x.1 + 16 ≤ memAddr b.dest b.memory g.1 ∨
      memAddr b.dest b.memory g.1 + 16 ≤ memAddr b.dest b.memory x.1 := fun x hx => by
    have := hd x hx
    rw [memAddr_add b.dest b.memory x.1, memAddr_add b.dest b.memory g.1]
    omega
  have hold : m.read (memAddr b.dest b.memory g.1) 16 = p.read (memAddr b.dest b.memory g.1) 16 := by
    rw [M.read, M.read, CMem.read_eq, CMem.read_eq]
    refine List.map_congr_left fun i hi => h.outside _ fun x hx => ?_
    have := hapart x hx
    have := List.mem_range.mp hi
    omega
  have heq := M.landGranule_eq (m := m) hm (by rw [hdie]; exact he) (by rw [hflag]; exact hi) hg
  rw [M.record_last] at heq
  case h =>
    intro y hy ht
    obtain ⟨x, hx, haddr, hlen⟩ := h.theirs y hy
    obtain ⟨h1, h2⟩ := TimedWrite.touches_iff.mp ht
    have := hapart x hx
    simp only [M.landWrite, hg.length] at h1 h2
    omega
  have hmem : (m.landGranule b b.space g).mem = m.mem.write (memAddr b.dest b.memory g.1) g.2 := by
    rw [heq]
    split <;> rfl
  have hdies : ∃ ws no, (m.landGranule b b.space g).die = { m.die with writes := ws, writeNo := no } := by
    rw [heq]
    split
    · exact ⟨_, _, rfl⟩
    · exact ⟨_, _, rfl⟩
  obtain ⟨ws', no', hdie'⟩ := hdies
  refine ⟨⟨ws', no', by rw [hdie', hdie]⟩, fun x hx => ?_, fun x hx => ?_, fun y hy => ?_, fun hs ha x hx => ?_⟩
  · rw [M.read, hmem]
    rcases List.mem_append.mp hx with hx | hx
    · rw [CMem.read_write_other _ _ _ _ _ (by rw [hg.length]; exact hapart x hx)]
      exact h.there x hx
    · rw [List.mem_singleton.mp hx, ← hg.length]
      exact CMem.read_write_same _ _ _
  · rw [hmem, CMem.byte_write, if_neg]
    · exact h.outside x fun y hy => hx y (List.mem_append_left _ hy)
    · have := hx g (List.mem_append_right _ (List.mem_singleton_self g))
      rw [hg.length]
      omega
  · rw [heq] at hy
    have hin : ∀ y ∈ m.die.writes, ∃ x ∈ pre ++ [g], y.addr = memAddr b.dest b.memory x.1 ∧ y.new.length = 16 := fun y hy => by
      obtain ⟨x, hx, hxy⟩ := h.theirs y hy
      exact ⟨x, List.mem_append_left _ hx, hxy⟩
    split at hy
    · exact hin y hy
    · rcases List.mem_append.mp hy with hy | hy
      · exact hin y hy
      · rw [List.mem_singleton.mp hy]
        exact ⟨g, List.mem_append_right _ (List.mem_singleton_self g), rfl, hg.length⟩
  · have hsome : ¬ m.die.step.isNone = true := by
      rw [hstep]
      exact fun e => hs (Option.isNone_iff_eq_none.mp e)
    have hwrites : (m.landGranule b b.space g).die.writes = m.die.writes ++ [{ m.landWrite b g with
        no := m.die.writeNo, old := m.read (memAddr b.dest b.memory g.1) g.2.length }] := by
      rw [heq, if_neg (show ¬ (m.write (memAddr b.dest b.memory g.1) g.2).die.step.isNone = true from hsome)]
      rfl
    rw [hwrites]
    rcases List.mem_append.mp hx with hx | hx
    · obtain ⟨y, hy, hxy⟩ := h.recorded hs ha x hx
      exact ⟨y, List.mem_append_left _ hy, hxy⟩
    · rw [List.mem_singleton.mp hx]
      have hawait : m.awaited b = false := by rw [M.awaited, hflag, ← M.awaited, ha]
      refine ⟨_, List.mem_append_right _ (List.mem_singleton_self _), rfl, rfl, ?_, rfl, ?_⟩
      · show m.read _ g.2.length = p.read _ 16
        rw [hg.length]
        exact hold
      · show (if m.awaited b then b.issued else b.land + 1) = b.land + 1
        rw [hawait, if_neg Bool.false_ne_true]

/-- A beat's granules, apart from one another, land. -/
theorem M.Landing.granules (hm : b.memory = 1 ∨ b.memory = 3) (he : p.die.ecc = []) (hi : p.flag (injectReg b.dest 0) 0 = false)
    (hw : p.die.writes = []) {l : List (Nat × Bytes)} (hl : ∀ g ∈ l, b.Lands g)
    (hd : l.Pairwise fun x y => x.1 + 16 ≤ y.1 ∨ y.1 + 16 ≤ x.1) :
    M.Landing p (l.foldl (fun m g => m.landGranule b b.space g) p) b l := by
  induction l using List.reverseRecOn with
  | nil => exact .nil b hw
  | append_singleton l g ih =>
    obtain ⟨hd, -, hg⟩ := List.pairwise_append.mp hd
    rw [List.foldl_append]
    exact (ih (fun x hx => hl x (List.mem_append_left _ hx)) hd).snoc hm he hi (hl g (List.mem_append_right _ (List.mem_singleton_self g)))
      fun x hx => hg x hx g (List.mem_singleton_self g)

end

/-! ### A landing that no command in flight has read before -/

/-- Flights that no recorded write has overtaken stay as they are. -/
theorem M.settleCore_current {m : M} {c : Nat} (h : ∀ f ∈ (m.core c).flights, m.die.writes.any (m.overtakes c f) = false) :
    m.settleCore c = m := by
  unfold M.settleCore
  generalize (m.core c).flights = l at h
  induction l with
  | nil => rfl
  | cons f l ih =>
    rw [List.foldl_cons, M.settle_current (h f List.mem_cons_self)]
    exact ih fun x hx => h x (List.mem_cons_of_mem _ hx)

/-- A write that touches none of a flight's reads has not overtaken it. -/
theorem M.not_overtakes {m : M} {c : Nat} {f : Flight} (h : ∀ x ∈ m.die.writes, ∀ r ∈ f.reads, x.touches r.addr r.len = false) :
    m.die.writes.any (m.overtakes c f) = false := by
  refine List.any_eq_false.mpr fun x hx hover => ?_
  obtain ⟨-, hany⟩ := Bool.and_eq_true_iff.mp hover
  obtain ⟨r, hr, ht⟩ := List.any_eq_true.mp hany
  rw [h x hx r hr, Bool.false_and] at ht
  exact absurd ht Bool.false_ne_true

theorem M.ejectNext_leaves (m : M) (site : Nat) : ∃ beats, m.ejectNext site = { m with die.beats := beats } := by
  unfold M.ejectNext
  split
  · exact ⟨_, rfl⟩
  · exact ⟨m.die.beats, rfl⟩

theorem not_portCounter_ctrl (c : Nat) : ¬ portCounter (coreReg c CORE_CTRL) := not_portCounter_coreReg c (by decide) (by decide)

/-- The state whose ports a beat on time has taken. -/
def M.landPorts (m : M) (b : Beat) : M :=
  if b.late then m else (bankAccesses (b.granules.flatMap fun g => usesOf 0 b.space g.1 16 true .landing)).foldl
    (fun m u => m.useRow b.dest b.land u.mem u.off u.len true .landing) m

theorem M.portsMoved_landPorts (m : M) (b : Beat) : M.PortsMoved m (m.landPorts b) := by
  unfold M.landPorts
  split
  · exact .refl m
  · exact M.PortsMoved.foldl (fun n u => n.portsMoved_useRow _ _ _ _ _ _ _) _ m

theorem M.landed_eq (m : M) (b : Beat) : ∃ held, m.landed b =
    (b.granules.foldl (fun m g => m.landGranule b b.space g) (m.landPorts b)).countBy (cluReg (b.dest / 17) CLU_SLIP_CYCLE_CNT) held :=
  ⟨_, rfl⟩

/-- A landing whose granules no command in flight reads writes them and nothing else (R140, R235, R236). -/
theorem landBeat_writes {v : M} {b : Beat} (hm : b.memory = 1 ∨ b.memory = 3) (he : v.die.ecc = []) (hw : v.die.writes = [])
    (hr : ∀ f ∈ (v.core b.dest).flights, ∀ r ∈ f.reads, ∀ g ∈ b.granules,
      r.addr + r.len ≤ memAddr b.dest b.memory g.1 ∨ memAddr b.dest b.memory g.1 + 16 ≤ r.addr)
    (hg : ∀ g ∈ b.granules, b.Lands g) (hd : b.granules.Pairwise fun x y => x.1 + 16 ≤ y.1 ∨ y.1 + 16 ≤ x.1)
    (hi : v.flag (injectReg b.dest 0) 0 = false) :
    let m := v.landBeat b
    (∀ w, (v.die.beats.filter fun x => x.id != b.id).find? (fun x => x.inRouter && x.dest / 17 == b.dest / 17) = some w →
      { w with inRouter := false, atEject := true } ∈ m.die.beats) ∧
    (∀ g ∈ b.granules, m.read (memAddr b.dest b.memory g.1) 16 = g.2) ∧
    (∀ x, (∀ g ∈ b.granules, x < memAddr b.dest b.memory g.1 ∨ memAddr b.dest b.memory g.1 + 16 ≤ x) → m.read x 1 = v.read x 1) ∧
    (v.die.step ≠ none → v.awaited b = false → ∀ g ∈ b.granules, ∃ x ∈ m.die.writes,
      x.addr = memAddr b.dest b.memory g.1 ∧ x.new = g.2 ∧ x.old = v.read x.addr 16 ∧ x.cycle = b.land ∧ x.shown = b.land + 1) ∧
    sameButPorts v m [] ∧ ∀ d, timeless (m.core d) = timeless (v.core d) := by
  intro m
  have hports := v.portsMoved_landPorts b
  obtain ⟨held, hland⟩ := v.landed_eq b
  have hbeats := v.landed_beats b
  have hm' : m = _ := v.landBeat_eq b
  rw [hland] at hbeats hm'
  have hflag : (v.landPorts b).flag (injectReg b.dest 0) 0 = false := by
    rw [hports.flag (not_portCounter_injectReg b.dest (by decide)), hi]
  have hlanding := M.Landing.granules hm (hports.ecc.trans he) hflag (hports.writes.trans hw) hg hd
  generalize v.landPorts b = p at hports hlanding hm' hbeats
  generalize b.granules.foldl (fun m g => m.landGranule b b.space g) p = q at hlanding hm' hbeats
  obtain ⟨⟨ws, no, hdie⟩, hthere, houtside, htheirs, hrecorded⟩ := hlanding
  have hslip := q.portsMoved_countBy (portCounter_slip (b.dest / 17)) held
  generalize q.countBy (cluReg (b.dest / 17) CLU_SLIP_CYCLE_CNT) held = n at hslip hm' hbeats
  have hcores : ∀ d, timeless (n.core d) = timeless (v.core d) := fun d => by
    rw [hslip.cores, show q.core d = p.core d from congrArg (mapGetD · d Core.fresh) (by rw [hdie]), hports.cores]
  have hsettle : ({ n with die.beats := n.die.beats.filter fun x => x.id != b.id } : M).settleCore b.dest =
      { n with die.beats := n.die.beats.filter fun x => x.id != b.id } := by
    refine M.settleCore_current fun f hf => M.not_overtakes fun x hx r hmem => ?_
    have hfl : f ∈ (v.core b.dest).flights := by
      have hk := congrArg Core.flights (hcores b.dest)
      exact (show (n.core b.dest).flights = (v.core b.dest).flights from hk) ▸ hf
    obtain ⟨g, hgm, haddr, hlen⟩ := htheirs x (hslip.writes ▸ hx)
    have := hr f hfl r hmem g hgm
    refine Bool.eq_false_iff.mpr fun ht => ?_
    have := TimedWrite.touches_iff.mp ht
    omega
  rw [hsettle, hbeats] at hm'
  have hnext := fun w => M.ejectNext_first (m := { n with die.beats := v.die.beats.filter fun x => x.id != b.id }) (site := b.dest / 17)
    (x := w)
  obtain ⟨beats, hej⟩ := M.ejectNext_leaves { n with die.beats := v.die.beats.filter fun x => x.id != b.id } (b.dest / 17)
  rw [← hm'] at hnext hej
  have hmem : m.mem = q.mem := by rw [hej]; exact hslip.mem
  have hwrites : m.die.writes = q.die.writes := by rw [hej]; exact hslip.writes
  have hmv : p.mem = v.mem := hports.mem
  refine ⟨hnext, fun g hgm => ?_, fun x hx => ?_, fun hs ha g hgm => ?_, fun a ha hp => ?_, fun d => ?_⟩
  · rw [M.read, hmem]
    exact hthere g hgm
  · rw [M.read_one, M.read_one, hmem, houtside x hx, hmv]
  · have hs' : p.die.step ≠ none := fun e => hs (by
      have := hports.step_isNone
      rw [e] at this
      exact Option.isNone_iff_eq_none.mp this.symm)
    have ha' : p.awaited b = false := by rw [M.awaited, hports.flag (not_portCounter_ctrl b.dest), ← M.awaited, ha]
    obtain ⟨x, hx, haddr, hnew, hold, hcyc⟩ := hrecorded hs' ha' g hgm
    exact ⟨x, hwrites ▸ hx, haddr, hnew, by rw [hold, M.read, hmv, M.read], hcyc⟩
  · have hreg : m.reg a = n.reg a := by rw [hej]; rfl
    rw [hreg, hslip.reg hp, M.reg_congr (show q.die.regs = p.die.regs by rw [hdie]), hports.reg hp]
  · rw [show m.core d = n.core d by rw [hej]; rfl]
    exact hcores d

end Sys2Proof.Machine

/-! ## The data mover inside a core: what it stores, and where (R132, R640, R645 to R648) -/

namespace Sys2Proof.Machine

/-! ### Memory changed inside a range -/

/-- From `v` to `m` nothing but bytes of a range of addresses changes. -/
structure M.Stored (v m : M) (a n : Nat) : Prop where
  die : m.die = v.die
  bytes : ∀ x, x < a ∨ a + n ≤ x → m.mem.byte x = v.mem.byte x

/-- No flip stands in a memory, and no injection is armed for a core. -/
structure M.Clean (m : M) (c : Nat) : Prop where
  ecc : m.die.ecc = []
  inject : ∀ mem, m.flag (injectReg c mem) 0 = false

section
variable {v m n : M} {a k c : Nat}

theorem M.Stored.refl (m : M) (a k : Nat) : M.Stored m m a k := ⟨rfl, fun _ _ => rfl⟩

theorem M.Stored.trans (h : M.Stored v m a k) (h' : M.Stored m n a k) : M.Stored v n a k :=
  ⟨h'.die.trans h.die, fun x hx => (h'.bytes x hx).trans (h.bytes x hx)⟩

theorem M.Stored.recorded (h : M.Stored v m a k) : M.Recorded v m a k := ⟨⟨_, _, h.die⟩, h.bytes⟩

theorem M.Clean.stored (hc : v.Clean c) (h : M.Stored v m a k) : m.Clean c where
  ecc := h.die ▸ hc.ecc
  inject mem := by
    rw [M.flag, M.reg_congr (congrArg Die.regs h.die), ← M.flag]
    exact hc.inject mem

theorem M.Clean.read (hc : m.Clean c) (space off n : Nat) : m.spaceRead c space off n = (bytesIn m c space off n, m) :=
  Prod.ext rfl (M.spaceRead_snd _ _ _ _ _ hc.ecc)

end

/-! ### Rows written into a range W -/

/-- Bytes from an offset on lie in the write range. -/
def Job.inW (j : Job) (off n : Nat) : Prop := j.w.base ≤ off ∧ off + n ≤ j.w.base + j.w.bytes

/-- The address of the write range. -/
def Job.wAddr (j : Job) : Nat := memAddr j.c (spaceMem j.w.space) j.w.base

section
variable {j : Job} (hw : WriteRange j) {m : M}
include hw

/-- Bytes in the write range are stored as they stand. -/
theorem M.spaceWrite_w (hc : m.Clean j.c) {off : Nat} {bs : Bytes} (hbs : bs ≠ []) (hin : j.inW off bs.length) :
    m.spaceWrite j.c j.w.space off bs = m.write (memAddr j.c (spaceMem j.w.space) off) bs :=
  M.spaceWrite_clean m _ _ _ bs hbs hw.notAcc (hin.2.trans hw.inside) hc.ecc hw.notLode (hc.inject _)

theorem M.stored_spaceWrite (hc : m.Clean j.c) {off : Nat} {bs : Bytes} (hin : bs ≠ [] → j.inW off bs.length) :
    M.Stored m (m.spaceWrite j.c j.w.space off bs) j.wAddr j.w.bytes := by
  by_cases hbs : bs = []
  · rw [hbs, M.spaceWrite_nil]
    exact .refl ..
  · obtain ⟨h1, h2⟩ := hin hbs
    rw [M.spaceWrite_w hw hc hbs ⟨h1, h2⟩]
    refine ⟨rfl, fun x hx => ?_⟩
    rw [M.byte_write, if_neg]
    rw [Job.wAddr, memAddr_add] at hx
    rw [memAddr_add j.c _ off]
    omega

theorem M.stored_writeRows (rows : List (Nat × Bytes)) (hin : ∀ p ∈ rows, p.2 ≠ [] → j.inW p.1 p.2.length) :
    ∀ m : M, m.Clean j.c → M.Stored m (m.writeRows j.c j.w.space rows) j.wAddr j.w.bytes := by
  induction rows with
  | nil => exact fun m _ => .refl ..
  | cons p rows ih =>
    intro m hc
    have hp := M.stored_spaceWrite hw hc (hin p List.mem_cons_self)
    exact hp.trans (ih (fun q hq => hin q (List.mem_cons_of_mem _ hq)) _ (hc.stored hp))

/-- Rows that lie apart from some bytes leave them. -/
theorem M.writeRows_apart {off n : Nat} (rows : List (Nat × Bytes)) (hin : ∀ p ∈ rows, p.2 ≠ [] → j.inW p.1 p.2.length)
    (hd : ∀ p ∈ rows, p.1 + p.2.length ≤ off ∨ off + n ≤ p.1) : ∀ m : M, m.Clean j.c →
    bytesIn (m.writeRows j.c j.w.space rows) j.c j.w.space off n = bytesIn m j.c j.w.space off n := by
  induction rows with
  | nil => exact fun m _ => rfl
  | cons p rows ih =>
    intro m hc
    have hp := M.stored_spaceWrite hw hc (hin p List.mem_cons_self)
    rw [M.writeRows, List.foldl_cons, ← M.writeRows, ih (fun q hq => hin q (List.mem_cons_of_mem _ hq))
      (fun q hq => hd q (List.mem_cons_of_mem _ hq)) _ (hc.stored hp)]
    by_cases hbs : p.2 = []
    · rw [hbs, M.spaceWrite_nil]
    · rw [M.spaceWrite_w hw hc hbs (hin p List.mem_cons_self hbs), bytesIn_eq _ _ _ _ _ (show (m.write _ _).die.ecc = [] from hc.ecc) hw.notAcc,
        bytesIn_eq _ _ _ _ _ hc.ecc hw.notAcc]
      refine List.map_congr_left fun i hi => ?_
      have hi' := List.mem_range.mp hi
      have := hd p List.mem_cons_self
      have hne : ¬ (memAddr j.c (spaceMem j.w.space) p.1 ≤ memAddr j.c (spaceMem j.w.space) (off + i) ∧
          memAddr j.c (spaceMem j.w.space) (off + i) < memAddr j.c (spaceMem j.w.space) p.1 + p.2.length) := by
        rw [memAddr_add j.c _ (off + i), memAddr_add j.c _ p.1]
        omega
      simp only [M.spaceByte, M.byte_write, if_neg hne]

/-- A row stands where it was written, if the rows after it lie apart from it. -/
theorem M.writeRows_there {pre post : List (Nat × Bytes)} {off : Nat} {bs : Bytes}
    (hin : ∀ p ∈ pre ++ (off, bs) :: post, p.2 ≠ [] → j.inW p.1 p.2.length)
    (hd : ∀ p ∈ post, p.1 + p.2.length ≤ off ∨ off + bs.length ≤ p.1) (hc : m.Clean j.c) :
    bytesIn (m.writeRows j.c j.w.space (pre ++ (off, bs) :: post)) j.c j.w.space off bs.length = bs := by
  have hpre := M.stored_writeRows hw pre (fun p hp => hin p (List.mem_append_left _ hp)) m hc
  have hmid := fun hne => hin (off, bs) (List.mem_append_right _ List.mem_cons_self) hne
  have hone := M.stored_spaceWrite hw (hc.stored hpre) (off := off) (bs := bs) hmid
  rw [M.writeRows, List.foldl_append, List.foldl_cons, ← M.writeRows, ← M.writeRows,
    M.writeRows_apart hw post (fun p hp => hin p (List.mem_append_right _ (List.mem_cons_of_mem _ hp))) hd _
      ((hc.stored hpre).stored hone)]
  by_cases hbs : bs = []
  · subst hbs
    exact bytesIn_zero _ _ _ _ ((hc.stored hpre).stored hone).ecc
  · rw [M.spaceWrite_w hw (hc.stored hpre) hbs (hmid hbs)]
    exact bytesIn_write _ _ _ _ _ (hc.stored hpre).ecc hw.notAcc ((hmid hbs).2.trans hw.inside)

end

/-! ### Granules that move in their own cycles (R205, R648) -/

/-- Data of granules: what is read of each has at most 16 bytes. -/
def Small (data : NMap Bytes) : Prop := ∀ i d, d.length ≤ 16 → (mapGetD data i d).length ≤ 16

theorem small_nil : Small [] := fun _ _ h => h

theorem Small.set {data : NMap Bytes} (h : Small data) (i : Nat) {bs : Bytes} (hbs : bs.length ≤ 16) : Small (mapSet data i bs) :=
  fun k d hd => by
    by_cases hk : k = i
    · rw [hk, mapGetD_mapSet_same]
      exact hbs
    · rw [mapGetD_mapSet_ne _ _ _ _ _ hk]
      exact h k d hd

/-- A granule that moves is written, whole, at a granule of the write range. -/
def Job.fits (j : Job) (g : Grain) : Prop := g.live = true → j.inW g.dst 16 ∧ g.dst % 16 = 0

/-- The granules of a list are. -/
def Job.landInW (j : Job) (ts : List Timed) : Prop := ∀ x ∈ ts, j.fits x.grain

theorem Job.inW.le {j : Job} {off n k : Nat} (h : j.inW off n) (hk : k ≤ n) : j.inW off k := ⟨h.1, by have := h.2; omega⟩

/-- The granules of a list that move, with their places in the list. -/
def liveOf (ts : List Timed) : List (Timed × Nat) := ts.zipIdx.filter fun p => p.1.grain.live

/-- The granules read in a cycle. -/
def M.readCycle (j : Job) (pad : Bytes) (ts : List Timed) (t : Nat) (x : NMap Bytes × M) : NMap Bytes × M :=
  ((liveOf ts).filter fun p => p.1.readAt == t).foldl (fun (data, m) (x, i) =>
    match x.grain.src with
    | none => (mapSet data i pad, m)
    | some a =>
      let (bs, m) := m.spaceRead j.c j.a.space a 16
      (mapSet data i bs, m)) x

/-- The granules written in a cycle. -/
def M.writeCycle (j : Job) (pad : Bytes) (ts : List Timed) (t : Nat) (data : NMap Bytes) (m : M) : M :=
  ((liveOf ts).filter fun p => p.1.writeAt == t).foldl (fun m (x, i) =>
    m.spaceWrite j.c j.w.space x.grain.dst (mapGetD data i pad)) m

theorem M.moveCycles_eq (m : M) (j : Job) (pad : Bytes) (ts : List Timed) (lo hi : Nat) (data : NMap Bytes) :
    m.moveCycles j pad ts lo hi data = (List.range (hi - lo)).foldl (fun x n =>
      ((M.readCycle j pad ts (lo + n) x).1, M.writeCycle j pad ts (lo + n) (M.readCycle j pad ts (lo + n) x).1
        (M.readCycle j pad ts (lo + n) x).2)) (data, m) := rfl

section
variable {j : Job} (hw : WriteRange j) {pad : Bytes} (hpad : pad.length ≤ 16) {ts : List Timed}
include hpad

theorem M.readCycle_small (t : Nat) {x : NMap Bytes × M} (hd : Small x.1) (hc : x.2.Clean j.c) :
    Small (M.readCycle j pad ts t x).1 ∧ (M.readCycle j pad ts t x).2 = x.2 := by
  refine List.foldlRecOn (motive := fun y : NMap Bytes × M => Small y.1 ∧ y.2 = x.2) _ _ ⟨hd, rfl⟩ ?_
  rintro ⟨data, m⟩ ⟨hd, rfl⟩ ⟨y, i⟩ -
  dsimp only
  cases y.grain.src with
  | none => exact ⟨hd.set i hpad, rfl⟩
  | some a =>
    simp only [hc.read]
    exact ⟨hd.set i (bytesIn_length _ _ _ _ _ hc.ecc).le, trivial⟩

include hw

theorem M.stored_writeCycle (hts : j.landInW ts) (t : Nat) {data : NMap Bytes} (hd : Small data) {m : M} (hc : m.Clean j.c) :
    M.Stored m (M.writeCycle j pad ts t data m) j.wAddr j.w.bytes := by
  refine List.foldlRecOn (motive := fun n => M.Stored m n j.wAddr j.w.bytes) _ _ (.refl ..) ?_
  rintro n hn ⟨x, i⟩ hx
  obtain ⟨hmem, hlive⟩ := List.mem_filter.mp (List.mem_filter.mp hx).1
  obtain ⟨hin, -⟩ := hts x (List.fst_mem_of_mem_zipIdx hmem) hlive
  exact hn.trans (M.stored_spaceWrite hw (hc.stored hn) fun _ => hin.le (hd i pad hpad))

theorem M.stored_moveCycles (hts : j.landInW ts) (lo hi : Nat) {data : NMap Bytes} (hd : Small data) {m : M} (hc : m.Clean j.c) :
    M.Stored m (m.moveCycles j pad ts lo hi data).2 j.wAddr j.w.bytes ∧ Small (m.moveCycles j pad ts lo hi data).1 := by
  rw [M.moveCycles_eq]
  refine List.foldlRecOn (motive := fun y : NMap Bytes × M => M.Stored m y.2 j.wAddr j.w.bytes ∧ Small y.1) _ _ ⟨.refl .., hd⟩ ?_
  rintro ⟨data, n⟩ ⟨hn, hd⟩ t -
  obtain ⟨hsmall, hsame⟩ := M.readCycle_small hpad (ts := ts) (lo + t) (x := (data, n)) hd (hc.stored hn)
  refine ⟨?_, hsmall⟩
  dsimp only
  rw [hsame]
  exact hn.trans (M.stored_writeCycle hw hpad hts (lo + t) hsmall (hc.stored hn))

end

end Sys2Proof.Machine

/-! ## The schedule of the data mover's writes (R646, R648) -/

namespace Sys2Proof.Machine

/-! ### Rows placed one after another -/

theorem find_mem_or_getD {α : Type} (l : List α) (p : α → Bool) (d : α) : (l.find? p).getD d ∈ l ∨ (l.find? p).getD d = d := by
  cases h : l.find? p with
  | none => exact .inr rfl
  | some a => exact .inl (List.mem_of_find?_eq_some h)

theorem le_foldl_max {α : Type} (f : Nat → α → Nat) (hf : ∀ t a, t ≤ f t a) (l : List α) (t : Nat) : t ≤ l.foldl f t := by
  induction l generalizing t with
  | nil => exact Nat.le_refl t
  | cons a l ih => exact (hf t a).trans (ih _)

theorem foldl_max_of_mem {α : Type} (f : Nat → α → Nat) (hf : ∀ t a, t ≤ f t a) {k : Nat} {l : List α} {a : α} (ha : a ∈ l)
    (hk : ∀ t, k ≤ f t a) (t : Nat) : k ≤ l.foldl f t := by
  induction l generalizing t with
  | nil => exact absurd ha List.not_mem_nil
  | cons b l ih =>
    rcases List.mem_cons.mp ha with rfl | ha
    · exact (hk t).trans (le_foldl_max f hf l _)
    · exact ih ha _

/-- A row goes after every row placed before it in its bank. -/
theorem firstSlot_gt {placed : List (Nat × Nat × Nat)} {p : Nat × Nat × Nat} (hp : p ∈ placed) (lo n limit : Nat) :
    p.1 < firstSlot placed lo p.2.1 n limit := by
  have hlo : p.1 + 1 ≤ placed.foldl (fun l q => if q.2.1 = p.2.1 then max l (q.1 + 1) else l) lo := by
    refine foldl_max_of_mem _ (fun t a => ?_) hp (fun t => ?_) lo
    · split
      · exact Nat.le_max_left _ _
      · exact Nat.le_refl _
    · rw [if_pos rfl]
      exact Nat.le_max_right _ _
  unfold firstSlot
  dsimp only
  generalize placed.foldl (fun l q => if q.2.1 = p.2.1 then max l (q.1 + 1) else l) lo = lo' at hlo
  rcases find_mem_or_getD ((List.range (placed.length + 1)).map (lo' + ·))
      (fun t => decide (sumBy (placed.filter fun q => q.1 == t) (·.2.2) + n ≤ limit)) (lo' + placed.length) with h | h
  · obtain ⟨k, -, hk⟩ := List.mem_map.mp h
    rw [← hk]
    omega
  · rw [h]
    omega

/-- What placing rows answers: each row's cycle, behind those of its bank, and the rows placed. -/
structure RowsPlaced (rows placed : List (Nat × Nat × Nat)) (r : List Nat × List (Nat × Nat × Nat)) : Prop where
  length : r.1.length = rows.length
  keeps : ∀ p ∈ placed, p ∈ r.2
  after : ∀ x ∈ rows.zip r.1, ∀ p ∈ placed, p.2.1 = x.1.1 → p.1 < x.2
  placed : ∀ x ∈ rows.zip r.1, (x.2, x.1.1, x.1.2.1) ∈ r.2

theorem placeRows_snoc (limit : Nat) (rows : List (Nat × Nat × Nat)) (row : Nat × Nat × Nat) (placed : List (Nat × Nat × Nat)) :
    placeRows limit (rows ++ [row]) placed =
      ((placeRows limit rows placed).1 ++ [firstSlot (placeRows limit rows placed).2 row.2.2 row.1 row.2.1 limit],
        (placeRows limit rows placed).2 ++ [(firstSlot (placeRows limit rows placed).2 row.2.2 row.1 row.2.1 limit, row.1, row.2.1)]) := by
  simp only [placeRows, List.foldl_append, List.foldl_cons, List.foldl_nil]

theorem placeRows_placed (limit : Nat) (rows placed : List (Nat × Nat × Nat)) : RowsPlaced rows placed (placeRows limit rows placed) := by
  induction rows using List.reverseRecOn with
  | nil =>
    refine ⟨rfl, fun p hp => hp, fun x hx => ?_, fun x hx => ?_⟩ <;> exact absurd hx List.not_mem_nil
  | append_singleton rows row ih =>
    obtain ⟨hlen, hkeeps, hafter, hplaced⟩ := ih
    rw [placeRows_snoc]
    generalize placeRows limit rows placed = r at hlen hkeeps hafter hplaced
    have hzip : (rows ++ [row]).zip (r.1 ++ [firstSlot r.2 row.2.2 row.1 row.2.1 limit]) =
        rows.zip r.1 ++ [(row, firstSlot r.2 row.2.2 row.1 row.2.1 limit)] := by
      rw [List.zip_append hlen.symm]
      rfl
    refine ⟨by simp [hlen], fun p hp => List.mem_append_left _ (hkeeps p hp), fun x hx p hp hb => ?_, fun x hx => ?_⟩
    · rw [hzip] at hx
      rcases List.mem_append.mp hx with hx | hx
      · exact hafter x hx p hp hb
      · rw [List.mem_singleton.mp hx] at hb ⊢
        have hgt := firstSlot_gt (hkeeps p hp) row.2.2 row.2.1 limit
        rwa [hb] at hgt
    · rw [hzip] at hx
      rcases List.mem_append.mp hx with hx | hx
      · exact List.mem_append_left _ (hplaced x hx)
      · rw [List.mem_singleton.mp hx]
        exact List.mem_append_right _ (List.mem_singleton_self _)

/-! ### The cycles of a row's granules -/

theorem lookup_zip {rows ts : List Nat} (h : ts.length = rows.length) {r : Nat} (hr : r ∈ rows) :
    ∃ t, (rows.zip ts).lookup r = some t ∧ (r, t) ∈ rows.zip ts := by
  induction rows generalizing ts with
  | nil => exact absurd hr List.not_mem_nil
  | cons a rows ih =>
    cases ts with
    | nil => exact absurd h (by simp)
    | cons t ts =>
      by_cases hra : r = a
      · exact ⟨t, by simp [hra], by simp [hra]⟩
      · have hbeq : (r == a) = false := by simpa using hra
        obtain ⟨u, hu, hmem⟩ := ih (by simpa using h) ((List.mem_cons.mp hr).resolve_left hra)
        exact ⟨u, by rw [List.zip_cons_cons, List.lookup_cons, hbeq]; exact hu, List.mem_cons_of_mem _ hmem⟩

/-- The cycles in which granules are written: one for each row of 64 bytes, behind the rows placed before it in its bank. -/
structure RowCycles (mem : Nat) (gs : List Grain) (placed : List (Nat × Nat × Nat)) (r : List Nat × List (Nat × Nat × Nat))
    (cyc : Nat → Nat) : Prop where
  cycles : r.1 = gs.map fun g => cyc (g.dst / 64)
  keeps : ∀ p ∈ placed, p ∈ r.2
  after : ∀ g ∈ gs, ∀ p ∈ placed, p.2.1 = rowBank mem (64 * (g.dst / 64)) → p.1 < cyc (g.dst / 64)
  placed : ∀ g ∈ gs, ∃ n, (cyc (g.dst / 64), rowBank mem (64 * (g.dst / 64)), n) ∈ r.2

theorem writeCycles_rows (limit mem : Nat) (gs : List Grain) (ready : List Nat) (placed : List (Nat × Nat × Nat)) :
    ∃ cyc, RowCycles mem gs placed (writeCycles limit mem gs ready placed) cyc := by
  have hmem : ∀ g ∈ gs, g.dst / 64 ∈ rowOrder (gs.map (·.dst)) := fun g hg =>
    mem_eraseDups.mpr (List.mem_map_of_mem (List.mem_map_of_mem hg))
  unfold writeCycles
  dsimp only
  generalize hrow : (fun r => (rowBank mem (64 * r), (((gs.map (·.dst)).zip ready).filter fun p => p.1 / 64 == r).length,
    (((gs.map (·.dst)).zip ready).filter fun p => p.1 / 64 == r).foldl (fun t p => max t p.2) 1)) = row
  have hbank : ∀ r, (row r).1 = rowBank mem (64 * r) := fun r => by rw [← hrow]
  obtain ⟨hlen, hkeeps, hafter, hplaced⟩ := placeRows_placed limit ((rowOrder (gs.map (·.dst))).map row) placed
  generalize placeRows limit ((rowOrder (gs.map (·.dst))).map row) placed = q at hlen hkeeps hafter hplaced
  generalize rowOrder (gs.map (·.dst)) = rows at hmem hlen hafter hplaced
  have hin : ∀ g ∈ gs, ∃ t, ((rows.zip q.1).lookup (g.dst / 64)).getD 1 = t ∧ (row (g.dst / 64), t) ∈ (rows.map row).zip q.1 := fun g hg => by
    obtain ⟨t, ht, hz⟩ := lookup_zip (by simpa using hlen) (hmem g hg)
    refine ⟨t, by rw [ht, Option.getD_some], ?_⟩
    rw [List.zip_map_left]
    exact List.mem_map_of_mem hz
  refine ⟨fun r => ((rows.zip q.1).lookup r).getD 1, by rw [List.map_map]; rfl, hkeeps, fun g hg p hp hb => ?_, fun g hg => ?_⟩
  · obtain ⟨t, ht, hz⟩ := hin g hg
    rw [ht]
    exact hafter _ hz p hp (by rw [hbank, hb])
  · obtain ⟨t, ht, hz⟩ := hin g hg
    rw [ht, ← hbank]
    exact ⟨_, hplaced _ hz⟩

/-! ### Granules of one row keep their order -/

/-- Of two granules of one row of 64 bytes, the one that comes later in the list is not written earlier. -/
def Ordered (ts : List Timed) : Prop := ts.Pairwise fun x y => x.grain.dst / 64 = y.grain.dst / 64 → x.writeAt ≤ y.writeAt

theorem ordered_of_rows {ts : List Timed} {cyc : Nat → Nat} (h : ∀ x ∈ ts, x.writeAt = cyc (x.grain.dst / 64)) : Ordered ts :=
  List.pairwise_of_forall_mem_list fun x hx y hy e => by rw [h x hx, h y hy, e]

/-- Granules with the cycles of their reads and writes. -/
def timedOf (gs : List Grain) (rs ws : List Nat) : List Timed :=
  (gs.zip (rs.zip ws)).map fun (g, r, w) => { grain := g, readAt := r, writeAt := w }

theorem timedOf_grains (gs : List Grain) (f : Grain → Nat) : ∀ rs : List Nat, rs.length = gs.length →
    (timedOf gs rs (gs.map f)).map (·.grain) = gs ∧ ∀ x ∈ timedOf gs rs (gs.map f), x.writeAt = f x.grain := by
  induction gs with
  | nil => exact fun rs _ => ⟨rfl, fun x hx => absurd hx List.not_mem_nil⟩
  | cons g gs ih =>
    intro rs h
    cases rs with
    | nil => exact absurd h (by simp)
    | cons r rs =>
      obtain ⟨hgs, hws⟩ := ih rs (by simpa using h)
      refine ⟨congrArg (g :: ·) hgs, fun x hx => ?_⟩
      rcases List.mem_cons.mp hx with rfl | hx
      · rfl
      · exact hws x hx

theorem readCycles_length (limit mem : Nat) (gs : List Grain) : (readCycles limit mem gs).length = gs.length := by
  unfold readCycles
  simp

theorem copyTimes_ordered (src dst : Nat) (gs : List Grain) :
    Ordered (copyTimes src dst gs) ∧ (copyTimes src dst gs).map (·.grain) = gs := by
  obtain ⟨cyc, hcyc, -⟩ := writeCycles_rows (copyLimit src dst) (spaceMem dst) gs
    ((readCycles (copyLimit src dst) (spaceMem src) gs).map (· + 7)) []
  have heq : copyTimes src dst gs = timedOf gs (readCycles (copyLimit src dst) (spaceMem src) gs) (gs.map fun g => cyc (g.dst / 64)) := by
    rw [← hcyc]
    rfl
  obtain ⟨hgs, hws⟩ := timedOf_grains gs (fun g => cyc (g.dst / 64)) _ (readCycles_length (copyLimit src dst) (spaceMem src) gs)
  rw [heq]
  exact ⟨ordered_of_rows hws, hgs⟩

theorem fillTimes_ordered (dst : Nat) (gs : List Grain) :
    Ordered (fillTimes dst gs) ∧ (fillTimes dst gs).map (·.grain) = gs := by
  obtain ⟨cyc, hcyc, -⟩ := writeCycles_rows (copyLimit dst dst) (spaceMem dst) gs (gs.map fun _ => 1) []
  have heq : fillTimes dst gs = gs.map fun g => { grain := g, readAt := 0, writeAt := cyc (g.dst / 64) } := by
    show (gs.zip (writeCycles _ _ gs _ []).1).map _ = _
    have hzip : gs.zip (gs.map fun g => cyc (g.dst / 64)) = gs.map fun g => (g, cyc (g.dst / 64)) := by
      have hmap : (gs.map id).zip (gs.map fun g => cyc (g.dst / 64)) = _ := List.zip_map'
      simpa using hmap
    rw [hcyc, hzip, List.map_map]
    rfl
  rw [heq]
  refine ⟨ordered_of_rows (cyc := cyc) fun x hx => ?_, by
    rw [List.map_map]
    exact List.map_id gs⟩
  obtain ⟨g, -, rfl⟩ := List.mem_map.mp hx
  rfl

/-! ### Rows that move by their indexes -/

/-- One index of a DGATHER or DSCATTER: what earlier cycles move, the index, and the cycles of its row. -/
def M.indexStep (j : Job) (pad : Bytes) (row : Nat → Int → List Grain)
    (s : List Timed × List (Nat × Nat × Nat) × NMap Bytes × M) (i : Nat) : List Timed × List (Nat × Nat × Nat) × NMap Bytes × M :=
  let moved := s.2.2.2.moveCycles j pad s.1 (1 + (i - 1) * j.rowCycles * bit (i != 0)) (1 + i * j.rowCycles) s.2.2.1
  let x := if i < j.bd 1 then moved.2.index j i else (0, moved.2)
  let more := indexedTimes (copyLimit j.a.space j.w.space) i j.w.space (row i x.1) s.2.1
  (s.1 ++ more.1, more.2, moved.1, x.2)

/-- The rows of the first indexes. -/
def M.indexRows (m : M) (j : Job) (pad : Bytes) (row : Nat → Int → List Grain) (k : Nat) :
    List Timed × List (Nat × Nat × Nat) × NMap Bytes × M :=
  (List.range k).foldl (M.indexStep j pad row) ([], [], [], m)

theorem M.moveIndexed_eq (m : M) (j : Job) (pad : Bytes) (row : Nat → Int → List Grain) :
    m.moveIndexed j pad row = ((m.indexRows j pad row (j.d 1)).1,
      ((m.indexRows j pad row (j.d 1)).2.2.2.moveCycles j pad (m.indexRows j pad row (j.d 1)).1 (1 + (j.d 1 - 1) * j.rowCycles)
        (max (1 + (j.d 1 - 1) * j.rowCycles) (lastCycle (m.indexRows j pad row (j.d 1)).1)) (m.indexRows j pad row (j.d 1)).2.2.1).2) := rfl

/-- A row's granules in their cycles, behind those of the rows placed before it. -/
theorem indexedTimes_rows (limit i dst : Nat) (gs : List Grain) (placed : List (Nat × Nat × Nat)) :
    ∃ cyc, (∀ x ∈ (indexedTimes limit i dst gs placed).1, x.grain ∈ gs ∧ x.writeAt = cyc (x.grain.dst / 64)) ∧
      RowCycles (spaceMem dst) gs placed
        (writeCycles limit (spaceMem dst) gs (((List.range gs.length).map fun g => 2 + i * ceilDiv gs.length limit + g / limit).map (· + 7)) placed)
        cyc ∧
      (indexedTimes limit i dst gs placed).2 =
        (writeCycles limit (spaceMem dst) gs (((List.range gs.length).map fun g => 2 + i * ceilDiv gs.length limit + g / limit).map (· + 7)) placed).2 := by
  obtain ⟨cyc, hcyc⟩ := writeCycles_rows limit (spaceMem dst) gs
    (((List.range gs.length).map fun g => 2 + i * ceilDiv gs.length limit + g / limit).map (· + 7)) placed
  have heq : (indexedTimes limit i dst gs placed).1 =
      timedOf gs ((List.range gs.length).map fun g => 2 + i * ceilDiv gs.length limit + g / limit) (gs.map fun g => cyc (g.dst / 64)) := by
    rw [← hcyc.cycles]
    rfl
  obtain ⟨hgs, hws⟩ := timedOf_grains gs (fun g => cyc (g.dst / 64)) ((List.range gs.length).map fun g => 2 + i * ceilDiv gs.length limit + g / limit)
    (by simp)
  refine ⟨cyc, fun x hx => ?_, hcyc, rfl⟩
  rw [heq] at hx
  refine ⟨?_, hws x hx⟩
  have hmem := List.mem_map_of_mem (f := (·.grain)) hx
  rwa [hgs] at hmem

/-- Granules timed so far: in order within each row, placed, and written in the write range. -/
structure TimedRows (j : Job) (ts : List Timed) (placed : List (Nat × Nat × Nat)) : Prop where
  ordered : Ordered ts
  placed : ∀ x ∈ ts, ∃ n, (x.writeAt, rowBank (spaceMem j.w.space) (64 * (x.grain.dst / 64)), n) ∈ placed
  fits : j.landInW ts

theorem TimedRows.append {j : Job} {ts : List Timed} {placed : List (Nat × Nat × Nat)} (h : TimedRows j ts placed) (limit i : Nat)
    {gs : List Grain} (hgs : ∀ g ∈ gs, j.fits g) :
    TimedRows j (ts ++ (indexedTimes limit i j.w.space gs placed).1) (indexedTimes limit i j.w.space gs placed).2 := by
  obtain ⟨cyc, htimes, hrows, hplaced⟩ := indexedTimes_rows limit i j.w.space gs placed
  rw [hplaced]
  generalize (indexedTimes limit i j.w.space gs placed).1 = more at htimes
  refine ⟨List.pairwise_append.mpr ⟨h.ordered, ordered_of_rows fun x hx => (htimes x hx).2, fun x hx y hy e => ?_⟩, fun x hx => ?_,
    fun x hx => ?_⟩
  · obtain ⟨n, hn⟩ := h.placed x hx
    obtain ⟨hg, hcyc⟩ := htimes y hy
    rw [hcyc, ← e]
    have := hrows.after y.grain hg _ hn (by rw [e])
    rw [← e] at this
    exact this.le
  · rcases List.mem_append.mp hx with hx | hx
    · obtain ⟨n, hn⟩ := h.placed x hx
      exact ⟨n, hrows.keeps _ hn⟩
    · obtain ⟨hg, hcyc⟩ := htimes x hx
      rw [hcyc]
      exact hrows.placed _ hg
  · rcases List.mem_append.mp hx with hx | hx
    · exact h.fits x hx
    · exact hgs _ (htimes x hx).1

/-- What the rows of some indexes leave: their granules timed, and memory stored to in the write range alone. -/
structure M.Indexed (m : M) (j : Job) (s : List Timed × List (Nat × Nat × Nat) × NMap Bytes × M) : Prop where
  rows : TimedRows j s.1 s.2.1
  small : Small s.2.2.1
  stored : M.Stored m s.2.2.2 j.wAddr j.w.bytes

section
variable {j : Job} (hw : WriteRange j) {pad : Bytes} (hpad : pad.length ≤ 16) {row : Nat → Int → List Grain}
  (hrow : ∀ i x, ∀ g ∈ row i x, j.fits g) {m : M} (hc : m.Clean j.c)
include hw hpad hrow hc

theorem M.Indexed.step {s : List Timed × List (Nat × Nat × Nat) × NMap Bytes × M} (h : m.Indexed j s) (i : Nat) :
    m.Indexed j (M.indexStep j pad row s i) := by
  obtain ⟨hrows, hsmall, hstored⟩ := h
  obtain ⟨hmove, hsmall'⟩ := M.stored_moveCycles hw hpad hrows.fits (1 + (i - 1) * j.rowCycles * bit (i != 0)) (1 + i * j.rowCycles) hsmall
    (hc.stored hstored)
  have hclean := (hc.stored hstored).stored hmove
  have hindex : ∃ x, (if i < j.bd 1 then (s.2.2.2.moveCycles j pad s.1 (1 + (i - 1) * j.rowCycles * bit (i != 0)) (1 + i * j.rowCycles) s.2.2.1).2.index j i
      else (0, (s.2.2.2.moveCycles j pad s.1 (1 + (i - 1) * j.rowCycles * bit (i != 0)) (1 + i * j.rowCycles) s.2.2.1).2)) =
      (x, (s.2.2.2.moveCycles j pad s.1 (1 + (i - 1) * j.rowCycles * bit (i != 0)) (1 + i * j.rowCycles) s.2.2.1).2) := by
    split
    · rw [M.index, hclean.read]
      exact ⟨_, rfl⟩
    · exact ⟨0, rfl⟩
  obtain ⟨x, hx⟩ := hindex
  unfold M.indexStep
  dsimp only
  rw [hx]
  exact ⟨hrows.append _ i (hrow i x), hsmall', hstored.trans hmove⟩

theorem M.indexed_rows (k : Nat) : m.Indexed j (m.indexRows j pad row k) :=
  List.foldlRecOn (motive := m.Indexed j) _ _
    ⟨⟨List.Pairwise.nil, fun _ h => absurd h List.not_mem_nil, fun _ h => absurd h List.not_mem_nil⟩, small_nil, .refl ..⟩
    fun _ h i _ => M.Indexed.step hw hpad hrow hc h i

/-- A DGATHER or DSCATTER in its own cycles stores in the write range alone, its granules in order within each row. -/
theorem M.moveIndexed_leaves : Ordered (m.moveIndexed j pad row).1 ∧ j.landInW (m.moveIndexed j pad row).1 ∧
    M.Stored m (m.moveIndexed j pad row).2 j.wAddr j.w.bytes := by
  obtain ⟨hrows, hsmall, hstored⟩ := M.indexed_rows hw hpad hrow hc (j.d 1)
  rw [M.moveIndexed_eq]
  exact ⟨hrows.ordered, hrows.fits, hstored.trans (M.stored_moveCycles hw hpad hrows.fits _ _ hsmall (hc.stored hstored)).1⟩

end

end Sys2Proof.Machine

/-! ## The writes of the data mover recorded, and its runs (R205, R646, R648) -/

namespace Sys2Proof.Machine

/-! ### The accesses of granules -/

/-- The write of a granule in its cycle. -/
def Job.writeUse (j : Job) (x : Timed) : RowUse :=
  { at_ := x.writeAt, mem := spaceMem j.w.space, off := x.grain.dst, len := 16, write := true, unit := .dme }

theorem cutRows_granule {off : Nat} (h : off % 16 = 0) : cutRows off 16 = [(off, 16)] := by
  have hone : (off + 16 - 1) / 64 + 1 - off / 64 = 1 := by omega
  have hlo : max off (64 * (off / 64 + 0)) = off := by omega
  have hhi : min (off + 16) (64 * (off / 64 + 0) + 64) = off + 16 := by omega
  rw [cutRows, if_neg (by decide), hone]
  show [(max off (64 * (off / 64 + 0)), min (off + 16) (64 * (off / 64 + 0) + 64) - max off (64 * (off / 64 + 0)))] = _
  rw [hlo, hhi, Nat.add_sub_cancel_left]

theorem usesOf_write {u : RowUse} {at_ space off n : Nat} {write : Bool} {unit : AccessUnit} (h : u ∈ usesOf at_ space off n write unit) :
    u.write = write := by
  obtain ⟨p, -, rfl⟩ := List.mem_map.mp h
  rfl

theorem filter_reads {us : List RowUse} (h : ∀ u ∈ us, u.write = false) : us.filter (·.write) = [] :=
  List.filter_eq_nil_iff.mpr fun u hu => by rw [h u hu]; exact Bool.false_ne_true

theorem indexUses_reads (j : Job) : j.indexUses.filter (·.write) = [] :=
  filter_reads fun u hu => by
    obtain ⟨i, -, hi⟩ := List.mem_flatMap.mp hu
    exact usesOf_write hi

/-- The granules of a list that move. -/
def moving (ts : List Timed) : List Timed := ts.filter fun x => x.grain.live

/-- The writes of granules that fit are one access each. -/
theorem timedUses_writes {j : Job} (hw : WriteRange j) {ts : List Timed} (hts : j.landInW ts) (src : Nat) :
    (timedUses src j.w.space ts).filter (·.write) = (moving ts).map j.writeUse := by
  have hreads : ((ts.filter fun t => t.grain.live).flatMap fun t =>
      (t.grain.src.map fun o => usesOf t.readAt src o 16 false .dme).getD []).filter (·.write) = [] := by
    refine filter_reads fun u hu => ?_
    obtain ⟨t, -, ht⟩ := List.mem_flatMap.mp hu
    cases hsrc : t.grain.src with
    | none =>
      rw [hsrc] at ht
      exact absurd ht List.not_mem_nil
    | some o =>
      rw [hsrc] at ht
      exact usesOf_write ht
  have hone : ∀ t ∈ moving ts, usesOf t.writeAt j.w.space t.grain.dst 16 true .dme = [j.writeUse t] := fun t ht => by
    obtain ⟨hmem, hlive⟩ := List.mem_filter.mp ht
    obtain ⟨⟨-, hin⟩, hal⟩ := hts t hmem hlive
    have hext := hw.inside
    have hk : insideSpace j.w.space t.grain.dst 16 = 16 := by
      rw [insideSpace]
      omega
    rw [usesOf, hk, cutRows_granule hal]
    rfl
  have hwrites : (moving ts).flatMap (fun t => usesOf t.writeAt j.w.space t.grain.dst 16 true .dme) = (moving ts).map j.writeUse := by
    rw [List.map_eq_flatMap]
    exact List.flatMap_congr hone
  rw [timedUses, List.filter_append, hreads, List.nil_append]
  show ((moving ts).flatMap fun t => usesOf t.writeAt j.w.space t.grain.dst 16 true .dme).filter _ = _
  rw [hwrites, List.filter_map]
  exact congrArg (List.map j.writeUse) (List.filter_eq_self.mpr fun _ _ => rfl)

/-! ### Writes recorded in their cycles (R205, R206) -/

theorem M.wallOf_mono (m : M) (e : Nat) {t t' : Nat} (h : t ≤ t') : m.wallOf e t ≤ m.wallOf e t' := by
  have hholds : m.holdsBefore e t ≤ m.holdsBefore e t' := by
    unfold M.holdsBefore
    cases m.die.step with
    | none => exact Nat.le_refl _
    | some s =>
      simp only [Option.map_some, Option.getD_some, ← List.countP_eq_length_filter]
      refine List.countP_mono_left fun x _ hx => ?_
      simp only [decide_eq_true_eq] at hx ⊢
      omega
  simp only [M.wallOf]
  omega

/-- A write of one schedule and one rank does not take effect after a later one. -/
theorem M.not_takesAfter (m : M) {y x : TimedWrite} (he : y.entry = x.entry) (hc : y.cycle ≤ x.cycle) (hr : y.rank = x.rank) :
    m.takesAfter y x = false := by
  have hwall : m.writeWall y ≤ m.writeWall x := by
    rw [M.writeWall, M.writeWall, he]
    exact m.wallOf_mono _ hc
  rw [M.takesAfter, hr]
  simp only [Nat.lt_irrefl, decide_false, Bool.and_false, Bool.or_false, decide_eq_false_iff_not, Nat.not_lt]
  exact hwall

/-- The write of a granule noted, in entry `e`'s schedule from cycle `t` on, `before` being the state without the job's work. -/
def M.noteGranule (before : M) (j : Job) (e t : Nat) (r : M) (x : Timed) : M :=
  r.noteWrite before j.c j.push e (t + x.writeAt) (before.accessRank j.c (spaceMem j.w.space) .dme)
    (memAddr j.c (spaceMem j.w.space) x.grain.dst) 16

/-- Writes of granules have been noted: memory stands, and the writes recorded are theirs. -/
structure M.Noted (before n r : M) (j : Job) (e t : Nat) (pre : List Timed) : Prop where
  mem : r.mem = n.mem
  die : ∃ ws no, r.die = { n.die with writes := ws, writeNo := no }
  theirs : ∀ y ∈ r.die.writes, ∃ x ∈ pre, y.addr = memAddr j.c (spaceMem j.w.space) x.grain.dst ∧ y.new.length = 16 ∧ y.entry = e ∧
    y.cycle = t + x.writeAt ∧ y.rank = before.accessRank j.c (spaceMem j.w.space) .dme

section
variable {before n r : M} {j : Job} {e t : Nat}

theorem M.Noted.snoc {pre : List Timed} {x : Timed} (h : M.Noted before n r j e t pre) (hx : x.grain.dst % 16 = 0)
    (hd : ∀ y ∈ pre, y.grain.dst % 16 = 0) (ho : ∀ y ∈ pre, y.grain.dst / 64 = x.grain.dst / 64 → y.writeAt ≤ x.writeAt) :
    M.Noted before n (M.noteGranule before j e t r x) j e t (pre ++ [x]) := by
  have hlen : (r.read (memAddr j.c (spaceMem j.w.space) x.grain.dst) 16).length = 16 := CMem.read_length _ _ _
  have hlast := r.record_last before (x := { no := 0, core := j.c, push := j.push, entry := e, cycle := t + x.writeAt, shown := t + x.writeAt + 1
                                             rank := before.accessRank j.c (spaceMem j.w.space) .dme
                                             addr := memAddr j.c (spaceMem j.w.space) x.grain.dst, old := []
                                             new := r.read (memAddr j.c (spaceMem j.w.space) x.grain.dst) 16 }) fun y hy ht => by
    obtain ⟨z, hz, haddr, hl, hentry, hcycle, hrank⟩ := h.theirs y hy
    have htouch := TimedWrite.touches_iff.mp ht
    rw [haddr, hl] at htouch
    simp only [hlen] at htouch
    rw [memAddr_add j.c _ z.grain.dst, memAddr_add j.c _ x.grain.dst] at htouch
    have hz16 := hd z hz
    have hcyc := ho z hz (by omega)
    exact r.not_takesAfter hentry (by rw [hcycle]; exact Nat.add_le_add_left hcyc t) hrank
  have hnote : M.noteGranule before j e t r x = _ := hlast
  obtain ⟨ws, no, hdie⟩ := h.die
  have hin : ∀ y ∈ r.die.writes, ∃ z ∈ pre ++ [x], y.addr = memAddr j.c (spaceMem j.w.space) z.grain.dst ∧ y.new.length = 16 ∧
      y.entry = e ∧ y.cycle = t + z.writeAt ∧ y.rank = before.accessRank j.c (spaceMem j.w.space) .dme := fun y hy => by
    obtain ⟨z, hz, hrest⟩ := h.theirs y hy
    exact ⟨z, List.mem_append_left _ hz, hrest⟩
  rw [hnote]
  split
  · exact ⟨h.mem, h.die, hin⟩
  · refine ⟨h.mem, ⟨r.die.writes ++ _, r.die.writeNo + 1, by rw [hdie]⟩, fun y hy => ?_⟩
    rcases List.mem_append.mp hy with hy | hy
    · exact hin y hy
    · rw [List.mem_singleton.mp hy]
      exact ⟨x, List.mem_append_right _ (List.mem_singleton_self x), rfl, hlen, rfl, rfl, rfl⟩

/-- Granules in order within each row are noted as they stand: no write is overtaken by another. -/
theorem M.noted_granules (hn : n.die.writes = []) {l : List Timed} (hl : Ordered l) (hd : ∀ x ∈ l, x.grain.dst % 16 = 0) :
    M.Noted before n (l.foldl (M.noteGranule before j e t) n) j e t l := by
  induction l using List.reverseRecOn with
  | nil =>
    refine ⟨rfl, ⟨_, _, rfl⟩, fun y hy => ?_⟩
    rw [List.foldl_nil, hn] at hy
    exact absurd hy List.not_mem_nil
  | append_singleton l x ih =>
    obtain ⟨hl, -, ho⟩ := List.pairwise_append.mp hl
    have hd' := fun y hy => hd y (List.mem_append_left _ hy)
    rw [List.foldl_append]
    exact (ih hl hd').snoc (hd x (List.mem_append_right _ (List.mem_singleton_self x))) hd'
      fun y hy => ho y hy x (List.mem_singleton_self x)

end

/-! ### A run of the data mover -/

theorem IssueFacts.clean {s : State} {j : Job} {e op : Nat} {eng : Engine} {o : OpSpec} (h : IssueFacts s j e op eng o) {m : M}
    (hm : M.AtIssue (view s) m j) : m.Clean j.c := ⟨h.ecc_at hm, h.inject_at hm⟩

theorem IssueFacts.clean_queued {s : State} {j : Job} {e op : Nat} {eng : Engine} {o : OpSpec} (h : IssueFacts s j e op eng o) :
    ((view s).queued j).Clean j.c where
  ecc := by
    rw [M.queued, M.updCore_ecc, M.count_ecc]
    exact h.ecc
  inject mem := by
    rw [M.flag, M.reg_queued, if_neg (injectReg_ne_issueReg j.c mem j), ← M.flag, h.inject]

/-- A move of granules by the data mover: its engine's effect stands, and in a step its writes are recorded. -/
theorem move_runs {i : Instr} {s : State} {j : Job} {e op : Nat} {eng : Engine} {ts : List Timed} (h : issues i s j)
    (hrow : engineRow i = some (j.c, e, op, eng))
    (huses : ((view s).issueUses j eng).filter (·.write) = (moving ts).map j.writeUse) (ho : Ordered ts) (hfit : j.landInW ts)
    (hrun : ∀ m, m.Clean j.c → M.Stored m (eng.run j m) j.wAddr j.w.bytes) :
    ∃ m r, M.AtIssue (view s) m j ∧ m.Clean j.c ∧ runs i s r ∧ r.mem = (eng.run j m).mem ∧ r.die.ecc = [] ∧ ∀ a, r.reg a = m.reg a := by
  obtain ⟨o, hf⟩ := issues_facts h hrow
  have hgo := issues_runs h hrow
  have hm := (view s).atIssue_atIssue j eng
  have hc := hf.clean hm
  have hstored := hrun _ hc
  simp only [huses, List.foldl_map] at hgo
  generalize hat : (view s).atIssue j eng = m at hgo hm hc hstored
  have hnote := M.noted_granules (before := m) (n := eng.run j m) (j := j) (e := (view s).entryOf j.c) (t := (view s).schedCycle j.c)
    (by rw [hstored.die]; exact hf.writes_at hm) (ho.sublist List.filter_sublist : Ordered (moving ts)) fun x hx => by
      obtain ⟨hmem, hlive⟩ := List.mem_filter.mp hx
      exact (hfit x hmem hlive).2
  have hgo' : runs i s (((moving ts).foldl (M.noteGranule m j ((view s).entryOf j.c) ((view s).schedCycle j.c)) (eng.run j m)).updFlight
      j.c j.push fun f => { f with
        reads := timedReads j.c ((view s).schedCycle j.c) ((view s).issueUses j eng) ++ f.reads
        seen := ((moving ts).foldl (M.noteGranule m j ((view s).entryOf j.c) ((view s).schedCycle j.c)) (eng.run j m)).die.writeNo }) := hgo
  generalize (moving ts).foldl (M.noteGranule m j ((view s).entryOf j.c) ((view s).schedCycle j.c)) (eng.run j m) = r at hgo' hnote
  obtain ⟨hmem, ⟨ws, no, hdie⟩, -⟩ := hnote
  rw [hstored.die] at hdie
  refine ⟨m, _, hm, hc, hgo', hmem, ?_, fun a => ?_⟩
  · show r.die.ecc = []
    rw [hdie]
    exact hc.ecc
  · exact M.reg_congr (show r.die.regs = m.die.regs by rw [hdie]) a

/-- A move of granules stays in its write range, and its bytes stand as its engine left them. -/
theorem move_leaves {i : Instr} {s : State} {j : Job} {e op : Nat} {eng : Engine} {ts : List Timed} (h : issues i s j)
    (hrow : engineRow i = some (j.c, e, op, eng))
    (huses : ((view s).issueUses j eng).filter (·.write) = (moving ts).map j.writeUse) (ho : Ordered ts) (hfit : j.landInW ts)
    (hrun : ∀ m, m.Clean j.c → M.Stored m (eng.run j m) j.wAddr j.w.bytes) :
    ∃ m r, M.AtIssue (view s) m j ∧ m.Clean j.c ∧ runs i s r ∧ sameButPorts (view s) r [issueReg j] ∧
      sameBytes (view s) r j.wAddr j.w.bytes ∧ r.mem = (eng.run j m).mem ∧ r.die.ecc = [] := by
  obtain ⟨m, r, hm, hc, hr, hmem, hecc, hreg⟩ := move_runs h hrow huses ho hfit hrun
  refine ⟨m, r, hm, hc, hr, fun a ha hp => (hreg a).trans (hm.sameButPorts a ha hp), sameBytes_of_byte fun x hx => ?_, hmem, hecc⟩
  rw [hmem, (hrun m hc).bytes x hx, hm.mem]

/-- The write range of a move inside a core. -/
theorem move_writeRange {s : State} {j : Job} {e op : Nat} {eng : Engine} {o : OpSpec} (h : IssueFacts s j e op eng o)
    (ho : ∀ space ∈ o.w, space = SCRATCH ∨ space = OPC ∨ space = STOPE) (hp : j.w.present = true) :
    WriteRange j ∧ j.w.base % 16 = 0 := by
  obtain ⟨hin, hal, -⟩ := range_of_not_malformed h.w hp
  have hext := insideExtents_range h.inside (i := 3) (by decide) (by decide) hp
  have hs := ho _ hin
  refine ⟨⟨?_, ?_, hext ?_⟩, hal⟩
  · rcases hs with e | e | e <;> rw [e] <;> decide
  · rcases hs with e | e | e <;> rw [e] <;> decide
  · show j.w.space < REMOTE
    rcases hs with e | e | e <;> rw [e] <;> decide

end Sys2Proof.Machine

/-! ## DCOPY and DFILL (R640, R645, R646, R648) -/

namespace Sys2Proof.Machine

/-! ### Places of a strided layout -/

/-- Where row `x` of a strided layout begins: in a range, by the strides of its parameter. -/
def Job.place (j : Job) (r : Range) (k : Nat) (x : Nat × Nat) : Nat := r.base + j.outer k * x.1 + j.inner k * x.2

theorem Job.outer_granule (j : Job) (k n : Nat) : (j.outer k * n) % 16 = 0 := by
  rw [Job.outer, Nat.mul_assoc]
  exact Nat.mul_mod_right _ _

theorem Job.inner_granule (j : Job) (k n : Nat) : (j.inner k * n) % 16 = 0 := by
  rw [Job.inner, Nat.mul_assoc]
  exact Nat.mul_mod_right _ _

theorem Job.place_granule (j : Job) {r : Range} (h : r.base % 16 = 0) (k : Nat) (x : Nat × Nat) : j.place r k x % 16 = 0 := by
  have ho := j.outer_granule k x.1
  have hi := j.inner_granule k x.2
  rw [Job.place]
  omega

theorem Job.mem_rows {j : Job} {x : Nat × Nat} : x ∈ j.rows ↔ x.1 < j.bd 2 ∧ x.2 < j.bd 1 := by
  obtain ⟨p, r⟩ := x
  simp [Job.rows]

theorem Job.nodup_rows (j : Job) : j.rows.Nodup :=
  List.nodup_range.product List.nodup_range

theorem Job.extents_pos {j : Job} (h : j.extents = true) : 1 ≤ j.d 0 ∧ 1 ≤ j.d 1 ∧ 1 ≤ j.d 2 := by
  simpa [Job.extents, and_assoc] using h

theorem Job.bounded_le {j : Job} (h : j.bounded [0, 1, 2] = true) : j.bd 0 ≤ j.d 0 ∧ j.bd 1 ≤ j.d 1 ∧ j.bd 2 ≤ j.d 2 := by
  simpa [Job.bounded] using h

theorem covers_inside {r : Range} {off n : Nat} (h : r.covers off n = true) (hn : n ≠ 0) : r.present = true ∧ off + n ≤ r.bytes := by
  rw [Range.covers, beq_eq_false_iff_ne.mpr hn, Bool.false_or, Bool.and_eq_true, decide_eq_true_eq] at h
  exact h

/-- A layout of planes that a range covers: each of its rows lies inside. -/
theorem coversPlanes_row {j : Job} {r : Range} {k d0 d1 d2 : Nat} (h : r.coversPlanes (j.inner k) (j.outer k) d0 d1 d2 = true)
    (h0 : 1 ≤ d0) {x : Nat × Nat} (hp : x.1 < d2) (hr : x.2 < d1) :
    r.present = true ∧ j.place r k x + 16 * d0 ≤ r.base + r.bytes := by
  obtain ⟨hpres, hlen⟩ := covers_inside h (by omega)
  have ho := Nat.mul_le_mul_left (j.outer k) (Nat.le_sub_one_of_lt hp)
  have hi := Nat.mul_le_mul_left (j.inner k) (Nat.le_sub_one_of_lt hr)
  refine ⟨hpres, ?_⟩
  rw [Job.place]
  omega

/-! ### Rows read and written -/

/-- A fold that reads nothing but what stands collects its rows. -/
theorem foldl_collect {α β γ : Type} (f : List β × γ → α → List β × γ) (g : α → List β) (m : γ)
    (hf : ∀ l a, f (l, m) a = (l ++ g a, m)) (xs : List α) (l : List β) : xs.foldl f (l, m) = (l ++ xs.flatMap g, m) := by
  induction xs generalizing l with
  | nil => simp
  | cons a xs ih => rw [List.foldl_cons, hf, ih, List.flatMap_cons, List.append_assoc]

/-- Of rows written in order, one that no later one meets stands. -/
theorem M.writeRows_at {j : Job} (hw : WriteRange j) {m : M} (hc : m.Clean j.c) {α : Type} {rows : List α} {off : α → Nat}
    {bs : α → Bytes} {n : Nat} (hbs : ∀ x ∈ rows, (bs x).length = n) (hin : n ≠ 0 → ∀ x ∈ rows, j.inW (off x) n) {R : α → α → Prop}
    (hR : rows.Pairwise R) {x : α} (hx : x ∈ rows)
    (hd : ∀ y ∈ rows, R x y → off y + n ≤ off x ∨ off x + n ≤ off y) :
    bytesIn (m.writeRows j.c j.w.space (rows.map fun x => (off x, bs x))) j.c j.w.space (off x) n = bs x := by
  obtain ⟨pre, post, rfl⟩ := List.append_of_mem hx
  have hlen := hbs x hx
  have hlater : ∀ y ∈ post, R x y := (List.pairwise_cons.mp (List.pairwise_append.mp hR).2.1).1
  have hrows : ∀ p ∈ (pre ++ x :: post).map fun x => (off x, bs x), p.2 ≠ [] → j.inW p.1 p.2.length := fun p hp hne => by
    obtain ⟨y, hy, rfl⟩ := List.mem_map.mp hp
    have hy' := hbs y hy
    show j.inW (off y) (bs y).length
    rw [hy']
    refine hin (fun h0 => hne (List.length_eq_zero_iff.mp (hy'.trans h0))) y hy
  rw [List.map_append, List.map_cons] at hrows ⊢
  have hthere := M.writeRows_there hw (m := m) hrows (fun p hp => ?_) hc
  · rwa [hlen] at hthere
  · obtain ⟨y, hy, rfl⟩ := List.mem_map.mp hp
    have hy' : y ∈ pre ++ x :: post := List.mem_append_right _ (List.mem_cons_of_mem _ hy)
    show off y + (bs y).length ≤ off x ∨ off x + (bs x).length ≤ off y
    rw [hbs y hy', hlen]
    exact hd y hy' (hlater y hy)

theorem M.stored_rows {j : Job} (hw : WriteRange j) {m : M} (hc : m.Clean j.c) {α : Type} {rows : List α} {off : α → Nat}
    {bs : α → Bytes} {n : Nat} (hbs : ∀ x ∈ rows, (bs x).length = n) (hin : n ≠ 0 → ∀ x ∈ rows, j.inW (off x) n) :
    M.Stored m (m.writeRows j.c j.w.space (rows.map fun x => (off x, bs x))) j.wAddr j.w.bytes := by
  refine M.stored_writeRows hw _ (fun p hp hne => ?_) m hc
  obtain ⟨y, hy, rfl⟩ := List.mem_map.mp hp
  have hy' := hbs y hy
  show j.inW (off y) (bs y).length
  rw [hy']
  exact hin (fun h0 => hne (List.length_eq_zero_iff.mp (hy'.trans h0))) y hy

/-! ### Pad rows (R132, R647) -/

theorem flatten_replicate_length (n k : Nat) {bs : Bytes} (h : bs.length = k) : (List.replicate n bs).flatten.length = n * k := by
  simp [h]

theorem padGranule_length {j : Job} (h : j.padOk = true) (sel : Nat) (pad : F32) : (padGranule (j.ctl 15 12) sel pad).length = 16 := by
  rw [Job.padOk, Bool.and_eq_true, List.contains_iff_mem] at h
  obtain ⟨-, hcode⟩ := h
  generalize j.ctl 15 12 = code at hcode
  rw [padGranule, flatten_replicate_length _ _ (toBytes_length _ _)]
  simp only [List.mem_cons, List.not_mem_nil, or_false] at hcode
  rcases hcode with rfl | rfl | rfl | rfl | rfl | rfl <;> rfl

theorem jobPad_length {j : Job} (h : j.padOk = true) (m : M) : (m.jobPad j).length = 16 := padGranule_length h _ _

/-- The pad granules of a row. -/
def M.padRow (m : M) (j : Job) (n : Nat) : Bytes := (List.replicate n (m.jobPad j)).flatten

theorem padRow_length {j : Job} (h : j.padOk = true) (m : M) (n : Nat) : (m.padRow j n).length = 16 * n := by
  rw [M.padRow, flatten_replicate_length _ _ (jobPad_length h m), Nat.mul_comm]

/-! ### Layouts in the write range -/

/-- The write range holds a layout of planes, and the bounds do not pass its extents. -/
structure Layout (j : Job) : Prop where
  range : WriteRange j
  granule : j.w.base % 16 = 0
  bounded : j.bd 0 ≤ j.d 0 ∧ j.bd 1 ≤ j.d 1 ∧ j.bd 2 ≤ j.d 2
  row : ∀ x : Nat × Nat, x.1 < j.d 2 → x.2 < j.d 1 → j.inW (j.place j.w 4 x) (16 * j.d 0)

section
variable {j : Job} (h : Layout j)
include h

theorem Layout.fits (reads : Bool) : ∀ g ∈ j.grains reads, j.fits g := fun g hg _ => by
  simp only [Job.grains, List.mem_flatMap, List.mem_map, List.mem_range] at hg
  obtain ⟨p, hp, r, hr, i, hi, rfl⟩ := hg
  have hal := j.place_granule h.granule 4 (p, r)
  obtain ⟨hlo, hhi⟩ := h.row (p, r) hp hr
  refine ⟨⟨?_, ?_⟩, ?_⟩ <;> simp only [Job.place] at hal hlo hhi ⊢ <;> omega

theorem Layout.rows : ∀ x ∈ j.rows, j.inW (j.place j.w 4 x) (16 * j.bd 0) := fun x hx => by
  obtain ⟨h0, h1, h2⟩ := h.bounded
  obtain ⟨hp, hr⟩ := Job.mem_rows.mp hx
  exact (h.row x (by omega) (by omega)).le (by omega)

theorem Layout.landInW {ts : List Timed} {reads : Bool} (hts : ts.map (·.grain) = j.grains reads) : j.landInW ts :=
  fun _ hx => h.fits reads _ (hts ▸ List.mem_map_of_mem hx)

/-- Rows that lie apart stand as they were written. -/
theorem Layout.rows_stand {m : M} (hc : m.Clean j.c) {bs : Nat × Nat → Bytes} (hbs : ∀ x ∈ j.rows, (bs x).length = 16 * j.bd 0)
    (ha : rowsApart j) : ∀ x ∈ j.rows,
    bytesIn (m.writeRows j.c j.w.space (j.rows.map fun x => (j.place j.w 4 x, bs x))) j.c j.w.space (j.place j.w 4 x) (16 * j.bd 0) = bs x :=
  fun x hx => M.writeRows_at h.range hc hbs (fun _ => h.rows) (R := (· ≠ ·)) j.nodup_rows hx fun y hy hne => by
    have := ha x hx y hy hne
    simp only [Job.place]
    omega

theorem Layout.stored {m : M} (hc : m.Clean j.c) {bs : Nat × Nat → Bytes} (hbs : ∀ x ∈ j.rows, (bs x).length = 16 * j.bd 0) :
    M.Stored m (m.writeRows j.c j.w.space (j.rows.map fun x => (j.place j.w 4 x, bs x))) j.wAddr j.w.bytes :=
  M.stored_rows h.range hc hbs fun _ => h.rows

end

theorem layout_of_covers {s : State} {j : Job} {e op : Nat} {eng : Engine} {o : OpSpec} (h : IssueFacts s j e op eng o)
    (ho : ∀ space ∈ o.w, space = SCRATCH ∨ space = OPC ∨ space = STOPE) (hx : j.extents = true) (hb : j.bounded [0, 1, 2] = true)
    (hw : j.w.coversPlanes (j.inner 4) (j.outer 4) (j.d 0) (j.d 1) (j.d 2) = true) : Layout j := by
  obtain ⟨h0, h1, h2⟩ := Job.extents_pos hx
  obtain ⟨hpres, -⟩ := coversPlanes_row hw h0 (x := (0, 0)) h2 h1
  obtain ⟨hrange, hal⟩ := move_writeRange h ho hpres
  refine ⟨hrange, hal, Job.bounded_le hb, fun x hp hr => ⟨?_, (coversPlanes_row hw h0 hp hr).2⟩⟩
  rw [Job.place]
  omega

/-! ### DCOPY (R646) -/

/-- The shape of a DCOPY: its read range stands, and its write range holds the layout. -/
theorem dcopy_layout {s : State} {j : Job} {o : OpSpec} (hf : IssueFacts s j 2 1 dcopyEngine o) :
    j.a.present = true ∧ j.a.space ≠ ACC ∧ Layout j := by
  have hshape : dcopyShape j (view s) = true := hf.shape
  simp only [dcopyShape, Bool.and_eq_true] at hshape
  obtain ⟨⟨⟨hx, hb⟩, ha⟩, hw⟩ := hshape
  obtain ⟨h0, h1, h2⟩ := Job.extents_pos hx
  obtain ⟨hpres, -⟩ := coversPlanes_row ha h0 (x := (0, 0)) h2 h1
  obtain ⟨hin, -, -⟩ := range_of_not_malformed hf.a hpres
  obtain rfl : _ = o := Option.some.inj hf.spec
  exact ⟨hpres, fun e => absurd (e ▸ hin) (by decide), layout_of_covers hf (by decide) hx hb hw⟩

/-- The rows of a DCOPY whose ranges do not overlap. -/
theorem dcopyRun_apart {j : Job} (h : j.w.overlaps j.a = false) {m : M} (hc : m.Clean j.c) :
    dcopyRun j m = m.writeRows j.c j.w.space (j.rows.map fun x => (j.place j.w 4 x, bytesIn m j.c j.a.space (j.place j.a 2 x) (16 * j.bd 0))) := by
  have hfold := foldl_collect (fun (x : List (Nat × Bytes) × M) (p : Nat × Nat) =>
      (x.1 ++ [(j.place j.w 4 p, (x.2.spaceRead j.c j.a.space (j.place j.a 2 p) (16 * j.bd 0)).1)],
        (x.2.spaceRead j.c j.a.space (j.place j.a 2 p) (16 * j.bd 0)).2))
    (fun x => [(j.place j.w 4 x, bytesIn m j.c j.a.space (j.place j.a 2 x) (16 * j.bd 0))]) m
    (fun l x => by simp only [hc.read]) j.rows []
  rw [List.nil_append, ← List.map_eq_flatMap] at hfold
  rw [dcopyRun, h]
  exact (congrArg (fun x : List (Nat × Bytes) × M => x.2.writeRows j.c j.w.space x.1) hfold :)

theorem stored_dcopyRun {j : Job} (h : Layout j) {m : M} (hc : m.Clean j.c) : M.Stored m (dcopyRun j m) j.wAddr j.w.bytes := by
  cases ho : j.w.overlaps j.a with
  | true =>
    rw [dcopyRun, ho]
    exact (M.stored_moveCycles h.range (by simp) (h.landInW (copyTimes_ordered _ _ _).2) _ _ small_nil hc).1
  | false =>
    rw [dcopyRun_apart ho hc]
    exact h.stored hc fun x _ => bytesIn_length _ _ _ _ _ hc.ecc

theorem dcopy_moves {s : State} {j : Job} (h : issues (.dcopy j.c) s j) :
    ∃ m r, M.AtIssue (view s) m j ∧ m.Clean j.c ∧ runs (.dcopy j.c) s r ∧ sameButPorts (view s) r [issueReg j] ∧
      sameBytes (view s) r j.wAddr j.w.bytes ∧ r.mem = (dcopyRun j m).mem ∧ r.die.ecc = [] := by
  obtain ⟨o, hf⟩ := issues_facts h rfl
  obtain ⟨-, -, hl⟩ := dcopy_layout hf
  obtain ⟨ho, hgs⟩ := copyTimes_ordered j.a.space j.w.space (j.grains true)
  exact move_leaves h rfl (timedUses_writes hl.range (hl.landInW hgs) _) ho (hl.landInW hgs) fun m => stored_dcopyRun hl

theorem dcopy_rows {s : State} {j : Job} (h : issues (.dcopy j.c) s j) (ha : rowsApart j) (ho : j.w.overlaps j.a = false) :
    ∃ m, runs (.dcopy j.c) s m ∧ sameButPorts (view s) m [issueReg j] ∧ ∀ x ∈ j.rows,
      bytesIn m j.c j.w.space (j.place j.w 4 x) (16 * j.bd 0) = bytesIn (view s) j.c j.a.space (j.place j.a 2 x) (16 * j.bd 0) := by
  obtain ⟨o, hf⟩ := issues_facts h rfl
  obtain ⟨-, hacc, hl⟩ := dcopy_layout hf
  obtain ⟨m, r, hm, hc, hr, hsame, -, hmem, hecc⟩ := dcopy_moves h
  have hstored := stored_dcopyRun hl hc
  refine ⟨r, hr, hsame, fun x hx => ?_⟩
  rw [bytesIn_congr hmem hecc (hstored.die ▸ hc.ecc) hl.range.notAcc, dcopyRun_apart ho hc,
    hl.rows_stand hc (fun x _ => bytesIn_length _ _ _ _ _ hc.ecc) ha x hx, bytesIn_congr hm.mem hc.ecc hf.ecc hacc]

/-! ### DFILL (R132, R646, R647) -/

theorem dfill_layout {s : State} {j : Job} {o : OpSpec} (hf : IssueFacts s j 2 6 dfillEngine o) : j.padOk = true ∧ Layout j := by
  have hshape : dfillShape j (view s) = true := hf.shape
  simp only [dfillShape, Bool.and_eq_true] at hshape
  obtain ⟨⟨⟨hx, hb⟩, hpad⟩, hw⟩ := hshape
  obtain rfl : _ = o := Option.some.inj hf.spec
  exact ⟨hpad, layout_of_covers hf (by decide) hx hb hw⟩

theorem dfillRun_eq (j : Job) (m : M) :
    dfillRun j m = m.writeRows j.c j.w.space (j.rows.map fun x => (j.place j.w 4 x, m.padRow j (j.bd 0))) := rfl

theorem stored_dfillRun {j : Job} (h : Layout j) (hp : j.padOk = true) {m : M} (hc : m.Clean j.c) :
    M.Stored m (dfillRun j m) j.wAddr j.w.bytes := by
  rw [dfillRun_eq]
  exact h.stored hc fun _ _ => padRow_length hp m _

theorem dfill_moves {s : State} {j : Job} (h : issues (.dfill j.c) s j) :
    ∃ m r, M.AtIssue (view s) m j ∧ m.Clean j.c ∧ runs (.dfill j.c) s r ∧ sameButPorts (view s) r [issueReg j] ∧
      sameBytes (view s) r j.wAddr j.w.bytes ∧ r.mem = (dfillRun j m).mem ∧ r.die.ecc = [] := by
  obtain ⟨o, hf⟩ := issues_facts h rfl
  obtain ⟨hp, hl⟩ := dfill_layout hf
  obtain ⟨ho, hgs⟩ := fillTimes_ordered j.w.space (j.grains false)
  exact move_leaves h rfl (timedUses_writes hl.range (hl.landInW hgs) _) ho (hl.landInW hgs) fun m => stored_dfillRun hl hp

/-- The pad of a command is what it was before the command issued. -/
theorem M.AtIssue.jobPad {v m : M} {j : Job} (h : M.AtIssue v m j) : m.jobPad j = v.jobPad j := by
  have hne : coreReg j.c CORE_PAD ≠ issueReg j := by
    have he := cmdEngine_lt j.cmd
    rw [issueReg_eq]
    exact coreReg_ne (by decide) (by simp only [CORE_ENG_ISSUE_CNT]; omega) (by simp only [CORE_PAD, CORE_ENG_ISSUE_CNT]; omega)
  rw [M.jobPad, M.jobPad, M.fld, M.fld, h.reg hne (not_portCounter_coreReg j.c (by decide) (by decide))]

theorem dfill_rows {s : State} {j : Job} (h : issues (.dfill j.c) s j) (ha : rowsApart j) :
    ∃ m, runs (.dfill j.c) s m ∧ sameButPorts (view s) m [issueReg j] ∧ ∀ x ∈ j.rows,
      bytesIn m j.c j.w.space (j.place j.w 4 x) (16 * j.bd 0) = (view s).padRow j (j.bd 0) := by
  obtain ⟨o, hf⟩ := issues_facts h rfl
  obtain ⟨hp, hl⟩ := dfill_layout hf
  obtain ⟨m, r, hm, hc, hr, hsame, -, hmem, hecc⟩ := dfill_moves h
  have hstored := stored_dfillRun hl hp hc
  refine ⟨r, hr, hsame, fun x hx => ?_⟩
  rw [bytesIn_congr hmem hecc (hstored.die ▸ hc.ecc) hl.range.notAcc, dfillRun_eq,
    hl.rows_stand hc (fun _ _ => padRow_length hp m _) ha x hx, M.padRow, hm.jobPad, ← M.padRow]

end Sys2Proof.Machine

/-! ## DGATHER and DSCATTER (R646) -/

namespace Sys2Proof.Machine

/-! ### Rows an index names -/

/-- A layout of rows that a range covers: each of its rows lies inside. -/
theorem coversRows_row {r : Range} {stride n len : Nat} (h : r.coversRows 0 stride n len = true) (hlen : len ≠ 0) {i : Nat} (hi : i < n) :
    r.present = true ∧ r.base + stride * i + len ≤ r.base + r.bytes := by
  rw [Range.coversRows, beq_eq_false_iff_ne.mpr (show n ≠ 0 by omega), beq_eq_false_iff_ne.mpr hlen, Bool.false_or, Bool.false_or] at h
  obtain ⟨hpres, hin⟩ := covers_inside h hlen
  have hmul := Nat.mul_le_mul_left stride (Nat.le_sub_one_of_lt hi)
  exact ⟨hpres, by omega⟩

theorem Job.validIndex_iff {j : Job} {x : Int} : j.validIndex x = true ↔ 0 ≤ x ∧ x < j.bd 2 := by
  simp [Job.validIndex]

/-- The place of row `i` in the write range. -/
def Job.rowAt (j : Job) (i : Nat) : Nat := j.w.base + j.inner 4 * i

/-- The write range holds `n` rows of granules, which the bounds do not pass. -/
structure RowLayout (j : Job) (n : Nat) : Prop where
  range : WriteRange j
  granule : j.w.base % 16 = 0
  bounded : j.bd 0 ≤ j.d 0
  row : ∀ i, i < n → j.inW (j.rowAt i) (16 * j.d 0)

section
variable {j : Job} {n : Nat} (h : RowLayout j n)
include h

theorem RowLayout.granules {i g : Nat} (hi : i < n) (hg : g < j.d 0) : j.inW (j.rowAt i + 16 * g) 16 ∧ (j.rowAt i + 16 * g) % 16 = 0 := by
  have hal := j.inner_granule 4 i
  have hbase := h.granule
  obtain ⟨hlo, hhi⟩ := h.row i hi
  refine ⟨⟨?_, ?_⟩, ?_⟩ <;> simp only [Job.rowAt] at hlo hhi ⊢ <;> omega

theorem RowLayout.inW {i : Nat} (hi : i < n) : j.inW (j.rowAt i) (16 * j.bd 0) := (h.row i hi).le (Nat.mul_le_mul_left _ h.bounded)

end

theorem rowLayout_of_covers {s : State} {j : Job} {e op n : Nat} {eng : Engine} {o : OpSpec} (h : IssueFacts s j e op eng o)
    (ho : ∀ space ∈ o.w, space = SCRATCH ∨ space = OPC ∨ space = STOPE) (hd : 1 ≤ j.d 0) (hb : j.bd 0 ≤ j.d 0) (hn : 0 < n)
    (hw : j.w.coversRows 0 (j.inner 4) n (16 * j.d 0) = true) : RowLayout j n := by
  obtain ⟨hpres, -⟩ := coversRows_row hw (by omega) hn
  obtain ⟨hrange, hal⟩ := move_writeRange h ho hpres
  refine ⟨hrange, hal, hb, fun i hi => ⟨?_, (coversRows_row hw (by omega) hi).2⟩⟩
  rw [Job.rowAt]
  omega

theorem fits_gatherRow {j : Job} (h : RowLayout j (j.d 1)) (hb : j.bd 1 ≤ j.d 1) (i : Nat) (x : Int) : ∀ g ∈ j.gatherRow i x, j.fits g := by
  intro g hg hlive
  obtain ⟨k, hk, rfl⟩ := List.mem_map.mp hg
  simp only [Bool.and_eq_true, decide_eq_true_eq] at hlive
  exact h.granules (by omega) (List.mem_range.mp hk)

theorem fits_scatterRow {j : Job} (h : RowLayout j (j.d 2)) (hb : j.bd 2 ≤ j.d 2) (i : Nat) (x : Int) : ∀ g ∈ j.scatterRow i x, j.fits g := by
  intro g hg _
  rw [Job.scatterRow] at hg
  split at hg
  case isTrue hx =>
    rw [Bool.and_eq_true, Job.validIndex_iff] at hx
    obtain ⟨k, hk, rfl⟩ := List.mem_map.mp hg
    exact h.granules (by omega) (List.mem_range.mp hk)
  case isFalse => exact absurd hg List.not_mem_nil

/-! ### The indexes (R646) -/

/-- Index `i` of a command, as it stands in a state. -/
def M.indexAt (m : M) (j : Job) (i : Nat) : Int := signed (ofBytes (bytesIn m j.c j.b.space (j.b.base + 4 * i) 4)) 32

theorem M.Clean.index {m : M} {j : Job} (hc : m.Clean j.c) (i : Nat) : m.index j i = (m.indexAt j i, m) := by
  rw [M.index, hc.read]
  rfl

theorem M.indexAt_congr {m v : M} (hm : m.mem = v.mem) (he : m.die.ecc = []) (he' : v.die.ecc = []) {j : Job} (hb : j.b.space ≠ ACC) (i : Nat) :
    m.indexAt j i = v.indexAt j i := by rw [M.indexAt, M.indexAt, bytesIn_congr hm he he' hb]

/-- Row `i` of a DGATHER: the row its index names, or the pad. -/
def M.gathered (m : M) (j : Job) (i : Nat) : Bytes :=
  if j.validIndex (m.indexAt j i) then bytesIn m j.c j.a.space (j.a.base + j.inner 2 * (m.indexAt j i).toNat) (16 * j.bd 0)
  else m.padRow j (j.bd 0)

theorem gathered_length {j : Job} (hp : j.padOk = true) {m : M} (hc : m.Clean j.c) (i : Nat) : (m.gathered j i).length = 16 * j.bd 0 := by
  rw [M.gathered]
  split
  · exact bytesIn_length _ _ _ _ _ hc.ecc
  · exact padRow_length hp m _

theorem dgatherRun_apart {j : Job} (h : j.overlapping = false) {m : M} (hc : m.Clean j.c) :
    dgatherRun j m = m.writeRows j.c j.w.space ((List.range (j.bd 1)).map fun i => (j.rowAt i, m.gathered j i)) := by
  have hfold := foldl_collect (fun (l, n) i =>
      let (x, n) := M.index n j i
      let (bs, n) :=
        if j.validIndex x then n.spaceRead j.c j.a.space (j.a.base + j.inner 2 * x.toNat) (16 * j.bd 0) else (m.padRow j (j.bd 0), n)
      (l ++ [(j.w.base + j.inner 4 * i, bs)], n))
    (fun i => [(j.rowAt i, m.gathered j i)]) m (fun l i => by
      rw [M.gathered]
      simp only [hc.index, hc.read]
      split <;> rfl) (List.range (j.bd 1)) []
  rw [List.nil_append, ← List.map_eq_flatMap] at hfold
  rw [dgatherRun, h]
  exact (congrArg (fun x : List (Nat × Bytes) × M => x.2.writeRows j.c j.w.space x.1) hfold :)

/-- The rows of a DSCATTER whose index is valid. -/
def M.scatterRows (m : M) (j : Job) : List Nat := (List.range (j.bd 1)).filter fun i => j.validIndex (m.indexAt j i)

theorem M.mem_scatterRows {m : M} {j : Job} {i : Nat} : i ∈ m.scatterRows j ↔ i < j.bd 1 ∧ 0 ≤ m.indexAt j i ∧ m.indexAt j i < j.bd 2 := by
  simp [M.scatterRows, Job.validIndex_iff]

theorem dscatterRun_apart {j : Job} (h : j.overlapping = false) {m : M} (hc : m.Clean j.c) :
    dscatterRun j m = m.writeRows j.c j.w.space ((m.scatterRows j).map fun i =>
      (j.rowAt (m.indexAt j i).toNat, bytesIn m j.c j.a.space (j.a.base + j.inner 2 * i) (16 * j.bd 0))) := by
  have hfold := foldl_collect (fun (l, n) i =>
      let (x, n) := M.index n j i
      if j.validIndex x then
        let (bs, n) := n.spaceRead j.c j.a.space (j.a.base + j.inner 2 * i) (16 * j.bd 0)
        (l ++ [(j.w.base + j.inner 4 * x.toNat, bs)], n)
      else (l, n))
    (fun i => if j.validIndex (m.indexAt j i) then
      [(j.rowAt (m.indexAt j i).toNat, bytesIn m j.c j.a.space (j.a.base + j.inner 2 * i) (16 * j.bd 0))] else []) m (fun l i => by
      simp only [hc.index, hc.read]
      split
      · rfl
      · rw [List.append_nil]) (List.range (j.bd 1)) []
  have hrows : ∀ l : List Nat, (l.flatMap fun i => if j.validIndex (m.indexAt j i) then
      [(j.rowAt (m.indexAt j i).toNat, bytesIn m j.c j.a.space (j.a.base + j.inner 2 * i) (16 * j.bd 0))] else []) =
      (l.filter fun i => j.validIndex (m.indexAt j i)).map fun i =>
        (j.rowAt (m.indexAt j i).toNat, bytesIn m j.c j.a.space (j.a.base + j.inner 2 * i) (16 * j.bd 0)) := fun l => by
    induction l with
    | nil => rfl
    | cons i l ih => rw [List.flatMap_cons, ih, List.filter_cons]; split <;> rfl
  rw [List.nil_append, hrows] at hfold
  rw [dscatterRun, h]
  exact (congrArg (fun x : List (Nat × Bytes) × M => x.2.writeRows j.c j.w.space x.1) hfold :)

/-! ### The writes of an indexed move (R205, R648) -/

/-- The writes that an indexed move records are those of its granules, in their order. -/
theorem indexed_writes {s : State} {j : Job} {e op : Nat} {eng : Engine} {o : OpSpec} (hf : IssueFacts s j e op eng o)
    (hw : WriteRange j) {row : Nat → Int → List Grain} (hrow : ∀ i x, ∀ g ∈ row i x, j.fits g)
    (huses : ∀ m, eng.uses j m = j.indexUses ++ timedUses j.a.space j.w.space (m.moveIndexed j [] row).1) :
    ∃ ts, ((view s).issueUses j eng).filter (·.write) = (moving ts).map j.writeUse ∧ Ordered ts ∧ j.landInW ts := by
  obtain ⟨ho, hl, -⟩ := M.moveIndexed_leaves hw (pad := []) (by simp) hrow hf.clean_queued
  refine ⟨_, ?_, ho, hl⟩
  have huse : (view s).issueUses j eng = _ := huses ((view s).queued j)
  rw [huse, List.filter_append, indexUses_reads, List.nil_append, timedUses_writes hw hl]

/-- Where the ranges of a command with an index are. -/
structure IndexedRanges (j : Job) (n : Nat) : Prop where
  a : j.a.space ≠ ACC
  b : j.b.space ≠ ACC
  layout : RowLayout j n
  bounded : j.bd 1 ≤ j.d 1 ∧ j.bd 2 ≤ j.d 2

theorem indexed_ranges {s : State} {j : Job} {e op n k : Nat} {eng : Engine} {o : OpSpec} (hf : IssueFacts s j e op eng o)
    (ha : ACC ∉ o.a) (hb : ACC ∉ o.b) (ho : ∀ space ∈ o.w, space = SCRATCH ∨ space = OPC ∨ space = STOPE)
    (hx : j.extents = true) (hbd : j.bounded [0, 1, 2] = true) (hcb : j.b.covers 0 (4 * j.d 1) = true)
    (hk : 0 < k) (hca : j.a.coversRows 0 (j.inner 2) k (16 * j.d 0) = true)
    (hn : 0 < n) (hcw : j.w.coversRows 0 (j.inner 4) n (16 * j.d 0) = true) : IndexedRanges j n := by
  obtain ⟨h0, h1, h2⟩ := Job.extents_pos hx
  obtain ⟨hb0, hb12⟩ := Job.bounded_le hbd
  obtain ⟨hpa, -⟩ := coversRows_row hca (by omega) hk
  obtain ⟨hpb, -⟩ := covers_inside hcb (by omega)
  obtain ⟨hina, -, -⟩ := range_of_not_malformed hf.a hpa
  obtain ⟨hinb, -, -⟩ := range_of_not_malformed hf.b hpb
  exact ⟨fun e => ha (e ▸ hina), fun e => hb (e ▸ hinb), rowLayout_of_covers hf ho h0 hb0 hn hcw, hb12⟩

/-! ### DGATHER -/

theorem dgather_ranges {s : State} {j : Job} {o : OpSpec} (hf : IssueFacts s j 2 2 dgatherEngine o) :
    j.padOk = true ∧ IndexedRanges j (j.d 1) := by
  have hshape : dgatherShape j (view s) = true := hf.shape
  simp only [dgatherShape, Bool.and_eq_true] at hshape
  obtain ⟨⟨⟨⟨⟨hx, hbd⟩, hp⟩, hb⟩, ha⟩, hw⟩ := hshape
  obtain ⟨h0, h1, h2⟩ := Job.extents_pos hx
  obtain rfl : _ = o := Option.some.inj hf.spec
  exact ⟨hp, indexed_ranges hf (by decide) (by decide) (by decide) hx hbd hb h2 ha h1 hw⟩

theorem stored_dgatherRun {j : Job} (h : IndexedRanges j (j.d 1)) (hp : j.padOk = true) {m : M} (hc : m.Clean j.c) :
    M.Stored m (dgatherRun j m) j.wAddr j.w.bytes := by
  cases ho : j.overlapping with
  | true =>
    rw [dgatherRun, ho]
    exact (M.moveIndexed_leaves h.layout.range (jobPad_length hp m).le (fits_gatherRow h.layout h.bounded.1) hc).2.2
  | false =>
    rw [dgatherRun_apart ho hc]
    exact M.stored_rows h.layout.range hc (fun i _ => gathered_length hp hc i) fun _ i hi =>
      h.layout.inW ((List.mem_range.mp hi).trans_le h.bounded.1)

theorem dgather_moves {s : State} {j : Job} (h : issues (.dgather j.c) s j) :
    ∃ m r, M.AtIssue (view s) m j ∧ m.Clean j.c ∧ runs (.dgather j.c) s r ∧ sameButPorts (view s) r [issueReg j] ∧
      sameBytes (view s) r j.wAddr j.w.bytes ∧ r.mem = (dgatherRun j m).mem ∧ r.die.ecc = [] := by
  obtain ⟨o, hf⟩ := issues_facts h rfl
  obtain ⟨hp, hr⟩ := dgather_ranges hf
  obtain ⟨ts, huses, ho, hl⟩ := indexed_writes hf hr.layout.range (fits_gatherRow hr.layout hr.bounded.1) fun _ => rfl
  exact move_leaves h rfl huses ho hl fun m => stored_dgatherRun hr hp

/-- Rows of granules apart by their stride. -/
theorem Job.rowAt_apart {j : Job} {n : Nat} (h : n ≤ j.inner 4) {i k : Nat} (hne : i ≠ k) : j.rowAt k + n ≤ j.rowAt i ∨ j.rowAt i + n ≤ j.rowAt k := by
  have hstep : ∀ {a b}, a < b → j.rowAt a + n ≤ j.rowAt b := fun {a b} hab => by
    have hmul := Nat.mul_le_mul_left (j.inner 4) (Nat.succ_le_of_lt hab)
    rw [Nat.mul_succ] at hmul
    rw [Job.rowAt, Job.rowAt]
    omega
  rcases Nat.lt_or_gt_of_ne hne with hik | hki
  · exact .inr (hstep hik)
  · exact .inl (hstep hki)

theorem M.gathered_congr {v m : M} {j : Job} (hm : M.AtIssue v m j) (he : m.die.ecc = []) (he' : v.die.ecc = []) (ha : j.a.space ≠ ACC)
    (hb : j.b.space ≠ ACC) (i : Nat) : m.gathered j i = v.gathered j i := by
  rw [M.gathered, M.gathered, M.indexAt_congr hm.mem he he' hb, bytesIn_congr hm.mem he he' ha, M.padRow, M.padRow, hm.jobPad]

theorem dgather_rows {s : State} {j : Job} (h : issues (.dgather j.c) s j) (ho : j.overlapping = false)
    (ha : j.bd 1 ≤ 1 ∨ 16 * j.bd 0 ≤ j.inner 4) :
    ∃ m, runs (.dgather j.c) s m ∧ sameButPorts (view s) m [issueReg j] ∧ ∀ i, i < j.bd 1 →
      bytesIn m j.c j.w.space (j.rowAt i) (16 * j.bd 0) = (view s).gathered j i := by
  obtain ⟨o, hf⟩ := issues_facts h rfl
  obtain ⟨hp, hr⟩ := dgather_ranges hf
  obtain ⟨m, r, hm, hc, hrun, hsame, -, hmem, hecc⟩ := dgather_moves h
  have hstored := stored_dgatherRun hr hp hc
  refine ⟨r, hrun, hsame, fun i hi => ?_⟩
  rw [bytesIn_congr hmem hecc (hstored.die ▸ hc.ecc) hr.layout.range.notAcc, dgatherRun_apart ho hc,
    M.writeRows_at hr.layout.range hc (fun i _ => gathered_length hp hc i)
      (fun _ i hi => hr.layout.inW ((List.mem_range.mp hi).trans_le hr.bounded.1)) (R := (· ≠ ·)) List.nodup_range (List.mem_range.mpr hi)
      fun k hk hne => ?_, M.gathered_congr hm hc.ecc hf.ecc hr.a hr.b]
  have hk := List.mem_range.mp hk
  exact Job.rowAt_apart (ha.resolve_left (by omega)) hne

/-! ### DSCATTER -/

theorem dscatter_ranges {s : State} {j : Job} {o : OpSpec} (hf : IssueFacts s j 2 3 dscatterEngine o) : IndexedRanges j (j.d 2) := by
  have hshape : dscatterShape j (view s) = true := hf.shape
  simp only [dscatterShape, Bool.and_eq_true] at hshape
  obtain ⟨⟨⟨⟨hx, hbd⟩, hb⟩, ha⟩, hw⟩ := hshape
  obtain ⟨h0, h1, h2⟩ := Job.extents_pos hx
  obtain rfl : _ = o := Option.some.inj hf.spec
  exact indexed_ranges hf (by decide) (by decide) (by decide) hx hbd hb h1 ha h2 hw

/-- A row that an index names lies in the write range. -/
theorem IndexedRanges.scattered {j : Job} (h : IndexedRanges j (j.d 2)) (m : M) :
    ∀ i ∈ m.scatterRows j, j.inW (j.rowAt (m.indexAt j i).toNat) (16 * j.bd 0) := fun i hi => by
  obtain ⟨-, h0, h2⟩ := M.mem_scatterRows.mp hi
  have := h.bounded
  exact h.layout.inW (by omega)

theorem stored_dscatterRun {j : Job} (h : IndexedRanges j (j.d 2)) {m : M} (hc : m.Clean j.c) :
    M.Stored m (dscatterRun j m) j.wAddr j.w.bytes := by
  cases ho : j.overlapping with
  | true =>
    rw [dscatterRun, ho]
    exact (M.moveIndexed_leaves h.layout.range (by simp) (fits_scatterRow h.layout h.bounded.2) hc).2.2
  | false =>
    rw [dscatterRun_apart ho hc]
    exact M.stored_rows h.layout.range hc (fun i _ => bytesIn_length _ _ _ _ _ hc.ecc) fun _ => h.scattered m

theorem dscatter_moves {s : State} {j : Job} (h : issues (.dscatter j.c) s j) :
    ∃ m r, M.AtIssue (view s) m j ∧ m.Clean j.c ∧ runs (.dscatter j.c) s r ∧ sameButPorts (view s) r [issueReg j] ∧
      sameBytes (view s) r j.wAddr j.w.bytes ∧ r.mem = (dscatterRun j m).mem ∧ r.die.ecc = [] := by
  obtain ⟨o, hf⟩ := issues_facts h rfl
  have hr := dscatter_ranges hf
  obtain ⟨ts, huses, ho, hl⟩ := indexed_writes hf hr.layout.range (fits_scatterRow hr.layout hr.bounded.2) fun _ => rfl
  exact move_leaves h rfl huses ho hl fun m => stored_dscatterRun hr

theorem dscatter_rows {s : State} {j : Job} (h : issues (.dscatter j.c) s j) (ho : j.overlapping = false) :
    ∃ m, runs (.dscatter j.c) s m ∧ sameButPorts (view s) m [issueReg j] ∧
      (∀ i ∈ (view s).scatterRows j, (∀ k ∈ (view s).scatterRows j, i < k →
        j.rowAt ((view s).indexAt j k).toNat + 16 * j.bd 0 ≤ j.rowAt ((view s).indexAt j i).toNat ∨
        j.rowAt ((view s).indexAt j i).toNat + 16 * j.bd 0 ≤ j.rowAt ((view s).indexAt j k).toNat) →
        bytesIn m j.c j.w.space (j.rowAt ((view s).indexAt j i).toNat) (16 * j.bd 0) =
          bytesIn (view s) j.c j.a.space (j.a.base + j.inner 2 * i) (16 * j.bd 0)) ∧
      ((view s).scatterRows j = [] → m.mem = (view s).mem) := by
  obtain ⟨o, hf⟩ := issues_facts h rfl
  have hr := dscatter_ranges hf
  obtain ⟨m, r, hm, hc, hrun, hsame, -, hmem, hecc⟩ := dscatter_moves h
  have hstored := stored_dscatterRun hr hc
  have hindex : ∀ i, m.indexAt j i = (view s).indexAt j i := M.indexAt_congr hm.mem hc.ecc hf.ecc hr.b
  have hrows : m.scatterRows j = (view s).scatterRows j := by
    simp only [M.scatterRows, hindex]
  rw [dscatterRun_apart ho hc] at hmem hstored
  refine ⟨r, hrun, hsame, fun i hi hlater => ?_, fun hnone => ?_⟩
  · rw [← hrows] at hi hlater
    simp only [← hindex] at hlater ⊢
    rw [bytesIn_congr hmem hecc (hstored.die ▸ hc.ecc) hr.layout.range.notAcc,
      M.writeRows_at hr.layout.range hc (fun i _ => bytesIn_length _ _ _ _ _ hc.ecc) (fun _ => hr.scattered m)
        (R := (· < ·)) (List.pairwise_lt_range.sublist List.filter_sublist) hi hlater, bytesIn_congr hm.mem hc.ecc hf.ecc hr.a]
  · rw [hmem, hrows, hnone]
    exact hm.mem

end Sys2Proof.Machine

/-! ## DSEND and DHALO (R137 to R139, R228, R646) -/

namespace Sys2Proof.Machine

/-! ### A row cut into granules -/

theorem bytesIn_append (m : M) (c space off a b : Nat) (h : m.die.ecc = []) (hs : space ≠ ACC) :
    bytesIn m c space off (a + b) = bytesIn m c space off a ++ bytesIn m c space (off + a) b := by
  rw [bytesIn_eq _ _ _ _ _ h hs, bytesIn_eq _ _ _ _ _ h hs, bytesIn_eq _ _ _ _ _ h hs, List.range_add, List.map_append, List.map_map]
  simp only [Function.comp_def, Nat.add_assoc]

theorem chunks_append {n k : Nat} {a b : Bytes} (h : a.length = n) : chunks n (k + 1) (a ++ b) = a :: chunks n k b := by
  rw [chunks, List.take_left' h, List.drop_left' h]

theorem chunks_bytesIn (m : M) (c space : Nat) (h : m.die.ecc = []) (hs : space ≠ ACC) (k : Nat) : ∀ off,
    chunks 16 k (bytesIn m c space off (16 * k)) = (List.range k).map fun g => bytesIn m c space (off + 16 * g) 16 := by
  induction k with
  | zero => exact fun _ => rfl
  | succ k ih =>
    intro off
    rw [Nat.mul_succ, Nat.add_comm (16 * k), bytesIn_append _ _ _ _ _ _ h hs, chunks_append (bytesIn_length _ _ _ _ _ h), ih,
      List.range_succ_eq_map, List.map_cons, List.map_map]
    simp only [Function.comp_def, Nat.mul_zero, Nat.add_zero, Nat.mul_succ, Nat.add_assoc, Nat.add_comm 16]

theorem chunks_replicate {bs : Bytes} {n : Nat} (h : bs.length = n) (k : Nat) : chunks n k (List.replicate k bs).flatten = List.replicate k bs := by
  induction k with
  | zero => rfl
  | succ k ih => rw [List.replicate_succ, List.flatten_cons, chunks_append h, ih]

/-- The granules of a row of a send, with their places from offset `dst` on. -/
def rowGranules (dst : Nat) (bs : Bytes) : List (Nat × Bytes) :=
  (chunks 16 (bs.length / 16) bs).zipIdx.map fun (g, i) => (dst + 16 * i, g)

theorem zipIdx_map_range (k : Nat) (f : Nat → Bytes) (dst : Nat) :
    ((List.range k).map f).zipIdx.map (fun (g, i) => (dst + 16 * i, g)) = (List.range k).map fun g => (dst + 16 * g, f g) := by
  refine List.ext_getElem (by simp) fun i h1 h2 => by simp

theorem rowGranules_bytesIn (m : M) (c space : Nat) (h : m.die.ecc = []) (hs : space ≠ ACC) (dst off k : Nat) :
    rowGranules dst (bytesIn m c space off (16 * k)) = (List.range k).map fun g => (dst + 16 * g, bytesIn m c space (off + 16 * g) 16) := by
  rw [rowGranules, bytesIn_length _ _ _ _ _ h, Nat.mul_div_cancel_left _ (by decide), chunks_bytesIn _ _ _ h hs, zipIdx_map_range]

theorem rowGranules_padRow {j : Job} (hp : j.padOk = true) (m : M) (dst k : Nat) :
    rowGranules dst (m.padRow j k) = (List.range k).map fun g => (dst + 16 * g, m.jobPad j) := by
  rw [rowGranules, padRow_length hp, Nat.mul_div_cancel_left _ (by decide), M.padRow, chunks_replicate (jobPad_length hp m)]
  have hconst : List.replicate k (m.jobPad j) = (List.range k).map fun _ => m.jobPad j := by simp
  rw [hconst, zipIdx_map_range]

/-! ### Granules in beats of eight -/

/-- A row's granules in its beats. -/
def inBeats {α : Type} (n : Nat) (gs : List α) : List (List α) := (List.range n).map fun b => (gs.drop (8 * b)).take 8

theorem flatten_inBeats {α : Type} (gs : List α) (n : Nat) : (inBeats n gs).flatten = gs.take (8 * n) := by
  induction n with
  | zero => simp [inBeats]
  | succ n ih =>
    rw [inBeats, List.range_succ, List.map_append, List.flatten_append, ← inBeats, ih, Nat.mul_succ, List.take_add]
    simp

theorem flatten_inBeats_all {α : Type} {gs : List α} {n : Nat} (h : gs.length ≤ n) : (inBeats (ceilDiv n 8) gs).flatten = gs := by
  rw [flatten_inBeats, List.take_of_length_le]
  rw [Machine.ceilDiv]
  omega

/-! ### Beats put on the Shaft -/

theorem M.portsMoved_usePath (m : M) (c dest t : Nat) : M.PortsMoved m (m.usePath c dest t) :=
  (m.portsMoved_addUse _ _).trans (.foldl (fun _ _ => M.portsMoved_addUse _ _ _) _ _)

/-- The registers of a site's core map are no port counters, and count no issues. -/
theorem coreMap_quiet (j : Job) (site : Nat) {off : Nat} (h : off = CLU_VCORE_MAP ∨ off = CLU_VCORE_MAP_HI) :
    ¬ portCounter (cluReg site off) ∧ cluReg site off ≠ issueReg j := by
  have he := cmdEngine_lt j.cmd
  refine ⟨?_, ?_⟩
  · rintro ⟨x, hx⟩
    simp only [CLU_VCORE_MAP, CLU_VCORE_MAP_HI] at h
    simp only [coreReg, coreBase, cluReg, CORE_BANK_COLLIDE_CNT, CORE_SCRUB_COLLIDE_CNT,
      CORE_CC_BANK_WAIT_CYCLE_CNT, CORE_ELASTIC_BANK_WAIT_CYCLE_CNT, CLU_STOPE_COLLIDE_CNT, CLU_STOPE_ELASTIC_WAIT_CYCLE_CNT,
      SHAFT_LINK_COLLIDE_CNT, SHAFT_ELASTIC_WAIT_CYCLE_CNT, CLU_SLIP_CYCLE_CNT] at hx
    omega
  · rw [issueReg_eq]
    refine (coreReg_ne_cluReg _ _ _ _ (by simp only [CORE_ENG_ISSUE_CNT]; omega) ?_).symm
    rcases h with rfl | rfl <;> decide

theorem M.remoteCore_congr {v m : M} {j : Job} (h : Sys2Proof.sameButPorts v m [issueReg j]) : m.remoteCore j = v.remoteCore j := by
  have hreg : ∀ off, off = CLU_VCORE_MAP ∨ off = CLU_VCORE_MAP_HI → m.reg (cluReg (j.aux 15 8) off) = v.reg (cluReg (j.aux 15 8) off) :=
    fun off ho => by
      obtain ⟨hport, hne⟩ := coreMap_quiet j (j.aux 15 8) ho
      exact h _ (by simpa using hne) hport
  rw [M.remoteCore, M.remoteCore, M.physical, M.physical, M.fld, M.fld, M.fld, M.fld, hreg _ (.inl rfl), hreg _ (.inr rfl)]

/-- A command has put beats of the granules `gs` on the Shaft, and memory stands. -/
structure M.Sent (v m : M) (j : Job) (gs : List (List (Nat × Bytes))) : Prop where
  mem : m.mem = v.mem
  ecc : m.die.ecc = v.die.ecc
  regs : Sys2Proof.sameButPorts v m [issueReg j]
  beats : ∃ new, m.die.beats = v.die.beats ++ new ∧ (∀ b ∈ new, beatOf v j b) ∧ new.map (·.granules) = gs

theorem M.AtIssue.sent {v m : M} {j : Job} (h : M.AtIssue v m j) : M.Sent v m j [] :=
  ⟨h.mem, h.ecc, h.sameButPorts, [], by rw [h.beats, List.append_nil], fun _ hb => absurd hb List.not_mem_nil, rfl⟩

/-- The beat that a send puts on the Shaft. -/
def M.sentBeat (m : M) (j : Job) (k : Nat) (granules : List (Nat × Bytes)) : Beat :=
  { id := (m.usePath j.c (m.remoteCore j) (m.issuedAt j + 4 + k)).die.beatNo, source := j.c, push := j.push, no := k, dest := m.remoteCore j
    memory := spaceMem (j.aux 19 16), granules, token := j.flags % 2 == 1, travel := travelTime (j.c / 17) (m.remoteCore j / 17)
    land := m.issuedAt j + 4 + k + travelTime (j.c / 17) (m.remoteCore j / 17), atEject := false, inRouter := false, late := false }

theorem M.sendBeat_adds (m : M) (j : Job) (k : Nat) (granules : List (Nat × Bytes)) :
    ∃ n, M.PortsMoved m n ∧ (m.sendBeat j k granules).mem = n.mem ∧ (m.sendBeat j k granules).die.ecc = n.die.ecc ∧
      (∀ a, (m.sendBeat j k granules).reg a = n.reg a) ∧ (m.sendBeat j k granules).die.beats = n.die.beats ++ [m.sentBeat j k granules] :=
  ⟨_, m.portsMoved_usePath j.c (m.remoteCore j) (m.issuedAt j + 4 + k), rfl, rfl, fun _ => rfl, rfl⟩

theorem M.Sent.beat {v m : M} {j : Job} {gs : List (List (Nat × Bytes))} (h : M.Sent v m j gs) (k : Nat) {granules : List (Nat × Bytes)}
    (hg : granules.length ≤ 8) : M.Sent v (m.sendBeat j k granules) j (gs ++ [granules]) := by
  obtain ⟨hmem, hecc, hregs, new, hbeats, hnew, hgs⟩ := h
  obtain ⟨n, hp, hmem', hecc', hreg', hbeats'⟩ := m.sendBeat_adds j k granules
  refine ⟨hmem'.trans (hp.mem.trans hmem), hecc'.trans (hp.ecc.trans hecc),
    fun a ha hport => (hreg' a).trans ((hp.reg hport).trans (hregs a ha hport)), new ++ [m.sentBeat j k granules], ?_, fun b hb => ?_, ?_⟩
  · rw [hbeats', hp.beats, hbeats, List.append_assoc]
  · rcases List.mem_append.mp hb with hb | hb
    · exact hnew b hb
    · rw [List.mem_singleton.mp hb]
      exact ⟨rfl, M.remoteCore_congr hregs, rfl, by rw [Nat.testBit_zero]; rfl, hg, rfl, rfl, rfl⟩
  · rw [List.map_append, hgs]
    rfl

/-- A fold of steps that each send some beats. -/
theorem M.Sent.foldl {v : M} {j : Job} {α : Type} {f : M → α → M} {g : α → List (List (Nat × Bytes))} (xs : List α)
    (hf : ∀ x ∈ xs, ∀ m gs, M.Sent v m j gs → M.Sent v (f m x) j (gs ++ g x)) {m : M} {gs : List (List (Nat × Bytes))} (h : M.Sent v m j gs) :
    M.Sent v (xs.foldl f m) j (gs ++ xs.flatMap g) := by
  induction xs generalizing m gs with
  | nil => simpa using h
  | cons x xs ih =>
    rw [List.foldl_cons, List.flatMap_cons, ← List.append_assoc]
    exact ih (fun y hy => hf y (List.mem_cons_of_mem _ hy)) (hf x List.mem_cons_self m gs h)

theorem M.Sent.row {v m : M} {j : Job} {gs : List (List (Nat × Bytes))} (h : M.Sent v m j gs) (granules r dst : Nat) (bs : Bytes) :
    M.Sent v (m.sendRow j granules r dst bs) j (gs ++ inBeats (ceilDiv granules 8) (rowGranules dst bs)) := by
  rw [inBeats, List.map_eq_flatMap]
  exact M.Sent.foldl (f := fun m b => m.sendBeat j (ceilDiv granules 8 * r + b) (((rowGranules dst bs).drop (8 * b)).take 8)) _
    (fun _ _ _ _ h => h.beat _ (List.length_take_le _ _)) h

/-! ### A send issues -/

theorem beatUses_reads {j : Job} {n r src live : Nat} : ∀ u ∈ j.beatUses n r src live, u.write = false := fun _ hu => by
  obtain ⟨b, -, hb⟩ := List.mem_flatMap.mp hu
  exact usesOf_write hb

/-- A command that sends its rows: its beats are on the Shaft, and nothing changes at home. -/
theorem send_runs {i : Instr} {s : State} {j : Job} {e op : Nat} {eng : Engine} {rows : List (List (List (Nat × Bytes)))} (h : issues i s j)
    (hrow : engineRow i = some (j.c, e, op, eng)) (huses : ∀ m, ∀ u ∈ eng.uses j m, u.write = false)
    (hrun : ∀ m, M.AtIssue (view s) m j → M.Sent (view s) (eng.run j m) j rows.flatten) :
    ∃ m new, runs i s m ∧ m.die.beats = (view s).die.beats ++ new ∧ (∀ b ∈ new, beatOf (view s) j b) ∧
      new.length = rows.flatten.length ∧ new.flatMap (·.granules) = rows.flatMap List.flatten ∧ m.mem = (view s).mem ∧
      sameButPorts (view s) m [issueReg j] := by
  have hgo := issues_runs h hrow
  have hnone : ((view s).issueUses j eng).filter (·.write) = [] := filter_reads (huses ((view s).queued j))
  simp only [hnone, List.foldl_nil] at hgo
  obtain ⟨hmem, -, hregs, new, hbeats, hnew, hgs⟩ := hrun _ ((view s).atIssue_atIssue j eng)
  generalize (view s).atIssue j eng = m at hgo hmem hregs hbeats
  generalize eng.run j m = r at hgo hmem hregs hbeats
  refine ⟨_, new, hgo, hbeats, hnew, ?_, ?_, hmem, hregs⟩
  · rw [← hgs, List.length_map]
  · rw [List.flatMap_def, hgs, List.flatMap_def, List.flatten_flatten]

/-! ### DSEND (R139, R646) -/

theorem flatMap_range_bound {α : Type} {b d : Nat} (h : b ≤ d) (f : Nat → List α) :
    ((List.range d).flatMap fun i => if i < b then f i else []) = (List.range b).flatMap f := by
  obtain ⟨k, rfl⟩ := Nat.exists_eq_add_of_le h
  rw [List.range_add, List.flatMap_append, List.flatMap_map, List.flatMap_congr (g := f) fun i hi => if_pos (List.mem_range.mp hi)]
  have hnone : ((List.range k).flatMap fun i => if b + i < b then f (b + i) else []) = [] := List.flatMap_eq_nil_iff.mpr fun i _ => if_neg (by omega)
  rw [hnone, List.append_nil]

/-- The granules of row `x` of a DSEND, `live` of them in bound. -/
def M.sendGranules (v : M) (j : Job) (x : Nat × Nat) (live : Nat) : List (Nat × Bytes) :=
  (List.range live).map fun g => (j.place j.w 4 x + 16 * g, bytesIn v j.c j.a.space (j.place j.a 2 x + 16 * g) 16)

/-- The rows of a DSEND that are out of bound send nothing. -/
theorem sendRows_inBounds {j : Job} (hb : j.bd 1 ≤ j.d 1 ∧ j.bd 2 ≤ j.d 2) (v : M) :
    (j.sendRows.flatMap fun (_, p, r) => v.sendGranules j (p, r) (j.sendLive p r)) = j.rows.flatMap fun x => v.sendGranules j x (j.bd 0) := by
  have hrow : ∀ p r, v.sendGranules j (p, r) (j.sendLive p r) = if r < j.bd 1 then (if p < j.bd 2 then v.sendGranules j (p, r) (j.bd 0) else []) else [] := by
    intro p r
    rw [Job.sendLive]
    by_cases hp : p < j.bd 2 <;> by_cases hr : r < j.bd 1 <;> simp [hp, hr, M.sendGranules]
  have hplane : ∀ p, ((List.range (j.bd 1)).flatMap fun r => if p < j.bd 2 then v.sendGranules j (p, r) (j.bd 0) else []) =
      if p < j.bd 2 then (List.range (j.bd 1)).flatMap fun r => v.sendGranules j (p, r) (j.bd 0) else [] := by
    intro p
    split
    · rfl
    · simp
  rw [Job.sendRows, Job.rows, List.flatMap_assoc, List.flatMap_assoc, ← flatMap_range_bound hb.2]
  refine List.flatMap_congr fun p _ => ?_
  simp only [List.flatMap_map, hrow]
  rw [flatMap_range_bound hb.1, hplane]

theorem sendLive_le {j : Job} (h : j.bd 0 ≤ j.d 0) (p r : Nat) : j.sendLive p r ≤ j.d 0 := by
  rw [Job.sendLive]
  split <;> omega

theorem dsend_facts {s : State} {j : Job} {o : OpSpec} (hf : IssueFacts s j 2 4 dsendEngine o) :
    j.a.space ≠ ACC ∧ j.bd 0 ≤ j.d 0 ∧ j.bd 1 ≤ j.d 1 ∧ j.bd 2 ≤ j.d 2 := by
  have hshape : dsendShape j (view s) = true := hf.shape
  simp only [dsendShape, Bool.and_eq_true] at hshape
  obtain ⟨⟨⟨⟨hx, hb⟩, -⟩, ha⟩, -⟩ := hshape
  obtain ⟨h0, h1, h2⟩ := Job.extents_pos hx
  obtain ⟨hpres, -⟩ := coversPlanes_row ha h0 (x := (0, 0)) h2 h1
  obtain ⟨hin, -, -⟩ := range_of_not_malformed hf.a hpres
  obtain rfl : _ = o := Option.some.inj hf.spec
  exact ⟨fun e => absurd (e ▸ hin) (by decide), Job.bounded_le hb⟩

/-- A DSEND puts its rows on the Shaft. -/
theorem dsendRun_sent {j : Job} {v m : M} (h : M.AtIssue v m j) (he : v.die.ecc = []) (ha : j.a.space ≠ ACC) :
    M.Sent v (dsendRun j m) j (j.sendRows.flatMap fun (_, p, r) => inBeats (ceilDiv (j.d 0) 8) (v.sendGranules j (p, r) (j.sendLive p r))) := by
  refine M.Sent.foldl (gs := []) _ (fun x _ n gs hn => ?_) h.sent
  obtain ⟨k, p, r⟩ := x
  have hread : (if j.sendLive p r = 0 then ([], n) else n.spaceRead j.c j.a.space (j.place j.a 2 (p, r)) (16 * j.sendLive p r)) =
      (bytesIn v j.c j.a.space (j.place j.a 2 (p, r)) (16 * j.sendLive p r), n) := by
    split
    case isTrue h0 => rw [h0, bytesIn_zero _ _ _ _ he]
    case isFalse => exact Prod.ext (bytesIn_congr hn.mem (hn.ecc.trans he) he ha _ _ _) (M.spaceRead_snd _ _ _ _ _ (hn.ecc.trans he))
  have hsent := hn.row (j.d 0) k (j.place j.w 4 (p, r)) (bytesIn v j.c j.a.space (j.place j.a 2 (p, r)) (16 * j.sendLive p r))
  rw [rowGranules_bytesIn _ _ _ he ha] at hsent
  have hstep : ∀ y : Bytes × M, y = (bytesIn v j.c j.a.space (j.place j.a 2 (p, r)) (16 * j.sendLive p r), n) →
      M.Sent v (y.2.sendRow j (j.d 0) k (j.place j.w 4 (p, r)) y.1) j
        (gs ++ inBeats (ceilDiv (j.d 0) 8) (v.sendGranules j (p, r) (j.sendLive p r))) := by
    rintro _ rfl
    exact hsent
  exact hstep _ hread

theorem dsend_sends {s : State} {j : Job} (h : issues (.dsend j.c) s j) :
    ∃ m new, runs (.dsend j.c) s m ∧ m.die.beats = (view s).die.beats ++ new ∧ (∀ b ∈ new, beatOf (view s) j b) ∧
      new.length = j.d 2 * j.d 1 * ceilDiv (j.d 0) 8 ∧
      new.flatMap (·.granules) = (j.rows.flatMap fun x => (view s).sendGranules j x (j.bd 0)) ∧ m.mem = (view s).mem ∧
      sameButPorts (view s) m [issueReg j] := by
  obtain ⟨o, hf⟩ := issues_facts h rfl
  obtain ⟨ha, hb0, hb⟩ := dsend_facts hf
  obtain ⟨m, new, hrun, hbeats, hnew, hlen, hgs, hrest⟩ := send_runs (rows := j.sendRows.map fun (_, p, r) =>
      inBeats (ceilDiv (j.d 0) 8) ((view s).sendGranules j (p, r) (j.sendLive p r))) h rfl
    (fun m u hu => by
      obtain ⟨x, -, hx⟩ := List.mem_flatMap.mp hu
      exact beatUses_reads u hx)
    fun m hm => by
      rw [← List.flatMap_def]
      exact dsendRun_sent hm hf.ecc ha
  refine ⟨m, new, hrun, hbeats, hnew, ?_, ?_, hrest⟩
  · rw [hlen]
    simp [Job.sendRows, inBeats, List.length_flatten, Function.comp_def]
  · rw [hgs, ← sendRows_inBounds hb, List.flatMap_map]
    refine List.flatMap_congr fun x _ => flatten_inBeats_all ?_
    simpa [M.sendGranules] using sendLive_le hb0 x.2.1 x.2.2

/-! ### DHALO (R138, R139) -/

/-- The granules of halo row `i`. -/
def M.haloGranules (v : M) (j : Job) (i : Nat) : List (Nat × Bytes) :=
  (List.range (j.bd 1)).map fun g => (j.rowAt i + 16 * g, match j.haloRow i with
    | some r => bytesIn v j.c j.a.space (j.a.base + j.inner 2 * r + 16 * g) 16
    | none => v.jobPad j)

theorem dhalo_facts {s : State} {j : Job} {o : OpSpec} (hf : IssueFacts s j 2 5 dhaloEngine o) :
    j.a.space ≠ ACC ∧ j.padOk = true ∧ j.bd 1 ≤ j.d 1 := by
  have hshape : dhaloShape j (view s) = true := hf.shape
  simp only [dhaloShape, Bool.and_eq_true, upTo, decide_eq_true_eq] at hshape
  obtain ⟨⟨⟨⟨⟨⟨⟨h0, -⟩, h1, -⟩, hb⟩, hp⟩, -⟩, ha⟩, -⟩ := hshape
  obtain ⟨hpres, -⟩ := coversRows_row ha (by omega) h0
  obtain ⟨hin, -, -⟩ := range_of_not_malformed hf.a hpres
  obtain rfl : _ = o := Option.some.inj hf.spec
  exact ⟨fun e => absurd (e ▸ hin) (by decide), hp, (Job.bounded_le hb).2.1⟩

/-- What a DHALO sends of halo row `i`: its source row, or the pad. -/
def M.haloBytes (m : M) (j : Job) (i : Nat) : Bytes :=
  match j.haloRow i with
  | some r => bytesIn m j.c j.a.space (j.a.base + j.inner 2 * r) (16 * j.bd 1)
  | none => m.padRow j (j.bd 1)

theorem rowGranules_haloBytes {v : M} {j : Job} (he : v.die.ecc = []) (ha : j.a.space ≠ ACC) (hp : j.padOk = true) (i : Nat) :
    rowGranules (j.rowAt i) (v.haloBytes j i) = v.haloGranules j i := by
  rw [M.haloBytes, M.haloGranules]
  cases j.haloRow i with
  | some r => exact rowGranules_bytesIn _ _ _ he ha _ _ _
  | none => exact rowGranules_padRow hp _ _ _

theorem dhaloRun_sent {j : Job} {v m : M} (h : M.AtIssue v m j) (he : v.die.ecc = []) (ha : j.a.space ≠ ACC) (hp : j.padOk = true) :
    M.Sent v (dhaloRun j m) j ((List.range j.haloRows).flatMap fun i => inBeats (ceilDiv (j.d 1) 8) (v.haloGranules j i)) := by
  refine M.Sent.foldl (gs := []) _ (fun i _ n gs hn => ?_) h.sent
  have hread : (match j.haloRow i with
      | some r => n.spaceRead j.c j.a.space (j.a.base + j.inner 2 * r) (16 * j.bd 1)
      | none => (m.padRow j (j.bd 1), n)) = (v.haloBytes j i, n) := by
    rw [M.haloBytes]
    cases j.haloRow i with
    | some r => exact Prod.ext (bytesIn_congr hn.mem (hn.ecc.trans he) he ha _ _ _) (M.spaceRead_snd _ _ _ _ _ (hn.ecc.trans he))
    | none =>
      dsimp only
      rw [M.padRow, M.padRow, h.jobPad]
  have hsent := hn.row (j.d 1) i (j.rowAt i) (v.haloBytes j i)
  rw [rowGranules_haloBytes he ha hp] at hsent
  have hstep : ∀ y : Bytes × M, y = (v.haloBytes j i, n) →
      M.Sent v (y.2.sendRow j (j.d 1) i (j.rowAt i) y.1) j (gs ++ inBeats (ceilDiv (j.d 1) 8) (v.haloGranules j i)) := by
    rintro _ rfl
    exact hsent
  exact hstep _ hread

theorem dhalo_sends {s : State} {j : Job} (h : issues (.dhalo j.c) s j) :
    ∃ m new, runs (.dhalo j.c) s m ∧ m.die.beats = (view s).die.beats ++ new ∧ (∀ b ∈ new, beatOf (view s) j b) ∧
      new.length = j.haloRows * ceilDiv (j.d 1) 8 ∧
      new.flatMap (·.granules) = ((List.range j.haloRows).flatMap fun i => (view s).haloGranules j i) ∧ m.mem = (view s).mem ∧
      sameButPorts (view s) m [issueReg j] := by
  obtain ⟨o, hf⟩ := issues_facts h rfl
  obtain ⟨ha, hp, hb⟩ := dhalo_facts hf
  obtain ⟨m, new, hrun, hbeats, hnew, hlen, hgs, hrest⟩ := send_runs (rows := (List.range j.haloRows).map fun i =>
      inBeats (ceilDiv (j.d 1) 8) ((view s).haloGranules j i)) h rfl
    (fun m u hu => by
      obtain ⟨i, -, hi⟩ := List.mem_flatMap.mp hu
      split at hi
      · exact beatUses_reads u hi
      · exact absurd hi List.not_mem_nil)
    fun m hm => by
      rw [← List.flatMap_def]
      exact dhaloRun_sent hm hf.ecc ha hp
  refine ⟨m, new, hrun, hbeats, hnew, ?_, ?_, hrest⟩
  · rw [hlen]
    simp [inBeats, List.length_flatten, Function.comp_def]
  · rw [hgs, List.flatMap_map]
    refine List.flatMap_congr fun i _ => flatten_inBeats_all ?_
    simpa [M.haloGranules] using hb

end Sys2Proof.Machine

/-! ## The clauses of the data mover and of its beats -/

namespace Sys2Proof.Machine

theorem staysInW_of_move {i : Instr} {s : State} {j : Job} {n : M → M}
    (h : ∃ m r, M.AtIssue (view s) m j ∧ m.Clean j.c ∧ runs i s r ∧ sameButPorts (view s) r [issueReg j] ∧
      sameBytes (view s) r j.wAddr j.w.bytes ∧ r.mem = (n m).mem ∧ r.die.ecc = []) : staysInW i s j := by
  obtain ⟨-, r, -, -, hrun, hsame, hbytes, -, -⟩ := h
  exact ⟨r, hrun, hsame, hbytes⟩

/-- What a DGATHER brings, by its index. -/
theorem M.gathered_eq (m : M) (j : Job) (i : Nat) : m.gathered j i =
    if 0 ≤ m.indexAt j i ∧ m.indexAt j i < j.bd 2 then bytesIn m j.c j.a.space (j.a.base + j.inner 2 * (m.indexAt j i).toNat) (16 * j.bd 0)
    else (List.replicate (j.bd 0) (m.jobPad j)).flatten :=
  if_congr Job.validIndex_iff rfl rfl

/-- The places a DSCATTER writes, and what it leaves where no index is valid. -/
theorem dscatter_places {s : State} {j : Job} (h : issues (.dscatter j.c) s j) (ho : j.overlapping = false) :
    ∃ m, runs (.dscatter j.c) s m ∧ sameButPorts (view s) m [issueReg j] ∧
      (∀ i, i < j.bd 1 → 0 ≤ (view s).indexAt j i → (view s).indexAt j i < j.bd 2 →
        (∀ k, i < k → k < j.bd 1 → 0 ≤ (view s).indexAt j k → (view s).indexAt j k < j.bd 2 →
          j.inner 4 * ((view s).indexAt j k).toNat + 16 * j.bd 0 ≤ j.inner 4 * ((view s).indexAt j i).toNat ∨
          j.inner 4 * ((view s).indexAt j i).toNat + 16 * j.bd 0 ≤ j.inner 4 * ((view s).indexAt j k).toNat) →
        bytesIn m j.c j.w.space (j.w.base + j.inner 4 * ((view s).indexAt j i).toNat) (16 * j.bd 0) =
          bytesIn (view s) j.c j.a.space (j.a.base + j.inner 2 * i) (16 * j.bd 0)) ∧
      ((∀ i, i < j.bd 1 → (view s).indexAt j i < 0 ∨ j.bd 2 ≤ (view s).indexAt j i) → m.mem = (view s).mem) := by
  obtain ⟨m, hrun, hsame, hrows, hnone⟩ := dscatter_rows h ho
  refine ⟨m, hrun, hsame, fun i hi h0 h2 hlater => ?_, fun hbad => hnone (List.eq_nil_iff_forall_not_mem.mpr fun i hi => ?_)⟩
  · refine hrows i (M.mem_scatterRows.mpr ⟨hi, h0, h2⟩) fun k hk hik => ?_
    obtain ⟨hk1, hk0, hk2⟩ := M.mem_scatterRows.mp hk
    have := hlater k hik hk1 hk0 hk2
    rw [Job.rowAt, Job.rowAt]
    omega
  · obtain ⟨hi1, h0, h2⟩ := M.mem_scatterRows.mp hi
    have := hbad i hi1
    omega

/-! ### Beats by their numbers -/

theorem M.beatLand_landed {m : M} {b : Beat} (hb : m.die.beats.find? (fun x => x.id = b.id) = some b) (he : b.atEject = true) :
    m.beatLand b.id = m.landBeat b := by
  simp only [M.beatLand, hb, he, if_true]

section
variable {s : State} {b : Beat} (hl : s.die.live = true) (hb : (view s).die.beats.find? (fun x => x.id = b.id) = some b)
include hl

theorem runs_beatEjectArrival (id : Nat) : runs (.beatEjectArrival id) s ((view s).beatEject id) := onLive_eq (M.beatEject · id) s hl

theorem runs_beatLanding (id : Nat) : runs (.beatLanding id) s ((view s).beatLand id) := onLive_eq (M.beatLand · id) s hl

include hb

theorem runs_beatLanding_landed (he : b.atEject = true) : runs (.beatLanding b.id) s ((view s).landBeat b) := by
  rw [← M.beatLand_landed hb he]
  exact runs_beatLanding hl _

/-- A beat finds a place in the ejection buffer (R236). -/
theorem beatEject_buffered (he : b.atEject = false) (hr : b.inRouter = false) (hn : (view s).ejectCount (b.dest / 17) < 16) :
    ∃ m, runs (.beatEjectArrival b.id) s m ∧ m.die.regs = (view s).die.regs ∧ m.mem = (view s).mem ∧
      m.die.beats.find? (fun x => x.id = b.id) = some { b with atEject := true } := by
  have hrun := runs_beatEjectArrival hl b.id
  rw [M.beatEject_comes hb he hr, if_neg (Nat.not_le.mpr hn)] at hrun
  exact ⟨_, hrun, rfl, rfl, M.updBeat_find hb fun _ => rfl⟩

/-- A beat waits in the router while the ejection buffer is full (R236). -/
theorem beatEject_full (he : b.atEject = false) (hr : b.inRouter = false) (hn : 16 ≤ (view s).ejectCount (b.dest / 17)) :
    runs (.beatEjectArrival b.id) s (((view s).count (cluReg (b.dest / 17) SHAFT_EJECT_FULL_CNT)).updBeat b.id
      fun x => { x with inRouter := true }) := by
  have hrun := runs_beatEjectArrival hl b.id
  rwa [M.beatEject_comes hb he hr, if_pos hn] at hrun

theorem beatEject_again (h : b.atEject = true ∨ b.inRouter = true) : runs (.beatEjectArrival b.id) s (view s) := by
  have hrun := runs_beatEjectArrival hl b.id
  rwa [M.beatEject_again hb h] at hrun

end

end Sys2Proof.Machine

namespace Sys2Proof
open Machine

/-- Settles O36: a move inside a core stores its rows inside W, each standing where no later one meets it; a send adds its beats and
nothing else; and a beat's arrival and landing follow the place it has. -/
theorem dataMoverMoves : Obligations.DataMoverMoves := by
  unfold Obligations.DataMoverMoves
  refine ⟨?_, ?_⟩
  · intro s j v dst src index
    refine ⟨fun h => staysInW_of_move (dcopy_moves h), fun h => staysInW_of_move (dfill_moves h),
      fun h => staysInW_of_move (dgather_moves h), fun h => staysInW_of_move (dscatter_moves h), dcopy_rows, dfill_rows,
      fun h ho ha => ?_, dscatter_places, dsend_sends, dhalo_sends⟩
    obtain ⟨m, hrun, hsame, hrows⟩ := dgather_rows h ho ha
    exact ⟨m, hrun, hsame, fun i hi => (hrows i hi).trans (M.gathered_eq _ _ _)⟩
  · intro s b hl hecc hb v waiting
    refine ⟨beatEject_buffered hl hb, beatEject_full hl hb, beatEject_again hl hb,
      fun he => ⟨_, runs_beatLanding_landed hl hb he, M.landBeat_beats _ _⟩, fun he hm hw hr hg hd hi => ?_,
      fun he => ⟨_, runs_beatLanding hl b.id, beatLand_late hb he⟩⟩
    have hlands : ∀ g ∈ b.granules, b.Lands g := fun g hgm => ⟨(hg g hgm).1, (hg g hgm).2⟩
    exact ⟨_, runs_beatLanding_landed hl hb he, landBeat_writes hm hecc hw hr hlands hd hi⟩

end Sys2Proof

/-! ## Writes recorded in the order of their cycles, and what an engine's run ends in (R205, R206) -/

namespace Sys2Proof.Machine

/-- Writes of one schedule and one rank have been noted after `n`: memory stands, and the writes recorded are theirs. -/
structure M.NotedInOrder (n r : M) (e t rank : Nat) (us : List RowUse) : Prop where
  mem : r.mem = n.mem
  die : ∃ ws no, r.die = { n.die with writes := ws, writeNo := no }
  theirs : ∀ y ∈ r.die.writes, y.entry = e ∧ y.rank = rank ∧ ∃ u ∈ us, y.cycle = t + u.at_

/-- One more write, in no earlier cycle than those before it, stands. -/
theorem M.NotedInOrder.snoc {n r before : M} {e t rank : Nat} {us : List RowUse} {u : RowUse} (h : M.NotedInOrder n r e t rank us)
    (ho : ∀ x ∈ us, x.at_ ≤ u.at_) (c push a k : Nat) :
    M.NotedInOrder n (r.noteWrite before c push e (t + u.at_) rank a k) e t rank (us ++ [u]) := by
  have hin : ∀ y ∈ r.die.writes, y.entry = e ∧ y.rank = rank ∧ ∃ x ∈ us ++ [u], y.cycle = t + x.at_ := fun y hy => by
    obtain ⟨he, hr, x, hx, hc⟩ := h.theirs y hy
    exact ⟨he, hr, x, List.mem_append_left _ hx, hc⟩
  rw [M.noteWrite, M.record_last before fun y hy _ => by
    obtain ⟨he, hr, x, hx, hc⟩ := h.theirs y hy
    exact r.not_takesAfter he (by rw [hc]; exact Nat.add_le_add_left (ho x hx) t) hr]
  obtain ⟨ws, no, hdie⟩ := h.die
  split
  · exact ⟨h.mem, h.die, hin⟩
  · refine ⟨h.mem, ⟨r.die.writes ++ _, r.die.writeNo + 1, by rw [hdie]⟩, fun y hy => ?_⟩
    rcases List.mem_append.mp hy with hy | hy
    · exact hin y hy
    · rw [List.mem_singleton.mp hy]
      exact ⟨rfl, rfl, u, List.mem_append_right _ (List.mem_singleton_self u), rfl⟩

/-- The writes of one unit to one memory, noted in the order of their cycles, stand as they were made. -/
theorem M.noted_inOrder {n before : M} (hn : n.die.writes = []) (c push e t mem : Nat) (unit : AccessUnit) {us : List RowUse}
    (ho : us.Pairwise fun x y => x.at_ ≤ y.at_) (hu : ∀ u ∈ us, u.mem = mem ∧ u.unit = unit) :
    M.NotedInOrder n (us.foldl (fun r u => r.noteWrite before c push e (t + u.at_) (before.accessRank c u.mem u.unit)
      (memAddr c u.mem u.off) u.len) n) e t (before.accessRank c mem unit) us := by
  induction us using List.reverseRecOn with
  | nil =>
    refine ⟨rfl, ⟨_, _, rfl⟩, fun y hy => ?_⟩
    rw [List.foldl_nil, hn] at hy
    exact absurd hy List.not_mem_nil
  | append_singleton us u ih =>
    obtain ⟨ho, -, hlast⟩ := List.pairwise_append.mp ho
    obtain ⟨hm, hunit⟩ := hu u (List.mem_append_right _ (List.mem_singleton_self u))
    rw [List.foldl_append, List.foldl_cons, List.foldl_nil, hm, hunit]
    exact (ih ho fun x hx => hu x (List.mem_append_left _ hx)).snoc (fun x hx => hlast x hx u (List.mem_singleton_self u)) _ _ _ _

/-- A command's end agrees with its engine's effect in memory, registers, flips and the K counts of tiles. -/
structure M.EndsAs (n r : M) : Prop where
  mem : r.mem = n.mem
  regs : r.die.regs = n.die.regs
  ecc : r.die.ecc = n.die.ecc
  tileK : ∀ c, (r.core c).tileK = (n.core c).tileK

theorem M.tileK_updFlight (m : M) (c push : Nat) (g : Flight → Flight) (d : Nat) :
    ((m.updFlight c push g).core d).tileK = (m.core d).tileK := by
  by_cases hd : d = c
  · rw [hd, M.updFlight, M.core_updCore_same]
  · rw [M.updFlight, M.core_updCore_ne _ _ _ _ hd]

/-- An issue leaves the K counts of the core's tiles. -/
theorem M.tileK_atIssue (m : M) (j : Job) (eng : Engine) : ((m.atIssue j eng).core j.c).tileK = (m.core j.c).tileK := by
  refine (((m.queued j).portsMoved_arbitrate j.c (m.issueUses j eng)).core_eq (fun k => k.tileK) (fun _ => rfl) j.c).trans ?_
  rw [M.core_queued]

/-- An engine whose writes come from one unit, go to one memory and are made in the order of their cycles: the command ends as its
engine leaves the state at issue. -/
theorem engine_runs {i : Instr} {s : State} {j : Job} {e op : Nat} {eng : Engine} (h : issues i s j)
    (hrow : engineRow i = some (j.c, e, op, eng)) {mem : Nat} {unit : AccessUnit}
    (ho : (((view s).issueUses j eng).filter (·.write)).Pairwise fun x y => x.at_ ≤ y.at_)
    (hu : ∀ u ∈ ((view s).issueUses j eng).filter (·.write), u.mem = mem ∧ u.unit = unit)
    (hw : ∀ m, M.AtIssue (view s) m j → m.Clean j.c → (eng.run j m).die.writes = m.die.writes) :
    ∃ m r, M.AtIssue (view s) m j ∧ (m.core j.c).tileK = ((view s).core j.c).tileK ∧ m.Clean j.c ∧ runs i s r ∧
      M.EndsAs (eng.run j m) r := by
  obtain ⟨o, hf⟩ := issues_facts h hrow
  have hrun := issues_runs h hrow
  have hm := (view s).atIssue_atIssue j eng
  have hc := hf.clean hm
  have hk := (view s).tileK_atIssue j eng
  dsimp only at hrun
  generalize (view s).atIssue j eng = m at hrun hm hc hk
  have hnoted := M.noted_inOrder (n := eng.run j m) (before := m) ((hw m hm hc).trans (hf.writes_at hm)) j.c j.push
    ((view s).entryOf j.c) ((view s).schedCycle j.c) mem unit ho hu
  generalize (((view s).issueUses j eng).filter (·.write)).foldl _ (eng.run j m) = r at hrun hnoted
  obtain ⟨hmem, ⟨ws, no, hdie⟩, -⟩ := hnoted
  refine ⟨m, _, hm, hk, hc, hrun, hmem, ?_, ?_, fun c => ?_⟩
  · exact (congrArg Die.regs hdie :)
  · exact (congrArg Die.ecc hdie :)
  · rw [M.tileK_updFlight, M.core, hdie, ← M.core]

end Sys2Proof.Machine

/-! ## The matrix engine's registers and tiles (R109, R114, R119, Table 3.15) -/

namespace Sys2Proof.Machine

/-! ### Registers of the core at issue -/

/-- A register of a core that no issue and no port counts stands at issue as before. -/
theorem M.AtIssue.coreReg_eq {v m : M} {j : Job} (h : M.AtIssue v m j) {off : Nat} (ho : 0x120 ≤ off) (ho' : off < 0x1000000)
    (hp : off ∉ [CORE_BANK_COLLIDE_CNT, CORE_SCRUB_COLLIDE_CNT, CORE_CC_BANK_WAIT_CYCLE_CNT, CORE_ELASTIC_BANK_WAIT_CYCLE_CNT]) :
    m.reg (coreReg j.c off) = v.reg (coreReg j.c off) := by
  have he := cmdEngine_lt j.cmd
  refine h.reg ?_ (not_portCounter_coreReg j.c ho' hp)
  rw [issueReg_eq]
  exact coreReg_ne ho' (by simp only [CORE_ENG_ISSUE_CNT]; omega) (by simp only [CORE_ENG_ISSUE_CNT]; omega)

section
variable {v m : M} {j : Job} (h : M.AtIssue v m j)
include h

theorem M.AtIssue.status : m.reg (coreReg j.c CORE_MXE_STATUS) = v.reg (coreReg j.c CORE_MXE_STATUS) :=
  h.coreReg_eq (by decide) (by decide) (by decide)

theorem M.AtIssue.sterling : m.sterling j.c = v.sterling j.c := by rw [M.sterling, M.flag, h.status, ← M.flag, ← M.sterling]

theorem M.AtIssue.planeFmt (p : Nat) : m.planeFmt j.c p = v.planeFmt j.c p := by
  rw [M.planeFmt, M.fld, h.status, ← M.fld, ← M.planeFmt]

theorem M.AtIssue.tileInt (t : Nat) : m.tileInt j.c t = v.tileInt j.c t := by rw [M.tileInt, M.flag, h.status, ← M.flag, ← M.tileInt]

/-- What a command writes besides registers of a list leaves the rest as the state before its issue had it. -/
theorem M.AtIssue.sameButPorts_of {r : M} {l : List Nat} (hr : ∀ a, a ∉ l → r.reg a = m.reg a) :
    Sys2Proof.sameButPorts v r (issueReg j :: l) := fun a ha hp => by
  obtain ⟨hi, hl⟩ := not_or.mp (mt List.mem_cons.mpr ha)
  rw [hr a hl, h.reg hi hp]

end

/-! ### Tiles -/

/-- The address of a tile. -/
def tileAddr (c : Nat) (sterling : Bool) (t : Nat) : Nat := memAddr c 2 (t * tileSize sterling)

/-- A range that is one whole tile of a command that issues names one of the core's tiles. -/
theorem tile_lt {j : Job} (h : insideExtents j) {i : Nat} (h1 : 1 ≤ i) (h3 : i ≤ 3) (hm : rangeMalformed [ACC] (cmdRange j.cmd i) = false)
    {sterling : Bool} (ht : wholeTile sterling (cmdRange j.cmd i) = true) : (cmdRange j.cmd i).tile < 8 := by
  simp only [wholeTile, Bool.and_eq_true, beq_iff_eq] at ht
  obtain ⟨⟨hp, -⟩, hb⟩ := ht
  obtain ⟨hspace, -, -⟩ := range_of_not_malformed hm hp
  rw [List.mem_singleton] at hspace
  have hext := insideExtents_range h h1 h3 hp (by rw [hspace]; decide)
  have hs : spaceExtent ACC = 0x80000 := rfl
  have hpos : 0 < tileSize sterling := by cases sterling <;> decide
  rw [hspace, hs] at hext
  rw [Range.tile]
  omega

/-- Bytes stored into accumulator memory are written as they stand. -/
theorem M.writeMem_acc {m : M} {c : Nat} (hc : m.Clean c) (off : Nat) {bs : Bytes} (hbs : bs ≠ []) :
    m.writeMem c 2 off bs = m.write (memAddr c 2 off) bs :=
  m.writeMem_clean c 2 off bs hbs hc.ecc (.inl (by decide)) (hc.inject 2)

theorem M.tileInt_setTileInt (m : M) (c : Nat) {t : Nat} (ht : t < 8) (i : Bool) : (m.setTileInt c t i).tileInt c t = i := by
  rw [M.tileInt, M.setTileInt, M.flag_setFld _ _ _ _ _ _ _ (Nat.le_refl _) (by omega), if_pos rfl, if_pos ⟨Nat.le_refl _, Nat.le_refl _⟩]
  cases i <;> simp [bit]

theorem M.setTileInt_reg (m : M) (c t : Nat) (i : Bool) {a : Nat} (ha : a ≠ coreReg c CORE_MXE_STATUS) :
    (m.setTileInt c t i).reg a = m.reg a := (M.reg_setFld _ _ _ _ _ _).trans (if_neg ha)

/-- The K count of a tile set. -/
def M.setTileK (m : M) (c t n : Nat) : M := m.updCore c fun k => { k with tileK := mapSet k.tileK t n }

theorem M.setTileK_mem (m : M) (c t n : Nat) : (m.setTileK c t n).mem = m.mem := rfl

theorem M.setTileK_regs (m : M) (c t n : Nat) : (m.setTileK c t n).die.regs = m.die.regs := rfl

theorem M.setTileK_tileK (m : M) (c t n : Nat) : ((m.setTileK c t n).core c).tileK = mapSet (m.core c).tileK t n := by
  rw [M.setTileK, M.core_updCore_same]

theorem zeros_ne_nil {n : Nat} (h : 0 < n) : zeros n ≠ [] := List.ne_nil_of_length_pos (by rwa [zeros_length])

theorem zeros_getD (n i : Nat) : (zeros n).getD i 0 = 0 := by
  rw [zeros, List.getD_eq_getElem?_getD, List.getElem?_replicate]
  split <;> rfl

theorem tileSize_pos (sterling : Bool) : 0 < tileSize sterling := by cases sterling <;> decide

/-! ### MZERO (R110, R119) -/

/-- A tile zeroed: its bytes, its kind and its K count. -/
theorem mzeroRun_eq {j : Job} {m : M} (hc : m.Clean j.c) :
    mzeroRun j m = ((m.write (tileAddr j.c (m.sterling j.c) j.w.tile) (zeros (tileSize (m.sterling j.c)))).setTileInt
      j.c j.w.tile (j.flags % 2 == 1)).setTileK j.c j.w.tile 0 := by
  rw [mzeroRun, M.writeMem_acc hc _ (zeros_ne_nil (tileSize_pos _))]
  rfl

/-- MZERO zeroes its tile's bytes, sets its kind from its flag and its K count to zero, and leaves the rest. -/
theorem mzero_clears {s : State} {j : Job} (h : issues (.mzero j.c) s j) :
    ∃ m, runs (.mzero j.c) s m ∧
      (∀ off, off < tileSize ((view s).sterling j.c) →
        m.read (memAddr j.c 2 (j.w.tile * tileSize ((view s).sterling j.c) + off)) 1 = [0]) ∧
      m.tileInt j.c j.w.tile = j.flags.testBit 0 ∧ mapGet (m.core j.c).tileK j.w.tile = some 0 ∧
      sameBytes (view s) m (tileAddr j.c ((view s).sterling j.c) j.w.tile) (tileSize ((view s).sterling j.c)) ∧
      sameButPorts (view s) m [issueReg j, coreReg j.c CORE_MXE_STATUS] := by
  obtain ⟨o, hf⟩ := issues_facts h rfl
  have hshape : mzeroShape j (view s) = true := hf.shape
  obtain ⟨htile, -⟩ := Bool.and_eq_true_iff.mp hshape
  obtain rfl : _ = o := Option.some.inj hf.spec
  have ht : j.w.tile < 8 := tile_lt hf.inside (i := 3) (by decide) (by decide) hf.w htile
  obtain ⟨m, r, hm, -, hc, hrun, hend⟩ := engine_runs (mem := 2) (unit := .mxe) h rfl List.Pairwise.nil
    (fun _ hu => absurd hu List.not_mem_nil) fun m _ hc => (congrArg (·.die.writes) (mzeroRun_eq hc) :)
  have heq : mzeroEngine.run j m = _ := mzeroRun_eq hc
  rw [heq, hm.sterling] at hend
  generalize (view s).sterling j.c = st at hend
  obtain ⟨hmem, hregs, -, hk⟩ := hend
  have hbyte : ∀ x, r.mem.byte x =
      if tileAddr j.c st j.w.tile ≤ x ∧ x < tileAddr j.c st j.w.tile + tileSize st then 0 else (view s).mem.byte x := fun x => by
    rw [hmem, M.setTileK_mem, M.setTileInt, M.setFld_mem, M.byte_write, hm.mem, zeros_length, zeros_getD]
  refine ⟨r, hrun, fun off ho => ?_, ?_, ?_, sameBytes_of_byte fun x hx => ?_, hm.sameButPorts_of fun a ha => ?_⟩
  · rw [M.read_one, hbyte, if_pos]
    rw [tileAddr, memAddr_add j.c 2 (_ + off), memAddr_add j.c 2 (j.w.tile * tileSize st)]
    omega
  · rw [M.tileInt, M.flag_congr (hregs.trans (M.setTileK_regs _ _ _ _)), ← M.tileInt, M.tileInt_setTileInt _ _ ht, Nat.testBit_zero]
    exact beq_eq_decide _ _
  · rw [hk, M.setTileK_tileK]
    exact mapGet_mapSet_same _ _ _
  · rw [hbyte, if_neg (by omega)]
  · rw [M.reg_congr (hregs.trans (M.setTileK_regs _ _ _ _)), M.setTileInt_reg _ _ _ _ fun e => ha (List.mem_singleton.mpr e), M.reg_write]

end Sys2Proof.Machine

/-! ## MLOAD (R106, R122, R125) -/

namespace Sys2Proof.Machine

/-! ### Pieces written one behind another -/

/-- Pieces of `n` bytes written one behind another from an address on. -/
def M.writePieces (m : M) (a n : Nat) (f : Nat → Bytes) (k : Nat) : M := (List.range k).foldl (fun m i => m.write (a + n * i) (f i)) m

theorem M.writePieces_succ (m : M) (a n : Nat) (f : Nat → Bytes) (k : Nat) :
    m.writePieces a n f (k + 1) = (m.writePieces a n f k).write (a + n * k) (f k) := by
  rw [M.writePieces, List.range_succ, List.foldl_append]
  rfl

section
variable {m : M} {a n : Nat} {f : Nat → Bytes} (hf : ∀ i, (f i).length = n)
include hf

theorem M.stored_writePieces (k : Nat) : M.Stored m (m.writePieces a n f k) a (n * k) := by
  induction k with
  | zero => exact .refl ..
  | succ k ih =>
    rw [M.writePieces_succ, Nat.mul_succ]
    refine ⟨ih.die, fun x hx => ?_⟩
    rw [M.byte_write, hf, if_neg (by omega), ih.bytes x (by omega)]

/-- A piece stands where it was written. -/
theorem M.byte_writePieces {k i o : Nat} (hi : i < k) (ho : o < n) : (m.writePieces a n f k).mem.byte (a + n * i + o) = (f i).getD o 0 := by
  induction k with
  | zero => exact absurd hi (Nat.not_lt_zero i)
  | succ k ih =>
    rw [M.writePieces_succ, M.byte_write, hf]
    by_cases he : i = k
    · rw [he, if_pos (by omega), Nat.add_sub_cancel_left]
    · have hlt : i < k := by omega
      have hmul : n * i + n ≤ n * k := Nat.mul_succ n i ▸ Nat.mul_le_mul_left n hlt
      rw [if_neg (by omega), ih hlt]

end

/-! ### The columns of a plane (R122) -/

theorem onlyElems_length (f n : Nat) (bs : Bytes) : (onlyElems f n bs).length = bs.length := by
  unfold onlyElems
  split
  · exact List.length_modify _ _ _
  · rfl

/-- The bytes that a fill stores in a column: in-bound elements from Lode, zero beyond. -/
def M.columnBytes (m : M) (j : Job) (f col : Nat) : Bytes :=
  let n := if col < j.bd 1 then elemBytes f (j.bd 0) else 0
  onlyElems f (j.bd 0) (bytesIn m j.c LODE (j.a.base + j.inner 2 * col) n) ++ zeros (512 - n)

theorem elemBytes_le {f n : Nat} (hf : f ≤ 6) (hn : n ≤ 256) : elemBytes f n ≤ 512 := by
  have hbits : elemBits f ≤ 16 := by
    unfold elemBits
    split
    · decide
    · split
      · decide
      · rw [if_neg (by omega)]; decide
  have := Nat.mul_le_mul hn hbits
  rw [elemBytes, ceilDiv]
  omega

theorem M.columnBytes_length {m : M} {j : Job} {f : Nat} (he : m.die.ecc = []) (hf : f ≤ 6) (hn : j.bd 0 ≤ 256) (col : Nat) :
    (m.columnBytes j f col).length = 512 := by
  have := elemBytes_le hf hn
  rw [M.columnBytes, List.length_append, onlyElems_length, bytesIn_length _ _ _ _ _ he, zeros_length]
  split <;> omega

/-- A column's bytes at their places: the elements within the bounds, zero behind them. -/
theorem M.columnBytes_at {m : M} {j : Job} {f col : Nat} (he : m.die.ecc = []) (o : Nat) : (m.columnBytes j f col).getD o 0 =
    if col < j.bd 1 ∧ o < elemBytes f (j.bd 0) then
      (onlyElems f (j.bd 0) (bytesIn m j.c LODE (j.a.base + j.inner 2 * col) (elemBytes f (j.bd 0)))).getD o 0
    else 0 := by
  have hlen : ∀ n, (onlyElems f (j.bd 0) (bytesIn m j.c LODE (j.a.base + j.inner 2 * col) n)).length = n := fun n => by
    rw [onlyElems_length, bytesIn_length _ _ _ _ _ he]
  rw [M.columnBytes]
  by_cases hc : col < j.bd 1
  · rw [if_pos hc]
    by_cases ho : o < elemBytes f (j.bd 0)
    · rw [if_pos ⟨hc, ho⟩, List.getD_append _ _ _ _ (by rwa [hlen])]
    · rw [if_neg fun h => ho h.2, List.getD_append_right _ _ _ _ (by rw [hlen]; omega), zeros_getD]
  · rw [if_neg hc, if_neg fun h => hc h.1, List.getD_append_right _ _ _ _ (by rw [hlen]; omega), zeros_getD]

/-- A read of no bytes is not made; it would leave the same. -/
theorem M.Clean.readSome {m : M} {c : Nat} (hc : m.Clean c) (space off n : Nat) :
    (if n = 0 then (([] : Bytes), m) else m.spaceRead c space off n) = (bytesIn m c space off n, m) := by
  by_cases h0 : n = 0
  · rw [if_pos h0, h0, bytesIn_zero _ _ _ _ hc.ecc]
  · rw [if_neg h0, hc.read]

theorem M.fillColumn_eq {m : M} {j : Job} (hc : m.Clean j.c) (f col : Nat) :
    m.fillColumn j f col = m.write (planeAddr j.c (j.flags % 2) + 512 * col) (m.columnBytes j f col) := by
  rw [M.fillColumn]
  dsimp only
  rw [hc.readSome]
  rfl

/-- Lode stands apart from the planes. -/
theorem bytesIn_lode_stored {v m : M} {c p : Nat} {k : Nat} (hc : v.Clean c) (h : M.Stored v m (planeAddr c p) k) (off n : Nat) :
    bytesIn m c LODE off n = bytesIn v c LODE off n := by
  rw [bytesIn_eq _ _ _ _ _ (hc.stored h).ecc (by decide), bytesIn_eq _ _ _ _ _ hc.ecc (by decide)]
  refine List.map_congr_left fun i _ => ?_
  unfold M.spaceByte
  split
  · rename_i hin
    refine h.bytes _ (.inl ?_)
    have hext : off + i < 0x200000 := hin
    simp only [memAddr, spaceMem, memLocal, planeAddr]
    rw [if_neg (by decide)]
    omega
  · rfl

theorem M.columnBytes_stored {v m : M} {j : Job} {p k : Nat} (hc : v.Clean j.c) (h : M.Stored v m (planeAddr j.c p) k) (f col : Nat) :
    m.columnBytes j f col = v.columnBytes j f col := by
  simp only [M.columnBytes, bytesIn_lode_stored hc h]

theorem M.fillColumns_eq {m : M} {j : Job} {f : Nat} (hc : m.Clean j.c) (hf : f ≤ 6) (hn : j.bd 0 ≤ 256) (k : Nat) :
    (List.range k).foldl (fun m col => m.fillColumn j f col) m =
      m.writePieces (planeAddr j.c (j.flags % 2)) 512 (m.columnBytes j f) k := by
  induction k with
  | zero => rfl
  | succ k ih =>
    have hst := M.stored_writePieces (m := m) (a := planeAddr j.c (j.flags % 2)) (M.columnBytes_length (j := j) hc.ecc hf hn) k
    rw [List.range_succ, List.foldl_append, ih, List.foldl_cons, List.foldl_nil, M.fillColumn_eq (hc.stored hst),
      M.columnBytes_stored hc hst, M.writePieces_succ]

/-! ### The scales of a plane (R106) -/

theorem M.stored_fillScales {m : M} {j : Job} (hc : m.Clean j.c) (hn : j.bd 1 ≤ 64) {b : Nat} (hb : b < 8) :
    M.Stored m (m.fillScales j b) (planeAddr j.c (j.flags % 2) + 0x8000) 0x200 := by
  have hn' : (if 32 * b < j.bd 0 then j.bd 1 else 0) ≤ 64 := by split <;> omega
  rw [M.fillScales]
  dsimp only
  rw [hc.readSome]
  refine ⟨rfl, fun x hx => ?_⟩
  rw [M.byte_write, if_neg]
  rw [List.length_append, bytesIn_length _ _ _ _ _ hc.ecc, List.length_replicate]
  omega

theorem M.stored_allScales {m : M} {j : Job} (hc : m.Clean j.c) (hn : j.bd 1 ≤ 64) :
    M.Stored m ((List.range 8).foldl (fun m b => m.fillScales j b) m) (planeAddr j.c (j.flags % 2) + 0x8000) 0x200 :=
  List.foldlRecOn (motive := fun n => M.Stored m n (planeAddr j.c (j.flags % 2) + 0x8000) 0x200) _ _ (.refl ..) fun _ hn' _ hb =>
    hn'.trans (M.stored_fillScales (hc.stored hn') hn (List.mem_range.mp hb))

/-! ### A plane filled -/

/-- The bytes of a filled plane: its columns, and behind them its scales. -/
def M.planeFilled (m : M) (j : Job) (f : Nat) : M :=
  let m := (List.range 64).foldl (fun m col => m.fillColumn j f col) m
  if isMx f then (List.range 8).foldl (fun m b => m.fillScales j b) m else m

section
variable {m : M} {j : Job} {f : Nat} (hc : m.Clean j.c) (hf : f ≤ 6) (hn : j.bd 0 ≤ 256) (hn1 : j.bd 1 ≤ 64)
include hc hf hn hn1

/-- Behind its columns a fill stores its scales alone. -/
theorem M.planeFilled_scales : M.Stored (m.writePieces (planeAddr j.c (j.flags % 2)) 512 (m.columnBytes j f) 64) (m.planeFilled j f)
    (planeAddr j.c (j.flags % 2) + 0x8000) 0x200 := by
  have hst := M.stored_writePieces (m := m) (a := planeAddr j.c (j.flags % 2)) (M.columnBytes_length (j := j) hc.ecc hf hn) 64
  rw [M.planeFilled, M.fillColumns_eq hc hf hn]
  split
  · exact M.stored_allScales (hc.stored hst) hn1
  · exact .refl ..

theorem M.stored_planeFilled : M.Stored m (m.planeFilled j f) (planeAddr j.c (j.flags % 2)) 0x10000 := by
  have hst := M.stored_writePieces (m := m) (a := planeAddr j.c (j.flags % 2)) (M.columnBytes_length (j := j) hc.ecc hf hn) 64
  have hsc := M.planeFilled_scales hc hf hn hn1
  exact ⟨hsc.die.trans hst.die, fun x hx => (hsc.bytes x (by omega)).trans (hst.bytes x (by omega))⟩

/-- A byte of a filled plane's column. -/
theorem M.byte_planeFilled {col o : Nat} (hcol : col < 64) (ho : o < 512) :
    (m.planeFilled j f).mem.byte (planeAddr j.c (j.flags % 2) + 512 * col + o) = (m.columnBytes j f col).getD o 0 := by
  rw [(M.planeFilled_scales hc hf hn hn1).bytes _ (by omega), M.byte_writePieces (M.columnBytes_length hc.ecc hf hn) hcol ho]

end

end Sys2Proof.Machine

namespace Sys2Proof.Machine

/-! ### MLOAD into a plane -/

theorem mloadRun_plane {j : Job} (hd : isDscale j.cmd = false) (m : M) :
    mloadRun j m = ((m.planeFilled j (j.ctl 3 0)).setFld (coreReg j.c CORE_MXE_STATUS) (4 * (j.flags % 2) + 7) (4 * (j.flags % 2) + 4)
      (j.ctl 3 0)).setFld (coreReg j.c CORE_MXE_STATUS) (j.flags % 2) (j.flags % 2) 1 := by
  rw [mloadRun, hd]
  rfl

/-- The shape of a fill: a format of elements, and extents that fit a plane. -/
theorem mload_shape {j : Job} {m : M} (hd : isDscale j.cmd = false) (h : mloadShape j m = true) :
    j.ctl 3 0 ≤ 6 ∧ j.bd 0 ≤ 256 ∧ j.bd 1 ≤ 64 := by
  simp only [mloadShape, hd, Bool.false_eq_true, if_false, kExtent, upTo, Job.bounded, List.all_cons, List.all_nil, Bool.and_true,
    Bool.and_eq_true, decide_eq_true_eq] at h
  omega

/-- MLOAD fills a plane's columns, zero in every element beyond the bounds, and marks it valid with its format. -/
theorem mload_fills {s : State} {j : Job} (h : issues (.mload j.c) s j) (hd : isDscale j.cmd = false) :
    ∃ m, runs (.mload j.c) s m ∧ m.planeValid j.c (j.flags % 2) = true ∧ m.planeFmt j.c (j.flags % 2) = j.ctl 3 0 ∧
      (∀ col, col < j.bd 1 → m.read (planeAddr j.c (j.flags % 2) + 512 * col) (elemBytes (j.ctl 3 0) (j.bd 0)) =
        onlyElems (j.ctl 3 0) (j.bd 0) (bytesIn (view s) j.c LODE (j.a.base + j.inner 2 * col) (elemBytes (j.ctl 3 0) (j.bd 0)))) ∧
      (∀ col off, col < 64 → off < 512 → (j.bd 1 ≤ col ∨ elemBytes (j.ctl 3 0) (j.bd 0) ≤ off) →
        m.read (planeAddr j.c (j.flags % 2) + 512 * col + off) 1 = [0]) ∧
      sameButPorts (view s) m [issueReg j, coreReg j.c CORE_MXE_STATUS] ∧
      sameBytes (view s) m (planeAddr j.c (j.flags % 2)) 0x10000 := by
  obtain ⟨o, hf⟩ := issues_facts h rfl
  obtain ⟨hfmt, hn, hn1⟩ := mload_shape (m := view s) hd hf.shape
  have hp : j.flags % 2 < 2 := Nat.mod_lt _ (by decide)
  have hle := elemBytes_le hfmt hn
  obtain ⟨m, r, hm, -, hc, hrun, hend⟩ := engine_runs (mem := 0) (unit := .mxe) h rfl List.Pairwise.nil
    (fun _ hu => absurd hu List.not_mem_nil) fun m _ hc => by
      show (mloadRun j m).die.writes = m.die.writes
      rw [mloadRun_plane hd]
      exact (congrArg Die.writes (M.stored_planeFilled hc hfmt hn hn1).die :)
  have heq : mloadEngine.run j m = _ := mloadRun_plane hd m
  rw [heq] at hend
  obtain ⟨hmem, hregs, -, -⟩ := hend
  have hst := M.stored_planeFilled hc hfmt hn hn1
  have hbyte : ∀ col o, col < 64 → o < 512 → r.mem.byte (planeAddr j.c (j.flags % 2) + 512 * col + o) =
      if col < j.bd 1 ∧ o < elemBytes (j.ctl 3 0) (j.bd 0) then (onlyElems (j.ctl 3 0) (j.bd 0)
        (bytesIn (view s) j.c LODE (j.a.base + j.inner 2 * col) (elemBytes (j.ctl 3 0) (j.bd 0)))).getD o 0
      else 0 := fun col o hcol ho => by
    rw [hmem, M.setFld_mem, M.setFld_mem, M.byte_planeFilled hc hfmt hn hn1 hcol ho, M.columnBytes_at hc.ecc,
      bytesIn_congr hm.mem hc.ecc hf.ecc (by decide)]
  refine ⟨r, hrun, ?_, ?_, fun col hcol => ?_, fun col off hcol hoff hout => ?_, hm.sameButPorts_of fun a ha => ?_,
    sameBytes_of_byte fun x hx => ?_⟩
  · rw [M.planeValid, M.flag_congr hregs, M.flag_setFld _ _ _ _ _ _ _ (Nat.le_refl _) (by omega), if_pos rfl,
      if_pos ⟨Nat.le_refl _, Nat.le_refl _⟩, Nat.sub_self]
    decide
  · have hlt : j.ctl 3 0 < 2 ^ (4 * (j.flags % 2) + 7 + 1 - (4 * (j.flags % 2) + 4)) := by
      rw [show 4 * (j.flags % 2) + 7 + 1 - (4 * (j.flags % 2) + 4) = 4 by omega]
      omega
    rw [M.planeFmt, M.fld_congr hregs, M.fld_setFld _ _ _ _ _ _ _ _ (by omega) (Nat.le_refl _) (by omega) (.inr (.inr (by omega))),
      if_pos rfl, if_neg (by omega), M.fld_setFld_same _ _ _ _ _ (by omega) (by omega), Nat.mod_eq_of_lt hlt]
  · refine List.ext_getElem ?_ fun o h1 h2 => ?_
    · rw [M.read, CMem.read_length, onlyElems_length, bytesIn_length _ _ _ _ _ hf.ecc]
    · have ho : o < elemBytes (j.ctl 3 0) (j.bd 0) := by rwa [M.read, CMem.read_length] at h1
      have hat := hbyte col o (by omega) (by omega)
      rw [if_pos ⟨hcol, ho⟩, List.getD_eq_getElem _ _ h2] at hat
      simp only [M.read, CMem.read_eq, List.getElem_map, List.getElem_range, hat]
  · rw [M.read_one, hbyte col off hcol hoff, if_neg (by omega)]
  · have hne : a ≠ coreReg j.c CORE_MXE_STATUS := fun e => ha (List.mem_singleton.mpr e)
    rw [M.reg_congr hregs, M.reg_setFld, if_neg hne, M.reg_setFld, if_neg hne, M.reg_congr (congrArg Die.regs hst.die)]
  · rw [hmem, M.setFld_mem, M.setFld_mem, hst.bytes x hx, hm.mem]

/-! ### MLOAD into the drain scales (R125, Table 3.16) -/

theorem ofBytes_append (a b : Bytes) : ofBytes (a ++ b) = ofBytes a + 256 ^ a.length * ofBytes b := by
  induction a with
  | nil => simp [ofBytes]
  | cons x a ih =>
    rw [List.cons_append, ofBytes, ofBytes, ih, List.length_cons, pow_succ]
    ring

/-- The scales two by two, as the registers hold them. -/
def M.scalesLoaded (m : M) (c : Nat) (bs : Bytes) (k : Nat) : M :=
  (List.range k).foldl (fun m i => m.setReg (coreReg c CORE_DSCALE + 8 * i) (BitVec.ofNat 64 (numAt bs (8 * i) 8))) m

theorem mloadRun_scales {j : Job} (hd : isDscale j.cmd = true) {m : M} (hc : m.Clean j.c) :
    mloadRun j m = m.scalesLoaded j.c (bytesIn m j.c LODE j.a.base 256) 32 := by
  rw [mloadRun, hd, hc.read]
  rfl

theorem M.scalesLoaded_succ (m : M) (c : Nat) (bs : Bytes) (k : Nat) : m.scalesLoaded c bs (k + 1) =
    (m.scalesLoaded c bs k).setReg (coreReg c CORE_DSCALE + 8 * k) (BitVec.ofNat 64 (numAt bs (8 * k) 8)) := by
  rw [M.scalesLoaded, List.range_succ, List.foldl_append]
  rfl

theorem M.scalesLoaded_rest (m : M) (c : Nat) (bs : Bytes) (k : Nat) : (m.scalesLoaded c bs k).mem = m.mem ∧
    (m.scalesLoaded c bs k).die.writes = m.die.writes ∧
    ∀ a, (∀ i < k, a ≠ coreReg c CORE_DSCALE + 8 * i) → (m.scalesLoaded c bs k).reg a = m.reg a := by
  induction k with
  | zero => exact ⟨rfl, rfl, fun _ _ => rfl⟩
  | succ k ih =>
    rw [M.scalesLoaded_succ]
    exact ⟨ih.1, ih.2.1, fun a ha => (M.reg_setReg_ne _ _ _ _ (ha k (Nat.lt_succ_self k))).trans (ih.2.2 a fun i hi => ha i (by omega))⟩

theorem M.scalesLoaded_reg (m : M) (c : Nat) (bs : Bytes) {k i : Nat} (hi : i < k) :
    (m.scalesLoaded c bs k).reg (coreReg c CORE_DSCALE + 8 * i) = BitVec.ofNat 64 (numAt bs (8 * i) 8) := by
  induction k with
  | zero => exact absurd hi (Nat.not_lt_zero i)
  | succ k ih =>
    rw [M.scalesLoaded_succ, M.reg_setReg]
    by_cases he : i = k
    · rw [if_pos (by rw [he]), he]
    · rw [if_neg (by omega), ih (by omega)]

/-- A half of a register that holds two words is one of them. -/
theorem bits_two_words (a b : Bytes) (ha : a.length = 4) (hb : b.length = 4) :
    bits (BitVec.ofNat 64 (ofBytes (a ++ b))).toNat 31 0 = ofBytes a ∧ bits (BitVec.ofNat 64 (ofBytes (a ++ b))).toNat 63 32 = ofBytes b := by
  have hal := ofBytes_lt a
  have hbl := ofBytes_lt b
  rw [ha] at hal
  rw [hb] at hbl
  rw [ofBytes_append, ha, BitVec.toNat_ofNat, bits, bits, Nat.shiftRight_eq_div_pow, Nat.shiftRight_eq_div_pow]
  omega

/-- MLOAD with the drain-scale flag loads the 64 scales, and nothing else. -/
theorem mload_scales {s : State} {j : Job} (h : issues (.mload j.c) s j) (hd : isDscale j.cmd = true) :
    ∃ m, runs (.mload j.c) s m ∧ m.mem = (view s).mem ∧
      (∀ col, col < 64 → m.dscale j.c col = BitVec.ofNat 32 (ofBytes (bytesIn (view s) j.c LODE (j.a.base + 4 * col) 4))) ∧
      sameButPorts (view s) m (issueReg j :: (List.range 32).map fun i => coreReg j.c CORE_DSCALE + 8 * i) := by
  obtain ⟨o, hf⟩ := issues_facts h rfl
  obtain ⟨m, r, hm, -, hc, hrun, hend⟩ := engine_runs (mem := 0) (unit := .mxe) h rfl List.Pairwise.nil
    (fun _ hu => absurd hu List.not_mem_nil) fun m _ hc => by
      show (mloadRun j m).die.writes = m.die.writes
      rw [mloadRun_scales hd hc]
      obtain ⟨-, hwrites, -⟩ := m.scalesLoaded_rest j.c (bytesIn m j.c LODE j.a.base 256) 32
      exact hwrites
  have heq : mloadEngine.run j m = _ := mloadRun_scales hd hc
  rw [heq] at hend
  obtain ⟨hmem, hregs, -, -⟩ := hend
  obtain ⟨hmem', -, hrest⟩ := m.scalesLoaded_rest j.c (bytesIn m j.c LODE j.a.base 256) 32
  refine ⟨r, hrun, (hmem.trans hmem').trans hm.mem, fun col hcol => ?_, hm.sameButPorts_of fun a ha => ?_⟩
  · have hword : numAt (bytesIn m j.c LODE j.a.base 256) (8 * (col / 2)) 8 =
        ofBytes (bytesIn (view s) j.c LODE (j.a.base + 8 * (col / 2)) 4 ++ bytesIn (view s) j.c LODE (j.a.base + 8 * (col / 2) + 4) 4) := by
      rw [numAt, slice_bytesIn _ _ _ _ _ _ _ hc.ecc (by decide) (by omega), bytesIn_congr hm.mem hc.ecc hf.ecc (by decide),
        ← bytesIn_append _ _ _ _ _ _ hf.ecc (by decide)]
    obtain ⟨hlo, hhi⟩ := bits_two_words (bytesIn (view s) j.c LODE (j.a.base + 8 * (col / 2)) 4)
      (bytesIn (view s) j.c LODE (j.a.base + 8 * (col / 2) + 4) 4) (bytesIn_length _ _ _ _ _ hf.ecc) (bytesIn_length _ _ _ _ _ hf.ecc)
    rw [M.dscale, M.fld_congr hregs, M.fld, M.scalesLoaded_reg _ _ _ (by omega), hword, Machine.fld]
    rcases Nat.mod_two_eq_zero_or_one col with h2 | h2
    · rw [h2, hlo, show 8 * (col / 2) = 4 * col by omega]
    · rw [h2, hhi, show j.a.base + 8 * (col / 2) + 4 = j.a.base + 4 * col by omega]
  · rw [M.reg_congr hregs, hrest a fun i hi e => ha (List.mem_map.mpr ⟨i, List.mem_range.mpr hi, e.symm⟩)]

end Sys2Proof.Machine

/-! ## MMUL and MMULZ of INT8 (R100, R107, R112, R128 to R132) -/

namespace Sys2Proof.Machine

/-! ### Integers as elements (R105, R112) -/

/-- The element of an integer's value. -/
def Flt.ofInt (v : Int) : Flt := .fin (decide (v < 0)) v.natAbs 0

theorem fltMul_ofInt (a b : Int) : (fltMul (.ofInt a) (.ofInt b)).dyadic.n = a * b := by
  simp only [Flt.ofInt, fltMul, Flt.dyadic]
  by_cases ha : a < 0 <;> by_cases hb : b < 0 <;> simp [ha, hb, abs_of_neg, abs_of_nonneg, not_lt.mp]

theorem foldl_add_dyadic (l : List Flt) (x : Int) : l.foldl (fun s p => s + p.dyadic.n) x = x + (l.map fun p => p.dyadic.n).sum := by
  induction l generalizing x with
  | nil => simp
  | cons p l ih => rw [List.foldl_cons, ih, List.map_cons, List.sum_cons, Int.add_assoc]

/-- The products of a cell of integers, summed. -/
theorem cellProducts_sum (n : Nat) (a w : Nat → Int) :
    (cellProducts ((List.range n).map fun k => .ofInt (a k)) ((List.range n).map fun k => .ofInt (w k))).foldl (fun s p => s + p.dyadic.n) 0 =
      ((List.range n).map fun k => a k * w k).sum := by
  rw [foldl_add_dyadic, Int.zero_add, cellProducts]
  refine congrArg List.sum (List.ext_getElem (by simp) fun i h1 h2 => ?_)
  simp only [List.getElem_map, List.getElem_zipWith, List.getElem_range, fltMul_ofInt]

/-! ### Activations and weights (R106, R107, R128) -/

/-- An activation's value, zero out of its bounds. -/
def M.actValue (m : M) (j : Job) (r k : Nat) : Int :=
  if r < j.bd 0 ∧ k < j.bd 2 then signed (ofBytes (bytesIn m j.c SCRATCH (j.a.base + j.inner 2 * r + k) 1)) 8 else 0

/-- A weight's value. -/
def M.weightValue (m : M) (c p col k : Nat) : Int := signed (m.readN (planeAddr c p + 512 * col + k) 1) 8

theorem elemBytes_int8 (n : Nat) : elemBytes 6 n = n := by
  show (n * 8 + 8 - 1) / 8 = n
  omega

theorem M.actRow_int8 {m : M} {j : Job} (hc : m.Clean j.c) (scales : List Bytes) (r : Nat) :
    m.actRow j 6 scales .zero r = ((List.range (j.d 2)).map fun k => .ofInt (m.actValue j r k), m) := by
  have hmx : isMx 6 = false := rfl
  rw [M.actRow]
  simp only [elemBytes_int8, hc.readSome, hmx, Bool.false_eq_true, if_false]
  refine Prod.ext (List.map_congr_left fun k _ => ?_) rfl
  by_cases hr : r < j.bd 0
  · rw [if_pos hr]
    by_cases hk : k < j.bd 2
    · rw [if_pos hk, M.actValue, if_pos ⟨hr, hk⟩, ← slice_bytesIn m j.c SCRATCH _ (j.bd 2) k 1 hc.ecc (by decide) (by omega)]
      show Flt.ofInt (signed (numAt _ (k * 1) 1) 8) = _
      rw [Nat.mul_one, numAt]
    · rw [if_neg hk, M.actValue, if_neg fun h => hk h.2]
      rfl
  · rw [if_neg hr, if_neg (Nat.not_lt_zero k), M.actValue, if_neg fun h => hr h.1]
    rfl

theorem M.acts_int8 {m : M} {j : Job} (hc : m.Clean j.c) (scales : List Bytes) (n : Nat) :
    (List.range n).foldl (fun (x : List (List Flt) × M) r => (x.1 ++ [(x.2.actRow j 6 scales .zero r).1], (x.2.actRow j 6 scales .zero r).2)) ([], m) =
      ((List.range n).map fun r => (List.range (j.d 2)).map fun k => .ofInt (m.actValue j r k), m) := by
  have hfold := foldl_collect (fun (x : List (List Flt) × M) r =>
      (x.1 ++ [(x.2.actRow j 6 scales .zero r).1], (x.2.actRow j 6 scales .zero r).2))
    (fun r => [(List.range (j.d 2)).map fun k => .ofInt (m.actValue j r k)]) m (fun l r => by simp only [M.actRow_int8 hc]) (List.range n) []
  rw [hfold, List.nil_append, ← List.map_eq_flatMap]

/-- A number within bytes read is the number read there. -/
theorem M.numAt_read (m : M) (a n o k : Nat) (h : o + k ≤ n) : numAt (m.read a n) o k = m.readN (a + o) k := by
  rw [numAt, M.read, CMem.read_eq, slice_map_range _ h, M.readN, CMem.read_eq]
  simp only [Nat.add_assoc]

theorem M.planeColumn_int8 {m : M} {c p : Nat} (hp : m.planeFmt c p = 6) (col n : Nat) :
    m.planeColumn c p col n = (List.range n).map fun k => .ofInt (m.weightValue c p col k) := by
  rw [M.planeColumn]
  dsimp only
  rw [hp, elemBytes_int8]
  refine List.map_congr_left fun k hk => ?_
  have hk := List.mem_range.mp hk
  show Flt.ofInt (signed (numAt _ (k * 1) 1) 8) = _
  rw [Nat.mul_one, M.numAt_read _ _ _ _ _ (by omega), M.weightValue]

/-! ### The tile's new bytes (R112) -/

/-- Rows and columns in order. -/
theorem grid_eq (n k : Nat) : ((List.range n).flatMap fun r => (List.range k).map fun c => (r, c)) =
    (List.range (n * k)).map fun i => (i / k, i % k) := by
  induction n with
  | zero => simp
  | succ n ih =>
    rw [List.range_succ, List.flatMap_append, ih, Nat.succ_mul, List.range_add, List.map_append, List.map_map]
    congr 1
    rw [List.flatMap_singleton]
    refine List.map_congr_left fun c hc => ?_
    have hc := List.mem_range.mp hc
    show (n, c) = ((n * k + c) / k, (n * k + c) % k)
    rw [Nat.mul_comm n k, Nat.mul_add_div (by omega), Nat.mul_add_mod, Nat.div_eq_of_lt hc, Nat.mod_eq_of_lt hc, Nat.add_zero]

/-- A piece of a string cut into pieces. -/
theorem chunks_getD {n k : Nat} {bs : Bytes} (h : bs.length = n * k) {i : Nat} (hi : i < k) :
    (chunks n k bs).getD i [] = slice bs (n * i) n := by
  induction k generalizing bs i with
  | zero => exact absurd hi (Nat.not_lt_zero i)
  | succ k ih =>
    rw [Nat.mul_succ] at h
    cases i with
    | zero =>
      rw [chunks, List.getD_cons_zero, slice, Nat.mul_zero, List.drop_zero, List.length_take, Nat.min_eq_left (by omega), Nat.sub_self]
      simp
    | succ i =>
      rw [chunks, List.getD_cons_succ, ih (by rw [List.length_drop]; omega) (by omega), slice, slice, List.drop_drop, Nat.mul_succ,
        Nat.add_comm n]

theorem numAt_zeros (n o k : Nat) : numAt (zeros n) o k = 0 := ofBytes_zeros fun b hb => by
  simp only [slice, zeros, List.drop_replicate, List.take_replicate, List.mem_append, List.mem_replicate] at hb
  rcases hb with hb | hb <;> exact hb.2

/-- The sum of a cell: its old value, or zero for MMULZ, and the products along K. -/
def M.productCell (m : M) (zero : Bool) (j : Job) (r col : Nat) : Int :=
  (if zero then 0 else signed (m.readN (tileAddr j.c false j.w.tile + 4 * (64 * r + col)) 4) 32) +
    ((List.range (j.d 2)).map fun k => m.actValue j r k * m.weightValue j.c (j.flags % 2) col k).sum

/-- The bytes that a product leaves in its tile. -/
def M.productTile (m : M) (zero : Bool) (j : Job) : Bytes :=
  (List.range 2048).flatMap fun i => toBytes 4 (unsigned (m.productCell zero j (i / 64) (i % 64)) 32)

theorem M.productTile_length (m : M) (zero : Bool) (j : Job) : (m.productTile zero j).length = 0x2000 := by
  rw [M.productTile, List.length_flatMap]
  simp only [toBytes_length, List.map_const', List.length_range, List.sum_replicate, smul_eq_mul]

theorem M.productTile_at (m : M) (zero : Bool) (j : Job) {r col : Nat} (hr : r < 32) (hcol : col < 64) :
    numAt (m.productTile zero j) (4 * (64 * r + col)) 4 = unsigned (m.productCell zero j r col) 32 := by
  have hlt : ∀ x : Int, unsigned x 32 < 256 ^ 4 := fun x => by rw [unsigned]; omega
  rw [numAt, M.productTile, slice_flatMap _ 4 (fun _ => toBytes_length _ _) _ _ (by rw [List.length_range]; omega), List.getElem_range,
    ofBytes_toBytes, Nat.mod_eq_of_lt (hlt _), Nat.mul_add_div (by decide), Nat.mul_add_mod, Nat.div_eq_of_lt hcol, Nat.mod_eq_of_lt hcol,
    Nat.add_zero]

/-- The old bytes of a product's tile. -/
def M.oldTile (m : M) (zero : Bool) (j : Job) : Bytes := if zero then zeros 0x2000 else m.read (tileAddr j.c false j.w.tile) 0x2000

theorem M.oldTile_at (m : M) (zero : Bool) (j : Job) {i : Nat} (hi : i < 2048) :
    signed (ofBytes ((chunks 4 2048 (m.oldTile zero j)).getD i [])) 32 =
      if zero then 0 else signed (m.readN (tileAddr j.c false j.w.tile + 4 * i) 4) 32 := by
  have hlen : (m.oldTile zero j).length = 4 * 2048 := by
    unfold M.oldTile
    split
    · exact zeros_length _
    · exact CMem.read_length _ _ _
  rw [chunks_getD hlen hi, ← numAt, M.oldTile]
  cases zero with
  | true => exact congrArg (signed · 32) (numAt_zeros 0x2000 (4 * i) 4)
  | false => exact congrArg (signed · 32) (m.numAt_read _ _ _ _ (by omega))

theorem M.tileUpdate_int8 (m : M) (zero : Bool) (j : Job) :
    tileUpdate false true (j.d 2) ((List.range 32).map fun r => (List.range (j.d 2)).map fun k => .ofInt (m.actValue j r k))
      ((List.range 64).map fun col => (List.range (j.d 2)).map fun k => .ofInt (m.weightValue j.c (j.flags % 2) col k))
      (chunks 4 2048 (m.oldTile zero j)) = (m.productTile zero j, 0, 0) := by
  have hcell : ∀ i ∈ List.range 2048, toBytes 4 (int32Cell (ofBytes ((chunks 4 2048 (m.oldTile zero j)).getD (64 * (i / 64) + i % 64) []))
      (cellProducts (((List.range 32).map fun r => (List.range (j.d 2)).map fun k => .ofInt (m.actValue j r k)).getD (i / 64) [])
        (((List.range 64).map fun col => (List.range (j.d 2)).map fun k => .ofInt (m.weightValue j.c (j.flags % 2) col k)).getD (i % 64) []))) =
      toBytes 4 (unsigned (m.productCell zero j (i / 64) (i % 64)) 32) := fun i hi => by
    have hi := List.mem_range.mp hi
    have hr : i / 64 < 32 := by omega
    have hc : i % 64 < 64 := Nat.mod_lt _ (by decide)
    rw [int32Cell, M.oldTile_at _ _ _ (by omega), List.getD_eq_getElem _ _ (by simpa using hr), List.getD_eq_getElem _ _ (by simpa using hc)]
    simp only [List.getElem_map, List.getElem_range, cellProducts_sum]
    rfl
  rw [tileUpdate, grid_eq, List.foldl_map]
  have hfold := foldl_collect (fun (x : Bytes × Nat × Nat) i => (x.1 ++ toBytes 4 (int32Cell
      (ofBytes ((chunks 4 2048 (m.oldTile zero j)).getD (64 * (i / 64) + i % 64) []))
      (cellProducts (((List.range 32).map fun r => (List.range (j.d 2)).map fun k => .ofInt (m.actValue j r k)).getD (i / 64) [])
        (((List.range 64).map fun col => (List.range (j.d 2)).map fun k => .ofInt (m.weightValue j.c (j.flags % 2) col k)).getD (i % 64) []))),
      x.2.1, x.2.2)) _ (0, 0) (fun l i => rfl) (List.range 2048) []
  refine hfold.trans ?_
  rw [List.nil_append, M.productTile, List.flatMap_congr hcell]

end Sys2Proof.Machine

namespace Sys2Proof.Machine

/-! ### MMUL and MMULZ at their issue -/

/-- The state that a product of INT8 leaves. -/
def M.producted (m : M) (zero : Bool) (j : Job) : M :=
  (if zero then (m.write (tileAddr j.c false j.w.tile) (m.productTile zero j)).setTileInt j.c j.w.tile true
    else m.write (tileAddr j.c false j.w.tile) (m.productTile zero j)).setTileK j.c j.w.tile
      ((if zero then 0 else mapGetD (m.core j.c).tileK j.w.tile 0) + j.d 2)

theorem M.producted_stored (m : M) (zero : Bool) (j : Job) :
    (m.producted zero j).mem = (m.write (tileAddr j.c false j.w.tile) (m.productTile zero j)).mem ∧
      (m.producted zero j).die.writes = m.die.writes := by
  unfold M.producted M.setTileK M.setTileInt
  split
  · exact ⟨by rw [M.updCore_mem, M.setFld_mem], by rw [M.updCore_writes, M.setFld_writes, M.write_die]⟩
  · exact ⟨M.updCore_mem _ _ _, by rw [M.updCore_writes, M.write_die]⟩

theorem M.producted_reg (m : M) (zero : Bool) (j : Job) {a : Nat} (ha : a ≠ coreReg j.c CORE_MXE_STATUS) :
    (m.producted zero j).reg a = m.reg a := by
  unfold M.producted M.setTileK
  rw [M.reg_updCore]
  split
  · rw [M.setTileInt_reg _ _ _ _ ha, M.reg_write]
  · exact M.reg_write _ _ _ _

theorem M.producted_tileK (m : M) (zero : Bool) (j : Job) : mapGet ((m.producted zero j).core j.c).tileK j.w.tile =
    some ((if zero then 0 else mapGetD (m.core j.c).tileK j.w.tile 0) + j.d 2) := by
  rw [M.producted, M.setTileK_tileK, mapGet_mapSet_same]

theorem mmulRun_int8 {m : M} {zero : Bool} {j : Job} (hc : m.Clean j.c) (hs : m.sterling j.c = false) (hf : j.ctl 3 0 = 6)
    (hpad : j.ctl 5 4 = 0) (hp : m.planeFmt j.c (j.flags % 2) = 6) : mmulRun zero j m = m.producted zero j := by
  have hscales : m.actScales j 6 = ([], m) := rfl
  have hzero : m.pad j.c 0 = .zero := rfl
  have hold : (if zero then (zeros (tileSize false), m) else m.readMem j.c 2 (j.w.tile * tileSize false) (tileSize false) 0) =
      (m.oldTile zero j, m) := by
    rw [M.readMem_clean _ _ _ _ _ _ hc.ecc]
    cases zero <;> rfl
  have hne : m.productTile zero j ≠ [] := List.ne_nil_of_length_pos (by rw [M.productTile_length]; decide)
  have hacts := M.acts_int8 hc [] 32
  have hupd := m.tileUpdate_int8 zero j
  have helem : accElem false = 4 := rfl
  have hint : ((6 : Nat) == 6) = true := rfl
  rw [mmulRun]
  simp only [hs, hf, hpad, hzero, hscales, hint]
  rw [hacts]
  simp only [hold, helem, M.planeColumn_int8 hp]
  rw [hupd, M.writeMem_acc hc _ hne]
  cases zero <;> rfl

theorem mmulEngine_run (zero : Bool) : (mmulEngine zero).run = mmulRun zero := by
  rw [mmulEngine]

/-- A product writes its tile once; all its other accesses read. -/
theorem mmulUses_writes (j : Job) (m : M) : ∃ u, (mmulUses j m).filter (·.write) = [u] ∧ u.mem = 2 ∧ u.unit = .mxe := by
  refine ⟨{ at_ := 1 + ceilDiv (j.d 2) 32 * blockCycles (m.sterling j.c) (j.ctl 3 0), mem := 2, off := j.w.tile * tileSize (m.sterling j.c)
            len := tileSize (m.sterling j.c), write := true, unit := .mxe }, ?_, rfl, rfl⟩
  · unfold mmulUses
    dsimp only
    rw [List.filter_append, filter_reads fun u hu => ?_, List.nil_append]
    · exact List.filter_cons_of_pos rfl
    · obtain ⟨b, -, hb⟩ := List.mem_flatMap.mp hu
      rcases List.mem_append.mp hb with hb | hb
      · obtain ⟨r, -, hr⟩ := List.mem_flatMap.mp hb
        exact usesOf_write hr
      · split at hb
        · exact usesOf_write hb
        · exact absurd hb List.not_mem_nil

/-- The shape of a product of INT8: one whole tile, INT8 weights, and zero for what is out of bounds (R101, R132). -/
theorem mmul_shape {zero : Bool} {j : Job} {m : M} (hf : j.ctl 3 0 = 6) (h : mmulShape zero j m = true) :
    wholeTile (m.sterling j.c) j.w = true ∧ m.planeFmt j.c (j.flags % 2) = 6 ∧ j.ctl 5 4 = 0 := by
  simp only [mmulShape, hf, Bool.and_eq_true] at h
  obtain ⟨⟨⟨⟨⟨⟨⟨⟨⟨⟨⟨htile, -⟩, hpair⟩, -⟩, -⟩, -⟩, -⟩, -⟩, hpad⟩, -⟩, -⟩, -⟩ := h
  refine ⟨htile, ?_, by simpa using hpad⟩
  simpa [pairListed] using hpair

/-- A number read inside bytes just written. -/
theorem M.readN_write_inside (m : M) (a : Nat) (bs : Bytes) {o n : Nat} (h : o + n ≤ bs.length) :
    (m.write a bs).readN (a + o) n = numAt bs o n := by
  have hread : (m.write a bs).read a bs.length = bs := CMem.read_write_same _ _ _
  rw [← M.numAt_read _ _ bs.length _ _ h, hread]

/-- The sum of a cell is one of memory. -/
theorem M.productCell_congr {m n : M} (hm : m.mem = n.mem) (he : m.die.ecc = []) (he' : n.die.ecc = []) (zero : Bool) (j : Job) (r col : Nat) :
    m.productCell zero j r col = n.productCell zero j r col := by
  simp only [M.productCell, M.actValue, M.weightValue, M.readN, hm, bytesIn_congr hm he he' (by decide : SCRATCH ≠ ACC)]

/-- MMUL and MMULZ of INT8: each cell becomes its sum modulo 2^32, the tile's K count grows, and the rest stays. -/
theorem mmul_products {s : State} {j : Job} {zero : Bool} (h : issues (if zero then .mmulz j.c else .mmul j.c) s j) (hf : j.ctl 3 0 = 6)
    (hs : (view s).sterling j.c = false) :
    ∃ m, runs (if zero then .mmulz j.c else .mmul j.c) s m ∧
      (∀ r col, r < 32 → col < 64 →
        m.readN (tileAddr j.c false j.w.tile + 4 * (64 * r + col)) 4 = unsigned ((view s).productCell zero j r col) 32) ∧
      mapGet (m.core j.c).tileK j.w.tile = some ((if zero then 0 else mapGetD ((view s).core j.c).tileK j.w.tile 0) + j.d 2) ∧
      (zero = true → m.tileInt j.c j.w.tile = true) ∧ sameBytes (view s) m (tileAddr j.c false j.w.tile) 0x2000 ∧
      sameButPorts (view s) m [issueReg j, coreReg j.c CORE_MXE_STATUS] := by
  have hrow : engineRow (if zero then .mmulz j.c else .mmul j.c) = some (j.c, 0, if zero then 3 else 2, mmulEngine zero) := by
    cases zero <;> rfl
  obtain ⟨o, hfacts⟩ := issues_facts h hrow
  obtain ⟨htile, hp, hpad⟩ := mmul_shape (m := view s) hf hfacts.shape
  have how : o.w = [ACC] := by
    have hspec := hfacts.spec
    cases zero <;> cases hspec <;> rfl
  have ht : j.w.tile < 8 := tile_lt hfacts.inside (i := 3) (by decide) (by decide) (how ▸ hfacts.w) htile
  obtain ⟨u, hu, humem, huunit⟩ := mmulUses_writes j ((view s).queued j)
  have huses : ((view s).issueUses j (mmulEngine zero)).filter (·.write) = [u] := hu
  have hwork : ∀ m, M.AtIssue (view s) m j → m.Clean j.c → (mmulEngine zero).run j m = m.producted zero j := fun m hm hc => by
    have hst := hm.sterling.trans hs
    have hfmt := (hm.planeFmt (j.flags % 2)).trans hp
    rw [mmulEngine_run, mmulRun_int8 hc hst hf hpad hfmt]
  obtain ⟨m, r, hm, hkm, hc, hrun, hend⟩ := engine_runs (mem := 2) (unit := .mxe) h hrow (by rw [huses]; exact List.pairwise_singleton _ _)
    (fun x hx => by rw [huses, List.mem_singleton] at hx; exact hx ▸ ⟨humem, huunit⟩) fun m hm hc => by
      rw [hwork m hm hc]
      exact (m.producted_stored zero j).2
  rw [hwork m hm hc] at hend
  obtain ⟨hmem, hregs, -, hk⟩ := hend
  have hcell := M.productCell_congr hm.mem hc.ecc hfacts.ecc zero j
  have hstored : r.mem = (m.write (tileAddr j.c false j.w.tile) (m.productTile zero j)).mem := by
    rw [hmem]
    exact (m.producted_stored zero j).1
  have hreg : ∀ a, a ∉ [coreReg j.c CORE_MXE_STATUS] → r.reg a = m.reg a := fun a ha =>
    (M.reg_congr hregs a).trans (m.producted_reg zero j fun e => ha (List.mem_singleton.mpr e))
  refine ⟨r, hrun, fun row col hr hcol => ?_, ?_, fun hz => ?_, sameBytes_of_byte fun x hx => ?_, hm.sameButPorts_of hreg⟩
  · rw [M.readN, hstored, ← M.readN, M.readN_write_inside _ _ _ (by rw [M.productTile_length]; omega), M.productTile_at _ _ _ hr hcol, hcell]
  · rw [hk, m.producted_tileK, hkm]
  · subst hz
    rw [M.tileInt, M.flag_congr (hregs.trans (M.setTileK_regs _ _ _ _)), ← M.tileInt]
    exact M.tileInt_setTileInt _ _ ht _
  · rw [hstored, M.byte_write, M.productTile_length, if_neg (by omega), hm.mem]

end Sys2Proof.Machine

/-! ## MDRAIN to INT32 (R126, R127) -/

namespace Sys2Proof.Machine

/-! ### A row drained as it stands -/

theorem toBytes_ofBytes (bs : Bytes) : toBytes bs.length (ofBytes bs) = bs := by
  induction bs with
  | nil => rfl
  | cons b bs ih =>
    have hb := b.isLt
    rw [List.length_cons, toBytes, ofBytes, Nat.add_mul_div_left _ _ (by decide), Nat.div_eq_of_lt hb, Nat.zero_add, ih]
    congr 1
    refine BitVec.eq_of_toNat_eq ?_
    rw [BitVec.toNat_ofNat]
    omega

/-- An INT32 drained to INT32 is itself. -/
theorem int32_drained {x : Nat} (hx : x < 2 ^ 32) : unsigned (toIntSat 32 (elemDecode 8 x)) 32 = x := by
  show unsigned (toIntSat 32 (.fin (decide (signed x 32 < 0)) (signed x 32).natAbs 0)) 32 = x
  have hq : (if decide (signed x 32 < 0) = true then -(((signed x 32).natAbs : Nat) : Int) else ((signed x 32).natAbs : Nat)) = signed x 32 := by
    by_cases h : signed x 32 < 0
    · rw [if_pos (decide_eq_true h)]; omega
    · rw [if_neg (by simpa using h)]; omega
  have hs : signed x 32 = if x < 2 ^ 31 then (x : Int) else x - 2 ^ 32 := by
    rw [signed, Nat.mod_eq_of_lt hx]
    rfl
  simp only [toIntSat, Int.le_refl, if_true, Int.toNat_zero, Nat.shiftLeft_zero, hq]
  rw [unsigned, hs]
  split <;> omega

theorem drainRow_int32_from (sat : Bool) (bs : Bytes) (n : Nat) (scales : List F32) (hn : scales.length = n) (hbs : bs.length = 4 * n) (pre : Bytes) :
    (List.zip scales (chunks 4 n bs)).foldl (fun (x : Bytes × Nat × Nat) p =>
      (x.1 ++ toBytes (elemBits 8 / 8) (drainElement false true 8 sat p.1 p.2).1, x.2.1 + bit ((drainElement false true 8 sat p.1 p.2).2 == .overflow),
        x.2.2 + bit ((drainElement false true 8 sat p.1 p.2).2 == .nan))) (pre, 0, 0) = (pre ++ bs, 0, 0) := by
  induction n generalizing scales bs pre with
  | zero =>
    rw [List.eq_nil_of_length_eq_zero hbs, List.append_nil]
    cases scales <;> rfl
  | succ n ih =>
    obtain ⟨sc, scales, rfl⟩ := List.exists_cons_of_length_eq_add_one hn
    have htake : (bs.take 4).length = 4 := by rw [List.length_take]; omega
    have hlt := ofBytes_lt (bs.take 4)
    rw [htake] at hlt
    have helem : drainElement false true 8 sat sc (bs.take 4) = (ofBytes (bs.take 4), .plain) := Prod.ext (int32_drained hlt) rfl
    have hback : toBytes (elemBits 8 / 8) (ofBytes (bs.take 4)) = bs.take 4 := by
      conv_rhs => rw [← toBytes_ofBytes (bs.take 4), htake]
      rfl
    rw [chunks, List.zip_cons_cons, List.foldl_cons]
    simp only [helem, hback]
    refine (ih (bs.drop 4) scales (by simpa using hn) (by rw [List.length_drop]; omega) (pre ++ bs.take 4)).trans ?_
    rw [List.append_assoc, List.take_append_drop]

/-- A row of an integer tile drained to INT32 keeps its bytes and counts nothing. -/
theorem drainRow_int32 (sat : Bool) {bs : Bytes} {n : Nat} {scales : List F32} (hn : scales.length = n) (hbs : bs.length = 4 * n) :
    drainRow false true 8 sat scales (chunks 4 n bs) = (bs, 0, 0) := drainRow_int32_from sat bs n scales hn hbs []

/-! ### The rows of a drain -/

/-- The bytes of a row of the tile, as a drain takes them. -/
def M.drained (m : M) (j : Job) (r : Nat) : Bytes := m.read (memAddr j.c 2 (0x2000 * j.a.tile + 256 * r)) (4 * j.bd 1)

theorem M.drained_length (m : M) (j : Job) (r : Nat) : (m.drained j r).length = 4 * j.bd 1 := CMem.read_length _ _ _

/-- Accumulator memory lies before or behind the write range's memory. -/
theorem WriteRange.accApart {j : Job} (hw : WriteRange j) (c : Nat) :
    memAddr c (spaceMem j.w.space) 0 + (j.w.base + j.w.bytes) ≤ memAddr c 2 0 ∨ memAddr c 2 0 + 0x10000 ≤ memAddr c (spaceMem j.w.space) 0 := by
  obtain ⟨hacc, hlode, hin⟩ := hw
  generalize j.w.space = space at hacc hlode hin
  have hspaces : space = 2 ∨ space = 4 ∨ spaceMem space = 7 := by
    match space with
    | 1 => exact absurd rfl hlode
    | 3 => exact absurd rfl hacc
    | 0 | 2 | 4 | _ + 5 => simp [spaceMem]
  rcases hspaces with rfl | rfl | h
  · simp only [spaceExtent, spaceMem, memSize, memAddr, memLocal, reduceIte, Nat.reduceEqDiff] at hin ⊢
    omega
  · simp only [spaceMem, memAddr, memLocal, reduceIte, Nat.reduceEqDiff]
    omega
  · simp only [spaceExtent, h, memSize, memAddr, memLocal, coreBase, reduceIte, Nat.reduceEqDiff, if_neg hacc] at hin ⊢
    omega

/-- Tiles stand apart from a write range. -/
theorem M.drained_stored {v m : M} {j : Job} (hw : WriteRange j) (ht : j.a.tile < 8) (h : M.Stored v m j.wAddr j.w.bytes) {r : Nat}
    (hr : r < 32) (hn : j.bd 1 ≤ 64) : m.drained j r = v.drained j r := by
  rw [M.drained, M.drained, M.read, M.read, CMem.read_eq, CMem.read_eq]
  refine List.map_congr_left fun i hi => h.bytes _ ?_
  have hi := List.mem_range.mp hi
  rw [Job.wAddr, memAddr_add j.c _ j.w.base]
  rcases hw.accApart j.c with hlo | hhi
  · rw [memAddr_add _ _ (0x2000 * _ + _)]
    omega
  · rw [memAddr_add _ _ (0x2000 * _ + _)]
    omega

/-- The shape of a drain to INT32: a whole integer tile, of which W covers the rows. -/
theorem mdrain_shape {j : Job} {m : M} (hf : j.ctl 3 0 = 8) (h : mdrainShape j m = true) :
    wholeTile (m.sterling j.c) j.a = true ∧ m.tileInt j.c j.a.tile = true ∧ (j.bd 0 ≤ j.d 0 ∧ j.d 0 ≤ 32) ∧ (j.bd 1 ≤ j.d 1 ∧ j.d 1 ≤ 64) ∧
      j.w.coversRows 0 (j.inner 4) (j.d 0) (4 * j.d 1) = true := by
  have helem : elemBytes 8 (j.d 1) = 4 * j.d 1 := by
    show (j.d 1 * 32 + 8 - 1) / 8 = _
    omega
  simp only [mdrainShape, hf, helem, Bool.and_eq_true, upTo, Job.bounded, List.all_cons, decide_eq_true_eq] at h
  obtain ⟨⟨⟨⟨⟨⟨⟨htile, -⟩, -, h0⟩, -, h1⟩, -⟩, hb0, hb1, -⟩, hint⟩, hcov⟩ := h
  exact ⟨htile, by simpa using hint, ⟨hb0, h0⟩, ⟨hb1, h1⟩, hcov⟩

theorem M.readMem_drained {m : M} {j : Job} (hc : m.Clean j.c) (r : Nat) :
    m.readMem j.c 2 (j.a.tile * tileSize false + 64 * 4 * r) (4 * j.bd 1) 0 = (m.drained j r, m) := by
  rw [M.readMem_clean _ _ _ _ _ _ hc.ecc, Nat.mul_comm j.a.tile]
  rfl

/-- The rows of a drain fit the write range, unless they are empty. -/
def Job.drainFits (j : Job) : Prop := j.bd 1 ≠ 0 → ∀ r, r < j.bd 0 → WriteRange j ∧ j.inW (j.rowAt r) (4 * j.bd 1)

section
variable {j : Job} (hfit : j.drainFits) (ht : j.a.tile < 8) (h0 : j.bd 0 ≤ 32) (h1 : j.bd 1 ≤ 64) {m : M} (hc : m.Clean j.c)
include hfit ht h0 h1 hc

/-- The first rows of a drain, each written as the tile held it before all of them. -/
theorem M.drainRows_eq {step : M → Nat → M} (hstep : ∀ m r, m.Clean j.c → step m r = m.spaceWrite j.c j.w.space (j.rowAt r) (m.drained j r))
    {k : Nat} (hk : k ≤ j.bd 0) :
    (List.range k).foldl step m = m.writeRows j.c j.w.space ((List.range k).map fun r => (j.rowAt r, m.drained j r)) ∧
      M.Stored m (m.writeRows j.c j.w.space ((List.range k).map fun r => (j.rowAt r, m.drained j r))) j.wAddr j.w.bytes := by
  induction k with
  | zero => exact ⟨rfl, .refl ..⟩
  | succ k ih =>
    obtain ⟨heq, hst⟩ := ih (by omega)
    have happ : ∀ rows p, m.writeRows j.c j.w.space (rows ++ [p]) = (m.writeRows j.c j.w.space rows).spaceWrite j.c j.w.space p.1 p.2 :=
      fun rows p => List.foldl_append
    rw [List.range_succ, List.foldl_append, heq, List.map_append, List.map_singleton, happ, List.foldl_cons, List.foldl_nil,
      hstep _ _ (hc.stored hst)]
    generalize m.writeRows j.c j.w.space ((List.range k).map fun r => (j.rowAt r, m.drained j r)) = n at hst
    by_cases hn : j.bd 1 = 0
    · have hnil : ∀ m : M, m.drained j k = [] := fun m => List.eq_nil_of_length_eq_zero (by rw [M.drained_length, hn])
      rw [hnil, hnil, M.spaceWrite_nil]
      exact ⟨rfl, hst⟩
    · obtain ⟨hw, hin⟩ := hfit hn k hk
      rw [M.drained_stored hw ht hst (show k < 32 by omega) h1]
      exact ⟨rfl, hst.trans (M.stored_spaceWrite hw (hc.stored hst) fun _ => by rwa [M.drained_length])⟩

/-- A drain of an integer tile to INT32 stores the tile's rows. -/
theorem mdrainRun_rows (hf : j.ctl 3 0 = 8) (hs : m.sterling j.c = false) (hint : m.tileInt j.c j.a.tile = true) :
    mdrainRun j m = m.writeRows j.c j.w.space ((List.range (j.bd 0)).map fun r => (j.rowAt r, m.drained j r)) ∧
      M.Stored m (mdrainRun j m) j.wAddr j.w.bytes := by
  have helem : accElem false = 4 := rfl
  have hrun : mdrainRun j m = m.writeRows j.c j.w.space ((List.range (j.bd 0)).map fun r => (j.rowAt r, m.drained j r)) := by
    rw [mdrainRun, hs, hf, hint]
    refine (M.drainRows_eq hfit ht h0 h1 hc (fun n r hn => ?_) (Nat.le_refl (j.bd 0))).1
    have hrow := drainRow_int32 (scales := (List.range (j.bd 1)).map (m.dscale j.c)) (j.ctl 8 8 == 1)
      (by rw [List.length_map, List.length_range]) (n.drained_length j r)
    simp only [helem, M.readMem_drained hn, hrow]
    rfl
  rw [hrun]
  exact ⟨rfl, (M.drainRows_eq hfit ht h0 h1 hc (fun _ _ _ => rfl) (Nat.le_refl (j.bd 0))).2⟩

end

theorem usesOf_made {u : RowUse} {at_ space off n : Nat} {write : Bool} {unit : AccessUnit} (h : u ∈ usesOf at_ space off n write unit) :
    u.at_ = at_ ∧ u.mem = spaceMem space ∧ u.unit = unit := by
  obtain ⟨p, -, rfl⟩ := List.mem_map.mp h
  exact ⟨rfl, rfl, rfl⟩

/-- The rows that a drain writes are written in the order of their cycles. -/
theorem mdrainUses_inOrder (j : Job) (m : M) : ((mdrainUses j m).filter (·.write)).Pairwise fun x y => x.at_ ≤ y.at_ := by
  refine List.Pairwise.filter _ (List.pairwise_flatMap.mpr ⟨fun r _ => List.pairwise_of_forall_mem_list fun x hx y hy => ?_,
    List.pairwise_lt_range.imp fun hlt x hx y hy => ?_⟩)
  · rw [(usesOf_made hx).1, (usesOf_made hy).1]
  · rw [(usesOf_made hx).1, (usesOf_made hy).1]
    exact Nat.add_le_add_left (Nat.mul_le_mul_left _ hlt.le) 12

theorem mdrainUses_made {j : Job} {m : M} {u : RowUse} (h : u ∈ mdrainUses j m) : u.mem = spaceMem j.w.space ∧ u.unit = .mxe := by
  obtain ⟨r, -, hr⟩ := List.mem_flatMap.mp h
  exact (usesOf_made hr).2

/-- MDRAIN to INT32 copies an integer tile's rows. -/
theorem mdrain_copies {s : State} {j : Job} (h : issues (.mdrain j.c) s j) (hf : j.ctl 3 0 = 8) (hs : (view s).sterling j.c = false)
    (hapart : j.bd 0 ≤ 1 ∨ 4 * j.bd 1 ≤ j.inner 4) :
    ∃ m, runs (.mdrain j.c) s m ∧
      (∀ r col, r < j.bd 0 → col < j.bd 1 → bytesIn m j.c j.w.space (j.rowAt r + 4 * col) 4 =
        (view s).read (memAddr j.c 2 (0x2000 * j.a.tile + 4 * (64 * r + col))) 4) ∧
      sameButPorts (view s) m [issueReg j] := by
  obtain ⟨o, hfacts⟩ := issues_facts h rfl
  obtain rfl : _ = o := Option.some.inj hfacts.spec
  obtain ⟨htile, hint, ⟨hb0, hd0⟩, ⟨hb1, hd1⟩, hcov⟩ := mdrain_shape (m := view s) hf hfacts.shape
  have ht : j.a.tile < 8 := tile_lt hfacts.inside (i := 1) (by decide) (by decide) hfacts.a htile
  have hfit : j.drainFits := fun hn r hr => by
    obtain ⟨hp, hin⟩ := coversRows_row hcov (by omega) (show r < j.d 0 by omega)
    refine ⟨(move_writeRange hfacts (by decide) hp).1, ?_, ?_⟩ <;> simp only [Job.rowAt] <;> omega
  have hrows : ∀ m, M.AtIssue (view s) m j → m.Clean j.c → _ := fun m hm hc =>
    mdrainRun_rows hfit ht (hb0.trans hd0) (hb1.trans hd1) hc hf (hm.sterling.trans hs) ((hm.tileInt _).trans hint)
  obtain ⟨m, r, hm, -, hc, hrun, hend⟩ := engine_runs (mem := spaceMem j.w.space) (unit := .mxe) h rfl (mdrainUses_inOrder j _)
    (fun u hu => mdrainUses_made (List.mem_of_mem_filter hu)) fun m hm hc => (congrArg Die.writes (hrows m hm hc).2.die :)
  obtain ⟨hmem, hregs, hecc, -⟩ := hend
  obtain ⟨heq, hst⟩ := hrows m hm hc
  refine ⟨r, hrun, fun row col hr hcol => ?_, hm.sameButPorts_of fun a _ => ?_⟩
  · obtain ⟨hw, -⟩ := hfit (by omega) row hr
    have hrow : bytesIn r j.c j.w.space (j.rowAt row) (4 * j.bd 1) = m.drained j row := by
      rw [bytesIn_congr (hmem.trans (congrArg M.mem heq)) (hecc.trans (hst.die ▸ hc.ecc)) (hc.stored (heq ▸ hst)).ecc hw.notAcc]
      refine M.writeRows_at hw hc (fun i _ => m.drained_length j i) (fun hn i hi => (hfit (by omega) i (List.mem_range.mp hi)).2)
        (R := (· ≠ ·)) List.nodup_range (List.mem_range.mpr hr) fun i hi hne => ?_
      have hi := List.mem_range.mp hi
      exact Job.rowAt_apart (hapart.resolve_left (by omega)) hne
    rw [← slice_bytesIn r j.c j.w.space (j.rowAt row) (4 * j.bd 1) (4 * col) 4 (hecc.trans (hst.die ▸ hc.ecc)) hw.notAcc (by omega), hrow,
      M.drained, M.read, CMem.read_eq, slice_map_range _ (by omega), M.read, CMem.read_eq, hm.mem, memAddr_add _ _ (_ + 256 * row),
      memAddr_add _ _ (_ + 4 * _)]
    refine List.map_congr_left fun i _ => congrArg _ ?_
    omega
  · rw [M.reg_congr hregs]
    exact M.reg_congr (congrArg Die.regs hst.die) a

end Sys2Proof.Machine

namespace Sys2Proof

open Machine

/-- Settles O34: an engine's run ends as its engine leaves the state at its issue, and each engine of a matrix command does as
its rules say: the sum of a cell modulo 2^32, the columns of a plane one behind another, the scales, the rows of a tile. -/
theorem matrixCommands : Obligations.MatrixCommands := by
  refine ⟨fun s j zero h hf hs => ?_, fun s j => ⟨mzero_clears, mload_fills, mload_scales, mdrain_copies⟩⟩
  dsimp only
  rw [Nat.mul_comm 0x2000]
  exact mmul_products h hf hs

end Sys2Proof

/-! ## A stack at work: what its commands keep (R58, R217, R281, R284, R300) -/

namespace Sys2Proof.Machine

/-! ### The errors of a read leave cores, stacks and flips -/

/-- From `v` to `m` cores, stacks and the flips of memories stand. -/
structure M.Stands (v m : M) : Prop where
  cores : m.die.cores = v.die.cores
  seams : m.die.seams = v.die.seams
  bursts : m.die.bursts = v.die.bursts
  ecc : m.die.ecc = v.die.ecc

theorem M.stands_countBy (m : M) (a k : Nat) : M.Stands m (m.countBy a k) :=
  ⟨M.countBy_cores .., M.countBy_seams .., M.countBy_bursts .., M.countBy_ecc ..⟩

theorem M.stands_setReg (m : M) (a : Nat) (v : Word) : M.Stands m (m.setReg a v) := ⟨rfl, rfl, rfl, rfl⟩

theorem M.Stands.trans {v m n : M} (h : M.Stands v m) (h' : M.Stands m n) : M.Stands v n :=
  ⟨h'.cores.trans h.cores, h'.seams.trans h.seams, h'.bursts.trans h.bursts, h'.ecc.trans h.ecc⟩

theorem M.stands_errorClass (m : M) (cls block inst detail : Nat) : M.Stands m (m.errorClass cls block inst detail) := by
  unfold M.errorClass
  dsimp only
  split
  · exact (M.stands_countBy ..).trans (((M.stands_setReg ..).trans (M.stands_setReg ..)).trans (M.stands_setReg ..))
  · exact M.stands_countBy ..

theorem M.stands_captureEcc (m : M) (ue : Bool) (c mem off source bit0 bit1 mask : Nat) :
    M.Stands m (m.captureEcc ue c mem off source bit0 bit1 mask) := by
  unfold M.captureEcc
  dsimp only
  split
  · exact ⟨rfl, rfl, rfl, rfl⟩
  · exact (M.stands_setReg ..).trans (M.stands_setReg ..)

theorem M.stands_report (m : M) (cls block inst memory bank row detail : Nat) :
    M.Stands m (m.report cls block inst memory bank row detail) := ⟨rfl, rfl, rfl, rfl⟩

theorem M.stands_stepErrorReported (m : M) : M.Stands m m.stepErrorReported := ⟨rfl, rfl, rfl, rfl⟩

theorem M.stands_updStep (m : M) (f : Step → Step) : M.Stands m (m.updStep f) := ⟨rfl, rfl, rfl, rfl⟩

theorem M.stands_exhausted (m : M) (k : Nat) : M.Stands m (m.exhausted k) := by
  unfold M.exhausted
  have h := (M.stands_countBy m (seamReg k SEAM_ALLOC_FAIL_CNT) 1).trans (M.stands_errorClass _ 13 2 k noPage)
  have hr := h.trans (M.stands_report _ 13 2 k 16 0 0 noPage)
  exact (hr.trans (M.stands_stepErrorReported _)).trans (M.stands_updStep _ _)

theorem M.stands_correctable (m : M) (c mem off source bit0 bit1 mask : Nat) :
    M.Stands m (((m.count (eccCounter false c mem)).errorClass 1 (eccBlock mem) (eccInstance c mem) off).captureEcc false c mem off
      source bit0 bit1 mask) := ((M.stands_countBy ..).trans (M.stands_errorClass ..)).trans (M.stands_captureEcc ..)

theorem M.stands_uncorrectable (m : M) (c mem off source mask : Nat) : M.Stands m (m.uncorrectable c mem off source mask) := by
  have h : ∀ cls, M.Stands m (((((m.count (eccCounter true c mem)).captureEcc true c mem off source 0xFF 0xFF mask).errorClass cls
      (eccBlock mem) (eccInstance c mem) off))) := fun cls =>
    ((M.stands_countBy ..).trans (M.stands_captureEcc ..)).trans (M.stands_errorClass ..)
  unfold M.uncorrectable
  dsimp only
  split
  · exact (h _).trans (M.stands_report ..)
  · exact ((h _).trans (M.stands_report ..)).trans (M.stands_stepErrorReported _)

/-! ### A stack at work -/

/-- From `v` to `m` stacks have kept their queues and cores their commands in flight; no burst of state memory is in error, and
flips stand in the memories of cores and sites alone. -/
structure M.Serving (v m : M) : Prop where
  queue : ∀ k, (m.seam k).queue = (v.seam k).queue
  flights : ∀ c, (m.core c).flights = (v.core c).flights
  bursts : m.die.bursts = []
  flips : ∀ p ∈ m.die.ecc, p.1 % 0x10000000 < 0xC00000

theorem M.Serving.refl {v : M} (hb : v.die.bursts = []) (he : v.die.ecc = []) : M.Serving v v :=
  ⟨fun _ => rfl, fun _ => rfl, hb, fun _ hp => absurd (he ▸ hp) List.not_mem_nil⟩

theorem M.seam_updSeam (m : M) (k l : Nat) (f : Seam → Seam) : (m.updSeam k f).seam l = if l = k then f (m.seam k) else m.seam l := by
  rw [M.seam, M.updSeam]
  split
  · rename_i h
    rw [h]
    exact mapGetD_mapSet_same ..
  · exact mapGetD_mapSet_ne _ _ _ _ _ ‹_›

section
variable {v m n : M} (h : M.Serving v m)
include h

theorem M.Serving.stands (hn : M.Stands m n) : M.Serving v n where
  queue k := by rw [M.seam, hn.seams, ← M.seam, h.queue]
  flights c := by rw [M.core, hn.cores, ← M.core, h.flights]
  bursts := hn.bursts.trans h.bursts
  flips := by rw [hn.ecc]; exact h.flips

theorem M.Serving.moved (hn : M.PortsMoved m n) : M.Serving v n where
  queue k := by rw [M.seam, show n.die.seams = m.die.seams from (congrArg Die.seams hn.die :), ← M.seam, h.queue]
  flights c := (hn.core_eq Core.flights (fun _ => rfl) c).trans (h.flights c)
  bursts := (show n.die.bursts = m.die.bursts from (congrArg Die.bursts hn.die :)).trans h.bursts
  flips := by rw [hn.ecc]; exact h.flips

theorem M.Serving.count (a : Nat) : M.Serving v (m.count a) := h.stands (M.stands_countBy ..)

theorem M.Serving.countBy (a k : Nat) : M.Serving v (m.countBy a k) := h.stands (M.stands_countBy ..)

theorem M.Serving.write (a : Nat) (bs : Bytes) : M.Serving v (m.write a bs) := h.stands ⟨rfl, rfl, rfl, rfl⟩

theorem M.Serving.updSeam (k : Nat) {f : Seam → Seam} (hf : ∀ x, (f x).queue = x.queue) : M.Serving v (m.updSeam k f) where
  queue l := by
    rw [M.seam_updSeam]
    split
    · rename_i hl
      rw [hf, h.queue, hl]
    · exact h.queue l
  flights := h.flights
  bursts := h.bursts
  flips := h.flips

theorem M.Serving.updCore (c : Nat) {f : Core → Core} (hf : ∀ x, (f x).flights = x.flights) : M.Serving v (m.updCore c f) where
  queue := h.queue
  flights d := by
    by_cases hd : d = c
    · rw [hd, M.core_updCore_same, hf, h.flights]
    · rw [M.core_updCore_ne _ _ _ _ hd, h.flights]
  bursts := h.bursts
  flips := h.flips

theorem M.Serving.withEcc {e : NMap Nat} (he : ∀ p ∈ e, p.1 % 0x10000000 < 0xC00000) : M.Serving v { m with die.ecc := e } :=
  ⟨h.queue, h.flights, h.bursts, he⟩

end

/-- Steps of a fold that keep a stack at work. -/
theorem M.Serving.foldl {v : M} {α : Type} {f : M → α → M} {l : List α} (hf : ∀ m, ∀ a ∈ l, M.Serving v m → M.Serving v (f m a)) {m : M}
    (h : M.Serving v m) : M.Serving v (l.foldl f m) :=
  List.foldlRecOn (motive := M.Serving v) l f h fun m hm a ha => hf m a ha hm

theorem M.Serving.foldl_snd {v : M} {α β : Type} {f : β × M → α → β × M} {l : List α}
    (hf : ∀ x, ∀ a ∈ l, M.Serving v x.2 → M.Serving v (f x a).2) {x : β × M} (h : M.Serving v x.2) : M.Serving v (l.foldl f x).2 :=
  List.foldlRecOn (motive := fun y => M.Serving v y.2) l f h fun y hy a ha => hf y a ha hy

section
variable {v m : M} (h : M.Serving v m)
include h

/-! ### Reads and writes of a core's memories -/

theorem M.Serving.queueWriteBack (c mem off : Nat) : M.Serving v (m.queueWriteBack c mem off) := by
  unfold M.queueWriteBack
  dsimp only
  split
  · split
    · exact h.count _
    · exact h.stands ⟨rfl, rfl, rfl, rfl⟩
  · split
    · exact h.count _
    · exact h.updCore _ fun _ => rfl

theorem M.Serving.eccAct (c mem off source mask : Nat) : M.Serving v (m.eccAct c mem off source mask) := by
  unfold M.eccAct
  split
  · exact h
  · exact h
  · unfold M.correctable
    dsimp only
    split
    · exact h.stands (M.stands_correctable ..)
    · exact (h.stands (M.stands_correctable ..)).queueWriteBack ..
  · exact h.stands (M.stands_uncorrectable ..)

theorem M.Serving.readMem (c mem off n source : Nat) : M.Serving v (m.readMem c mem off n source).2 := by
  unfold M.readMem
  dsimp only
  split
  · exact h
  · exact M.Serving.foldl (fun m p _ hm => hm.eccAct ..) h

theorem M.Serving.spaceRead (c space off n : Nat) : M.Serving v (m.spaceRead c space off n).2 := by
  unfold M.spaceRead
  dsimp only
  split
  · exact h
  · exact h.readMem ..

theorem M.Serving.rowsRead (c space off n : Nat) (write : Bool) :
    M.Serving v ((m.elasticRows c space off n write).spaceRead c space off n).2 :=
  (h.moved (M.portsMoved_elasticRows ..)).spaceRead ..

end

end Sys2Proof.Machine

namespace Sys2Proof.Machine

/-! ### Flips that a write takes away or an injection leaves -/

theorem mem_mapDel {α : Type} {m : NMap α} {k : Nat} {p : Nat × α} (h : p ∈ mapDel m k) : p ∈ m := List.mem_of_mem_filter h

/-- A memory's addresses that a space's offsets name lie among the memories of a core or a site. -/
theorem memAddr_space (c : Nat) (sterling : Bool) {space off o : Nat} (hoff : off < spaceExtent space) (ho : o ≤ spaceOffset sterling space off) :
    memAddr c (spaceMem space) o % 0x10000000 < 0xC00000 := by
  by_cases hacc : space = 3
  · have hsize : tileSize sterling ≤ 0x8000 := by cases sterling <;> decide
    have hmul := Nat.mul_le_mul (show off / 0x10000 ≤ 7 by rw [spaceExtent, if_pos hacc] at hoff; omega) hsize
    rw [spaceOffset, if_pos hacc] at ho
    subst hacc
    simp only [memAddr, spaceMem, memLocal, coreBase, reduceIte, Nat.reduceEqDiff]
    omega
  · rw [spaceExtent, if_neg hacc] at hoff
    rw [spaceOffset, if_neg hacc] at ho
    have hmem : spaceMem space = 0 ∨ spaceMem space = 1 ∨ spaceMem space = 3 ∨ spaceMem space = 7 := by
      match space with
      | 3 => exact absurd rfl hacc
      | 0 | 1 | 2 | 4 | _ + 5 => simp [spaceMem]
    rcases hmem with h | h | h | h
    all_goals
      simp only [h, memSize, memAddr, memLocal, coreBase, reduceIte, Nat.reduceEqDiff] at hoff ⊢
      omega

section
variable {v m : M} (h : M.Serving v m)
include h

theorem M.Serving.mergeCodeword (c mem a n : Nat) (p : Nat × Nat) : M.Serving v (m.mergeCodeword c mem a n p) := by
  have hdel : ∀ {m : M}, M.Serving v m → M.Serving v { m with die.ecc := mapDel m.die.ecc p.1 } := fun hm =>
    hm.withEcc fun q hq => hm.flips q (mem_mapDel hq)
  unfold M.mergeCodeword
  dsimp only
  split
  · exact hdel h
  · exact hdel ((h.eccAct ..).write ..)

theorem M.Serving.assayWrite (c off n : Nat) : M.Serving v (m.assayWrite c off n) := by
  unfold M.assayWrite
  split
  · exact h
  · dsimp only
    split
    · exact h.stands ⟨rfl, rfl, rfl, rfl⟩
    · exact h

theorem M.Serving.inject {c mem off : Nat} (ha : ∀ o, o ≤ off → memAddr c mem o % 0x10000000 < 0xC00000) :
    M.Serving v (m.inject c mem off) := by
  unfold M.inject
  dsimp only
  split
  · refine M.Serving.withEcc (m := m.setFld (injectReg c mem) 0 0 0) (h.stands (M.stands_setReg ..)) fun p hp => ?_
    rcases mem_mapSet _ _ _ _ hp with hp | rfl
    · exact h.flips p hp
    · exact ha _ (Nat.div_mul_le_self _ _)
  · exact h

theorem M.Serving.writeMem {c mem off : Nat} (ha : ∀ o, o ≤ off → memAddr c mem o % 0x10000000 < 0xC00000) (bs : Bytes) :
    M.Serving v (m.writeMem c mem off bs) := by
  unfold M.writeMem
  dsimp only
  split
  · exact h
  · have hm : M.Serving v (if mem = 0 then m.assayWrite c off bs.length else m) := by
      split
      · exact h.assayWrite ..
      · exact h
    exact ((M.Serving.foldl (fun m p _ hm => hm.mergeCodeword ..) hm).write ..).inject ha

theorem M.Serving.spaceWrite (c space off : Nat) (bs : Bytes) : M.Serving v (m.spaceWrite c space off bs) := by
  unfold M.spaceWrite
  dsimp only
  split
  · exact h
  · exact h.writeMem (fun o ho => memAddr_space c (m.sterling c) (by omega) ho) _

/-! ### The Tally and the table blocks -/

/-- No flip stands in the Tally. -/
theorem M.Serving.tallyUnit (slot : Nat) : m.tallyUnit slot = m := by
  unfold M.tallyUnit M.tallyMeet
  split
  · rfl
  · rename_i hs
    have hnone : m.flipsIn 8 (tallyBase slot + 0) 64 = [] := List.filter_eq_nil_iff.mpr fun p hp => by
      have := h.flips p hp
      have hsize : granuleSize 8 = 16 := rfl
      rw [Bool.and_eq_true, decide_eq_true_eq, decide_eq_true_eq, hsize]
      simp only [tallyBase, tallySlots] at hs ⊢
      omega
    rw [hnone]
    rfl

theorem M.Serving.faultPending (slot : Nat) : M.Serving v (m.faultPending slot) := by
  unfold M.faultPending
  split
  · exact h
  · exact h.write ..

end

end Sys2Proof.Machine

namespace Sys2Proof.Machine

/-! ### The check of a command's geometry (R643) -/

/-- The root that the check of R643 finds. -/
def M.geometryRoot (m : M) (k slot : Nat) (g : Geometry) : Option Nat :=
  (m.rootOf slot).filter fun root =>
    let r := geometryOf (m.rootWord k (32 * root))
    decide (r.fmt = g.fmt ∧ r.log2 = g.log2 ∧ r.hkv = g.hkv ∧ r.d = g.d ∧ g.layers < r.layers)

/-- A check that finds none counts it and marks the slot. -/
def M.geometryFails (m : M) (k slot : Nat) : M := (m.count (seamReg k SEAM_GEOM_ERR_CNT)).faultPending slot

section
variable {v m : M} (h : M.Serving v m)
include h

theorem M.Serving.geometryCheck_eq (k slot : Nat) (g : Geometry) (source : Nat) : m.geometryCheck k slot g source =
    (m.geometryRoot k slot g, if (m.geometryRoot k slot g).isSome then m else m.geometryFails k slot) := by
  unfold M.geometryCheck M.geometryRoot
  rw [h.tallyUnit]
  cases hr : m.rootOf slot with
  | none =>
    simp only [hr]
    rfl
  | some root =>
    simp only [hr, M.noteBursts_clean m _ _ _ h.bursts, Option.filter_some, decide_eq_true_eq]
    by_cases hg : (geometryOf (m.rootWord k (32 * root))).fmt = g.fmt ∧ (geometryOf (m.rootWord k (32 * root))).log2 = g.log2 ∧
        (geometryOf (m.rootWord k (32 * root))).hkv = g.hkv ∧ (geometryOf (m.rootWord k (32 * root))).d = g.d ∧
        g.layers < (geometryOf (m.rootWord k (32 * root))).layers
    · simp only [if_pos hg]
      rfl
    · simp only [if_neg hg]
      rfl

theorem M.Serving.geometryCheck (k slot : Nat) (g : Geometry) (source : Nat) : M.Serving v (m.geometryCheck k slot g source).2 := by
  rw [h.geometryCheck_eq]
  dsimp only
  split
  · exact h
  · exact (h.count _).faultPending _

/-! ### Pages and table blocks taken (R281, R282, R287, R288) -/

theorem M.Serving.stateWrite (a : Nat) (bs : Bytes) (source : Nat) : M.Serving v (m.stateWrite a bs source) := by
  rw [M.stateWrite_clean _ _ _ _ h.bursts]
  exact h.write ..

theorem M.Serving.pick (lo n : Nat) (taken : List Nat) : M.Serving v (m.pick lo n taken).2 := by
  unfold M.pick
  split
  · exact h
  · exact h.stands ⟨rfl, rfl, rfl, rfl⟩

theorem M.Serving.lowCheck (k : Nat) : M.Serving v (m.lowCheck k) := by
  unfold M.lowCheck
  dsimp only
  split
  · split
    · exact h.updSeam _ fun _ => rfl
    · exact h
  · split
    · exact (h.updSeam k (f := fun x => { x with lowRaised := true }) fun _ => rfl).stands (M.stands_setReg ..)
    · exact h

theorem M.Serving.allocPage (k state slot layer index : Nat) : M.Serving v (m.allocPage k state slot layer index).2 := by
  unfold M.allocPage
  dsimp only
  split
  · exact h.pick ..
  · exact ((h.pick ..).stateWrite ..).lowCheck _

theorem M.Serving.allocBlock (k slot : Nat) : M.Serving v (m.allocBlock k slot).2 := by
  unfold M.allocBlock
  dsimp only
  split
  · exact h.pick ..
  · dsimp only
    exact M.Serving.updSeam (h.pick ..) _ fun _ => rfl

theorem M.Serving.freeBlock (k b : Nat) : M.Serving v (m.freeBlock k b) := h.updSeam _ fun _ => rfl

theorem M.Serving.growChain (k slot : Nat) (blocks : List Nat) (n : Nat) : M.Serving v (m.growChain k slot blocks n).2 := by
  refine M.Serving.foldl_snd (fun x _ _ hx => ?_) h
  exact hx.allocBlock ..

theorem M.Serving.storeChain (k root layer : Nat) (blocks : List Nat) (es : List Leaf) :
    M.Serving v (m.storeChain k root layer blocks es) := by
  refine (M.Serving.foldl (fun m b _ hm => hm.freeBlock ..) (M.Serving.foldl (fun m i _ hm => ?_) h)).stateWrite ..
  exact hm.stateWrite ..

theorem M.Serving.pageFor (k slot root layer i : Nat) (scale : Bytes) : M.Serving v (m.pageFor k slot root layer i scale).2 := by
  unfold M.pageFor
  dsimp only
  split
  · split
    · exact h
    · split
      · exact h.allocPage ..
      · exact (h.allocPage ..).storeChain ..
  · split
    · exact h
    · split
      · exact h.allocPage ..
      · exact ((h.allocPage ..).growChain ..).storeChain ..

/-! ### Tokens written -/

theorem M.Serving.writeHalf (k page : Nat) (g : Geometry) (scale : Bytes) (isValue : Bool) (pos : Nat) (row : Bytes) :
    M.Serving v (m.writeHalf k page g scale isValue pos row) := by
  refine M.Serving.foldl (fun m _ _ hm => ?_) h
  exact ((hm.stateWrite ..).countBy ..).countBy ..

theorem M.Serving.writeToken (k page : Nat) (g : Geometry) (scale : Bytes) (t : Token) : M.Serving v (m.writeToken k page g scale t) :=
  ((h.writeHalf ..).writeHalf ..).count _

theorem M.Serving.appendPage (k : Nat) (j : Job) (root slot i : Nat) (ts : List Token) : M.Serving v (m.appendPage k j root slot i ts) := by
  unfold M.appendPage
  dsimp only
  split
  · exact M.Serving.foldl (fun m _ _ hm => hm.stands (M.stands_exhausted ..)) (h.pageFor ..)
  · exact M.Serving.foldl (fun m _ _ hm => hm.writeToken ..) (h.pageFor ..)

theorem M.Serving.noteChain (k root layer source : Nat) : m.noteChain k root layer source = m := M.noteChain_clean _ _ _ _ _ h.bursts

theorem M.Serving.tokens (j : Job) : M.Serving v (m.tokens j).2 := by
  refine M.Serving.foldl_snd (fun x _ _ hx => ?_) h
  exact ((hx.rowsRead ..).rowsRead ..).rowsRead ..

/-! ### Entries answered -/

theorem M.Serving.writePartial (j : Job) (off : Nat) (st : List Soft) : M.Serving v (m.writePartial j off st) :=
  (((h.moved (M.portsMoved_elasticRows ..)).spaceWrite ..).spaceWrite ..).spaceWrite ..

theorem M.Serving.noteBursts (a n source : Nat) : M.Serving v (m.noteBursts a n source) := by
  rw [M.noteBursts_clean _ _ _ _ h.bursts]
  exact h

theorem M.Serving.attendPages (k : Nat) (j : Job) (root slot vis : Nat) (q : List (List Flt)) :
    M.Serving v (m.attendPages k j root slot vis q).2 := by
  unfold M.attendPages
  have hnote := h.noteChain k root j.attendGeometry.layers 0
  simp only [hnote]
  refine M.Serving.foldl_snd (fun x a _ hx => ?_) h
  split
  · exact hx
  · exact (M.Serving.foldl (fun m _ _ hm => (hm.noteBursts ..).noteBursts ..) hx).countBy ..

theorem M.Serving.attendEntry (k : Nat) (j : Job) (i : Nat) : M.Serving v (m.attendEntry k j i) := by
  have hg := ((h.rowsRead j.c j.b.space (j.b.base + 16 * i) 16 false).rowsRead j.c j.a.space (j.a.base + j.inner 2 * i) (queryRow j) false)
  unfold M.attendEntry
  dsimp only
  refine (M.Serving.writePartial ?_ ..).count _
  split
  · exact hg.geometryCheck ..
  · exact (hg.geometryCheck ..).attendPages ..

end

end Sys2Proof.Machine

namespace Sys2Proof.Machine

/-! ### A stack's part of a command done (R284) -/

theorem M.Serving.seamHead {v m : M} (h : M.Serving v m) (k opcode : Nat) : m.seamHead k opcode = v.seamHead k opcode := by
  unfold M.seamHead
  simp only [h.queue, h.flights]

/-- The stack's part of a command is done once it has served it. -/
theorem M.Serving.seamDone {v m : M} (h : M.Serving v m) (k : Nat) (j : Job) : stackDone v (m.seamDone k j) k j := by
  unfold M.seamDone stackDone
  refine ⟨?_, ?_⟩
  · show ((m.updSeam k fun x => { x with queue := x.queue.drop 1 }).seam k).queue = _
    rw [M.seam_updSeam, if_pos rfl, h.queue]
  · rw [M.updFlight, M.core_updCore_same]
    show (m.core j.c).flights.map _ = _
    rw [h.flights]

/-- A live head of a queue is not dropped. -/
theorem M.dropWhile_live {m : M} {k opcode : Nat} {j : Job} (h : m.seamHead k opcode = some j) :
    ((m.seam k).queue.dropWhile fun r => !(m.core r.1).flights.any fun f => f.push == r.2 && cmdEngine f.cmd == 3) = (m.seam k).queue := by
  unfold M.seamHead at h
  split at h
  · exact absurd h nofun
  · rename_i c push rest hq
    split at h
    · rename_i f hf
      have hlive : ((m.core c).flights.any fun f => f.push == push && cmdEngine f.cmd == 3) = true := by
        have hp := List.find?_some hf
        simp only [Bool.and_eq_true, decide_eq_true_eq] at hp
        obtain ⟨⟨hpush, heng⟩, -⟩ := hp
        exact List.any_eq_true.mpr ⟨f, List.mem_of_find?_eq_some hf, by rw [hpush, heng]; simp⟩
      rw [hq, List.dropWhile_cons_of_neg (by simp [hlive])]
    · exact absurd h nofun

/-- A stack whose head lives, before it serves it. -/
theorem serving_dropDead {m : M} {k opcode : Nat} {j : Job} (h : m.seamHead k opcode = some j) (hb : m.die.bursts = []) (he : m.die.ecc = []) :
    M.Serving m (m.seamDropDead k) where
  queue l := by
    rw [M.seamDropDead, M.seam_updSeam]
    split
    · rename_i hl
      rw [hl, M.dropWhile_live h]
    · rfl
  flights _ := rfl
  bursts := hb
  flips p hp := by
    rw [show (m.seamDropDead k).die.ecc = m.die.ecc from rfl, he] at hp
    exact absurd hp List.not_mem_nil

/-! ### QAPPEND at a stack -/

/-- One token checked: those at or beyond the committed length that land on this stack are kept (R281, R283, R643). -/
def M.tokenChecked (k : Nat) (g : Geometry) (x : List Token × M) (t : Token) : List Token × M :=
  match (x.2.geometryCheck k t.slot g 1).1 with
  | none => (x.1, (x.2.geometryCheck k t.slot g 1).2)
  | some _ =>
    if placement t.slot g.layers (t.pos / 2 ^ g.log2) ≠ k then (x.1, (x.2.geometryCheck k t.slot g 1).2)
    else if t.pos < (x.2.geometryCheck k t.slot g 1).2.tLen t.slot then
      (x.1, (x.2.geometryCheck k t.slot g 1).2.count (seamReg k SEAM_APPEND_BELOW_CNT))
    else (x.1 ++ [t], (x.2.geometryCheck k t.slot g 1).2)

/-- The tokens of one page written (R281, R282). -/
def M.groupWritten (k : Nat) (j : Job) (m : M) (p : Nat × Nat × List Token) : M :=
  match m.rootOf p.1 with
  | none => m
  | some root => (m.noteChain k root j.appendGeometry.layers 1).appendPage k j root p.1 p.2.1 p.2.2

/-- The tokens that a QAPPEND keeps, and the state that their checks leave. -/
def M.tokensChecked (m : M) (k : Nat) (j : Job) : List Token × M :=
  (m.tokens j).1.foldl (M.tokenChecked k j.appendGeometry) ([], (m.tokens j).2)

/-- A QAPPEND that its stack serves: tokens checked, then written page by page. -/
def M.appended (m : M) (k : Nat) (j : Job) : M :=
  (groupTokens j.appendGeometry.log2 (m.tokensChecked k j).1).foldl (M.groupWritten k j) (m.tokensChecked k j).2

theorem M.seamAppend_eq {m : M} {k : Nat} {j : Job} (h : m.seamHead k 2 = some j) (hh : m.seamHeld j = false) :
    m.seamAppend k = (m.appended k j).seamDone k j := by
  unfold M.seamAppend
  simp only [h, hh]
  rfl

theorem M.seamAttend_eq {m : M} {k : Nat} {j : Job} (h : m.seamHead k 1 = some j) (hh : m.seamHeld j = false) :
    m.seamAttend k = (((List.range (j.bd 2)).foldl (fun m i => m.attendEntry k j i) m).elasticPath j.c k).seamDone k j := by
  unfold M.seamAttend
  simp only [h, hh]
  rfl

section
variable {v m : M} (h : M.Serving v m)
include h

theorem M.Serving.tokensChecked (k : Nat) (j : Job) : M.Serving v (m.tokensChecked k j).2 := by
  refine M.Serving.foldl_snd (fun x t _ hx => ?_) (h.tokens j)
  have hg := hx.geometryCheck k t.slot j.appendGeometry 1
  unfold M.tokenChecked
  split
  · exact hg
  · split
    · exact hg
    · split
      · exact hg.count _
      · exact hg

theorem M.Serving.appended (k : Nat) (j : Job) : M.Serving v (m.appended k j) := by
  refine M.Serving.foldl (fun m p _ hm => ?_) (h.tokensChecked k j)
  unfold M.groupWritten
  split
  · exact hm
  · rw [hm.noteChain]
    exact hm.appendPage ..

theorem M.Serving.attended (k : Nat) (j : Job) : M.Serving v (((List.range (j.bd 2)).foldl (fun m i => m.attendEntry k j i) m).elasticPath j.c k) :=
  (M.Serving.foldl (fun _ i _ hm => hm.attendEntry k j i) h).moved (M.portsMoved_elasticPath ..)

end

end Sys2Proof.Machine

namespace Sys2Proof.Machine

/-! ### States that read alike -/

/-- From `v` to `m` nothing has moved but ports, and stacks read the same. -/
structure M.Alike (v m : M) : Prop where
  mem : m.mem = v.mem
  regs : sameButPorts v m []
  seam : ∀ k, m.seam k = v.seam k
  ecc : m.die.ecc = v.die.ecc
  bursts : m.die.bursts = v.die.bursts

theorem M.PortsMoved.alike {v m : M} (h : M.PortsMoved v m) : M.Alike v m where
  mem := h.mem
  regs := h.regs
  seam k := by rw [M.seam, show m.die.seams = v.die.seams from (congrArg Die.seams h.die :), ← M.seam]
  ecc := h.ecc
  bursts := (congrArg Die.bursts h.die :)

theorem M.Alike.trans {v m n : M} (h : M.Alike v m) (h' : M.Alike m n) : M.Alike v n where
  mem := h'.mem.trans h.mem
  regs a ha hp := (h'.regs a ha hp).trans (h.regs a ha hp)
  seam k := (h'.seam k).trans (h.seam k)
  ecc := h'.ecc.trans h.ecc
  bursts := h'.bursts.trans h.bursts

theorem alike_dropDead {m : M} {k opcode : Nat} {j : Job} (h : m.seamHead k opcode = some j) : M.Alike m (m.seamDropDead k) where
  mem := rfl
  regs _ _ _ := rfl
  seam l := by
    rw [M.seamDropDead, M.seam_updSeam]
    split
    · rename_i hl
      rw [hl, M.dropWhile_live h]
    · rfl
  ecc := rfl
  bursts := rfl

/-- A register of a stack is no counter of ports. -/
theorem not_portCounter_seamReg (k : Nat) {off : Nat} (h : off < 0x500) : ¬ portCounter (seamReg k off) := by
  rintro ⟨x, hx⟩
  simp only [seamReg, coreReg, coreBase, cluReg, CORE_BANK_COLLIDE_CNT, CORE_SCRUB_COLLIDE_CNT, CORE_CC_BANK_WAIT_CYCLE_CNT,
    CORE_ELASTIC_BANK_WAIT_CYCLE_CNT, CLU_STOPE_COLLIDE_CNT, CLU_STOPE_ELASTIC_WAIT_CYCLE_CNT, SHAFT_LINK_COLLIDE_CNT,
    SHAFT_ELASTIC_WAIT_CYCLE_CNT, CLU_SLIP_CYCLE_CNT] at hx
  omega

theorem M.stored_clean {m : M} (h : m.die.bursts = []) (a n : Nat) : m.stored a n = m.read a n := by
  simp [M.stored, M.badBursts, M.burstsIn, h]

section
variable {v m : M} (h : M.Alike v m)
include h

theorem M.Alike.reg {a : Nat} (ha : ¬ portCounter a) : m.reg a = v.reg a := h.regs a List.not_mem_nil ha

theorem M.Alike.tally (slot off n : Nat) : m.tally slot off n = v.tally slot off n := by
  rw [M.tally, M.readN, h.mem, ← M.readN, ← M.tally]

theorem M.Alike.tState (slot : Nat) : m.tState slot = v.tState slot := congrArg (· % 16) (h.tally slot 0 1)

theorem M.Alike.tLen (slot : Nat) : m.tLen slot = v.tLen slot := h.tally ..

theorem M.Alike.rootOf (slot : Nat) : m.rootOf slot = v.rootOf slot := by
  rw [M.rootOf, h.tState, M.tRoot, h.tally, ← M.tRoot, ← M.rootOf]

theorem M.Alike.blockAddr (k i : Nat) : m.blockAddr k i = v.blockAddr k i := by
  rw [M.blockAddr, M.journalPages, M.fld, h.reg (not_portCounter_seamReg k (by decide)), ← M.fld, ← M.journalPages, ← M.blockAddr]

section
variable (hb : v.die.bursts = [])
include hb

theorem M.Alike.stored (a n : Nat) : m.stored a n = v.stored a n := by
  rw [M.stored_clean (h.bursts.trans hb), M.stored_clean hb, M.read, h.mem, M.read]

theorem M.Alike.storedN (a n : Nat) : m.storedN a n = v.storedN a n := congrArg ofBytes (h.stored hb a n)

theorem M.Alike.rootWord (k root : Nat) : m.rootWord k root = v.rootWord k root := by
  rw [M.rootWord, h.blockAddr, h.storedN hb, M.rootWord]

theorem M.Alike.geometryRoot (k slot : Nat) (g : Geometry) : m.geometryRoot k slot g = v.geometryRoot k slot g := by
  simp only [M.geometryRoot, h.rootOf, h.rootWord hb]

theorem M.Alike.chainFrom (k n b : Nat) : m.chainFrom k n b = v.chainFrom k n b := by
  induction n generalizing b with
  | zero => rfl
  | succ n ih => simp only [M.chainFrom, h.blockAddr, h.storedN hb, ih]

theorem M.Alike.leaves (k root layer : Nat) : m.leaves k root layer = v.leaves k root layer := by
  have hblock : m.blockLeaves k = v.blockLeaves k := funext fun b => by
    rw [M.blockLeaves, h.blockAddr, h.stored hb, ← M.blockLeaves]
  rw [M.leaves, M.chain, h.seam, h.blockAddr, h.storedN hb, h.chainFrom hb, hblock, ← M.chain, ← M.leaves]

end

/-! ### Tokens of a QAPPEND (R280) -/

theorem M.Alike.bytesIn (he : v.die.ecc = []) (c space off n : Nat) : Sys2Proof.bytesIn m c space off n = Sys2Proof.bytesIn v c space off n := by
  have hs : m.sterling c = v.sterling c := by
    rw [M.sterling, M.flag, h.reg (not_portCounter_coreReg c (by decide) (by decide)), ← M.flag, ← M.sterling]
  simp only [Sys2Proof.bytesIn, M.spaceRead, hs, M.readMem_clean _ _ _ _ _ _ he, M.readMem_clean _ _ _ _ _ _ (h.ecc.trans he), M.read, h.mem]
  split <;> rfl

/-- A row read as its banks come free, where no flip stands. -/
theorem M.Alike.rowsRead (he : v.die.ecc = []) (c space off n : Nat) :
    ((m.elasticRows c space off n false).spaceRead c space off n).1 = Sys2Proof.bytesIn v c space off n ∧
      M.Alike v ((m.elasticRows c space off n false).spaceRead c space off n).2 := by
  have hn := h.trans (m.portsMoved_elasticRows c space off n false).alike
  exact ⟨hn.bytesIn he .., by rw [M.spaceRead_snd _ _ _ _ _ (hn.ecc.trans he)]; exact hn⟩

end

/-- Token `i` of a QAPPEND. -/
def M.tokenAt (m : M) (j : Job) (i : Nat) : Token :=
  let header := bytesIn m j.c j.a.space (j.a.base + 16 * i) 16
  { slot := numAt header 0 4 % tallySlots, pos := numAt header 4 4
    key := bytesIn m j.c j.a.space (j.a.base + j.outer 2 + j.inner 2 * i) (appendRow j.appendGeometry)
    value := bytesIn m j.c j.b.space (j.b.base + j.inner 3 * i) (appendRow j.appendGeometry) }

/-- The tokens of a QAPPEND, read one behind another. -/
theorem M.Alike.tokenList {v m : M} (h : M.Alike v m) (he : v.die.ecc = []) (j : Job) :
    (m.tokens j).1 = (List.range (j.bd 2)).map (v.tokenAt j) ∧ M.Alike v (m.tokens j).2 := by
  unfold M.tokens
  dsimp only
  generalize j.bd 2 = k
  induction k with
  | zero => exact ⟨rfl, h⟩
  | succ k ih =>
    rw [List.range_succ, List.foldl_append, List.foldl_cons, List.foldl_nil, List.map_append]
    generalize (List.range k).foldl _ _ = x at ih
    obtain ⟨hts, hx⟩ := ih
    obtain ⟨hh, hx⟩ := hx.rowsRead he j.c j.a.space (j.a.base + 16 * k) 16
    obtain ⟨hk, hx⟩ := hx.rowsRead he j.c j.a.space (j.a.base + j.outer 2 + j.inner 2 * k) (appendRow j.appendGeometry)
    obtain ⟨hv, hx⟩ := hx.rowsRead he j.c j.b.space (j.b.base + j.inner 3 * k) (appendRow j.appendGeometry)
    exact ⟨by rw [hts, hh, hk, hv]; rfl, hx⟩

/-- A QAPPEND has the tokens that the state before it names. -/
theorem M.Alike.tokens {v m : M} (h : M.Alike v m) (he : v.die.ecc = []) (j : Job) : (m.tokens j).1 = (v.tokens j).1 := by
  have hv : M.Alike v v := (M.PortsMoved.refl v).alike
  rw [(h.tokenList he j).1, (hv.tokenList he j).1]

end Sys2Proof.Machine

namespace Sys2Proof.Machine

/-! ### A check that fails marks the slot (R643) -/

theorem M.geometryFails_reg (m : M) (k slot a : Nat) : (m.geometryFails k slot).reg a = (m.count (seamReg k SEAM_GEOM_ERR_CNT)).reg a := by
  unfold M.geometryFails M.faultPending
  split <;> rfl

theorem M.geometryFails_bytes (m : M) (k slot : Nat) : sameBytes m (m.geometryFails k slot) (tallyBase slot) 64 := by
  refine sameBytes_of_byte fun x hx => ?_
  have hmem : (m.count (seamReg k SEAM_GEOM_ERR_CNT)).mem = m.mem := rfl
  unfold M.geometryFails M.faultPending
  split
  · rw [hmem]
  · rw [M.setTFlag, M.setTally, M.writeN, M.byte_write, toBytes_length, if_neg (by simp only [oFLAGS]; omega), hmem]

theorem M.tFlag_setTFlag {m : M} {slot i : Nat} (hi : i < 32) (b : Bool) : (m.setTFlag slot i b).tFlag slot i = b := by
  have hlt : m.tally slot oFLAGS 4 < 2 ^ 32 := (ofBytes_lt _).trans_eq (by rw [CMem.read_length]; rfl)
  have hxor : m.tally slot oFLAGS 4 ^^^ 2 ^ i < 2 ^ 32 := Nat.xor_lt_two_pow hlt (Nat.pow_lt_pow_right (by decide) hi)
  rw [M.tFlag, M.setTFlag, M.tally_setTally_same]
  split
  · rename_i he
    rw [Nat.mod_eq_of_lt (by exact hlt)]
    exact beq_iff_eq.mp he
  · rename_i he
    rw [Nat.mod_eq_of_lt (by exact hxor), Nat.testBit_xor, Nat.testBit_two_pow_self]
    revert he
    cases (m.tally slot oFLAGS 4).testBit i <;> cases b <;> simp

theorem M.geometryFails_flag {m : M} {k slot : Nat} (h : m.tState slot ≠ tFREE) : (m.geometryFails k slot).tFlag slot fFAULT = true := by
  have hstate : (m.count (seamReg k SEAM_GEOM_ERR_CNT)).tState slot = m.tState slot := rfl
  rw [M.geometryFails, M.faultPending, hstate, if_neg h]
  exact M.tFlag_setTFlag (by decide) true

/-! ### A command that a stack serves -/

section
variable {s : State} {k opcode : Nat} {j : Job} (h : seamServes s k opcode j)
include h

theorem seamServes_serving : M.Serving (view s) ((view s).seamDropDead k) := by
  obtain ⟨-, he, hb, hhead, -⟩ := h
  exact serving_dropDead hhead hb he

theorem seamServes_alike : M.Alike (view s) ((view s).seamDropDead k) := by
  obtain ⟨-, -, -, hhead, -⟩ := h
  exact alike_dropDead hhead

theorem seamServes_head : ((view s).seamDropDead k).seamHead k opcode = some j := by
  have hsame := (seamServes_serving h).seamHead k opcode
  obtain ⟨-, -, -, hhead, -⟩ := h
  exact hsame.trans hhead

theorem seamServes_held : ((view s).seamDropDead k).seamHeld j = false := by
  obtain ⟨-, -, -, -, hheld, -⟩ := h
  exact hheld

end

theorem qappend_runs {s : State} {k : Nat} {j : Job} (h : seamServes s k 2 j) :
    runs (.seamQappendRequest k) s ((((view s).seamDropDead k).appended k j).seamDone k j) := by
  rw [← M.seamAppend_eq (seamServes_head h) (seamServes_held h)]
  exact onLive_eq (fun m => (m.seamDropDead k).seamAppend k) s h.1

theorem qappend_done {s : State} {k : Nat} {j : Job} (h : seamServes s k 2 j) :
    stackDone (view s) ((((view s).seamDropDead k).appended k j).seamDone k j) k j :=
  ((seamServes_serving h).appended k j).seamDone k j

/-- The state of a stack after it has answered the entries of a QATTEND. -/
def M.attended (m : M) (k : Nat) (j : Job) : M := ((List.range (j.bd 2)).foldl (fun m i => m.attendEntry k j i) m).elasticPath j.c k

theorem qattend_runs {s : State} {k : Nat} {j : Job} (h : seamServes s k 1 j) :
    runs (.seamQattendRequest k) s ((((view s).seamDropDead k).attended k j).seamDone k j) := by
  have heq := M.seamAttend_eq (seamServes_head h) (seamServes_held h)
  rw [M.attended, ← heq]
  exact onLive_eq (fun m => (m.seamDropDead k).seamAttend k) s h.1

theorem qattend_done {s : State} {k : Nat} {j : Job} (h : seamServes s k 1 j) :
    stackDone (view s) ((((view s).seamDropDead k).attended k j).seamDone k j) k j :=
  ((seamServes_serving h).attended k j).seamDone k j

/-- A command whose reads an arrival token holds waits, and the cycle is counted (R141). -/
theorem seam_waits {s : State} {k opcode : Nat} {j : Job} {i : Instr}
    (hi : (i = .seamQappendRequest k ∧ opcode = 2) ∨ (i = .seamQattendRequest k ∧ opcode = 1)) (hl : s.die.live = true)
    (hh : (view s).seamHead k opcode = some j) (hheld : (view s).seamHeld j = true) :
    runs i s (((view s).seamDropDead k).seamSlip j) := by
  have hhead : ((view s).seamDropDead k).seamHead k opcode = some j := by
    have hq : (((view s).seamDropDead k).seam k).queue = ((view s).seam k).queue := congrArg Seam.queue ((alike_dropDead hh).seam k)
    rw [← hh]
    unfold M.seamHead
    rw [hq]
    rfl
  have hheld' : ((view s).seamDropDead k).seamHeld j = true := hheld
  rcases hi with ⟨rfl, rfl⟩ | ⟨rfl, rfl⟩
  · have hrun := onLive_eq (fun m => (m.seamDropDead k).seamAppend k) s hl
    rw [M.seamAppend] at hrun
    simp only [hhead, hheld', if_true] at hrun
    exact hrun
  · have hrun := onLive_eq (fun m => (m.seamDropDead k).seamAttend k) s hl
    rw [M.seamAttend] at hrun
    simp only [hhead, hheld', if_true] at hrun
    exact hrun

/-! ### A single token (R281, R283, R643) -/

/-- The check of a single token, in a state that reads as the one before the command. -/
theorem M.tokensChecked_one {v m : M} {k : Nat} {j : Job} {t : Token} (h : M.Alike v m) (hv : M.Serving v m) (he : v.die.ecc = [])
    (ht : (v.tokens j).1 = [t]) :
    ∃ n, M.Alike v n ∧ M.Serving v n ∧ m.tokensChecked k j = M.tokenChecked k j.appendGeometry ([], n) t := by
  refine ⟨(m.tokens j).2, (h.tokenList he j).2, hv.tokens j, ?_⟩
  rw [M.tokensChecked, h.tokens he, ht]
  rfl

end Sys2Proof.Machine

namespace Sys2Proof.Machine

theorem M.seamDone_mem (m : M) (k : Nat) (j : Job) : (m.seamDone k j).mem = m.mem := rfl

theorem M.seamDone_ecc (m : M) (k : Nat) (j : Job) : (m.seamDone k j).die.ecc = m.die.ecc := rfl

theorem M.seamDone_reg (m : M) (k : Nat) (j : Job) (a : Nat) : (m.seamDone k j).reg a = m.reg a := rfl

/-- A counter of a stack is advanced by one. -/
theorem M.Alike.counted {v m n : M} (h : M.Alike v m) {k off : Nat} (ho : off < 0x500)
    (hn : n.reg (seamReg k off) = (m.count (seamReg k off)).reg (seamReg k off)) :
    n.regN (seamReg k off) = min (v.regN (seamReg k off) + 1) counterMax := by
  rw [M.regN, hn, ← M.regN, M.regN_count, M.regN, h.reg (not_portCounter_seamReg k ho), ← M.regN]

/-! ### A single token whose check finds no request (R643) -/

/-- Where a slot holds no request of the geometry, the token is counted and marks the slot. -/
theorem qappend_unmatched {s : State} {k : Nat} {j : Job} {t : Token} (h : seamServes s k 2 j) (ht : ((view s).tokens j).1 = [t])
    (hg : ((view s).geometryCheck k t.slot j.appendGeometry 1).1 = none) :
    ∃ m, runs (.seamQappendRequest k) s m ∧ stackDone (view s) m k j ∧ sameBytes (view s) m (tallyBase t.slot) 64 ∧
      ((view s).tState t.slot ≠ tFREE → m.tFlag t.slot fFAULT = true) ∧
      m.regN (seamReg k SEAM_GEOM_ERR_CNT) = min ((view s).regN (seamReg k SEAM_GEOM_ERR_CNT) + 1) counterMax := by
  have hrun := qappend_runs h
  have hdone := qappend_done h
  obtain ⟨-, he, hb, -⟩ := id h
  obtain ⟨n, hn, hv, hchecked⟩ := M.tokensChecked_one (k := k) (seamServes_alike h) (seamServes_serving h) he ht
  have hroot : n.geometryRoot k t.slot j.appendGeometry = none := by
    rw [hn.geometryRoot hb]
    rw [(M.Serving.refl hb he).geometryCheck_eq] at hg
    exact hg
  have hone : ((view s).seamDropDead k).tokensChecked k j = ([], n.geometryFails k t.slot) := by
    rw [hchecked, M.tokenChecked, hv.geometryCheck_eq, hroot]
    rfl
  have happ : ((view s).seamDropDead k).appended k j = n.geometryFails k t.slot := by
    rw [M.appended, hone]
    rfl
  rw [happ] at hrun hdone
  refine ⟨_, hrun, hdone, fun x hx => ?_, fun hs => ?_, hn.counted (by decide) ?_⟩
  · rw [M.read, M.seamDone_mem, ← M.read, n.geometryFails_bytes k t.slot x hx, M.read, hn.mem, M.read]
  · exact M.geometryFails_flag (by rwa [hn.tState])
  · rw [M.seamDone_reg, M.geometryFails_reg]

/-! ### A single token that this stack writes (R271, R281, R282) -/

/-- A single token whose check finds its request and that lands on this stack. -/
theorem M.tokensChecked_found {v m : M} {k root : Nat} {j : Job} {t : Token} (h : M.Alike v m) (hs : M.Serving v m) (hb : v.die.bursts = [])
    (he : v.die.ecc = []) (ht : (v.tokens j).1 = [t]) (hg : (v.geometryCheck k t.slot j.appendGeometry 1).1 = some root)
    (hp : placement t.slot j.appendGeometry.layers (t.pos / 2 ^ j.appendGeometry.log2) = k) :
    ∃ n, M.Alike v n ∧ M.Serving v n ∧ m.tokensChecked k j =
      if t.pos < v.tLen t.slot then ([], n.count (seamReg k SEAM_APPEND_BELOW_CNT)) else ([t], n) := by
  obtain ⟨n, hn, hv, hchecked⟩ := M.tokensChecked_one (k := k) h hs he ht
  have hroot : n.geometryRoot k t.slot j.appendGeometry = some root := by
    rw [hn.geometryRoot hb]
    rw [(M.Serving.refl hb he).geometryCheck_eq] at hg
    exact hg
  refine ⟨n, hn, hv, ?_⟩
  rw [hchecked, M.tokenChecked, hv.geometryCheck_eq, hroot]
  simp only [Option.isSome_some, if_true, hp, ne_eq, not_true_eq_false, if_false, hn.tLen, List.nil_append]

/-- A token below the committed length is counted and not written (R283). -/
theorem qappend_below {s : State} {k root : Nat} {j : Job} {t : Token} (h : seamServes s k 2 j) (ht : ((view s).tokens j).1 = [t])
    (hg : ((view s).geometryCheck k t.slot j.appendGeometry 1).1 = some root)
    (hp : placement t.slot j.appendGeometry.layers (t.pos / 2 ^ j.appendGeometry.log2) = k) (hlen : t.pos < (view s).tLen t.slot) :
    ∃ m, runs (.seamQappendRequest k) s m ∧ stackDone (view s) m k j ∧ m.mem = (view s).mem ∧
      m.regN (seamReg k SEAM_APPEND_BELOW_CNT) = min ((view s).regN (seamReg k SEAM_APPEND_BELOW_CNT) + 1) counterMax := by
  have hrun := qappend_runs h
  have hdone := qappend_done h
  obtain ⟨-, he, hb, -⟩ := id h
  obtain ⟨n, hn, -, hchecked⟩ := M.tokensChecked_found (seamServes_alike h) (seamServes_serving h) hb he ht hg hp
  have happ : ((view s).seamDropDead k).appended k j = n.count (seamReg k SEAM_APPEND_BELOW_CNT) := by
    rw [M.appended, hchecked, if_pos hlen]
    rfl
  rw [happ] at hrun hdone
  exact ⟨_, hrun, hdone, hn.mem, hn.counted (by decide) (M.seamDone_reg ..)⟩

/-! ### Heads written one behind another -/

section
variable {m : M} {a o n stride : Nat} {f : Nat → Bytes} (hf : ∀ i, (f i).length = n) (hn : o + n ≤ stride)
include hf hn

/-- Pieces that lie each in its own stride of a range leave the bytes outside the range. -/
theorem M.stored_strided (k : Nat) : M.Stored m (m.writePieces (a + o) stride f k) a (stride * k) := by
  induction k with
  | zero => exact .refl ..
  | succ k ih =>
    rw [M.writePieces_succ, Nat.mul_succ]
    refine ⟨ih.die, fun x hx => ?_⟩
    rw [M.byte_write, hf, if_neg (by omega), ih.bytes x (by omega)]

theorem M.read_strided {k i : Nat} (hi : i < k) : (m.writePieces (a + o) stride f k).read (a + o + stride * i) n = f i := by
  induction k with
  | zero => exact absurd hi (Nat.not_lt_zero i)
  | succ k ih =>
    rw [M.writePieces_succ]
    by_cases he : i = k
    · rw [he]
      conv_lhs => rw [← hf k]
      exact CMem.read_write_same _ _ _
    · have hlt : i < k := by omega
      have hmul : stride * i + stride ≤ stride * k := Nat.mul_succ stride i ▸ Nat.mul_le_mul_left stride hlt
      rw [← ih hlt]
      exact CMem.read_write_other _ _ _ _ _ (.inl (by omega))

end

/-- A read outside a range that alone has changed. -/
theorem M.Stored.read {v m : M} {a n b k : Nat} (h : M.Stored v m a n) (hb : b + k ≤ a ∨ a + n ≤ b) : m.read b k = v.read b k := by
  rw [M.read, M.read, CMem.read_eq, CMem.read_eq]
  refine List.map_congr_left fun i hi => h.bytes _ ?_
  have hi := List.mem_range.mp hi
  omega

/-! ### A BF16 token in its page (R271, R281) -/

/-- The row of a position within a head. -/
def Geometry.rowOf (g : Geometry) (pos : Nat) : Nat := pos % 2 ^ g.log2 * (2 * g.d)

/-- Bytes of a head of a BF16 page. -/
def Geometry.headBytes (g : Geometry) : Nat := 2 ^ g.log2 * (2 * g.d)

theorem Geometry.place_eq (g : Geometry) (a pos h : Nat) :
    a + (h * 2 ^ g.log2 + pos % 2 ^ g.log2) * (2 * g.d) = a + g.rowOf pos + g.headBytes * h := by
  rw [Geometry.rowOf, Geometry.headBytes]
  ring

theorem Geometry.rowOf_fits (g : Geometry) (pos : Nat) : g.rowOf pos + 2 * g.d ≤ g.headBytes := by
  have hpos : pos % 2 ^ g.log2 < 2 ^ g.log2 := Nat.mod_lt _ (Nat.two_pow_pos _)
  have hmul := Nat.mul_le_mul_right (2 * g.d) (Nat.succ_le_of_lt hpos)
  rwa [Nat.succ_mul] at hmul

theorem Geometry.half_eq {g : Geometry} (hf : g.fmt = 5) : g.half = g.headBytes * g.hkv := by
  rw [Geometry.half, hf, Geometry.headBytes, kvBytes, if_pos rfl]
  ring

/-- The heads of a row as a BF16 page holds them. -/
def Geometry.headsOf (g : Geometry) (row : Bytes) (h : Nat) : Bytes := slice row (h * (2 * g.d)) (2 * g.d)

/-- A half of a BF16 token is written head by head, as it stands. -/
theorem M.writeHalf_bf16 {m : M} {g : Geometry} (hf : g.fmt = 5) (hb : m.die.bursts = []) (k page : Nat) (scale : Bytes) (isValue : Bool)
    (pos : Nat) (row : Bytes) : m.writeHalf k page g scale isValue pos row =
      m.writePieces (pageAddr k page + bit isValue * g.half + g.rowOf pos) g.headBytes (g.headsOf row) g.hkv := by
  have hbytes : g.d * kvBytes g.fmt = 2 * g.d := by rw [hf, Nat.mul_comm]; rfl
  rw [M.writeHalf]
  simp only [hbytes]
  generalize g.hkv = n
  have hkept := M.stored_strided (m := m) (a := pageAddr k page + bit isValue * g.half) (fun h => slice_length row (h * (2 * g.d)) (2 * g.d))
    (g.rowOf_fits pos)
  induction n with
  | zero => rfl
  | succ n ih =>
    have hbn : (m.writePieces (pageAddr k page + bit isValue * g.half + g.rowOf pos) g.headBytes (g.headsOf row) n).die.bursts = [] :=
      (congrArg Die.bursts (hkept n).die :).trans hb
    rw [List.range_succ, List.foldl_append, ih, M.writePieces_succ, List.foldl_cons, List.foldl_nil, hf, ← M.stateWrite_clean _ _ _ 1 hbn,
      ← g.place_eq]
    rfl

end Sys2Proof.Machine

namespace Sys2Proof.Machine

/-- A BF16 token in its page: its keys and behind them its values, head by head, and its count. -/
structure M.TokenIn (m n : M) (k page : Nat) (g : Geometry) (t : Token) : Prop where
  keys : ∀ h, h < g.hkv → n.read (pageAddr k page + g.rowOf t.pos + g.headBytes * h) (2 * g.d) = g.headsOf t.key h
  values : ∀ h, h < g.hkv → n.read (pageAddr k page + g.half + g.rowOf t.pos + g.headBytes * h) (2 * g.d) = g.headsOf t.value h
  bytes : sameBytes m n (pageAddr k page) (2 * g.half)
  count : n.regN (seamReg k SEAM_APPEND_TOKEN_CNT) = min (m.regN (seamReg k SEAM_APPEND_TOKEN_CNT) + 1) counterMax

theorem M.writeToken_bf16 {m : M} {g : Geometry} (hf : g.fmt = 5) (hb : m.die.bursts = []) (k page : Nat) (scale : Bytes) (t : Token) :
    M.TokenIn m (m.writeToken k page g scale t) k page g t := by
  have hrow := g.rowOf_fits t.pos
  have hlen : ∀ row h, (g.headsOf row h).length = 2 * g.d := fun row h => slice_length _ _ _
  have hhalf := Geometry.half_eq hf
  have hkey := M.writeHalf_bf16 hf hb k page scale false t.pos t.key
  have hkeys := M.stored_strided (m := m) (a := pageAddr k page) (hlen t.key) hrow g.hkv
  have hread := fun h (hh : h < g.hkv) => M.read_strided (m := m) (a := pageAddr k page) (hlen t.key) hrow hh
  rw [show pageAddr k page + bit false * g.half + g.rowOf t.pos = pageAddr k page + g.rowOf t.pos by simp [bit]] at hkey
  rw [← hkey, ← hhalf] at hkeys
  simp only [← hkey] at hread
  have hb' : (m.writeHalf k page g scale false t.pos t.key).die.bursts = [] := (congrArg Die.bursts hkeys.die :).trans hb
  have hvalue := M.writeHalf_bf16 hf hb' k page scale true t.pos t.value
  rw [show pageAddr k page + bit true * g.half + g.rowOf t.pos = pageAddr k page + g.half + g.rowOf t.pos by simp [bit]] at hvalue
  have hvalues := M.stored_strided (m := m.writeHalf k page g scale false t.pos t.key) (a := pageAddr k page + g.half) (hlen t.value) hrow g.hkv
  have hreadValue := fun h (hh : h < g.hkv) =>
    M.read_strided (m := m.writeHalf k page g scale false t.pos t.key) (a := pageAddr k page + g.half) (hlen t.value) hrow hh
  rw [← hvalue, ← hhalf] at hvalues
  simp only [← hvalue] at hreadValue
  refine ⟨fun h hh => ?_, hreadValue, sameBytes_of_byte fun x hx => ?_, ?_⟩
  · have hmul := Nat.mul_le_mul_left g.headBytes (Nat.succ_le_of_lt hh)
    rw [Nat.mul_succ, ← hhalf] at hmul
    rw [← hread h hh]
    exact hvalues.read (.inl (by omega))
  · show ((m.writeHalf k page g scale false t.pos t.key).writeHalf k page g scale true t.pos t.value).mem.byte x = _
    rw [hvalues.bytes x (by omega), hkeys.bytes x (by omega)]
  · have hregs : ∀ a, ((m.writeHalf k page g scale false t.pos t.key).writeHalf k page g scale true t.pos t.value).reg a = m.reg a := fun a =>
      M.reg_congr (congrArg Die.regs (hvalues.die.trans hkeys.die)) a
    rw [M.writeToken, M.regN_count, M.regN, hregs, ← M.regN]

/-- A page that the chain has is taken as it stands. -/
theorem M.pageFor_found {m : M} {k slot root layer i : Nat} {leaf : Leaf} (h : (m.leaves k root layer)[i / 32]? = some leaf)
    (hp : leaf.page ≠ noPage) (scale : Bytes) : m.pageFor k slot root layer i scale = (some leaf, m) := by
  unfold M.pageFor
  simp only [h, if_pos hp]

theorem groupTokens_one (log2 : Nat) (t : Token) : groupTokens log2 [t] = [(t.slot, t.pos / 2 ^ log2, [t])] := by
  simp [groupTokens]

/-- A BF16 token whose page is this stack's and is there is written into it. -/
theorem qappend_writes {s : State} {k root : Nat} {j : Job} {t : Token} {leaf : Leaf} (h : seamServes s k 2 j)
    (ht : ((view s).tokens j).1 = [t]) (hg : ((view s).geometryCheck k t.slot j.appendGeometry 1).1 = some root)
    (hp : placement t.slot j.appendGeometry.layers (t.pos / 2 ^ j.appendGeometry.log2) = k) (hlen : (view s).tLen t.slot ≤ t.pos)
    (hf : j.appendGeometry.fmt = 5)
    (hleaf : ((view s).leaves k root j.appendGeometry.layers)[t.pos / 2 ^ j.appendGeometry.log2 / 32]? = some leaf)
    (hpage : leaf.page ≠ noPage) (hroot : (view s).rootOf t.slot = some root) :
    ∃ m, runs (.seamQappendRequest k) s m ∧ stackDone (view s) m k j ∧ M.TokenIn (view s) m k (leaf.page / 32) j.appendGeometry t := by
  have hrun := qappend_runs h
  have hdone := qappend_done h
  obtain ⟨-, he, hb, -⟩ := id h
  obtain ⟨n, hn, hv, hchecked⟩ := M.tokensChecked_found (seamServes_alike h) (seamServes_serving h) hb he ht hg hp
  have happ : ((view s).seamDropDead k).appended k j = n.writeToken k (leaf.page / 32) j.appendGeometry leaf.scale t := by
    rw [M.appended, hchecked, if_neg (by omega), groupTokens_one, List.foldl_cons, List.foldl_nil, M.groupWritten, hn.rootOf, hroot]
    dsimp only
    rw [hv.noteChain, M.appendPage]
    dsimp only
    rw [M.pageFor_found (by rw [hn.leaves hb]; exact hleaf) hpage]
    rfl
  rw [happ] at hrun hdone
  obtain ⟨hkeys, hvalues, hbytes, hcount⟩ := M.writeToken_bf16 hf hv.bursts k (leaf.page / 32) leaf.scale t
  refine ⟨_, hrun, hdone, hkeys, hvalues, fun x hx => ?_, ?_⟩
  · exact (hbytes x hx).trans (by rw [M.read, hn.mem, M.read])
  · refine hcount.trans ?_
    rw [M.regN, hn.reg (not_portCounter_seamReg k (by decide)), ← M.regN]

/-! ### A single entry whose slot holds no request (R290 to R292) -/

/-- Bytes written into Scratch, where no flip stands and no injection is armed. -/
theorem M.spaceWrite_scratch {m : M} {c off : Nat} {bs : Bytes} (he : m.die.ecc = []) (hi : m.flag (injectReg c 0) 0 = false)
    (hin : off + bs.length ≤ 0x80000) : M.Stored m (m.spaceWrite c SCRATCH off bs) (memAddr c 1 off) bs.length ∧
      (m.spaceWrite c SCRATCH off bs).read (memAddr c 1 off) bs.length = bs := by
  by_cases hbs : bs = []
  · subst hbs
    rw [M.spaceWrite_nil]
    exact ⟨.refl .., rfl⟩
  · rw [M.spaceWrite_clean m c SCRATCH off bs hbs (by decide) hin he (by decide) hi]
    refine ⟨⟨rfl, fun x hx => ?_⟩, CMem.read_write_same _ _ _⟩
    show (m.write (memAddr c 1 off) bs).mem.byte x = _
    rw [M.byte_write, if_neg (by omega)]

theorem emptyRecord_n (d h : Nat) : ((List.replicate h (Soft.empty d)).flatMap fun s => s.n.flatMap fun x => toBytes 4 x.toNat) =
    zeros (4 * d * h) := by
  have hword : toBytes 4 (0 : F32).toNat = List.replicate 4 0 := rfl
  rw [List.flatMap_replicate, Soft.empty, List.flatMap_replicate, hword, List.flatten_replicate_replicate, List.flatten_replicate_replicate,
    zeros]
  congr 1
  ring

theorem emptyRecord_word (d h : Nat) (f : Soft → F32) :
    ((List.replicate h (Soft.empty d)).flatMap fun s => toBytes 4 (f s).toNat).length = 4 * h := by
  rw [List.flatMap_replicate, List.length_flatten, List.map_replicate, toBytes_length, List.sum_replicate, smul_eq_mul, Nat.mul_comm]

/-- The record of an entry that sees nothing: its n-words are zero, and behind them only its other words are written. -/
theorem M.writePartial_empty {m : M} {j : Job} {off : Nat} (he : m.die.ecc = []) (hi : m.flag (injectReg j.c 0) 0 = false)
    (hs : j.w.space = SCRATCH) (hin : off + partialBytes (j.d 0) (j.d 1) ≤ 0x80000) :
    (m.writePartial j off (List.replicate (j.d 1) (Soft.empty (j.d 0)))).read (memAddr j.c 1 off) (4 * j.d 0 * j.d 1) =
        zeros (4 * j.d 0 * j.d 1) ∧
      (m.writePartial j off (List.replicate (j.d 1) (Soft.empty (j.d 0)))).die.ecc = [] ∧
      ∀ a, ¬ portCounter a → (m.writePartial j off (List.replicate (j.d 1) (Soft.empty (j.d 0)))).reg a = m.reg a := by
  have hpad : j.d 1 ≤ 4 * ceilDiv (j.d 1) 4 := by rw [ceilDiv]; omega
  unfold partialBytes at hin
  rw [M.writePartial, List.length_replicate]
  dsimp only
  rw [hs, emptyRecord_n]
  have hports := m.portsMoved_elasticRows j.c SCRATCH off (partialBytes (j.d 0) (j.d 1)) true
  generalize m.elasticRows j.c SCRATCH off (partialBytes (j.d 0) (j.d 1)) true = n at hports
  have hn : n.die.ecc = [] := hports.ecc.trans he
  have hni : n.flag (injectReg j.c 0) 0 = false := (hports.flag (not_portCounter_injectReg j.c (by decide))).trans hi
  have hkeep : ∀ {p q : M} {a k : Nat}, M.Stored p q a k → p.die.ecc = [] → p.flag (injectReg j.c 0) 0 = false →
      q.die.ecc = [] ∧ q.flag (injectReg j.c 0) 0 = false := fun hst hp hf =>
    ⟨hst.die ▸ hp, (M.flag_congr (congrArg Die.regs hst.die) _ _).trans hf⟩
  have hm := emptyRecord_word (j.d 0) (j.d 1) Soft.m
  have hsum := emptyRecord_word (j.d 0) (j.d 1) Soft.s
  obtain ⟨hst1, hread⟩ := M.spaceWrite_scratch (bs := zeros (4 * j.d 0 * j.d 1)) (off := off) hn hni (by rw [zeros_length]; omega)
  obtain ⟨he1, hi1⟩ := hkeep hst1 hn hni
  obtain ⟨hst2, -⟩ := M.spaceWrite_scratch (bs := (List.replicate (j.d 1) (Soft.empty (j.d 0))).flatMap fun s => toBytes 4 s.m.toNat)
    (off := off + 4 * j.d 0 * j.d 1) he1 hi1 (by rw [hm]; omega)
  obtain ⟨he2, hi2⟩ := hkeep hst2 he1 hi1
  obtain ⟨hst3, -⟩ := M.spaceWrite_scratch (bs := (List.replicate (j.d 1) (Soft.empty (j.d 0))).flatMap fun s => toBytes 4 s.s.toNat)
    (off := off + 4 * j.d 0 * j.d 1 + 16 * ceilDiv (j.d 1) 4) he2 hi2 (by rw [hsum]; omega)
  rw [zeros_length] at hread
  refine ⟨?_, hst3.die ▸ he2, fun a ha => ?_⟩
  · rw [hst3.read (.inl ?_), hst2.read (.inl ?_), hread]
    · rw [memAddr_add _ _ (off + 4 * j.d 0 * j.d 1), memAddr_add _ _ off]
      omega
    · rw [memAddr_add _ _ (off + 4 * j.d 0 * j.d 1 + 16 * ceilDiv (j.d 1) 4), memAddr_add _ _ off]
      omega
  · rw [M.reg_congr (congrArg Die.regs ((hst3.die.trans hst2.die).trans hst1.die)), hports.reg ha]

/-- An entry whose slot holds no request marks the slot and writes the empty record. -/
theorem M.attendEntry_empty {v m : M} {k slot i : Nat} {j : Job} (h : M.Alike v m) (hv : M.Serving v m) (he : v.die.ecc = [])
    (hroot : v.rootOf slot = none) (hslot : numAt (bytesIn v j.c j.b.space (j.b.base + 16 * i) 16) 0 4 % tallySlots = slot) :
    ∃ n, M.Alike v n ∧ m.attendEntry k j i =
      ((n.geometryFails k slot).writePartial j (j.w.base + j.inner 4 * (32 * i + stackClass slot j.attendGeometry.layers k))
        (List.replicate (j.d 1) (Soft.empty (j.d 0)))).count (seamReg k SEAM_ATTEND_ENTRY_CNT) := by
  obtain ⟨hitem, h1⟩ := h.rowsRead he j.c j.b.space (j.b.base + 16 * i) 16
  obtain ⟨-, h2⟩ := h1.rowsRead he j.c j.a.space (j.a.base + j.inner 2 * i) (queryRow j)
  have hv2 := (hv.rowsRead j.c j.b.space (j.b.base + 16 * i) 16 false).rowsRead j.c j.a.space (j.a.base + j.inner 2 * i) (queryRow j) false
  have hnone := h2.rootOf slot
  refine ⟨_, h2, ?_⟩
  rw [M.attendEntry]
  dsimp only
  rw [hitem, hslot, hv2.geometryCheck_eq, M.geometryRoot, hnone, hroot]
  rfl

/-- Marking a slot leaves flips and injections. -/
theorem M.geometryFails_inject (m : M) (k slot c : Nat) : (m.geometryFails k slot).die.ecc = m.die.ecc ∧
    (m.geometryFails k slot).flag (injectReg c 0) 0 = m.flag (injectReg c 0) 0 := by
  have hne : injectReg c 0 ≠ seamReg k SEAM_GEOM_ERR_CNT := by
    rw [injectReg_core c (by decide)]
    simp only [coreReg, coreBase, seamReg, CORE_ECC_INJECT, SEAM_GEOM_ERR_CNT]
    omega
  refine ⟨?_, ?_⟩
  · unfold M.geometryFails M.faultPending
    split <;> rfl
  · rw [M.flag, M.geometryFails_reg, M.reg_count, if_neg hne, ← M.flag]

/-- A single entry whose slot holds no request answers the empty record, and is counted. -/
theorem qattend_empty {s : State} {k slot : Nat} {j : Job} (h : seamServes s k 1 j) (hone : j.bd 2 = 1) (hroot : (view s).rootOf slot = none)
    (hslot : numAt (bytesIn (view s) j.c j.b.space j.b.base 16) 0 4 % tallySlots = slot) (hw : j.w.space = SCRATCH)
    (hin : j.w.base + 32 * j.inner 4 ≤ 0x80000) (hfit : partialBytes (j.d 0) (j.d 1) ≤ j.inner 4) :
    ∃ m, runs (.seamQattendRequest k) s m ∧ stackDone (view s) m k j ∧
      bytesIn m j.c SCRATCH (j.w.base + j.inner 4 * stackClass slot j.attendGeometry.layers k) (4 * j.d 0 * j.d 1) =
        zeros (4 * j.d 0 * j.d 1) ∧
      m.regN (seamReg k SEAM_ATTEND_ENTRY_CNT) = min ((view s).regN (seamReg k SEAM_ATTEND_ENTRY_CNT) + 1) counterMax := by
  have hrun := qattend_runs h
  have hdone := qattend_done h
  obtain ⟨-, he, -, -, -, hi⟩ := id h
  obtain ⟨n, hn, hentry⟩ := M.attendEntry_empty (k := k) (i := 0) (seamServes_alike h) (seamServes_serving h) he hroot hslot
  have hclass : stackClass slot j.attendGeometry.layers k < 32 := Nat.mod_lt _ (by decide)
  have hrow : j.inner 4 * stackClass slot j.attendGeometry.layers k + j.inner 4 ≤ 32 * j.inner 4 := by
    rw [← Nat.mul_succ, Nat.mul_comm 32]
    exact Nat.mul_le_mul_left _ hclass
  obtain ⟨hecc, hflag⟩ := n.geometryFails_inject k slot j.c
  have hni : n.flag (injectReg j.c 0) 0 = false := by
    rw [M.flag, hn.reg (not_portCounter_injectReg j.c (by decide)), ← M.flag, hi]
  obtain ⟨hread, hecc', hreg⟩ := M.writePartial_empty (off := j.w.base + j.inner 4 * stackClass slot j.attendGeometry.layers k)
    (hecc.trans (hn.ecc.trans he)) (hflag.trans hni) hw (by omega)
  have hattended : ((view s).seamDropDead k).attended k j = ((view s).seamDropDead k |>.attendEntry k j 0).elasticPath j.c k := by
    rw [M.attended, hone, List.range_one, List.foldl_cons, List.foldl_nil]
  rw [Nat.mul_zero, Nat.zero_add] at hentry
  rw [hattended, hentry] at hrun hdone
  generalize (n.geometryFails k slot).writePartial j _ _ = q at hread hecc' hreg hrun hdone
  have hports := (q.count (seamReg k SEAM_ATTEND_ENTRY_CNT)).portsMoved_elasticPath j.c k
  refine ⟨_, hrun, hdone, ?_, ?_⟩
  · have hlen : 4 * j.d 0 * j.d 1 ≤ partialBytes (j.d 0) (j.d 1) := Nat.le_add_right _ _
    have hext : spaceExtent SCRATCH = 0x80000 := rfl
    rw [bytesIn_inside _ j.c SCRATCH _ _ ((M.seamDone_ecc _ k j).trans (hports.ecc.trans ((M.count_ecc ..).trans hecc'))) (by decide)
      (by omega), M.read, M.seamDone_mem, hports.mem]
    exact hread
  · have hne : seamReg k SEAM_ATTEND_ENTRY_CNT ≠ seamReg k SEAM_GEOM_ERR_CNT := by simp [seamReg]
    have hpc := not_portCounter_seamReg k (off := SEAM_ATTEND_ENTRY_CNT) (by decide)
    rw [M.regN, M.seamDone_reg, hports.reg hpc, ← M.regN, M.regN_count, M.regN, hreg _ hpc, M.geometryFails_reg, M.reg_count, if_neg hne,
      hn.reg hpc, ← M.regN]

end Sys2Proof.Machine

namespace Sys2Proof

open Machine

/-- Settles O46: whatever a stack reads, writes, counts or marks for its command, queues and flights stand until its part is done;
of a single token or entry the state before the command says what the checks find, and the bytes are written as they stand. -/
theorem seamServesCommands : Obligations.SeamServesCommands := by
  refine fun s k j t _ => ⟨fun h => ⟨_, qappend_runs h, qappend_done h⟩, fun h => ⟨_, qattend_runs h, qattend_done h⟩,
    fun i opcode hi hl hh hheld => ?_, fun h ht hg => qappend_unmatched h ht hg, fun root h ht hg hp => ⟨fun hlen => ?_, ?_⟩,
    fun slot h hone hroot hslot hw hin hfit => qattend_empty h hone hroot hslot hw hin hfit⟩
  · have hqueue := congrArg Seam.queue ((alike_dropDead hh).seam k)
    refine ⟨_, seam_waits hi hl hh hheld, hqueue, M.count_cores .., rfl, fun a ha => ?_, M.regN_count ..⟩
    exact (M.reg_count ..).trans (if_neg fun e => ha (List.mem_singleton.mpr e))
  · exact qappend_below h ht (congrArg Prod.fst hg) hp hlen
  · intro leaf hlen hf hleaf hpage hroot
    obtain ⟨m, hrun, hdone, hkeys, hvalues, hbytes, hcount⟩ := qappend_writes h ht (congrArg Prod.fst hg) hp hlen hf hleaf hpage hroot
    refine ⟨m, hrun, hdone, fun x hx => ⟨?_, ?_⟩, hbytes, hcount⟩
    · rw [Geometry.place_eq]
      exact hkeys x hx
    · rw [Geometry.place_eq]
      exact hvalues x hx

end Sys2Proof
